-- ==== Sys2Proof/Word.lean ====
section
/-! DEFINITION. The word types of the block and their plainest arithmetic. -/

namespace Sys2Proof

/-- One byte, the smallest addressable unit (R4). -/
abbrev Byte := BitVec 8

/-- A 16-bit word. -/
abbrev W16 := BitVec 16

/-- A 32-bit word. -/
abbrev W32 := BitVec 32

/-- A 64-bit word: registers, counters, addresses, handles. -/
abbrev W64 := BitVec 64

/-- A 64-byte descriptor, bit 0 first (R119). -/
abbrev Desc := BitVec 512

/-- A finite map from numbers, held as a list of pairs with strictly rising keys. -/
abbrev Map (α : Type) := List (Nat × α)

end Sys2Proof
end

