-- ==== Sys2Proof/Config.lean ====
section
/-! DEFINITION. What the manual leaves open: the free values. Each is a constant without a body, so no proof sees a
value of it. The step hands each draw a fresh number, the plain counter `State.freeCtr`. -/

namespace Sys2Proof

/-- A draw of the entropy source: region keys (R93), seeds (R55), initial PSNs (R255), nonces (R483), FORM 2 keys
(R494), evidence keys. Draw number `n`. (log 3) -/
opaque Config.entropy : Nat → BitVec 256

/-- A 64-bit value the manual leaves open, draw number `n`. (log 3) -/
opaque Config.freeWord : Nat → BitVec 64

/-- A choice the manual leaves open among alternatives, draw number `n`. (log 3) -/
opaque Config.freeNat : Nat → Nat

/-- The gate arithmetic of R189 is promised within 4 units in the last place only: the binary32 gate for a gate mode,
the logit of the choice and the logits it is normalised over. (log 4) -/
opaque Config.gate : Nat → W32 → List W32 → W32

/-- Whether an SLH-DSA-SHA2-128s signature (FIPS 205) over a message verifies under a public key (R484). (log 5) -/
opaque Config.slhVerify : List Byte → List Byte → List Byte → Bool

/-- The SLH-DSA-SHA2-128f signature (17,088 bytes) of the identity key over a message (R500). (log 5) -/
opaque Config.slhSign : List Byte → List Byte → List Byte

/-- The public key of a drawn SLH-DSA-SHA2-128f key pair (R499). (log 5) -/
opaque Config.slhPublic : List Byte → List Byte

/-- The owner public key whose SHA-256 an owner slot holds (R481, R483). (log 80) -/
opaque Config.ownerKey : List Byte → List Byte

/-- The bytes that fuses and boot flash are delivered with and the manual does not list: the module serial number,
ROOT_PKH, certificates, the Umber ROM and the factory signature references. (log 6) -/
opaque Config.factory : Nat → List Byte

/-- The value a measurement gives that no command carries (means over a window, sampled rates). (log 3) -/
opaque Config.measured : Nat → Nat → BitVec 64

/-- The Microscaling values the manual leaves open (R68, R69): entry 0 the scale of a block of zeros, entry i + 1 element
i of a block under scale 0xFF, for a codec format code. (log 7) -/
opaque Config.mxOpen : Nat → Nat → Byte

/-- The digest of an evidence entry over content whose bytes the manual does not lay out: the entry's KIND, and the values
that it measures (R500). (log 37) -/
opaque Config.evidence : Nat → List Nat → BitVec 256

/-- The next-hop MAC address that firmware has resolved for an IP address (R258). (log 38) -/
opaque Config.nextHop : Nat → Nat

/-- The SEV of a log event whose severity the manual does not state (R471). (log 36) -/
opaque Config.severity : Nat → Nat

/-- The SRC of a log event whose writer the manual does not name (R471). (log 36) -/
opaque Config.logSource : Nat → Nat

end Sys2Proof
end

