-- ==== Sys2Proof/Machine/Maps.lean ====
section
/-! DEFINITION. Finite maps and bit fields: the one place where a sparse table is read or written, a field of a word is
taken, and bytes are put together (little-endian, R4). -/

namespace Sys2Proof.Machine

open Sys2Proof

/-- The entry of key `i`. -/
def mget {α : Type} : Map α → Nat → Option α
  | [], _ => none
  | (k, v) :: m, i => if i = k then some v else mget m i

/-- The entry of key `i`, or `d` where none is listed. -/
def mgetD {α : Type} (m : Map α) (i : Nat) (d : α) : α := (mget m i).getD d

/-- Writes the entry of key `i`, keeping the keys rising. -/
def mset {α : Type} : Map α → Nat → α → Map α
  | [], i, v => [(i, v)]
  | (k, w) :: m, i, v =>
    if i < k then (i, v) :: (k, w) :: m else if i = k then (i, v) :: m else (k, w) :: mset m i v

/-- Removes the entry of key `i`. -/
def mdel {α : Type} (m : Map α) (i : Nat) : Map α := m.filter (fun p => p.1 != i)

/-- Writes key `i` in a map whose unlisted keys read as `d`: writing `d` itself removes the entry, so equal contents are
equal data. -/
def msetC {α : Type} [DecidableEq α] (d : α) (m : Map α) (i : Nat) (v : α) : Map α :=
  if v = d then mdel m i else mset m i v

/-- Changes the entry of key `i`, reading `d` where none is listed. -/
def mupd {α : Type} (m : Map α) (i : Nat) (d : α) (f : α → α) : Map α := mset m i (f (mgetD m i d))

/-- Changes the entry of key `i` where there is one. -/
def mmod {α : Type} (m : Map α) (i : Nat) (f : α → α) : Map α :=
  match mget m i with
  | some v => mset m i (f v)
  | none => m

/-- Changes every entry. -/
def mmap {α : Type} (m : Map α) (f : Nat → α → α) : Map α := m.map (fun p => (p.1, f p.1 p.2))

/-- The keys in strictly rising order. -/
def mkeysRising {α : Type} : Map α → Bool
  | [] => true
  | [_] => true
  | (i, _) :: (j, v) :: m => decide (i < j) && mkeysRising ((j, v) :: m)

/-- The canonical form of a map whose unlisted keys read as `d`: keys rising, no entry equal to `d`. -/
def mcanon {α : Type} [DecidableEq α] (d : α) (m : Map α) : Bool :=
  mkeysRising m && m.all (fun p => decide (p.2 ≠ d))

/-- Bits [hi:lo] of a word as a number (R4). -/
def bn {n : Nat} (x : BitVec n) (hi lo : Nat) : Nat := (x.toNat >>> lo) % 2 ^ (hi + 1 - lo)

/-- Bit `i` of a word. -/
def bt {n : Nat} (x : BitVec n) (i : Nat) : Bool := x.toNat.testBit i

/-- A number made from a flag. -/
def b2n (b : Bool) : Nat := if b then 1 else 0

/-- True when every bit of `x` within [hi:lo] is zero. -/
def zeroBits {n : Nat} (x : BitVec n) (hi lo : Nat) : Bool := bn x hi lo == 0

/-- True when every listed bit range [hi:lo] of `x` is zero: the reserved fields of a descriptor or block (R5). -/
def reservedZero {n : Nat} (x : BitVec n) (rs : List (Nat × Nat)) : Bool := rs.all (fun r => zeroBits x r.1 r.2)

/-- Bytes of a number, least significant first (R4). -/
def leBytes : Nat → Nat → List Byte
  | 0, _ => []
  | n + 1, x => BitVec.ofNat 8 x :: leBytes n (x / 256)

/-- The number a byte list spells, least significant first (R4). -/
def leNat : List Byte → Nat
  | [] => 0
  | b :: bs => b.toNat + 256 * leNat bs

/-- Bytes of a number, most significant first (packet headers, R4). -/
def beBytes (n x : Nat) : List Byte := (leBytes n x).reverse

/-- The number a byte list spells, most significant first. -/
def beNat (bs : List Byte) : Nat := leNat bs.reverse

/-- Bytes `lo` up to `lo + n` of a list, zero where it ends. -/
def slice (bs : List Byte) (lo n : Nat) : List Byte :=
  let r := (bs.drop lo).take n
  r ++ List.replicate (n - r.length) 0#8

/-- The number in `n` bytes from offset `lo`, most significant first; zero beyond the end. -/
def beAt (bs : List Byte) (lo n : Nat) : Nat := beNat (slice bs lo n)

/-- The number in `n` bytes from offset `lo`, least significant first; zero beyond the end. -/
def leAt (bs : List Byte) (lo n : Nat) : Nat := leNat (slice bs lo n)

/-- A field placed at bit `lo` of a number. -/
def at_ (lo x : Nat) : Nat := x * 2 ^ lo

/-- `min x m`: a count held at a maximum (R7, SC; "held at"). -/
def held (m x : Nat) : Nat := min m x

/-- A two's complement number of `w` bits as an integer. -/
def sgn (w x : Nat) : Int := if x % 2 ^ w < 2 ^ (w - 1) then (x % 2 ^ w : Nat) else ((x % 2 ^ w : Nat) : Int) - 2 ^ w

/-- An integer as `w` bits, two's complement. -/
def unsgn (w : Nat) (x : Int) : Nat := (x % (2 ^ w : Int)).toNat

/-- Ceiling of `a / b`. -/
def cdiv (a b : Nat) : Nat := (a + b - 1) / b

end Sys2Proof.Machine
end

