-- ==== Sys2Proof/Machine/Num.lean ====
section
/-! DEFINITION. Exact dyadic numbers, the IEEE 754 formats read and written through them (R431), rounding of exact values
to whole codes (R53), and carry-less arithmetic. -/

namespace Sys2Proof.Machine

open Sys2Proof

/-- The exact value `m × 2^e`. -/
structure Dy where
  m : Int
  e : Int
deriving DecidableEq, Repr

/-- `m × 2^k`, for `k` at least zero. -/
def shiftUp (m : Int) (k : Int) : Int := m * (2 ^ k.toNat : Nat)

/-- `m / 2^n` rounded to the nearest integer, ties to even (R53). -/
def shiftNearest (m : Int) (n : Nat) : Int :=
  let q := m / (2 ^ n : Nat)
  let r := m % (2 ^ n : Nat)
  if 2 * r < (2 ^ n : Nat) then q
  else if 2 * r > (2 ^ n : Nat) then q + 1
  else if q % 2 = 0 then q else q + 1

def Dy.neg (a : Dy) : Dy := ⟨-a.m, a.e⟩

def Dy.add (a b : Dy) : Dy :=
  let e := min a.e b.e
  ⟨shiftUp a.m (a.e - e) + shiftUp b.m (b.e - e), e⟩

def Dy.mul (a b : Dy) : Dy := ⟨a.m * b.m, a.e + b.e⟩

def Dy.lt (a b : Dy) : Bool :=
  let e := min a.e b.e
  decide (shiftUp a.m (a.e - e) < shiftUp b.m (b.e - e))

def Dy.eq (a b : Dy) : Bool := !a.lt b && !b.lt a

/-- `floor(log2 |a|)`, exactly, for a value that is not zero (R51). -/
def Dy.log2 (a : Dy) : Int := (a.m.natAbs.log2 : Int) + a.e

/-- The rounding modes of R53, coded as RMODE (R133). -/
inductive RMode where
  | nearest
  | towardZero
  | down
  | stochastic
deriving DecidableEq, Repr

/-- RMODE of a two-bit field (R133). -/
def RMode.ofCode : Nat → RMode
  | 0 => .nearest
  | 1 => .towardZero
  | 2 => .down
  | _ => .stochastic

/-- `round(a / 2^k)` in a mode; `u` is the draw u × 2^24 of R54. -/
def Dy.roundAt (a : Dy) (k : Int) (mode : RMode) (u : Nat) : Int :=
  if k ≤ a.e then
    match mode with
    | .stochastic => (shiftUp a.m (a.e - k) * (2 ^ 24 : Nat) + u) / (2 ^ 24 : Nat)
    | _ => shiftUp a.m (a.e - k)
  else
    let n := (k - a.e).toNat
    match mode with
    | .nearest => shiftNearest a.m n
    | .towardZero => if a.m < 0 then -((-a.m) / (2 ^ n : Nat)) else a.m / (2 ^ n : Nat)
    | .down => a.m / (2 ^ n : Nat)
    | .stochastic => (a.m * (2 ^ 24 : Nat) + (u * 2 ^ n : Nat)) / (2 ^ (n + 24) : Nat)

/-- What a floating-point pattern means. A zero keeps its sign apart. -/
inductive FVal where
  | nan
  | inf (neg : Bool)
  | zero (neg : Bool)
  | fin (v : Dy)
deriving DecidableEq, Repr

/-- A binary format: exponent bits and fraction bits. -/
structure FFmt where
  eb : Nat
  mb : Nat
deriving DecidableEq, Repr

def f32 : FFmt := ⟨8, 23⟩
def f64 : FFmt := ⟨11, 52⟩
def bf16 : FFmt := ⟨8, 7⟩

/-- Bits of a pattern. -/
def FFmt.width (f : FFmt) : Nat := f.eb + f.mb + 1

/-- The exponent of the lowest bit of a subnormal. -/
def FFmt.low (f : FFmt) : Int := 2 - (2 ^ (f.eb - 1) : Nat) - f.mb

/-- The default NaN (R431). -/
def FFmt.nan (f : FFmt) : Nat := (2 ^ f.eb - 1) * 2 ^ f.mb + 2 ^ (f.mb - 1)

def FFmt.infinity (f : FFmt) : Nat := (2 ^ f.eb - 1) * 2 ^ f.mb

def FFmt.signed (f : FFmt) (neg : Bool) (x : Nat) : Nat := if neg then x + 2 ^ (f.eb + f.mb) else x

/-- Reads a pattern. -/
def FFmt.read (f : FFmt) (x : Nat) : FVal :=
  let neg := x.testBit (f.eb + f.mb)
  let e := x / 2 ^ f.mb % 2 ^ f.eb
  let m := x % 2 ^ f.mb
  let s : Int := if neg then -1 else 1
  if e = 2 ^ f.eb - 1 then (if m = 0 then .inf neg else .nan)
  else if e = 0 then (if m = 0 then .zero neg else .fin ⟨s * m, f.low⟩)
  else .fin ⟨s * (m + 2 ^ f.mb : Nat), f.low + e - 1⟩

/-- The magnitude pattern of `m × 2^e` rounded to nearest-even, without its sign; infinity when it rounds beyond the
largest finite value. Subnormal results are kept (R431). -/
def FFmt.roundMag (f : FFmt) (m : Nat) (e : Int) : Nat :=
  if m = 0 then 0
  else
    let lsb := max ((m.log2 : Int) + e - f.mb) f.low
    let q : Nat := if lsb ≤ e then m * 2 ^ (e - lsb).toNat else (shiftNearest m (lsb - e).toNat).toNat
    min ((lsb - f.low).toNat * 2 ^ f.mb + q) f.infinity

/-- The pattern of an exact value rounded to nearest-even; an exact zero gives +0. -/
def FFmt.round (f : FFmt) (v : Dy) : Nat := f.signed (decide (v.m < 0)) (f.roundMag v.m.natAbs v.e)

/-- The pattern of a value. -/
def FFmt.write (f : FFmt) : FVal → Nat
  | .nan => f.nan
  | .inf n => f.signed n f.infinity
  | .zero n => f.signed n 0
  | .fin v => f.round v

def FVal.neg? : FVal → Bool
  | .nan => false
  | .inf n => n
  | .zero n => n
  | .fin v => decide (v.m < 0)

def FVal.negate : FVal → FVal
  | .nan => .nan
  | .inf n => .inf (!n)
  | .zero n => .zero (!n)
  | .fin v => .fin v.neg

/-- Sum, exact but for the zero sign of R431 (nearest-even gives +0 for an exact cancellation). -/
def FVal.add : FVal → FVal → FVal
  | .nan, _ => .nan
  | _, .nan => .nan
  | .inf a, .inf b => if a = b then .inf a else .nan
  | .inf a, _ => .inf a
  | _, .inf b => .inf b
  | .zero a, .zero b => .zero (a && b)
  | .zero _, .fin v => .fin v
  | .fin v, .zero _ => .fin v
  | .fin v, .fin w => let r := v.add w; if r.m = 0 then .zero false else .fin r

/-- Product, exact. -/
def FVal.mul : FVal → FVal → FVal
  | .nan, _ => .nan
  | _, .nan => .nan
  | .inf a, y => match y with
    | .zero _ => .nan
    | y => .inf (a != y.neg?)
  | x, .inf b => match x with
    | .zero _ => .nan
    | x => .inf (x.neg? != b)
  | .zero a, y => .zero (a != y.neg?)
  | x, .zero b => .zero (x.neg? != b)
  | .fin v, .fin w => .fin (v.mul w)

/-- Integer square root, one bit a step. -/
def isqrtGo : Nat → Nat → Nat → Nat
  | 0, _, r => r
  | k + 1, x, r => let c := r + 2 ^ k; isqrtGo k x (if c * c ≤ x then c else r)

def FFmt.add (f : FFmt) (x y : Nat) : Nat := f.write ((f.read x).add (f.read y))
def FFmt.sub (f : FFmt) (x y : Nat) : Nat := f.write ((f.read x).add (f.read y).negate)
def FFmt.mul (f : FFmt) (x y : Nat) : Nat := f.write ((f.read x).mul (f.read y))

/-- `z + x × y`, rounded once (R430). -/
def FFmt.fma (f : FFmt) (z x y : Nat) : Nat := f.write ((f.read z).add ((f.read x).mul (f.read y)))

/-- Quotient: enough quotient bits and one sticky bit, then one rounding. -/
def FFmt.div (f : FFmt) (x y : Nat) : Nat :=
  match f.read x, f.read y with
  | .nan, _ => f.nan
  | _, .nan => f.nan
  | .inf a, .inf _ => let _ := a; f.nan
  | .inf a, b => f.signed (a != b.neg?) f.infinity
  | a, .inf b => f.signed (a.neg? != b) 0
  | .zero _, .zero _ => f.nan
  | .zero a, b => f.signed (a != b.neg?) 0
  | a, .zero b => f.signed (a.neg? != b) f.infinity
  | .fin a, .fin b =>
    let k := f.mb + 3 + b.m.natAbs.log2
    let n := a.m.natAbs * 2 ^ k
    let q := n / b.m.natAbs
    let s := if n % b.m.natAbs = 0 then 0 else 1
    f.signed (decide (a.m < 0) != decide (b.m < 0)) (f.roundMag (2 * q + s) (a.e - b.e - k - 1))

/-- Square root. -/
def FFmt.sqrt (f : FFmt) (x : Nat) : Nat :=
  match f.read x with
  | .nan => f.nan
  | .inf true => f.nan
  | .inf false => f.infinity
  | .zero n => f.signed n 0
  | .fin a =>
    if a.m < 0 then f.nan
    else
      let odd : Nat := if a.e % 2 = 0 then 0 else 1
      let n := a.m.natAbs * 2 ^ (2 * (f.mb + 3) + odd)
      let r := isqrtGo (n.log2 / 2 + 1) n 0
      let s := if r * r = n then 0 else 1
      f.roundMag (2 * r + s) ((a.e - odd) / 2 - (f.mb + 3) - 1)

def FVal.lt : FVal → FVal → Bool
  | .nan, _ => false
  | _, .nan => false
  | .inf a, .inf b => a && !b
  | .inf a, _ => a
  | _, .inf b => !b
  | .zero _, .zero _ => false
  | .zero _, .fin w => decide (0 < w.m)
  | .fin v, .zero _ => decide (v.m < 0)
  | .fin v, .fin w => v.lt w

def FVal.eq : FVal → FVal → Bool
  | .nan, _ => false
  | _, .nan => false
  | .inf a, .inf b => a == b
  | .zero _, .zero _ => true
  | .fin v, .fin w => v.eq w
  | _, _ => false

def FVal.isNan : FVal → Bool
  | .nan => true
  | _ => false

/-- FMIN: −0 below +0; one NaN operand gives the other (R431). -/
def FFmt.min (f : FFmt) (x y : Nat) : Nat :=
  let a := f.read x
  let b := f.read y
  if a.isNan then f.write b else if b.isNan then f.write a
  else if a.lt b then f.write a else if b.lt a then f.write b
  else if a.neg? then f.write a else f.write b

/-- FMAX: −0 below +0; one NaN operand gives the other (R431). -/
def FFmt.max (f : FFmt) (x y : Nat) : Nat :=
  let a := f.read x
  let b := f.read y
  if a.isNan then f.write b else if b.isNan then f.write a
  else if a.lt b then f.write b else if b.lt a then f.write a
  else if a.neg? then f.write b else f.write a

def FFmt.lt (f : FFmt) (x y : Nat) : Bool := (f.read x).lt (f.read y)
def FFmt.eq (f : FFmt) (x y : Nat) : Bool := (f.read x).eq (f.read y)
def FFmt.le (f : FFmt) (x y : Nat) : Bool := f.lt x y || f.eq x y

/-- Holds an integer within the signed limits of `w` bits. -/
def holdSigned (w : Nat) (x : Int) : Int := max (-(2 ^ (w - 1) : Nat)) (min x ((2 ^ (w - 1) : Nat) - 1))

/-- Conversion to a signed integer of `w` bits: toward zero, held at the limits, NaN gives 0 (R430). -/
def FFmt.toSigned (f : FFmt) (w x : Nat) : Int :=
  match f.read x with
  | .nan => 0
  | .inf n => if n then -(2 ^ (w - 1) : Nat) else (2 ^ (w - 1) : Nat) - 1
  | .zero _ => 0
  | .fin v => holdSigned w (v.roundAt 0 .towardZero 0)

/-- Conversion from a signed integer (R430). -/
def FFmt.ofSigned (f : FFmt) (x : Int) : Nat := f.round ⟨x, 0⟩

/-- Conversion between formats (R430). -/
def FFmt.convert (f g : FFmt) (x : Nat) : Nat := g.write (f.read x)

/-- Carry-less product of two numbers, over the low `n` bits of the second (R430). -/
def clmul : Nat → Nat → Nat → Nat
  | 0, _, _ => 0
  | n + 1, x, y => Nat.xor (if y.testBit n then x * 2 ^ n else 0) (clmul n x y)

end Sys2Proof.Machine
end

