-- ==== Sys2Proof/Machine/Kbf.lean ====
section
/-! DEFINITION. Block fractions: KBF blocks decoded and encoded (R42 to R57), the wide accumulators (R59, R60), the
conversions to and from floating point and the Microscaling formats (R63 to R69), error feedback (R70) and the stochastic
generator (R54). -/

namespace Sys2Proof.Machine

open Sys2Proof

/-- One code of a block; `none` is the non-finite marker (R42). -/
abbrev Code := Option Int

/-- One exact value; `none` is non-finite. -/
abbrev Val := Option Dy

/-- Element width of an FMT code; `none` for the reserved codes (R42). -/
def kbfWidth : Nat → Option Nat
  | 1 => some 4
  | 2 => some 6
  | 3 => some 8
  | 4 => some 12
  | 5 => some 16
  | _ => none

/-- Header fields (R43). -/
def hExp (h : W16) : Nat := bn h 7 0
def hFmt (h : W16) : Nat := bn h 11 8
def hZero (h : W16) : Bool := bt h 12
def hSat (h : W16) : Bool := bt h 13
def hNf (h : W16) : Bool := bt h 14
def hSparse (h : W16) : Bool := bt h 15

def mkHeader (exp fmt : Nat) (zero sat nf sparse : Bool) : W16 :=
  BitVec.ofNat 16 (exp + at_ 8 fmt + at_ 12 (b2n zero) + at_ 13 (b2n sat) + at_ 14 (b2n nf) + at_ 15 (b2n sparse))

/-- Set bits of a number below 2^n. -/
def popcount : Nat → Nat → Nat
  | 0, _ => 0
  | n + 1, x => b2n (x.testBit n) + popcount n x

/-- Bytes of a block with element width `w`: dense, or sparse with `n` stored elements (R42, R45). -/
def denseSize (w : Nat) : Nat := 2 + 4 * w
def sparseSize (w n : Nat) : Nat := let b := 6 + cdiv (w * n) 8; b + b % 2

/-- Bytes of the block with this header and mask; a reserved FMT counts 2 bytes an element (R50). -/
def blockSize (h : W16) (mask : Nat) : Nat :=
  let w := (kbfWidth (hFmt h)).getD 16
  if hSparse h then sparseSize w (popcount 32 mask) else denseSize w

/-- The code of a `w`-bit pattern (R42). -/
def codeOf (w x : Nat) : Code := let v := sgn w x; if v = -(2 ^ (w - 1) : Nat) then none else some v

/-- The `w`-bit pattern of a code. -/
def codeBits (w : Nat) : Code → Nat
  | none => 2 ^ (w - 1)
  | some c => unsgn w c

/-- A block as read: its header, its 32 codes, the width they are taken at, its size, and whether its FMT is reserved. -/
structure Block where
  hdr : W16
  codes : List Code
  w : Nat
  size : Nat
  malformed : Bool
deriving DecidableEq, Repr

/-- Takes the codes of elements `i` on, in element order, from the code area `area`, whose next stored code is number `k`. -/
def takeCodes (w mask area : Nat) : Nat → Nat → Nat → List Code
  | 0, _, _ => []
  | n + 1, i, k =>
    if mask.testBit i then codeOf w (area / 2 ^ (w * k) % 2 ^ w) :: takeCodes w mask area n (i + 1) (k + 1)
    else some 0 :: takeCodes w mask area n (i + 1) k

/-- Reads the block that begins a byte list (R44, R45, R48, R50). -/
def readBlock (bs : List Byte) : Block :=
  let h : W16 := BitVec.ofNat 16 (leAt bs 0 2)
  let mask := if hSparse h then leAt bs 2 4 else 2 ^ 32 - 1
  let size := blockSize h mask
  match kbfWidth (hFmt h) with
  | none => ⟨h, List.replicate 32 none, 8, size, true⟩
  | some w =>
    if hZero h then ⟨h, List.replicate 32 (some 0), w, size, false⟩
    else
      let off := if hSparse h then 6 else 2
      ⟨h, takeCodes w mask (leNat ((bs.drop off).take (size - off))) 32 0 0, w, size, false⟩

/-- `log2 q` of a header's block: `(EXP − 127) − w + 1` (R48). -/
def hScale (h : W16) (w : Nat) : Int := (hExp h : Int) - 127 - w + 1

/-- Decodes a code at scale `2^t` (R48). -/
def codeVal (t : Int) (c : Code) : Val := c.map (fun x => ⟨x, t⟩)

/-- The 32 exact values of a block. -/
def Block.vals (b : Block) : List Val := b.codes.map (codeVal (hScale b.hdr b.w))

/-- One step of the stochastic generator (R54): the next state; its draw is bits [63:40]. -/
def rsNext (s : W64) : W64 :=
  let s1 := s ^^^ (s <<< 13)
  let s2 := s1 ^^^ (s1 >>> 7)
  s2 ^^^ (s2 <<< 17)

def rsDraw (s : W64) : Nat := bn s 63 40

/-- Rounds and clips one finite element to width `w` at `q = 2^k` (R51): the code and whether it was clipped. -/
def encodeElem (w : Nat) (k : Int) (mode : RMode) (u : Nat) (x : Dy) : Int × Bool :=
  let lim : Int := (2 ^ (w - 1) : Nat) - 1
  let c := x.roundAt k mode u
  if c > lim then (lim, true) else if c < -lim then (-lim, true) else (c, false)

/-- Codes of a list of values, in element order. The stochastic mode takes one draw for every element (R54, R56). -/
def encodeCodes (w : Nat) (k : Int) (mode : RMode) : List Val → W64 → List Code × Bool × W64
  | [], s => ([], false, s)
  | x :: xs, s =>
    let s' := if mode = .stochastic then rsNext s else s
    let (c, sat) : Code × Bool := match x with
      | none => (none, false)
      | some v => let r := encodeElem w k mode (rsDraw s') v; (some r.1, r.2)
    let (cs, sat', s'') := encodeCodes w k mode xs s'
    (c :: cs, sat || sat', s'')

/-- `floor(log2 m)` of the largest finite magnitude; `none` when `m = 0` (R51). -/
def maxLog2 : List Val → Option Int
  | [] => none
  | none :: xs => maxLog2 xs
  | some v :: xs =>
    if v.m = 0 then maxLog2 xs
    else match maxLog2 xs with
      | none => some v.log2
      | some l => some (max l v.log2)

/-- The block exponent E of R51. -/
def pickE (xs : List Val) : Int :=
  match maxLog2 xs with
  | none => -127
  | some l => min (max (l + 1) (-127)) 128

/-- An encoded block: its header and codes. -/
structure Enc where
  hdr : W16
  codes : List Code
deriving DecidableEq, Repr

/-- The occupancy mask of codes: bit i for a code that is not zero (R45). -/
def maskOf : List Code → Nat
  | [] => 0
  | c :: cs => (if c = some 0 then 0 else 1) + 2 * maskOf cs

/-- LAYOUT: 0 dense, 1 sparse, 2 automatic, which picks the smaller and dense when equal (R52). -/
def pickSparse (layout w : Nat) (codes : List Code) : Bool :=
  if layout = 1 then true
  else if layout = 2 then decide (sparseSize w (popcount 32 (maskOf codes)) < denseSize w)
  else false

/-- Builds the header over codes (R52). -/
def encHeader (fmt w : Nat) (e : Int) (sat : Bool) (layout : Nat) (codes : List Code) : Enc :=
  let zero := codes.all (fun c => decide (c = some 0))
  let nf := codes.any (fun c => decide (c = none))
  ⟨mkHeader (if zero then 0 else (e + 127).toNat) fmt zero sat nf (pickSparse layout w codes), codes⟩

/-- Encodes 32 values to format `fmt` of width `w` (R51, R52). `held` sets SAT (R59). -/
def encodeBlock (fmt w layout : Nat) (mode : RMode) (heldSat : Bool) (xs : List Val) (s : W64) : Enc × W64 :=
  let e := pickE xs
  let (cs, sat, s') := encodeCodes w (e - w + 1) mode xs s
  (encHeader fmt w e (sat || heldSat) layout cs, s')

/-- Packs codes of width `w` into a number, first code lowest. -/
def packCodes (w : Nat) : List Code → Nat
  | [] => 0
  | c :: cs => codeBits w c + 2 ^ w * packCodes w cs

/-- The bytes of a block (R44, R45): the layout follows SPARSE, padding is zero. -/
def writeBlock (b : Enc) : List Byte :=
  match kbfWidth (hFmt b.hdr) with
  | none => []
  | some w =>
    if hSparse b.hdr then
      let mask := maskOf b.codes
      leBytes 2 b.hdr.toNat ++ leBytes 4 mask ++
        leBytes (sparseSize w (popcount 32 mask) - 6) (packCodes w (b.codes.filter (fun c => decide (c ≠ some 0))))
    else leBytes 2 b.hdr.toNat ++ leBytes (4 * w) (packCodes w b.codes)

/-- Decoded values of an encoded block. -/
def Enc.vals (b : Enc) : List Val :=
  let w := (kbfWidth (hFmt b.hdr)).getD 8
  if hZero b.hdr then List.replicate 32 (some ⟨0, 0⟩) else b.codes.map (codeVal (hScale b.hdr w))

/-- The largest held magnitude of an accumulator lane (R59). -/
def accLimit : Int := (2 ^ 47 : Nat) - 1

/-- An accumulator: 32 lanes of A with a marker flag, the shared S, EMPTY and HELD (R59, R425). -/
structure Acc where
  lanes : List (Int × Bool) := List.replicate 32 (0, false)
  s : Int := 0
  empty : Bool := true
  held : Bool := false
deriving DecidableEq, Repr

/-- Moves an integer from scale `t` to scale `s`, rounding a right shift to nearest-even (R59). -/
def rescale (x t s : Int) : Int := if s ≤ t then shiftUp x (t - s) else shiftNearest x (s - t).toNat

/-- Adds one term to one lane at the new S; a marker sets NF (R58, R59). -/
def laneAdd (s0 s t : Int) (l : Int × Bool) (c : Code) : (Int × Bool) × Bool :=
  let a := rescale l.1 s0 s
  match c with
  | none => ((a, true), false)
  | some x =>
    let r := a + rescale x t s
    if r > accLimit then ((accLimit, l.2), true)
    else if r < -accLimit then ((-accLimit, l.2), true)
    else ((r, l.2), false)

/-- Adds 32 terms of scale `t` with `g` guard bits (R59, R60). -/
def Acc.add (a : Acc) (t g : Int) (cs : List Code) : Acc :=
  let s := if a.empty then t - g else max a.s (t - g)
  let s0 := if a.empty then s else a.s
  let r := List.zipWith (laneAdd s0 s t) a.lanes cs
  { lanes := r.map (·.1), s := s, empty := false, held := a.held || r.any (·.2) }

/-- Adds one term to each lane at its own scale, all at once: S moves to the largest scale among them; a marker has no
integer and moves nothing (R59; log 23). `none` in a lane is no term. -/
def Acc.addEach (a : Acc) (g : Int) (ts : List (Option (Int × Code))) : Acc :=
  let scales := ts.filterMap (fun (t : Option (Int × Code)) => (match t with
    | some (t, some _) => some (t - g)
    | _ => none))
  match scales with
  | [] =>
    let mark (l : Int × Bool) (t : Option (Int × Code)) : Int × Bool := match t with
      | some (_, none) => (l.1, true)
      | _ => l
    { a with lanes := List.zipWith mark a.lanes ts }
  | t0 :: rest =>
    let top := rest.foldl max t0
    let s := if a.empty then top else max a.s top
    let s0 := if a.empty then s else a.s
    let step (l : Int × Bool) (t : Option (Int × Code)) : (Int × Bool) × Bool := match t with
      | some (t, c) => laneAdd s0 s t l c
      | none => ((rescale l.1 s0 s, l.2), false)
    let r := List.zipWith step a.lanes ts
    { lanes := r.map (·.1), s := s, empty := false, held := a.held || r.any (·.2) }

/-- The product of two codes; a marker makes a marker (R58). -/
def codeMul (a b : Code) : Code := match a, b with
  | some x, some y => some (x * y)
  | _, _ => none

/-- The exact lane values; 32 zeros when nothing was added (R62, R434). -/
def Acc.vals (a : Acc) : List Val :=
  a.lanes.map (fun l => if l.2 then none else if a.empty then some ⟨0, 0⟩ else some ⟨l.1, a.s⟩)

/-- A value as a binary32 pattern, the marker as 0x7FC0_0000 (R64). -/
def valF32 : Val → Nat
  | none => f32.nan
  | some v => f32.round v

/-- A value as binary32 held at ±(2^128 − 2^104), and whether it was held (R170). -/
def valF32Held : Val → Nat × Bool
  | none => (f32.nan, false)
  | some v =>
    let m := f32.roundMag v.m.natAbs v.e
    if m = f32.infinity then (f32.signed (decide (v.m < 0)) (f32.infinity - 1), true)
    else (f32.signed (decide (v.m < 0)) m, false)

/-- A value as bfloat16 held at ±(2^128 − 2^120), and whether it was held (R65). -/
def valBf16 : Val → Nat × Bool
  | none => (bf16.nan, false)
  | some v =>
    let m := bf16.roundMag v.m.natAbs v.e
    if m = bf16.infinity then (bf16.signed (decide (v.m < 0)) (bf16.infinity - 1), true)
    else (bf16.signed (decide (v.m < 0)) m, false)

/-- The exact value of a floating-point pattern (R56, R63). -/
def floatVal (f : FFmt) (x : Nat) : Val :=
  match f.read x with
  | .nan => none
  | .inf _ => none
  | .zero _ => some ⟨0, 0⟩
  | .fin v => some v

/-- A binary32 pattern as bfloat16: a zero keeps its sign, a finite value is rounded and held as R65 has it, the rest is the marker. -/
def f32Bf16 (x : Nat) : Nat × Bool :=
  match f32.read x with
  | .zero n => (bf16.signed n 0, false)
  | .fin v => valBf16 (some v)
  | _ => valBf16 none

/-- A Microscaling element format: exponent and fraction bits, bias, largest exponent, largest magnitude pattern, the NaN
pattern where it has one, and whether it has infinities. -/
structure MxFmt where
  eb : Nat
  mb : Nat
  bias : Int
  emax : Int
  maxPat : Nat
  nan : Option Nat
deriving DecidableEq, Repr

/-- The element formats by codec format code (R134); MXINT8 is apart. -/
def mxFmt : Nat → Option MxFmt
  | 0xA => some ⟨4, 3, 7, 8, 0x7E, some 0x7F⟩
  | 0xB => some ⟨5, 2, 15, 15, 0x7B, some 0x7E⟩
  | 0xC => some ⟨2, 3, 1, 2, 0x1F, none⟩
  | 0xD => some ⟨3, 2, 3, 4, 0x1F, none⟩
  | 0xE => some ⟨2, 1, 1, 2, 0x07, none⟩
  | _ => none

/-- Element width of a Microscaling format code. -/
def mxWidth : Nat → Option Nat
  | 0xF => some 8
  | c => (mxFmt c).map (fun f => f.eb + f.mb + 1)

/-- The value of an element pattern before the shared scale. -/
def MxFmt.read (f : MxFmt) (x : Nat) : Val :=
  let w := f.eb + f.mb + 1
  let mag := x % 2 ^ (w - 1)
  let s : Int := if x.testBit (w - 1) then -1 else 1
  if mag > f.maxPat then none
  else
    let e := mag / 2 ^ f.mb
    let m := mag % 2 ^ f.mb
    if e = 0 then some ⟨s * m, 1 - f.bias - f.mb⟩ else some ⟨s * (m + 2 ^ f.mb : Nat), e - f.bias - f.mb⟩

/-- An element rounded to nearest-even and held at the largest normal magnitude (R69). -/
def MxFmt.round (f : MxFmt) (v : Dy) : Nat :=
  let low := 1 - f.bias - f.mb
  let m := v.m.natAbs
  let mag : Nat :=
    if m = 0 then 0
    else
      let lsb := max ((m.log2 : Int) + v.e - f.mb) low
      let q : Nat := if lsb ≤ v.e then m * 2 ^ (v.e - lsb).toNat else (shiftNearest m (lsb - v.e).toNat).toNat
      min ((lsb - low).toNat * 2 ^ f.mb + q) f.maxPat
  if v.m < 0 then mag + 2 ^ (f.eb + f.mb) else mag

/-- The 32 values of a Microscaling block with scale byte `sc` (R67). -/
def mxVals (code sc : Nat) (xs : List Nat) : List Val :=
  if sc = 0xFF then xs.map (fun _ => none)
  else
    let up (v : Dy) : Dy := ⟨v.m, v.e + (sc : Int) - 127⟩
    match mxFmt code with
    | some f => xs.map (fun x => (f.read x).map up)
    | none => xs.map (fun x => some (up ⟨sgn 8 x, -6⟩))

/-- Splits an area into `n` elements of `w` bits. -/
def unpackElems (w : Nat) : Nat → Nat → List Nat
  | 0, _ => []
  | n + 1, x => x % 2 ^ w :: unpackElems w n (x / 2 ^ w)

def packElems (w : Nat) : List Nat → Nat
  | [] => 0
  | x :: xs => x % 2 ^ w + 2 ^ w * packElems w xs

/-- A Microscaling block in memory: the scale byte, then 32 packed elements (log 8). -/
def mxSize (code : Nat) : Nat := 1 + 4 * (mxWidth code).getD 8
def mxParts (code : Nat) (bs : List Byte) : Nat × List Nat :=
  (leAt bs 0 1, unpackElems ((mxWidth code).getD 8) 32 (leNat (bs.drop 1)))
def mxBytes (code sc : Nat) (xs : List Nat) : List Byte :=
  leBytes 1 sc ++ leBytes (4 * (mxWidth code).getD 8) (packElems ((mxWidth code).getD 8) xs)

/-- KBF values to a Microscaling block by the OCP algorithm (R69). The scale of a block of zeros and the elements under
scale 0xFF, and which of the three NaNs of E5M2 is written, are open values (log 7); a scale below 2^−127 is held there (log 9). R69
speaks of MXFP only, and R68 of KBF8: for the other KBF widths to MXINT8 the model takes the same algorithm with emax 0, elements rounded
to nearest-even at 2^−6 and held at ±127, and a marker as scale 0xFF (DESIGN CHOICE, unsafe; log 138). -/
def toMx (code : Nat) (xs : List Val) : Nat × List Nat :=
  let emax := ((mxFmt code).map (·.emax)).getD 0
  let nanElem := if code = 0xB then some (0x7D + (Config.mxOpen 0xB 40).toNat % 3) else (mxFmt code).bind (·.nan)
  if xs.any (·.isNone) && nanElem.isNone then (0xFF, xs.mapIdx (fun i _ => (Config.mxOpen code (i + 1)).toNat))
  else
    match maxLog2 xs with
    | none => ((Config.mxOpen code 0).toNat, xs.map (fun x => if x.isNone then nanElem.getD 0 else 0))
    | some l =>
      let sc := max (l - emax) (-127)
      let elem (x : Val) : Nat := match x with
        | none => nanElem.getD 0
        | some v => match mxFmt code with
          | some f => f.round ⟨v.m, v.e - sc⟩
          | none => unsgn 8 (max (-127) (min (v.roundAt (sc - 6) .nearest 0) 127))
      ((sc + 127).toNat, xs.map elem)

/-- KBF8 to MXINT8, the direct rule of R68. The manual does not say whether a direct conversion in stochastic mode steps the generator:
the model takes the 32 draws of a block only where codes are halved, and none for another block, for one with a marker, or for MXINT8 to
KBF8 (DESIGN CHOICE, unsafe; log 139). -/
def kbf8ToMxInt8 (h : W16) (codes : List Code) (mode : RMode) (s : W64) : (Nat × List Nat) × W64 :=
  if codes.any (·.isNone) then ((0xFF, codes.mapIdx (fun i _ => (Config.mxOpen 0xF (i + 1)).toNat)), s)
  else if hExp h = 0 then
    let (cs, _, s') := encodeCodes 8 1 mode (codes.map (codeVal 0)) s
    ((0, cs.map (codeBits 8)), s')
  else ((hExp h - 1, codes.map (codeBits 8)), s)

/-- MXINT8 to KBF8, the direct rule of R68; `none` where R67 converts instead. -/
def mxInt8ToKbf8 (layout sc : Nat) (xs : List Nat) : Option Enc :=
  if sc = 0xFF || xs.any (fun x => decide (x = 0x80)) then none
  else some (encHeader 3 8 ((sc : Int) + 1 - 127) false layout (xs.map (fun x => some (sgn 8 x))))

/-- One element of error feedback (R70): the value to encode. -/
def efInput (x r : Nat) : Nat := f32.add x r

/-- The residual `y − s`, or +0.0 when `y` is not finite (R70). -/
def efResidual (y : Nat) (sent : Val) : Nat :=
  match floatVal f32 y, sent with
  | some v, some w => f32.round (v.add w.neg)
  | _, _ => 0

end Sys2Proof.Machine
end

