-- ==== Sys2Proof/Machine/Types/Common.lean ====
section
/-! DEFINITION. Types shared by every chapter: status codes (R126), requesters (R88), mailboxes (R445), command blocks
(R455), and what leaves the device. -/

namespace Sys2Proof.Machine

open Sys2Proof

/-- The shared status-code space (R126); `cls` is a class-specific code, 0x50 to 0x7F. -/
inductive Status where
  | success | saturated | partialDone
  | invalidField | invalidOpcode | staleHandle | wrongClass | emptyVector
  | bounds | accessDenied | poisonedData | malformedBlock | hostDmaError | busMasterDisabled
  | outOfResources | deferred | aborted | unitFault | regionUnavailable | busy
  | remoteTimeout | remoteRefused | peerLost
  | cls (code : Nat)
deriving DecidableEq, Repr

/-- The code of a status (R126). -/
def Status.code : Status → Nat
  | .success => 0x00
  | .saturated => 0x01
  | .partialDone => 0x02
  | .invalidField => 0x10
  | .invalidOpcode => 0x11
  | .staleHandle => 0x12
  | .wrongClass => 0x13
  | .emptyVector => 0x14
  | .bounds => 0x20
  | .accessDenied => 0x21
  | .poisonedData => 0x22
  | .malformedBlock => 0x23
  | .hostDmaError => 0x24
  | .busMasterDisabled => 0x25
  | .outOfResources => 0x30
  | .deferred => 0x31
  | .aborted => 0x32
  | .unitFault => 0x33
  | .regionUnavailable => 0x34
  | .busy => 0x35
  | .remoteTimeout => 0x40
  | .remoteRefused => 0x41
  | .peerLost => 0x42
  | .cls n => n

/-- The status a code of R126 names; `none` for the reserved and class-specific codes. -/
def Status.ofCode : Nat → Option Status
  | 0x00 => some .success
  | 0x01 => some .saturated
  | 0x02 => some .partialDone
  | 0x10 => some .invalidField
  | 0x11 => some .invalidOpcode
  | 0x12 => some .staleHandle
  | 0x13 => some .wrongClass
  | 0x14 => some .emptyVector
  | 0x20 => some .bounds
  | 0x21 => some .accessDenied
  | 0x22 => some .poisonedData
  | 0x23 => some .malformedBlock
  | 0x24 => some .hostDmaError
  | 0x25 => some .busMasterDisabled
  | 0x30 => some .outOfResources
  | 0x31 => some .deferred
  | 0x32 => some .aborted
  | 0x33 => some .unitFault
  | 0x34 => some .regionUnavailable
  | 0x35 => some .busy
  | 0x40 => some .remoteTimeout
  | 0x41 => some .remoteRefused
  | 0x42 => some .peerLost
  | _ => none

/-- The success class, codes 0x00 to 0x0F (R126). -/
def Status.ok (st : Status) : Bool := decide (st.code < 0x10)

/-- The class-specific statuses 0x58 port-error (R313) and 0x5A program-fault (R440). -/
def Status.portError : Status := .cls 0x58
def Status.programFault : Status := .cls 0x5A

/-- For whom an access or a command runs (R88): a function number, and whether the requester is firmware or of the secure
world. -/
structure Req where
  fn : Nat
  firmware : Bool := false
  secure : Bool := false
deriving DecidableEq, Repr

/-- A mailbox pair: one of the 128 of the MBOX block, the pair of a function page, or a secure pair (R445). -/
inductive MboxId where
  | block (k : Nat)
  | page (fn : Nat)
  | sec (k : Nat)
deriving DecidableEq, Repr

/-- A pair as a key. -/
def MboxId.key : MboxId → Nat
  | .block k => k
  | .page f => 0x1000 + f
  | .sec k => 0x10000 + k

/-- A command block as the host read returns it: whether the read failed, the 64-byte header and the body (R455). -/
structure CmdBlock where
  readFails : Bool
  hdr : BitVec 512
  body : BitVec 32256
deriving DecidableEq, Repr

/-- What a command answers besides its status (R453, R455): DETAIL, the RESULT words, and ARG[39:8] of the reply word. -/
structure Reply where
  status : Status
  detail : Nat := 0
  r0 : Nat := 0
  r1 : Nat := 0
  r2 : Nat := 0
  arg : Nat := 0
deriving DecidableEq, Repr

/-- The work that a host read, a window read or a window write was issued for. -/
inductive Work where
  | desc (ring slot : Nat)
  | job (id : Nat)
  | core (id : Nat)
  | sqe (queue slot : Nat)
  | nvme (queue cid : Nat)
  | remote (conn msn : Nat)
  | place (conn : Nat)
  | ctx (conn : Nat)
  | firmware (n : Nat)
deriving DecidableEq, Repr

/-- The key under which window data is gathered for a job or a core. -/
def Work.key : Work → Option Nat
  | .job id => some (4 * id)
  | .core id => some (4 * id + 1)
  | .remote conn msn => some (4 * (conn + 2 ^ 24 * msn) + 2)
  | .place conn => some (4 * conn + 3)
  | _ => none

/-- What a host answers to a read request (R389, R390). -/
inductive CplKind where
  | ok
  | unsupported
  | abort
  | poisoned
deriving DecidableEq, Repr

/-- Where a register access of a host lands (R7, R384): BAR0 of the function, a doorbell page, its MSI-X BAR, or its configuration
space. The forms named Read are reads of the same places: the write's row is the one row that the table has for them. -/
inductive RegSpace where
  | bar0
  | bar0Read
  /-- The rest of the doorbell pages (R114): `off` counts from the start of BAR2. -/
  | pages
  | pagesRead
  /-- The MSI-X table and the pending bits (R384, R388). -/
  | bar4Read
  /-- Configuration space by its offset (R380, R381). -/
  | cfgRead
  /-- A host write to a BAR that arrives poisoned (R390). -/
  | poisoned
  /-- VF Enable and NumVFs of the port's PF1 (R378, R401). -/
  | vfEnable
  | numVfs
  /-- Completion Timeout Value (R389). -/
  | cplTimeout
  /-- 10-Bit and 14-Bit Tag Requester Enable, ATS Enable (R383). -/
  | tag10
  | tag14
  | ats
deriving DecidableEq, Repr

/-- What leaves the device, newest first in `State.out`. -/
inductive Output where
  /-- A posted write in the name of a function (R382). -/
  | hostWrite (fn addr : Nat) (data : List Byte)
  /-- A read request in the name of a function, with its tag. -/
  | hostRead (fn addr len tag : Nat)
  /-- An MSI-X message with the Address and Data of its table entry (R388). -/
  | msix (fn : Nat) (addr : Nat) (data : Nat)
  /-- The data a register, configuration or management-bus read returns. -/
  | readData (value : Nat)
  /-- A completion with EP set for a host read of a poisoned line (R390). -/
  | poisonedCpl (fn : Nat)
  /-- A flit on an accelerator port (R297). -/
  | flit (port : Nat) (data : List Byte)
  /-- A frame on an Ethernet port, without FCS. -/
  | frame (port : Nat) (data : List Byte)
  /-- A frame started as express or preemptable, with the time its first bit left. -/
  | frameTime (port : Nat) (sec : Nat) (ns : Nat)
  /-- A TCP payload of a backing session. -/
  | tcp (session : Nat) (data : List Byte)
  /-- A log record of SEV 2 or 3, written by Umber as one text line (R540). -/
  | uart (record : Nat)
  /-- A level on a module pin or an indication, by name. -/
  | pin (name : String) (level : Nat)
deriving DecidableEq, Repr

end Sys2Proof.Machine
end

