-- ==== Sys2Proof/Machine/Types/Cluster.lean ====
section
/-! DEFINITION. The state of regions, clusters and Ochre cores (R12 to R38, R137 to R158, R425). -/

namespace Sys2Proof.Machine

open Sys2Proof

/-- What CLUSTER_RESET is told: the cluster, and the addresses of its dirty cache lines that cannot be read (R21, R154). -/
structure ClusterLoss where
  cluster : Nat
  lost : List Nat := []
deriving DecidableEq, Repr

/-- A tile that a cluster's engine computes, by its number in tile order (R177). -/
structure TileAt where
  cluster : Nat
  tile : Nat
deriving DecidableEq, Repr

/-- A unit's state and attributes (R19). -/
inductive UState where
  | inService
  | spare
  | retired
deriving DecidableEq, Repr

structure UnitSt where
  state : UState
  world : Bool := false
  /-- STANDS_FOR while SUBST is 1 (R19). -/
  standsFor : Option Nat := none
deriving DecidableEq, Repr

/-- Trouble counters of a unit (R505). -/
structure Trouble where
  ce : Nat := 0
  ue : Nat := 0
  tmo : Nat := 0
  fx : Nat := 0
  /-- CE at the start of the present 24-hour span (R506). -/
  ceBase : Nat := 0
deriving DecidableEq, Repr

/-- RSTATE of a region (R35). -/
inductive RState where
  | off | starting | inService | resetting | retired
deriving DecidableEq, Repr

structure RegionSt where
  rstate : RState := .off
  /-- RESETS, held at 255 (R35). -/
  resets : Nat := 0
  /-- Unit retirements that wait for the reset to end (R24). -/
  deferred : List Nat := []
  /-- Time the reset began (R23). -/
  since : Nat := 0
  /-- Measured achieved rate and junction temperature, as patterns (R34). -/
  rate : W32 := 0#32
  tj : W32 := 0#32
  /-- Setpoint in mV, ageing offset included, and the offset (R34). -/
  vset : Nat := 750
  offset : Nat := 0
  /-- Retirement in progress (R512): 0 none, else the step reached. -/
  retiring : Nat := 0
  /-- Resets in a row that have missed their bound (R23, R511). -/
  missed : Nat := 0
deriving DecidableEq, Repr

/-- CSTATE of a cluster (R157). -/
inductive CState where
  | off | starting | inService | resetting | retired | gated
deriving DecidableEq, Repr

/-- A reclaim of R140 in progress: the new owner (none is firmware), the command to reply to (0 for none), whether t1 has
come, and the world it ends with. -/
structure Reclaim where
  newOwner : Option Nat
  cmd : Nat
  stopped : Bool := false
  world : Bool := false
deriving DecidableEq, Repr

structure Cluster where
  cstate : CState := .off
  /-- Owning function; none is firmware (R140). -/
  owner : Option Nat := none
  /-- WORLD (R27). -/
  world : Bool := false
  /-- Scratch banks in service (R139). -/
  banks : BitVec 16 := 0xFFFF#16
  /-- A spare core stands by (R157). -/
  spareReady : Bool := false
  /-- Stochastic generator (R54). -/
  rs : W64 := 0#64
  reclaim : Option Reclaim := none
  /-- A request to gate waits (R24, R25). -/
  gateWanted : Bool := false
  /-- Unit retirements that wait for the reset to end (R24). -/
  deferred : List Nat := []
  /-- Scratch banks to retire at the next reset (R139). -/
  retireBanks : BitVec 16 := 0#16
deriving DecidableEq, Repr

/-- RUN of a core (R158). -/
inductive Run where
  | idle | running | waiting | absent
deriving DecidableEq, Repr

/-- State of a counter watch (R437). -/
inductive WState where
  | idle | armed | fired | cancelled
deriving DecidableEq, Repr

structure Watch where
  st : WState := .idle
  ctr : Nat := 0
  thr : W64 := 0#64
deriving DecidableEq, Repr

/-- A data-cache line: its near-memory line address, contents, and whether it is dirty (R145). -/
structure DLine where
  addr : Nat
  data : List Byte
  dirty : Bool := false
deriving DecidableEq, Repr

/-- An instruction-cache line (R145). -/
structure ILine where
  addr : Nat
  data : List Byte
deriving DecidableEq, Repr

/-- The work that started the program on a core (R142, R230). -/
inductive Prog where
  /-- CL_RUN: DONE, the counter where CTR_EN is 1, the starting function. -/
  | clRun (done : Nat) (ctr : Option Nat) (fn : Nat)
  /-- An optimizer step: its job. -/
  | optStep (job : Nat)
deriving DecidableEq, Repr

/-- An Ochre core (R425, R150, R441). -/
structure Core where
  run : Run := .absent
  phys : Nat := 0
  evt : W32 := 0#32
  pc : W64 := 0#64
  /-- g registers, unlisted 0; g0 is never listed. -/
  g : Map W64 := []
  /-- p7 … p1 in bits 7 to 1; bit 0 is p0, which reads 1. -/
  p : BitVec 8 := 1#8
  v : Map (BitVec 256) := []
  acc : Map Acc := []
  watch : Map Watch := []
  /-- Timed-wait deadline (R436). -/
  deadline : Option W64 := none
  icache : List ILine := []
  dcache : List DLine := []
  xcpt : W32 := 0#32
  xpc : W64 := 0#64
  xaddr : W64 := 0#64
  prog : Option Prog := none
  /-- The mask WFE waits on while RUN is 2 (R436). -/
  wfeMask : W32 := 0#32
deriving DecidableEq, Repr

/-- An Indigo engine or a Pastel codec (R133, R175 to R182). -/
structure Eng where
  /-- The job started last was one of the cluster's cores. -/
  lastCore : Bool := false
  /-- Rows and columns that the spares replace (R182). -/
  row0 : Option Nat := none
  row1 : Option Nat := none
  col0 : Option Nat := none
  col1 : Option Nat := none
  /-- 32-column mode, on this half of the array (R178). -/
  half : Option Bool := none
  /-- The tile of the running job whose residue check failed last, and its mismatches; 2 while a pattern test runs (R177). -/
  tile : Nat := 0
  mism : Nat := 0
deriving DecidableEq, Repr

/-- Regions, clusters, cores and units. -/
structure Fabric where
  regions : Map RegionSt := []
  clusters : Map Cluster := []
  /-- Cores by core ID (R137). -/
  cores : Map Core := []
  /-- Scratch by cluster × 2^22 + offset, canonical, unlisted 0 (R138). -/
  scratch : Map Byte := []
  /-- Bad bits of an 8-byte scratch word by cluster × 2^19 + word, unlisted 0 (R138). -/
  scrBad : Map Nat := []
  /-- Engines by 2 × cluster, and codecs by 2 × cluster + 1. -/
  engines : Map Eng := []
  /-- Units with changes that Umber's journal holds and the retirement map does not (R514). -/
  journal : List Nat := []
  /-- Units whose state is not as manufactured, by unit ID (R19). -/
  units : Map UnitSt := []
  trouble : Map Trouble := []
  /-- Reference time in ns: the 16 local time counters (R36). -/
  time : Nat := 0
  /-- The region whose counter is X-die time (R38). -/
  xRegion : Nat := 0
  /-- Ageing offset of an X-die in mV, added to its setpoint of 750 mV (R26); unlisted 0. -/
  xOffset : Map Nat := []
  /-- The node ID in force (R17, R528); 0xFFFF is unassigned. -/
  node : Nat := 0xFFFF
  /-- The declared system size in force (R528); 0 is undeclared and taken as 1. -/
  size : Nat := 0
deriving DecidableEq, Repr

end Sys2Proof.Machine
end

