-- ==== Sys2Proof/Machine/Types/Lake.lean ====
section
/-! DEFINITION. The state of Lake: stacks, pages, memory regions, migrations (R74 to R103, R556). -/

namespace Sys2Proof.Machine

open Sys2Proof

/-- One DRAM stack (R103). The defaults are the state of a stack whose retirement map is empty. -/
structure Stack where
  /-- DIE_ON (R103). -/
  dieOn : BitVec 14 := 0x3FFF#14
  /-- SPARE_FOR: the die whose role die 13 holds; none reads 0xF (R103). -/
  spareFor : Option Nat := none
  /-- SPARE_READY (R103). -/
  spareReady : Bool := true
  /-- CHECK_OK (R103). -/
  checkOk : Bool := true
  /-- LOST: data dies lost without replacement (R103). -/
  lost : Nat := 0
  /-- Refresh codes of the dies in force (R80, R101): entry d for die d, unlisted 3 (32 ms). -/
  tref : Map Nat := []
  /-- Refresh codes that take effect at the next refresh round (R80). -/
  trefNext : Map Nat := []
  /-- Last measured junction of each die, 0.125 °C per unit, as a 32-bit pattern (R101); unlisted dies are unmeasured. -/
  tj : Map W32 := []
deriving DecidableEq, Repr

/-- A memory region descriptor (R86). -/
structure Region where
  world : Bool := false
  prot : Bool := false
  rRd : Bool := false
  rWr : Bool := false
  rAt : Bool := false
  place : Nat := 0
  home : Nat := 0
  pgroup : Nat := 0
  owner : Nat := 0
  gen : Nat := 0
  base : Nat := 0
  pages : Nat := 0
  key : W32 := 0#32
deriving DecidableEq, Repr

/-- Who holds a run of local pages that no function's region covers (R94 to R96). -/
inductive FwKind where
  | carveOut
  | flowTable
  | staging
  | triggers (list : Nat)
  | shadow
  | reserve
deriving DecidableEq, Repr

/-- A carve-out or one of firmware's own regions (R94 to R96). -/
structure FwRegion where
  kind : FwKind
  base : Nat
  pages : Nat
  world : Bool := false
deriving DecidableEq, Repr

/-- Why a page moves (R97). -/
inductive MoveWhy where
  | dieLoss (stack : Nat)
  | rebalance (region : Nat)
  | regionRetire (region : Nat)
deriving DecidableEq, Repr

/-- One page on the move (R97, R98): its local page number, the physical page it goes to, and why. -/
structure Move where
  page : Nat
  dst : Nat
  why : MoveWhy
deriving DecidableEq, Repr

/-- A rebalance that a CH_MODIFY started (R92): the region and the command to reply to. The pages withheld for it are the
targets of its moves. -/
structure Rebalance where
  region : Nat
  cmd : Nat
deriving DecidableEq, Repr

/-- A die whose role the spare takes by copying (R97): stack, the die retired, and how many of its pages are copied. -/
structure DieCopy where
  stack : Nat
  die : Nat
  done : Nat := 0
deriving DecidableEq, Repr

/-- A write that waits in the credited queues in front of near memory (R23, R241, R246): its first byte, its bytes, which lie in one
line, and the work whose completion waits for it. -/
structure Held where
  addr : Nat
  bytes : List Byte
  work : Option Work := none
  /-- A counter that moves once the write is visible, and the function that must own it (R142). -/
  ctr : Option (Nat × Nat) := none
deriving DecidableEq, Repr

/-- A command that has changed a region's descriptor and completes when every access that passed the old check has finished (R89). -/
structure RegionWait where
  region : Nat
  cmd : Nat
  key : Nat
deriving DecidableEq, Repr

structure Lake where
  /-- The stacks; an unlisted stack is as manufactured (R74). -/
  stk : Map Stack := []
  /-- Contents of tier N by local address, canonical, unlisted 0 (R81 to R85). -/
  mem : Map Byte := []
  /-- Local page number to physical page (R83). -/
  pageOf : Map Nat := []
  /-- Physical lines that carry a poison mark (R78). -/
  poison : Map Bool := []
  /-- Bad symbols of physical lines, unlisted 0 (R75). -/
  badSym : Map Nat := []
  /-- Freed physical pages waiting to be zeroed, oldest first (R85). -/
  zeroing : List Nat := []
  /-- Region descriptors by slot (R86). -/
  regions : Map Region := []
  /-- Carve-outs, firmware's own regions and the parity reserve (R94 to R96). -/
  fw : List FwRegion := []
  /-- Pages on the move, in the order of R556. -/
  moves : List Move := []
  /-- Local pages of lost dies that wait for a free page (R99), in the order of R556, with their stack. -/
  degraded : List (Nat × Nat) := []
  /-- Writes that wait in the credited queues, oldest first (R23, R29). -/
  held : List Held := []
  /-- Descriptors of regions under destruction, whose pages are freed when the command completes (R89). -/
  dying : Map Region := []
  regionWaits : List RegionWait := []
  /-- Works that wait for an access to a region in reset: the region and the work (R23). -/
  blocked : List (Nat × Work) := []
  /-- The stack that received the last page moved under a placement, by 16 × PLACE + HOME (R556). -/
  lastMoved : Map Nat := []
  rebalances : List Rebalance := []
  /-- Dies whose contents the spare is taking over (R97). -/
  copies : List DieCopy := []
  /-- LAKE_EVENT (R102). -/
  event : BitVec 6 := 0#6
  /-- The next line the patrol scrub reads: a physical line number (R79). -/
  scrubAt : Nat := 0
  /-- The stack that received the last page placed in rotation (R87). -/
  lastStack : Nat := 31
  /-- Stack that pages are leaving now (R101). -/
  migStack : Nat := 0
deriving DecidableEq, Repr

end Sys2Proof.Machine
end

