-- ==== Sys2Proof/Machine/Types/Packet.lean ====
section
/-! DEFINITION. Structured operands: what an event brings from outside the device. -/

namespace Sys2Proof.Machine

open Sys2Proof

/-- A parity delta as it arrives at a holder (R241): the group, the stripe, the line offset in the page, the data position,
the member that sent it, the epoch and Δ. The manual does not lay out its packet (log 20). -/
structure DeltaMsg where
  pgroup : Nat
  stripe : Nat
  line : Nat
  pos : Nat
  src : Nat
  epoch : Nat
  data : List Byte
deriving DecidableEq, Repr

/-- The connection that firmware opens to another member of a parity group (R241): how firmware of the two ends agrees on it
is open (log 20). -/
structure PeerConn where
  member : Nat
  peerConn : Nat
  peerGen : Nat
  peerIp : Nat
  ipv4 : Bool
  cookie : W32
deriving DecidableEq, Repr

/-- What PG_REBUILD is given: its command block, and how the group's other members are reached (R246, log 20). -/
structure RebuildBlk where
  blk : CmdBlock
  peers : List PeerConn
deriving DecidableEq, Repr

/-- A region of a lost member's manifest (R243, R246): slot, descriptor, first protected page. -/
structure ManifestEntry where
  slot : Nat
  region : Region
  first : Nat
deriving DecidableEq, Repr

/-- A stripe line as a rebuild has read it from other members (R245, R246): the stripe, the line offset in the page, and the 64 bytes
of the positions read; position j below D is data position j, position D + k is parity k. -/
structure StripeLine where
  stripe : Nat
  line : Nat
  sources : List (Nat × List Byte)
deriving DecidableEq, Repr

/-- What firmware of another member sends on a connection of a parity group (R241, R243, R246). The manual does not lay out its packets
(log 20). -/
inductive ParityMsg where
  | delta (d : DeltaMsg)
  /-- The member's manifest at a completion (R243). -/
  | manifest (pgroup : Nat) (entries : List ManifestEntry)
  /-- A rebuild of a member has begun: t1 of R246; with how to reach its spare. -/
  | rebuild (pgroup member : Nat) (peers : List PeerConn)
  /-- A survivor reports E and the lost member's manifest to the spare: t1 of R246. -/
  | report (pgroup epoch : Nat) (entries : List ManifestEntry)
  /-- A parity line to be recomputed at t3. -/
  | recompute (pgroup : Nat) (x : StripeLine)
deriving DecidableEq, Repr

/-- What a cartridge brings into its bay: its identity record and its life log (R327, R328). -/
structure CartIn where
  record : List Byte
  log : List Byte
deriving DecidableEq, Repr

end Sys2Proof.Machine
end

