-- ==== Sys2Proof/Syntax.lean ====
section
/-! DEFINITION. The commands of the block, one constructor for each row of the opcode table, with what the outside supplies
as operands. -/

namespace Sys2Proof

open Sys2Proof.Machine

/-- The commands: one constructor for each row of the opcode table. -/
inductive Instr where
  /-- A detected unit fault retires the unit at once; its in-flight work completes with unit-fault, and a spare takes over where one stands by (R153). -/
  | unitFault (unit : Nat) (lost : List Nat)
  /-- Firmware resets a cluster, clearing core, cache, scratch, Indigo and Pastel state and aborting their jobs (R21); with the dirty lines that cannot be read (R154). -/
  | clusterReset (work : ClusterLoss)
  /-- A cluster reset ends; deferred retirements, gating and renumbering of present cores take effect, and queues reopen (R24). -/
  | clusterResetDone (cluster : Nat)
  /-- Firmware or Umber resets a region; incoming work waits in credited queues while memory, counters and time are kept (R21). -/
  | regionReset (region : Nat) (umber : Bool) (lost : List Nat)
  /-- A region returns from reset; queued work and paused migrations proceed (R23). -/
  | regionResetDone (region : Nat)
  /-- A region misses its reset bound; the work waiting for it completes with region-unavailable (R23). -/
  | regionResetTimeout (region : Nat) (waiting : List Nat)
  /-- Firmware powers up a gated cluster within 20 µs so that waiting work can start (R25). -/
  | clusterPowerUp (cluster : Nat)
  /-- Firmware gates a cluster once it holds no accepted work (R25). -/
  | clusterGate (cluster : Nat)
  /-- Palette core 0 changes the world of an idle cluster through the ownership sequence (R27). -/
  | worldChange (cluster : Nat) (secure : Bool)
  /-- Patrol scrub reads the next line at its period and resolves it (R79). -/
  | scrubRead (upsets : List (Nat × Nat))
  /-- A DRAM die begins a refresh round, applying any new interval (R80). -/
  | refreshRound (stack : Nat) (die : Nat)
  /-- A freed page has been zeroed and returns to the free pool, which may move degraded pages or apply a pending size (R85). -/
  | pageZeroingDone
  /-- A DRAM die is retired, and Lake starts spare takeover, rebuild or page moves (R97). -/
  | dieRetirement (stack : Nat) (die : Nat)
  /-- Every line of a page has moved, and the page switches to its new place (R98). -/
  | pageMigrated (stack : Nat)
  /-- Creates a work ring bound to a completion ring and an optional trigger list (R111). -/
  | chCreateWorkRing (pair : MboxId) (blk : CmdBlock)
  /-- Creates a completion ring after zeroing it in host memory (R113). -/
  | chCreateCompletionRing (pair : MboxId) (blk : CmdBlock)
  /-- Creates a Carmine connection in IDLE or CONNECTING (R253). -/
  | chCreateConnection (pair : MboxId) (blk : CmdBlock)
  /-- Creates an NVMe submission and completion queue pair (R403). -/
  | chCreateStorageQueue (pair : MboxId) (blk : CmdBlock)
  /-- Creates a dispatch job queue from a configuration record, expert map and rank table (R184). -/
  | chCreateDispatchQueue (pair : MboxId) (blk : CmdBlock)
  /-- Creates a reduction group from a configuration record and member table and zeroes its residuals (R208). -/
  | chCreateReductionGroup (pair : MboxId) (blk : CmdBlock)
  /-- Creates an optimizer program, either a library program or a user image (R228). -/
  | chCreateOptimizerProgram (pair : MboxId) (blk : CmdBlock)
  /-- Creates a memory region in tier N or in a window and returns its handle, BASE and KEY (R84). -/
  | chCreateMemoryRegion (pair : MboxId) (blk : CmdBlock)
  /-- Creates a key slot from a plain key, a wrapped key or an entropy draw (R488). -/
  | chCreateKeySlot (pair : MboxId) (blk : CmdBlock) (data : Option (List Byte))
  /-- Places and zeroes a contiguous run of event counters (R129). -/
  | chCreateCounterSet (pair : MboxId) (blk : CmdBlock)
  /-- Creates a trigger list with its tallies and trigger storage (R130). -/
  | chCreateTriggerList (pair : MboxId) (blk : CmdBlock)
  /-- Changes the vector and moderation settings of a completion ring (R112). -/
  | chModifyCompletionRing (pair : MboxId) (blk : CmdBlock)
  /-- Changes the rights, key or placement of a region; a placement change starts a rebalance (R92). -/
  | chModifyMemoryRegion (pair : MboxId) (blk : CmdBlock)
  /-- Rereads the dispatch configuration for jobs accepted after the command (R188). -/
  | chModifyDispatchQueue (pair : MboxId) (blk : CmdBlock)
  /-- Reconfigures a quiescent reduction group, restarting numbering and clearing the broken state (R209). -/
  | chModifyReductionGroup (pair : MboxId) (blk : CmdBlock)
  /-- Changes the cluster mask of an optimizer program (R228). -/
  | chModifyOptimizerProgram (pair : MboxId) (blk : CmdBlock)
  /-- Changes path, congestion or event settings, or peer fields in IDLE or ERROR (R256). -/
  | chModifyConnection (pair : MboxId) (blk : CmdBlock)
  /-- Changes the vector and moderation settings of a storage queue (R403). -/
  | chModifyStorageQueue (pair : MboxId) (blk : CmdBlock)
  /-- A CH_MODIFY of a work ring, counter set, trigger list or key slot is refused with invalid-field (R108). -/
  | chModifyFixedClass (pair : MboxId) (blk : CmdBlock)
  /-- Increments the slot generation and aborts queued work of the channel (R109). -/
  | chDestroy (pair : MboxId) (blk : CmdBlock)
  /-- Once started work has stopped and every completion is written, the destroy completes and the slot is freed (R109). -/
  | chDestroyDone (cls : Nat) (index : Nat)
  /-- A doorbell write at page offset 0x000 moves the tail of a work ring or submission queue, or is dropped (R116). -/
  | workDoorbell (fn : Nat) (page : Nat) (wide : Bool) (value : W64)
  /-- A doorbell write at page offset 0x008 moves the head of a completion ring and may re-arm its interrupt (R115). -/
  | completionDoorbell (fn : Nat) (page : Nat) (wide : Bool) (value : W64)
  /-- Vat fetches a descriptor once it can reserve a completion slot for it (R122). -/
  | descriptorFetch (cq : Nat)
  /-- A failed descriptor read writes a host-DMA-error completion and halts the ring (R118). -/
  | descriptorReadError (ring : Nat)
  /-- A descriptor at the head of its ring is checked in order and then started, made to wait or parked (R121). -/
  | descriptorStart (ring : Nat)
  /-- A waiting descriptor starts within 1 µs of its counter condition holding (R127). -/
  | countWaitSatisfied (ring : Nat)
  /-- Does nothing and completes (R120). -/
  | nop (job : Nat)
  /-- Adds VALUE to a counter and returns its previous value (R128). -/
  | ctrAdd (job : Nat)
  /-- Sets a counter and returns its previous value (R128). -/
  | ctrSet (job : Nat)
  /-- A codec job converts elements between formats on a Pastel codec, with optional error feedback (R133). -/
  | codec (job : Nat)
  /-- A codec job finishes and reports its status, DETAIL and RESULT (R133). -/
  | codecJobDone (job : Nat)
  /-- MOD_TIME passes after the first unsignalled completion, and the armed ring interrupts (R132). -/
  | modTimeExpiry (cq : Nat)
  /-- A fired entry obtains a completion slot and runs as a started descriptor (R131). -/
  | triggerEntryRun (cq : Nat)
  /-- Physical function 0 hands a cluster to a new owner through the ownership sequence (R141). -/
  | clAssign (pair : MboxId) (blk : CmdBlock)
  /-- The grace time ends or the cluster goes idle; running work is stopped and the cluster reset begins (R140). -/
  | reclaimGraceEnd (cluster : Nat)
  /-- Loads a program image into scratch and starts the named cores (R142). -/
  | clRun (pair : MboxId) (blk : CmdBlock)
  /-- Stops the named running or waiting cores and writes their records (R143). -/
  | clStop (pair : MboxId) (blk : CmdBlock)
  /-- A block-fraction matrix multiply job on an Indigo engine (R162). -/
  | matmul (job : Nat)
  /-- A GF(2^8) matrix multiply job on an Indigo engine (R174). -/
  | gfMatmul (job : Nat)
  /-- An engine accepts a waiting ring job or core-started job once its queue has room (R175). -/
  | engineAccept (cluster : Nat) (codec : Bool)
  /-- A matrix job completes, reporting tiles written, groups skipped and its status (R168). -/
  | indigoJobDone (job : Nat)
  /-- A column residue check fails; the tile is discarded and recomputed, and a second mismatch starts a pattern test (R177). -/
  | residueMismatch (place : TileAt)
  /-- The pattern test names the failing row or column; a spare is swapped in and the tile is recomputed (R177). -/
  | arrayPatternTestDone (cluster : Nat) (column : Bool) (index : Nat)
  /-- Assigns a job number and checks the addresses of a mixture-of-experts dispatch (R195). -/
  | dispatch (job : Nat)
  /-- Job J − 2 retires, and the held dispatch routes tokens and sends rows and count records (R195). -/
  | dispatchHoldEnd (queue : Nat)
  /-- Every count record is visible; ROUTE and COUNTS are written and the dispatch completes (R195). -/
  | dispatchDone (queue : Nat)
  /-- The owner of an expert sends its output rows back to each source (R198). -/
  | returnRows (job : Nat)
  /-- Every return write is visible, and RETURN completes (R198). -/
  | returnDone (job : Nat)
  /-- Posts a combine for a dispatched job, or refuses it with job-unknown (R199). -/
  | combine (job : Nat)
  /-- The return counter reaches its target, and the combine writes the gate-weighted tile (R199). -/
  | combineStart (queue : Nat)
  /-- CTIMEOUT passes without all returns, and the combine completes with remote-timeout (R200). -/
  | combineTimeout (queue : Nat)
  /-- Posts an all-reduce on a reduction group (R210). -/
  | allreduce (job : Nat)
  /-- Posts a reduce-scatter on a reduction group (R210). -/
  | reduceScatter (job : Nat)
  /-- Posts an all-gather on a reduction group (R210). -/
  | allgather (job : Nat)
  /-- Every partner's release for J − 2 has arrived; the operation encodes and sends its first phase (R215). -/
  | collectiveHoldEnd (group : Nat)
  /-- CTIMEOUT passes without completion; the operation fails, an abort is sent and the group breaks (R223). -/
  | collectiveTimeout (group : Nat)
  /-- Runs an optimizer step on the program's owned clusters (R234). -/
  | optStep (job : Nat)
  /-- Converts and pushes the weights of a bank to PUSH (R235). -/
  | wpush (job : Nat)
  /-- Starts closing the open parity epoch on this member (R243). -/
  | parEpoch (job : Nat)
  /-- Every member has started the close and every delta is applied; the epoch commits and the manifest is stored (R243). -/
  | epochCommit (group : Nat)
  /-- Joins a parity group, reserving parity pages (R237). -/
  | pgJoin (pair : MboxId) (blk : CmdBlock)
  /-- All members have joined with matching parameters, or a mismatch fails the join (R237). -/
  | pgJoinDone (group : Nat) (same : Bool) (peers : List PeerConn)
  /-- 60 s pass without every member joining, and the join fails with remote-timeout (R237). -/
  | pgJoinTimeout (group : Nat)
  /-- Leaves a parity group, or is refused with busy while protected regions remain (R236). -/
  | pgLeave (pair : MboxId) (blk : CmdBlock) (othersHold : Bool)
  /-- Starts rebuilding a lost member on a spare (R246). -/
  | pgRebuild (pair : MboxId) (blk : RebuildBlk)
  /-- Data and parity are rebuilt; epochs are reset, held writes are released and the command completes (R246). -/
  | pgRebuildDone (group : Nat) (ok : Bool) (epoch : Nat) (data parity : List StripeLine) (peers : List PeerConn)
  /-- Every 1 ms a CONNECTING connection sends CONNECT (R255). -/
  | connectTimer (conn : Nat)
  /-- After 10 s in CONNECTING the connection enters ERROR with remote-timeout (R255). -/
  | connectingTimeout (conn : Nat)
  /-- An arriving CONNECT from a matching peer is answered and establishes the connection (R255). -/
  | connect
  /-- An arriving CONNECT_ACK from a matching peer establishes the connection (R255). -/
  | connectAck
  /-- An arriving CLOSE puts the connection in ERROR with peer-lost (R254). -/
  | close
  /-- An arriving keepalive PROBE is answered with PROBE_ACK (R281). -/
  | probe
  /-- An arriving PROBE_ACK resets the count of unanswered probes (R281). -/
  | probeAck
  /-- An idle connection sends PROBE, and enters ERROR after three unanswered probes (R281). -/
  | keepaliveTimer (conn : Nat)
  /-- A one-sided write to a peer's memory (R268). -/
  | write (job : Nat)
  /-- A one-sided write that increments a peer counter when it becomes visible (R268). -/
  | writeInc (job : Nat)
  /-- A one-sided write that adds to a peer trigger tally when it becomes visible (R268). -/
  | writeTrig (job : Nat)
  /-- A one-sided read from a peer's memory (R268). -/
  | read (job : Nat)
  /-- A two-sided send into the peer's oldest receive entry (R268). -/
  | send (job : Nat)
  /-- An 8-byte remote fetch-add (R265). -/
  | fetchAdd (job : Nat)
  /-- An 8-byte remote compare-swap (R265). -/
  | cmpSwap (job : Nat)
  /-- Posts a receive entry on the connection's receive queue (R272). -/
  | recv (job : Nat)
  /-- A packet leaves once the window, outstanding limits and pause allow it, on the next path of the rotation (R281). -/
  | packetSend (conn : Nat)
  /-- An arriving DATA packet is checked, then placed, staged or dropped, and may make its message visible (R274). -/
  | dataPacket (delta : Option ParityMsg)
  /-- An ACK completes acknowledged messages and updates SACK, RTT and the congestion window (R277). -/
  | ackPacket
  /-- A NACK fails a refused message, pauses for a context miss, or puts the connection in ERROR on stale (R279). -/
  | nackPacket
  /-- An arriving read request runs once earlier messages are visible and sends the response (R271). -/
  | readReq
  /-- An arriving read response is placed locally; the last one completes the READ (R277). -/
  | readResp
  /-- An arriving atomic request runs once at the line and sends the prior value (R271). -/
  | atomicReq
  /-- An arriving atomic response writes VALUE to LADDR and completes the atomic (R277). -/
  | atomicResp
  /-- 2 µs pass after the first unacknowledged placement, and an ACK is sent (R278). -/
  | ackTimer (conn : Nat)
  /-- RTO passes for a PSN; it is retransmitted, and RETRY exhaustion puts the connection in ERROR (R279). -/
  | rtoExpiry (conn : Nat) (psn : Nat)
  /-- EPSN has not advanced for NOPROG ms, and the connection enters ERROR with remote-timeout (R279). -/
  | noprogExpiry (conn : Nat)
  /-- The context-miss pause ends, and the sender resends from NPSN (R285). -/
  | contextMissBackoffEnd (conn : Nat)
  /-- A packet parked for 50 µs is dropped with a context-miss NACK (R284). -/
  | parkTimeout
  /-- A fetched context arrives on die, and its parked packets are handled in arrival order (R284). -/
  | contextArrived (conn : Nat)
  /-- Registers the host spill area for quiescent contexts (R282). -/
  | carmSpill (pair : MboxId) (blk : CmdBlock)
  /-- Puts every connection to a node in ERROR with peer-lost (R286). -/
  | carmNodeLost (pair : MboxId) (blk : CmdBlock)
  /-- A write of the third profile word commits all three staged words of a congestion profile at once (R291). -/
  | ccProfCommit (prof : Nat) (value : W64)
  /-- Sets or clears the owner of an accelerator port (R314). -/
  | apAssign (pair : MboxId) (blk : CmdBlock)
  /-- Starts a full retrain of an accelerator port (R314). -/
  | apRetrain (pair : MboxId) (blk : CmdBlock)
  /-- Enables or disables an accelerator port (R314). -/
  | apEnable (pair : MboxId) (blk : CmdBlock)
  /-- An enabled port that is down restarts training every 1 s (R295). -/
  | trainingRetryTimer (port : Nat)
  /-- Lane equalisation and PRBS tests end; the port picks data lanes and sends the lane map (R295). -/
  | laneTestDone (port : Nat) (good : BitVec 66)
  /-- The partner's CAPS arrives; credits are checked and the port enters full or half width (R302). -/
  | caps (port : Nat) (flit : List Byte)
  /-- Training misses a bound, and the port goes down with a recorded cause (R295). -/
  | trainingTimeout (port : Nat)
  /-- Standby lanes are retested every 1 s (R295). -/
  | standbyLaneRetest (port : Nat) (good : BitVec 66)
  /-- A received transaction flit is accepted in sequence, or discarded and answered with NAK (R299). -/
  | transactionFlit (port : Nat) (flit : List Byte)
  /-- A received idle flit carries ACK and credit updates (R297). -/
  | idleFlit (port : Nat) (flit : List Byte)
  /-- A received NAK replays every unacknowledged flit from the expected SEQ (R299). -/
  | nak (port : Nat) (flit : List Byte)
  /-- An unanswered NAK, LANE_SWAP or CAPS is repeated every 2 µs; eight NAKs start a fast retrain (R299). -/
  | nakRepeatTimer (port : Nat)
  /-- A received LANE_SWAP is acknowledged, and the ends switch to the standby lane (R296). -/
  | laneSwap (port : Nat) (flit : List Byte)
  /-- A received LANE_SWAP_ACK switches the logical lane at the next flit (R296). -/
  | laneSwapAck (port : Nat) (flit : List Byte)
  /-- A 10 ms FEC window closes above threshold and starts a planned lane swap (R296). -/
  | laneFecWindow (port : Nat) (lane : Nat) (corrected : Nat)
  /-- A data lane loses lock or fails FEC, and a fast retrain without it starts (R296). -/
  | laneLoss (port : Nat) (lane : Nat) (ue : Nat)
  /-- A fast retrain ends at full or half width, or the port goes down (R296). -/
  | fastRetrainDone (port : Nat) (good : BitVec 66)
  /-- The next flit is sent in priority order once credit and replay space allow (R303). -/
  | flitTransmit (port : Nat)
  /-- A partner memory write is checked and written to tier N (R307). -/
  | mwr (port : Nat)
  /-- A partner memory read is checked and answered with CPL or CPL_ERR (R307). -/
  | mrd (port : Nat)
  /-- A partner completion answers a KY9 read or fence; a late one is discarded (R308). -/
  | cpl (port : Nat)
  /-- A partner error completion fails the issuing work with port-error or poisoned-data (R308). -/
  | cplErr (port : Nat)
  /-- A partner counter add applies after earlier transactions of its VC (R309). -/
  | apCtrAdd (port : Nat)
  /-- A partner counter read is answered with the counter value (R307). -/
  | ctrRd (port : Nat)
  /-- A partner fence is answered once every earlier posted transaction has taken effect (R309). -/
  | apFence (port : Nat)
  /-- A partner posts a descriptor to a work ring, queueing it for a completion slot (R307). -/
  | apPost (port : Nat)
  /-- A queued POST obtains a completion slot and starts as the ring's next descriptor (R307). -/
  | apPostStart (port : Nat)
  /-- A KY9 request goes unanswered for 100 µs, and its work completes with port-error (R308). -/
  | apCplTimeout (port : Nat) (tag : Nat)
  /-- An APn_PRSNT# change allows or prevents training of the port (R541). -/
  | partnerPresence (port : Nat) (present : Bool)
  /-- A port configuration write; a MODE change takes the port down and retrains it (R321). -/
  | ethPortCfgWrite (port : Nat) (value : W32)
  /-- An Ethernet port completes training and comes up, possibly degraded (R321). -/
  | ethLinkUp (port : Nat)
  /-- An Ethernet port goes down, and its queued frames are discarded (R372). -/
  | ethLinkDown (port : Nat) (cause : Nat)
  /-- The 802.3br verify attempt succeeds or fails, setting PSTATE (R323). -/
  | preemptVerify (port : Nat) (ok : Bool)
  /-- Adds a signed step to the port's timestamp counter when TSHOST is set (R326). -/
  | tsAdjWrite (port : Nat) (value : W64)
  /-- Sets the timestamp rate offset from the next reference period when TSHOST is set (R326). -/
  | tsRateWrite (port : Nat) (value : W32)
  /-- A read of ETH_TS_NS latches the counter's seconds (R326). -/
  | tsLatchRead (port : Nat)
  /-- The MAC accepts or drops a received frame and queues it for Madder with its timestamp (R320). -/
  | frameReceive (port : Nat) (frame : List Byte) (fcsOk : Bool)
  /-- The once-a-second bias measurement may start a planned move or retire an emitter (R330). -/
  | emitterBiasCheck (engine : Nat) (emitter : Nat) (bias : Nat)
  /-- An emitter fails and is retired; a spare is assigned or the port degrades (R330). -/
  | emitterFailure (engine : Nat) (emitter : Nat)
  /-- Copies a cartridge's identity record and life log to host memory (R329). -/
  | cartRead (pair : MboxId) (blk : CmdBlock)
  /-- Takes a cartridge's ports out of rotation for replacement (R332). -/
  | cartRelease (pair : MboxId) (blk : CmdBlock)
  /-- Queued frames have left or been discarded; the emitters are dark and CSTATE reads released (R332). -/
  | cartReleaseDone (engine : Nat)
  /-- Opening a bay latch darkens the emitters; without a release the ports go down (R333). -/
  | latchOpen (engine : Nat)
  /-- Closing a bay latch starts reading and verifying the cartridge (R332). -/
  | latchClose (engine : Nat) (cart : Option CartIn)
  /-- Verification passes and the ports train, or the cartridge is rejected (R332). -/
  | cartVerifyDone (engine : Nat) (refOk : Bool)
  /-- The cartridge controller writes lit hours to the life log every hour (R328). -/
  | cartHourlyLog (engine : Nat)
  /-- A daily sample entry is logged for every lit emitter (R328). -/
  | cartDailySample (engine : Nat)
  /-- Madder parses a buffered frame, checks slow-path causes and decides its consumer (R346). -/
  | madderParse (port : Nat)
  /-- Both flow-table slots are read, and a hit applies the entry's action (R350). -/
  | flowLookupResult
  /-- A flow lookup unanswered for 2 µs counts as a miss (R346). -/
  | flowLookupTimeout
  /-- Writes the selected rule from staging if it is invalid (R347). -/
  | ruleWrite
  /-- Clears VALID of the selected rule (R347). -/
  | ruleInvalidate
  /-- Copies the selected rule into the staging registers (R347). -/
  | ruleRead
  /-- Both slices hold the result of a rule command, and BUSY clears (R347). -/
  | ruleCmdDone
  /-- Starts building a flow table of 2^n slots (R351). -/
  | flowTable (pair : MboxId) (blk : CmdBlock)
  /-- The new table is built and lookups switch to it, or the build fails with out-of-resources (R351). -/
  | flowTableSwitch
  /-- Adds or replaces a flow entry (R351). -/
  | flowAdd (pair : MboxId) (blk : CmdBlock)
  /-- Deletes a flow entry (R351). -/
  | flowDel (pair : MboxId) (blk : CmdBlock)
  /-- A frame enters its egress queue once the queue and the buffer have room (R357). -/
  | weldEnqueue (port : Nat)
  /-- At a frame boundary the port picks and starts the next frame, charging shapers and the admission bucket (R358). -/
  | transmitDecision (port : Nat)
  /-- A WELD_SHP_CTRL write commits a shaper's rates and resets its credits (R363). -/
  | shaperCommit (shaper : Nat) (value : W32)
  /-- Setting CHANGE copies the staged gate list into a pending list (R366). -/
  | gateListChange (port : Nat) (value : W32)
  /-- The port's counter reaches T, and the pending gate list replaces the running one (R366). -/
  | gateListStart (port : Nat)
  /-- An entry interval ends, and the gate states of the next entry apply (R365). -/
  | gateEntryAdvance (port : Nat)
  /-- A sampling period ends, and enabled queues add depth and sojourn samples to their histograms (R371). -/
  | queueSample
  /-- Initiate Function Level Reset silences the function and starts sweeping its channels (R393). -/
  | flrInitiate (fn : Nat)
  /-- The function's configuration space returns to reset values, and FLR clears (R393). -/
  | flrDone (fn : Nat)
  /-- Clearing Bus Master Enable stops the function's requests and holds its completions and interrupts (R391). -/
  | bmeClear (fn : Nat)
  /-- Setting Bus Master Enable writes held entries, sends held interrupts and resumes fetching (R391). -/
  | bmeSet (fn : Nat)
  /-- Clearing VF Enable resets every VF of the port and its quotas (R392). -/
  | vfEnableClear (port : Nat)
  /-- A function entering D3hot acts as with Bus Master Enable 0 (R391). -/
  | d3hotEntry (fn : Nat)
  /-- A function returning to D0 resumes with its state kept (R391). -/
  | d0Return (fn : Nat)
  /-- An unmask sends each pending vector once and clears its pending bit (R388). -/
  | msixMaskChange (fn : Nat) (vec : Option Nat) (addr : W64) (data : W32) (mask : Bool) (enable : Bool)
  /-- A hot reset, link down or PERST# on a host port resets every function of that port (R392). -/
  | hostPortReset (port : Nat) (perst : Bool)
  /-- A completion from the host resolves a read, or is discarded for a quarantined tag (R389). -/
  | hostCompletion (fn : Nat) (tag : Nat) (kind : CplKind) (data : List Byte)
  /-- A host read times out; its work fails and its tag is quarantined (R389). -/
  | hostCplTimeout (fn : Nat) (tag : Nat)
  /-- 64 s after its timeout, a quarantined tag becomes reusable (R389). -/
  | tagQuarantineEnd (fn : Nat) (tag : Nat)
  /-- An ATS invalidation completes after every request that used the translation (R383). -/
  | atsInvalidate (fn : Nat) (page : Nat)
  /-- Sets a function's per-class quotas (R395). -/
  | fnQuota (pair : MboxId) (blk : CmdBlock)
  /-- Sets a function's host-link share weight (R397). -/
  | fnShare (pair : MboxId) (blk : CmdBlock)
  /-- A write to a register without its own row acts by its access code (R7). -/
  | registerWrite (fn : Nat) (space : RegSpace) (off : Nat) (size : Nat) (value : W64)
  /-- Defines a Saffron namespace and its backing (R405). -/
  | safNsCreate (pair : MboxId) (blk : CmdBlock)
  /-- Attaches a namespace to a function and raises a namespace event (R406). -/
  | safNsAttach (pair : MboxId) (blk : CmdBlock)
  /-- Detaches a namespace from a function (R406). -/
  | safNsDetach (pair : MboxId) (blk : CmdBlock)
  /-- Deletes a namespace after destaging or discarding its buffered pages (R406). -/
  | safNsDelete (pair : MboxId) (blk : CmdBlock)
  /-- Resets a controller, destroying its queues and aborting outstanding commands (R418). -/
  | safCtrlReset (pair : MboxId) (blk : CmdBlock)
  /-- Saffron fetches a submission entry once a completion slot is free (R404). -/
  | sqFetch (queue : Nat)
  /-- Returns an error, SMART or changed-namespace log page (R407). -/
  | getLogPage (queue : Nat) (cid : Nat)
  /-- Returns controller or namespace identify data (R413). -/
  | identify (queue : Nat) (cid : Nat)
  /-- Aborts a fetched command that has not started (R407). -/
  | abort (queue : Nat) (cid : Nat)
  /-- Sets a supported feature (R407). -/
  | setFeatures (queue : Nat) (cid : Nat)
  /-- Returns a supported feature (R407). -/
  | getFeatures (queue : Nat) (cid : Nat)
  /-- Leaves an asynchronous event request outstanding (R407). -/
  | asyncEventRequest (queue : Nat) (cid : Nat)
  /-- Completes once earlier writes to its namespaces are durable (R417). -/
  | nvmeFlush (queue : Nat) (cid : Nat)
  /-- Writes host data into the write buffer in atomic units (R409). -/
  | nvmeWrite (queue : Nat) (cid : Nat)
  /-- Reads sectors from the buffer or the backing target (R410). -/
  | nvmeRead (queue : Nat) (cid : Nat)
  /-- Writes zeroes to a range of blocks (R407). -/
  | writeZeroes (queue : Nat) (cid : Nat)
  /-- Deallocates ranges, performed as Write Zeroes (R407). -/
  | datasetManagement (queue : Nat) (cid : Nat)
  /-- A waiting write enters the buffer once destaging frees pages (R409). -/
  | writeBufferAdmit (queue : Nat) (cid : Nat)
  /-- The backing acknowledges a page's newest contents, and the page leaves the buffer (R410). -/
  | destageAck
  /-- Hold-up or flash conditions change, and the vault arms or disarms (R414). -/
  | vaultArmChange (energy : Nat) (erased : Bool) (flashFault : Bool)
  /-- The vault image is written and valid, and power is released (R415). -/
  | vaultSaveDone
  /-- 30 s with no backing session established make the namespace not ready (R421). -/
  | nsReadyTimeout (ns : Nat)
  /-- A failed NVMe/TCP session tries to reconnect every 1 s (R420). -/
  | sessionReconnectTimer (session : Nat)
  /-- An arriving ICResp completes session initialisation (R420). -/
  | icResp (session : Nat)
  /-- An arriving CapsuleResp completes a backing command (R420). -/
  | capsuleResp (session : Nat)
  /-- Arriving C2HData delivers backing read data (R420). -/
  | c2hData (session : Nat)
  /-- An arriving R2T PDU asks Saffron to send write data as H2CData (R420). -/
  | readyToTransfer (session : Nat)
  /-- An arriving C2HTermReq terminates the session (R420). -/
  | c2hTermReq (session : Nat)
  /-- A reserved encoding raises illegal-instruction and ends the program (R439). -/
  | illegalInstruction (core : Nat)
  /-- The local time counter reaches a core's deadline, and TIMER becomes pending (R151). -/
  | timedWaitDeadline (core : Nat)
  /-- Integer add (R430). -/
  | add (core : Nat)
  /-- Integer subtract (R430). -/
  | sub (core : Nat)
  /-- Bitwise and (R430). -/
  | and (core : Nat)
  /-- Bitwise or (R430). -/
  | or (core : Nat)
  /-- Bitwise xor (R430). -/
  | xor (core : Nat)
  /-- Shift left (R430). -/
  | shl (core : Nat)
  /-- Logical shift right (R430). -/
  | shr (core : Nat)
  /-- Arithmetic shift right (R430). -/
  | sra (core : Nat)
  /-- Low 64 bits of a product (R430). -/
  | mul (core : Nat)
  /-- High 64 bits of a signed product (R430). -/
  | mulh (core : Nat)
  /-- High 64 bits of an unsigned product (R430). -/
  | mulhu (core : Nat)
  /-- Signed divide (R430). -/
  | div (core : Nat)
  /-- Unsigned divide (R430). -/
  | divu (core : Nat)
  /-- Signed remainder (R430). -/
  | rem (core : Nat)
  /-- Unsigned remainder (R430). -/
  | remu (core : Nat)
  /-- Signed minimum (R430). -/
  | min (core : Nat)
  /-- Signed maximum (R430). -/
  | max (core : Nat)
  /-- Unsigned minimum (R430). -/
  | minu (core : Nat)
  /-- Unsigned maximum (R430). -/
  | maxu (core : Nat)
  /-- Count leading zeros (R430). -/
  | clz (core : Nat)
  /-- Count set bits (R430). -/
  | popc (core : Nat)
  /-- Reads the predicates into a register (R430). -/
  | rdp (core : Nat)
  /-- Add immediate (R430). -/
  | addi (core : Nat)
  /-- And immediate (R430). -/
  | andi (core : Nat)
  /-- Or immediate (R430). -/
  | ori (core : Nat)
  /-- Xor immediate (R430). -/
  | xori (core : Nat)
  /-- Shift left by immediate (R430). -/
  | shli (core : Nat)
  /-- Logical shift right by immediate (R430). -/
  | shri (core : Nat)
  /-- Arithmetic shift right by immediate (R430). -/
  | srai (core : Nat)
  /-- Moves a zero-extended 16-bit immediate (R430). -/
  | movz (core : Nat)
  /-- Inserts 16 bits at bit 0 (R430). -/
  | movk0 (core : Nat)
  /-- Inserts 16 bits at bit 16 (R430). -/
  | movk1 (core : Nat)
  /-- Inserts 16 bits at bit 32 (R430). -/
  | movk2 (core : Nat)
  /-- Inserts 16 bits at bit 48 (R430). -/
  | movk3 (core : Nat)
  /-- Sets a predicate on equality (R430). -/
  | cmpeq (core : Nat)
  /-- Sets a predicate on inequality (R430). -/
  | cmpne (core : Nat)
  /-- Signed less-than compare (R430). -/
  | cmplt (core : Nat)
  /-- Signed greater-or-equal compare (R430). -/
  | cmpge (core : Nat)
  /-- Unsigned less-than compare (R430). -/
  | cmpltu (core : Nat)
  /-- Unsigned greater-or-equal compare (R430). -/
  | cmpgeu (core : Nat)
  /-- Equality compare with an immediate (R430). -/
  | cmpeqi (core : Nat)
  /-- Signed less-than compare with an immediate (R430). -/
  | cmplti (core : Nat)
  /-- Predicate and (R430). -/
  | pand (core : Nat)
  /-- Predicate or (R430). -/
  | por (core : Nat)
  /-- Predicate xor (R430). -/
  | pxor (core : Nat)
  /-- Predicate and-not (R430). -/
  | pandn (core : Nat)
  /-- Floating-point add (R431). -/
  | fadd (core : Nat)
  /-- Floating-point subtract (R431). -/
  | fsub (core : Nat)
  /-- Floating-point multiply (R431). -/
  | fmul (core : Nat)
  /-- Floating-point divide (R431). -/
  | fdiv (core : Nat)
  /-- Floating-point square root (R431). -/
  | fsqrt (core : Nat)
  /-- Floating-point minimum (R431). -/
  | fmin (core : Nat)
  /-- Floating-point maximum (R431). -/
  | fmax (core : Nat)
  /-- Fused multiply-add (R431). -/
  | fma (core : Nat)
  /-- Converts between binary32 and binary64 (R431). -/
  | fcvt (core : Nat)
  /-- Converts floating point to int64 (R430). -/
  | fcvti (core : Nat)
  /-- Converts int64 to floating point (R430). -/
  | icvtf (core : Nat)
  /-- Floating-point equality compare (R431). -/
  | feq (core : Nat)
  /-- Floating-point less-than compare (R431). -/
  | flt (core : Nat)
  /-- Floating-point less-or-equal compare (R431). -/
  | fle (core : Nat)
  /-- Loads a byte, zero-extended (R430). -/
  | ld8u (core : Nat)
  /-- Loads 16 bits, zero-extended (R430). -/
  | ld16u (core : Nat)
  /-- Loads 32 bits, zero-extended (R430). -/
  | ld32u (core : Nat)
  /-- Loads 64 bits (R430). -/
  | ld64 (core : Nat)
  /-- Loads a byte, sign-extended (R430). -/
  | ld8s (core : Nat)
  /-- Loads 16 bits, sign-extended (R430). -/
  | ld16s (core : Nat)
  /-- Loads 32 bits, sign-extended (R430). -/
  | ld32s (core : Nat)
  /-- Stores a byte (R430). -/
  | st8 (core : Nat)
  /-- Stores 16 bits (R430). -/
  | st16 (core : Nat)
  /-- Stores 32 bits (R430). -/
  | st32 (core : Nat)
  /-- Stores 64 bits (R430). -/
  | st64 (core : Nat)
  /-- Loads 32 bytes into a vector (R430). -/
  | vld (core : Nat)
  /-- Stores a vector as 32 bytes (R430). -/
  | vst (core : Nat)
  /-- Atomic 8-byte fetch-add (R149). -/
  | amoadd (core : Nat)
  /-- Atomic 8-byte compare-and-swap (R149). -/
  | amocas (core : Nat)
  /-- Atomic 8-byte swap (R149). -/
  | amoswp (core : Nat)
  /-- PC-relative branch (R430). -/
  | br (core : Nat)
  /-- Branch and link to g31 (R430). -/
  | bl (core : Nat)
  /-- Jump to a register (R430). -/
  | jr (core : Nat)
  /-- Jump to a register and link (R430). -/
  | jrl (core : Nat)
  /-- Lane-wise add (R430). -/
  | vadd (core : Nat)
  /-- Lane-wise subtract (R430). -/
  | vsub (core : Nat)
  /-- Lane-wise multiply (R430). -/
  | vmul (core : Nat)
  /-- Lane-wise and (R430). -/
  | vand (core : Nat)
  /-- Lane-wise or (R430). -/
  | vor (core : Nat)
  /-- Lane-wise xor (R430). -/
  | vxor (core : Nat)
  /-- Lane-wise shift left (R430). -/
  | vshl (core : Nat)
  /-- Lane-wise logical shift right (R430). -/
  | vshr (core : Nat)
  /-- Lane-wise arithmetic shift right (R430). -/
  | vsra (core : Nat)
  /-- Lane-wise minimum (R430). -/
  | vmin (core : Nat)
  /-- Lane-wise maximum (R430). -/
  | vmax (core : Nat)
  /-- Lane-wise saturating add (R430). -/
  | vadds (core : Nat)
  /-- Lane-wise saturating subtract (R430). -/
  | vsubs (core : Nat)
  /-- Carry-less product of the even 64-bit lanes (R430). -/
  | vclmul (core : Nat)
  /-- Carry-less product of the odd 64-bit lanes (R430). -/
  | vclmulh (core : Nat)
  /-- Vector binary32 add (R431). -/
  | vfadd (core : Nat)
  /-- Vector binary32 subtract (R431). -/
  | vfsub (core : Nat)
  /-- Vector binary32 multiply (R431). -/
  | vfmul (core : Nat)
  /-- Vector binary32 divide (R431). -/
  | vfdiv (core : Nat)
  /-- Vector binary32 square root (R431). -/
  | vfsqrt (core : Nat)
  /-- Vector binary32 minimum (R431). -/
  | vfmin (core : Nat)
  /-- Vector binary32 maximum (R431). -/
  | vfmax (core : Nat)
  /-- Vector fused multiply-add (R431). -/
  | vfma (core : Nat)
  /-- Converts binary32 lanes to int32 (R430). -/
  | vfcvti (core : Nat)
  /-- Converts int32 lanes to binary32 (R430). -/
  | vicvtf (core : Nat)
  /-- Accumulates the sum of squared lanes in binary64 (R430). -/
  | vfsqd (core : Nat)
  /-- Accumulates the sum of lanes in binary64 (R430). -/
  | vfsumd (core : Nat)
  /-- Broadcasts a register to every lane (R430). -/
  | vbcast (core : Nat)
  /-- Extracts a lane into a register (R430). -/
  | vext (core : Nat)
  /-- Inserts a register into a lane (R430). -/
  | vins (core : Nat)
  /-- Copies a vector (R430). -/
  | vmov (core : Nat)
  /-- Loads a KBF block into code form and a header word (R432). -/
  | kld (core : Nat)
  /-- Stores a KBF block from code form (R432). -/
  | kst (core : Nat)
  /-- Decodes eight block elements to binary32 (R432). -/
  | kdec (core : Nat)
  /-- Clears an accumulator (R432). -/
  | kz (core : Nat)
  /-- Adds 32 codes into an accumulator (R432). -/
  | kadd (core : Nat)
  /-- Converts eight accumulator lanes to binary32 (R432). -/
  | kacc2f (core : Nat)
  /-- Reads an accumulator's scale and flags (R432). -/
  | ksrd (core : Nat)
  /-- Adds 32 code products into an accumulator (R433). -/
  | kmac (core : Nat)
  /-- Encodes an accumulator into a block (R434). -/
  | kenc (core : Nat)
  /-- Encodes 32 binary32 lanes into a block (R434). -/
  | kencf (core : Nat)
  /-- A release and/or acquire fence at cluster, region or package scope (R147). -/
  | fence (core : Nat)
  /-- Waits for scratch stores, then discards the instruction cache (R435). -/
  | icinv (core : Nat)
  /-- Ends the program on the core with the status in g1 (R435). -/
  | halt (core : Nat)
  /-- Waits for an enabled pending event, then returns and clears it (R436). -/
  | wfe (core : Nat)
  /-- Reads the pending event bits (R436). -/
  | evrd (core : Nat)
  /-- Sends an event to a core, or drops it (R436). -/
  | sev (core : Nat)
  /-- Sets or cancels the timed-wait deadline (R436). -/
  | tdl (core : Nat)
  /-- Reads the region's local time counter (R436). -/
  | time (core : Nat)
  /-- Adds to a counter and returns its previous value (R437). -/
  | cadd (core : Nat)
  /-- Sets a counter and returns its previous value (R437). -/
  | cset (core : Nat)
  /-- Reads a counter (R437). -/
  | crd (core : Nat)
  /-- Arms a counter watch (R437). -/
  | cwatch (core : Nat)
  /-- Disarms a counter watch (R437). -/
  | cunwatch (core : Nat)
  /-- Reads the states of the watches (R437). -/
  | cwst (core : Nat)
  /-- Starts an Indigo job from scratch (R438). -/
  | istart (core : Nat)
  /-- Starts a Pastel job from scratch (R438). -/
  | pstart (core : Nat)
  /-- Posts a descriptor to a work ring from a core (R438). -/
  | post (core : Nat)
  /-- A write to an inbound mailbox stores a word or is refused (R448). -/
  | mailboxWrite (pair : MboxId) (wide : Bool) (value : W64)
  /-- A read of an outbound mailbox consumes the word (R448). -/
  | mailboxRead (pair : MboxId) (wide : Bool)
  /-- Firmware posts a held reply once the outbound mailbox is empty (R453). -/
  | replyPost (pair : MboxId)
  /-- Both mailboxes of a pair stay full for over 1 ms; CROSSED is set and logged (R459). -/
  | crossedWait (pair : MboxId)
  /-- A read of a lock register claims a free lock or returns its owner (R450). -/
  | lockClaim (lock : Nat) (agent : Nat)
  /-- A write by the owner releases a lock (R450). -/
  | lockRelease (lock : Nat) (agent : Nat)
  /-- Returns the message versions and firmware release (R454). -/
  | fwHello (pair : MboxId)
  /-- Registers the pair's command window (R454). -/
  | cmdWindow (pair : MboxId)
  /-- A Palette core faults; Umber stops it, records the crash and reloads it (R461). -/
  | paletteCoreFault (core : Nat) (mpu : Bool) (cause : Nat) (xpc : W64) (xaddr : W64)
  /-- A Palette core misses 10 ms of heartbeat and is restarted (R461). -/
  | heartbeatMiss (core : Nat)
  /-- A restarted core resolves its journal, releases its locks and resumes (R461). -/
  | paletteRestartDone (core : Nat)
  /-- Umber resets all eight Palette cores and resolves their journals (R534). -/
  | paletteComplexReset
  /-- Writes an image chunk into the inactive bank and verifies it on LAST (R465). -/
  | fwLoad (pair : MboxId) (blk : CmdBlock) (data : Option (List Byte))
  /-- Starts activating the inactive bank, or defers during an emergency (R466). -/
  | fwActivate (pair : MboxId) (blk : CmdBlock)
  /-- Every core has restarted on the new image; the banks swap and the reply is posted (R466). -/
  | activationDone
  /-- Within 1 s after an emergency clears, firmware starts the deferred activation (R467). -/
  | deferredActivationStart
  /-- Binds or unbinds a host ring to a slow-path queue (R469). -/
  | spBind (pair : MboxId) (blk : CmdBlock)
  /-- Sends one frame from host memory through the firmware queue (R469). -/
  | spSend (pair : MboxId) (blk : CmdBlock) (data : Option (List Byte))
  /-- Binds or unbinds the host log ring (R472). -/
  | logBind (pair : MboxId) (blk : CmdBlock)
  /-- Enables or disables trace points (R473). -/
  | traceSet (pair : MboxId) (blk : CmdBlock)
  /-- One interrupt is sent for each 100 µs in which log records were copied (R472). -/
  | logCopyInterrupt
  /-- Returns the lifecycle state and SVN_MIN (R483). -/
  | lcQuery (pair : MboxId)
  /-- Returns a fresh lifecycle nonce (R483). -/
  | lcNonce (pair : MboxId) (blk : CmdBlock)
  /-- Verifies a signed token and moves to a new lifecycle state (R483). -/
  | lcTransit (pair : MboxId) (blk : CmdBlock) (token : Option (List Byte))
  /-- Raises SVN_MIN to the running image's SVN (R487). -/
  | svnCommit (pair : MboxId)
  /-- Writes signed attestation evidence (R500). -/
  | attQuote (pair : MboxId) (blk : CmdBlock)
  /-- Writes the device and CA certificates (R499). -/
  | attCerts (pair : MboxId) (blk : CmdBlock)
  /-- Encrypts 16-byte blocks under a key slot (R491). -/
  | aesEnc (job : Nat)
  /-- Decrypts 16-byte blocks under a key slot (R491). -/
  | aesDec (job : Nat)
  /-- Applies the SHA-256 compression to message blocks (R493). -/
  | sha256 (job : Nat)
  /-- Writes full-entropy output (R494). -/
  | entropy (job : Nat)
  /-- A cipher, hash or entropy job completes (R491). -/
  | cipherJobDone (job : Nat)
  /-- The entropy source retests itself every 1 s and updates ENT_OK (R494). -/
  | entropyHealthRetest (pass : Bool)
  /-- A broken lid break-wire starts the full tamper response (R498). -/
  | lidBreak
  /-- An open or shorted mesh starts the full tamper response (R498). -/
  | meshFault
  /-- A supply outside its window starts the volatile tamper response (R498). -/
  | supplyGlitch
  /-- A junction beyond the tamper limits starts the volatile response (R498). -/
  | tamperTemp
  /-- A core-debug request is refused and counted in a secured state (R498). -/
  | jtagDebugRequest
  /-- The hourly comparison of trouble counters with thresholds (R506). -/
  | troubleCheck
  /-- A lockstep mismatch restarts Umber from ROM, or a recurrence starts a warm reset (R508). -/
  | umberMismatch
  /-- Every 10 s Verdigris steps the offset, derates or retires a region (R509). -/
  | marginCheck (region : Nat) (rate : W32) (tj : W32) (age : W32)
  /-- Pages have moved; connections of the slice enter ERROR and the region reads retired (R512). -/
  | regionRetireDone (region : Nat)
  /-- The daily or temperature-triggered retention measurement of a DRAM die (R510). -/
  | retentionMeasure (stack : Nat) (die : Nat) (ms : Nat) (tj : W32)
  /-- The daily in-service Swatch tests of lanes, cartridges and sensors (R513). -/
  | swatchPeriodic (failed : List Nat)
  /-- A cluster idle and firmware-owned for 10 s is tested (R513). -/
  | idleClusterTest (cluster : Nat)
  /-- A Swatch test finishes; a failing unit is retired (R513). -/
  | swatchTestDone (pass : Bool) (named : Option Nat) (sig : W64)
  /-- Queues a Swatch test (R521). -/
  | swatRun (pair : MboxId) (blk : CmdBlock)
  /-- Setting GO in SWAT_CTRL starts a test in an unlocked state (R523). -/
  | swatCtrlGo (value : W32)
  /-- Requests a planned retirement of a unit (R521). -/
  | unitRetire (pair : MboxId) (blk : CmdBlock)
  /-- Clears the trouble counters of one unit or of all units (R521). -/
  | troubleClear (pair : MboxId) (blk : CmdBlock)
  /-- Replaces the trouble thresholds (R521). -/
  | relPolicy (pair : MboxId) (blk : CmdBlock)
  /-- Writes the valid retirement map to host memory (R521). -/
  | rmapRead (pair : MboxId) (blk : CmdBlock)
  /-- Requests an emergency shutdown (R521). -/
  | relShutdown (pair : MboxId) (blk : CmdBlock)
  /-- Umber writes the retirement journal into both map copies within 1 s (R514). -/
  | rmapJournalWrite (okA : Bool) (okB : Bool)
  /-- Umber retries writing a failed map every 10 s (R522). -/
  | rmapRetry (okA : Bool) (okB : Bool)
  /-- Configures or stops an IPFIX collector (R515). -/
  | sienExport (pair : MboxId) (blk : CmdBlock)
  /-- Sets frame sampling on a port (R518). -/
  | sienSample (pair : MboxId) (blk : CmdBlock)
  /-- An export interval ends, and a round of records goes to the collector (R516). -/
  | exportInterval (slot : Nat)
  /-- Templates are resent every TREFRESH seconds (R516). -/
  | templateRefresh (slot : Nat)
  /-- Accumulated sampled-frame records are sent at least every 10 ms (R516). -/
  | sampledRecordFlush
  /-- Standby and main conditions hold, and the power-on sequence runs to PWRGD (R525). -/
  | fundamentalReset (vinCycled : Bool) (failed : List Nat) (late : List Nat) (bad : List Nat) (ms : Nat)
  /-- A region not in service 100 ms after its round starts is retired (R526). -/
  | regionStartTimeout (region : Nat) (bad : List Nat) (ms : Nat)
  /-- Umber finishes rebuilding the retirement map in recovery and starts a warm reset (R533). -/
  | mapRebuildDone (failed : List Nat)
  /-- A management-bus read returns 4 or 8 bytes of the UMB mirror (R507). -/
  | mgmtBusRead (offset : W32) (wide : Bool)
  /-- Writes the node ID, applied at once when allowed or else at the next reset (R528). -/
  | mgmtNodeWrite (pecOk : Bool) (data : W32)
  /-- Writes the declared system size (R528). -/
  | mgmtSizeWrite (pecOk : Bool) (data : W32)
  /-- Firmware applies a written system size, or refuses it for lack of pages (R528). -/
  | systemSizeApply
  /-- A WARM write with the right value requests a warm reset (R546). -/
  | mgmtWarmWrite (pecOk : Bool) (data : W32)
  /-- A START write allows a fundamental reset after an emergency shutdown (R550). -/
  | mgmtStartWrite (pecOk : Bool) (data : W32)
  /-- VIN48 below 38 V for 20 µs starts the vault save and rails-off (R544). -/
  | mainInputLost
  /-- Losing 12 V for 1 ms with the rails on starts an emergency shutdown (R543). -/
  | standbyLost
  /-- A junction at or above 105 °C starts a thermal emergency and throttling (R549). -/
  | junctionOvertemp
  /-- A junction held at 110 °C for 1 s, or 115 °C for 1 ms, starts an emergency shutdown (R549). -/
  | junctionShutdownTemp
  /-- Flow below 3.6 L/min for 2 s starts a thermal emergency (R549). -/
  | flowLow
  /-- Flow below 2.4 L/min for 5 s starts an emergency shutdown (R549). -/
  | flowCritical
  /-- An inlet above 40 °C for 2 s starts a thermal emergency (R549). -/
  | inletHigh
  /-- An inlet above 45 °C for 10 s starts an emergency shutdown (R549). -/
  | inletCritical
  /-- VIN48 outside 40 to 60 V for 100 µs starts a power emergency (R549). -/
  | vinOutOfRange
  /-- VIN48 above 63 V for 10 µs starts an emergency shutdown (R549). -/
  | vinOvervolt
  /-- Input power above 2,400 W over 10 ms starts a power emergency and throttling (R549). -/
  | powerCap
  /-- Every condition has stayed within limits for 10 s, and the emergency ends (R550). -/
  | emergencyClear
  /-- A write to OCH_RS_SEED loads the stochastic generator state between two draws (R55). -/
  | seedWrite (cluster : Nat) (half : Option Bool) (value : W64)
  /-- A factory JTAG sequence moves the lifecycle from BLANK to TEST, or from TEST to PROVISIONED with identity key, seed and certificate (R481). -/
  | factoryJtagSequence (cert : List Byte)
  /-- PERST# is released after PWRGD, and the host port trains its link and its physical functions become present (R527). -/
  | hostPortLeavesReset (port : Nat) (width : Nat) (gen : Nat) (flit : Bool)
  /-- The entropy source fails its continuous health tests, ENT_OK reads 0 and entropy users complete with unit-fault (R494). -/
  | continuousHealthTestFailure
  /-- The spare emitter is lit and stabilised, the switch hands the half-port over and the old emitter is retired (R330). -/
  | plannedMoveHandover (engine : Nat)
  /-- Umber finishes its 2 ms restart from ROM, and operations started during the restart are performed with bounds running from then (R508). -/
  | umberRestartEnd
  /-- Shaper or admission credit accrues back to zero on an idle port, and a waiting queue becomes eligible and starts its head frame (R362). -/
  | queueBecomesEligible (port : Nat)
  /-- A TCP segment with no NVMe/TCP PDU, such as a handshake, acknowledgement or reset, arrives for a Saffron session (R420). -/
  | tcpSegmentArrival (session : Nat)
  /-- A Saffron TCP session's retransmission timer runs out, and it retransmits or declares the session failed (R420). -/
  | tcpRetransmissionTimeout (session : Nat) (giveUp : Bool)
  /-- A handshake stage holds a request without acknowledge for 10 µs, or credit is not returned for 100 µs, and the unit's TO counter is incremented (R505). -/
  | handshakeStallTimeout (unit : Nat)
  /-- Under FWMODE 1, firmware sets a connection's cwnd and pacing rate from the congestion event records (R281). -/
  | firmwareCwndUpdate (conn : Nat) (cwnd : Nat) (rate : Nat)
  /-- With TSHOST 0, firmware's 802.1AS time-aware system steps or re-rates a port's timestamp counter (R326). -/
  | timeAwareSystemSteering (port : Nat) (step : W64) (rate : Option W32)
deriving DecidableEq, Repr

end Sys2Proof
end

