-- ==== Sys2Proof/Decode.lean ====
section
/-! DEFINITION. The words of the opcode table. No row of spec/opcode_table.json gives bits: the commands come from outside the block as
events with operands, so no word spells one. (The instruction words of the Ochre cores of R427 are contents of memory; the row of an
instruction is the event that a core executes one, and Machine/Isa.lean reads its word from the core's memory.) -/

namespace Sys2Proof

/-- The command that a word of a row's bits spells: no row has bits, so none. -/
def decodeTableWord (_nbits _w : Nat) : Option Instr := none

end Sys2Proof
end

