-- ==== Sys2Proof/Machine/Crypto.lean ====
section
/-! DEFINITION. The fixed arithmetic the blocks compute with: GF(2^8) (R174), CRC-32C (R267), the 64-bit CRC of the flit
(R298), AES and AES key wrap (R488, R491), XTS-AES-256 (R496), SHA-256 (R493) and HMAC-SHA-256 (R496). -/

namespace Sys2Proof.Machine

open Sys2Proof

/-- Multiplies by x in GF(2^8) with a reduction polynomial. -/
def gfStep (poly x : Nat) : Nat := let y := 2 * x; if y.testBit 8 then Nat.xor y poly else y

/-- Product in GF(2^8), over the low `n` bits of `y`. -/
def gfMulGo (poly : Nat) : Nat → Nat → Nat → Nat
  | 0, _, _ => 0
  | n + 1, x, y => Nat.xor (if y % 2 = 1 then x else 0) (gfMulGo poly n (gfStep poly x) (y / 2))

/-- Product in the parity field, polynomial 0x11D (R174). -/
def gfMul (x y : Nat) : Nat := gfMulGo 0x11D 8 (x % 256) (y % 256)

/-- `x^n` in a field. -/
def gfPowGo (poly x : Nat) : Nat → Nat
  | 0 => 1
  | n + 1 => gfMulGo poly 8 x (gfPowGo poly x n)

/-- The generator's power `α^n`, α = 2 (R174). -/
def gfAlpha (n : Nat) : Nat := gfPowGo 0x11D 2 n

/-- Inverse in the parity field, `x^254`; 0 for 0. -/
def gfInv (x : Nat) : Nat := gfPowGo 0x11D (x % 256) 254

/-- Eight reflected CRC steps on one byte already mixed in. -/
def crcStepRefl (poly : Nat) : Nat → Nat → Nat
  | 0, c => c
  | n + 1, c => crcStepRefl poly n (if c % 2 = 1 then Nat.xor (c / 2) poly else c / 2)

def crc32cGo : List Byte → Nat → Nat
  | [], c => c
  | b :: bs, c => crc32cGo bs (crcStepRefl 0x82F63B78 8 (Nat.xor c b.toNat))

/-- CRC-32C: Castagnoli polynomial, reflected, initial value and final XOR all ones (R267). -/
def crc32c (bs : List Byte) : Nat := Nat.xor (crc32cGo bs 0xFFFFFFFF) 0xFFFFFFFF

/-- Eight non-reflected steps of a 64-bit CRC. -/
def crcStep64 (poly : Nat) : Nat → Nat → Nat
  | 0, c => c
  | n + 1, c => crcStep64 poly n (if c.testBit 63 then Nat.xor (2 * c % 2 ^ 64) poly else 2 * c)

def crc64Go : List Byte → Nat → Nat
  | [], c => c
  | b :: bs, c => crc64Go bs (crcStep64 0x42F0E1EBA9EA3693 8 (Nat.xor c (b.toNat * 2 ^ 56)))

/-- The flit CRC: ECMA-182, non-reflected, initial value and final XOR all ones (R298). -/
def crc64 (bs : List Byte) : Nat := Nat.xor (crc64Go bs (2 ^ 64 - 1)) (2 ^ 64 - 1)

/-- Rotates an 8-bit number left. -/
def rotl8 (x n : Nat) : Nat := (x * 2 ^ n + x / 2 ^ (8 - n)) % 256

/-- The AES S-box: the inverse in polynomial 0x11B, then the affine map (FIPS 197). -/
def aesSbox (x : Nat) : Nat :=
  let i := gfPowGo 0x11B (x % 256) 254
  Nat.xor i (Nat.xor (rotl8 i 1) (Nat.xor (rotl8 i 2) (Nat.xor (rotl8 i 3) (Nat.xor (rotl8 i 4) 0x63))))

/-- The inverse S-box. -/
def aesInvSbox (y : Nat) : Nat :=
  let i := Nat.xor (rotl8 y 1) (Nat.xor (rotl8 y 3) (Nat.xor (rotl8 y 6) 0x05))
  gfPowGo 0x11B i 254

/-- Key expansion of FIPS 197, one 4-byte word a step; words are held newest first. `nk` is the key length in words. -/
def aesExpandGo (nk : Nat) : Nat → Nat → Nat → List (List Nat) → List (List Nat)
  | 0, _, _, ws => ws
  | n + 1, i, rcon, ws =>
    let t := ws.headD []
    let (t', rcon') :=
      if i % nk = 0 then
        let r := (t.drop 1 ++ t.take 1).map aesSbox
        (r.mapIdx (fun j x => if j = 0 then Nat.xor x rcon else x), gfStep 0x11B rcon)
      else if nk > 6 && i % nk = 4 then (t.map aesSbox, rcon)
      else (t, rcon)
    aesExpandGo nk n (i + 1) rcon' (List.zipWith Nat.xor ((ws.drop (nk - 1)).headD []) t' :: ws)

/-- Splits a list into pieces of `k`, at most `n` of them. -/
def chunks {α : Type} (k : Nat) : Nat → List α → List (List α)
  | 0, _ => []
  | n + 1, xs => if xs.isEmpty then [] else xs.take k :: chunks k n (xs.drop k)

/-- The round keys of a 16-, 24- or 32-byte key, first round first. -/
def aesKeys (key : List Byte) : List (List Nat) :=
  let nk := key.length / 4
  let ws := chunks 4 nk (key.map (·.toNat))
  let all := aesExpandGo nk (4 * (nk + 7) - nk) nk 1 ws.reverse
  (chunks 4 (nk + 7) all.reverse).map (·.flatten)

/-- Byte `4c + r` of the state after rotating row `r` by `d r` columns. -/
def aesShift (d : Nat → Nat) (s : List Nat) : List Nat :=
  (List.range 16).map (fun i => s.getD (4 * ((i / 4 + d (i % 4)) % 4) + i % 4) 0)

/-- Multiplies each column by a circulant row of coefficients. -/
def aesMix (c : List Nat) (s : List Nat) : List Nat :=
  (List.range 16).map (fun i =>
    (List.range 4).foldl (fun a j =>
      Nat.xor a (gfMulGo 0x11B 8 (s.getD (4 * (i / 4) + j) 0) (c.getD ((j + 4 - i % 4) % 4) 0))) 0)

def aesRounds : List (List Nat) → List Nat → List Nat
  | [], s => s
  | [k], s => List.zipWith Nat.xor (aesShift (fun r => r) (s.map aesSbox)) k
  | k :: ks, s => aesRounds ks (List.zipWith Nat.xor (aesMix [2, 3, 1, 1] (aesShift (fun r => r) (s.map aesSbox))) k)

/-- AES-Cipher of one 16-byte block (FIPS 197, R491). -/
def aesEnc (key block : List Byte) : List Byte :=
  match aesKeys key with
  | [] => block
  | k :: ks => (aesRounds ks (List.zipWith Nat.xor (block.map (·.toNat)) k)).map (BitVec.ofNat 8)

def aesInvRounds : List (List Nat) → List Nat → List Nat
  | [], s => s
  | [k], s => List.zipWith Nat.xor ((aesShift (fun r => 4 - r) s).map aesInvSbox) k
  | k :: ks, s =>
    aesInvRounds ks (aesMix [14, 11, 13, 9] (List.zipWith Nat.xor ((aesShift (fun r => 4 - r) s).map aesInvSbox) k))

/-- AES-InvCipher of one 16-byte block (FIPS 197, R491). -/
def aesDec (key block : List Byte) : List Byte :=
  match (aesKeys key).reverse with
  | [] => block
  | k :: ks => (aesInvRounds ks (List.zipWith Nat.xor (block.map (·.toNat)) k)).map (BitVec.ofNat 8)

/-- One unwrap step of NIST SP 800-38F: A, and the register R[i]. -/
def kwStep (kek : List Byte) (t i : Nat) (a : List Byte) (rs : List (List Byte)) : List Byte × List (List Byte) :=
  let x := List.zipWith (· ^^^ ·) a (beBytes 8 t)
  let b := aesDec kek (x ++ rs.getD i [])
  (b.take 8, rs.set i (b.drop 8))

def kwGo (kek : List Byte) (n : Nat) : Nat → List Byte → List (List Byte) → List Byte × List (List Byte)
  | 0, a, rs => (a, rs)
  | t + 1, a, rs => let r := kwStep kek (t + 1) (t % n) a rs; kwGo kek n t r.1 r.2

/-- AES-KW unwrap: the key, or none when the integrity check fails (R488). -/
def aesUnwrap (kek wrapped : List Byte) : Option (List Byte) :=
  let n := wrapped.length / 8 - 1
  let r := kwGo kek n (6 * n) (wrapped.take 8) (chunks 8 n (wrapped.drop 8))
  if r.1 = List.replicate 8 0xA6#8 then some r.2.flatten else none

/-- The round constants of FIPS 180-4. -/
def shaK : List W32 :=
  [0x428a2f98#32, 0x71374491#32, 0xb5c0fbcf#32, 0xe9b5dba5#32, 0x3956c25b#32, 0x59f111f1#32, 0x923f82a4#32, 0xab1c5ed5#32,
   0xd807aa98#32, 0x12835b01#32, 0x243185be#32, 0x550c7dc3#32, 0x72be5d74#32, 0x80deb1fe#32, 0x9bdc06a7#32, 0xc19bf174#32] ++
  [0xe49b69c1#32, 0xefbe4786#32, 0x0fc19dc6#32, 0x240ca1cc#32, 0x2de92c6f#32, 0x4a7484aa#32, 0x5cb0a9dc#32, 0x76f988da#32,
   0x983e5152#32, 0xa831c66d#32, 0xb00327c8#32, 0xbf597fc7#32, 0xc6e00bf3#32, 0xd5a79147#32, 0x06ca6351#32, 0x14292967#32] ++
  [0x27b70a85#32, 0x2e1b2138#32, 0x4d2c6dfc#32, 0x53380d13#32, 0x650a7354#32, 0x766a0abb#32, 0x81c2c92e#32, 0x92722c85#32,
   0xa2bfe8a1#32, 0xa81a664b#32, 0xc24b8b70#32, 0xc76c51a3#32, 0xd192e819#32, 0xd6990624#32, 0xf40e3585#32, 0x106aa070#32] ++
  [0x19a4c116#32, 0x1e376c08#32, 0x2748774c#32, 0x34b0bcb5#32, 0x391c0cb3#32, 0x4ed8aa4a#32, 0x5b9cca4f#32, 0x682e6ff3#32,
   0x748f82ee#32, 0x78a5636f#32, 0x84c87814#32, 0x8cc70208#32, 0x90befffa#32, 0xa4506ceb#32, 0xbef9a3f7#32, 0xc67178f2#32]

/-- The initial hash value of FIPS 180-4. -/
def shaInit : List W32 :=
  [0x6a09e667#32, 0xbb67ae85#32, 0x3c6ef372#32, 0xa54ff53a#32, 0x510e527f#32, 0x9b05688c#32, 0x1f83d9ab#32, 0x5be0cd19#32]

/-- The message schedule, newest word first. -/
def shaSchedule : Nat → List W32 → List W32
  | 0, ws => ws
  | n + 1, ws =>
    let w (i : Nat) : W32 := ws.getD (i - 1) 0#32
    let s0 := (w 15).rotateRight 7 ^^^ (w 15).rotateRight 18 ^^^ ((w 15) >>> 3)
    let s1 := (w 2).rotateRight 17 ^^^ (w 2).rotateRight 19 ^^^ ((w 2) >>> 10)
    shaSchedule n ((w 16 + s0 + w 7 + s1) :: ws)

/-- The working variables a to h. -/
structure ShaV where
  a : W32
  b : W32
  c : W32
  d : W32
  e : W32
  f : W32
  g : W32
  h : W32
deriving DecidableEq, Repr

def shaRound (v : ShaV) (kw : W32) : ShaV :=
  let s1 := v.e.rotateRight 6 ^^^ v.e.rotateRight 11 ^^^ v.e.rotateRight 25
  let ch := (v.e &&& v.f) ^^^ (~~~v.e &&& v.g)
  let t1 := v.h + s1 + ch + kw
  let s0 := v.a.rotateRight 2 ^^^ v.a.rotateRight 13 ^^^ v.a.rotateRight 22
  let mj := (v.a &&& v.b) ^^^ (v.a &&& v.c) ^^^ (v.b &&& v.c)
  ⟨t1 + (s0 + mj), v.a, v.b, v.c, v.d + t1, v.e, v.f, v.g⟩

/-- The SHA-256 compression function on one 64-byte block (R493). -/
def shaCompress (st : List W32) (block : List Byte) : List W32 :=
  let ws := (chunks 4 16 block).map (fun b => BitVec.ofNat 32 (beNat b))
  let sched := (shaSchedule 48 ws.reverse).reverse
  let g (i : Nat) : W32 := st.getD i 0#32
  let v := (List.zipWith (· + ·) shaK sched).foldl shaRound ⟨g 0, g 1, g 2, g 3, g 4, g 5, g 6, g 7⟩
  List.zipWith (· + ·) st [v.a, v.b, v.c, v.d, v.e, v.f, v.g, v.h]

/-- A chaining state as bytes, each word most significant byte first (R493). -/
def shaBytes (st : List W32) : List Byte := (st.map (fun w => beBytes 4 w.toNat)).flatten
def shaOfBytes (bs : List Byte) : List W32 := (chunks 4 8 bs).map (fun b => BitVec.ofNat 32 (beNat b))

/-- SHA-256 of a byte string (FIPS 180-4). -/
def sha256 (msg : List Byte) : List Byte :=
  let z := (119 - msg.length % 64) % 64
  let m := msg ++ [0x80#8] ++ List.replicate z 0#8 ++ beBytes 8 (8 * msg.length)
  shaBytes ((chunks 64 (m.length / 64) m).foldl shaCompress shaInit)

/-- HMAC-SHA-256 of a key of at most 64 bytes (FIPS 198-1). -/
def hmac (key msg : List Byte) : List Byte :=
  let k := key ++ List.replicate (64 - key.length) 0#8
  sha256 (k.map (· ^^^ 0x5C#8) ++ sha256 (k.map (· ^^^ 0x36#8) ++ msg))

/-- Multiplies an XTS tweak by the primitive element (IEEE 1619), as a little-endian 128-bit number. -/
def xtsDouble (t : Nat) : Nat :=
  let y := 2 * t
  if y.testBit 128 then Nat.xor (y % 2 ^ 128) 0x87 else y

def xtsGo (f : List Byte → List Byte) : List (List Byte) → Nat → List Byte
  | [], _ => []
  | b :: bs, t =>
    let tb := leBytes 16 t
    List.zipWith (· ^^^ ·) (f (List.zipWith (· ^^^ ·) b tb)) tb ++ xtsGo f bs (xtsDouble t)

/-- XTS-AES-256 of one data unit whose length is a multiple of 16, key K1 ‖ K2, tweak the unit number (R496). -/
def xtsEnc (k1 k2 : List Byte) (unit : Nat) (data : List Byte) : List Byte :=
  xtsGo (aesEnc k1) (chunks 16 (data.length / 16) data) (leNat (aesEnc k2 (leBytes 16 unit)))
def xtsDec (k1 k2 : List Byte) (unit : Nat) (data : List Byte) : List Byte :=
  xtsGo (aesDec k1) (chunks 16 (data.length / 16) data) (leNat (aesEnc k2 (leBytes 16 unit)))

end Sys2Proof.Machine
end

