-- ==== Sys2Proof/Machine/Desc.lean ====
section
/-! DEFINITION. Descriptors: header fields (R119), opcodes (R120), and the checks of each opcode's body that its bits alone
decide. -/

namespace Sys2Proof.Machine

open Sys2Proof

def dOpcode (d : Desc) : Nat := bn d 7 0
def dCmpl (d : Desc) : Bool := bt d 8
def dFence (d : Desc) : Bool := bt d 9
def dWait (d : Desc) : Bool := bt d 10
def dTrig (d : Desc) : Bool := bt d 11
def dInc (d : Desc) : Bool := bt d 12
def dUrgent (d : Desc) : Bool := bt d 13
def dTag (d : Desc) : Nat := bn d 31 16
def dWaitCtr (d : Desc) : Nat := bn d 47 32
def dIncCtr (d : Desc) : Nat := bn d 63 48
def dTarget (d : Desc) : W64 := BitVec.ofNat 64 (bn d 127 64)
def dCond (d : Desc) : W64 := BitVec.ofNat 64 (bn d 191 128)
def dTrigTag (d : Desc) : Nat := bn d 147 128
def dTrigCount (d : Desc) : Nat := bn d 175 160

/-- The opcodes that are assigned and not reserved (R120, R232, R268, R490). -/
def opcodeKnown (op : Nat) : Bool :=
  [0x00, 0x01, 0x02, 0x08, 0x10, 0x11, 0x12, 0x13, 0x14, 0x15, 0x16, 0x17, 0x30, 0x31, 0x32, 0x40, 0x41, 0x42,
   0x50, 0x51, 0x52, 0x60, 0x61, 0x70, 0x71, 0x74, 0x76].contains op

/-- The class TARGET names, by opcode; empty where TARGET is zero. -/
def targetClasses (op : Nat) : List Nat :=
  if 0x10 ≤ op ∧ op ≤ 0x17 then [3]
  else if 0x30 ≤ op ∧ op ≤ 0x32 then [5]
  else if 0x40 ≤ op ∧ op ≤ 0x42 then [6]
  else if op = 0x50 ∨ op = 0x51 then [7]
  else if op = 0x70 ∨ op = 0x71 then [9]
  else []

/-- The header rules of R119: reserved bits, the combination of WAIT and TRIG, fields that must be zero, TARGET among them where the
opcode acts on no channel. -/
def headerOk (d : Desc) : Bool :=
  zeroBits d 15 14 && !(dWait d && dTrig d) &&
    (dWait d || zeroBits d 47 32) && (dInc d || zeroBits d 63 48) &&
    (if dTrig d then zeroBits d 159 148 && zeroBits d 191 176 else dWait d || zeroBits d 191 128) &&
    (!(targetClasses (dOpcode d)).isEmpty || dTarget d == 0#64)

/-- Counters named in a body (R120, R128). -/
def bodyCtrs (d : Desc) : List Nat :=
  if dOpcode d = 0x01 ∨ dOpcode d = 0x02 then [bn d 207 192] else []

/-- Codec formats (R134). -/
def isKbf (c : Nat) : Bool := decide (1 ≤ c) && decide (c ≤ 5)
def codecFmtOk (c : Nat) : Bool := isKbf c || decide (8 ≤ c)

/-- The static rules of the CODEC body (R133, R134). -/
def codecBodyOk (d : Desc) : Bool :=
  let sf := bn d 355 352
  let df := bn d 359 356
  let layout := bn d 361 360
  let rmode := bn d 363 362
  let ef := bt d 364
  let cl := bn d 371 365
  zeroBits d 383 372 && zeroBits d 511 448 && codecFmtOk sf && codecFmtOk df && (isKbf sf || isKbf df) &&
    decide (layout ≠ 3) && (isKbf df || layout == 0) && (isKbf df || df == 0xF || rmode == 0) &&
    (!ef || (sf == 8 && isKbf df)) && (ef || zeroBits d 447 384) && (decide (cl < 64) || cl == 0x7F)

/-- Fields of a matrix body (R162). -/
def mA (d : Desc) : Nat := bn d 255 192
def mB (d : Desc) : Nat := bn d 319 256
def mC (d : Desc) : Nat := bn d 383 320
def mM (d : Desc) : Nat := bn d 400 384
def mN (d : Desc) : Nat := bn d 417 401
def mK (d : Desc) : Nat := bn d 437 418
def mAfmt (d : Desc) : Nat := bn d 441 438
def mBfmt (d : Desc) : Nat := bn d 445 442
def mOfmt (d : Desc) : Nat := bn d 449 446
def mRmode (d : Desc) : Nat := bn d 451 450
def mAcc (d : Desc) : Bool := bt d 452
def mS24 (d : Desc) : Bool := bt d 453
def mCluster (d : Desc) : Nat := bn d 460 454
def mLda (d : Desc) : Nat := bn d 479 464
def mLdb (d : Desc) : Nat := bn d 495 480
def mLdc (d : Desc) : Nat := bn d 511 496

/-- Bytes of one block of A, B and C as the strides count them (R162, R163). -/
def mSize (gf : Bool) (fmt : Nat) : Nat := if gf then 32 else if fmt = 8 then 128 else denseSize ((kbfWidth fmt).getD 8)

/-- The static rules of a matrix body (R162, R163, R165, R174). -/
def matrixBodyOk (d : Desc) : Bool :=
  let gf := dOpcode d == 0x61
  let cl := mCluster d
  decide (mM d ≤ 65536) && decide (mN d ≤ 65536) && zeroBits d 463 461 && (decide (cl < 64) || cl == 0x7F) &&
    (if gf then mAfmt d == 0 && mBfmt d == 0 && mOfmt d == 0 && mRmode d == 0 && !mS24 d
     else isKbf (mAfmt d) && isKbf (mBfmt d) && (isKbf (mOfmt d) || (mOfmt d == 8 && mRmode d == 0)) &&
       zeroBits d 192 192 && zeroBits d 256 256 && (if mOfmt d = 8 then mC d % 4 == 0 else mC d % 2 == 0)) &&
    (decide (mM d < 2) || (decide (cdiv (mK d) 32 ≤ mLda d) && decide (cdiv (mN d) 32 ≤ mLdc d))) &&
    (decide (mN d < 2) || decide (cdiv (mK d) 32 ≤ mLdb d))

/-- The static rules of the transport bodies (R90, R265, R269). -/
def transportBodyOk (d : Desc) : Bool :=
  let op := dOpcode d
  if op = 0x15 then zeroBits d 383 352 && zeroBits d 447 384 && zeroBits d 258 256
  else if op = 0x16 then zeroBits d 383 352 && zeroBits d 258 256
  else
    zeroBits d 447 432 && zeroBits d 511 449 &&
      (op == 0x11 || op == 0x12 || zeroBits d 399 384) && (op == 0x12 || zeroBits d 431 400) &&
      ((op != 0x14 && op != 0x17) || zeroBits d 319 256)

/-- Fields of the cipher, hash and entropy bodies (R491, R493, R494). -/
def xSrc (d : Desc) : Nat := bn d 255 192
def xDst (d : Desc) : Nat := bn d 319 256
def xBlocks (d : Desc) : Nat := bn d 351 320
def xSHost (d : Desc) : Bool := bt d 352
def xDHost (d : Desc) : Bool := bt d 353

/-- The static rules of the Mordant bodies (R491, R493, R494). -/
def mordantBodyOk (d : Desc) : Bool :=
  let op := dOpcode d
  let n := 16 * xBlocks d
  if op = 0x76 then zeroBits d 255 192 && zeroBits d 352 352 && zeroBits d 511 354 && decide (xBlocks d ≤ 65536)
  else if op = 0x74 then zeroBits d 511 354 && xDst d % 8 == 0 && decide (xBlocks d ≤ 4194304)
  else
    zeroBits d 511 354 && xSrc d % 16 == 0 && xDst d % 16 == 0 && decide (xBlocks d ≤ 16777216) &&
      (xSHost d != xDHost d || xSrc d == xDst d || decide (xSrc d + n ≤ xDst d) || decide (xDst d + n ≤ xSrc d))

/-- Tile formats: KBF, binary32, bfloat16 (R185). -/
def tileFmtOk (f : Nat) : Bool := isKbf f || f == 8 || f == 9

/-- The static rules of the DISPATCH, COMBINE and RETURN bodies (R194, R198, R199). -/
def woadBodyOk (d : Desc) : Bool :=
  let op := dOpcode d
  if op = 0x30 then zeroBits d 447 400
  else if op = 0x31 then zeroBits d 511 288
  else zeroBits d 299 298 && zeroBits d 319 304 && zeroBits d 511 352 && tileFmtOk (bn d 303 300)

/-- The static rules of a collective's body (R213). -/
def blendBodyOk (d : Desc) : Bool := zeroBits d 511 360 && tileFmtOk (bn d 355 352) && tileFmtOk (bn d 359 356)

/-- The body of OPT_STEP or WPUSH: GRAD, STATE, SREC, N, STEP, GFMT. -/
structure OBody where
  grad : Nat
  state : Nat
  srec : Nat
  n : Nat
  step : Nat
  gfmt : Nat
deriving DecidableEq, Repr

def optBody (d : Desc) : OBody :=
  if dOpcode d = 0x50 then ⟨bn d 255 192, bn d 319 256, bn d 383 320, bn d 415 384, bn d 447 416, bn d 451 448⟩
  else ⟨0, bn d 255 192, bn d 319 256, bn d 351 320, bn d 383 352, 8⟩

/-- Reserved bits, the alignment of STATE, GFMT and STEP (R232, R235). -/
def optBodyOk (d : Desc) : Bool :=
  let b := optBody d
  (if dOpcode d = 0x50 then zeroBits d 511 452 else zeroBits d 511 384) && b.state % 64 == 0 && b.step != 0 &&
    (isKbf b.gfmt || b.gfmt == 8 || b.gfmt == 9)

/-- The reserved bits of a PAR_EPOCH body (R242). -/
def epochBodyOk (d : Desc) : Bool := zeroBits d 255 208 && zeroBits d 511 320

/-- Check 5 of R120, the part the bits alone decide: none when the body passes. -/
def bodyStatic (d : Desc) : Option Status :=
  let op := dOpcode d
  let ok :=
    if op = 0x00 then zeroBits d 511 192
    else if op = 0x01 ∨ op = 0x02 then zeroBits d 255 208 && zeroBits d 511 320
    else if op = 0x08 then codecBodyOk d
    else if op = 0x60 ∨ op = 0x61 then matrixBodyOk d
    else if 0x10 ≤ op ∧ op ≤ 0x17 then transportBodyOk d
    else if 0x30 ≤ op ∧ op ≤ 0x32 then woadBodyOk d
    else if 0x40 ≤ op ∧ op ≤ 0x42 then blendBodyOk d
    else if op = 0x50 ∨ op = 0x51 then optBodyOk d
    else if op = 0x52 then epochBodyOk d
    else if 0x70 ≤ op then mordantBodyOk d
    else true
  if ok then none else some .invalidField

end Sys2Proof.Machine
end

