-- ==== Sys2Proof/Machine/Regs.lean ====
section
/-! DEFINITION. The register map: offsets in BAR0 of physical function 0 (R385), with the access code, width and reset value
of each (R7, R9). -/

namespace Sys2Proof.Machine

def UMB_UNIT_STATE (i : Nat) : Nat := 0x1040000 + 0x4 * i
def SIEN_RGN_TIME (i : Nat) : Nat := 0xd08000 + 0x40 * i
def SIEN_RGN_RATE (i : Nat) : Nat := 0xd08008 + 0x40 * i
def SIEN_RGN_TJ (i : Nat) : Nat := 0xd0800c + 0x40 * i
def SIEN_RGN_VSET (i : Nat) : Nat := 0xd08010 + 0x40 * i
def SIEN_RGN_STATE (i : Nat) : Nat := 0xd08014 + 0x40 * i
def OCH_RS_SEED (i : Nat) : Nat := 0x900f00 + 0x1000 * i
def LAKE_CAP : Nat := 0x200000
def LAKE_SCRUB_CFG : Nat := 0x200008
def LAKE_CE : Nat := 0x200010
def LAKE_RECON : Nat := 0x200018
def LAKE_POISON : Nat := 0x200020
def LAKE_DENY : Nat := 0x200028
def LAKE_KEYFAIL : Nat := 0x200030
def LAKE_MIG : Nat := 0x200038
def LAKE_EVENT : Nat := 0x20003c
def LAKE_MIG_LEFT : Nat := 0x200040
def LAKE_STK_STATE (i : Nat) : Nat := 0x201000 + 0x20 * i
def LAKE_STK_TREF (i : Nat) : Nat := 0x201008 + 0x20 * i
def LAKE_STK_TJ (i : Nat) : Nat := 0x201010 + 0x20 * i
def LAKE_RD (i : Nat) : Nat := 0x210000 + 0x20 * i
def VAT_DB_DROP : Nat := 0x100000
def VAT_CMPL_LOST : Nat := 0x100008
def VAT_TRIG_DROP : Nat := 0x100010
def VAT_HALTED : Nat := 0x100018
def VAT_CTR (i : Nat) : Nat := 0x180000 + 0x8 * i
def OCH_CL_STATE (i : Nat) : Nat := 0x900000 + 0x1000 * i
def OCH_CL_OWNER (i : Nat) : Nat := 0x900004 + 0x1000 * i
def OCH_CL_SCR (i : Nat) : Nat := 0x900008 + 0x1000 * i
def OCH_CL_SCR_CE (i : Nat) : Nat := 0x900010 + 0x1000 * i
def OCH_CL_SCR_UE (i : Nat) : Nat := 0x900018 + 0x1000 * i
def OCH_CL_EV_DROP (i : Nat) : Nat := 0x900020 + 0x1000 * i
def OCH_CORE_STATE (i : Nat) (j : Nat) : Nat := 0x900100 + 0x1000 * i + 0x40 * j
def OCH_CORE_EVT (i : Nat) (j : Nat) : Nat := 0x900104 + 0x1000 * i + 0x40 * j
def OCH_CORE_PC (i : Nat) (j : Nat) : Nat := 0x900108 + 0x1000 * i + 0x40 * j
def OCH_CORE_INSTR (i : Nat) (j : Nat) : Nat := 0x900110 + 0x1000 * i + 0x40 * j
def IND_STATE (i : Nat) : Nat := 0x800000 + 0x1000 * i
def IND_REPAIR (i : Nat) : Nat := 0x800004 + 0x1000 * i
def IND_JOBS (i : Nat) : Nat := 0x800008 + 0x1000 * i
def IND_STEPS (i : Nat) : Nat := 0x800010 + 0x1000 * i
def IND_SKIP (i : Nat) : Nat := 0x800018 + 0x1000 * i
def IND_S24_HIT (i : Nat) : Nat := 0x800020 + 0x1000 * i
def IND_S24_MISS (i : Nat) : Nat := 0x800028 + 0x1000 * i
def IND_RESIDUE (i : Nat) : Nat := 0x800030 + 0x1000 * i
def WOAD_ROUTES : Nat := 0x600000
def WOAD_REROUTED : Nat := 0x600008
def WOAD_SPILLED : Nat := 0x600010
def WOAD_DROPPED : Nat := 0x600018
def WOAD_NOTICES : Nat := 0x600020
def WOAD_MISMATCH : Nat := 0x600028
def WOAD_RATE : Nat := 0x600030
def WOAD_ACTIVE : Nat := 0x600034
def BLND_OPS : Nat := 0x700000
def BLND_TERMS : Nat := 0x700008
def BLND_SKIPPED : Nat := 0x700010
def BLND_MISMATCH : Nat := 0x700018
def BLND_ABORTS : Nat := 0x700020
def BLND_RATE : Nat := 0x700028
def BLND_ACTIVE : Nat := 0x70002c
def BLND_GRP (i : Nat) : Nat := 0x710000 + 0x8 * i
def LAKE_PG_CFG (i : Nat) : Nat := 0x230000 + 0x40 * i
def LAKE_PG_COMMIT (i : Nat) : Nat := 0x230008 + 0x40 * i
def LAKE_PG_LOST (i : Nat) : Nat := 0x230010 + 0x40 * i
def LAKE_PG_DIRTY (i : Nat) : Nat := 0x230018 + 0x40 * i
def LAKE_PG_DSENT (i : Nat) : Nat := 0x230020 + 0x40 * i
def LAKE_PG_DAPPL (i : Nat) : Nat := 0x230028 + 0x40 * i
def LAKE_PG_REBUILD (i : Nat) : Nat := 0x230030 + 0x40 * i
def LAKE_RPROT (i : Nat) : Nat := 0x238000 + 0x8 * i
def CARM_UDP_PORT : Nat := 0x300000
def CARM_DSCP : Nat := 0x300008
def CARM_IP6_HI : Nat := 0x300010
def CARM_IP6_LO : Nat := 0x300018
def CARM_IP4 : Nat := 0x300020
def CARM_CTX_DIE : Nat := 0x300024
def CARM_CTX_NEAR : Nat := 0x300028
def CARM_CTX_HOST : Nat := 0x30002c
def CARM_PARK : Nat := 0x300030
def CARM_TX_PKTS : Nat := 0x300040
def CARM_RX_PKTS : Nat := 0x300048
def CARM_RETX : Nat := 0x300050
def CARM_CMISS_TX : Nat := 0x300058
def CARM_CMISS_RX : Nat := 0x300060
def CARM_CRC_ERR : Nat := 0x300068
def CARM_HDR_ERR : Nat := 0x300070
def CARM_STALE : Nat := 0x300078
def CARM_COOKIE_ERR : Nat := 0x300080
def CARM_OOW : Nat := 0x300088
def CARM_STAGE_FULL : Nat := 0x300090
def CARM_REFUSED : Nat := 0x300098
def CARM_NOTICE_DROP : Nat := 0x3000a0
def CARM_CONN_ERR : Nat := 0x3000a8
def CARM_CQ_SEL : Nat := 0x300100
def CARM_CQ_STATE : Nat := 0x300108
def CARM_CC_PROF (i : Nat) : Nat := 0x301000 + 0x20 * i
def APRT_STATE (i : Nat) : Nat := 0xb00000 + 0x1000 * i
def APRT_OWNER (i : Nat) : Nat := 0xb00004 + 0x1000 * i
def APRT_LANE_ON (i : Nat) : Nat := 0xb00008 + 0x1000 * i
def APRT_LANE_HI (i : Nat) : Nat := 0xb00010 + 0x1000 * i
def APRT_WINSIZE (i : Nat) : Nat := 0xb00018 + 0x1000 * i
def APRT_PARTNER (i : Nat) : Nat := 0xb00020 + 0x1000 * i
def APRT_CRC_ERR (i : Nat) : Nat := 0xb00028 + 0x1000 * i
def APRT_REPLAY (i : Nat) : Nat := 0xb00030 + 0x1000 * i
def APRT_RETRAIN (i : Nat) : Nat := 0xb00038 + 0x1000 * i
def APRT_FEC_CE (i : Nat) : Nat := 0xb00040 + 0x1000 * i
def APRT_CPL_TO (i : Nat) : Nat := 0xb00048 + 0x1000 * i
def APRT_LATE_CPL (i : Nat) : Nat := 0xb00050 + 0x1000 * i
def APRT_DENY (i : Nat) : Nat := 0xb00058 + 0x1000 * i
def APRT_MALFORMED (i : Nat) : Nat := 0xb00060 + 0x1000 * i
def APRT_POST_DROP (i : Nat) : Nat := 0xb00068 + 0x1000 * i
def APRT_TX_FLITS (i : Nat) : Nat := 0xb00070 + 0x1000 * i
def APRT_RX_FLITS (i : Nat) : Nat := 0xb00078 + 0x1000 * i
def APRT_EXP_OVER (i : Nat) : Nat := 0xb00080 + 0x1000 * i
def APRT_CREDIT_ERR (i : Nat) : Nat := 0xb00088 + 0x1000 * i
def ETH_PORT_CFG (i : Nat) : Nat := 0xc00000 + 0x100 * i
def ETH_PORT_STATE (i : Nat) : Nat := 0xc00004 + 0x100 * i
def ETH_MAC (i : Nat) : Nat := 0xc00008 + 0x100 * i
def ETH_VLAN (i : Nat) : Nat := 0xc00010 + 0x100 * i
def ETH_TS_SEC (i : Nat) : Nat := 0xc00018 + 0x100 * i
def ETH_TS_NS (i : Nat) : Nat := 0xc00020 + 0x100 * i
def ETH_TS_RATE (i : Nat) : Nat := 0xc00024 + 0x100 * i
def ETH_TS_ADJ (i : Nat) : Nat := 0xc00028 + 0x100 * i
def ETH_FEC_CE (i : Nat) : Nat := 0xc00030 + 0x100 * i
def ETH_FEC_UE (i : Nat) : Nat := 0xc00038 + 0x100 * i
def ETH_TX_FRAMES (i : Nat) : Nat := 0xc00040 + 0x100 * i
def ETH_RX_FRAMES (i : Nat) : Nat := 0xc00048 + 0x100 * i
def ETH_RX_ERR (i : Nat) : Nat := 0xc00050 + 0x100 * i
def ETH_FRAGS (i : Nat) : Nat := 0xc00058 + 0x100 * i
def ETH_CART_STATE (i : Nat) : Nat := 0xc10000 + 0x100 * i
def ETH_CART_MAP (i : Nat) : Nat := 0xc10004 + 0x100 * i
def ETH_CART_SERIAL (i : Nat) : Nat := 0xc10008 + 0x100 * i
def ETH_EMIT_BIAS (i : Nat) (j : Nat) : Nat := 0xc10010 + 0x100 * i + 0x4 * j
def ETH_EMIT_HOURS (i : Nat) (j : Nat) : Nat := 0xc10040 + 0x100 * i + 0x4 * j
def MADR_RULE_SEL : Nat := 0x400000
def MADR_RULE_CMD : Nat := 0x400008
def MADR_RULE_STAT : Nat := 0x40000c
def MADR_RULE_DATA (i : Nat) : Nat := 0x400040 + 0x8 * i
def MADR_RANGE (i : Nat) : Nat := 0x410000 + 0x8 * i
def MADR_SP_LIMIT (i : Nat) : Nat := 0x420000 + 0x10 * i
def MADR_SP_DROP (i : Nat) : Nat := 0x420008 + 0x10 * i
def MADR_CAUSE (i : Nat) : Nat := 0x430000 + 0x8 * i
def MADR_RX_OVF : Nat := 0x430100
def MADR_CARM_DEF : Nat := 0x430108
def MADR_FLOW_HIT : Nat := 0x430110
def MADR_FLOW_MISS : Nat := 0x430118
def MADR_FLOW_CFG : Nat := 0x430120
def MADR_RULE_HITS (i : Nat) : Nat := 0x480000 + 0x8 * i
def WELD_SAMPLE_CFG : Nat := 0x500000
def WELD_Q_SEL : Nat := 0x500008
def WELD_Q_CFG : Nat := 0x500010
def WELD_Q_STAT : Nat := 0x500018
def WELD_HIST_SEL : Nat := 0x500020
def WELD_HIST_DEPTH (i : Nat) : Nat := 0x500040 + 0x4 * i
def WELD_HIST_SOJ (i : Nat) : Nat := 0x500080 + 0x4 * i
def WELD_SAMPLE_LATE : Nat := 0x5000c0
def WELD_PORT_CFG (i : Nat) : Nat := 0x510000 + 0x100 * i
def WELD_CLASS (i : Nat) (j : Nat) : Nat := 0x510008 + 0x100 * i + 0x8 * j
def WELD_GATE_CTRL (i : Nat) : Nat := 0x510048 + 0x100 * i
def WELD_GATE_BASE_NS (i : Nat) : Nat := 0x51004c + 0x100 * i
def WELD_GATE_BASE_SEC (i : Nat) : Nat := 0x510050 + 0x100 * i
def WELD_GATE_CYCLE (i : Nat) : Nat := 0x510058 + 0x100 * i
def WELD_GATE_STAT (i : Nat) : Nat := 0x51005c + 0x100 * i
def WELD_EXP_HELD (i : Nat) : Nat := 0x510060 + 0x100 * i
def WELD_EXP_DEMOTE (i : Nat) : Nat := 0x510068 + 0x100 * i
def WELD_GB_HOLD (i : Nat) : Nat := 0x510070 + 0x100 * i
def WELD_GB_DROP (i : Nat) : Nat := 0x510078 + 0x100 * i
def WELD_GATE_OVERRUN (i : Nat) : Nat := 0x510080 + 0x100 * i
def WELD_DISCARD (i : Nat) : Nat := 0x510088 + 0x100 * i
def WELD_GCL (i : Nat) (j : Nat) : Nat := 0x540000 + 0x800 * i + 0x8 * j
def WELD_SHP_RATE (i : Nat) : Nat := 0x580000 + 0x20 * i
def WELD_SHP_BURST (i : Nat) : Nat := 0x580008 + 0x20 * i
def WELD_SHP_CTRL (i : Nat) : Nat := 0x580010 + 0x20 * i
def WELD_SHP_CRED (i : Nat) : Nat := 0x580018 + 0x20 * i
def HIF_ID : Nat := 0x0
def HIF_SELF : Nat := 0x4
def HIF_BAD_ACCESS : Nat := 0x10
def HIF_CPL_TO : Nat := 0x18
def HIF_LATE_CPL : Nat := 0x20
def HIF_DROP_CPL : Nat := 0x28
def HIF_FLR : Nat := 0x30
def HIF_BAD_VEC : Nat := 0x38
def HIF_PORT_STATE (i : Nat) : Nat := 0x40 + 0x8 * i
def HIF_FN_SEL : Nat := 0x1000
def HIF_FN_STATE : Nat := 0x1008
def HIF_FN_QUOTA (i : Nat) : Nat := 0x1040 + 0x8 * i
def SAFF_VAULT : Nat := 0xa00000
def SAFF_BUF : Nat := 0xa00008
def SAFF_CMDS : Nat := 0xa00010
def SAFF_HITS : Nat := 0xa00018
def SAFF_DESTAGE : Nat := 0xa00020
def SAFF_BACK_ERR : Nat := 0xa00028
def SAFF_DISCARD : Nat := 0xa00030
def SAFF_SAVES : Nat := 0xa00038
def SAFF_NS_SEL : Nat := 0xa00100
def SAFF_NS_STATE : Nat := 0xa00108
def OCH_CORE_XCPT (i : Nat) (j : Nat) : Nat := 0x900118 + 0x1000 * i + 0x40 * j
def OCH_CORE_XPC (i : Nat) (j : Nat) : Nat := 0x900120 + 0x1000 * i + 0x40 * j
def OCH_CORE_XADDR (i : Nat) (j : Nat) : Nat := 0x900128 + 0x1000 * i + 0x40 * j
def MBOX_IN (i : Nat) : Nat := 0xe00000 + 0x40 * i
def MBOX_OUT (i : Nat) : Nat := 0xe00008 + 0x40 * i
def MBOX_STAT (i : Nat) : Nat := 0xe00010 + 0x40 * i
def MBOX_IRQ (i : Nat) : Nat := 0xe00014 + 0x40 * i
def MBOX_REFUSED (i : Nat) : Nat := 0xe00018 + 0x40 * i
def MBOX_RRCNT (i : Nat) : Nat := 0xe0001c + 0x40 * i
def PAL_CORE_STATE (i : Nat) : Nat := 0xe05000 + 0x10 * i
def PAL_CORE_RESTARTS (i : Nat) : Nat := 0xe05008 + 0x10 * i
def PAL_FW : Nat := 0xe05100
def PAL_LOG_TAIL : Nat := 0xe05108
def PAL_LOG_HEAD : Nat := 0xe0510c
def PAL_LOG_LOST : Nat := 0xe05110
def PAL_TRACE_DROP : Nat := 0xe05118
def PAL_SP_HEAD (i : Nat) : Nat := 0xe06000 + 0x4 * i
def MORD_STATE : Nat := 0xf00000
def MORD_AES_BLKS : Nat := 0xf00008
def MORD_SHA_BLKS : Nat := 0xf00010
def MORD_KEY_DENY : Nat := 0xf00018
def MORD_ENT_FAIL : Nat := 0xf00020
def MORD_SLOT (i : Nat) : Nat := 0xf01000 + 0x8 * i
def UMB_LIFECYCLE : Nat := 0x1000000
def UMB_TAMPER : Nat := 0x1000008
def SIEN_EXP_PEN : Nat := 0xd10000
def SIEN_EXP_STATE (i : Nat) : Nat := 0xd10008 + 0x20 * i
def SIEN_EXP_MSGS (i : Nat) : Nat := 0xd10010 + 0x20 * i
def SIEN_EXP_DROP (i : Nat) : Nat := 0xd10018 + 0x20 * i
def SIEN_SAMPLE_CFG (i : Nat) : Nat := 0xd11000 + 0x10 * i
def SIEN_SAMPLED (i : Nat) : Nat := 0xd11008 + 0x10 * i
def SIEN_SAMPLE_DROP : Nat := 0xd12000
def VERD_RGN_STATE (i : Nat) : Nat := 0xd40000 + 0x20 * i
def VERD_RGN_WORST (i : Nat) : Nat := 0xd40004 + 0x20 * i
def VERD_RGN_AGE (i : Nat) : Nat := 0xd40008 + 0x20 * i
def VERD_EVENT : Nat := 0xd41000
def VERD_POLICY : Nat := 0xd41008
def SWAT_STATE : Nat := 0x1100000
def SWAT_RESULT : Nat := 0x1100008
def SWAT_SIG : Nat := 0x1100010
def SWAT_RUNS : Nat := 0x1100018
def SWAT_FAILS : Nat := 0x1100020
def SWAT_CTRL : Nat := 0x1100040
def SWAT_RMAP : Nat := 0x1100100
def UMB_GUARD : Nat := 0x1000010
def UMB_TROUBLE (i : Nat) : Nat := 0x1080000 + 0x8 * i
def UMB_BOOT : Nat := 0x1000020
def UMB_NODE : Nat := 0x1000028
def UMB_SIZE_REQ : Nat := 0x100002c
def UMB_PWR : Nat := 0x1000040
def UMB_COOL : Nat := 0x1000048
def UMB_EMERG : Nat := 0x1000050

/-- Access codes (R7). -/
inductive Access where
  | RO | RW | WO | W1C | W1S | SC | LK
deriving DecidableEq, Repr

/-- A row of the register map: first offset, up to two strides with their counts, width in bits, access and reset value. -/
structure RegRow where
  base : Nat
  s1 : Nat := 0
  n1 : Nat := 1
  s2 : Nat := 0
  n2 : Nat := 1
  width : Nat
  acc : Access
  reset : Nat := 0
deriving DecidableEq, Repr

def regRows00 : List RegRow := [
  ⟨0x0, 0x0, 1, 0x0, 1, 32, .RO, 0x900d9a1⟩,
  ⟨0x4, 0x0, 1, 0x0, 1, 32, .RO, 0x0⟩,
  ⟨0x10, 0x0, 1, 0x0, 1, 64, .SC, 0x0⟩,
  ⟨0x18, 0x0, 1, 0x0, 1, 64, .SC, 0x0⟩,
  ⟨0x20, 0x0, 1, 0x0, 1, 64, .SC, 0x0⟩,
  ⟨0x28, 0x0, 1, 0x0, 1, 64, .SC, 0x0⟩,
  ⟨0x30, 0x0, 1, 0x0, 1, 64, .SC, 0x0⟩,
  ⟨0x38, 0x0, 1, 0x0, 1, 64, .SC, 0x0⟩,
  ⟨0x40, 0x8, 2, 0x0, 1, 64, .RO, 0x0⟩,
  ⟨0x1000, 0x0, 1, 0x0, 1, 32, .RW, 0x0⟩,
  ⟨0x1008, 0x0, 1, 0x0, 1, 64, .RO, 0x1000⟩,
  ⟨0x1040, 0x8, 12, 0x0, 1, 64, .RO, 0x0⟩]

def regRows01 : List RegRow := [
  ⟨0x100000, 0x0, 1, 0x0, 1, 64, .SC, 0x0⟩,
  ⟨0x100008, 0x0, 1, 0x0, 1, 64, .SC, 0x0⟩,
  ⟨0x100010, 0x0, 1, 0x0, 1, 64, .SC, 0x0⟩,
  ⟨0x100018, 0x0, 1, 0x0, 1, 32, .RO, 0x0⟩,
  ⟨0x180000, 0x8, 65536, 0x0, 1, 64, .RO, 0x0⟩]

def regRows02 : List RegRow := [
  ⟨0x200000, 0x0, 1, 0x0, 1, 64, .RO, 0x0⟩,
  ⟨0x200008, 0x0, 1, 0x0, 1, 32, .RW, 0x18⟩,
  ⟨0x200010, 0x0, 1, 0x0, 1, 64, .SC, 0x0⟩,
  ⟨0x200018, 0x0, 1, 0x0, 1, 64, .SC, 0x0⟩,
  ⟨0x200020, 0x0, 1, 0x0, 1, 64, .SC, 0x0⟩,
  ⟨0x200028, 0x0, 1, 0x0, 1, 64, .SC, 0x0⟩,
  ⟨0x200030, 0x0, 1, 0x0, 1, 64, .SC, 0x0⟩,
  ⟨0x200038, 0x0, 1, 0x0, 1, 32, .RO, 0x0⟩,
  ⟨0x20003c, 0x0, 1, 0x0, 1, 32, .W1C, 0x0⟩,
  ⟨0x200040, 0x0, 1, 0x0, 1, 64, .RO, 0x0⟩,
  ⟨0x201000, 0x20, 32, 0x0, 1, 64, .RO, 0x0⟩,
  ⟨0x201008, 0x20, 32, 0x0, 1, 64, .RO, 0x33333333333333⟩,
  ⟨0x201010, 0x20, 32, 0x0, 1, 32, .RO, 0x0⟩,
  ⟨0x210000, 0x20, 4096, 0x0, 1, 256, .RO, 0x0⟩,
  ⟨0x230000, 0x40, 16, 0x0, 1, 64, .RO, 0x0⟩,
  ⟨0x230008, 0x40, 16, 0x0, 1, 64, .RO, 0x0⟩,
  ⟨0x230010, 0x40, 16, 0x0, 1, 32, .RO, 0x0⟩,
  ⟨0x230018, 0x40, 16, 0x0, 1, 64, .RO, 0x0⟩,
  ⟨0x230020, 0x40, 16, 0x0, 1, 64, .SC, 0x0⟩,
  ⟨0x230028, 0x40, 16, 0x0, 1, 64, .SC, 0x0⟩,
  ⟨0x230030, 0x40, 16, 0x0, 1, 64, .RO, 0x0⟩,
  ⟨0x238000, 0x8, 4096, 0x0, 1, 64, .RO, 0x0⟩]

def regRows03 : List RegRow := [
  ⟨0x300000, 0x0, 1, 0x0, 1, 32, .RW, 0xd9a1⟩,
  ⟨0x300008, 0x0, 1, 0x0, 1, 64, .RW, 0x0⟩,
  ⟨0x300010, 0x0, 1, 0x0, 1, 64, .RO, 0x0⟩,
  ⟨0x300018, 0x0, 1, 0x0, 1, 64, .RO, 0x0⟩,
  ⟨0x300020, 0x0, 1, 0x0, 1, 32, .RO, 0x0⟩,
  ⟨0x300024, 0x0, 1, 0x0, 1, 32, .RO, 0x0⟩,
  ⟨0x300028, 0x0, 1, 0x0, 1, 32, .RO, 0x0⟩,
  ⟨0x30002c, 0x0, 1, 0x0, 1, 32, .RO, 0x0⟩,
  ⟨0x300030, 0x0, 1, 0x0, 1, 32, .RO, 0x0⟩,
  ⟨0x300040, 0x0, 1, 0x0, 1, 64, .SC, 0x0⟩,
  ⟨0x300048, 0x0, 1, 0x0, 1, 64, .SC, 0x0⟩,
  ⟨0x300050, 0x0, 1, 0x0, 1, 64, .SC, 0x0⟩,
  ⟨0x300058, 0x0, 1, 0x0, 1, 64, .SC, 0x0⟩,
  ⟨0x300060, 0x0, 1, 0x0, 1, 64, .SC, 0x0⟩,
  ⟨0x300068, 0x0, 1, 0x0, 1, 64, .SC, 0x0⟩,
  ⟨0x300070, 0x0, 1, 0x0, 1, 64, .SC, 0x0⟩,
  ⟨0x300078, 0x0, 1, 0x0, 1, 64, .SC, 0x0⟩,
  ⟨0x300080, 0x0, 1, 0x0, 1, 64, .SC, 0x0⟩,
  ⟨0x300088, 0x0, 1, 0x0, 1, 64, .SC, 0x0⟩,
  ⟨0x300090, 0x0, 1, 0x0, 1, 64, .SC, 0x0⟩,
  ⟨0x300098, 0x0, 1, 0x0, 1, 64, .SC, 0x0⟩,
  ⟨0x3000a0, 0x0, 1, 0x0, 1, 64, .SC, 0x0⟩,
  ⟨0x3000a8, 0x0, 1, 0x0, 1, 64, .SC, 0x0⟩,
  ⟨0x300100, 0x0, 1, 0x0, 1, 32, .RW, 0x0⟩,
  ⟨0x300108, 0x0, 1, 0x0, 1, 64, .RO, 0x0⟩,
  ⟨0x301000, 0x20, 16, 0x0, 1, 192, .RW, 0x0⟩]

def regRows04 : List RegRow := [
  ⟨0x400000, 0x0, 1, 0x0, 1, 32, .RW, 0x0⟩,
  ⟨0x400008, 0x0, 1, 0x0, 1, 32, .WO, 0x0⟩,
  ⟨0x40000c, 0x0, 1, 0x0, 1, 32, .RO, 0x0⟩,
  ⟨0x400040, 0x8, 16, 0x0, 1, 64, .RW, 0x0⟩,
  ⟨0x410000, 0x8, 4096, 0x0, 1, 64, .RW, 0xffff⟩,
  ⟨0x420000, 0x10, 64, 0x0, 1, 32, .RW, 0x3e8⟩,
  ⟨0x420008, 0x10, 64, 0x0, 1, 64, .SC, 0x0⟩,
  ⟨0x430000, 0x8, 16, 0x0, 1, 64, .SC, 0x0⟩,
  ⟨0x430100, 0x0, 1, 0x0, 1, 64, .SC, 0x0⟩,
  ⟨0x430108, 0x0, 1, 0x0, 1, 64, .SC, 0x0⟩,
  ⟨0x430110, 0x0, 1, 0x0, 1, 64, .SC, 0x0⟩,
  ⟨0x430118, 0x0, 1, 0x0, 1, 64, .SC, 0x0⟩,
  ⟨0x430120, 0x0, 1, 0x0, 1, 64, .RO, 0x0⟩,
  ⟨0x480000, 0x8, 65536, 0x0, 1, 64, .SC, 0x0⟩]

def regRows05 : List RegRow := [
  ⟨0x500000, 0x0, 1, 0x0, 1, 32, .RW, 0xa⟩,
  ⟨0x500008, 0x0, 1, 0x0, 1, 32, .RW, 0x0⟩,
  ⟨0x500010, 0x0, 1, 0x0, 1, 64, .RW, 0x20⟩,
  ⟨0x500018, 0x0, 1, 0x0, 1, 64, .RO, 0x0⟩,
  ⟨0x500020, 0x0, 1, 0x0, 1, 32, .RW, 0x0⟩,
  ⟨0x500040, 0x4, 16, 0x0, 1, 32, .SC, 0x0⟩,
  ⟨0x500080, 0x4, 16, 0x0, 1, 32, .SC, 0x0⟩,
  ⟨0x5000c0, 0x0, 1, 0x0, 1, 64, .SC, 0x0⟩,
  ⟨0x510000, 0x100, 64, 0x0, 1, 64, .RW, 0x14⟩,
  ⟨0x510008, 0x100, 64, 0x8, 8, 64, .RW, 0x0⟩,
  ⟨0x510048, 0x100, 64, 0x0, 1, 32, .RW, 0x0⟩,
  ⟨0x51004c, 0x100, 64, 0x0, 1, 32, .RW, 0x0⟩,
  ⟨0x510050, 0x100, 64, 0x0, 1, 64, .RW, 0x0⟩,
  ⟨0x510058, 0x100, 64, 0x0, 1, 32, .RW, 0xf4240⟩,
  ⟨0x51005c, 0x100, 64, 0x0, 1, 32, .RO, 0x0⟩,
  ⟨0x510060, 0x100, 64, 0x0, 1, 64, .SC, 0x0⟩,
  ⟨0x510068, 0x100, 64, 0x0, 1, 64, .SC, 0x0⟩,
  ⟨0x510070, 0x100, 64, 0x0, 1, 64, .SC, 0x0⟩,
  ⟨0x510078, 0x100, 64, 0x0, 1, 64, .SC, 0x0⟩,
  ⟨0x510080, 0x100, 64, 0x0, 1, 64, .SC, 0x0⟩,
  ⟨0x510088, 0x100, 64, 0x0, 1, 64, .SC, 0x0⟩,
  ⟨0x540000, 0x800, 64, 0x8, 256, 64, .RW, 0x0⟩,
  ⟨0x580000, 0x20, 16384, 0x0, 1, 64, .RW, 0x0⟩,
  ⟨0x580008, 0x20, 16384, 0x0, 1, 64, .RW, 0x0⟩,
  ⟨0x580010, 0x20, 16384, 0x0, 1, 32, .RW, 0x0⟩,
  ⟨0x580018, 0x20, 16384, 0x0, 1, 64, .RO, 0x0⟩]

def regRows06 : List RegRow := [
  ⟨0x600000, 0x0, 1, 0x0, 1, 64, .SC, 0x0⟩,
  ⟨0x600008, 0x0, 1, 0x0, 1, 64, .SC, 0x0⟩,
  ⟨0x600010, 0x0, 1, 0x0, 1, 64, .SC, 0x0⟩,
  ⟨0x600018, 0x0, 1, 0x0, 1, 64, .SC, 0x0⟩,
  ⟨0x600020, 0x0, 1, 0x0, 1, 64, .SC, 0x0⟩,
  ⟨0x600028, 0x0, 1, 0x0, 1, 64, .SC, 0x0⟩,
  ⟨0x600030, 0x0, 1, 0x0, 1, 32, .RO, 0x0⟩,
  ⟨0x600034, 0x0, 1, 0x0, 1, 32, .RO, 0x0⟩]

def regRows07 : List RegRow := [
  ⟨0x700000, 0x0, 1, 0x0, 1, 64, .SC, 0x0⟩,
  ⟨0x700008, 0x0, 1, 0x0, 1, 64, .SC, 0x0⟩,
  ⟨0x700010, 0x0, 1, 0x0, 1, 64, .SC, 0x0⟩,
  ⟨0x700018, 0x0, 1, 0x0, 1, 64, .SC, 0x0⟩,
  ⟨0x700020, 0x0, 1, 0x0, 1, 64, .SC, 0x0⟩,
  ⟨0x700028, 0x0, 1, 0x0, 1, 32, .RO, 0x0⟩,
  ⟨0x70002c, 0x0, 1, 0x0, 1, 32, .RO, 0x0⟩,
  ⟨0x710000, 0x8, 65536, 0x0, 1, 64, .RO, 0x0⟩]

def regRows08 : List RegRow := [
  ⟨0x800000, 0x1000, 64, 0x0, 1, 32, .RO, 0x0⟩,
  ⟨0x800004, 0x1000, 64, 0x0, 1, 32, .RO, 0x0⟩,
  ⟨0x800008, 0x1000, 64, 0x0, 1, 64, .SC, 0x0⟩,
  ⟨0x800010, 0x1000, 64, 0x0, 1, 64, .SC, 0x0⟩,
  ⟨0x800018, 0x1000, 64, 0x0, 1, 64, .SC, 0x0⟩,
  ⟨0x800020, 0x1000, 64, 0x0, 1, 64, .SC, 0x0⟩,
  ⟨0x800028, 0x1000, 64, 0x0, 1, 64, .SC, 0x0⟩,
  ⟨0x800030, 0x1000, 64, 0x0, 1, 64, .SC, 0x0⟩]

def regRows09 : List RegRow := [
  ⟨0x900f00, 0x1000, 64, 0x0, 1, 64, .WO, 0x0⟩,
  ⟨0x900000, 0x1000, 64, 0x0, 1, 32, .RO, 0x0⟩,
  ⟨0x900004, 0x1000, 64, 0x0, 1, 32, .RO, 0x1000⟩,
  ⟨0x900008, 0x1000, 64, 0x0, 1, 32, .RO, 0x0⟩,
  ⟨0x900010, 0x1000, 64, 0x0, 1, 64, .SC, 0x0⟩,
  ⟨0x900018, 0x1000, 64, 0x0, 1, 64, .SC, 0x0⟩,
  ⟨0x900020, 0x1000, 64, 0x0, 1, 64, .SC, 0x0⟩,
  ⟨0x900100, 0x1000, 64, 0x40, 8, 32, .RO, 0x3⟩,
  ⟨0x900104, 0x1000, 64, 0x40, 8, 32, .RO, 0x0⟩,
  ⟨0x900108, 0x1000, 64, 0x40, 8, 64, .RO, 0x0⟩,
  ⟨0x900110, 0x1000, 64, 0x40, 8, 64, .SC, 0x0⟩,
  ⟨0x900118, 0x1000, 64, 0x40, 8, 32, .RO, 0x0⟩,
  ⟨0x900120, 0x1000, 64, 0x40, 8, 64, .RO, 0x0⟩,
  ⟨0x900128, 0x1000, 64, 0x40, 8, 64, .RO, 0x0⟩]

def regRows0A : List RegRow := [
  ⟨0xa00000, 0x0, 1, 0x0, 1, 32, .RO, 0x0⟩,
  ⟨0xa00008, 0x0, 1, 0x0, 1, 64, .RO, 0x0⟩,
  ⟨0xa00010, 0x0, 1, 0x0, 1, 64, .SC, 0x0⟩,
  ⟨0xa00018, 0x0, 1, 0x0, 1, 64, .SC, 0x0⟩,
  ⟨0xa00020, 0x0, 1, 0x0, 1, 64, .SC, 0x0⟩,
  ⟨0xa00028, 0x0, 1, 0x0, 1, 64, .SC, 0x0⟩,
  ⟨0xa00030, 0x0, 1, 0x0, 1, 64, .SC, 0x0⟩,
  ⟨0xa00038, 0x0, 1, 0x0, 1, 64, .SC, 0x0⟩,
  ⟨0xa00100, 0x0, 1, 0x0, 1, 32, .RW, 0x0⟩,
  ⟨0xa00108, 0x0, 1, 0x0, 1, 64, .RO, 0x0⟩]

def regRows0B : List RegRow := [
  ⟨0xb00000, 0x1000, 8, 0x0, 1, 32, .RO, 0x0⟩,
  ⟨0xb00004, 0x1000, 8, 0x0, 1, 32, .RO, 0x1000⟩,
  ⟨0xb00008, 0x1000, 8, 0x0, 1, 64, .RO, 0x0⟩,
  ⟨0xb00010, 0x1000, 8, 0x0, 1, 32, .RO, 0x0⟩,
  ⟨0xb00018, 0x1000, 8, 0x0, 1, 64, .RO, 0x0⟩,
  ⟨0xb00020, 0x1000, 8, 0x0, 1, 32, .RO, 0x0⟩,
  ⟨0xb00028, 0x1000, 8, 0x0, 1, 64, .SC, 0x0⟩,
  ⟨0xb00030, 0x1000, 8, 0x0, 1, 64, .SC, 0x0⟩,
  ⟨0xb00038, 0x1000, 8, 0x0, 1, 64, .SC, 0x0⟩,
  ⟨0xb00040, 0x1000, 8, 0x0, 1, 64, .SC, 0x0⟩,
  ⟨0xb00048, 0x1000, 8, 0x0, 1, 64, .SC, 0x0⟩,
  ⟨0xb00050, 0x1000, 8, 0x0, 1, 64, .SC, 0x0⟩,
  ⟨0xb00058, 0x1000, 8, 0x0, 1, 64, .SC, 0x0⟩,
  ⟨0xb00060, 0x1000, 8, 0x0, 1, 64, .SC, 0x0⟩,
  ⟨0xb00068, 0x1000, 8, 0x0, 1, 64, .SC, 0x0⟩,
  ⟨0xb00070, 0x1000, 8, 0x0, 1, 64, .SC, 0x0⟩,
  ⟨0xb00078, 0x1000, 8, 0x0, 1, 64, .SC, 0x0⟩,
  ⟨0xb00080, 0x1000, 8, 0x0, 1, 64, .SC, 0x0⟩,
  ⟨0xb00088, 0x1000, 8, 0x0, 1, 64, .SC, 0x0⟩]

def regRows0C : List RegRow := [
  ⟨0xc00000, 0x100, 64, 0x0, 1, 32, .RW, 0x0⟩,
  ⟨0xc00004, 0x100, 64, 0x0, 1, 32, .RO, 0x0⟩,
  ⟨0xc00008, 0x100, 64, 0x0, 1, 64, .RW, 0x0⟩,
  ⟨0xc00010, 0x100, 64, 0x0, 1, 64, .RW, 0x81000000⟩,
  ⟨0xc00018, 0x100, 64, 0x0, 1, 64, .RO, 0x0⟩,
  ⟨0xc00020, 0x100, 64, 0x0, 1, 32, .RO, 0x0⟩,
  ⟨0xc00024, 0x100, 64, 0x0, 1, 32, .RW, 0x0⟩,
  ⟨0xc00028, 0x100, 64, 0x0, 1, 64, .WO, 0x0⟩,
  ⟨0xc00030, 0x100, 64, 0x0, 1, 64, .SC, 0x0⟩,
  ⟨0xc00038, 0x100, 64, 0x0, 1, 64, .SC, 0x0⟩,
  ⟨0xc00040, 0x100, 64, 0x0, 1, 64, .SC, 0x0⟩,
  ⟨0xc00048, 0x100, 64, 0x0, 1, 64, .SC, 0x0⟩,
  ⟨0xc00050, 0x100, 64, 0x0, 1, 64, .SC, 0x0⟩,
  ⟨0xc00058, 0x100, 64, 0x0, 1, 64, .SC, 0x0⟩,
  ⟨0xc10000, 0x100, 16, 0x0, 1, 32, .RO, 0x0⟩,
  ⟨0xc10004, 0x100, 16, 0x0, 1, 32, .RO, 0xffffffff⟩,
  ⟨0xc10008, 0x100, 16, 0x0, 1, 64, .RO, 0x0⟩,
  ⟨0xc10010, 0x100, 16, 0x4, 12, 32, .RO, 0x0⟩,
  ⟨0xc10040, 0x100, 16, 0x4, 12, 32, .RO, 0x0⟩]

def regRows0D : List RegRow := [
  ⟨0xd08000, 0x40, 16, 0x0, 1, 64, .RO, 0x0⟩,
  ⟨0xd08008, 0x40, 16, 0x0, 1, 32, .RO, 0x0⟩,
  ⟨0xd0800c, 0x40, 16, 0x0, 1, 32, .RO, 0x0⟩,
  ⟨0xd08010, 0x40, 16, 0x0, 1, 32, .RO, 0x2ee⟩,
  ⟨0xd08014, 0x40, 16, 0x0, 1, 32, .RO, 0x0⟩,
  ⟨0xd10000, 0x0, 1, 0x0, 1, 32, .RO, 0x0⟩,
  ⟨0xd10008, 0x20, 4, 0x0, 1, 32, .RO, 0x0⟩,
  ⟨0xd10010, 0x20, 4, 0x0, 1, 64, .SC, 0x0⟩,
  ⟨0xd10018, 0x20, 4, 0x0, 1, 64, .SC, 0x0⟩,
  ⟨0xd11000, 0x10, 64, 0x0, 1, 32, .RO, 0x0⟩,
  ⟨0xd11008, 0x10, 64, 0x0, 1, 64, .SC, 0x0⟩,
  ⟨0xd12000, 0x0, 1, 0x0, 1, 64, .SC, 0x0⟩,
  ⟨0xd40000, 0x20, 16, 0x0, 1, 32, .RO, 0x0⟩,
  ⟨0xd40004, 0x20, 16, 0x0, 1, 32, .RO, 0x0⟩,
  ⟨0xd40008, 0x20, 16, 0x0, 1, 32, .RO, 0x1000⟩,
  ⟨0xd41000, 0x0, 1, 0x0, 1, 32, .W1C, 0x0⟩,
  ⟨0xd41008, 0x8, 4, 0x0, 1, 64, .RO, 0x0⟩]

def regRows0E : List RegRow := [
  ⟨0xe00000, 0x40, 128, 0x0, 1, 64, .RW, 0x0⟩,
  ⟨0xe00008, 0x40, 128, 0x0, 1, 64, .RW, 0x0⟩,
  ⟨0xe00010, 0x40, 128, 0x0, 1, 32, .W1C, 0x0⟩,
  ⟨0xe00014, 0x40, 128, 0x0, 1, 32, .RW, 0x0⟩,
  ⟨0xe00018, 0x40, 128, 0x0, 1, 32, .SC, 0x0⟩,
  ⟨0xe0001c, 0x40, 128, 0x0, 1, 32, .SC, 0x0⟩,
  ⟨0xe05000, 0x10, 8, 0x0, 1, 32, .RO, 0x1⟩,
  ⟨0xe05008, 0x10, 8, 0x0, 1, 64, .SC, 0x0⟩,
  ⟨0xe05100, 0x0, 1, 0x0, 1, 64, .RO, 0x0⟩,
  ⟨0xe05108, 0x0, 1, 0x0, 1, 32, .RO, 0x0⟩,
  ⟨0xe0510c, 0x0, 1, 0x0, 1, 32, .RW, 0x0⟩,
  ⟨0xe05110, 0x0, 1, 0x0, 1, 64, .SC, 0x0⟩,
  ⟨0xe05118, 0x0, 1, 0x0, 1, 64, .SC, 0x0⟩,
  ⟨0xe06000, 0x4, 256, 0x0, 1, 32, .RW, 0x0⟩]

def regRows0F : List RegRow := [
  ⟨0xf00000, 0x0, 1, 0x0, 1, 32, .RO, 0x0⟩,
  ⟨0xf00008, 0x0, 1, 0x0, 1, 64, .SC, 0x0⟩,
  ⟨0xf00010, 0x0, 1, 0x0, 1, 64, .SC, 0x0⟩,
  ⟨0xf00018, 0x0, 1, 0x0, 1, 64, .SC, 0x0⟩,
  ⟨0xf00020, 0x0, 1, 0x0, 1, 64, .SC, 0x0⟩,
  ⟨0xf01000, 0x8, 4096, 0x0, 1, 64, .RO, 0x0⟩]

def regRows10 : List RegRow := [
  ⟨0x1040000, 0x4, 65536, 0x0, 1, 32, .RO, 0x0⟩,
  ⟨0x1000000, 0x0, 1, 0x0, 1, 32, .RO, 0x0⟩,
  ⟨0x1000008, 0x0, 1, 0x0, 1, 64, .RO, 0x0⟩,
  ⟨0x1000010, 0x0, 1, 0x0, 1, 32, .RO, 0x0⟩,
  ⟨0x1080000, 0x8, 65536, 0x0, 1, 64, .RO, 0x0⟩,
  ⟨0x1000020, 0x0, 1, 0x0, 1, 64, .RO, 0x0⟩,
  ⟨0x1000028, 0x0, 1, 0x0, 1, 32, .RO, 0x0⟩,
  ⟨0x100002c, 0x0, 1, 0x0, 1, 32, .RO, 0x0⟩,
  ⟨0x1000040, 0x0, 1, 0x0, 1, 64, .RO, 0x0⟩,
  ⟨0x1000048, 0x0, 1, 0x0, 1, 64, .RO, 0x0⟩,
  ⟨0x1000050, 0x0, 1, 0x0, 1, 32, .RO, 0x0⟩]

def regRows11 : List RegRow := [
  ⟨0x1100000, 0x0, 1, 0x0, 1, 32, .RO, 0x0⟩,
  ⟨0x1100008, 0x0, 1, 0x0, 1, 64, .RO, 0x0⟩,
  ⟨0x1100010, 0x0, 1, 0x0, 1, 64, .RO, 0x0⟩,
  ⟨0x1100018, 0x0, 1, 0x0, 1, 64, .SC, 0x0⟩,
  ⟨0x1100020, 0x0, 1, 0x0, 1, 64, .SC, 0x0⟩,
  ⟨0x1100040, 0x0, 1, 0x0, 1, 32, .RW, 0x0⟩,
  ⟨0x1100100, 0x0, 1, 0x0, 1, 64, .RO, 0x0⟩]

/-- The whole map (R385). -/
def regRows : List RegRow := regRows00 ++ regRows01 ++ regRows02 ++ regRows03 ++ regRows04 ++ regRows05 ++ regRows06 ++ regRows07 ++ regRows08 ++ regRows09 ++ regRows0A ++ regRows0B ++ regRows0C ++ regRows0D ++ regRows0E ++ regRows0F ++ regRows10 ++ regRows11

end Sys2Proof.Machine
end

