-- ==== Sys2Proof/Machine/Types/Ap.lean ====
section
/-! DEFINITION. The state of the accelerator ports (R293 to R317). -/

namespace Sys2Proof.Machine

open Sys2Proof

/-- PSTATE (R317). -/
inductive PState where
  | disabled | down | training | full | half | retired
deriving DecidableEq, Repr

/-- A transaction the KY9 sends: 16-byte header and data as bytes, and the work it belongs to (R304, R305). -/
structure Txn where
  bytes : List Byte
  work : Option Work := none
deriving DecidableEq, Repr

/-- A transaction flit in the replay buffer: its SEQ, VC, payload, FIRST, and the works whose last write byte it holds. -/
structure TxFlit where
  seq : Nat
  vc : Nat
  first : Nat
  payload : List Byte
  works : List Work := []
deriving DecidableEq, Repr

/-- An outstanding MRD or FENCE (R308). -/
structure ApReq where
  tag : Nat
  work : Work
  /-- Local window address asked for, and length. -/
  addr : Nat
  len : Nat
  fence : Bool := false
deriving DecidableEq, Repr

/-- A received transaction that has not taken effect (R309): its VC, the order number on the port, header and data. -/
structure RxTxn where
  vc : Nat
  seq : Nat
  ttype : Nat
  tag : Nat
  len : Nat
  status : Nat
  addr : W64
  data : List Byte
  /-- Flits of its VC that its taking effect frees (R297). -/
  frees : Nat := 0
deriving DecidableEq, Repr

/-- A POST that waits for a completion slot (R307). -/
structure PostWait where
  ring : Nat
  ringGen : Nat
  desc : Desc
deriving DecidableEq, Repr

structure ApPort where
  pstate : PState := .disabled
  enabled : Bool := false
  /-- APn_PRSNT#: a partner is present (R541). -/
  present : Bool := false
  cause : Nat := 0
  owner : Option Nat := none
  winsize : Nat := 0
  partner : W32 := 0#32
  /-- Good lanes found at the last test (R295). -/
  good : BitVec 66 := 0#66
  /-- Physical lane of each logical data lane (R294). -/
  lanes : List Nat := []
  /-- Time training began, t0 of R295. -/
  t0 : Nat := 0
  /-- The port has ever run at half width: it never returns to full width (R296). -/
  everHalf : Bool := false
  /-- t2 was reached: the lane map is sent and CAPS are awaited (R295). -/
  mapped : Bool := false
  /-- A fast retrain is in progress (R296). -/
  fast : Bool := false
  /-- Next SEQ to send; SEQ of the next flit expected (R299). -/
  txSeq : Nat := 0
  rxSeq : Nat := 0
  /-- A flit has been received in order since training (R297). -/
  rxAny : Bool := false
  replay : List TxFlit := []
  /-- Flits of the replay buffer that wait to be resent, oldest first (R299). -/
  resend : List TxFlit := []
  /-- A NAK is out, and how many have gone for its SEQ (R299). -/
  nakSent : Nat := 0
  /-- Control flits to send: CODE and payload from byte 8 (R300). -/
  control : List (Nat × List Byte) := []
  /-- LANE_SWAP sent and unanswered: logical lane, physical lane (R296). -/
  swap : Option (Nat × Nat) := none
  /-- Credits held per VC, and the last CRCNT seen per VC (R302). -/
  credit : Map Nat := []
  crSeen : Map Nat := []
  /-- Flits freed per VC since training; flits received and not freed per VC. -/
  freed : Map Nat := []
  rxHeld : Map Nat := []
  /-- Of those, the flits that no whole transaction accounts for yet. -/
  rxPend : Map Nat := []
  /-- Rotation of CRVC (R297). -/
  crvc : Nat := 0
  /-- Transactions to send, per VC, oldest first, and how many bytes of the first have gone (R304). -/
  tx : Map (List Txn) := []
  txOff : Map Nat := []
  /-- The next of posted and request to send is request (R303). -/
  reqTurn : Bool := false
  /-- Received bytes of each VC that do not yet make a whole transaction (R304); skipping to FIRST (R306). -/
  rx : Map (List Byte) := []
  rxSkip : Map Bool := []
  /-- Whole transactions received, in flit order (R309). -/
  inbox : List RxTxn := []
  nextTxn : Nat := 0
  reqs : List ApReq := []
  /-- Tags that timed out and the time each becomes reusable (R308). -/
  lateTags : List (Nat × Nat) := []
  posts : List PostWait := []
  /-- Times of the express flits of the last 10 µs, newest first (R303). -/
  expTimes : List Nat := []
  /-- The SEQ that the last NAK of the partner named, and how many have named it (R299). -/
  nakGot : Nat × Nat := (0, 0)
deriving DecidableEq, Repr

structure Aps where
  ports : Map ApPort := []
  /-- Window bytes read for a job or a core, by its key then window address. -/
  got : Map (Map Byte) := []
  /-- Window bytes that came as poisoned-data, by the same keys: address and length (R308). -/
  bad : Map (List (Nat × Nat)) := []
  /-- Jobs and cores whose window read or write failed, and with what (R308, R315). -/
  failed : Map Status := []
deriving DecidableEq, Repr

end Sys2Proof.Machine
end

