-- ==== Sys2Proof/Machine/Types/Carmine.lean ====
section
/-! DEFINITION. The state of Carmine: connections, packets, contexts (R251 to R292). -/

namespace Sys2Proof.Machine

open Sys2Proof

/-- State of a connection (R254). -/
inductive CnState where
  | idle | connecting | established | error
deriving DecidableEq, Repr

/-- Where a context lies (R282). -/
inductive Tier where
  | die | near | host
deriving DecidableEq, Repr

/-- What a message of the sender is. -/
inductive MsgKind where
  /-- WRITE, WRITE_INC, WRITE_TRIG (OP 0x01 to 0x03). -/
  | write (op : Nat)
  | send
  | read
  | atomic (op : Nat)
  /-- A response to a read request or an atomic request of the peer, with RMSN (R271). -/
  | readResp (rmsn : Nat)
  | atomicResp (op rmsn : Nat) (value : W64)
  /-- A scatter write of the device's own blocks, one piece a packet (R261). -/
  | scatter
deriving DecidableEq, Repr

/-- One packet's worth of a scatter write: target address, key and bytes. -/
structure Piece where
  addr : Nat
  rkey : W32
  data : List Byte
deriving DecidableEq, Repr

/-- Who posted a message: a job, or a block of the device. -/
inductive Poster where
  | job (id : Nat)
  | woad (job : Nat)
  | blend (op : Nat)
  | parity (delta : Nat)
  | saf (key : Nat)
  | none
deriving DecidableEq, Repr

/-- A message of this end (R270). -/
structure TxMsg where
  kind : MsgKind
  poster : Poster
  msn : Nat
  /-- First PSN and how many (R270). -/
  psn : Nat
  count : Nat
  laddr : Nat := 0
  lhost : Bool := false
  raddr : W64 := 0#64
  rkey : W32 := 0#32
  len : Nat := 0
  ctr : Nat := 0
  tgen : Nat := 0
  ttag : Nat := 0
  arg0 : W64 := 0#64
  arg1 : W64 := 0#64
  pieces : List Piece := []
  /-- The notice record of an EOM packet (R266). -/
  notice : Option (BitVec 256) := none
  /-- Refused by the target: the remaining PSNs go with PAYLEN 0 (R276). -/
  failed : Option Nat := none
  /-- Its source could not be read: the remaining PSNs go with PAYLEN 0 and without EOM (log 45). -/
  srcFailed : Bool := false
  /-- The message has completed at the sender. -/
  done : Bool := false
  /-- Response bytes placed, for a READ (R277). -/
  got : Nat := 0
  /-- PSN and TSTAMP of the read request that a response answers: a refusal names them (R264, R276). -/
  reqPsn : Nat := 0
  reqTs : Nat := 0
deriving DecidableEq, Repr

/-- Work that waits to become a message, in order (R254, R270): a job, or a message of one of the device's own blocks. -/
inductive Waiting where
  | job (id : Nat)
  | msg (m : TxMsg)
deriving DecidableEq, Repr

/-- A PSN that has been sent and not acknowledged (R279). -/
structure TxPsn where
  sentAt : Nat
  path : Nat
  paylen : Nat
  retx : Nat := 0
  lost : Bool := false
  /-- Lost to a context miss: its retransmission does not count toward RETRY (R279). -/
  miss : Bool := false
  /-- Marked in the last SACK. -/
  sacked : Bool := false
deriving DecidableEq, Repr

/-- A packet as Madder hands it to Carmine: source address, UDP source port, CE mark, and the bytes from the base header to
the CRC trailer (R258). -/
structure RxPkt where
  srcIp : Nat
  srcPort : Nat
  ce : Bool
  bytes : List Byte
  /-- What a packet of a parity group carries (R241, R261; log 20). -/
  par : Option ParityMsg := none
deriving DecidableEq, Repr

/-- A receive entry (R272). -/
structure RecvEntry where
  job : Nat
  laddr : Nat
  lhost : Bool
  len : Nat
deriving DecidableEq, Repr

/-- A SEND being received: its MSN, its entry, bytes so far (R272). -/
structure RecvCur where
  msn : Nat
  entry : RecvEntry
  got : Nat := 0
deriving DecidableEq, Repr

structure Conn where
  peerNode : Nat
  peerConn : Nat
  peerGen : Nat
  tc : Nat
  mtu : Nat
  ipv4 : Bool
  evtEn : Bool
  peerIp : Nat
  paths : Nat
  ccprof : Nat
  cookie : W32
  ectr : Nat
  /-- A connection that firmware opened for a parity group, 0 for none (R241). -/
  group : Nat := 0
  state : CnState := .idle
  lastSt : Option Status := none
  connectingAt : Nat := 0
  /-- Initial PSN of this end (R255). -/
  ipsn : Nat := 0
  /-- Next PSN and MSN to give (R270); the EPSN the peer last reported (R277). -/
  psn : Nat := 0
  msn : Nat := 0
  una : Nat := 0
  /-- Next PSN to send for the first time. -/
  nextSend : Nat := 0
  msgs : List TxMsg := []
  /-- Work that waits to become messages, in order (R270, R254). -/
  waiting : List Waiting := []
  unacked : Map TxPsn := []
  /-- The congestion profile in force (R291). -/
  prof : BitVec 192 := 0#192
  cwnd : Nat := 0
  rate : Nat := 0
  srtt : Nat := 0
  /-- Time of the last window decrease (R281). -/
  cutAt : Option Nat := none
  nextPath : Nat := 0
  /-- Path to the time its hold ends (R280). -/
  hold : Map Nat := []
  /-- Consecutive context-miss NACKs and the end of the pause (R285). -/
  misses : Nat := 0
  pauseEnd : Option Nat := none
  /-- Time EPSN last advanced while packets were outstanding (R279). -/
  progAt : Nat := 0
  /-- Unanswered probes, and the time of last activity (R281). -/
  probes : Nat := 0
  activeAt : Nat := 0
  /-- Next PSN to place (R274), and the peer's current MSN. -/
  epsn : Nat := 0
  staged : Map RxPkt := []
  /-- The packet at EPSN whose bytes an accelerator port has not accepted yet (R275, R310). -/
  winPkt : Option RxPkt := none
  recvq : List RecvEntry := []
  recvCur : Option RecvCur := none
  /-- MSNs of the peer that failed at step 8 (R276). -/
  failedMsn : List Nat := []
  /-- CE-marked packets since the last ACK, the source port of the last of them (R263). -/
  ceCnt : Nat := 0
  cePort : Option Nat := none
  /-- Placed packets since the last ACK, and the time of the first (R278). -/
  toAck : Nat := 0
  toAckAt : Nat := 0
  /-- TSTAMP of the packet that causes the next ACK, and of the first placed since the last (R263); an AR that waits for its ACK. -/
  lastTs : Nat := 0
  firstTs : Nat := 0
  ackDue : Bool := false
  tier : Tier := .die
  /-- The entry of the spill area that holds the context in host memory (R282). -/
  spillAt : Option Nat := none
  /-- A fetch of the context to the die is under way (R284). -/
  fetching : Bool := false
  lastUse : Nat := 0
  /-- Order in which messages were completed is kept by the works; CLOSE was sent (R254). -/
  closed : Bool := false
deriving DecidableEq, Repr

/-- A parked packet (R284). -/
structure ParkedPkt where
  conn : Nat
  pkt : RxPkt
  since : Nat
deriving DecidableEq, Repr

/-- A committed congestion profile and its staged words (R291). -/
structure CcProf where
  /-- Committed 192 bits; the default is the reset value of R291. -/
  val : BitVec 192 := 0x0010006400320014_00000064_03801000_00001000_00040000#192
  w0 : Option W64 := none
  w1 : Option W64 := none
deriving DecidableEq, Repr

structure Carm where
  conns : Map Conn := []
  /-- Packets from Madder that no step has handled, oldest first. -/
  rx : List RxPkt := []
  /-- Messages of the device's own blocks that have completed: poster and status, oldest first. -/
  posted : List (Poster × Status) := []
  parked : List ParkedPkt := []
  /-- Host spill area per registering port: host address, contexts, and the PF0 that registered it (R282). -/
  spill : Option (Nat × Nat × Nat) := none
  prof : Map CcProf := []
  /-- Device addresses, set by firmware (R290). -/
  ip6 : BitVec 128 := 0#128
  ip4 : W32 := 0#32
  /-- Source node to the time of its last stale NACK (R273). -/
  staleAt : Map Nat := []
  /-- Congestion event records for firmware: connection, kind, value (R281). -/
  ccRing : List (Nat × Nat × Nat) := []
  /-- Time of a connection's last record (R281). -/
  ccAt : Map Nat := []
  /-- Contexts by recency for the replacement of R283: the use counter. -/
  useCtr : Nat := 0
deriving DecidableEq, Repr

end Sys2Proof.Machine
end

