-- ==== Sys2Proof/Machine/Types/Host.lean ====
section
/-! DEFINITION. The state of the host interface: functions, ports, MSI-X, outstanding reads (R378 to R401, R557). -/

namespace Sys2Proof.Machine

open Sys2Proof

/-- An MSI-X table entry with its pending bit (R388). -/
structure MsixEntry where
  addr : W64 := 0#64
  data : W32 := 0#32
  /-- Mask bit, 1 after reset as PCI Express has it. -/
  mask : Bool := true
  pending : Bool := false
deriving DecidableEq, Repr

/-- A function (R401). -/
structure Fn where
  /-- A VF is present (R401). -/
  present : Bool := false
  bme : Bool := false
  msixEn : Bool := false
  fmask : Bool := false
  /-- Between t0 and t3 of R393. -/
  flr : Bool := false
  d3 : Bool := false
  /-- Completion Timeout Value (R389). -/
  cto : Nat := 0
  /-- 10-bit and 14-bit Tag Requester Enable (R383). -/
  tag10 : Bool := false
  tag14 : Bool := false
  /-- ATS Enable (R383). -/
  ats : Bool := false
  /-- FN_SHARE weight, kept across function-level reset (R397). -/
  weight : Nat := 16
  /-- Quotas by class, unlisted per R395. -/
  quota : Map W32 := []
  msix : Map MsixEntry := []
  /-- AER status: bit 0 Completion Timeout, 1 Unexpected Completion, 2 Poisoned TLP (R389, R390). Sticky (R393). -/
  aer : BitVec 3 := 0#3
deriving DecidableEq, Repr

/-- A host port (R400). -/
structure HPort where
  up : Bool := false
  width : Nat := 0
  gen : Nat := 0
  flit : Bool := false
  /-- VF Enable and NumVFs of the port's PF1 (R401). -/
  vfEnable : Bool := false
  numVfs : Nat := 0
  /-- PERST# of the port asserted (R527, R540). -/
  perst : Bool := true
deriving DecidableEq, Repr

/-- One read request of a transfer (R557). -/
structure Part where
  off : Nat
  addr : Nat
  len : Nat
  /-- none until the request is issued. -/
  tag : Option Nat := none
  /-- When it was issued (R389). -/
  sent : Nat := 0
  /-- none while outstanding; the data, or none inside for a failure. -/
  done : Option (Option (List Byte)) := none
deriving DecidableEq, Repr

/-- A transfer from host memory (R557). -/
structure Xfer where
  fn : Nat
  work : Work
  parts : List Part
  /-- Bus Master Enable was cleared: its completions are discarded (R391). -/
  dropped : Bool := false
deriving DecidableEq, Repr

/-- A cached address translation (R383). -/
structure AtsEntry where
  fn : Nat
  page : Nat
deriving DecidableEq, Repr

structure HostIf where
  fns : Map Fn := []
  ports : Map HPort := []
  xfers : List Xfer := []
  /-- Quarantined tags: function, tag, and the time each becomes reusable (R389). -/
  quarantine : List (Nat × Nat × Nat) := []
  ats : List AtsEntry := []
deriving DecidableEq, Repr

end Sys2Proof.Machine
end

