-- ==== Sys2Proof/Machine/Types/Madder.lean ====
section
/-! DEFINITION. The state of Madder (R338 to R354). -/

namespace Sys2Proof.Machine

open Sys2Proof

/-- A ternary rule (R344, R347). -/
structure Rule where
  value : BitVec 448 := 0#448
  mask : BitVec 448 := 0#448
  range : W64 := 0#64
  action : W64 := 0#64
  valid : Bool := false
deriving DecidableEq, Repr

/-- A received frame without FCS, with its port, its ingress timestamp in ns (R325) and the sequence of ports' arrivals. -/
structure RxFrame where
  port : Nat
  bytes : List Byte
  stamp : Int
deriving DecidableEq, Repr

/-- A frame whose flow lookup is out (R346), with its key. -/
structure Lookup where
  frame : RxFrame
  key : BitVec 448
deriving DecidableEq, Repr

/-- A token bucket: tokens in millionths at a time (R342). -/
structure Bucket where
  level : Nat := 0
  at_ : Nat := 0
  /-- Never charged, and so full. -/
  full : Bool := true
deriving DecidableEq, Repr

/-- A flow entry (R349). -/
structure FlowEntry where
  key : BitVec 384
  action : W64
  fw : Bool := false
deriving DecidableEq, Repr

structure Madder where
  rules : Map Rule := []
  /-- BUSY, ERR and VALID of MADR_RULE_STAT. -/
  busy : Bool := false
  err : Nat := 0
  statValid : Bool := false
  /-- Ingress buffers, in order of arrival (R338). -/
  ingress : List RxFrame := []
  lookups : List Lookup := []
  /-- Main and cause-6 buckets: 2 × port, plus 1 for cause 6. -/
  buckets : Map Bucket := []
  /-- log2 of the slots of the table in force, 0 before firmware has made one; entries by slot (R349). -/
  n : Nat := 0
  flows : Map FlowEntry := []
  /-- A FLOW_TABLE build: its n and the command to reply to. -/
  building : Option (Nat × Nat) := none
  /-- Frames for Saffron sessions, oldest first. -/
  toSaffron : List (Nat × RxFrame) := []
deriving DecidableEq, Repr

end Sys2Proof.Machine
end

