-- ==== Sys2Proof/Machine/Types/Net.lean ====
section
/-! DEFINITION. The state of the Ethernet ports, the laser cartridges (R318 to R337) and Weld (R355 to R377). -/

namespace Sys2Proof.Machine

open Sys2Proof

/-- An Ethernet port (R320 to R326, R336). MODE and the other configuration stand in ETH_PORT_CFG. -/
structure EthPort where
  /-- LSTATE (R336). -/
  lstate : Nat := 0
  half : Bool := false
  /-- PSTATE (R323). -/
  pstate : Nat := 0
  cause : Nat := 0
  degraded : Bool := false
  /-- Verify attempts that failed (R323). -/
  attempts : Nat := 0
  /-- The port accepts no new frames: CART_RELEASE of its engine runs (R332). -/
  closing : Bool := false
  /-- The timestamp counter in 2^−32 ns at local time `tsAt` (R324), and seconds latched (R326). -/
  ts32 : Int := 0
  tsAt : Nat := 0
  latched : Nat := 0
  /-- A retired lane of each half darkens it for good (R511). -/
  deadHalf : BitVec 2 := 0#2
deriving DecidableEq, Repr

/-- A bay with its cartridge (R318, R327 to R333, R337). -/
structure Cart where
  cstate : Nat := 0
  latch : Bool := false
  /-- The cartridge in the bay: record, and life log as it stands. -/
  data : Option CartIn := none
  /-- Emitter assigned to each half-port (R318). -/
  assign : Map Nat := []
  /-- Emitters retired (R328). -/
  retired : BitVec 12 := 0#12
  /-- Bias of each emitter, in 1/1,024 of BIAS0 (R334). -/
  bias : Map Nat := []
  /-- Powered hours (R328). -/
  chours : Nat := 0
  /-- A planned move under way: half-port and spare (R330). -/
  move : Option (Nat × Nat) := none
  /-- A release is between t0 and t1, and the command to reply to (R332). -/
  releasing : Bool := false
  cmd : Nat := 0
deriving DecidableEq, Repr

/-- A frame for Weld: bytes from destination address to the end of the data, without tags and FCS. -/
structure EFrame where
  bytes : List Byte
  cls : Nat
  /-- The command to reply to when the frame has left, 0 for none (R469). -/
  cmd : Nat := 0
  /-- An ACK or a NACK of Carmine: it goes ahead of its traffic class's data (R278). -/
  ahead : Bool := false
  /-- X-die time it was enqueued. -/
  since : Nat := 0
  /-- Counted already as held by the guard band, by the admission bucket (R367, R368). -/
  gbHeld : Bool := false
  expHeld : Bool := false
deriving DecidableEq, Repr

/-- A frame that waits at its source (R357): its port, and the number that picks its queue within the class (R356). -/
structure WaitFrame where
  port : Nat
  key : Nat
  frame : EFrame
deriving DecidableEq, Repr

/-- An egress queue, by port × 4,096 + queue (R355, R374). -/
structure EQueue where
  frames : List EFrame := []
  cfg : BitVec 64 := 0x20#64
  /-- Deficit (R359). -/
  deficit : Nat := 0
  /-- The class whose range held it last (R372). -/
  lastCls : Option Nat := none
  histDepth : Map Nat := []
  histSoj : Map Nat := []
deriving DecidableEq, Repr

/-- A committed shaper (R360 to R363). Credits are in 1/256 byte. -/
structure Shaper where
  en : Bool := false
  cir : Nat := 0
  pir : Nat := 0
  cbs : Nat := 0
  pbs : Nat := 0
  c : Int := 0
  p : Int := 0
  at_ : Nat := 0
deriving DecidableEq, Repr

/-- One entry of a gate list: INTERVAL, GATES, OTHERS (R377). -/
structure GateEntry where
  interval : Nat
  gates : BitVec 8
  others : Bool
deriving DecidableEq, Repr

/-- A gate list (R365): BASE and start T in ns of the port's counter. -/
structure GateList where
  entries : List GateEntry := []
  base : Nat := 0
  cycle : Nat := 1000000
  start : Nat := 0
deriving DecidableEq, Repr

/-- A preemptable frame that is leaving: when it began and when its last byte leaves, and when its gate closes, in 1/200 ns of local
time; and whether it has been counted as past its close (R323, R367). -/
structure Flight where
  start : Nat
  stop : Nat
  close : Option Nat
  past : Bool
deriving DecidableEq, Repr

/-- The scheduler of a port (R358, R359, R365 to R368). -/
structure WPort where
  /-- Admission bucket X in 1/256 byte, none while it has never been charged and so is full (R368). -/
  x : Option Int := none
  xAt : Nat := 0
  /-- The TC0 queue served last (R358). -/
  lastTc0 : Nat := 4095
  /-- Deficits of the classes, and the class whose turn it is (R359). -/
  classD : Map Nat := []
  curClass : Option Nat := none
  /-- The queue whose turn it is, by 2 × class, plus 1 for the peak set (R358). -/
  curQueue : Map Nat := []
  /-- The preemptable frame that leaves, or left last, while preemption is active (R323). -/
  flight : Option Flight := none
  running : GateList := {}
  change : Option GateList := none
deriving DecidableEq, Repr

structure Net where
  eth : Map EthPort := []
  carts : Map Cart := []
  /-- Serial numbers of cartridges removed without release, whose entry is still to be written (R333). -/
  removed : List Nat := []
  /-- Frames that wait at their sources, in the order in which they began waiting (R357). -/
  waiting : List WaitFrame := []
  queues : Map EQueue := []
  shapers : Map Shaper := []
  wports : Map WPort := []
deriving DecidableEq, Repr

end Sys2Proof.Machine
end

