-- ==== Sys2Proof/Machine/Types/Palette.lean ====
section
/-! DEFINITION. The state of Palette: cores, mailboxes, locks, banks, slow path and log rings (R443 to R476). -/

namespace Sys2Proof.Machine

open Sys2Proof

/-- A mailbox pair (R445 to R449, R453, R454). -/
structure Pair where
  /-- Inbound word; 0 is empty (R448). -/
  inWord : W64 := 0#64
  outWord : W64 := 0#64
  inRR : Bool := false
  outRR : Bool := false
  crossed : Bool := false
  vector : Nat := 0
  /-- PORT; none is the reset value k mod 2 (R447). -/
  port : Option Bool := none
  en : Bool := false
  /-- MBOX_REFUSED and MBOX_RRCNT, 32-bit SC (R445). -/
  refused : Nat := 0
  rrcnt : Nat := 0
  /-- Command window: bits [51:12] of a host address, none until registered (R454). -/
  window : Option Nat := none
  /-- Replies held while OUT_FULL is 1, oldest first (R453). -/
  held : List W64 := []
deriving DecidableEq, Repr

/-- A command that firmware has consumed and not replied to: the pair, the word, and what it waits for (R456). -/
structure Cmd where
  id : Nat
  pair : MboxId
  word : W64
  /-- The window in force when it was consumed (R454). -/
  window : Nat
  /-- The sender (R449). -/
  fn : Nat
  /-- The reply is discarded (R460). -/
  noReply : Bool := false
deriving DecidableEq, Repr

/-- A word consumed while the core of its duty restarts; it waits in firmware's queue (R462). -/
structure QCmd where
  pair : MboxId
  word : W64
deriving DecidableEq, Repr

/-- A Palette core (R461, R475). -/
structure PCore where
  cstate : Nat := 1
  lastCause : Nat := 0
  /-- When the restart in progress began, t1 of R461. -/
  since : Nat := 0
  /-- Times of restarts since the last activation, newest first (R464). -/
  restartTimes : List Nat := []
deriving DecidableEq, Repr

/-- One boot bank (R465, R476). -/
structure Bank where
  /-- Bytes written to the bank; the others are those of the image it was delivered with, and 0 in a bank without one. -/
  image : Map Byte := []
  /-- The delivered image below what was written (R555). -/
  delivered : Option Nat := none
  verified : Bool := false
  release : Nat := 0
  svn : Nat := 0
  /-- State versions: written by the image, and the lowest it accepts (R466). -/
  stateVer : Nat := 0
  stateMin : Nat := 0
deriving DecidableEq, Repr

/-- A host ring bound to a slow-path queue (R469). -/
structure SpRing where
  base : Nat
  sizeLog2 : Nat
  vector : Nat
  port : Bool
  /-- Records written, counted without wrap. -/
  written : Nat := 0
  /-- Time of the last interrupt, and whether another is owed for records written since (R469). -/
  lastIrq : Option Nat := none
  due : Bool := false
deriving DecidableEq, Repr

/-- The bound host log ring (R472). -/
structure LogRing where
  base : Nat
  sizeLog2 : Nat
  vector : Nat
  port : Bool
  /-- SEQ of the next record to copy. -/
  next : Nat := 0
  /-- Records were copied since the last interrupt. -/
  dirty : Bool := false
deriving DecidableEq, Repr

structure Palette where
  cores : Map PCore := []
  pairs : Map Pair := []
  cmds : List Cmd := []
  nextCmd : Nat := 1
  queue : List QCmd := []
  /-- Locks: number to owner (R450). -/
  locks : Map Nat := []
  banks : Map Bank := []
  /-- BANK: the active bank (R476). -/
  active : Nat := 0
  /-- ACT and ACT_STATUS (R476). -/
  act : Nat := 0
  actStatus : Nat := 0
  /-- The FW_ACTIVATE command to reply to, 0 for none (R466, R467). -/
  actCmd : Nat := 0
  /-- An activation was deferred by an emergency (R467). -/
  actDeferred : Bool := false
  /-- When the last activation was done (R464). -/
  activatedAt : Option Nat := none
  spRings : Map SpRing := []
  /-- Heads written to PAL_SP_HEAD (R474). -/
  spHead : Map Nat := []
  /-- Log records by SEQ, the last 65,536 (R471). -/
  log : Map (BitVec 512) := []
  logTail : Nat := 0
  logHead : Nat := 0
  logRing : Option LogRing := none
  /-- Enabled trace points (R473). -/
  trace : BitVec 256 := 0#256
deriving DecidableEq, Repr

end Sys2Proof.Machine
end

