-- ==== Sys2Proof/Machine/Types/Parity.lean ====
section
/-! DEFINITION. The state of peer parity and of optimizer programs (R228 to R250). -/

namespace Sys2Proof.Machine

open Sys2Proof

/-- State of a parity group slot (R250). -/
inductive PgState where
  | joining | normal | degraded | rebuilding | lost
deriving DecidableEq, Repr

/-- A parity group of this device (R237, R250). -/
structure PGroup where
  pgroup : Nat
  w : Nat
  p : Nat
  member : Nat
  owner : Nat
  size : Nat
  nodes : List Nat
  state : PgState := .joining
  commit : Nat := 0
  /-- The open epoch (R242). -/
  openE : Nat := 1
  /-- The PAR_EPOCH job that closes the epoch before the open one, while it is closing (R243). -/
  closing : Option Nat := none
  lost : BitVec 16 := 0#16
  /-- Parity pages dirty, with their epoch (R241). -/
  dirty : List (Nat × Nat) := []
  rebuilt : Nat := 0
  toRebuild : Nat := 0
  /-- PG_JOIN or PG_REBUILD command to reply to, 0 for none, and when it was consumed. -/
  cmd : Nat := 0
  since : Nat := 0
  /-- The parity share (R237): runs of local pages of the reserve, first page and count, in share order. -/
  share : List (Nat × Nat) := []
  /-- This device is the spare of a rebuild (R246). -/
  spare : Bool := false
  sent : Nat := 0
  applied : Nat := 0
  /-- The manifests of the other members, by member (R243). -/
  manifests : Map (List ManifestEntry) := []
  /-- The member whose rebuild runs. On a survivor: whether it has reported; on the spare: whether a report has come (R246). -/
  rebuildOf : Nat := 0
  reported : Bool := false
deriving DecidableEq, Repr

/-- A delta that has been sent and not acknowledged by every holder (R241). -/
structure Delta where
  id : Nat
  slot : Nat
  stripe : Nat
  line : Nat
  pos : Nat
  epoch : Nat
  data : List Byte
  /-- Holders that have not acknowledged, and those to which it has been posted. -/
  holders : List Nat
  posted : List Nat := []
deriving DecidableEq, Repr

/-- An optimizer program (R228). -/
structure OptProg where
  code : Nat
  len : Nat
  lib : Nat
  clmask : W64
  /-- Clusters whose scratch holds the image (R229). -/
  loaded : List Nat := []
deriving DecidableEq, Repr

/-- A running step of a user program (R230): its job, its program, its cores in core order, and for each that has ended its
status code and g2. -/
structure OptRun where
  job : Nat
  prog : Nat
  cores : List Nat
  ended : Map (Nat × Nat) := []
deriving DecidableEq, Repr

structure Parity where
  groups : Map PGroup := []
  /-- First protected page of a protected region, by region slot (R250). -/
  rprot : Map Nat := []
  deltas : List Delta := []
  nextDelta : Nat := 1
  progs : Map OptProg := []
  runs : List OptRun := []
deriving DecidableEq, Repr

end Sys2Proof.Machine
end

