-- ==== Sys2Proof/Machine/Types/Rel.lean ====
section
/-! DEFINITION. The state of Verdigris, Swatch and Sienna (R505 to R523). -/

namespace Sys2Proof.Machine

open Sys2Proof

/-- What Verdigris keeps of a region (R509, R523). -/
structure VerdRgn where
  vstate : Nat := 0
  tmax : Nat := 100
  worst : Nat := 0
  age : Nat := 4096
  /-- Sensors that have failed their reference test (R513). -/
  badSensors : Nat := 0
deriving DecidableEq, Repr

/-- A Swatch test (R513, R521): the command to reply to, 0 for none. -/
structure SwTest where
  test : Nat
  unit : Nat
  cmd : Nat := 0
deriving DecidableEq, Repr

/-- A collector (R515, R516, R519). -/
structure Collector where
  en : Bool := false
  ipv4 : Bool := false
  port : Nat := 0
  tc : Nat := 0
  dport : Nat := 0
  addr : BitVec 128 := 0#128
  odid : Nat := 0
  interval : Nat := 0
  trefresh : Nat := 0
  sets : BitVec 8 := 0#8
  rate : Nat := 0
  seq : Nat := 0
  /-- Templates are to be sent before the next records. -/
  due : Bool := false
  /-- Sampled-frame records that wait: template and bytes. -/
  samples : List (Nat × List Byte) := []
  /-- Baselines of deltas, histograms and trouble counters, by key. -/
  base : Map Nat := []
  /-- Bits that RATE still allows, and when that was so. -/
  credit : Nat := 0
  creditAt : Nat := 0
deriving DecidableEq, Repr

structure Rel where
  verd : Map VerdRgn := []
  /-- VERD_EVENT. -/
  event : BitVec 5 := 0#5
  /-- Thresholds by kind, unlisted per R506. -/
  policy : Map W64 := []
  /-- When the present 24-hour span of the CE counters began (R506). -/
  ceSpan : Nat := 0
  /-- Tests that wait or run; the first runs when `running`. -/
  tests : List SwTest := []
  running : Bool := false
  lastTest : Nat := 0
  outcome : Nat := 0
  lastUnit : Nat := 0
  sig : W64 := 0#64
  /-- When a cluster last ran the idle tests (R513). -/
  idleTest : Map Nat := []
  /-- The retirement map in boot flash: its entries, GEN, copies valid (R514). -/
  rmap : List (BitVec 128) := []
  gen : Nat := 1
  copyA : Bool := true
  copyB : Bool := true
  /-- The last guaranteed operation (R523). -/
  guardOp : Nat := 0
  collectors : Map Collector := []
  /-- K of each port (R518), and samples taken since a time, per port and 64 for the device. -/
  sampleK : Map Nat := []
  taken : Map Nat := []
  takenAt : Nat := 0
  /-- Offset that 802.1AS reports on a port, in s (R516); unlisted 37. -/
  utc : Map Nat := []
  /-- Planned retirements of units that UNIT_RETIRE asked for: unit and command. -/
  planned : List (Nat × Nat) := []
deriving DecidableEq, Repr

end Sys2Proof.Machine
end

