-- ==== Sys2Proof/Machine/Types/Saf.lean ====
section
/-! DEFINITION. The state of Saffron: storage queues, namespaces, the write buffer, the vault, backing sessions (R402 to R424). -/

namespace Sys2Proof.Machine

open Sys2Proof

/-- Where a command of a storage queue stands. -/
inductive NvPhase where
  /-- Its entry is being read from the host. -/
  | reading
  /-- Fetched and not started (R407). -/
  | fetched
  /-- Its PRP list is being read. -/
  | prp
  /-- Its data are being read from the host. -/
  | data
  /-- Waits for buffer space, the backing, durability, or an event. -/
  | running
deriving DecidableEq, Repr

/-- A command of a storage queue (R404, R407, R411). -/
structure NvCmd where
  cid : Nat
  /-- SQ head after its fetch. -/
  sqhd : Nat
  sqe : BitVec 512 := 0#512
  phase : NvPhase := .reading
  /-- Order of fetch over the device; order of start over the device, 0 before it starts (R411). -/
  seq : Nat
  start : Nat := 0
  /-- Host pieces of its data that are known, address and length, and where the rest of the PRP list lies: the bytes it still
  describes. -/
  pieces : List (Nat × Nat) := []
  listAt : Nat := 0
  listLeft : Nat := 0
  /-- Data of a read as it is put together; of a Dataset Management command its ranges. -/
  data : List Byte := []
  /-- Atomic units already in the buffer (R412). -/
  units : Nat := 0
  /-- Pages of the buffer, with their versions, whose destaging it waits for (R414, R417). -/
  waits : List (Nat × Nat) := []
  /-- Its backing commands have been made, and those of them that have not ended. -/
  asked : Bool := false
  backs : List Nat := []
  /-- A failure that a backing command or the data gave: the status field of its entry. -/
  status : Nat := 0
deriving DecidableEq, Repr

/-- A storage queue's submission side; its completion side is a completion ring (R403, R404). -/
structure SQueue where
  base : Nat
  sizeLog2 : Nat
  dbPage : Nat
  qid : Nat
  /-- Entries posted and fetched, counted without wrap (R115). -/
  tail : Nat := 0
  fetch : Nat := 0
  cmds : List NvCmd := []
deriving DecidableEq, Repr

/-- A namespace (R405, R421). -/
structure Ns where
  carmine : Bool
  lbaf : Bool
  nsze : Nat
  bufmax : Nat
  tc : Nat
  addr : BitVec 128
  ipv4 : Bool
  hdgst : Bool
  ddgst : Bool
  sess : Nat
  tport : Nat
  tnsid : Nat
  subnqn : List Byte
  hostnqn : List Byte
  /-- Functions it is attached to (R406). -/
  fns : List Nat := []
  /-- SAF_NS_DELETE waits for destaging: the command to reply to. -/
  deleting : Option Nat := none
  /-- Ready (R421). -/
  ready : Bool := false
deriving DecidableEq, Repr

/-- A 4 KiB page of the write buffer, by namespace × 2^52 + page (R409). -/
structure BufPage where
  /-- Its place in the carve-out. -/
  slot : Nat
  /-- Valid 512-byte sectors. -/
  mask : BitVec 8
  /-- Number of the write that was last put into it. -/
  ver : Nat
  /-- The version being destaged, and how many of its pieces are out. -/
  sent : Option (Nat × Nat) := none
  /-- One of those pieces has failed. -/
  bad : Bool := false
deriving DecidableEq, Repr

/-- Why a command goes to a backing target (R417, R420): destaging of a page, sectors that a read misses, a Flush, or the
setting up of a session. -/
inductive BackWhy where
  | destage (page ver : Nat)
  | read (queue seq off : Nat)
  | flush (queue seq : Nat)
  | connect
  | enable
  | poll
  | identify
deriving DecidableEq, Repr

/-- A backing command: its byte range in the namespace, and once it is sent its session and CID. -/
structure Back where
  ns : Nat
  why : BackWhy
  off : Nat := 0
  len : Nat := 0
  issued : Bool := false
  sess : Nat := 0
  cid : Nat := 0
  got : Map Byte := []
deriving DecidableEq, Repr

/-- State of an NVMe/TCP session (R420). -/
inductive SessSt where
  | closed | synSent | icSent | connecting | enabling | up
deriving DecidableEq, Repr

/-- An NVMe/TCP session over TCP (R420). Queue 0 is the admin queue, k + 1 the k-th I/O session. -/
structure Sess where
  ns : Nat
  queue : Nat
  st : SessSt := .closed
  /-- Egress port, local TCP port. -/
  port : Nat := 0
  lport : Nat := 0
  /-- Oldest unacknowledged byte, the bytes from it on, how many of them have been sent, the peer's window. Sequence numbers
  are counted without wrap. -/
  una : Nat := 0
  buf : List Byte := []
  sent : Nat := 0
  wnd : Nat := 0
  wscale : Nat := 0
  /-- Next byte expected, bytes received in order and not consumed, and bytes beyond a gap. -/
  rcv : Nat := 0
  rx : List Byte := []
  ooo : List (Nat × List Byte) := []
  /-- The peer has closed its side. -/
  fin : Bool := false
  /-- Largest segment the peer takes. -/
  mss : Nat := 536
  /-- Bytes of in-capsule data the target accepts, its alignment of data, its limit on H2CData, and the digests in use. -/
  inCap : Nat := 0
  cpda : Nat := 0
  maxh2c : Nat := 131072
  hd : Bool := false
  dd : Bool := false
  cntlid : Nat := 0xFFFF
  nextCid : Nat := 0
deriving DecidableEq, Repr

structure Saf where
  queues : Map SQueue := []
  nss : Map Ns := []
  pages : Map BufPage := []
  /-- Numbers of the next write version, fetch, and backing command. -/
  nextVer : Nat := 1
  nextSeq : Nat := 1
  nextStart : Nat := 1
  nextBack : Nat := 1
  backs : Map Back := []
  /-- Backing commands that have ended, with their NVMe status (none when the transport failed), oldest first. -/
  acks : List (Nat × Option Nat) := []
  sessions : Map Sess := []
  /-- VSTATE, hold-up energy in J, erased slot ready, flash fault (R424). -/
  vstate : Nat := 0
  energy : Nat := 0
  erased : Bool := false
  flashFault : Bool := false
  /-- Stored bytes by slot of save flash; a valid image stays until its slot is erased (R415, R416, R497). -/
  images : Map (List Byte) := []
  newest : Nat := 0
  restored : Bool := false
  /-- Fetching has stopped: a save, or an activation (R415, R419). -/
  stopped : Bool := false
  /-- Asynchronous Event Configuration, and the Namespace Attribute Changed event by function: 0 none, 1 to be reported, 2
  reported and its log page not read. -/
  aec : Map Nat := []
  events : Map Nat := []
  /-- Changed namespaces by function; error log entries by function, newest first, and their count. -/
  changed : Map (List Nat) := []
  errLog : Map (List (BitVec 512)) := []
  errCount : Map Nat := []
deriving DecidableEq, Repr

end Sys2Proof.Machine
end

