-- ==== Sys2Proof/Machine/Types/Sec.lean ====
section
/-! DEFINITION. The state of the security block: lifecycle fuses, key slots, Mordant, tamper (R477 to R504). -/

namespace Sys2Proof.Machine

open Sys2Proof

/-- A key slot (R488, R502). -/
structure KeySlot where
  world : Bool := false
  ksize : Nat := 0
  enc : Bool := false
  dec : Bool := false
  unwrap : Bool := false
  key : List Byte := []
deriving DecidableEq, Repr

structure Sec where
  /-- Lifecycle state (R480), SVN_MIN, owner slots used, their hashes, oldest first. -/
  lc : Nat := 2
  svnMin : Nat := 0
  owners : List (List Byte) := []
  /-- The erase-pending fuse (R482). -/
  erasePending : Bool := false
  /-- The valid nonce (R483). -/
  nonce : Option (BitVec 256) := none
  /-- Key slots by index. -/
  keys : Map KeySlot := []
  /-- The identity key's 48 secret bytes and the identity seed, drawn at the factory (R496, R499); none reads as delivered. -/
  idKey : Option (List Byte) := none
  idSeed : Option (List Byte) := none
  /-- The device certificate (R499); none reads as delivered. -/
  cert : Option (List Byte) := none
  /-- The vault salt (R496). -/
  salt : Option (List Byte) := none
  /-- K1 and K2 in the cipher unit of the save-flash controller (R496). -/
  vaultKeys : Option (List Byte × List Byte) := none
  /-- ENT_OK and AES engines in service (R503). -/
  entOk : Bool := false
  engines : Nat := 0
  erasing : Bool := false
  /-- Tamper cause bits and lifetime events (R504). -/
  cause : BitVec 5 := 0#5
  tcount : Nat := 0
deriving DecidableEq, Repr

end Sys2Proof.Machine
end

