-- ==== Sys2Proof/Machine/Types/Umber.lean ====
section
/-! DEFINITION. The state of Umber: start and reset (R525 to R537), the module's limits and emergencies (R542 to R553). -/

namespace Sys2Proof.Machine

open Sys2Proof

/-- Conditions of R549 that are outside their limits now. -/
structure Limits where
  therm : Bool := false
  flow : Bool := false
  inlet : Bool := false
  vin : Bool := false
  pcap : Bool := false
deriving DecidableEq, Repr

structure Umber where
  /-- UMB_BOOT (R537). -/
  phase : Nat := 0
  lastReset : Nat := 0
  rcause : Nat := 0
  warms : Nat := 0
  startMs : Nat := 0
  /-- Node ID and system size held in boot flash (R528). -/
  nodeFlash : Nat := 0xFFFF
  sizeFlash : Nat := 0
  /-- UMB_SIZE_REQ (R536). -/
  sizeLast : Nat := 0
  sizePending : Bool := false
  sizeRefused : Bool := false
  /-- UMB_EMERG (R553). -/
  lim : Limits := {}
  emerg : Bool := false
  lastShut : Nat := 0
  /-- An emergency shutdown or loss of main input runs, until the rails are off (R415, R507). -/
  shutting : Bool := false
  /-- The warm reset under way, by its LASTRESET code; its vault save has not ended (R529). -/
  warming : Option Nat := none
  /-- A START write is needed before the next fundamental reset (R550). -/
  barred : Bool := false
  /-- A START write has come since (R550). -/
  allowed : Bool := false
  /-- Umber restarts since fundamental reset, the time of the last mismatch, and a restart under way (R508). -/
  restarts : Nat := 0
  lastMismatch : Option Nat := none
  restarting : Bool := false
  /-- Operations started during the restart wait for its end, by LASTSHUT code (R508). -/
  waiting : List Nat := []
  /-- The start after a failed one of RCAUSE 4 has been tried (R533). -/
  retried : Bool := false
deriving DecidableEq, Repr

end Sys2Proof.Machine
end

