-- ==== Sys2Proof/Machine/Types/Vat.lean ====
section
/-! DEFINITION. The state of Vat: channel slots, rings, counters, triggers and jobs (R104 to R136). -/

namespace Sys2Proof.Machine

open Sys2Proof

/-- A slot of a channel class (R106). -/
structure Slot where
  /-- Current generation (R106). -/
  gen : Nat := 0
  /-- Owning function of the channel in the slot (R105). -/
  owner : Nat := 0
  /-- The slot holds a channel. -/
  live : Bool := false
  /-- A destroy of the channel is between t0 and t3 (R109). -/
  dying : Bool := false
  /-- The slot has held a channel since fundamental reset (R106). -/
  used : Bool := false
deriving DecidableEq, Repr

/-- A descriptor that Vat has fetched or taken by POST (R122, R307, R438). -/
structure Fetched where
  slot : Nat
  posted : Bool := false
  /-- The descriptor, or none while its read is outstanding, or when the read failed. -/
  desc : Option Desc := none
  /-- The host read failed (R118). -/
  failed : Bool := false
  /-- The descriptor has passed its checks at the head of its ring and waits, on FENCE or on its counter (R120, R127). -/
  waiting : Bool := false
  /-- The counter sets of INC_CTR and of the body's counter as those checks found them: first counter and generation (R120). -/
  incSet : Option (Nat × Nat) := none
  bodySet : Option (Nat × Nat) := none
  /-- Fetch order over the ring. -/
  seq : Nat := 0
deriving DecidableEq, Repr

/-- A work ring (R111). -/
structure WorkRing where
  base : Nat
  sizeLog2 : Nat
  dbPage : Nat
  cq : Nat
  tlist : W64
  /-- Entries posted, counted without wrap; the tail of R115 is this modulo the size. -/
  tail : Nat := 0
  /-- The next entry that Vat will fetch, counted without wrap (R116). -/
  fetch : Nat := 0
  /-- Fetched and posted descriptors that have not started, in ring order (R121). -/
  queue : List Fetched := []
  /-- Halted by R118. -/
  halted : Bool := false
  /-- Order number of the next descriptor taken (R121). -/
  nextSeq : Nat := 0
deriving DecidableEq, Repr

/-- An entry held in the completion shadow while Bus Master Enable is 0 (R391). -/
structure HeldEntry where
  index : Nat
  data : List Byte
  urgent : Bool := false
deriving DecidableEq, Repr

/-- A completion ring (R112, R132). -/
structure CompRing where
  base : Nat
  sizeLog2 : Nat
  dbPage : Nat
  vector : Nat
  modCount : Nat
  modTime : Nat
  /-- Entries consumed, counted without wrap (R115). -/
  head : Nat := 0
  /-- Entries written or held, counted without wrap (R116). -/
  written : Nat := 0
  /-- Reserved completion slots (R122). -/
  reserved : Nat := 0
  armed : Bool := true
  /-- Completions since the ring last interrupted or was re-armed (R132). -/
  p : Nat := 0
  /-- Time of the first of those (R132). -/
  firstAt : Option Nat := none
  /-- Held entries, oldest first (R391). -/
  held : List HeldEntry := []
  /-- The work ring that fetched last (R122). -/
  lastFetch : Nat := 0
deriving DecidableEq, Repr

/-- A parked or fired trigger entry (R131). -/
structure Parked where
  ring : Nat
  ringGen : Nat
  item : Fetched
  trigTag : Nat
  trigCount : Nat
deriving DecidableEq, Repr

/-- A trigger list (R130). -/
structure TrigList where
  tagsLog2 : Nat
  entries : Nat
  /-- Tallies by tag, unlisted 0. -/
  tally : Map W64 := []
  /-- Parked entries in post order. -/
  parked : List Parked := []
deriving DecidableEq, Repr

/-- Where a job stands. -/
inductive JPhase where
  /-- Started by Vat; its operation has not acted yet. -/
  | started
  /-- Waiting for a unit's queue, in Vat (R133, R175). -/
  | queued
  /-- Accepted by a unit and not started (R175). -/
  | accepted
  /-- Reading sources outside the device before it can act. -/
  | gathering
  /-- Running: its operation has acted; the chapter's done event completes it. -/
  | running
  /-- Held by its class's own ordering (R195, R215). -/
  | held
  /-- Done but for window writes that the partner has not acknowledged (R123, R310). -/
  | ending
deriving DecidableEq, Repr

/-- A descriptor that has started and not completed (R121). -/
structure Job where
  ring : Nat
  ringGen : Nat
  fn : Nat
  slot : Nat
  posted : Bool
  seq : Nat
  desc : Desc
  phase : JPhase := .started
  /-- The counter sets of INC_CTR and of the body's counter when the descriptor was checked (R120). -/
  incSet : Option (Nat × Nat) := none
  bodySet : Option (Nat × Nat) := none
  /-- The unit that has it: a cluster, for codecs and engines. -/
  unit : Option Nat := none
  status : Status := .success
  detail : Nat := 0
  result : Nat := 0
  /-- A job that a core started: the core, and the scratch offset of its status slot (R176). -/
  core : Option (Nat × Nat) := none
  /-- The core's cluster is firmware's, or of the secure world. -/
  firmware : Bool := false
  secure : Bool := false
deriving DecidableEq, Repr

/-- The ring number of jobs that no work ring posted. -/
def noRing : Nat := 2 ^ 24

/-- A completed item that waits for a completion slot it does not hold yet (R109, R131). -/
structure LateDone where
  ring : Nat
  ringGen : Nat
  cq : Nat
  slot : Nat
  posted : Bool
  desc : Desc
  status : Status
  /-- The channel whose destroy it belongs to: class × 2^24 + index. -/
  chan : Nat := 0
deriving DecidableEq, Repr

/-- A destroy between t1 and t3 (R109): class, index, and the command to reply to (0 for a sweep). -/
structure Dying where
  cls : Nat
  index : Nat
  owner : Nat
  cmd : Nat
  /-- The destroy belongs to a function-level reset: completions are discarded (R393). -/
  sweep : Bool := false
deriving DecidableEq, Repr

structure Vat where
  /-- Slots by class × 2^24 + index (R104, R106). -/
  slots : Map Slot := []
  /-- Freed slots of a class in the order their destroys reached t3 (R106). -/
  freed : Map (List Nat) := []
  work : Map WorkRing := []
  comp : Map CompRing := []
  /-- Counter sets: first counter to count (R129). -/
  sets : Map Nat := []
  trig : Map TrigList := []
  /-- Event counters, unlisted 0 (R128). -/
  ctr : Map W64 := []
  jobs : Map Job := []
  nextJob : Nat := 1
  /-- Fired entries that wait for a completion slot, oldest first (R131). -/
  fired : List Parked := []
  /-- Aborted parked entries that wait for a completion slot (R109). -/
  late : List LateDone := []
  dying : List Dying := []
deriving DecidableEq, Repr

end Sys2Proof.Machine
end

