-- ==== Sys2Proof/Machine/Types/Woad.lean ====
section
/-! DEFINITION. The state of Woad (R183 to R204) and of Blend (R205 to R227). -/

namespace Sys2Proof.Machine

open Sys2Proof

/-- A rank of an expert-parallel group (R186). -/
structure WRank where
  conn : W64
  xconn : W64
  rkey : W32
  node : Nat
deriving DecidableEq, Repr

/-- An expert (R187). -/
structure WExpert where
  dest : Nat
  rank : Nat
  cap : Nat
  notify : Nat
  ctr : Nat
  tgen : Nat
  ttag : Nat
deriving DecidableEq, Repr

/-- A configuration in force: the record, the expert map and the rank table (R183, R185). -/
structure WCfg where
  rec_ : BitVec 1024
  experts : List WExpert
  ranks : List WRank
deriving DecidableEq, Repr

/-- A job of a dispatch queue from DISPATCH to the end of its COMBINE (R195, R199). -/
structure WJob where
  n : Nat
  cfg : WCfg
  /-- The DISPATCH descriptor's job, until it completes. -/
  job : Option Nat
  tokens : Nat
  route : Nat
  counts : Nat
  logits : Nat
  src : Nat
  /-- Refused at t0 (R195). -/
  refused : Option Status := none
  /-- t4 is behind the job: records are sent. -/
  sent : Bool := false
  /-- DISPATCH has completed, the status it failed with, if so, and whether a connection was lost (R201). -/
  finished : Bool := false
  failed : Option Status := none
  lost : Bool := false
  /-- RET_CTR + b at t2, and the return notices awaited (R195). -/
  v : W64 := 0#64
  awaited : Nat := 0
  /-- What t5 writes, and the completion. -/
  routes : List Byte := []
  countBytes : List Byte := []
  unplaced : Nat := 0
  spilled : Nat := 0
  rerouted : Nat := 0
  status : Status := .success
  /-- Sends that are not visible yet: send number and rank (R195). -/
  sends : List (Nat × Nat) := []
  /-- The COMBINE posted for it, whether one has completed, and whether CTIMEOUT has passed (R199, R200). -/
  combine : Option Nat := none
  combined : Bool := false
  late : Bool := false
deriving DecidableEq, Repr

/-- A dispatch job queue (R183). -/
structure WQueue where
  cfg : WCfg
  next : Nat := 0
  jobs : List WJob := []
deriving DecidableEq, Repr

/-- A RETURN that waits for its writes (R198). -/
structure WReturn where
  job : Nat
  sends : List (Nat × Nat)
  rows : Nat
  status : Status
  detail : Nat
deriving DecidableEq, Repr

/-- A notice of an own expert (R187): the function, the work whose writes it follows, NOTIFY, CTR, TGEN and TTAG. -/
structure WNote where
  fn : Nat
  work : Work
  notify : Nat
  ctr : Nat
  tgen : Nat
  ttag : Nat
deriving DecidableEq, Repr

structure Woad where
  queues : Map WQueue := []
  returns : List WReturn := []
  nextSend : Nat := 1
  /-- Notices of own experts whose count records are not visible yet (R187, R195). -/
  notes : List WNote := []
  /-- The configuration that a RETURN was accepted under, by job (R188). -/
  retCfg : Map WCfg := []
  /-- Routes placed within the last 1 ms: time and number (R204). -/
  recent : List (Nat × Nat) := []
deriving DecidableEq, Repr

/-- A member of a reduction group (R207). -/
structure BMember where
  conn : W64
  xconn : W64
  stage : Nat
  skey : W32
  node : Nat
deriving DecidableEq, Repr

/-- A configuration in force (R205, R206). -/
structure BCfg where
  rec_ : BitVec 1024
  members : List BMember
deriving DecidableEq, Repr

/-- An operation of a group (R215). -/
structure BOp where
  j : Nat
  job : Nat
  opc : Nat
  n : Nat
  /-- It has passed t2, and the residual bank it reads. -/
  started : Bool := false
  beta : Nat := 0
  /-- Segments that have arrived, in order: phase, slot index, segment (R216). -/
  got : List (Nat × Nat × Nat) := []
  /-- Segments added and encoded: phase and segment. Segments sent on: phase and segment. -/
  added : List (Nat × Nat) := []
  passed : List (Nat × Nat) := []
  /-- Blocks of the partial sum, and of the owned shard, encoded; an empty list is absent (R218). -/
  part : Map (List Byte) := []
  own : Map (List Byte) := []
  skipped : Nat := 0
  pois : Bool := false
  malf : Bool := false
  sat : Bool := false
  /-- DST is written; it is not visible yet in accelerator memory. -/
  written : Bool := false
deriving DecidableEq, Repr

/-- A reduction group (R205, R227). -/
structure BGroup where
  cfg : BCfg
  next : Nat := 0
  broken : Bool := false
  failed : Nat := 0
  bank : Nat := 0
  ops : List BOp := []
  /-- Release notices that have arrived: rank and operation. -/
  released : List (Nat × Nat) := []
  /-- Segment notices of operations not posted yet. -/
  early : List (BitVec 256) := []
  /-- Aborts that have arrived: operation, and the rank named (R223). -/
  aborts : Map Nat := []
deriving DecidableEq, Repr

structure Blend where
  groups : Map BGroup := []
  /-- Block terms added within the last 1 ms: time and number (R226). -/
  recent : List (Nat × Nat) := []
deriving DecidableEq, Repr

end Sys2Proof.Machine
end

