-- ==== Sys2Proof/Machine/State.lean ====
section
/-! DEFINITION. The state of the device, its reset value, and the ways a step can stop. -/

namespace Sys2Proof.Machine

open Sys2Proof

/-- Faults. There is none: the manual gives every command an effect, a status or an exception, so no step of this model ends
in a fault (safe). -/
inductive Fault where
deriving DecidableEq, Repr

/-- Refusals. -/
inductive Refusal where
  /-- Answered by `exec` for a command whose meaning is not written; safe. -/
  | notModelled (mnemonic : String)
deriving DecidableEq, Repr

/-- Everything the manual gives the machine, and the queue of waiting commands. A field's default is its value after
fundamental reset. -/
structure State where
  /-- Commands that wait, first in, first out. -/
  pending : List Instr := []
  /-- Draws made from the free values of Config: the model's own counter. -/
  freeCtr : Nat := 0
  /-- What has left the device, newest first: the model's own record. -/
  out : List Output := []
  /-- Registers that hold what was written or counted, by BAR0 offset; unlisted is the reset value (R7). -/
  regs : Map Nat := []
  lake : Lake := {}
  vat : Vat := {}
  host : HostIf := {}
  pal : Palette := {}
  fab : Fabric := {}
  ap : Aps := {}
  carm : Carm := {}
  par : Parity := {}
  sec : Sec := {}
  umb : Umber := {}
  net : Net := {}
  woad : Woad := {}
  blend : Blend := {}
  madr : Madder := {}
  saf : Saf := {}
  rel : Rel := {}
deriving DecidableEq, Repr

/-- The machine right after fundamental reset asserts: every register at its Reset column, nothing started (R9). -/
def State.reset : State := {}

end Sys2Proof.Machine
end

