-- ==== Sys2Proof/Machine/Ops.lean ====
section
/-! DEFINITION. The named operations every chapter uses: free draws, outputs, counters and registers (R7), units (R14 to R19),
functions and MSI-X (R388), local time (R36), the log ring (R471), trouble counters (R505) and the default entries of the
state's tables. -/

namespace Sys2Proof.Machine

open Sys2Proof

/-- The number of the next free draw. -/
def State.draw (s : State) : Nat × State := (s.freeCtr, { s with freeCtr := s.freeCtr + 1 })

/-- A draw of the entropy source, as 256 bits (R494). -/
def State.entropy (s : State) : BitVec 256 × State := (Config.entropy s.freeCtr, { s with freeCtr := s.freeCtr + 1 })

/-- A free choice among `n` alternatives. -/
def State.choose (s : State) (n : Nat) : Nat × State := (Config.freeNat s.freeCtr % n, { s with freeCtr := s.freeCtr + 1 })

def State.emit (s : State) (o : Output) : State := { s with out := o :: s.out }

/-- Entries of the tables, at their defaults where unlisted. -/
def State.stack (s : State) (i : Nat) : Stack := mgetD s.lake.stk i {}
def State.fn (s : State) (f : Nat) : Fn := mgetD s.host.fns f {}
def State.hport (s : State) (h : Nat) : HPort := mgetD s.host.ports h {}
def State.pair (s : State) (k : MboxId) : Pair := mgetD s.pal.pairs k.key {}
def State.pcore (s : State) (n : Nat) : PCore := mgetD s.pal.cores n {}
def State.bank (s : State) (b : Nat) : Bank := mgetD s.pal.banks b { delivered := some b }
def State.rgn (s : State) (r : Nat) : RegionSt := mgetD s.fab.regions r {}
def State.cl (s : State) (c : Nat) : Cluster := mgetD s.fab.clusters c {}
def State.core (s : State) (i : Nat) : Core := mgetD s.fab.cores i {}
def State.port (s : State) (p : Nat) : ApPort := mgetD s.ap.ports p {}
def State.slot (s : State) (cls i : Nat) : Slot := mgetD s.vat.slots (cls * 2 ^ 24 + i) {}

def State.setStack (s : State) (i : Nat) (x : Stack) : State := { s with lake := { s.lake with stk := mset s.lake.stk i x } }
def State.setFn (s : State) (f : Nat) (x : Fn) : State := { s with host := { s.host with fns := mset s.host.fns f x } }
def State.setHport (s : State) (h : Nat) (x : HPort) : State := { s with host := { s.host with ports := mset s.host.ports h x } }
def State.setPair (s : State) (k : MboxId) (x : Pair) : State := { s with pal := { s.pal with pairs := mset s.pal.pairs k.key x } }
def State.setPcore (s : State) (n : Nat) (x : PCore) : State := { s with pal := { s.pal with cores := mset s.pal.cores n x } }
def State.setBank (s : State) (b : Nat) (x : Bank) : State := { s with pal := { s.pal with banks := mset s.pal.banks b x } }
def State.setRgn (s : State) (r : Nat) (x : RegionSt) : State := { s with fab := { s.fab with regions := mset s.fab.regions r x } }
def State.setCl (s : State) (c : Nat) (x : Cluster) : State := { s with fab := { s.fab with clusters := mset s.fab.clusters c x } }
def State.setCore (s : State) (i : Nat) (x : Core) : State := { s with fab := { s.fab with cores := mset s.fab.cores i x } }
def State.setPort (s : State) (p : Nat) (x : ApPort) : State := { s with ap := { s.ap with ports := mset s.ap.ports p x } }
def State.setSlot (s : State) (cls i : Nat) (x : Slot) : State :=
  { s with vat := { s.vat with slots := mset s.vat.slots (cls * 2 ^ 24 + i) x } }
def State.setJob (s : State) (i : Nat) (x : Job) : State := { s with vat := { s.vat with jobs := mset s.vat.jobs i x } }
def State.setWork (s : State) (i : Nat) (x : WorkRing) : State := { s with vat := { s.vat with work := mset s.vat.work i x } }
def State.setComp (s : State) (i : Nat) (x : CompRing) : State := { s with vat := { s.vat with comp := mset s.vat.comp i x } }
def State.setConn (s : State) (i : Nat) (x : Conn) : State := { s with carm := { s.carm with conns := mset s.carm.conns i x } }

/-- Whether a row of the register map holds a register at this offset. -/
def RegRow.hits (r : RegRow) (off : Nat) : Bool :=
  let d := off - r.base
  decide (r.base ≤ off) &&
    (if r.s1 = 0 then d == 0
     else decide (d / r.s1 < r.n1) &&
       (if r.s2 = 0 then d % r.s1 == 0 else decide (d % r.s1 / r.s2 < r.n2) && d % r.s1 % r.s2 == 0))

/-- Reset value of a register that holds what was written (R7, R9). The MAC addresses are those boot flash is delivered with (log 6). -/
def regReset (off : Nat) : Nat :=
  match regRows.find? (fun r => r.hits off) with
  | some r => if WELD_CLASS 0 0 ≤ off ∧ off < WELD_GCL 0 0 ∧ r.base = WELD_CLASS 0 0 then
      (let k := (off - WELD_CLASS 0 0) % 0x100 / 8
       if k = 0 then 0x1000 else 0x2001000 + k)
    else if r.base = ETH_MAC 0 then leNat (slice (Config.factory 15) (6 * ((off - r.base) / 0x100)) 6)
    else r.reset
  | none => 0

/-- The stored value of a register. -/
def State.reg (s : State) (off : Nat) : Nat := mgetD s.regs off (regReset off)
def State.setReg (s : State) (off v : Nat) : State := { s with regs := mset s.regs off v }

/-- An event count: stops at the maximum of its width (R7, SC). -/
def State.count (s : State) (off : Nat) (n : Nat := 1) (width : Nat := 64) : State :=
  s.setReg off (min (2 ^ width - 1) (mgetD s.regs off 0 + n))

/-- Local time of every region and X-die time, in ns (R36, R38; log 10). -/
def State.now (s : State) : Nat := s.fab.time

/-- A unit ID (R14). -/
def unitId (domain group index : Nat) : Nat := domain * 2048 + group * 128 + index

def unitDomain (u : Nat) : Nat := u / 2048
def unitGroup (u : Nat) : Nat := u / 128 % 16
def unitIndex (u : Nat) : Nat := u % 128

/-- The unit IDs R15 and R16 produce. -/
def unitValid (u : Nat) : Bool :=
  let d := unitDomain u
  let g := unitGroup u
  let i := unitIndex u
  if d < 16 then
    if g < 4 then decide (i ≤ 8) || i == 16 || i == 17 || (decide (32 ≤ i) && decide (i ≤ 47)) || i == 48 || i == 49
    else if g < 8 then i == 0
    else if g < 10 then decide (i < 14)
    else false
  else if d = 16 then
    if g = 2 then decide (i < 8) else if 4 ≤ g ∧ g < 8 then decide (i < 66) else if g = 13 then decide (i < 32) else i == 0
  else if d = 17 then
    if 4 ≤ g ∧ g < 8 then decide (i < 66) else if g = 13 then decide (i < 32)
    else (g == 8 || g == 9 || g == 14 || g == 15) && i == 0
  else if d = 18 then decide (i < 44) && (decide (i < 32) || decide (32 ≤ i)) || i == 48
  else if d = 19 then decide (g < 4) && i == 0
  else if d = 20 then decide (g < 12) && decide (i < 102)
  else false

/-- The state of a unit at manufacture: in service, or a spare that stands by (R16, R39, R318). -/
def unitDefault (u : Nat) : UState :=
  let d := unitDomain u
  let g := unitGroup u
  let i := unitIndex u
  if d < 16 ∧ g < 4 ∧ i = 8 then .spare
  else if d < 16 ∧ (g = 8 ∨ g = 9) ∧ i = 13 then .spare
  else if (d = 16 ∨ d = 17) ∧ 4 ≤ g ∧ g < 8 ∧ 64 ≤ i then .spare
  else if d = 18 ∧ 40 ≤ i ∧ i ≤ 43 then .spare
  else if d = 20 ∧ 96 ≤ i then .spare
  else .inService

/-- Units that are always secure: Umber, Palette core 0 and Mordant (R27). -/
def unitSecure (u : Nat) : Bool := u == unitId 16 3 0 || u == unitId 16 2 0 || u == unitId 16 10 0

def State.unit (s : State) (u : Nat) : UnitSt := mgetD s.fab.units u { state := unitDefault u, world := unitSecure u }
def State.setUnit (s : State) (u : Nat) (x : UnitSt) : State := { s with fab := { s.fab with units := mset s.fab.units u x } }
def State.retired (s : State) (u : Nat) : Bool := decide ((s.unit u).state = .retired)

/-- The four trouble counters of a unit (R505). -/
inductive TroubleKind where
  | ce | ue | tmo | fx
deriving DecidableEq, Repr

/-- Counts trouble against a unit; each counter stops at 65,535 (R505). -/
def State.trouble (s : State) (u : Nat) (k : TroubleKind) (n : Nat := 1) : State :=
  let t := mgetD s.fab.trouble u {}
  let up (x : Nat) : Nat := min 65535 (x + n)
  let t' : Trouble := match k with
    | .ce => { t with ce := up t.ce }
    | .ue => { t with ue := up t.ue }
    | .tmo => { t with tmo := up t.tmo }
    | .fx => { t with fx := up t.fx }
  { s with fab := { s.fab with trouble := mset s.fab.trouble u t' } }

/-- The unit ID of a cluster's block, by INDEX (R15, R16). -/
def clUnit (c index : Nat) : Nat := unitId (c / 4) (c % 4) index

/-- Region of a cluster, of a core (R13, R137). -/
def clRegion (c : Nat) : Nat := c / 4
def coreCluster (i : Nat) : Nat := i / 8

/-- Size of a function's MSI-X table and doorbell BAR (R384, R378). -/
def fnIsVf (f : Nat) : Bool := decide (2 ≤ f % 2048)
def fnVectors (f : Nat) : Nat := if fnIsVf f then 64 else 2048
def fnDbPages (f : Nat) : Nat := if fnIsVf f then 256 else 65536
def fnPort (f : Nat) : Nat := f / 2048 % 2
def fnIsPf0 (f : Nat) : Bool := decide (f % 2048 = 0)

/-- PRESENT: a PF whose port has trained, or an enabled VF (R401); in recovery PF0 of host port 0 alone (R532). -/
def State.fnPresent (s : State) (f : Nat) : Bool :=
  let p := s.hport (fnPort f)
  p.up && (decide (s.umb.phase ≠ 8) || f == 0) && (if fnIsVf f then p.vfEnable && decide (f % 2048 - 1 ≤ p.numVfs) else true)

/-- The function may issue requests: Bus Master Enable 1, not in D3hot, no function-level reset in progress (R391, R393). -/
def State.master (s : State) (f : Nat) : Bool :=
  let x := s.fn f
  x.bme && !x.d3 && !x.flr

/-- Memory requests to a function's BARs reach it: not during a function-level reset, not in D3hot (R391, R393). -/
def State.barReached (s : State) (f : Nat) : Bool := s.fnPresent f && !(s.fn f).flr && !(s.fn f).d3

/-- A posted write in the name of a function that may issue requests. -/
def State.hostWrite (s : State) (f addr : Nat) (data : List Byte) : State :=
  if s.master f then s.emit (.hostWrite f addr data) else s

/-- Whether a vector's message is masked now (R388). -/
def State.masked (s : State) (f vec : Nat) : Bool :=
  let x := s.fn f
  let e := mgetD x.msix vec {}
  e.mask || x.fmask || !x.msixEn || x.d3 || !x.bme

/-- Sends the MSI-X message of a vector, or sets its pending bit when masked (R388). A vector beyond the table is counted.
During a function-level reset messages are discarded (R393). -/
def State.msix (s : State) (f vec : Nat) : State :=
  if fnVectors f ≤ vec then s.count HIF_BAD_VEC
  else
    let x := s.fn f
    let e := mgetD x.msix vec {}
    if x.flr then s
    else if s.masked f vec then s.setFn f { x with msix := mset x.msix vec { e with pending := true } }
    else s.emit (.msix f e.addr.toNat e.data.toNat)

/-- Sends every pending vector whose masks have all cleared, once, and clears its pending bit (R388). -/
def State.msixFlush (s : State) (f : Nat) : State :=
  (s.fn f).msix.foldl (fun s p =>
    if p.2.pending && !s.masked f p.1 then
      let x := s.fn f
      (s.setFn f { x with msix := mset x.msix p.1 { p.2 with pending := false } }).emit (.msix f p.2.addr.toNat p.2.data.toNat)
    else s) s

/-- A log record (R471). -/
def logRecord (time sev src event seq arg : Nat) : BitVec 512 :=
  BitVec.ofNat 512 (time % 2 ^ 64 + at_ 64 sev + at_ 72 src + at_ 80 event + at_ 96 (seq % 2 ^ 32) + at_ 128 (arg % 2 ^ 384))

/-- Copies log records to the bound host ring while it has room, `n` at most (R472; log 11). -/
def copyLog : Nat → State → State
  | 0, s => s
  | n + 1, s =>
    match s.pal.logRing with
    | none => s
    | some r =>
      let f := if r.port then 2048 else 0
      if r.next < s.pal.logTail ∧ r.next < s.pal.logHead + 2 ^ r.sizeLog2 ∧ s.master f = true then
        match mget s.pal.log (r.next % 65536) with
        | none => s
        | some rec =>
          let s1 := s.hostWrite f (r.base + 64 * (r.next % 2 ^ r.sizeLog2)) (leBytes 64 rec.toNat)
          copyLog n { s1 with pal := { s1.pal with logRing := some { r with next := r.next + 1, dirty := true } } }
      else s

/-- Writes a log record (R471). A record overwritten before it was copied is lost (R472). -/
def State.log (s : State) (sev src event arg : Nat) : State :=
  let t := s.pal.logTail
  let rec_ := logRecord s.now sev src event t arg
  let copied := match s.pal.logRing with
    | some r => r.next
    | none => 0
  let lost := decide (65536 ≤ t) && decide (copied ≤ t - 65536)
  let s1 : State := { s with pal := { s.pal with log := mset s.pal.log (t % 65536) rec_, logTail := t + 1 } }
  let s2 := if lost then s1.count PAL_LOG_LOST else s1
  let s2 := if sev = 2 ∨ sev = 3 then s2.emit (.uart rec_.toNat) else s2
  let s3 : State := match s2.pal.logRing with
    | some r => if lost then { s2 with pal := { s2.pal with logRing := some { r with next := max r.next (t - 65535) } } } else s2
    | none => s2
  copyLog 65536 s3

/-- Logs an event of R471; `src` is its writer where the manual names one (log 36). -/
def State.event (s : State) (src : Option Nat) (ev arg : Nat) : State :=
  s.log (if ev = 1 then 3 else Config.severity ev % 3) (src.getD (Config.logSource ev % 256)) ev arg

/-- A next state. -/
abbrev next (s : State) : Host.Outcome State Fault Refusal := .next s

end Sys2Proof.Machine
end

