-- ==== Sys2Proof/Machine/Lake.lean ====
section
/-! DEFINITION. Lake: lines and poison, access checks, pages and placement, regions, migration (R74 to R103, R556), and the
parity delta of a protected write (R239, R241). -/

namespace Sys2Proof.Machine

open Sys2Proof

/-- Near memory: its contents by local address (R81). An unlisted address reads as 0. -/
abbrev Memory := Map Byte

/-- The canonical form of near memory: addresses strictly rising, no entry equal to what an unlisted address reads as. -/
def Memory.wf (m : Memory) : Bool := mcanon 0#8 m

/-- One byte of near memory, by local address. -/
def memByte (m : Memory) (a : Nat) : Byte := mgetD m a 0#8

/-- Bytes of near memory. -/
def memBytes (m : Memory) (a n : Nat) : List Byte := (List.range n).map (fun i => memByte m (a + i))

/-- Writes bytes, keeping the canonical form. -/
def memWrite : Memory → Nat → List Byte → Memory
  | m, _, [] => m
  | m, a, b :: bs => memWrite (msetC 0#8 m a b) (a + 1) bs

/-- The bounds of R82. -/
def tierNEnd : Nat := 0x02FE9C000000
def carveEnd : Nat := 0x030000000000
def winBase : Nat := 0x400000000000
def winEnd : Nat := 0x800000000000
def winSize : Nat := 0x080000000000
def pageBytes : Nat := 0x200000
def tierNPages : Nat := 1570016

def inTierN (a len : Nat) : Bool := decide (a + max len 1 ≤ tierNEnd)
def inWindow (a len : Nat) : Bool := decide (winBase ≤ a) && decide (a + max len 1 ≤ winEnd)
def windowOf (a : Nat) : Nat := (a - winBase) / winSize

/-- Step 1 of R88: the whole access lies in a range of R82 that is not reserved. -/
def rangeOk (a len : Nat) : Bool := decide (a + max len 1 ≤ carveEnd) || inWindow a len

/-- The last byte of a region, plus 1. -/
def Region.stop (r : Region) : Nat := r.base + r.pages * pageBytes
def Region.covers (r : Region) (a len : Nat) : Bool := decide (r.base ≤ a) && decide (a + max len 1 ≤ r.stop)

/-- The descriptor that covers an access (R88 step 2), with its slot. -/
def regionAt (s : State) (a len : Nat) : Option (Nat × Region) := s.lake.regions.find? (fun p => p.2.covers a len)

/-- The parts of a local check of R88: the status of the first that fails. -/
def lakeCheck (s : State) (r : Req) (a len : Nat) : Option Status :=
  if !rangeOk a len then some .bounds
  else match regionAt s a len with
    | none => some .bounds
    | some (_, d) =>
      if d.world && !r.secure then some .accessDenied
      else if d.owner ≠ r.fn ∧ r.firmware = false ∧ r.secure = false then some .accessDenied
      else none

/-- The right a remote operation needs (R86). -/
inductive RemoteOp where
  | read | write | atomic
deriving DecidableEq, Repr

/-- A remote check of R88, and whether it failed at step 6. -/
def lakeCheckRemote (s : State) (op : RemoteOp) (key : W32) (a len : Nat) : Option Status × Bool :=
  if !rangeOk a len then (some .bounds, false)
  else match regionAt s a len with
    | none => (some .bounds, false)
    | some (_, d) =>
      let right := match op with
        | .read => d.rRd
        | .write => d.rWr
        | .atomic => d.rAt
      if d.world then (some .accessDenied, false)
      else if !right then (some .accessDenied, false)
      else if d.key ≠ key then (some .accessDenied, true)
      else (none, false)

/-- Counts a refused access (R88). -/
def denied (s : State) (st : Status) : State :=
  if st = .bounds ∨ st = .accessDenied then s.count LAKE_DENY else s

/-- The local address a global address names, when its node is this device (R81): otherwise the bounds status. -/
def ownAddr (s : State) (g : Nat) : Option Nat :=
  if s.fab.node ≠ 0xFFFF ∧ g / 2 ^ 48 = s.fab.node ∧ g < 2 ^ 64 then some (g % 2 ^ 48) else none

/-- A check of an own-node global address for a requester (R81, R88): the local address, or the refusing status, counted. -/
def checkGlobal (s : State) (r : Req) (g len : Nat) : State × (Nat ⊕ Status) :=
  match ownAddr s g with
  | none => (s.count LAKE_DENY, .inr .bounds)
  | some a => match lakeCheck s r a len with
    | some st => (denied s st, .inr st)
    | none => (s, .inl a)

/-- Physical pages and lines: stack, role of the die, page, and line in the page. -/
def physPage (stack die page : Nat) : Nat := (stack * 16 + die) * 4096 + page
def ppStack (pp : Nat) : Nat := pp / 65536
def ppDie (pp : Nat) : Nat := pp / 4096 % 16
def ppPage (pp : Nat) : Nat := pp % 4096
def physLine (pp line : Nat) : Nat := pp * 32768 + line

/-- The die that carries a role: the spare where it stands in (R103). -/
def carrier (k : Stack) (role : Nat) : Nat := if k.spareFor = some role then 13 else role

/-- Whether the die of a role is in service (R103). -/
def roleOn (k : Stack) (role : Nat) : Bool := k.dieOn.getLsbD (carrier k role)

/-- Whether the lines of a page of a role are read from their die: the die is in service, and a spare that takes the role
over has copied the page (R97, R98). -/
def pageOn (s : State) (stack role page : Nat) : Bool :=
  roleOn (s.stack stack) role && !s.lake.copies.any (fun c => c.stack == stack && c.die == role && decide (c.done ≤ page))

/-- The hottest die of a stack of those in service, as a 32-bit pattern; 0 before a measurement (R101). -/
def Stack.hottest (k : Stack) : W32 :=
  let ts := (k.tj.filter (fun p => k.dieOn.getLsbD p.1)).map (fun p => p.2)
  match ts with
  | [] => 0#32
  | t :: ts => ts.foldl (fun m x => if m.toInt < x.toInt then x else m) t

/-- Unit ID of a die (R15, R16). -/
def dieUnit (stack die : Nat) : Nat := unitId (stack / 2) (8 + stack % 2) die

def badOf (s : State) (pl : Nat) : Nat := mgetD s.lake.badSym pl 0
def poisoned (s : State) (pl : Nat) : Bool := mgetD s.lake.poison pl false

def setBad (s : State) (pl n : Nat) : State := { s with lake := { s.lake with badSym := msetC 0 s.lake.badSym pl n } }
def setPoison (s : State) (pl : Nat) (b : Bool) : State := { s with lake := { s.lake with poison := msetC false s.lake.poison pl b } }
def setEvent (s : State) (i : Nat) : State := { s with lake := { s.lake with event := s.lake.event ||| BitVec.ofNat 6 (2 ^ i) } }

/-- Lines an access of `len` bytes touches. -/
def lineCount (a len : Nat) : Nat := if len = 0 then 0 else (a + len - 1) / 64 - a / 64 + 1

/-- Whether the rebuild of R77 step 2 may read this line of the stripe. -/
def lineUsable (s : State) (stack role page line : Nat) : Bool :=
  let pl := physLine (physPage stack role page) line
  pageOn s stack role page && !poisoned s pl && decide (badOf s pl ≤ 1)

/-- R77 step 1 on one line: corrects a single bad symbol, writes back, counts. -/
def correctLine (s : State) (pl : Nat) : State :=
  if badOf s pl = 1 then ((setBad s pl 0).count LAKE_CE).trouble (dieUnit (ppStack (pl / 32768)) (carrier (s.stack (ppStack (pl / 32768))) (ppDie (pl / 32768)))) .ce
  else s

/-- Marks a line poisoned (R77 step 3). -/
def markPoison (s : State) (pl : Nat) : State := setEvent ((setPoison s pl true).count LAKE_POISON) 1

/-- R77 on one physical line: the state after, and whether the line is poisoned. The code corrects one bad symbol; the manual gives
it no more than the detection of two, and the model takes every larger number as detected too (DESIGN CHOICE, unsafe; log 132). The
lines of the standing spare are in no stripe, and a stack without its check line has no step 2: the other lines are not read then. -/
def resolveLine (s : State) (pl : Nat) : State × Bool :=
  let pp := pl / 32768
  let line := pl % 32768
  let stack := ppStack pp
  let role := ppDie pp
  let k := s.stack stack
  let unit := dieUnit stack (carrier k role)
  if poisoned s pl then (s, true)
  else if pageOn s stack role (ppPage pp) && decide (badOf s pl ≤ 1) then (correctLine s pl, false)
  else
    let others := (List.range 13).filter (fun r => r != role)
    let stripe := decide (role ≤ 12) && k.checkOk
    let s1 := if stripe then others.foldl (fun s r => if pageOn s stack r (ppPage pp) then correctLine s (physLine (physPage stack r (ppPage pp)) line) else s) s else s
    let s2 := s1.trouble unit .ue
    if stripe = true ∧ others.all (fun r => lineUsable s stack r (ppPage pp) line) = true then
      let s3 := setEvent (s2.count LAKE_RECON) 0
      (if pageOn s stack role (ppPage pp) then setBad s3 pl 0 else s3, false)
    else (markPoison s2 pl, true)

/-- The parity group slot of a protected region, with the slot's contents. -/
def groupOf (s : State) (pgroup : Nat) : Option (Nat × PGroup) := s.par.groups.find? (fun p => p.2.pgroup == pgroup)

/-- The region of a local address is protected, and its group is in state 2 (R247). -/
def parityRescues (s : State) (a : Nat) : Bool :=
  match regionAt s a 1 with
  | none => false
  | some (_, d) => d.prot && (match groupOf s d.pgroup with
    | some (_, g) => decide (g.state = .normal)
    | none => false)

/-- R77 on the physical line of a local address. A line that it marks poisoned in a group in state 2 is rebuilt from its stripe and
written back, unless more than P positions of the stripe are unreadable, which only the other members know: a free choice (R247;
log 12). -/
def resolveAt (s : State) (pl a : Nat) : State × Bool :=
  if poisoned s pl then (s, true)
  else match resolveLine s pl with
    | (s1, false) => (s1, false)
    | (s1, true) =>
      if !parityRescues s1 a then (s1, true)
      else
        let (i, s2) := s1.choose 2
        if i = 0 then (setBad (setPoison s2 pl false) pl 0, false) else (s2, true)

/-- R77 and R247 on a physical line, whichever local page has it. -/
def resolveAny (s : State) (pl : Nat) : State :=
  match s.lake.pageOf.find? (fun p => p.2 == pl / 32768) with
  | some p => (resolveAt s pl (p.1 * pageBytes + 64 * (pl % 32768))).1
  | none => (resolveLine s pl).1

/-- Reads one line by its local line address: resolves it by R77 and R247. -/
def readLine (s : State) (a : Nat) : State × Bool :=
  match mget s.lake.pageOf (a / pageBytes) with
  | none => (s, false)
  | some pp => resolveAt s (physLine pp (a % pageBytes / 64)) a

/-- Resolves `n` lines from line number `l`: the numbers of the poisoned ones. -/
def readLines : Nat → State → Nat → State × List Nat
  | 0, s, _ => (s, [])
  | n + 1, s, l =>
    let (s1, bad) := readLine s (64 * l)
    let (s2, ps) := readLines n s1 (l + 1)
    (s2, if bad then l :: ps else ps)

/-- Reads bytes of tier N: the bytes, and the numbers of the poisoned lines among them (R77, R78). -/
def lakeRead (s : State) (a len : Nat) : State × List Byte × List Nat :=
  let (s1, ps) := readLines (lineCount a len) s (a / 64)
  (s1, memBytes s1.lake.mem a len, ps)

/-- The stripe of a protected page, and its data position (R239). -/
def stripeOf (w d m i : Nat) : Nat × Nat :=
  let j := i % d
  (w * (i / d) + (m + w - j % w) % w, j)

/-- Sends the delta of one line of a protected region to the holders of its stripe that are not lost (R241). -/
def sendDelta (s : State) (slot : Nat) (g : PGroup) (i line : Nat) (data : List Byte) : State :=
  if data.all (fun b => decide (b = 0#8)) then s
  else if g.state = .lost then s
  else
    let d := g.w - g.p
    let (st, j) := stripeOf g.w d g.member i
    let holders := ((List.range g.p).map (fun k => (st + d + k) % g.w)).filter (fun m => !g.lost.getLsbD m)
    let id := s.par.nextDelta
    let g' := { g with sent := min (2 ^ 64 - 1) (g.sent + holders.length) }
    { s with par := { s.par with
        deltas := s.par.deltas ++ [⟨id, slot, st, line, j, g.openE, data, holders, []⟩]
        nextDelta := id + 1
        groups := mset s.par.groups slot g' } }

/-- The protected page number of a local address in a protected region (R238). -/
def protPage (s : State) (slot : Nat) (d : Region) (a : Nat) : Nat := mgetD s.par.rprot slot 0 + (a - d.base) / pageBytes

/-- The delta of a write to one line of near memory, when its region is protected (R241). -/
def lineDelta (s : State) (a : Nat) (old new : List Byte) : State :=
  match regionAt s a 1 with
  | none => s
  | some (slot, d) =>
    if !d.prot then s
    else match groupOf s d.pgroup with
      | none => s
      | some (gs, g) => sendDelta s gs g (protPage s slot d a) (a % pageBytes / 64) (List.zipWith (· ^^^ ·) old new)

/-- A region that a spare has recreated: every access to it waits until the rebuild ends (R246 t2). -/
def spareHolds (s : State) (a : Nat) : Bool :=
  match regionAt s a 1 with
  | none => false
  | some (_, d) => d.prot && (match groupOf s d.pgroup with
    | some (_, g) => g.spare && decide (g.state = .rebuilding)
    | none => false)

/-- The region whose slice holds the page of a local address is in reset: accesses wait in the credited queues in front of it (R23,
R29). They wait too in the regions of a spare (R246). -/
def pageWaits (s : State) (a : Nat) : Bool :=
  spareHolds s a || match mget s.lake.pageOf (a / pageBytes) with
  | some pp => decide ((s.rgn (ppStack pp / 2)).rstate = .resetting)
  | none => false

/-- Deltas of a group that wait before the writes behind them wait too (R241; log 133). -/
def deltaRoom : Nat := 65536

/-- A write to a protected region waits in credited queues while its group rebuilds (R246), and while the deltas that it would join
cannot leave: the bound on them is the model's (R241; log 133). -/
def groupHolds (s : State) (a : Nat) : Bool :=
  match regionAt s a 1 with
  | none => false
  | some (_, d) => d.prot && (match groupOf s d.pgroup with
    | some (gs, g) => decide (g.state = .rebuilding) || decide (deltaRoom ≤ (s.par.deltas.filter (fun x => x.slot == gs)).length)
    | none => false)

/-- An earlier write to the line still waits: accesses to one line take effect in order (R90). -/
def lineQueued (s : State) (a : Nat) : Bool := s.lake.held.any (fun h => decide (h.addr / 64 = a / 64))

/-- A write to a line has to wait. -/
def lineHeld (s : State) (a : Nat) : Bool := pageWaits s a || groupHolds s a || lineQueued s a

/-- An access of an agent that needs an answer, a read or an atomic, has to wait: for the region of one of its pages, or behind a
write to one of its lines (R23, R90). -/
def accessWaits (s : State) (a len : Nat) : Bool :=
  len != 0 && ((List.range (lineCount a len / 32768 + 2)).any (fun i => decide (a / pageBytes + i ≤ (a + len - 1) / pageBytes) && pageWaits s ((a / pageBytes + i) * pageBytes)) ||
    s.lake.held.any (fun h => decide (a / 64 ≤ h.addr / 64) && decide (h.addr / 64 ≤ (a + len - 1) / 64)))

/-- An atomic also changes its line, and so waits as a write does. -/
def atomicWaits (s : State) (a : Nat) : Bool := lineHeld s a

/-- Notes the work of the writes that have joined the queue since it had `n` entries. -/
def State.tagHeld (s : State) (n : Nat) (w : Option Work) (ctr : Option (Nat × Nat) := none) : State :=
  if s.lake.held.length = n then s
  else { s with lake := { s.lake with held := s.lake.held.take n ++ (s.lake.held.drop n).map (fun h => { h with work := w, ctr := ctr }) } }

/-- Writes bytes within one line. A write of all 64 bytes clears the poison mark; a partial write of a poisoned line is
discarded and reported (R78). A write that has to wait joins the queue. -/
def writeLine (s : State) (a : Nat) (bs : List Byte) : State × Bool :=
  if lineHeld s a then ({ s with lake := { s.lake with held := s.lake.held ++ [{ addr := a, bytes := bs }] } }, false)
  else
    let la := a / 64 * 64
    let full := decide (a % 64 = 0) && decide (bs.length = 64)
    let (s1, bad) := if full then (s, false) else readLine s la
    if bad then (s1, true)
    else
      let s2 := match mget s1.lake.pageOf (a / pageBytes) with
        | some pp => if full then setBad (setPoison s1 (physLine pp (a % pageBytes / 64)) false) (physLine pp (a % pageBytes / 64)) 0 else s1
        | none => s1
      let old := memBytes s2.lake.mem la 64
      let mem := memWrite s2.lake.mem a bs
      let s3 : State := { s2 with lake := { s2.lake with mem := mem } }
      (lineDelta s3 la old (memBytes mem la 64), false)

/-- Writes bytes of tier N line by line, `n` lines at most: how many bytes of partial writes met a poisoned line. -/
def writeLines : Nat → State → Nat → List Byte → State × Nat
  | 0, s, _, _ => (s, 0)
  | n + 1, s, a, bs =>
    if bs.isEmpty then (s, 0)
    else
      let k := 64 - a % 64
      let (s1, p1) := writeLine s a (bs.take k)
      let (s2, p2) := writeLines n s1 (a + k) (bs.drop k)
      (s2, (if p1 then (bs.take k).length else 0) + p2)

/-- Writes bytes of tier N (R76, R78): the state, and the bytes discarded at poisoned lines. -/
def lakeWrite (s : State) (a : Nat) (bs : List Byte) : State × Nat := writeLines (lineCount a bs.length) s a bs

/-- An 8-byte atomic at a line (R90): the old value, or none at a poisoned line. -/
def lakeAtomic (s : State) (a : Nat) (f : W64 → Option W64) : State × Option W64 :=
  let (s1, bs, ps) := lakeRead s a 8
  if !ps.isEmpty then (s1, none)
  else
    let old : W64 := BitVec.ofNat 64 (leNat bs)
    match f old with
    | none => (s1, some old)
    | some v => ((lakeWrite s1 a (leBytes 8 v.toNat)).1, some old)

/-- Every physical page that is not in the free pool although its die is in service. -/
def takenPages (s : State) : List Nat :=
  s.lake.pageOf.map (·.2) ++ s.lake.zeroing ++ s.lake.moves.map (·.dst)

/-- Free pages of one data die (R85). The stacks of a region that retires take no page (R512). -/
def dieFree (s : State) (taken : List Nat) (stack die : Nat) : Nat :=
  if roleOn (s.stack stack) die && decide ((s.rgn (stack / 2)).retiring = 0) then 4096 - (taken.filter (fun p => decide (p / 4096 = stack * 16 + die))).length else 0

def stackFree (s : State) (taken : List Nat) (stack : Nat) : Nat :=
  ((List.range 12).map (dieFree s taken stack)).sum

/-- Free pages of the pool: LAKE_CAP [63:32] (R85, R101). -/
def freePages (s : State) : Nat := ((List.range 32).map (stackFree s (takenPages s))).sum

/-- In-service data pages: LAKE_CAP [31:0] (R101). -/
def servicePages (s : State) : Nat :=
  ((List.range 32).map (fun k => ((List.range 12).map (fun d => if roleOn (s.stack k) d then 4096 else 0)).sum)).sum

/-- The lowest page from `p` of a die that is not taken (log 13). -/
def firstPage (taken : List Nat) (base : Nat) : Nat → Nat → Option Nat
  | 0, _ => none
  | n + 1, p => if taken.contains (base + p) then firstPage taken base n (p + 1) else some (base + p)

/-- The page Lake takes in a stack: the data die with the most free pages, the lowest-numbered of several (R87). -/
def pickInStack (s : State) (taken : List Nat) (stack : Nat) : Option Nat :=
  let best := (List.range 12).foldl (fun (b : Nat × Nat) d => let f := dieFree s taken stack d; if b.2 < f then (d, f) else b) (0, 0)
  if best.2 = 0 then none else firstPage taken (physPage stack best.1 0) 4096 0

/-- The stacks a placement allows (R87). -/
def placeAllows (place home stack : Nat) : Bool :=
  if place = 1 then stack == 2 * home || stack == 2 * home + 1
  else if place = 2 then stack / 8 == home % 4
  else true

/-- The next stack after `last` in rotation that the placement allows and that has a free page (R87). -/
def nextStack (s : State) (taken : List Nat) (allows : Nat → Bool) (last : Nat) : Option Nat :=
  ((List.range 32).map (fun i => (last + 1 + i) % 32)).find? (fun k => allows k && decide (0 < stackFree s taken k))

/-- Takes `n` pages for the local pages from `lp` on, rotating from stack `last` (R87). -/
def takePages (place home : Nat) : Nat → State → List Nat → Nat → Nat → Option (State × Nat)
  | 0, s, _, _, last => some (s, last)
  | n + 1, s, taken, lp, last =>
    match nextStack s taken (placeAllows place home) last with
    | none => none
    | some k => match pickInStack s taken k with
      | none => none
      | some pp => takePages place home n { s with lake := { s.lake with pageOf := mset s.lake.pageOf lp pp } } (pp :: taken) (lp + 1) k

/-- The stack before the one that receives page 0: Lake's own rotation under PLACE 0, and the lowest stack of the placement
otherwise (R87; log 13). -/
def startStack (s : State) (place home : Nat) : Nat :=
  if place = 1 then (2 * home + 31) % 32 else if place = 2 then (8 * (home % 4) + 31) % 32 else s.lake.lastStack

/-- Allocates physical pages for a run of local pages, or none when they are too few (R84). -/
def allocPages (s : State) (place home n lp : Nat) : Option State :=
  match takePages place home n s (takenPages s) lp (startStack s place home) with
  | none => none
  | some (s1, last) => some (if place = 0 then { s1 with lake := { s1.lake with lastStack := last } } else s1)

/-- The runs of local pages that are taken in the tier N region range: first page and count. -/
def localRuns (s : State) : List (Nat × Nat) :=
  (s.lake.regions.filter (fun p => decide (p.2.base < tierNEnd))).map (fun p => (p.2.base / pageBytes, p.2.pages)) ++
    (s.lake.dying.filter (fun p => decide (p.2.base < tierNEnd))).map (fun p => (p.2.base / pageBytes, p.2.pages)) ++
    (s.lake.fw.map (fun f => (f.base / pageBytes, f.pages)))

/-- The lowest free contiguous run of `n` local pages (R84; log 13). -/
def findLocal (s : State) (n : Nat) : Option Nat :=
  let runs := localRuns s
  let fits (b : Nat) : Bool := decide (b + n ≤ tierNPages) && runs.all (fun r => decide (b + n ≤ r.1) || decide (r.1 + r.2 ≤ b))
  let cands := (0 :: runs.map (fun r => r.1 + r.2)).filter fits
  cands.foldl (fun (m : Option Nat) b => match m with
    | none => some b
    | some x => some (min x b)) none

/-- Takes a region of firmware's own from the pool (R96). The manual calls these, and the reserve of R95, memory regions that firmware
owns and gives them no channel: they have no slot and LAKE_RD does not show them (DESIGN CHOICE, unsafe; log 134). -/
def takeFwRegion (s : State) (kind : FwKind) (n : Nat) : Option State :=
  match findLocal s n with
  | none => none
  | some lp => match allocPages s 0 0 n lp with
    | none => none
    | some s1 => some { s1 with lake := { s1.lake with fw := s1.lake.fw ++ [⟨kind, lp * pageBytes, n, false⟩] } }

/-- Clears the contents of a run of local bytes. -/
def memClear (m : Memory) (a n : Nat) : Memory := m.filter (fun p => decide (p.1 < a) || decide (a + n ≤ p.1))

/-- Frees a run of local pages: contents go, and each page waits to be zeroed (R85). A page on the move frees its target
as well. -/
def releasePages (s : State) (lp n : Nat) : State :=
  let mine (p : Nat) : Bool := decide (lp ≤ p) && decide (p < lp + n)
  let pages := (s.lake.pageOf.filter (fun p => mine p.1)).map (·.2)
  let dsts := (s.lake.moves.filter (fun m => mine m.page)).map (·.dst)
  let alive := pages.filter (fun pp => roleOn (s.stack (ppStack pp)) (ppDie pp))
  { s with lake := { s.lake with
      mem := memClear s.lake.mem (lp * pageBytes) (n * pageBytes)
      pageOf := s.lake.pageOf.filter (fun p => !mine p.1)
      moves := s.lake.moves.filter (fun m => !mine m.page)
      degraded := s.lake.degraded.filter (fun d => !mine d.1)
      zeroing := s.lake.zeroing ++ alive ++ dsts } }

/-- Returns a region of firmware's own to the pool (R96). -/
def dropFwRegion (s : State) (kind : FwKind) : State :=
  match s.lake.fw.find? (fun f => decide (f.kind = kind)) with
  | none => s
  | some f => releasePages { s with lake := { s.lake with fw := s.lake.fw.filter (fun g => decide (g.kind ≠ kind)) } } (f.base / pageBytes) f.pages

/-- Pages of a stack served by rebuild: DEGRADED (R99, R103). -/
def degradedPages (s : State) (stack : Nat) : List Nat :=
  let lostPage (lp : Nat) : Bool := match mget s.lake.pageOf lp with
    | some pp => decide (ppStack pp = stack) && !roleOn (s.stack stack) (ppDie pp)
    | none => false
  ((s.lake.moves.map (·.page)).filter lostPage ++ (s.lake.degraded.map (·.1)).filter lostPage).eraseDups

/-- Any stack has DEGRADED above zero (R99). -/
def anyDegraded (s : State) : Bool := (List.range 32).any (fun k => !(degradedPages s k).isEmpty)

/-- Marks every line of a physical page poisoned (R97, R99). -/
def poisonPage (s : State) (pp : Nat) : State := (List.range 32768).foldl (fun s l => markPoison s (physLine pp l)) s

/-- The group of R556 a local page belongs to. -/
def moveClass (s : State) (lp : Nat) : Nat :=
  let a := lp * pageBytes
  match s.lake.fw.find? (fun f => decide (f.base ≤ a) && decide (a < f.base + f.pages * pageBytes)) with
  | some f => match f.kind with
    | .carveOut => 0
    | .reserve => 3
    | _ => 1
  | none => match regionAt s a 1 with
    | some (_, d) => if d.prot then 4 else 2
    | none => 2

/-- The allocated local pages on a role of a stack, in the order of R556. -/
def pagesOnDie (s : State) (stack role : Nat) : List Nat :=
  let ps := (s.lake.pageOf.filter (fun p => decide (p.2 / 4096 = stack * 16 + role))).map (·.1)
  ((List.range 5).map (fun c => ps.filter (fun p => decide (moveClass s p = c)))).flatten

/-- PLACE and HOME of the region of a local page (R556). -/
def placeOf (s : State) (lp : Nat) : Nat × Nat :=
  match regionAt s (lp * pageBytes) 1 with
  | some (_, d) => (d.place, d.home)
  | none => (0, 0)

/-- Where R556 puts a page, and the state with the rotation stepped: a stack its placement allows, in the rotation of the pages moved
under that placement (R87; where it starts, log 13), else any stack in the rotation of PLACE 0. -/
def moveTarget (s : State) (lp : Nat) : Option (Nat × State) :=
  let t := takenPages s
  let (pl, home) := placeOf s lp
  let from_ := if pl = 0 then s.lake.lastStack else mgetD s.lake.lastMoved (16 * pl + home) (startStack s pl home)
  let free (s : State) (k : Nat) : State := { s with lake := { s.lake with lastStack := k } }
  match nextStack s t (placeAllows pl home) from_ with
  | some k => (pickInStack s t k).map (fun pp => (pp, if pl = 0 then free s k else { s with lake := { s.lake with lastMoved := mset s.lake.lastMoved (16 * pl + home) k } }))
  | none => match nextStack s t (fun _ => true) s.lake.lastStack with
    | some k => (pickInStack s t k).map (fun pp => (pp, free s k))
    | none => none

/-- The stack that a local page lies on. -/
def pageStack (s : State) (lp : Nat) : Nat := ppStack (mgetD s.lake.pageOf lp 0)

/-- Starts moving pages, in order, while the pool has pages; the rest wait for pages, which is a shortfall (R97, R99, R512). -/
def startMoves (why : MoveWhy) : List Nat → State → State
  | [], s => s
  | lp :: lps, s =>
    match moveTarget s lp with
    | some (pp, s1) => startMoves why lps { s1 with lake := { s1.lake with
        moves := s1.lake.moves ++ [⟨lp, pp, why⟩], migStack := pageStack s1 lp } }
    | none => setEvent { s with lake := { s.lake with degraded := s.lake.degraded ++ (lp :: lps).map (fun p => (p, pageStack s p)) } } 3

/-- Why a page that waits for a free one moves: its stack's region retires, or its die is lost. -/
def degradedWhy (s : State) (k : Nat) : MoveWhy := if (s.rgn (k / 2)).retiring = 0 then .dieLoss k else .regionRetire (k / 2)

/-- Lake moves pages that wait as soon as pages are freed (R99). -/
def retryDegraded (s : State) : State :=
  match s.lake.degraded with
  | [] => s
  | (lp, k) :: ds => match moveTarget s lp with
    | none => s
    | some (pp, s1) => { s1 with lake := { s1.lake with
        moves := s1.lake.moves ++ [⟨lp, pp, degradedWhy s1 k⟩], degraded := ds, migStack := k } }

/-- Moves whose target can no longer be used look for another (R97, R99). A page of a rebalance that finds none stays where it is. -/
def redirectMoves (s : State) (bad : Nat → Bool) : State :=
  let hit := s.lake.moves.filter (fun m => bad m.dst)
  let s1 : State := { s with lake := { s.lake with moves := s.lake.moves.filter (fun m => !bad m.dst) } }
  hit.foldl (fun s m => match m.why, moveTarget s m.page with
    | .rebalance _, none => s
    | _, _ => startMoves m.why [m.page] s) s1

/-- Marks every line of a list of local pages poisoned. -/
def poisonPages (s : State) (lps : List Nat) : State :=
  lps.foldl (fun s lp => match mget s.lake.pageOf lp with
    | some pp => poisonPage s pp
    | none => s) s

/-- A role is lost with no spare (R97, R99): degraded lines of the stack become poisoned, the die's pages move, and those
for which no page is free stay degraded. -/
def loseRole (s : State) (stack role : Nat) : State :=
  let k := s.stack stack
  if role = 12 then setEvent (s.setStack stack { k with checkOk := false }) 5
  else
    let lps := pagesOnDie s stack role
    let before := (degradedPages s stack).filter (fun p => !lps.contains p)
    let s1 := poisonPages s (before ++ (if k.checkOk then [] else lps))
    let moving := s1.lake.moves.map (·.page) ++ s1.lake.degraded.map (·.1)
    let s2 := redirectMoves (s1.setStack stack { k with lost := min 12 (k.lost + 1) }) (fun pp => decide (pp / 4096 = stack * 16 + role))
    startMoves (.dieLoss stack) (lps.filter (fun p => !moving.contains p)) s2

/-- A die is retired (R97): the spare takes its role, or its role is lost. -/
def retireDie (s : State) (stack die : Nat) : State :=
  let k := s.stack stack
  if !k.dieOn.getLsbD die then s
  else
    let u := dieUnit stack die
    let k1 := { k with dieOn := k.dieOn &&& ~~~(BitVec.ofNat 14 (2 ^ die)), tref := mset k.tref die 0 }
    let s1 := setEvent ((s.setStack stack k1).setUnit u { s.unit u with state := .retired }) 2
    if die = 13 then
      match k.spareFor with
      | none => s1.setStack stack { k1 with spareReady := false }
      | some role =>
        let s2 := s1.setStack stack { k1 with spareFor := none, dieOn := k1.dieOn &&& ~~~(BitVec.ofNat 14 (2 ^ role)) }
        loseRole { s2 with lake := { s2.lake with copies := s2.lake.copies.filter (fun c => c.stack != stack) } } stack role
    else if k.spareReady then
      let s2 := s1.setStack stack { k1 with spareReady := false, spareFor := some die }
      let spare := dieUnit stack 13
      let s3 := s2.setUnit spare { s2.unit spare with state := .inService, standsFor := some u }
      { s3 with lake := { s3.lake with copies := s3.lake.copies ++ [⟨stack, die, 0⟩], migStack := stack } }
    else loseRole s1 stack die

/-- A stack goes out of service as a whole (R512, R526): its dies are retired, no spare stands in, and the events say so (R102). -/
def stackOff (s : State) (k : Nat) : State :=
  let x := s.stack k
  let s1 := (List.range 14).foldl (fun s d => s.setUnit (dieUnit k d) { s.unit (dieUnit k d) with state := .retired, standsFor := none })
    (s.setStack k { x with dieOn := 0#14, spareFor := none, spareReady := false, checkOk := false, lost := 12 })
  let s2 := setEvent { s1 with lake := { s1.lake with copies := s1.lake.copies.filter (fun c => c.stack != k) } } 2
  if x.checkOk then setEvent s2 5 else s2

/-- A page switches to its new place (R98): marks move with its lines, and lines that cannot be read are rebuilt or
poisoned by R77: those with bad symbols, and every line of a die out of service. -/
def switchPage (s : State) (m : Move) : State :=
  match mget s.lake.pageOf m.page with
  | none => s
  | some old =>
    let lines := if pageOn s (ppStack old) (ppDie old) (ppPage old) then (s.lake.badSym.filter (fun p => decide (p.1 / 32768 = old))).map (·.1)
      else (List.range 32768).map (physLine old)
    let s1 := lines.foldl resolveAny s
    let marks := (s1.lake.poison.filter (fun p => decide (p.1 / 32768 = old))).map (·.1)
    let fresh : State := { s1 with lake := { s1.lake with poison := s1.lake.poison.filter (fun p => decide (p.1 / 32768 ≠ m.dst)) } }
    let s2 := marks.foldl (fun s pl => setPoison (setPoison s pl false) (physLine m.dst (pl % 32768)) true) fresh
    { s2 with lake := { s2.lake with
        badSym := s2.lake.badSym.filter (fun p => decide (p.1 / 32768 ≠ old) && decide (p.1 / 32768 ≠ m.dst))
        pageOf := mset s2.lake.pageOf m.page m.dst
        zeroing := if roleOn (s2.stack (ppStack old)) (ppDie old) then s2.lake.zeroing ++ [old] else s2.lake.zeroing } }

/-- A non-secure or secure region key (R93): a zero KEY with a remote right draws one. -/
def drawKey (s : State) (key : W32) (remote : Bool) : W32 × State :=
  if remote && key == 0#32 then
    let (e, s1) := s.entropy
    let k : W32 := BitVec.ofNat 32 e.toNat
    (if k = 0#32 then 1#32 else k, s1)
  else (key, s)

/-- Reserve pages of R95 for a system size. -/
def parityMin (size : Nat) : Nat := if size ≤ 16 then 0 else if size ≤ 1024 then 1 else if size ≤ 8192 then 2 else 3
def reservePages (size : Nat) : Nat := 98304 * parityMin size

end Sys2Proof.Machine
end

