-- ==== Sys2Proof/Machine/Mem.lean ====
section
/-! DEFINITION. Memory as engines and cores reach it: counters and watches (R128, R151), scratch (R138, R144), accelerator
windows as transactions (R304, R305, R308, R312), and one read and one write over all of them. -/

namespace Sys2Proof.Machine

open Sys2Proof

/-- A counter's value (R128). -/
def State.ctr (s : State) (c : Nat) : W64 := mgetD s.vat.ctr c 0#64

/-- The condition of a count-wait and of a watch: `(C − H) mod 2^64 < 2^63` (R127, R151). -/
def ctrReached (c h : W64) : Bool := decide ((c - h).toNat < 2 ^ 63)

/-- Fires the armed watches of one core that a counter now meets (R151, R437). -/
def fireWatches (ctr : Nat) (v : W64) (k : Core) : Core :=
  (List.range 4).foldl (fun k j =>
    let w := mgetD k.watch j {}
    if w.st = .armed ∧ w.ctr = ctr ∧ ctrReached v w.thr = true then
      { k with watch := mset k.watch j { w with st := .fired }, evt := k.evt ||| BitVec.ofNat 32 (2 ^ j) }
    else k) k

/-- Sets a counter; the watches on it are tested (R128, R151). -/
def State.putCtr (s : State) (c : Nat) (v : W64) : State :=
  { s with
    vat := { s.vat with ctr := msetC 0#64 s.vat.ctr c v }
    fab := { s.fab with cores := mmap s.fab.cores (fun _ k => fireWatches c v k) } }

/-- Adds to a counter, wrapping (R128). -/
def State.addCtr (s : State) (c : Nat) (n : W64) : State := s.putCtr c (s.ctr c + n)

/-- The set that holds a counter, when a live channel of class 0xA does (R129): its first counter. -/
def ctrSetOf (s : State) (c : Nat) : Option Nat :=
  (s.vat.sets.find? (fun p => decide (p.1 ≤ c) && decide (c < p.1 + p.2))).map (·.1)

/-- Whether a counter lies in a counter set owned by a function (R120). -/
def ownsCtr (s : State) (f c : Nat) : Bool :=
  match ctrSetOf s c with
  | none => false
  | some i => let sl := s.slot 0xA i; sl.live && sl.owner == f

/-- The set of a counter with its generation, when a function owns it: what a later use of the counter must still find (R109, R120). -/
def ctrSetGen (s : State) (f c : Nat) : Option (Nat × Nat) :=
  match ctrSetOf s c with
  | none => none
  | some i => let sl := s.slot 0xA i; if sl.live && sl.owner == f then some (i, sl.gen) else none

/-- One waiting write goes, or waits on. A partial write that meets a poisoned line is discarded, and its work is told (R78). -/
def releaseOne (s : State) (h : Held) : State :=
  let (s1, bad) := writeLine s h.addr h.bytes
  let s2 := s1.tagHeld s.lake.held.length h.work h.ctr
  match bad, h.work.bind Work.key with
  | true, some k => { s2 with ap := { s2.ap with failed := mset s2.ap.failed k .poisonedData } }
  | _, _ => match h.ctr with
    | some (c, fn) => if s2.lake.held.length = s.lake.held.length ∧ ownsCtr s2 fn c = true then s2.addCtr c 1#64 else s2
    | none => s2

/-- The waiting writes whose reason has passed go, each in its turn; what still waits stays in order (R90). -/
def releaseHeld (s : State) : State := s.lake.held.foldl releaseOne { s with lake := { s.lake with held := [] } }

/-- Scratch size of a cluster in bytes (R139). -/
def scratchSize (k : Cluster) : Nat := popcount 16 k.banks.toNat * 0x40000

def scrByte (s : State) (c off : Nat) : Byte := mgetD s.fab.scratch (c * 2 ^ 22 + off) 0#8
def scrBytes (s : State) (c off n : Nat) : List Byte := (List.range n).map (fun i => scrByte s c (off + i))

/-- Writes scratch; the words written get fresh check bits (R138). -/
def scrWrite (s : State) (c off : Nat) (bs : List Byte) : State :=
  let words := (List.range (bs.length / 8 + 2)).map (fun i => c * 2 ^ 19 + off / 8 + i)
  let full := words.filter (fun w => decide (c * 2 ^ 22 + off ≤ 8 * w) && decide (8 * w + 8 ≤ c * 2 ^ 22 + off + bs.length))
  { s with fab := { s.fab with
      scratch := memWrite s.fab.scratch (c * 2 ^ 22 + off) bs
      scrBad := full.foldl (fun m w => msetC 0 m w 0) s.fab.scrBad } }

/-- Scratch bank of a word: the mapping is not visible (R138; log 14). -/
def scrBank (off : Nat) : Nat := off / 64 % 16

/-- Checks the words a scratch read touches: one bad bit is corrected and counted, more are uncorrectable and counted
(R138). Answers the offsets of the words that could not be corrected. -/
def scrResolve (s : State) (c off n : Nat) : State × List Nat :=
  (List.range (if n = 0 then 0 else (off + n - 1) / 8 - off / 8 + 1)).foldl (fun (a : State × List Nat) i =>
    let w := c * 2 ^ 19 + off / 8 + i
    let b := mgetD a.1.fab.scrBad w 0
    let u := clUnit c (32 + scrBank (8 * (off / 8 + i)))
    if b = 0 then a
    else if b = 1 then
      (((({ a.1 with fab := { a.1.fab with scrBad := msetC 0 a.1.fab.scrBad w 0 } } : State).count (OCH_CL_SCR_CE c))).trouble u .ce, a.2)
    else (((a.1.count (OCH_CL_SCR_UE c))).trouble u .ue, a.2 ++ [8 * (off / 8 + i)])) (s, [])

/-- Reads scratch: the bytes, and whether a word could not be corrected (R138). -/
def scrRead (s : State) (c off n : Nat) : State × List Byte × Bool :=
  let (s1, bad) := scrResolve s c off n
  (s1, scrBytes s1 c off n, !bad.isEmpty)

/-- Bytes of a transaction: header, data, and zeros up to the 16 × ceil(LEN / 16) bytes that every transaction occupies, those
without data too (R304, R305; log 56). -/
def txnBytes (ttype tag len status : Nat) (addr : W64) (data : List Byte) : List Byte :=
  leBytes 8 (ttype + at_ 16 tag + at_ 32 len + at_ 48 status) ++ leBytes 8 addr.toNat ++ data ++
    List.replicate (16 * cdiv len 16 - data.length) 0#8

/-- Queues a transaction on a VC of a port (R301). -/
def queueTxn (s : State) (p vc : Nat) (t : Txn) : State :=
  let x := s.port p
  s.setPort p { x with tx := mset x.tx vc (mgetD x.tx vc [] ++ [t]) }

/-- The port runs at full or half width (R317). -/
def ApPort.up (x : ApPort) : Bool := decide (x.pstate = .full) || decide (x.pstate = .half)

/-- The checks before an access to a window is sent: the port, then WINSIZE (R312). -/
def windowCheck (s : State) (a len : Nat) : Option Status :=
  let x := s.port (windowOf a)
  if !x.up then some .portError
  else if x.winsize < (a - winBase) % winSize + len then some .bounds
  else none

/-- Splits an access at 512-byte boundaries, `n` pieces at most: offset and length of each (R304). -/
def split512 : Nat → Nat → Nat → List (Nat × Nat)
  | 0, _, _ => []
  | n + 1, a, len =>
    if len = 0 then [] else
      let k := min len (512 - a % 512)
      (a, k) :: split512 n (a + k) (len - k)

def pieces512 (a len : Nat) : List (Nat × Nat) := split512 (len / 512 + 2) a len

/-- Sends a write to a window as MWR transactions on the posted or express VC (R301, R304, R311). -/
def windowWrite (s : State) (w : Option Work) (express : Bool) (a : Nat) (bs : List Byte) : State :=
  let off := (a - winBase) % winSize
  (pieces512 off bs.length).foldl (fun s p =>
    queueTxn s (windowOf a) (if express then 3 else 2)
      ⟨txnBytes 1 0 p.2 0 (BitVec.ofNat 64 p.1) ((bs.drop (p.1 - off)).take p.2), w⟩) s

/-- The lowest tag of a port that is free (R305, R308). -/
def freeTag (now : Nat) (x : ApPort) : Nat → Nat → Option Nat
  | 0, _ => none
  | n + 1, t => if x.reqs.any (fun r => r.tag == t) || x.lateTags.any (fun l => l.1 == t && decide (now < l.2)) then freeTag now x n (t + 1) else some t

/-- Sends one MRD of at most 512 bytes (R304). -/
def sendMrd (s : State) (w : Work) (a len : Nat) : Option (State × Nat) :=
  let p := windowOf a
  let x := s.port p
  match freeTag s.now x 4096 0 with
  | none => none
  | some t =>
    let s1 := s.setPort p { x with reqs := x.reqs ++ [⟨t, w, a, len, false⟩] }
    some (queueTxn s1 p 0 ⟨txnBytes 2 t len 0 (BitVec.ofNat 64 ((a - winBase) % winSize)) [], some w⟩, t)

/-- Sends the MRDs of a window read (R308), for the parts that have not come: with 4,096 requests out the rest go later. -/
def windowFetch (s : State) (w : Work) (a len : Nat) : State :=
  let have_ := (w.key.map (fun k => mgetD s.ap.got k [])).getD []
  ((pieces512 a len).filter (fun p => (List.range p.2).any (fun i => (mget have_ (p.1 + i)).isNone))).foldl (fun s p => match sendMrd s w p.1 p.2 with
    | some r => r.1
    | none => s) s

/-- A job has window reads or writes under way (R310). -/
def windowBusy (s : State) (w : Work) : Bool :=
  s.ap.ports.any (fun p => p.2.reqs.any (fun r => decide (r.work = w)) ||
    p.2.tx.any (fun q => q.2.any (fun t => decide (t.work = some w))) ||
    p.2.replay.any (fun f => f.works.contains w))

/-- Where an access goes: near memory, a window, or scratch of a cluster (R82, R144). -/
inductive Target where
  | near (a : Nat)
  | window (a : Nat)
  | scratch (c off : Nat)
deriving DecidableEq, Repr

/-- For whom a block reads and writes: the requester, the job its window traffic belongs to, the cluster whose scratch the
form 0xFFFF_0000_… names, and whether its window writes are express (R311). -/
structure Agent where
  req : Req
  work : Work
  cluster : Option Nat := none
  express : Bool := false
deriving DecidableEq, Repr

/-- A core-private address (R144, R165): a scratch offset of the own cluster or of another, or the refusing status. -/
def scratchAddr (s : State) (c ga len : Nat) : Target ⊕ Status :=
  if 0xFFFF000000000000 ≤ ga ∧ ga + len ≤ 0xFFFF000000000000 + scratchSize (s.cl c) then .inl (.scratch c (ga - 0xFFFF000000000000))
  else if 0xFFFF100000000000 ≤ ga ∧ ga < 0xFFFF100000000000 + 64 * 0x400000 then
    let t := (ga - 0xFFFF100000000000) / 0x400000
    let off := (ga - 0xFFFF100000000000) % 0x400000
    let me := s.cl c
    let k := s.cl t
    if scratchSize k < off + len then .inr .bounds
    else if t ≠ c ∧ (k.owner ≠ me.owner ∨ k.world ≠ me.world ∨ k.cstate ≠ .inService) then .inr .accessDenied
    else .inl (.scratch t off)
  else .inr .bounds

/-- Resolves an address for an agent (R81, R88, R144, R165): its target, or the refusing status. -/
def resolveAddr (s : State) (g : Agent) (ga len : Nat) : State × (Target ⊕ Status) :=
  if g.cluster.isSome ∧ 0xFFFF000000000000 ≤ ga then (s, scratchAddr s (g.cluster.getD 0) ga len)
  else match checkGlobal s g.req ga len with
    | (s1, .inr st) => (s1, .inr st)
    | (s1, .inl a) => (s1, .inl (if inWindow a len then .window a else .near a))

/-- What a read gives: bytes with the offsets, from the first byte, of the poisoned parts; a refusing status; or nothing
yet, because accelerator memory has not answered. -/
inductive ReadRes where
  | ok (bytes : List Byte) (bad : List (Nat × Nat))
  | fail (st : Status)
  | wait
deriving DecidableEq, Repr

/-- Bytes of a window that have arrived for a job or a core. -/
def gotBytes (s : State) (w : Work) (a len : Nat) : Option (List Byte) :=
  match w.key with
  | some k =>
    let m := mgetD s.ap.got k []
    let bs := (List.range len).map (fun i => mget m (a + i))
    if bs.all (·.isSome) then some (bs.map (·.getD 0#8)) else none
  | none => none

/-- Puts bytes that arrive into a table of bytes at hand. -/
def putBytes : Map Byte → Nat → List Byte → Map Byte
  | m, _, [] => m
  | m, a, b :: bs => putBytes (mset m a b) (a + 1) bs

/-- The parts of a window read that came as poisoned-data, as offsets from its first byte (R308). -/
def badParts (s : State) (w : Work) (a len : Nat) : List (Nat × Nat) :=
  match w.key with
  | some k => ((mgetD s.ap.bad k []).filter (fun p => decide (p.1 < a + len) && decide (a < p.1 + p.2))).map (fun p => (p.1 - a, p.1 + p.2 - a))
  | none => []

/-- Writes of a work that the partner has not acknowledged yet (R310), or that wait for near memory (R23). -/
def writesOut (s : State) (w : Work) : Bool :=
  s.ap.ports.any (fun p => p.2.tx.any (fun q => q.2.any (fun t => decide (t.work = some w) && t.bytes.head? != some 2#8)) ||
    p.2.replay.any (fun f => f.works.contains w)) || s.lake.held.any (fun h => decide (h.work = some w))

/-- A window read: what has arrived, the failure, or nothing yet; the first attempt sends the requests (R308, R312). -/
def windowRead (s : State) (w : Work) (a len : Nat) : State × ReadRes :=
  match gotBytes s w a len, w.key with
  | some bs, _ => (s, .ok bs (badParts s w a len))
  | none, none => (s, .wait)
  | none, some k => match mget s.ap.failed k with
    | some st => (s, .fail st)
    | none =>
      if windowBusy s w then (s, .wait)
      else match windowCheck s a len with
        | some st => (if st = .bounds then s.count LAKE_DENY else s, .fail st)
        | none => (windowFetch s w a len, .wait)

/-- The region in reset that an access to near memory waits for, if any (R23). -/
def waitsFor (s : State) (a len : Nat) : Nat :=
  match ((List.range (lineCount a len / 32768 + 2)).map (fun i => (a / pageBytes + i) * pageBytes)).find? (fun x => decide (x ≤ a + len - 1) && pageWaits s x) with
  | some x => ppStack (mgetD s.lake.pageOf (x / pageBytes) 0) / 2
  | none => 16

/-- An access waits: the work is noted with the region it waits for. One that has been failed for it (R23) gives its status. -/
def waitNear (s : State) (w : Work) (a len : Nat) : State × ReadRes :=
  match w.key.bind (mget s.ap.failed) with
  | some st => (s, .fail st)
  | none =>
    let e := (waitsFor s a len, w)
    (if s.lake.blocked.contains e then s else { s with lake := { s.lake with blocked := s.lake.blocked ++ [e] } }, .wait)

/-- Reads for an agent. A window read waits for its completions (R308), and one of near memory for a region in reset (R23). -/
def agentRead (s : State) (g : Agent) (ga len : Nat) : State × ReadRes :=
  if len = 0 then (s, .ok [] [])
  else match resolveAddr s g ga len with
    | (s1, .inr st) => (s1, .fail st)
    | (s1, .inl (.near a)) =>
      if accessWaits s1 a len then waitNear s1 g.work a len
      else
      let (s2, bs, ps) := lakeRead s1 a len
      (s2, .ok bs (ps.map (fun l => (64 * l - a, 64 * l + 64 - a))))
    | (s1, .inl (.scratch c off)) =>
      let (s2, ws) := scrResolve s1 c off len
      (s2, .ok (scrBytes s2 c off len) (ws.map (fun w => (w - off, w + 8 - off))))
    | (s1, .inl (.window a)) => windowRead s1 g.work a len

/-- Writes for an agent: a refusing status if any, and how many bytes a poisoned line made Lake discard (R78). -/
def agentWriteN (s : State) (g : Agent) (ga : Nat) (bs : List Byte) : State × Option Status × Nat :=
  if bs.isEmpty then (s, none, 0)
  else match resolveAddr s g ga bs.length with
    | (s1, .inr st) => (s1, some st, 0)
    | (s1, .inl (.near a)) => let (s2, n) := lakeWrite s1 a bs; (s2.tagHeld s1.lake.held.length (some g.work), none, n)
    | (s1, .inl (.scratch c off)) => (scrWrite s1 c off bs, none, 0)
    | (s1, .inl (.window a)) => match windowCheck s1 a bs.length with
      | some st => (if st = .bounds then s1.count LAKE_DENY else s1, some st, 0)
      | none => (windowWrite s1 (some g.work) g.express a bs, none, 0)

/-- Writes for an agent: a refusing status, or the poisoned-data status of a discarded partial write (R78). -/
def agentWrite (s : State) (g : Agent) (ga : Nat) (bs : List Byte) : State × Option Status :=
  match agentWriteN s g ga bs with
  | (s1, some st, _) => (s1, some st)
  | (s1, none, n) => (s1, if n = 0 then none else some .poisonedData)

/-- Forgets the window bytes gathered for a job or a core. -/
def dropGot (s : State) (w : Work) : State :=
  match w.key with
  | some k => { s with ap := { s.ap with got := mdel s.ap.got k, bad := mdel s.ap.bad k, failed := mdel s.ap.failed k } }
  | none => s

end Sys2Proof.Machine
end

