-- ==== Sys2Proof/Machine/Fw.lean ====
section
/-! DEFINITION. The firmware command protocol: senders, words, command blocks, replies (R445 to R460). -/

namespace Sys2Proof.Machine

open Sys2Proof

/-- Message word fields (R452). -/
def wVersion (w : W64) : Nat := bn w 63 60
def wOpcode (w : W64) : Nat := bn w 59 48
def wSeq (w : W64) : Nat := bn w 47 40
def wArg (w : W64) : Nat := bn w 39 0

/-- The sender of a command (R449): the function that owns the pair. A secure pair joins Palette cores. -/
def pairFn (s : State) (k : MboxId) : Nat :=
  match k with
  | .block n => if (s.pair k).port.getD (decide (n % 2 = 1)) then 2048 else 0
  | .page f => f
  | .sec _ => 0

/-- For whom a pair's commands run. -/
def pairReq (s : State) (k : MboxId) : Req :=
  match k with
  | .sec _ => { fn := 0, firmware := true, secure := true }
  | _ => { fn := pairFn s k }

def Cmd.req (c : Cmd) : Req :=
  match c.pair with
  | .sec _ => { fn := 0, firmware := true, secure := true }
  | _ => { fn := c.fn }

/-- The command opcodes that have a meaning (R458). -/
def fwOpcodes : List Nat :=
  [0x001, 0x002, 0x010, 0x011, 0x012, 0x020, 0x021, 0x022, 0x030, 0x031, 0x040, 0x041, 0x042, 0x050, 0x051,
   0x060, 0x061, 0x062, 0x070, 0x071, 0x080, 0x081, 0x082, 0x083, 0x090, 0x091, 0x0A0, 0x0A1, 0x0B0, 0x0B1] ++
  [0x0C0, 0x0C1, 0x0C2, 0x0C3, 0x0C4, 0x0C5, 0x0D0, 0x0D1, 0x0D2, 0x0D3, 0x0D4, 0x0D5, 0x0D6, 0x0D7,
   0x0E0, 0x0E1, 0x0E2]

/-- The Palette core whose duties an opcode belongs to (R443; log 15). -/
def dutyCore (op : Nat) : Nat :=
  if op < 0x020 then 1
  else if op < 0x030 then 5
  else if op < 0x040 then 3
  else if op < 0x050 then 2
  else if op < 0x070 then 6
  else if op < 0x080 then 1
  else if op < 0x090 then 4
  else if op < 0x0A0 then 6
  else if op < 0x0B0 then 0
  else if op < 0x0C0 then 7
  else if op < 0x0D0 then 0
  else if op < 0x0E0 then 7
  else 2

/-- The device is in recovery, where Umber serves mailbox pair 0 (R532). -/
def State.recovery (s : State) : Bool := decide (s.umb.phase = 8)

/-- A Palette core runs (R475), or Umber serves in its place (R532). -/
def pcoreRuns (s : State) (n : Nat) : Bool := decide ((s.pcore n).cstate = 1) || s.recovery

/-- The opcodes Umber accepts in recovery (R532, R533). -/
def recoveryOps (s : State) : List Nat :=
  if s.umb.rcause = 3 ∨ (s.umb.rcause = 4 ∧ s.umb.retried = true) then [0x0D5]
  else [0x001, 0x002, 0x0A0, 0x0A1, 0x0C0, 0x0D4, 0x0D5]

/-- The core that serves a pair's mailbox (R443, R459). -/
def mboxCore (k : MboxId) : Nat :=
  match k with
  | .sec _ => 0
  | _ => 1

/-- The reader of a pair's inbound words runs: Umber of secure pair 0 (R507), else the Palette core that serves it. -/
def mboxRuns (s : State) (k : MboxId) : Bool :=
  match k with
  | .sec 0 => !s.umb.restarting
  | _ => pcoreRuns s (mboxCore k)

/-- A reply word (R453). -/
def replyWord (w : W64) (r : Reply) : W64 :=
  BitVec.ofNat 64 (at_ 60 2 + at_ 48 (wOpcode w) + at_ 40 (wSeq w) + at_ 8 (r.arg % 2 ^ 32) + r.status.code)

/-- Holds a reply until the outbound mailbox takes it (R453). -/
def holdReply (s : State) (k : MboxId) (w : W64) (r : Reply) : State :=
  let p := s.pair k
  s.setPair k { p with held := p.held ++ [replyWord w r] }

/-- Empties the inbound mailbox (R448); of secure pair 0 it is one of Umber's guaranteed operations (R507). -/
def takeWord (s : State) (k : MboxId) : State :=
  let s1 := s.setPair k { s.pair k with inWord := 0#64 }
  if k = .sec 0 then { s1 with rel := { s1.rel with guardOp := 5 } } else s1

/-- Firmware consumes words of a pair (R453, R459). -/
def mayConsume (s : State) (k : MboxId) : Bool :=
  decide ((s.pair k).held.length < 64) && mboxRuns s k && (!s.recovery || decide (k = .block 0))

/-- Words that name no command are consumed and replied at once: a VERSION other than 2, a reserved opcode, in recovery an
opcode that Umber does not accept (R453, R458, R532). -/
def fwDrain (s : State) (k : MboxId) : State :=
  let w := (s.pair k).inWord
  if w = 0#64 ∨ mayConsume s k = false then s
  else if wVersion w ≠ 2 then holdReply (takeWord s k) k w { status := .invalidField }
  else if s.recovery && !(recoveryOps s).contains (wOpcode w) then holdReply (takeWord s k) k w { status := .busy }
  else if !fwOpcodes.contains (wOpcode w) then holdReply (takeWord s k) k w { status := .invalidOpcode }
  else s

/-- Writes STATUS, DETAIL and the RESULT words into a command block (R455). -/
def writeBack (s : State) (f addr : Nat) (r : Reply) : State :=
  ((s.hostWrite f (addr + 8) (leBytes 1 r.status.code)).hostWrite f (addr + 12) (leBytes 4 r.detail)).hostWrite f (addr + 16)
    (leBytes 8 r.r0 ++ leBytes 8 r.r1 ++ leBytes 8 r.r2)

/-- Address of a command's block (R454). -/
def Cmd.block (c : Cmd) : Nat := c.window * 4096 + wArg c.word

/-- Finishes a pending command: the block is written, then the reply is held (R455, R453). A command whose reply was
discarded by a sender reset posts none (R460). -/
def finishCmd (s : State) (id : Nat) (r : Reply) : State :=
  match s.pal.cmds.find? (fun c => c.id == id) with
  | none => s
  | some c =>
    let s1 : State := { s with pal := { s.pal with cmds := s.pal.cmds.filter (fun x => x.id != id) } }
    if c.noReply then s1 else holdReply (writeBack s1 c.fn c.block r) c.pair c.word r

/-- Bits of a body that its layout does not use must be zero (R5): the reserved ranges, and everything from bit `n` on. -/
def bodyReserved {w : Nat} (b : BitVec w) (rs : List (Nat × Nat)) (n : Nat) : Bool :=
  reservedZero b rs && decide (b.toNat >>> n = 0)

/-- The checks on a block before its command runs: the status and DETAIL of the first that fails (R454, R455, R457). The
body beyond LEN reads as zero (log 16). -/
def blockCheck (s : State) (c : Cmd) (hasWindow : Bool) (op : Nat) (blk : CmdBlock) : Option (Status × Nat) :=
  let len := bn blk.hdr 15 0
  if !hasWindow then some (.bounds, 0)
  else if wArg c.word % 64 ≠ 0 ∨ 65536 < wArg c.word + 64 then some (.bounds, 0)
  else if c.pair.key < 0x10000 ∧ s.master c.fn = false then some (.busMasterDisabled, 0)
  else if blk.readFails then some (.hostDmaError, 0)
  else if 65536 < wArg c.word + 64 + len then some (.bounds, 0)
  else if bn blk.hdr 23 16 = 0 ∨ 1 < bn blk.hdr 23 16 then some (.invalidField, 1)
  else if bn blk.hdr 43 32 ≠ op then some (.invalidField, 0)
  else if 4032 < len then some (.invalidField, 0)
  else if !reservedZero blk.hdr [(31, 24), (63, 44), (95, 72), (511, 320)] then some (.invalidField, 0)
  else none

/-- The body up to LEN. -/
def CmdBlock.bits (blk : CmdBlock) : BitVec 32256 := BitVec.ofNat 32256 (blk.body.toNat % 2 ^ (8 * bn blk.hdr 15 0))

/-- What a command does once its block has passed: the state, and the reply, or none when it completes later. -/
abbrev FwBody := State → Cmd → BitVec 32256 → State × Option Reply

/-- Commands of a pair that have been consumed and not replied to (R456): those under way, and those in firmware's queue. -/
def State.consumed (s : State) (k : MboxId) : Nat :=
  (s.pal.cmds.filter (fun x => decide (x.pair = k))).length + (s.pal.queue.filter (fun q => decide (q.pair = k))).length

/-- Runs a consumed command: the limit of R456, the block, then the body. -/
def runCmd (s : State) (k : MboxId) (w : W64) (op : Nat) (hasBlk : Bool) (blk : CmdBlock) (body : FwBody) : State :=
  let p := s.pair k
  let c : Cmd := { id := s.pal.nextCmd, pair := k, word := w, window := p.window.getD 0, fn := pairFn s k }
  if 64 ≤ s.consumed k then holdReply s k w { status := .outOfResources }
  else
    let chk := if hasBlk then blockCheck s c p.window.isSome op blk else none
    match chk with
    | some (st, d) =>
      let r : Reply := { status := st, detail := d }
      let located := p.window.isSome && decide (wArg w % 64 = 0) && decide (wArg w + 64 ≤ 65536) && decide (st ≠ .busMasterDisabled)
      holdReply (if located then writeBack s c.fn c.block r else s) k w r
    | none =>
      let s1 : State := { s with pal := { s.pal with cmds := s.pal.cmds ++ [c], nextCmd := c.id + 1 } }
      match body s1 c blk.bits with
      | (s2, none) => s2
      | (s2, some r) =>
        if hasBlk then finishCmd s2 c.id r
        else holdReply { s2 with pal := { s2.pal with cmds := s2.pal.cmds.filter (fun x => x.id != c.id) } } k w r

/-- Firmware takes the command of opcode `op` that waits in a pair's mailbox, or in its own queue after a restart (R459,
R462), and runs it on the core whose duty it is. With no such command waiting, nothing happens (log 2). -/
def fwCommandOn (duty op : Nat) (hasBlk : Bool) (k : MboxId) (blk : CmdBlock) (body : FwBody) (s : State) : State :=
  match s.pal.queue.find? (fun q => decide (q.pair = k) && decide (wOpcode q.word = op)) with
  | some q =>
    if pcoreRuns s duty then
      runCmd { s with pal := { s.pal with queue := s.pal.queue.erase q } } k q.word op hasBlk blk body
    else s
  | none =>
    let w := (s.pair k).inWord
    if w = 0#64 ∨ wVersion w ≠ 2 ∨ wOpcode w ≠ op ∨ mayConsume s k = false ∨
        (s.recovery = true ∧ (recoveryOps s).contains op = false) then s
    else
      let s1 := takeWord s k
      if pcoreRuns s duty then runCmd s1 k w op hasBlk blk body
      else if 64 ≤ s.consumed k then holdReply s1 k w { status := .outOfResources }
      else { s1 with pal := { s1.pal with queue := s1.pal.queue ++ [⟨k, w⟩] } }

/-- The same with the core that the opcode names (R443). -/
def fwCommand (op : Nat) (hasBlk : Bool) (k : MboxId) (blk : CmdBlock) (body : FwBody) (s : State) : State := fwCommandOn (dutyCore op) op hasBlk k blk body s

/-- The sender is physical function 0 (R379), or firmware itself on a secure pair. -/
def fromPf0 (c : Cmd) : Bool :=
  match c.pair with
  | .sec _ => true
  | _ => fnIsPf0 c.fn

def refuse (s : State) (st : Status) : State × Option Reply := (s, some { status := st })
def accept (s : State) : State × Option Reply := (s, some { status := .success })

end Sys2Proof.Machine
end

