-- ==== Sys2Proof/Machine/Vat.lean ====
section
/-! DEFINITION. Vat: handles and slots (R104 to R110), rings, doorbells and fetching (R111 to R122), jobs and completions
(R123 to R126), triggers (R130, R131), interrupts (R132). -/

namespace Sys2Proof.Machine

open Sys2Proof

/-- Index range of a class (R104). -/
def classLimit (cls : Nat) : Nat :=
  if cls = 1 ∨ cls = 2 then 262144
  else if cls = 3 then 16777216
  else if cls = 4 then 131072
  else if cls = 5 ∨ cls = 7 ∨ cls = 8 ∨ cls = 9 then 4096
  else if cls = 6 ∨ cls = 0xA ∨ cls = 0xB then 65536
  else 0

/-- Handle fields (R105). -/
def hClass (h : W64) : Nat := bn h 63 60
def hGen (h : W64) : Nat := bn h 59 48
def hOwner (h : W64) : Nat := bn h 47 36
def hIndex (h : W64) : Nat := bn h 23 0

def mkHandle (cls gen owner index : Nat) : Nat := at_ 60 cls + at_ 48 gen + at_ 36 owner + index

/-- The handle check (R107): the status of the first step that fails, or the index. -/
def checkHandle (s : State) (r : Req) (h : W64) (classes : List Nat) : Nat ⊕ Status :=
  let sl := s.slot (hClass h) (hIndex h)
  if !classes.contains (hClass h) then .inr .wrongClass
  else if classLimit (hClass h) ≤ hIndex h ∨ bn h 35 24 ≠ 0 then .inr .invalidField
  else if !(sl.live && sl.gen == hGen h && sl.owner == hOwner h) then .inr .staleHandle
  else if hOwner h ≠ r.fn ∧ r.firmware = false then .inr .accessDenied
  else .inl (hIndex h)

/-- The lowest slot from `i` that has held no channel since fundamental reset (R106). -/
def firstUnused (s : State) (cls : Nat) (ok : Nat → Bool) : Nat → Nat → Option Nat
  | 0, _ => none
  | n + 1, i => if !(s.slot cls i).used && ok i then some i else firstUnused s cls ok n (i + 1)

/-- The slice of a connection is in service: firmware allocates none whose region is being retired or is retired (R512). -/
def sliceOpen (s : State) (cls i : Nat) : Bool :=
  cls != 3 || (decide ((s.rgn (i % 16)).retiring = 0) && decide ((s.rgn (i % 16)).rstate ≠ .retired))

/-- The slot firmware takes for a new channel (R106, R512). -/
def newSlot (s : State) (cls : Nat) (free : Nat → Bool) : Option Nat :=
  let ok (i : Nat) : Bool := free i && sliceOpen s cls i
  match firstUnused s cls ok (classLimit cls) 0 with
  | some i => some i
  | none => (mgetD s.vat.freed cls []).find? (fun i => ok i && !(s.slot cls i).live && !(s.slot cls i).dying)

/-- Puts a channel into a slot (R105, R106). -/
def openSlot (s : State) (cls i owner : Nat) : State :=
  let sl := s.slot cls i
  let s1 := s.setSlot cls i { sl with owner := owner, live := true, used := true, dying := false }
  { s1 with vat := { s1.vat with freed := mset s1.vat.freed cls ((mgetD s1.vat.freed cls []).erase i) } }

def handleOf (s : State) (cls i : Nat) : Nat := let sl := s.slot cls i; mkHandle cls sl.gen sl.owner i

/-- The quota in force (R395). -/
def quotaOf (s : State) (f cls : Nat) : Nat :=
  match mget (s.fn f).quota cls with
  | some q => q.toNat
  | none => if cls = 0xA then 4096 else if fnIsVf f then 0 else 0xFFFFFFFF

/-- Slots of a class a function holds. -/
def ownSlots (s : State) (f cls : Nat) : List Nat :=
  ((s.vat.slots.filter (fun p => decide (p.1 / 2 ^ 24 = cls) && (p.2.live || p.2.dying) && p.2.owner == f)).map (fun p => p.1 % 2 ^ 24))

/-- Use against a quota: pages of memory regions, counters of counter sets, channels otherwise (R395). -/
def quotaUse (s : State) (f cls : Nat) : Nat :=
  let own := ownSlots s f cls
  if cls = 8 then (own.map (fun i => ((mget s.lake.regions i).map (·.pages)).getD 0)).sum
  else if cls = 0xA then (own.map (fun i => mgetD s.vat.sets i 0)).sum
  else own.length

/-- The quota admits `n` more (R108, R396). Firmware has none. -/
def quotaOk (s : State) (r : Req) (cls n : Nat) : Bool :=
  r.firmware || quotaOf s r.fn cls == 0xFFFFFFFF || decide (quotaUse s r.fn cls + n ≤ quotaOf s r.fn cls)

/-- The class parameters of a CH_CREATE or CH_MODIFY body: the 256 bits after the first word (R108). -/
def params (b : BitVec 32256) : BitVec 256 := (b >>> 64).setWidth 256

/-- The first word of a CH_CREATE names the class, and nothing follows the parameters (R5, R108). -/
def createWord (b : BitVec 32256) (cls : Nat) : Bool := bn b 3 0 == cls && bodyReserved b [(63, 4)] 320

/-- A create: checks the quota and the slot, then runs `mk` on the new slot; a refusal by `mk` creates nothing (R106, R108). -/
def createIn (s : State) (c : Cmd) (cls : Nat) (ok : Nat → Bool) (use : Nat) (mk : State → Nat → Status ⊕ (State × Reply)) :
    State × Option Reply :=
  if !quotaOk s c.req cls use then refuse s .outOfResources
  else match newSlot s cls ok with
    | none => refuse s .outOfResources
    | some i => match mk (openSlot s cls i c.fn) i with
      | .inl st => refuse s st
      | .inr (s1, r) => (s1, some { r with r0 := handleOf s1 cls i })

/-- The class a CH_CREATE block names, and the one a CH_MODIFY or CH_DESTROY handle names (R108). -/
def blkClass (op : Nat) (blk : CmdBlock) : Nat := if op = 0x010 then bn blk.body 3 0 else bn blk.body 63 60

/-- A channel command whose row is that of one class: another class's command is another row's. A reserved class is refused
by whichever row takes it, with the invalid-field status at a create and wrong-class at a handle (R104, R107; log 2). -/
def chCommand (op : Nat) (classes : List Nat) (k : MboxId) (blk : CmdBlock) (body : FwBody) (s : State) (duty : Nat := dutyCore op) : State :=
  let cls := blkClass op blk
  if !blk.readFails && decide (1 ≤ cls) && decide (cls ≤ 0xB) && !classes.contains cls then s
  else fwCommandOn duty op true k blk (fun s c b =>
    if classes.contains cls then body s c b else refuse s (if op = 0x010 then .invalidField else .wrongClass)) s

/-- The channel a CH_MODIFY or CH_DESTROY body names: its index, or the refusing status (R107). -/
def bodyHandle (s : State) (c : Cmd) (classes : List Nat) (b : BitVec 32256) : Nat ⊕ Status :=
  checkHandle s c.req (BitVec.ofNat 64 (bn b 63 0)) classes

/-- Bytes of a shadow (R96): whether firmware needs a new page for it (log 17), and the state with the page taken. -/
def takeShadow (s : State) (bytes : Nat) : Option State :=
  let used := (s.vat.comp.map (fun p => (if p.1 < 2 ^ 24 then 32 else 16) * 2 ^ p.2.sizeLog2)).sum
  let have_ := (s.lake.fw.filter (fun f => decide (f.kind = .shadow))).map (·.pages)
  let need := cdiv (used + bytes) pageBytes
  if need ≤ have_.sum then some s else takeFwRegion s .shadow (need - have_.sum)

/-- Pages of shadows that no ring needs any longer go back to the pool, `n` regions at most (R96; log 17). -/
def releaseShadow : Nat → State → State
  | 0, s => s
  | n + 1, s =>
    let used := (s.vat.comp.map (fun p => (if p.1 < 2 ^ 24 then 32 else 16) * 2 ^ p.2.sizeLog2)).sum
    let rs := s.lake.fw.filter (fun f => decide (f.kind = .shadow))
    match rs.getLast? with
    | none => s
    | some f =>
      if (rs.map (·.pages)).sum - f.pages < cdiv used pageBytes then s
      else releaseShadow n (releasePages { s with lake := { s.lake with fw := s.lake.fw.erase f } } (f.base / pageBytes) f.pages)

/-- The rings of completion entries: a completion ring by its INDEX, the completion side of a storage queue by 2^24 + INDEX
(R112, R403). -/
def cqSlot (s : State) (cq : Nat) : Slot := if cq < 2 ^ 24 then s.slot 2 cq else s.slot 4 (cq - 2 ^ 24)

/-- The completion ring of a work ring. -/
def cqOf (s : State) (ring : Nat) : Nat := ((mget s.vat.work ring).map (·.cq)).getD 0

/-- Free completion slots (R122). -/
def CompRing.free (q : CompRing) : Nat := 2 ^ q.sizeLog2 - 1 - (q.written - q.head) - q.reserved

def reserve (s : State) (cq : Nat) : State :=
  { s with vat := { s.vat with comp := mmod s.vat.comp cq (fun q => { q with reserved := q.reserved + 1 }) } }
/-- Sends the ring's vector and disarms it (R132). -/
def interrupt (s : State) (cq : Nat) : State :=
  match mget s.vat.comp cq with
  | none => s
  | some q => (s.setComp cq { q with armed := false, p := 0, firstAt := none }).msix (cqSlot s cq).owner q.vector

/-- The interrupt decision after completions were written (R132). -/
def decide132 (s : State) (cq : Nat) (urgent : Bool) : State :=
  match mget s.vat.comp cq with
  | none => s
  | some q =>
    if q.armed && decide (q.modCount ≠ 0) && (decide (q.modCount ≤ q.p) || urgent) then interrupt s cq else s

/-- Writes an entry into a completion ring as two posted writes, bytes 8 to 31 and then 0 to 7, or holds it in the shadow
while the function may not write (R125, R391). PHASE is the pass marker of R113. -/
def writeEntry (s : State) (cq : Nat) (entry : Nat) (urgent : Bool) : State :=
  match mget s.vat.comp cq with
  | none => s.count VAT_CMPL_LOST
  | some q =>
    let sl := s.slot 2 cq
    if !sl.live then s.count VAT_CMPL_LOST
    else
      let n := 2 ^ q.sizeLog2
      let phase := if q.written / n % 2 = 0 then 1 else 0
      let bs := leBytes 32 (entry + phase)
      let addr := q.base + 32 * (q.written % n)
      let q' := { q with
        written := q.written + 1, reserved := q.reserved - 1, p := q.p + 1
        firstAt := if q.p = 0 then some s.now else q.firstAt }
      if s.master sl.owner && q.held.isEmpty then
        decide132 (((s.setComp cq q').hostWrite sl.owner (addr + 8) (bs.drop 8)).hostWrite sl.owner addr (bs.take 8)) cq urgent
      else decide132 (s.setComp cq { q' with held := q.held ++ [⟨q.written, bs, urgent⟩] }) cq urgent

/-- A completion entry without its PHASE (R124). -/
def mkEntry (posted : Bool) (st : Status) (tag detail : Nat) (handle idx ring gen result : Nat) : Nat :=
  at_ 1 (b2n posted) + at_ 8 st.code + at_ 16 tag + at_ 32 (detail % 2 ^ 32) + at_ 64 handle + at_ 128 idx + at_ 144 ring + at_ 168 gen +
    at_ 192 (result % 2 ^ 64)

/-- Writes the waiting abort completions of a completion ring while it has slots (R109). -/
def drainLate (cq : Nat) : Nat → State → State
  | 0, s => s
  | n + 1, s =>
    match s.vat.late.find? (fun l => l.cq == cq), mget s.vat.comp cq with
    | some l, some q =>
      if q.free = 0 then s
      else
        let s1 : State := { s with vat := { s.vat with late := s.vat.late.erase l } }
        drainLate cq n (writeEntry (reserve s1 cq) cq (mkEntry l.posted l.status (dTag l.desc) 0 (dTarget l.desc).toNat
          (if l.posted then 0xFFFF else l.slot) l.ring l.ringGen 0) (dUrgent l.desc))
    | _, _ => s

/-- Releases a reserved completion slot: waiting abort completions take it first (R109, R122). -/
def unreserve (s : State) (cq : Nat) : State :=
  drainLate cq s.vat.late.length { s with vat := { s.vat with comp := mmod s.vat.comp cq (fun q => { q with reserved := q.reserved - 1 }) } }

/-- Writes the completion of a descriptor, or releases its slot on success with CMPL = 0 (R119, R122). -/
def report (s : State) (ring gen slot : Nat) (posted : Bool) (d : Desc) (st : Status) (detail result : Nat) : State :=
  let cq := cqOf s ring
  if st.ok && !dCmpl d then unreserve s cq
  else writeEntry s cq (mkEntry posted st (dTag d) detail (dTarget d).toNat (if posted then 0xFFFF else slot) ring gen result) (dUrgent d)

/-- The completion of a job that a core started: the status slot, then the event (R176, R151). -/
def reportCore (s : State) (core off : Nat) (d : Desc) (st : Status) (detail result : Nat) : State :=
  let s1 := scrWrite s (coreCluster core) off (leBytes 32 (mkEntry false st (dTag d) detail 0 0 0 0 result + 1))
  let k := s1.core core
  s1.setCore core { k with evt := k.evt ||| (if dOpcode d = 0x08 then 0x4000#32 else 0x2000#32) }

/-- Reports a completed job to whoever started it. -/
def reportJob (s : State) (j : Job) (st : Status) (detail result : Nat) : State :=
  match j.core with
  | some (c, off) => reportCore s c off j.desc st detail result
  | none => report s j.ring j.ringGen j.slot j.posted j.desc st detail result

/-- A request that is out: issued and not resolved. -/
def Part.out (p : Part) : Bool := p.tag.isSome && p.done.isNone

/-- Transfers whose work has ended, as `p` tells: their requests that are out keep their tags until they resolve (R557). -/
def orphan (s : State) (p : Work → Bool) : State :=
  { s with host := { s.host with xfers := s.host.xfers.filterMap (fun x =>
      if !p x.work || x.dropped then some x
      else if x.parts.any Part.out then some { x with work := .firmware 0, parts := x.parts.filter Part.out }
      else none) } }

/-- A job belongs to a codec or to an Indigo engine. -/
def Job.isCodec (j : Job) : Bool := dOpcode j.desc == 0x08
def Job.isMatrix (j : Job) : Bool := dOpcode j.desc == 0x60 || dOpcode j.desc == 0x61
def Job.onEngine (j : Job) (c : Nat) (codec : Bool) : Bool := j.unit == some c && (if codec then j.isCodec else j.isMatrix)

/-- Jobs an engine has accepted and not completed. -/
def Job.accepted (j : Job) : Bool := decide (j.phase = .accepted) || decide (j.phase = .running)
def engJobs (s : State) (c : Nat) (codec : Bool) (ph : JPhase) : List (Nat × Job) :=
  s.vat.jobs.filter (fun p => p.2.onEngine c codec && decide (p.2.phase = ph))
def acceptedCount (s : State) (c : Nat) (codec : Bool) : Nat := (s.vat.jobs.filter (fun p => p.2.onEngine c codec && p.2.accepted)).length

/-- Core IDs of a cluster (R137). -/
def coresOf (c : Nat) : List Nat := (List.range 8).map (fun n => 8 * c + n)

def coreBusy (k : Core) : Bool := decide (k.run = .running) || decide (k.run = .waiting)

/-- A cluster holds accepted work: a core that runs or waits, or a job of its engine or codec (R25, R140, R151). -/
def clusterBusy (s : State) (c : Nat) : Bool :=
  (coresOf c).any (fun i => coreBusy (s.core i)) || decide (acceptedCount s c false ≠ 0) || decide (acceptedCount s c true ≠ 0)

/-- A cluster that was asked to be gated is gated once it holds no accepted work (R25). -/
def gateIdle (s : State) (c : Nat) : State :=
  let k := s.cl c
  if k.gateWanted && decide (k.cstate = .inService) && !clusterBusy s c then s.setCl c { k with cstate := .gated, gateWanted := false } else s

/-- Reports a finished job: INC on a success-class status, then the entry (R123, R125). An INC whose set is gone is refused with
the access-denied status (R120). -/
def endJob (s : State) (id : Nat) (st : Status) (detail result : Nat) : State :=
  match mget s.vat.jobs id with
  | none => s
  | some j =>
    let s0 := dropGot { s with vat := { s.vat with jobs := mdel s.vat.jobs id } } (.job id)
    let s1 := orphan s0 (fun w => decide (w = .job id))
    let s2 := if st.ok && dInc j.desc then
        if j.firmware || (j.incSet.isSome && ctrSetGen s1 j.fn (dIncCtr j.desc) == j.incSet) then reportJob (s1.addCtr (dIncCtr j.desc) 1#64) j st detail result
        else reportJob s1 j .accessDenied detail result
      else reportJob s1 j st detail result
    match j.unit with
    | some c => gateIdle s2 c
    | none => s2

/-- Completes a job. It first waits for the partner's acknowledgement of its window writes, and a port that goes down before
that gives it the port-error status (R123, R310, R315). -/
def completeJob (s : State) (id : Nat) (st : Status) (detail result : Nat) : State :=
  match mget s.vat.jobs id with
  | none => s
  | some j =>
    if writesOut s (.job id) then s.setJob id { j with phase := .ending, status := st, detail := detail, result := result }
    else match mget s.ap.failed (4 * id) with
      | some e => if st.ok then endJob s id e 0 0 else endJob s id st detail result
      | none => endJob s id st detail result

/-- The oldest parked entries of a tag fire while its tally allows (R131 step 6). -/
def fireTag (list tag : Nat) : Nat → State → State
  | 0, s => s
  | n + 1, s =>
    match mget s.vat.trig list with
    | none => s
    | some t => match t.parked.find? (fun e => e.trigTag == tag) with
      | none => s
      | some e =>
        let tally := mgetD t.tally tag 0#64
        if e.trigCount ≤ tally.toNat then
          let t' := { t with parked := t.parked.erase e, tally := msetC 0#64 t.tally tag (tally - BitVec.ofNat 64 e.trigCount) }
          fireTag list tag n { s with vat := { s.vat with trig := mset s.vat.trig list t', fired := s.vat.fired ++ [e] } }
        else s

/-- An arrival that carries a trigger list, a generation and a tag (R131 steps 4 to 6); `owner` owns the connection. -/
def trigArrive (s : State) (list gen tag owner : Nat) : State :=
  let sl := s.slot 0xB list
  match mget s.vat.trig list with
  | none => s.count VAT_TRIG_DROP
  | some t =>
    if !(sl.live && sl.gen == gen) || sl.owner != owner || decide (2 ^ t.tagsLog2 ≤ tag) then s.count VAT_TRIG_DROP
    else
      let t' := { t with tally := msetC 0#64 t.tally tag (mgetD t.tally tag 0#64 + 1#64) }
      fireTag list tag (t.parked.length + 1) { s with vat := { s.vat with trig := mset s.vat.trig list t' } }

/-- Applies a notice of an own expert (R187): 1 to its counter, or to the tally of its tag. -/
def applyNote (s : State) (n : WNote) : State :=
  if n.notify = 1 then (if ownsCtr s n.fn n.ctr then s.addCtr n.ctr 1#64 else s)
  else if n.notify = 2 then trigArrive s n.ctr n.tgen n.ttag n.fn
  else s

/-- The notices whose count records have become visible are applied; those of records that their port has lost go (R187, R195). -/
def applyNotes (s : State) : State :=
  let ready := s.woad.notes.filter (fun n => !writesOut s n.work)
  ready.foldl (fun s n => if (n.work.key.bind (mget s.ap.failed)).isSome then s else applyNote s n)
    { s with woad := { s.woad with notes := s.woad.notes.filter (fun n => writesOut s n.work) } }

/-- Waiting writes to near memory go where they can, and the jobs complete whose writes have all been made or acknowledged, or have
failed. -/
def finishEnding (s0 : State) : State :=
  let s := applyNotes (releaseHeld s0)
  s.vat.jobs.foldl (fun s p => if p.2.phase = .ending then completeJob s p.1 p.2.status p.2.detail p.2.result else s) s

/-- A region has accesses under way that passed its check: data of remote reads still to be read or resent, writes that wait for near
memory, writes on their way to its window (R89). -/
def regionBusy (s : State) (d : Region) : Bool :=
  let here (a : Nat) : Bool := decide (d.base ≤ a) && decide (a < d.stop)
  s.carm.conns.any (fun c => c.2.msgs.any (fun m => !m.done && !m.srcFailed && here (m.laddr % 2 ^ 48) && (match m.kind with
    | .readResp _ => true
    | _ => false))) ||
    s.lake.held.any (fun h => here h.addr) ||
    (decide (winBase ≤ d.base) && (let x := s.port (windowOf d.base)
      x.replay.any (fun f => !f.works.isEmpty) || x.tx.any (fun q => q.2.any (fun t => t.bytes.head? == some 1#8 &&
        here (winBase + windowOf d.base * winSize + leNat (slice t.bytes 8 8))))))

/-- Commands that have changed a region's descriptor complete once the accesses that passed the old check have finished (R89). -/
def settleRegions (s : State) : State :=
  s.lake.regionWaits.foldl (fun s w => match mget s.lake.regions w.region with
    | some d => if regionBusy s d then s else finishCmd { s with lake := { s.lake with regionWaits := s.lake.regionWaits.erase w } } w.cmd { status := .success, r2 := w.key }
    | none => finishCmd { s with lake := { s.lake with regionWaits := s.lake.regionWaits.erase w } } w.cmd { status := .success, r2 := w.key }) s

/-- What waits for near memory or for accesses to finish goes on. -/
def wake (s : State) : State := if s.lake.held.isEmpty && s.lake.regionWaits.isEmpty then s else settleRegions (finishEnding s)

def finish (s : State) (id : Nat) (st : Status) : State := completeJob s id st 0 0

/-- A started job of this opcode (R119). -/
def jobOf (s : State) (id op : Nat) (ph : JPhase) : Option Job :=
  match mget s.vat.jobs id with
  | none => none
  | some j => if dOpcode j.desc = op ∧ j.phase = ph then some j else none

def Job.req (j : Job) : Req := { fn := j.fn, firmware := j.firmware, secure := j.secure }

/-- Makes a job of a descriptor: it has started (R121). -/
def startJob (s : State) (ring gen : Nat) (f : Fetched) (d : Desc) : State :=
  let id := s.vat.nextJob
  { s with vat := { s.vat with
      nextJob := id + 1
      jobs := mset s.vat.jobs id { ring := ring, ringGen := gen, fn := (s.slot 1 ring).owner, slot := f.slot, posted := f.posted, seq := f.seq, incSet := f.incSet, bodySet := f.bodySet, desc := d } } }

/-- Removes the descriptor at the head of a ring's queue. -/
def popHead (s : State) (ring : Nat) : State :=
  { s with vat := { s.vat with work := mmod s.vat.work ring (fun w => { w with queue := w.queue.drop 1 }) } }

/-- Earlier descriptors of the ring that have not completed (R119 FENCE): jobs, parked and fired entries. -/
def earlierOpen (s : State) (ring seq : Nat) : Bool :=
  s.vat.jobs.any (fun p => p.2.ring == ring && decide (p.2.seq < seq)) ||
    s.vat.trig.any (fun t => t.2.parked.any (fun e => e.ring == ring && decide (e.item.seq < seq))) ||
    s.vat.fired.any (fun e => e.ring == ring && decide (e.item.seq < seq)) ||
    s.vat.late.any (fun l => l.ring == ring)

/-- Check 4 of R120: the channel TARGET names, by R107. -/
def targetCheck (s : State) (fn : Nat) (d : Desc) : Option Status :=
  let classes := targetClasses (dOpcode d)
  if classes.isEmpty then none
  else match checkHandle s { fn := fn } (dTarget d) classes with
    | .inr st => some st
    | .inl _ => none

/-- Checks 1 to 5 of R120 on a descriptor at the head of its ring; the body's static part is check 5. -/
def headCheck (s : State) (fn : Nat) (d : Desc) : Option Status :=
  if !opcodeKnown (dOpcode d) then some .invalidOpcode
  else if !headerOk d then some .invalidField
  else if (dWait d && !ownsCtr s fn (dWaitCtr d)) || (dInc d && !ownsCtr s fn (dIncCtr d)) ||
      (bodyCtrs d).any (fun c => !ownsCtr s fn c) then some .accessDenied
  else match targetCheck s fn d with
    | some st => some st
    | none => bodyStatic d

/-- A descriptor that has passed its checks: the counter sets that they found stay with it (R120). -/
def pinSets (s : State) (fn : Nat) (d : Desc) (f : Fetched) : Fetched :=
  { f with
    incSet := if dInc d then ctrSetGen s fn (dIncCtr d) else none
    bodySet := (bodyCtrs d).head?.bind (ctrSetGen s fn) }

/-- Parks a descriptor on its ring's trigger list, or completes it (R131 steps 1 to 3, R109). -/
def parkDesc (s : State) (ring gen : Nat) (w : WorkRing) (f : Fetched) (d : Desc) : State :=
  let stop (st : Status) : State := report s ring gen f.slot f.posted d st 0 0
  if w.tlist = 0#64 then stop .invalidField
  else match checkHandle s { fn := (s.slot 1 ring).owner } w.tlist [0xB] with
    | .inr st => stop st
    | .inl i => match mget s.vat.trig i with
      | none => stop .staleHandle
      | some t =>
        if 2 ^ t.tagsLog2 ≤ dTrigTag d then stop .invalidField
        else if t.entries ≤ t.parked.length then stop .outOfResources
        else
          let t' := { t with parked := t.parked ++ [⟨ring, gen, f, dTrigTag d, dTrigCount d⟩] }
          let s1 := unreserve s w.cq
          fireTag i (dTrigTag d) (t'.parked.length + 1) { s1 with vat := { s1.vat with trig := mset s1.vat.trig i t' } }

/-- A checked descriptor at the head of a ring waits for FENCE or for its counter, parks, or starts; its TARGET must still be the channel
it names (R107, R121, R127; log 143). -/
def startChecked (s : State) (ring : Nat) (w : WorkRing) (f : Fetched) (rest : List Fetched) (d : Desc) : State :=
  let sl := s.slot 1 ring
  let hold := s.setWork ring { w with queue := { f with waiting := true } :: rest }
  if dFence d && earlierOpen s ring f.seq then hold
  else if dWait d && !ctrReached (s.ctr (dWaitCtr d)) (dCond d) then hold
  else if dTrig d then parkDesc (popHead s ring) ring sl.gen w f d
  else match targetCheck s sl.owner d with
    | some st => report (popHead s ring) ring sl.gen f.slot f.posted d st 0 0
    | none => startJob (popHead s ring) ring sl.gen f d

/-- The descriptor at the head of a ring is checked, then started, made to wait, parked or completed (R120, R121, R127,
R131). It is checked once: a descriptor that waits has passed. -/
def startHead (s : State) (ring : Nat) : State :=
  match mget s.vat.work ring with
  | none => s
  | some w =>
    let sl := s.slot 1 ring
    match w.queue with
    | [] => s
    | f :: rest => match f.desc with
      | none => s
      | some d =>
        if f.waiting then startChecked s ring w f rest d
        else match headCheck s sl.owner d with
          | some st => report (popHead s ring) ring sl.gen f.slot f.posted d st 0 0
          | none => startChecked s ring w (pinSets s sl.owner d f) rest d

/-- A descriptor whose fetch counts as not made, since Bus Master Enable was cleared while it was out (R391). -/
def unmade (s : State) (ring : Nat) (f : Fetched) : Bool :=
  f.desc.isNone && !f.failed && !f.posted && !s.host.xfers.any (fun x => decide (x.work = .desc ring f.seq) && !x.dropped)

/-- Rings bound to a completion ring that have posted descriptors to fetch (R122), or to fetch again (R391). -/
def wantsFetch (s : State) (cq : Nat) : List Nat :=
  (s.vat.work.filter (fun p => p.2.cq == cq && (s.slot 1 p.1).live &&
    ((!p.2.halted && decide (p.2.fetch < p.2.tail)) || p.2.queue.any (unmade s p.1)))).map (·.1)

/-- The ring whose turn it is: increasing INDEX, after the one that fetched last (R122). Before the first fetch the rotation starts after
INDEX 0: DESIGN CHOICE, the spec names no start (log 144). -/
def fetchTurn (s : State) (cq : Nat) : Option Nat :=
  let rs := wantsFetch s cq
  let last := ((mget s.vat.comp cq).map (·.lastFetch)).getD 0
  match rs.find? (fun r => decide (last < r)) with
  | some r => some r
  | none => rs.head?

/-- Aborted parked entries and fired entries take completion slots ahead of new fetches (R109, R131 step 7). -/
def slotsSpoken (s : State) (cq : Nat) : Bool :=
  s.vat.fired.any (fun e => cqOf s e.ring == cq) || s.vat.late.any (fun l => l.cq == cq)

/-- Width of a function's tags (R383). -/
def tagBits (x : Fn) : Nat := if x.tag14 then 14 else if x.tag10 then 10 else 8

def tagBusy (s : State) (f t : Nat) : Bool :=
  s.host.xfers.any (fun x => x.fn == f && x.parts.any (fun p => p.tag == some t && p.done.isNone)) ||
    s.host.quarantine.any (fun q => q.1 == f && q.2.1 == t)

/-- The lowest tag of a function that is neither out nor quarantined (R383, R389). -/
def firstTag (s : State) (f : Nat) : Nat → Nat → Option Nat
  | 0, _ => none
  | n + 1, t => if tagBusy s f t then firstTag s f n (t + 1) else some t

/-- Non-posted requests outstanding on a host port (R383, R400). -/
def outNp (s : State) (h : Nat) : Nat :=
  ((s.host.xfers.filter (fun x => fnPort x.fn == h)).map (fun x => (x.parts.filter Part.out).length)).sum

/-- A part that no request carries yet. -/
def Part.unsent (p : Part) : Bool := p.tag.isNone && p.done.isNone

/-- Keeps a translation in use: 8,192 at most for each host port, the oldest going first (R383). -/
def noteAts (s : State) (f a : Nat) : State :=
  let e : AtsEntry := ⟨f, a / 4096⟩
  if !(s.fn f).ats || s.host.ats.contains e then s
  else
    let mine := s.host.ats.filter (fun x => fnPort x.fn == fnPort f)
    let kept := match mine.head? with
      | some o => if 8192 ≤ mine.length then s.host.ats.erase o else s.host.ats
      | none => s.host.ats
    { s with host := { s.host with ats := kept ++ [e] } }

/-- Issues the next request of the oldest transfer of a function that has one to send, `n` at most, while a tag is free and
the port holds fewer than 16,384 (R383). -/
def pumpReads (f : Nat) : Nat → State → State
  | 0, s => s
  | n + 1, s =>
    match s.host.xfers.findIdx? (fun x => x.fn == f && !x.dropped && x.parts.any Part.unsent), firstTag s f (2 ^ tagBits (s.fn f)) 0 with
    | some i, some t =>
      if outNp s (fnPort f) < 16384 ∧ s.master f = true then
        match s.host.xfers[i]? with
        | none => s
        | some x =>
          let k := x.parts.findIdx Part.unsent
          match x.parts[k]? with
          | none => s
          | some p =>
            let x' := { x with parts := x.parts.set k { p with tag := some t, sent := s.now } }
            pumpReads f n ((noteAts { s with host := { s.host with xfers := s.host.xfers.set i x' } } f p.addr).emit (.hostRead f p.addr p.len t))
      else s
    | _, _ => s

/-- Splits a host range at 4 KiB boundaries, `n` pieces at most: one read request each (log 35). -/
def split4k : Nat → Nat → Nat → List (Nat × Nat)
  | 0, _, _ => []
  | n + 1, a, len =>
    if len = 0 then [] else
      let k := min len (4096 - a % 4096)
      (a, k) :: split4k n (a + k) (len - k)

def pieces4k (a len : Nat) : List (Nat × Nat) := split4k (len / 4096 + 2) a len

/-- The parts of a transfer, in address order of its data. -/
def makeParts : List (Nat × Nat) → Nat → List Part
  | [], _ => []
  | (a, n) :: ps, off => { off := off, addr := a, len := n } :: makeParts ps (off + n)

/-- Starts a transfer from host memory, one read request a piece (R383, R557); none while the function may not issue. -/
def hostRead (s : State) (f : Nat) (w : Work) (pieces : List (Nat × Nat)) : Option State :=
  if !s.master f then none
  else
    let ps := makeParts pieces 0
    some (pumpReads f ps.length { s with host := { s.host with xfers := s.host.xfers ++ [{ fn := f, work := w, parts := ps }] } })

/-- The transfer of a work item. -/
def xferOf (s : State) (w : Work) : Option Xfer := s.host.xfers.find? (fun x => decide (x.work = w) && !x.dropped)

/-- All requests of a transfer are resolved (R557). -/
def Xfer.resolved (x : Xfer) : Bool := x.parts.all (·.done.isSome)

/-- The data of a resolved transfer, or none when a request failed (R557). -/
def Xfer.data (x : Xfer) : Option (List Byte) :=
  x.parts.foldl (fun (a : Option (List Byte)) p => match a, p.done with
    | some bs, some (some d) => some (bs ++ d)
    | _, _ => none) (some [])

/-- Index of the lowest-addressed part that failed (R557). -/
def Xfer.failedPart (x : Xfer) : Nat := x.parts.findIdx (fun p => decide (p.done = some none))

def dropXfer (s : State) (w : Work) : State :=
  { s with host := { s.host with xfers := s.host.xfers.filter (fun x => decide (x.work ≠ w)) } }

end Sys2Proof.Machine
end

