-- ==== Sys2Proof/Machine/Palette.lean ====
section
/-! DEFINITION. Commands of Palette: mailboxes and locks (R445 to R460), the firmware's own commands, crashes and restarts of
Palette cores (R461 to R464, R534), images (R465, R484 to R486), the slow-path and log rings (R469 to R473). -/

namespace Sys2Proof.Machine

open Sys2Proof

/-- The vector of a pair is sent when EN is 1 (R447). A secure pair has none. -/
def pairVector (s : State) (k : MboxId) : State :=
  match k with
  | .sec _ => s
  | _ => if (s.pair k).en then s.msix (pairFn s k) (s.pair k).vector else s

/-- ARG of the events 0x0005 and 0x0006 (R471). -/
def pairArg (k : MboxId) (cleared : Nat) : Nat :=
  (match k with
    | .block n => n
    | .page f => at_ 8 1 + at_ 12 f
    | .sec n => n + at_ 8 2) + at_ 32 cleared

/-- A host reaches the words of a pair: through PF0 of either port, or through the function's own page, whose memory requests act (R386,
R391, R393, R445). In recovery pair 0 alone is there (R532). Secure pairs are not a host's. -/
def pairReached (s : State) (k : MboxId) : Bool :=
  match k with
  | .block n => (s.barReached 0 || s.barReached 2048) && (!s.recovery || n == 0)
  | .page f => s.barReached f && !s.recovery
  | .sec _ => true

/-- An agent reaches the locks: Palette cores and Umber, and of the host functions PF0 (R386, R450). -/
def lockReached (s : State) (agent : Nat) : Bool := decide (agent < 0x1000) || (fnIsPf0 (agent - 0x1000) && s.barReached (agent - 0x1000) && !s.recovery)

/-- A write to an inbound mailbox (R448): a 64-bit non-zero word into an empty mailbox is stored, any other is refused and
counted. Firmware replies at once to a word that names no command (R453). -/
def execMailboxWrite (pair : MboxId) (wide : Bool) (value : W64) (s : State) : Host.Outcome State Fault Refusal :=
  let p := s.pair pair
  if !pairReached s pair then next s
  else if wide && p.inWord == 0#64 && value != 0#64 then next (fwDrain (s.setPair pair { p with inWord := value }) pair)
  else next (s.setPair pair { p with refused := min (2 ^ 32 - 1) (p.refused + 1) })

/-- A read of an outbound mailbox (R448): a 64-bit read returns the word and empties the mailbox; a 32-bit read returns zero, and so does one
that does not reach the pair (R393). -/
def execMailboxRead (pair : MboxId) (wide : Bool) (s : State) : Host.Outcome State Fault Refusal :=
  let p := s.pair pair
  if wide && pairReached s pair then next ((s.setPair pair { p with outWord := 0#64 }).emit (.readData p.outWord.toNat))
  else next (s.emit (.readData 0))

/-- Posts the oldest held reply of a pair into its empty outbound mailbox (R453), and consumption resumes. -/
def postReply (s : State) (k : MboxId) : State :=
  let p := s.pair k
  match p.held with
  | [] => s
  | w :: ws =>
    if p.outWord ≠ 0#64 ∨ mboxRuns s k = false then s
    else fwDrain (pairVector (s.setPair k { p with outWord := w, held := ws }) k) k

def execReplyPost (pair : MboxId) (s : State) : Host.Outcome State Fault Refusal := next (postReply s pair)

/-- Both mailboxes of a pair stayed full for more than 1 ms (R459), which does not count while the serving core restarts. -/
def execCrossedWait (pair : MboxId) (s : State) : Host.Outcome State Fault Refusal :=
  let p := s.pair pair
  if p.inWord = 0#64 ∨ p.outWord = 0#64 ∨ pcoreRuns s (mboxCore pair) = false then next s
  else next ((pairVector (s.setPair pair { p with crossed := true }) pair).event none 5 (pairArg pair 0))

/-- A read of a lock register by an agent (R7, R450): it claims a free lock and reads zero, else reads the owner.
A read that does not reach the locks reads zero (R386, R393). -/
def execLockClaim (lock agent : Nat) (s : State) : Host.Outcome State Fault Refusal :=
  if !lockReached s agent then next (s.emit (.readData 0))
  else match mget s.pal.locks lock with
  | some o => next (s.emit (.readData o))
  | none => next ((if lock < 256 then { s with pal := { s.pal with locks := mset s.pal.locks lock agent } } else s).emit (.readData 0))

/-- A write of a lock register: by its owner it releases the lock, and Umber releases any (R7, R450). -/
def execLockRelease (lock agent : Nat) (s : State) : Host.Outcome State Fault Refusal :=
  match mget s.pal.locks lock with
  | none => next s
  | some o =>
    if agent = 0x200 then next { s with pal := { s.pal with locks := mdel s.pal.locks lock }, rel := { s.rel with guardOp := 4 } }
    else next (if o = agent ∧ lockReached s agent = true then { s with pal := { s.pal with locks := mdel s.pal.locks lock } } else s)

/-- Releases every lock of an owner (R450). -/
def releaseLocks (s : State) (agent : Nat) : State :=
  { s with pal := { s.pal with locks := s.pal.locks.filter (fun l => decide (l.2 ≠ agent)) } }

def noBlock : CmdBlock := ⟨false, 0#512, 0#32256⟩

/-- Release of the running image: RUNNING (R476). -/
def runningRelease (s : State) : Nat := (s.bank s.pal.active).release

/-- FW_HELLO (R454). -/
def execFwHello (pair : MboxId) (s : State) : Host.Outcome State Fault Refusal :=
  next (fwCommand 0x001 false pair noBlock (fun s c _ =>
    if wArg c.word ≠ 0 then refuse s .invalidField
    else (s, some { status := .success, arg := 2 + at_ 8 2 + at_ 16 (runningRelease s % 65536) })) s)

/-- CMD_WINDOW (R454). -/
def execCmdWindow (pair : MboxId) (s : State) : Host.Outcome State Fault Refusal :=
  next (fwCommand 0x002 false pair noBlock (fun s c _ =>
    accept (s.setPair c.pair { s.pair c.pair with window := some (wArg c.word) })) s)

/-- The other boot bank (R465). -/
def otherBank (b : Nat) : Nat := 1 - b

def minute10 : Nat := 600000000000

/-- Restarts of a core within 10 minutes after the last activation (R464). -/
def restartsAfterActivation (s : State) (n : Nat) : Nat :=
  match s.pal.activatedAt with
  | none => 0
  | some t => ((s.pcore n).restartTimes.filter (fun x => decide (t ≤ x) && decide (x ≤ t + minute10))).length

/-- 32 bytes of the fuses: ROOT_PKH (R484). -/
def rootPkh : List Byte := slice (Config.factory 1) 0 32

/-- The module serial number (R484). -/
def serial : Nat := leNat (slice (Config.factory 0) 0 8)

/-- A certificate is signed by an issuer's public key and carries a role (R484). -/
def certOk (issuer cert : List Byte) (role : Nat) : Bool :=
  decide (leAt cert 0 4 = 0x4B435231) && decide (leAt cert 4 1 % 16 = role) &&
    Config.slhVerify issuer (slice cert 0 128) (slice cert 128 7856)

/-- The public key a certificate carries (R484). -/
def certKey (cert : List Byte) : List Byte := slice cert 16 32

/-- Bytes of a bank. -/
def bankBytes (b : Bank) (a n : Nat) : List Byte :=
  (List.range n).map (fun i => match mget b.image (a + i), b.delivered with
    | some v, _ => v
    | none, some k => (Config.factory (11 + k)).getD (a + i) 0#8
    | none, none => 0#8)

/-- The bank holds its delivered image as it was delivered, which verifies (R555; log 6). -/
def Bank.intact (b : Bank) : Bool := b.delivered.isSome && b.image.isEmpty

/-- The checks of R486 on the image in a bank. -/
def imageVerifies (s : State) (b : Bank) : Bool :=
  let h := bankBytes b 0 16384
  let cert := slice h 256 7984
  let root := slice h 16096 32
  let paylen := leAt h 16 4
  if b.intact && decide (s.sec.lc = 2) then decide (s.sec.svnMin ≤ leAt h 8 2)
  else decide (leAt h 0 4 = 0x4B465731) && decide (leAt h 4 2 = 1) && decide (paylen % 4096 = 0) &&
    decide (paylen ≤ 134217728 - 16384) &&
    decide (sha256 root = rootPkh) && certOk root cert 1 && Config.slhVerify (certKey cert) (slice h 0 256) (slice h 8240 7856) &&
    decide (slice h 20 32 = sha256 (bankBytes b 16384 paylen)) && decide (s.sec.svnMin ≤ leAt h 8 2) &&
    (leAt h 14 1 % 64).testBit s.sec.lc

/-- Marks a bank by the outcome of its verification, with what its header says (R476, R485). -/
def markBank (s : State) (n : Nat) (ok : Bool) : State :=
  let b := s.bank n
  let h := bankBytes b 0 16
  s.setBank n { b with verified := ok, release := if ok then leAt h 6 2 else 0, svn := leAt h 8 2, stateVer := leAt h 10 2, stateMin := leAt h 12 2 }

/-- A rollback is possible: the inactive bank holds an image that verifies and accepts the state of the running one (R464, R466). -/
def canRollBack (s : State) : Bool :=
  let b := s.bank (otherBank s.pal.active)
  b.verified && imageVerifies s b && decide (b.stateMin ≤ (s.bank s.pal.active).stateVer) && decide (s.pal.act ≠ 4)

/-- A core that has restarted four times since the activation, with no rollback, restarts no sooner than 1 s after its previous
restart (R464). -/
def restartHeld (s : State) (n : Nat) : Bool :=
  decide (4 ≤ restartsAfterActivation s n) && decide (s.pal.act ≠ 4) &&
    (match (s.pcore n).restartTimes[1]? with
      | some t => decide (s.now < t + 1000000000)
      | none => false)

/-- A Palette core stops (R461 t0 and t1): its crash is recorded and its restart begins. The fourth restart within 10 minutes
of an activation rolls it back (R464); an activation that still waits for t1 is then refused as busy. The layout of the ARG of event 0x0001 is open (log 36). -/
def coreStops (s : State) (n lastCause cause xpc xaddr : Nat) : State :=
  let k := s.pcore n
  let s1 := s.setPcore n { k with cstate := 2, lastCause := lastCause, since := if k.cstate = 2 then k.since else s.now, restartTimes := s.now :: k.restartTimes }
  let s2 := ((s1.count (PAL_CORE_RESTARTS n)).trouble (unitId 16 2 n) .fx).event (some 0x10) 1 (cause + at_ 64 xpc + at_ 128 xaddr)
  if restartsAfterActivation s2 n = 4 ∧ canRollBack s2 = true then
    let s0 := if s2.pal.actCmd = 0 then s2 else finishCmd s2 s2.pal.actCmd { status := .busy }
    let s3 := s0.event (some 0x10) 7 0
    { s3 with pal := { s3.pal with act := 4, actCmd := 0, actDeferred := false }, saf := { s3.saf with stopped := true } }
  else s2

/-- A Palette core faults: an exception, or its memory protection unit refuses an access (R444, R461). -/
def execPaletteCoreFault (core : Nat) (mpu : Bool) (cause : Nat) (xpc xaddr : W64) (s : State) : Host.Outcome State Fault Refusal :=
  if 8 ≤ core ∨ (s.pcore core).cstate = 0 then next s
  else next (coreStops s core (if mpu then 2 else 1) cause xpc.toNat xaddr.toNat)

/-- A Palette core has missed 10 ms of heartbeat (R461, R505). -/
def execHeartbeatMiss (core : Nat) (s : State) : Host.Outcome State Fault Refusal :=
  if 8 ≤ core ∨ (s.pcore core).cstate = 0 then next s
  else next (coreStops (s.trouble (unitId 16 2 core) .tmo) core 3 3 0 0)

/-- Every pair that has a state, by its key. -/
def pairKeys (s : State) : List MboxId :=
  s.pal.pairs.map (fun p => if p.1 < 0x1000 then .block p.1 else if p.1 < 0x10000 then .page (p.1 - 0x1000) else .sec (p.1 - 0x10000))

/-- A receiver reset clears the unread inbound word of a pair (R460). -/
def clearInbound (s : State) (k : MboxId) : State :=
  let p := s.pair k
  if p.inWord = 0#64 then s
  else (pairVector (s.setPair k { p with inWord := 0#64, inRR := true, rrcnt := min (2 ^ 32 - 1) (p.rrcnt + 1) }) k).event none 6 (pairArg k 1)

/-- Writes bytes into a bank. -/
def bankWrite (b : Bank) (a : Nat) (bs : List Byte) : Bank :=
  { b with image := (bs.zipIdx).foldl (fun m x => if b.delivered.isSome then mset m (a + x.2) x.1 else msetC 0#8 m (a + x.2) x.1) b.image }

/-- FW_LOAD (R465, R533): `data` is what the host returns for the chunk, none for a failed read (log 40). -/
def execFwLoad (pair : MboxId) (blk : CmdBlock) (data : Option (List Byte)) (s : State) : Host.Outcome State Fault Refusal :=
  next (fwCommand 0x0A0 true pair blk (fun s c b =>
    let len := bn b 95 64
    let off := bn b 127 96
    let n := otherBank s.pal.active
    if !fromPf0 c then refuse s .accessDenied
    else if !bodyReserved b [] 129 || !zeroBits b 11 0 || len % 4096 != 0 || decide (16777216 < len) || decide (134217728 ≤ off) ||
        decide (134217728 < off + len) then refuse s .invalidField
    else if s.pal.act = 4 ∨ s.pal.actCmd ≠ 0 then refuse s .busy
    else if !s.master c.fn then refuse s .busMasterDisabled
    else match data with
      | none => refuse s .hostDmaError
      | some bs =>
        let s0 : State := { s with pal := { s.pal with actDeferred := false, act := if bt b 128 then 0 else 1 } }
        let s1 := s0.setBank n (bankWrite (if off = 0 then { s.bank n with verified := false } else s.bank n) off (slice bs 0 len))
        if !bt b 128 then accept s1
        else
          let ok := imageVerifies s1 (s1.bank n)
          (markBank s1 n ok, some { status := if ok then .success else .accessDenied })) s)

/-- SP_BIND (R469). -/
def execSpBind (pair : MboxId) (blk : CmdBlock) (s : State) : Host.Outcome State Fault Refusal :=
  next (fwCommand 0x090 true pair blk (fun s c b =>
    let q := bn b 7 0
    let sz := bn b 131 128
    if !fromPf0 c then refuse s .accessDenied
    else if !bodyReserved b [(63, 10), (143, 132)] 155 then refuse s .invalidField
    else if bt b 8 then accept { s with pal := { s.pal with spRings := mdel s.pal.spRings q } }
    else if !zeroBits b 75 64 || decide (sz < 4) || decide (12 < sz) then refuse s .invalidField
    else
      let r : SpRing := { base := bn b 127 64, sizeLog2 := sz, vector := bn b 154 144, port := bt b 9 }
      accept { s with pal := { s.pal with spRings := mset s.pal.spRings q r } }) s)

/-- LOG_BIND (R472): copying begins with the oldest record that the internal ring holds (log 11). -/
def execLogBind (pair : MboxId) (blk : CmdBlock) (s : State) : Host.Outcome State Fault Refusal :=
  next (fwCommand 0x0B0 true pair blk (fun s c b =>
    let sz := bn b 68 64
    if !fromPf0 c then refuse s .accessDenied
    else if !bodyReserved b [(79, 69), (95, 91)] 98 then refuse s .invalidField
    else if bt b 96 then accept { s with pal := { s.pal with logRing := none } }
    else if !zeroBits b 11 0 || decide (sz < 10) || decide (20 < sz) then refuse s .invalidField
    else
      let r : LogRing := { base := bn b 63 0, sizeLog2 := sz, vector := bn b 90 80, port := bt b 97, next := s.pal.logTail - 65536 }
      accept (copyLog 65536 { s with pal := { s.pal with logRing := some r } })) s)

/-- TRACE_SET (R473). -/
def execTraceSet (pair : MboxId) (blk : CmdBlock) (s : State) : Host.Outcome State Fault Refusal :=
  next (fwCommand 0x0B1 true pair blk (fun s c b =>
    if !fromPf0 c then refuse s .accessDenied
    else if !bodyReserved b [] 256 then refuse s .invalidField
    else accept { s with pal := { s.pal with trace := b.setWidth 256 } }) s)

/-- One interrupt for 100 µs in which log records were copied (R472). -/
def execLogCopyInterrupt (s : State) : Host.Outcome State Fault Refusal :=
  match s.pal.logRing with
  | none => next s
  | some r =>
    if r.dirty then next (({ s with pal := { s.pal with logRing := some { r with dirty := false } } } : State).msix (if r.port then 2048 else 0) r.vector)
    else next s

end Sys2Proof.Machine
end

