-- ==== Sys2Proof/Machine/Eth.lean ====
section
/-! DEFINITION. Ethernet ports and cartridges: tags and frames (R322), modes and links (R320, R321), timestamps (R324 to R326),
emitters, life logs and hot swap (R318, R319, R327 to R333), the frames handed to Weld (R357, R372), and with them the queues, gates
and shapers of a port (R355 to R367). -/

namespace Sys2Proof.Machine

open Sys2Proof

def State.eth (s : State) (p : Nat) : EthPort := mgetD s.net.eth p {}
def State.setEth (s : State) (p : Nat) (x : EthPort) : State := { s with net := { s.net with eth := mset s.net.eth p x } }
def State.cart (s : State) (e : Nat) : Cart := mgetD s.net.carts e {}
def State.setCart (s : State) (e : Nat) (x : Cart) : State := { s with net := { s.net with carts := mset s.net.carts e x } }

/-- MODE, PREEMPT and TSHOST of a port (R335). -/
def ethMode (s : State) (p : Nat) : Nat := s.reg (ETH_PORT_CFG p) % 4
def ethPreempt (s : State) (p : Nat) : Bool := (s.reg (ETH_PORT_CFG p)).testBit 2
def ethTshost (s : State) (p : Nat) : Bool := (s.reg (ETH_PORT_CFG p)).testBit 5

/-- The port is up (R336). -/
def EthPort.up (x : EthPort) : Bool := x.lstate == 3 || x.lstate == 4

/-- The port carries Carmine paths and accepts frames (R280, R332). -/
def ethOpen (s : State) (p : Nat) : Bool := (s.eth p).up && !(s.eth p).closing

/-- The in-service Ethernet ports in increasing number (R280). -/
def ethPorts (s : State) : List Nat := (List.range 64).filter (ethOpen s)

/-- The counter of a port in ns (R324). -/
def portNs (s : State) (p : Nat) : Int :=
  let x := s.eth p
  let rate := sgn 32 (s.reg (ETH_TS_RATE p))
  (x.ts32 + ((s.now - x.tsAt : Nat) : Int) * (2 ^ 32 + rate)) / 2 ^ 32

/-- Rebases a counter at the present moment, adding a step in ns (R326). -/
def stepTs (s : State) (p : Nat) (step : Int) : State :=
  let x := s.eth p
  let rate := sgn 32 (s.reg (ETH_TS_RATE p))
  s.setEth p { x with ts32 := x.ts32 + ((s.now - x.tsAt : Nat) : Int) * (2 ^ 32 + rate) + step * 2 ^ 32, tsAt := s.now }

def portSec (s : State) (p : Nat) : Nat := ((portNs s p / 1000000000) % 2 ^ 48).toNat
def portSubNs (s : State) (p : Nat) : Nat := (portNs s p % 1000000000).toNat

/-- The tags of a frame of a class on a port (R322). -/
def vlanTags (s : State) (p cls : Nat) : List Byte :=
  let v := s.reg (ETH_VLAN p)
  if !v.testBit 12 then []
  else
    beBytes 2 (v / 2 ^ 16 % 65536) ++ beBytes 2 (at_ 13 cls + v % 4096) ++
      (if v.testBit 44 then beBytes 2 0x8100 ++ beBytes 2 (at_ 13 cls + v / 2 ^ 32 % 4096) else [])

/-- The frame as it leaves: tags after the source address, padded to 60 bytes (R320, R322). -/
def wireFrame (s : State) (p cls : Nat) (bs : List Byte) : List Byte :=
  let f := bs.take 12 ++ vlanTags s p cls ++ bs.drop 12
  f ++ List.replicate (60 - f.length) 0#8

/-- Completes the SP_SEND of a frame that Weld has discarded (R372, R469). -/
def discardFrame (s : State) (p : Nat) (f : EFrame) : State :=
  let s1 := s.count (WELD_DISCARD p)
  if f.cmd = 0 then s1 else finishCmd s1 f.cmd { status := .aborted }

/-- Hands a frame to Weld (R356, R357): it waits for room; on a port that is down it is discarded (R372). -/
def handToWeld (s : State) (p key : Nat) (f : EFrame) : State :=
  if !ethOpen s p then discardFrame s p f
  else { s with net := { s.net with waiting := s.net.waiting ++ [⟨p, key, f⟩] } }

/-! Weld's queues, gates and shapers, as the ports need them when they go down (R355 to R357, R360 to R367). -/

def State.queue (s : State) (p q : Nat) : EQueue := mgetD s.net.queues (4096 * p + q) {}
def State.setQueue (s : State) (p q : Nat) (x : EQueue) : State := { s with net := { s.net with queues := mset s.net.queues (4096 * p + q) x } }
def State.shaper (s : State) (i : Nat) : Shaper := mgetD s.net.shapers i {}
def State.setShaper (s : State) (i : Nat) (x : Shaper) : State := { s with net := { s.net with shapers := mset s.net.shapers i x } }
def State.wport (s : State) (p : Nat) : WPort := mgetD s.net.wports p {}
def State.setWport (s : State) (p : Nat) (x : WPort) : State := { s with net := { s.net with wports := mset s.net.wports p x } }

/-- Fields of WELD_CLASS (R375). -/
def clsBase (s : State) (p k : Nat) : Nat := s.reg (WELD_CLASS p k) % 4096
def clsQn (s : State) (p k : Nat) : Nat := s.reg (WELD_CLASS p k) / 2 ^ 12 % 2 ^ 13
def clsWeight (s : State) (p k : Nat) : Nat := s.reg (WELD_CLASS p k) / 2 ^ 25 % 256
def clsStrict (s : State) (p k : Nat) : Bool := (s.reg (WELD_CLASS p k)).testBit 33

/-- The queue a source chooses (R356). -/
def queueFor (s : State) (p k key : Nat) : Nat := clsBase s p k + key % max 1 (clsQn s p k)

/-- The class whose range holds a queue (R355), else the class it had (R372). -/
def queueClass (s : State) (p q : Nat) : Option Nat :=
  match (List.range 8).find? (fun k => decide (clsBase s p k ≤ q) && decide (q < clsBase s p k + clsQn s p k)) with
  | some k => some k
  | none => (s.queue p q).lastCls

/-- Fields of WELD_Q_CFG (R374). -/
def EQueue.samp (q : EQueue) : Bool := bt q.cfg 0
def EQueue.gated (q : EQueue) : Bool := bt q.cfg 1
def EQueue.gbit (q : EQueue) : Nat := bn q.cfg 4 2
def EQueue.weight (q : EQueue) : Nat := bn q.cfg 12 5
def EQueue.shpEn (q : EQueue) : Bool := bt q.cfg 13
def EQueue.shaperNo (q : EQueue) : Nat := bn q.cfg 27 14

/-- Bytes of a frame from destination address to FCS, tags included (R357). -/
def frameLen (s : State) (p cls : Nat) (f : EFrame) : Nat := (wireFrame s p cls f.bytes).length + 4

/-- L′: the frame's bytes and OVERHEAD (R358). -/
def frameCost (s : State) (p cls : Nat) (f : EFrame) : Nat := frameLen s p cls f + s.reg (WELD_PORT_CFG p) % 64

/-- Bytes in a queue, and in the egress buffer of a port (R357). -/
def queueBytes (s : State) (p cls : Nat) (q : EQueue) : Nat := (q.frames.map (frameLen s p cls)).sum
def portQueues (s : State) (p : Nat) : List (Nat × EQueue) := (s.net.queues.filter (fun q => q.1 / 4096 == p)).map (fun q => (q.1 % 4096, q.2))
def bufferBytes (s : State) (p : Nat) : Nat := ((portQueues s p).map (fun q => queueBytes s p ((queueClass s p q.1).getD 1) q.2)).sum

-- Time gates

/-- The position of a running list in its cycle (R365). -/
def gatePos (s : State) (p : Nat) (g : GateList) : Nat := ((portNs s p - g.base) % (g.cycle : Int)).toNat

/-- The entries of one cycle as windows, start and end, cut to the cycle; the last lasts to its end (R365). -/
def gateWindows (cycle : Nat) : List GateEntry → Nat → List (Nat × Nat × GateEntry)
  | [], _ => []
  | e :: es, t =>
    let stop := if es.all (fun x => x.interval == 0) then cycle else min cycle (t + e.interval)
    if cycle ≤ t then []
    else if e.interval = 0 then gateWindows cycle es t
    else (t, stop, e) :: gateWindows cycle es stop

def GateList.windows (g : GateList) : List (Nat × Nat × GateEntry) := gateWindows g.cycle g.entries 0

/-- An entry opens a queue (R364, R365). -/
def entryOpens (q : EQueue) (e : GateEntry) : Bool := if q.gated then e.gates.getLsbD q.gbit else e.others

/-- Length of the run of open windows from the start of a list of windows. -/
def openRun (q : EQueue) : List (Nat × Nat × GateEntry) → Nat
  | [] => 0
  | (a, b, e) :: ws => if entryOpens q e then (b - a) + openRun q ws else 0

/-- The time for which a queue's gate stays open from now, none when it counts as always open, at most two cycles ahead
(R367). -/
def openFor (s : State) (p : Nat) (g : GateList) (q : EQueue) : Option Nat :=
  if g.entries.isEmpty then none
  else
    let pos := gatePos s p g
    let now_ := (g.windows.filter (fun w => decide (pos < w.2.1))).map (fun w => (max pos w.1, w.2.1, w.2.2))
    let run := openRun q (now_ ++ g.windows ++ g.windows)
    if 2 * g.cycle ≤ run then none else some run

/-- The longest open window of a queue's gate, none when it is always open (R367). -/
def longestOpen (g : GateList) (q : EQueue) : Option Nat :=
  let ws := g.windows ++ g.windows
  let runs := (List.range g.windows.length).map (fun i => openRun q (ws.drop i))
  let best := runs.foldl max 0
  if g.entries.isEmpty ∨ 2 * g.cycle ≤ openRun q (ws ++ ws) then none else some best

/-- Rate of a port in bits per ns (R320). -/
def portRate (s : State) (p : Nat) : Nat := if (s.eth p).lstate = 3 then 1600 else 800

/-- The frame ends before its gate closes (R367). -/
def gateAllows (s : State) (p cls : Nat) (q : EQueue) (f : EFrame) : Bool :=
  cls == 0 || (match openFor s p (s.wport p).running q with
    | none => true
    | some t => decide (frameCost s p cls f * 8 ≤ t * portRate s p))

-- Shapers

/-- Queues bound to a shaper that hold frames. -/
def boundQueues (s : State) (i : Nat) : List (Nat × Nat × EQueue) :=
  ((s.net.queues.filter (fun q => q.2.shpEn && q.2.shaperNo == i && !q.2.frames.isEmpty && decide (q.1 / 131072 = i / 8192))).map
    (fun q => (q.1 / 4096, q.1 % 4096, q.2))).filter (fun q => queueClass s q.1 q.2.1 != some 0)

/-- Credits over the time since the last decision (R360). With CIR = 0, C stays at its committed value (R361). Accrual is rounded toward −∞ to 1/256 byte (log 41). -/
def shaperNow (s : State) (i : Nat) : Shaper :=
  let x := s.shaper i
  let dt := s.now - x.at_
  let add (r : Nat) : Int := (r * dt * 256 / 8000 : Nat)
  let qs := boundQueues s i
  let held := !qs.isEmpty && qs.all (fun q => openFor s q.1 (s.wport q.1).running q.2.2 == some 0)
  let c := if held ∨ x.cir = 0 then x.c
    else if !qs.isEmpty then min (x.c + add x.cir) (256 * x.cbs)
    else if x.c < 0 then min (x.c + add x.cir) 0
    else 0
  { x with c := c, p := if x.pir = 0 then x.p else min (x.p + add x.pir) (256 * x.pbs), at_ := s.now }

/-- Brings the shapers of a port's queues up to the present. -/
def tickShapers (s : State) (p : Nat) : State :=
  let used := ((portQueues s p).filter (fun q => q.2.shpEn)).map (fun q => q.2.shaperNo)
  used.eraseDups.foldl (fun s i => s.setShaper i (shaperNow s i)) s

/-- Discards every frame queued for a port; its shapers are brought up to this moment first (R360, R372). -/
def flushPort (s : State) (p : Nat) : State :=
  let waits := (s.net.waiting.filter (fun w => w.port == p)).map (·.frame)
  let queued := ((s.net.queues.filter (fun q => q.1 / 4096 == p)).map (·.2.frames)).flatten
  let s0 := tickShapers s p
  let s1 : State := { s0 with net := { s0.net with
    waiting := s.net.waiting.filter (fun w => w.port != p)
    queues := mmap s.net.queues (fun k q => if k / 4096 = p then { q with frames := [], deficit := 0 } else q)
    wports := mmod s.net.wports p (fun w => { w with classD := [], flight := none }) } }
  (queued ++ waits).foldl (fun s f => discardFrame s p f) s1

/-- The half-ports of an engine that the modes ask to light (R320, R321). -/
def halfAsked (s : State) (e h : Nat) : Bool :=
  let m := ethMode s (4 * e + h / 2)
  m == 1 || (m == 2 && h % 2 == 0) || (m == 3 && h % 2 == 1)

/-- The emitter that lights a half-port now, none for a dark one (R334). -/
def halfLit (s : State) (e h : Nat) : Option Nat :=
  let k := s.cart e
  if k.cstate = 2 ∧ halfAsked s e h = true ∧ (s.eth (4 * e + h / 2)).deadHalf.getLsbD (h % 2) = false then mget k.assign h else none

/-- Spares standing by in a cartridge, lowest first (R318, R337). -/
def spareEmitters (k : Cart) : List Nat := (List.range 12).filter (fun i => !k.retired.getLsbD i && !k.assign.any (fun a => a.2 == i))

/-- Brings a port to the state its light allows (R321, R331): training when it can be lit, else down. -/
def relight (s : State) (p : Nat) : State :=
  let x := s.eth p
  let e := p / 4
  let m := ethMode s p
  let lo := (halfLit s e (2 * (p % 4))).isSome
  let hi := (halfLit s e (2 * (p % 4) + 1)).isSome
  if x.lstate = 5 then s
  else
    let s1 := flushPort s p
    let down (cause : Nat) : EthPort := { x with lstate := 1, cause := cause, pstate := 0, degraded := false }
    let dark : Nat := if (s.cart e).cstate = 4 then 4 else if (s.cart e).cstate ≠ 2 then 3 else 2
    if m = 0 then s1.setEth p { x with lstate := 0, cause := 6, pstate := 0, degraded := false }
    else if !lo && !hi then s1.setEth p (down dark)
    else s1.setEth p { x with lstate := 2, pstate := 0, degraded := m == 1 && !(lo && hi), half := if m = 1 then !lo else m == 3 }

/-- The fields of ETH_PORT_CFG (R335). -/
def portCfgMask : Nat := 0x3F

/-- PREEMPT has been written on a port that is up: 1 starts the verify process, 0 ends preemption (R323). -/
def startVerify (s : State) (p : Nat) (was : Bool) : State :=
  let x := s.eth p
  if !x.up || ethPreempt s p == was then s else s.setEth p { x with pstate := if was then 0 else 1, attempts := 0 }

/-- A write to ETH_PORT_CFG (R321): a change of MODE takes the port down and trains it in the new mode. -/
def execEthPortCfgWrite (port : Nat) (value : W32) (s : State) : Host.Outcome State Fault Refusal :=
  let old := ethMode s port
  let s1 := s.setReg (ETH_PORT_CFG port) (value.toNat % 64)
  if 64 ≤ port then next s
  else next (if value.toNat % 4 = old then startVerify s1 port (ethPreempt s port) else relight s1 port)

/-- The mode of a port has a half-port that is lit (R321). -/
def portLit (s : State) (p : Nat) : Bool := (halfLit s (p / 4) (2 * (p % 4))).isSome || (halfLit s (p / 4) (2 * (p % 4) + 1)).isSome

/-- Training completes and the port comes up (R320, R321, R323); one that a link partner failed comes up when the partner is there. -/
def execEthLinkUp (port : Nat) (s : State) : Host.Outcome State Fault Refusal :=
  let x := s.eth port
  if x.lstate ≠ 2 ∧ ¬ (x.lstate = 1 ∧ portLit s port = true) then next s
  else next (s.setEth port { x with
    lstate := if ethMode s port = 1 ∧ x.degraded = false then 3 else 4
    pstate := if ethPreempt s port then 1 else 0
    attempts := 0 })

/-- The link fails: no partner signal, or FEC failure (R336, R372). The port is down until it comes up again (R321). -/
def execEthLinkDown (port cause : Nat) (s : State) : Host.Outcome State Fault Refusal :=
  let x := s.eth port
  if !(x.up || x.lstate == 2) then next s
  else next ((flushPort s port).setEth port { x with lstate := 1, cause := cause % 16, pstate := 0 })

/-- A verify attempt of 802.3br ends (R323): three failures end the process. -/
def execPreemptVerify (port : Nat) (ok : Bool) (s : State) : Host.Outcome State Fault Refusal :=
  let x := s.eth port
  if !x.up || x.pstate != 1 then next s
  else if ok then next (s.setEth port { x with pstate := 2 })
  else next (s.setEth port { x with attempts := x.attempts + 1, pstate := if 2 ≤ x.attempts then 3 else 1 })

/-- A 32-bit read of ETH_TS_NS returns the nanoseconds and latches the seconds (R326). -/
def execTsLatchRead (port : Nat) (s : State) : Host.Outcome State Fault Refusal :=
  next ((s.setEth port { s.eth port with latched := portSec s port }).emit (.readData (portSubNs s port)))

/-- A write to ETH_TS_RATE (R326): ignored while firmware steers. -/
def execTsRateWrite (port : Nat) (value : W32) (s : State) : Host.Outcome State Fault Refusal :=
  next (if ethTshost s port then (stepTs s port 0).setReg (ETH_TS_RATE port) value.toNat else s)

-- Life log and cartridge record fields (R327, R328)

def recSerial (c : CartIn) : Nat := leAt c.record 8 8
def recBias0 (c : CartIn) (i : Nat) : Nat := leAt c.record (40 + 2 * i) 2
def logHours (c : CartIn) (i : Nat) : Nat := leAt c.log (4 * i) 4
def logNext (c : CartIn) : Nat := leAt c.log 50 2 % 2048

/-- Replaces bytes of a list. -/
def splice (bs : List Byte) (a : Nat) (v : List Byte) : List Byte := bs.take a ++ v ++ bs.drop (a + v.length)

/-- The 64-byte header of a life log (R328). -/
def logHeader (hours : Nat → Nat) (retired nxt : Nat) : List Byte :=
  ((List.range 12).map (fun i => leBytes 4 (hours i))).flatten ++ leBytes 2 retired ++ leBytes 2 nxt ++ List.replicate 12 0#8

/-- Writes an entry into a cartridge's life log (R328). The temperature is a measurement (log 3). -/
def lifeLog (s : State) (e event emitter half : Nat) : State :=
  let k := s.cart e
  match k.data with
  | none => s
  | some c =>
    let (d, s1) := s.draw
    let n := logNext c
    let bias := if emitter < 12 then mgetD k.bias emitter 1024 else 0
    let entry := leBytes 32 (event + at_ 8 (min 255 emitter) + at_ 16 (min 255 half) + at_ 32 k.chours + at_ 64 s.fab.node + at_ 80 e +
      at_ 96 (bias % 65536) + at_ 112 ((Config.freeWord d).toNat % 65536))
    let c1 : CartIn := { c with log := splice (splice c.log (64 + 32 * n) entry) 50 (leBytes 2 (if n = 2045 then 0 else n + 1)) }
    s1.setCart e { k with data := some c1 }

def emitterUnit (e i : Nat) : Nat := unitId 18 e (32 + i)

/-- An emitter lights a half-port in a retired one's place (R19, R318). -/
def takeHalf (s : State) (e h i old : Nat) : State :=
  let k := s.cart e
  (s.setCart e { k with assign := mset k.assign h i }).setUnit (emitterUnit e i) { s.unit (emitterUnit e i) with state := .inService, standsFor := some (emitterUnit e old) }

/-- Assigns a spare to a half-port in place of an emitter, where one stands by (R330, R331). -/
def assignSpare (s : State) (e h old : Nat) : State :=
  match spareEmitters (s.cart e) with
  | [] => s
  | i :: _ => lifeLog (takeHalf s e h i old) e 4 i h

/-- Retires an emitter (R330): it is never lit again; a spare takes its half-port, unless a release runs (R333). -/
def retireEmitter (s : State) (e i : Nat) : State :=
  let k := s.cart e
  if k.retired.getLsbD i || k.data.isNone then s
  else
    let ret := k.retired ||| BitVec.ofNat 12 (2 ^ i)
    let k1 : Cart := { k with
      retired := ret
      data := k.data.map (fun c => ({ c with log := splice c.log 48 (leBytes 2 ret.toNat) } : CartIn))
      move := if k.move.any (fun m => m.2 == i) then none else k.move }
    let u := emitterUnit e i
    let s1 := lifeLog ((s.setCart e k1).setUnit u { s.unit u with state := .retired, standsFor := none }) e 6 i 0xFF
    match k1.assign.find? (fun a => a.2 == i) with
    | none => s1
    | some (h, _) =>
      let s2 := s1.setCart e { s1.cart e with assign := mdel (s1.cart e).assign h }
      let s3 := if k.cstate ≠ 2 ∨ k.releasing = true then s2 else assignSpare s2 e h i
      if k.cstate = 2 ∧ halfAsked s e h = true then relight s3 (4 * e + h / 2) else s3

/-- The bias measurement of a lit emitter, once a second (R330). -/
def execEmitterBiasCheck (engine emitter bias : Nat) (s : State) : Host.Outcome State Fault Refusal :=
  let k := s.cart engine
  match (List.range 8).find? (fun h => halfLit s engine h == some emitter) with
  | none => next s
  | some h =>
    let s1 := s.setCart engine { k with bias := mset k.bias emitter bias }
    if 1434 ≤ bias then next (retireEmitter s1 engine emitter)
    else if bias < 1280 ∨ k.move.isSome = true ∨ k.releasing = true then next s1
    else match spareEmitters k with
      | i :: _ => next (s1.setCart engine { s1.cart engine with move := some (h, i) })
      | [] =>
        let (ev, s2) := s1.choose 65536
        next (s2.event none ev (emitterUnit engine emitter))

/-- The spare is lit and stabilised, and the switch hands the half-port over (R330). -/
def execPlannedMoveHandover (engine : Nat) (s : State) : Host.Outcome State Fault Refusal :=
  let k := s.cart engine
  match k.move with
  | none => next s
  | some (h, i) =>
    let old := mgetD k.assign h 0
    let s1 := lifeLog (takeHalf (s.setCart engine { k with move := none }) engine h i old) engine 5 i h
    next (retireEmitter s1 engine old)

/-- An emitter fails, or its target power cannot be held (R330). -/
def execEmitterFailure (engine emitter : Nat) (s : State) : Host.Outcome State Fault Refusal :=
  next (if emitter < 12 then retireEmitter s engine emitter else s)

/-- CART_READ (R329). -/
def execCartRead (pair : MboxId) (blk : CmdBlock) (s : State) : Host.Outcome State Fault Refusal :=
  next (fwCommand 0x051 true pair blk (fun s c b =>
    if !fromPf0 c then refuse s .accessDenied
    else if !bodyReserved b [(63, 4), (69, 64)] 128 then refuse s .invalidField
    else match (s.cart (bn b 3 0)).data with
      | none => refuse s .invalidField
      | some d => accept (s.hostWrite c.fn (bn b 127 64) (slice d.record 0 8112 ++ slice d.log 0 65536))) s)

/-- CART_RELEASE, t0 of R332. The reply follows t1 (log 42). -/
def execCartRelease (pair : MboxId) (blk : CmdBlock) (s : State) : Host.Outcome State Fault Refusal :=
  next (fwCommand 0x050 true pair blk (fun s c b =>
    let e := bn b 3 0
    let k := s.cart e
    if !fromPf0 c then refuse s .accessDenied
    else if !bodyReserved b [] 4 then refuse s .invalidField
    else if k.cstate = 0 ∨ k.cstate = 1 ∨ k.cstate = 3 ∨ k.releasing = true then refuse s .busy
    else
      let s1 := s.setCart e { k with releasing := true, cmd := c.id, move := none }
      ((List.range 4).foldl (fun s i => s.setEth (4 * e + i) { s.eth (4 * e + i) with closing := true }) s1, none)) s)

/-- Takes the four ports of an engine down with a cause (R332, R333). -/
def enginePortsDown (s : State) (e cause : Nat) : State :=
  (List.range 4).foldl (fun s i =>
    let p := 4 * e + i
    let x := s.eth p
    if x.lstate = 0 ∨ x.lstate = 5 then s.setEth p { x with closing := false }
    else (flushPort s p).setEth p { x with lstate := 1, cause := cause, pstate := 0, degraded := false, closing := false }) s

/-- t1 of R332: the queued frames have left or are discarded, and the emitters are dark. -/
def execCartReleaseDone (engine : Nat) (s : State) : Host.Outcome State Fault Refusal :=
  let k := s.cart engine
  if !k.releasing then next s
  else
    let s1 := lifeLog s engine 2 0xFF 0xFF
    let s2 := enginePortsDown (s1.setCart engine { s1.cart engine with releasing := false, cmd := 0, cstate := 3 }) engine 3
    next (if k.cmd = 0 then s2 else finishCmd s2 k.cmd { status := .success })

/-- The latch opens (R332, R333). Without a release the interlock darkens every emitter; the cartridge then reads as absent
(log 43). -/
def execLatchOpen (engine : Nat) (s : State) : Host.Outcome State Fault Refusal :=
  let k := s.cart engine
  if k.cstate = 1 then next (s.setCart engine { k with latch := false, cstate := 3 })
  else if k.cstate = 3 ∨ k.cstate = 0 then next (s.setCart engine { k with latch := false })
  else
    let ser := (k.data.map recSerial).getD 0
    let s1 := enginePortsDown (s.setCart engine { k with latch := false, cstate := 0, move := none, releasing := false, cmd := 0 }) engine 3
    let s2 : State := { s1 with net := { s1.net with removed := s1.net.removed ++ [ser] } }
    next (if k.cmd = 0 then s2 else finishCmd s2 k.cmd { status := .aborted })

/-- The latch closes over what stands in the bay (R332). -/
def execLatchClose (engine : Nat) (cart : Option CartIn) (s : State) : Host.Outcome State Fault Refusal :=
  let k := s.cart engine
  if k.latch then next s
  else match cart with
    | none => next (s.setCart engine { latch := true })
    | some c => next (s.setCart engine { latch := true, cstate := 1, data := some c })

/-- The public key that signs cartridge records: the ROLE 5 certificate's (R327, R484; log 6). -/
def cartKey : List Byte := certKey (Config.factory 6)

/-- The checks on a cartridge (R327, R328, R332). -/
def cartOk (c : CartIn) : Bool :=
  decide (c.record.length = 8112) && decide (c.log.length = 65536) && decide (leAt c.record 0 4 = 0x4B4C4331) &&
    decide (leAt c.record 4 2 = 1) && decide (leAt c.record 36 1 % 16 = 12) && decide (logNext c ≤ 2045) &&
    Config.slhVerify cartKey (slice c.record 0 256) (slice c.record 256 7856)

/-- t4 of R332: unit states are loaded from the life log, emitters are assigned, and the ports train (R318, R319). -/
def cartInService (s : State) (e : Nat) (c : CartIn) : State :=
  let k := s.cart e
  let ret := BitVec.ofNat 12 (leAt c.log 48 2)
  let last := (logNext c + 2045) % 2046
  let k1 : Cart := { k with cstate := 2, retired := ret, chours := leAt c.log (64 + 32 * last + 4) 4, assign := ((List.range 8).filter (fun i => !ret.getLsbD i)).map (fun i => (i, i)) }
  let s1 := (List.range 12).foldl (fun s i =>
    s.setUnit (emitterUnit e i) { s.unit (emitterUnit e i) with state := if ret.getLsbD i then .retired else if 8 ≤ i then .spare else .inService, standsFor := none }) (s.setCart e k1)
  let s2 := lifeLog (s1.setUnit (unitId 18 e 48) { s1.unit (unitId 18 e 48) with state := .inService }) e 1 0xFF 0xFF
  let s3 : State := if s2.net.removed.contains (recSerial c) then lifeLog { s2 with net := { s2.net with removed := s2.net.removed.erase (recSerial c) } } e 3 0xFF 0xFF else s2
  let s4 := (List.range 8).foldl (fun s h => match mget (s.cart e).assign h with
    | some i => lifeLog s e 4 i h
    | none => assignSpare s e h h) s3
  (List.range 4).foldl (fun s i => relight s (4 * e + i)) s4

/-- Verification of a cartridge ends (R332 t3, R513 test 0x05). -/
def execCartVerifyDone (engine : Nat) (refOk : Bool) (s : State) : Host.Outcome State Fault Refusal :=
  let k := s.cart engine
  if k.cstate ≠ 1 then next s
  else match k.data with
    | none => next s
    | some c =>
      if cartOk c && refOk then next (cartInService s engine c)
      else next ((List.range 4).foldl (fun s i => relight s (4 * engine + i)) (s.setCart engine { k with cstate := 4 }))

/-- The emitters that are lit now. -/
def litEmitters (s : State) (e : Nat) : List Nat := (List.range 8).filterMap (halfLit s e)

/-- HOURS and powered hours, once an hour (R328). -/
def execCartHourlyLog (engine : Nat) (s : State) : Host.Outcome State Fault Refusal :=
  let k := s.cart engine
  match k.data with
  | none => next s
  | some c =>
    let lit := litEmitters s engine
    let hours := lit.foldl (fun (l : List Byte) i => splice l (4 * i) (leBytes 4 (min (2 ^ 32 - 1) (logHours c i + 1)))) c.log
    next (s.setCart engine { k with chours := min (2 ^ 32 - 1) (k.chours + 1), data := some { c with log := hours } })

/-- A daily sample for every lit emitter (R328). -/
def execCartDailySample (engine : Nat) (s : State) : Host.Outcome State Fault Refusal :=
  next ((List.range 8).foldl (fun t h => match halfLit s engine h with
    | some i => lifeLog t engine 8 i h
    | none => t) s)

end Sys2Proof.Machine
end

