-- ==== Sys2Proof/Machine/Weld.lean ====
section
/-! DEFINITION. Weld: the port scheduler and deficit round robin (R358, R359), the commit of shapers (R363), gate lists and the guard band
(R366, R367), admission of TC0 and its preemption (R323, R368), sampling (R371). -/

namespace Sys2Proof.Machine

open Sys2Proof

/-- Committed-eligible and peak-eligible, as far as the shaper decides (R361, R362). -/
def shaperCommitted (s : State) (cls : Nat) (q : EQueue) : Bool :=
  if cls = 0 ∨ q.shpEn = false then true
  else let x := s.shaper q.shaperNo
    !x.en || (decide (0 ≤ x.c) && (x.pir == 0 || decide (0 ≤ x.p)))

def shaperPeak (s : State) (cls : Nat) (q : EQueue) : Bool :=
  if cls = 0 ∨ q.shpEn = false then true
  else let x := s.shaper q.shaperNo
    !x.en || x.pir == 0 || decide (0 ≤ x.p)

/-- A commit of a shaper (R363). -/
def execShaperCommit (shaper : Nat) (value : W32) (s : State) : Host.Outcome State Fault Refusal :=
  let v := value.toNat % 4
  let r := s.reg (WELD_SHP_RATE shaper)
  let b := s.reg (WELD_SHP_BURST shaper)
  let cbs := b % 2 ^ 24
  let pbs := b / 2 ^ 24 % 2 ^ 24
  let full := !v.testBit 1
  let x : Shaper := { en := v.testBit 0, cir := r % 2 ^ 24, pir := r / 2 ^ 24 % 2 ^ 24, cbs := cbs, pbs := pbs, c := if full then 256 * cbs else 0, p := if full then 256 * pbs else 0, at_ := s.now }
  if 16384 ≤ shaper then next s else next ((s.setReg (WELD_SHP_CTRL shaper) v).setShaper shaper x)

-- Deficit round robin

/-- One candidate of a round robin: its number, what its head frame costs, its quantum. -/
structure DrrItem where
  id : Nat
  cost : Nat
  quantum : Nat

/-- Rounds of R359 from a list of members in turn order, `n` visits at most: the member chosen and the deficits. -/
def drrGo : Nat → List DrrItem → List DrrItem → Map Nat → Option (Nat × Map Nat)
  | 0, _, _, _ => none
  | n + 1, all, [], d => drrGo n all all d
  | n + 1, all, x :: xs, d =>
    let v := mgetD d x.id 0 + x.quantum
    if x.cost ≤ v then some (x.id, mset d x.id (v - x.cost)) else drrGo n all xs (mset d x.id v)

/-- Deficit round robin (R359): the member in turn goes on while its deficit allows; then the members after it, and round
again. `items` are the eligible members in increasing number. -/
def drr (items : List DrrItem) (d : Map Nat) (cur : Option Nat) : Option (Nat × Map Nat) :=
  if items.isEmpty then none
  else
    let here := items.find? (fun x => cur == some x.id)
    match here with
    | some x =>
      if x.cost ≤ mgetD d x.id 0 then some (x.id, mset d x.id (mgetD d x.id 0 - x.cost))
      else drrGo (400 * (items.length + 1)) items (items.filter (fun y => decide (x.id < y.id))) d
    | none => drrGo (400 * (items.length + 1)) items (items.filter (fun y => decide (cur.getD 0 ≤ y.id))) d

/-- A queue that a decision may choose: port queue number, contents, class. -/
structure Cand where
  q : Nat
  x : EQueue
  cls : Nat
  head : EFrame

/-- The queues of a port that hold a frame, with their classes. -/
def candidates (s : State) (p : Nat) : List Cand :=
  (portQueues s p).filterMap (fun q => match q.2.frames.head?, queueClass s p q.1 with
    | some f, some k => some ⟨q.1, q.2, k, f⟩
    | _, _ => none)

/-- The class a head frame is sent in: TC0 frames longer than 4,160 bytes go as TC1 (R368). -/
def sendClass (s : State) (p : Nat) (c : Cand) : Nat := if c.cls = 0 ∧ 4160 < frameLen s p 0 c.head then 1 else c.cls

/-- The admission bucket now (R368). -/
def bucketNow (s : State) (p : Nat) : Int :=
  let w := s.wport p
  let cap : Int := 256 * (4160 + s.reg (WELD_PORT_CFG p) % 64 : Nat)
  match w.x with
  | none => cap
  | some x => min cap (x + ((s.now - w.xAt) * 2 * portRate s p : Nat))

/-- The frame a class would send, and the deficits after (R358): committed-eligible queues first, then peak-eligible. A frame of a TC0
queue that is sent in TC1 meets neither gates nor shapers (R362, R367). -/
def classPick (s : State) (p k : Nat) (cs : List Cand) : Option (Cand × Map Nat × Nat) :=
  let w := s.wport p
  let mine := cs.filter (fun c => sendClass s p c == k && gateAllows s p c.cls c.x c.head)
  let run (set : List Cand) (slot : Nat) : Option (Cand × Map Nat × Nat) :=
    let items := set.map (fun c => (⟨c.q, frameCost s p k c.head, 64 * c.x.weight⟩ : DrrItem))
    match drr items (set.map (fun c => (c.q, c.x.deficit))) (mget w.curQueue slot) with
    | none => none
    | some (q, d) => (set.find? (fun c => c.q == q)).map (fun c => (c, d, slot))
  let committed := mine.filter (fun c => shaperCommitted s c.cls c.x)
  if !committed.isEmpty then run committed (2 * k)
  else run (mine.filter (fun c => shaperPeak s c.cls c.x)) (2 * k + 1)

/-- Removes the head frame of a queue; an emptied queue loses its deficit (R359). -/
def dequeue (s : State) (p q : Nat) : State :=
  let x := s.queue p q
  s.setQueue p q { x with frames := x.frames.drop 1, deficit := if x.frames.length ≤ 1 then 0 else x.deficit }

/-- Starts a frame: shapers and the counters are charged, and the frame leaves (R358, R360, R368). -/
def sendFrame (s : State) (p k : Nat) (c : Cand) : State :=
  let cost := frameCost s p k c.head
  let s1 := dequeue s p c.q
  let s2 := if c.cls ≠ 0 ∧ c.x.shpEn = true then
      (let x := s1.shaper c.x.shaperNo
       s1.setShaper c.x.shaperNo { x with c := if x.cir = 0 then x.c else x.c - 256 * cost, p := x.p - 256 * cost })
    else s1
  let s3 := if k ≠ c.cls then s2.count (WELD_EXP_DEMOTE p) else s2
  let s4 := ((s3.count (ETH_TX_FRAMES p)).emit (.frameTime p (portSec s p) (portSubNs s p))).emit (.frame p (wireFrame s p k c.head.bytes))
  if c.head.cmd = 0 then s4 else finishCmd s4 c.head.cmd { status := .success }

/-- Discards head frames longer than every open window of their gate, and counts those the guard band holds (R367). -/
def guardBand (s : State) (p : Nat) : State :=
  let g := (s.wport p).running
  (candidates s p).foldl (fun s c =>
    if c.cls = 0 then s
    else match longestOpen g c.x with
      | none => s
      | some w =>
        if w * portRate s p < frameCost s p c.cls c.head * 8 then discardHead s p c
        else if openFor s p g c.x != some 0 && !gateAllows s p c.cls c.x c.head && !c.head.gbHeld then
          (s.count (WELD_GB_HOLD p)).setQueue p c.q { c.x with frames := { c.head with gbHeld := true } :: c.x.frames.drop 1 }
        else s) s
where
  /-- Drops the head frame of a queue for R367. -/
  discardHead (s : State) (p : Nat) (c : Cand) : State :=
    let s1 := (dequeue s p c.q).count (WELD_GB_DROP p)
    if c.head.cmd = 0 then s1 else finishCmd s1 c.head.cmd { status := .aborted }

/-- Classes without a frame lose their deficit (R359). -/
def settleClasses (s : State) (p : Nat) : State :=
  let cs := candidates s p
  let w := s.wport p
  s.setWport p { w with classD := w.classD.filter (fun d => cs.any (fun c => sendClass s p c == d.1)) }

/-- The time a frame takes on the wire, in 1/200 ns (R320). -/
def wireTime (s : State) (p cost : Nat) : Nat := if (s.eth p).lstate = 3 then cost else 2 * cost

/-- A frame starts on the preemptable MAC of a port whose preemption is active (R323). -/
def takeOff (s : State) (p : Nat) (c : Cand) : State :=
  let w := s.wport p
  if (s.eth p).pstate ≠ 2 then s
  else
    let close := if c.cls = 0 then none else (openFor s p w.running c.x).map (fun t => 200 * (s.now + t))
    s.setWport p { w with flight := some ⟨200 * s.now, 200 * s.now + wireTime s p (frameCost s p c.cls c.head), close, false⟩ }

/-- A TC0 frame of `cost` bytes starts. While a preemptable frame is still leaving, and a fragment of at least 64 × (FRAG + 1) bytes of it has
left, it is interrupted (R323); a frame that this carries past the close of its gate is counted (R367). -/
def preempt (s : State) (p cost : Nat) : State :=
  let w := s.wport p
  match w.flight with
  | none => s
  | some f =>
    let least := wireTime s p (64 * (s.reg (ETH_PORT_CFG p) / 8 % 4 + 1))
    if (s.eth p).pstate ≠ 2 ∨ f.stop ≤ 200 * s.now ∨ 200 * s.now < f.start + least then s
    else
      let stop := f.stop + wireTime s p cost
      let past := !f.past && (match f.close with
        | some t => decide (t < stop)
        | none => false)
      let s1 := (s.setWport p { w with flight := some { f with stop := stop, past := f.past || past } }).count (ETH_FRAGS p)
      if past then s1.count (WELD_GATE_OVERRUN p) else s1

/-- TC0 queues in round robin, one frame each (R358). -/
def tc0Pick (s : State) (p : Nat) (cs : List Cand) : Option Cand :=
  let mine := cs.filter (fun c => sendClass s p c == 0)
  match mine.find? (fun c => decide ((s.wport p).lastTc0 < c.q)) with
  | some c => some c
  | none => mine.head?

/-- A strict class, or the class the round robin chooses (R358). -/
def lowPick (s : State) (p : Nat) (cs : List Cand) : Option (Nat × Cand × Map Nat × Nat × Option (Map Nat)) :=
  let picks := ((List.range 7).map (· + 1)).filterMap (fun k => (classPick s p k cs).map (fun r => (k, r)))
  match picks.find? (fun r => clsStrict s p r.1) with
  | some (k, c, d, slot) => some (k, c, d, slot, none)
  | none =>
    let items := picks.map (fun r => (⟨r.1, frameCost s p r.1 r.2.1.head, 512 * clsWeight s p r.1⟩ : DrrItem))
    match drr items (s.wport p).classD (s.wport p).curClass with
    | none => none
    | some (k, cd) => (picks.find? (fun r => r.1 == k)).map (fun r => (k, r.2.1, r.2.2.1, r.2.2.2, some cd))

/-- Writes the deficits of the queues of a set back. -/
def putDeficits (s : State) (p : Nat) (d : Map Nat) : State :=
  d.foldl (fun s x => s.setQueue p x.1 { s.queue p x.1 with deficit := x.2 }) s

/-- The port picks and starts its next frame (R358). -/
def transmit (s0 : State) (p : Nat) : State :=
  if !(s0.eth p).up then s0
  else
    let s := settleClasses (guardBand (tickShapers s0 p) p) p
    let cs := candidates s p
    let x := bucketNow s p
    match tc0Pick s p cs with
    | some c =>
      if 0 ≤ x then
        let w := s.wport p
        sendFrame (preempt (s.setWport p { w with x := some (x - 256 * (frameCost s p 0 c.head : Nat)), xAt := s.now, lastTc0 := c.q }) p (frameCost s p 0 c.head)) p 0 c
      else low (if c.head.expHeld then s
        else (s.count (WELD_EXP_HELD p)).setQueue p c.q { c.x with frames := { c.head with expHeld := true } :: c.x.frames.drop 1 }) p cs
    | none => low s p cs
where
  /-- The classes TC1 to TC7 (R358). -/
  low (s : State) (p : Nat) (cs : List Cand) : State :=
    match lowPick s p cs with
    | none => s
    | some (k, c, d, slot, cd) =>
      let s1 := putDeficits s p d
      let w := s1.wport p
      let w1 : WPort := { w with curQueue := mset w.curQueue slot c.q }
      let w2 : WPort := match cd with
        | some m => { w1 with classD := m, curClass := some k }
        | none => w1
      settleClasses (sendFrame (takeOff (s1.setWport p w2) p c) p k c) p

/-- A frame boundary (R358). -/
def execTransmitDecision (port : Nat) (s : State) : Host.Outcome State Fault Refusal := next (transmit s port)

/-- Credit returns to zero on an idle port, and a waiting queue starts its head frame (R362, R368). -/
def execQueueBecomesEligible (port : Nat) (s : State) : Host.Outcome State Fault Refusal := next (transmit s port)

/-- Whether a waiting frame finds room (R357). -/
def frameFits (s : State) (w : WaitFrame) : Bool :=
  let q := queueFor s w.port w.frame.cls w.key
  let n := frameLen s w.port w.frame.cls w.frame
  decide (queueBytes s w.port w.frame.cls (s.queue w.port q) + n ≤ 262144) && decide (bufferBytes s w.port + n ≤ 1048576)

/-- The waiting frame of a port that is enqueued next: TC0 frames first, then in the order in which they began waiting
(R357), an ACK or a NACK ahead of its class's data (R278). -/
def nextWaiting (s : State) (p : Nat) : Option WaitFrame :=
  let mine := s.net.waiting.filter (fun w => w.port == p && frameFits s w)
  let pick := (mine.find? (fun w => w.frame.cls == 0)).orElse (fun _ => mine.head?)
  pick.map (fun w => (mine.find? (fun x => x.frame.ahead && x.frame.cls == w.frame.cls)).getD w)

/-- A frame joins a queue: an ACK or a NACK ahead of the data there (R278). -/
def joinFrames (fs : List EFrame) (f : EFrame) : List EFrame :=
  if f.ahead then fs.takeWhile (·.ahead) ++ f :: fs.dropWhile (·.ahead) else fs ++ [f]

/-- A frame enters its egress queue (R356, R357). -/
def execWeldEnqueue (port : Nat) (s : State) : Host.Outcome State Fault Refusal :=
  match nextWaiting s port with
  | none => next s
  | some w =>
    let q := queueFor s port w.frame.cls w.key
    let s1 := tickShapers { s with net := { s.net with waiting := s.net.waiting.erase w } } port
    let x := s1.queue port q
    next (s1.setQueue port q { x with frames := joinFrames x.frames { w.frame with since := s.now }, lastCls := some w.frame.cls })

/-- The staged gate list of a port (R366, R376, R377). -/
def stagedList (s : State) (p len start : Nat) : GateList :=
  { entries := (List.range len).map (fun i =>
      (⟨s.reg (WELD_GCL p i) % 2 ^ 32, BitVec.ofNat 8 (s.reg (WELD_GCL p i) / 2 ^ 32), (s.reg (WELD_GCL p i)).testBit 40⟩ : GateEntry))
    base := s.reg (WELD_GATE_BASE_SEC p) % 2 ^ 48 * 1000000000 + s.reg (WELD_GATE_BASE_NS p) % 2 ^ 30
    cycle := s.reg (WELD_GATE_CYCLE p)
    start := start }

/-- The first BASE + k × CYCLE at or after a moment (R366). -/
def firstStart (base cycle t : Nat) : Nat := if t ≤ base then base else base + cdiv (t - base) cycle * cycle

/-- A write to WELD_GATE_CTRL (R366): CHANGE copies the staged list into the pending list. -/
def execGateListChange (port : Nat) (value : W32) (s : State) : Host.Outcome State Fault Refusal :=
  let len := if 256 < value.toNat % 512 then s.reg (WELD_GATE_CTRL port) % 512 else value.toNat % 512
  let s1 := s.setReg (WELD_GATE_CTRL port) len
  if 64 ≤ port then next s
  else if !value.getLsbD 16 then next s1
  else
    let g := stagedList s1 port len 0
    next (s1.setWport port { s1.wport port with change := some { g with start := firstStart g.base g.cycle ((portNs s1 port).toNat + 10000) } })

/-- The pending list starts when the port's counter has reached T (R366). -/
def startList (s : State) (p : Nat) : State :=
  let w := s.wport p
  match w.change with
  | none => s
  | some g => if (g.start : Int) ≤ portNs s p then (tickShapers s p).setWport p { w with running := g, change := none } else s

def execGateListStart (port : Nat) (s : State) : Host.Outcome State Fault Refusal := next (startList s port)

/-- An entry interval ends: the gates follow the port's counter, and the shapers are brought up to this moment (R360, R365). -/
def execGateEntryAdvance (port : Nat) (s : State) : Host.Outcome State Fault Refusal := next (tickShapers s port)

/-- A write to ETH_TS_ADJ with TSHOST = 1 (R326, R366). -/
def execTsAdjWrite (port : Nat) (value : W64) (s : State) : Host.Outcome State Fault Refusal :=
  next (if ethTshost s port then startList (stepTs (tickShapers s port) port (sgn 64 value.toNat)) port else s)

/-- With TSHOST = 0 firmware steps or re-rates the counter (R326). -/
def execTimeAwareSystemSteering (port : Nat) (step : W64) (rate : Option W32) (s : State) : Host.Outcome State Fault Refusal :=
  if ethTshost s port || !(s.eth port).up then next s
  else
    let s1 := stepTs (tickShapers s port) port (sgn 64 step.toNat)
    next (startList (match rate with
      | some r => s1.setReg (ETH_TS_RATE port) r.toNat
      | none => s1) port)

/-- The bin of a sampled value (R371). -/
def histBin (v : Nat) : Nat := if v = 0 then 0 else min 15 (v.log2 + 1)

/-- One sample of a queue (R371). -/
def sampleQueue (s : State) (p : Nat) (q : Nat) (x : EQueue) : EQueue :=
  let depth := queueBytes s p ((queueClass s p q).getD 1) x / 256
  let soj := match x.frames.head? with
    | some f => (s.now - f.since) / 64
    | none => 0
  let bump (m : Map Nat) (b : Nat) : Map Nat := mset m b (min (2 ^ 32 - 1) (mgetD m b 0 + 1))
  { x with histDepth := bump x.histDepth (histBin depth), histSoj := bump x.histSoj (histBin soj) }

/-- A sampling period ends (R371). A slice with more queues enabled than a period lets it visit overruns. -/
def execQueueSample (s : State) : Host.Outcome State Fault Refusal :=
  let on := s.net.queues.filter (fun q => q.2.samp)
  let late (slice : Nat) : Nat := if 4096 * (s.reg WELD_SAMPLE_CFG % 1024) < (on.filter (fun q => q.1 / 131072 == slice)).length then 1 else 0
  let s1 : State := { s with net := { s.net with queues := mmap s.net.queues (fun k q => if q.samp then sampleQueue s (k / 4096) (k % 4096) q else q) } }
  next (if late 0 + late 1 = 0 then s1 else s1.count WELD_SAMPLE_LATE (late 0 + late 1))

/-- SP_SEND (R469): the frame is read from the sender's memory (`data`, log 40) and goes through the firmware queue (R356). -/
def execSpSend (pair : MboxId) (blk : CmdBlock) (data : Option (List Byte)) (s : State) : Host.Outcome State Fault Refusal :=
  next (fwCommand 0x091 true pair blk (fun s c b =>
    let len := bn b 77 64
    if !fromPf0 c then refuse s .accessDenied
    else if !bodyReserved b [(79, 78), (87, 86)] 91 || decide (len < 60) || decide (9212 < len) then refuse s .invalidField
    else if !s.master c.fn then refuse s .busMasterDisabled
    else match data with
      | none => refuse s .hostDmaError
      | some bs => (handToWeld s (bn b 85 80) 0 { bytes := slice bs 0 len, cls := bn b 90 88, cmd := c.id }, none)) s)

end Sys2Proof.Machine
end

