-- ==== Sys2Proof/Machine/Carm.lean ====
section
/-! DEFINITION. Carmine: headers and packets (R258 to R267), messages of this end (R270), states (R254), acknowledgement and
loss (R278 to R281), sending (R279 to R281). -/

namespace Sys2Proof.Machine

open Sys2Proof

def State.conn (s : State) (i : Nat) : Option Conn := mget s.carm.conns i

/-- Payload limit (R252). -/
def Conn.mtuBytes (c : Conn) : Nat := 1024 * 2 ^ c.mtu

/-- Fields of a congestion profile (R291). -/
def pInit (p : BitVec 192) : Nat := bn p 31 0
def pMin (p : BitVec 192) : Nat := bn p 63 32
def pAi (p : BitVec 192) : Nat := bn p 79 64
def pMd (p : BitVec 192) : Nat := bn p 87 80
def pDup (p : BitVec 192) : Nat := bn p 95 88
def pHold (p : BitVec 192) : Nat := bn p 111 96
def pFw (p : BitVec 192) : Bool := bt p 112
def pRtoMin (p : BitVec 192) : Nat := bn p 143 128
def pBackoff (p : BitVec 192) : Nat := bn p 159 144
def pNoprog (p : BitVec 192) : Nat := bn p 175 160
def pRetry (p : BitVec 192) : Nat := bn p 183 176
def pKeepalive (p : BitVec 192) : Nat := bn p 191 184

def profOf (s : State) (n : Nat) : BitVec 192 := (mgetD s.carm.prof n {}).val

-- Packets

/-- A base header (R259). -/
structure Hdr where
  ty : Nat
  op : Nat := 0
  som : Bool := false
  eom : Bool := false
  ar : Bool := false
  retx : Bool := false
  nt : Bool := false
  tc : Nat
  dconn : Nat
  dgen : Nat
  psn : Nat := 0
  msn : Nat := 0
  moff : Nat := 0
  cookie : Nat
  snode : Nat
  paylen : Nat := 0
  tstamp : Nat
deriving DecidableEq, Repr

def Hdr.bits (h : Hdr) : Nat :=
  at_ 252 1 + at_ 248 h.ty + at_ 240 h.op + at_ 239 (b2n h.som) + at_ 238 (b2n h.eom) + at_ 237 (b2n h.ar) + at_ 236 (b2n h.retx) +
    at_ 235 (b2n h.nt) + at_ 232 h.tc + at_ 208 h.dconn + at_ 196 h.dgen + at_ 160 (h.psn % 2 ^ 32) + at_ 128 (h.msn % 2 ^ 32) +
    at_ 96 (h.moff % 2 ^ 32) + at_ 64 h.cookie + at_ 48 h.snode + at_ 32 h.paylen + h.tstamp % 2 ^ 32

/-- Reads a base header from the front of a packet (R259). -/
def readHdr (bs : List Byte) : Hdr :=
  let x : BitVec 256 := BitVec.ofNat 256 (beAt bs 0 32)
  { ty := bn x 251 248, op := bn x 247 240, som := bt x 239, eom := bt x 238, ar := bt x 237, retx := bt x 236, nt := bt x 235,
    tc := bn x 234 232, dconn := bn x 231 208, dgen := bn x 207 196, psn := bn x 191 160, msn := bn x 159 128, moff := bn x 127 96,
    cookie := bn x 95 64, snode := bn x 63 48, paylen := bn x 47 32, tstamp := bn x 31 0 }

/-- Bytes of the extension of a TYPE (R260). -/
def extLen (ty : Nat) : Nat := [24, 48, 16, 24, 8, 32, 16, 16].getD ty 0

/-- The extension of a packet as a number. -/
def extOf (bs : List Byte) : BitVec 384 := BitVec.ofNat 384 (beAt bs 32 (extLen (readHdr bs).ty))
def payloadOf (bs : List Byte) : List Byte := slice bs (32 + extLen (readHdr bs).ty) (readHdr bs).paylen

/-- Reserved parts of the extensions (R262 to R266). -/
def extOk (h : Hdr) (x : BitVec 384) : Bool :=
  if h.ty = 0 ∨ h.ty = 3 then zeroBits x 15 0
  else if h.ty = 1 then zeroBits x 335 320 && zeroBits x 270 256
  else if h.ty = 2 then zeroBits x 79 64 && zeroBits x 31 0 && decide (1 ≤ bn x 95 88) && decide (bn x 95 88 ≤ 3)
  else if h.ty = 4 then zeroBits x 31 0
  else if h.ty = 5 then zeroBits x 159 128
  else if h.ty = 6 then zeroBits x 95 64
  else zeroBits x 119 112 && zeroBits x 73 64 && zeroBits x 31 0 && decide (1 ≤ bn x 127 120) && decide (bn x 127 120 ≤ 5) && bn x 75 74 != 3

/-- The notice of a packet (R266). -/
def noticeOf (bs : List Byte) : BitVec 256 := BitVec.ofNat 256 (beNat (payloadOf bs))

def noticeOk (n : BitVec 256) : Bool :=
  decide (1 ≤ bn n 255 252) && decide (bn n 255 252 ≤ 3) && zeroBits n 251 248 && zeroBits n 208 208 && decide (bn n 211 209 < 6) &&
    decide (0x40 ≤ bn n 247 240) && decide (bn n 247 240 ≤ 0x42)

/-- The header checks of R259 to R261: step 2 of R273. -/
def hdrOk (bs : List Byte) : Bool :=
  let x := beAt bs 0 32
  let h := readHdr bs
  let opOk := if h.ty = 0 then [1, 2, 3, 4, 8].contains h.op
    else if h.ty = 3 ∨ h.ty = 4 then h.op == 5
    else if h.ty = 5 ∨ h.ty = 6 then h.op == 6 || h.op == 7
    else h.op == 0
  decide (x / 2 ^ 252 = 1) && decide (h.ty < 8) && opOk && decide (x / 2 ^ 192 % 16 = 0) && (!h.nt || (h.eom && h.ty == 0 && h.paylen == 32)) &&
    (h.ty == 0 || h.ty == 4 || h.paylen == 0) && bs.length == 32 + extLen h.ty + h.paylen + 4 && extOk h (extOf bs) && (!h.nt || noticeOk (noticeOf bs))

/-- Step 1 of R273 (R267). -/
def crcOk (bs : List Byte) : Bool := decide (4 ≤ bs.length) && beAt bs (bs.length - 4) 4 == crc32c (bs.take (bs.length - 4))

/-- The device speaks and listens (R17). -/
def hasNode (s : State) : Bool := decide (s.fab.node ≠ 0xFFFF)

/-- A packet from Madder: steps 1 and 2 of R273. A device without a node ID accepts none (R17). -/
def carmArrive (s : State) (p : RxPkt) : State :=
  let s1 := s.count CARM_RX_PKTS
  if !hasNode s then s
  else if !crcOk p.bytes then s1.count CARM_CRC_ERR
  else if !hdrOk p.bytes then s1.count CARM_HDR_ERR
  else { s1 with carm := { s1.carm with rx := s1.carm.rx ++ [p] } }

/-- One's complement sum of 16-bit words (RFC 1071). -/
def sum16 : List Byte → Nat
  | [] => 0
  | [a] => a.toNat * 256
  | a :: b :: bs => a.toNat * 256 + b.toNat + sum16 bs

def fold16 (x : Nat) : Nat := let y := x % 65536 + x / 65536; let z := y % 65536 + y / 65536; z % 65536 + z / 65536
def csum16 (bs : List Byte) : Nat := 65535 - fold16 (sum16 bs)

/-- A UDP datagram in IP as an untagged frame from a port (R258, R516). `ecn` is the ECN field. -/
def udpFrame (s : State) (port : Nat) (v4 : Bool) (dst dscp ecn sport dport : Nat) (data : List Byte) : List Byte :=
  let len := 8 + data.length
  let udp (ck : Nat) : List Byte := beBytes 2 sport ++ beBytes 2 dport ++ beBytes 2 len ++ beBytes 2 ck
  let mac := beBytes 6 (Config.nextHop dst % 2 ^ 48) ++ beBytes 6 (s.reg (ETH_MAC port) % 2 ^ 48)
  if v4 then
    let hd (ck : Nat) : List Byte := beBytes 1 0x45 ++ beBytes 1 (4 * dscp + ecn) ++ beBytes 2 (20 + len) ++ beBytes 2 0 ++ beBytes 2 0x4000 ++
      beBytes 1 64 ++ beBytes 1 17 ++ beBytes 2 ck ++ beBytes 4 s.carm.ip4.toNat ++ beBytes 4 dst
    mac ++ beBytes 2 0x0800 ++ hd (csum16 (hd 0)) ++ udp 0 ++ data
  else
    let addrs := beBytes 16 s.carm.ip6.toNat ++ beBytes 16 dst
    let ck := csum16 (addrs ++ beBytes 4 len ++ beBytes 4 17 ++ udp 0 ++ data)
    mac ++ beBytes 2 0x86DD ++ beBytes 4 (at_ 28 6 + at_ 20 (4 * dscp + ecn) + sport % 2 ^ 20) ++ beBytes 2 len ++ beBytes 1 17 ++ beBytes 1 64 ++
      addrs ++ udp (if ck = 0 then 65535 else ck) ++ data

/-- UDP source port of a path (R280). -/
def pathPort (i path : Nat) : Nat := 0xC000 + (i * 127 + path) % 0x4000

/-- The region of a connection's slice can send (R23, R288). -/
def sliceUp (s : State) (i : Nat) : Bool := decide ((s.rgn (i % 16)).rstate ≠ .resetting)

/-- The next path of the rotation, other than `not` where there is another (R279, R280). -/
def pickPath (s : State) (c : Conn) (no : Option Nat) : Nat :=
  let order := (List.range c.paths).map (fun k => (c.nextPath + k) % c.paths)
  let ok := order.filter (fun x => (no != some x || c.paths ≤ 1) && !(match mget c.hold x with
    | some t => decide (s.now < t)
    | none => false))
  match ok with
  | x :: _ => x
  | [] => ((order.filter (fun x => no != some x)).head?).getD (c.nextPath % max 1 c.paths)

/-- Sends one packet of a connection on a path (R258, R280). With no port in service nothing leaves (R288), nor without a node ID
(R17). -/
def sendPacket (s : State) (i : Nat) (c : Conn) (path : Nat) (h : Hdr) (ext payload : List Byte) : State :=
  if !hasNode s then s
  else match (ethPorts s)[(i + path) % max 1 (ethPorts s).length]? with
  | none => s
  | some port =>
    let body := beBytes 32 h.bits ++ ext ++ payload
    let dscp := s.reg CARM_DSCP / 2 ^ (6 * c.tc) % 64
    let f := udpFrame s port c.ipv4 c.peerIp dscp 2 (pathPort i path) (s.reg CARM_UDP_PORT % 65536) (body ++ beBytes 4 (crc32c body))
    handToWeld (s.count CARM_TX_PKTS) port i { bytes := f, cls := c.tc, ahead := h.ty == 1 || h.ty == 2 }

/-- A header to the peer of a connection. -/
def Conn.hdr (c : Conn) (s : State) (ty : Nat) : Hdr :=
  { ty := ty, tc := c.tc, dconn := c.peerConn, dgen := c.peerGen, cookie := c.cookie.toNat, snode := s.fab.node, tstamp := s.now % 2 ^ 32 }

/-- The rotation of a connection goes on behind a path (R280). -/
def turnPath (s : State) (i path : Nat) : State :=
  match s.conn i with
  | none => s
  | some c => s.setConn i { c with nextPath := (path + 1) % max 1 c.paths }

/-- Sends a packet that takes no PSN on the next path of the rotation (R280). -/
def sendNext (s : State) (i : Nat) (c : Conn) (h : Hdr) (ext : List Byte) : State :=
  let path := pickPath s c none
  turnPath (sendPacket s i c path h ext []) i path

/-- Sends a CTRL packet (R265). While the region of its slice is in reset nothing goes (R288). -/
def sendCtrl (s : State) (i : Nat) (kind : Nat) : State :=
  match s.conn i with
  | none => s
  | some c =>
    if !hasNode s || !sliceUp s i then s
    else
      let x := at_ 120 kind + at_ 88 i + at_ 76 (s.slot 3 i).gen + at_ 74 c.mtu + (if kind ≤ 2 then at_ 32 c.ipsn else 0)
      sendNext s i c (c.hdr s 7) (beBytes 16 x)

/-- SACK bits: PSN EPSN + 1 + k is staged (R263). -/
def sackBits (c : Conn) : Nat := ((List.range 256).map (fun k => if (mget c.staged (c.epsn + 1 + k)).isSome then 2 ^ k else 0)).sum

/-- Sends an ACK (R263, R278); TSECHO is of the packet noted as its cause. -/
def sendAck (s : State) (i : Nat) : State :=
  match s.conn i with
  | none => s
  | some c =>
    let x := at_ 352 (c.epsn % 2 ^ 32) + at_ 336 (min 65535 c.ceCnt) + at_ 288 c.lastTs + at_ 272 (c.cePort.getD 0) + at_ 271 (b2n c.cePort.isSome) + sackBits c
    sendNext (s.setConn i { c with ceCnt := 0, cePort := none, toAck := 0, ackDue := false }) i c (c.hdr s 1) (beBytes 48 x)

/-- The extension of a NACK that answers a packet, and its header (R264). -/
def nackExt (h : Hdr) (reason status : Nat) : List Byte := beBytes 16 (at_ 96 h.psn + at_ 88 reason + at_ 80 status + at_ 32 h.msn)
def nackHdr (s : State) (c : Conn) (h : Hdr) : Hdr := { c.hdr s 2 with msn := h.msn, cookie := h.cookie, tstamp := h.tstamp }

/-- Sends a NACK that answers a packet (R264). -/
def sendNack (s : State) (i : Nat) (c : Conn) (h : Hdr) (reason status : Nat) : State :=
  sendNext s i c (nackHdr s c h) (nackExt h reason status)

-- Messages

/-- Reports a message of the device's own blocks, or completes the job that posted it. -/
def completePoster (s : State) (p : Poster) (st : Status) (detail result : Nat) : State :=
  match p with
  | .job id => completeJob s id st detail result
  | .none => s
  | q => { s with carm := { s.carm with posted := s.carm.posted ++ [(q, st)] } }

/-- A message that waits for a response. -/
def TxMsg.asks (m : TxMsg) : Bool := match m.kind with
  | .read => true
  | .atomic _ => true
  | _ => false

/-- Reads and atomics outstanding (R270). -/
def Conn.outReads (c : Conn) : Nat := (c.msgs.filter (fun m => m.asks && !m.done)).length

/-- PSNs a message takes (R270). -/
def psnCount (c : Conn) (kind : MsgKind) (len : Nat) (pieces : List Piece) : Nat :=
  match kind with
  | .read => 1
  | .atomic _ => 1
  | .atomicResp _ _ _ => 1
  | .scatter => max 1 pieces.length
  | _ => max 1 (cdiv len c.mtuBytes)

/-- Appends a message: it takes the next MSN and PSNs (R270). -/
def addMsg (s : State) (i : Nat) (m : TxMsg) : State :=
  match s.conn i with
  | none => s
  | some c =>
    let k := psnCount c m.kind m.len m.pieces + (if m.notice.isSome ∧ m.kind ≠ .scatter then 1 else 0)
    s.setConn i { c with
      msgs := c.msgs ++ [{ m with msn := c.msn, psn := c.psn, count := k }]
      msn := c.msn + 1, psn := c.psn + k
      progAt := if c.una = c.psn then s.now else c.progAt, activeAt := s.now }

/-- Fields of the transport body (R269). -/
def tLaddr (d : Desc) : Nat := bn d 255 192
def tRaddr (d : Desc) : Nat := bn d 319 256
def tRkey (d : Desc) : W32 := BitVec.ofNat 32 (bn d 351 320)
def tLen (d : Desc) : Nat := bn d 383 352
def tLhost (d : Desc) : Bool := !(dOpcode d == 0x15 || dOpcode d == 0x16) && bt d 448

/-- The message of a transport job. -/
def msgOfJob (id : Nat) (d : Desc) : TxMsg :=
  let op := dOpcode d
  let kind : MsgKind := if op = 0x13 then .read else if op = 0x14 then .send else if op = 0x15 then .atomic 6 else if op = 0x16 then .atomic 7 else .write (op - 0xF)
  { kind := kind, poster := .job id, msn := 0, psn := 0, count := 0, laddr := tLaddr d, lhost := tLhost d, raddr := BitVec.ofNat 64 (tRaddr d),
    rkey := tRkey d, len := if op = 0x15 ∨ op = 0x16 then 0 else tLen d, ctr := if op = 0x11 ∨ op = 0x12 then bn d 399 384 else 0,
    tgen := if op = 0x12 then bn d 411 400 else 0, ttag := if op = 0x12 then bn d 431 412 else 0, arg0 := BitVec.ofNat 64 (bn d 511 448),
    arg1 := BitVec.ofNat 64 (bn d 447 384) }

/-- Waiting work of a connection becomes messages in order, `n` at most (R254, R270, R283). -/
def startWaiting (i : Nat) : Nat → State → State
  | 0, s => s
  | n + 1, s =>
    match s.conn i with
    | none => s
    | some c =>
      if c.state ≠ .established ∨ c.tier = .host then s
      else match c.waiting with
        | [] => s
        | .msg m :: rest =>
          if m.asks && decide (64 ≤ c.outReads) then s else startWaiting i n (addMsg (s.setConn i { c with waiting := rest }) i m)
        | .job id :: rest => match mget s.vat.jobs id with
          | none => startWaiting i n (s.setConn i { c with waiting := rest })
          | some j =>
            let m := msgOfJob id j.desc
            if m.asks && decide (64 ≤ c.outReads) then s
            else startWaiting i n (addMsg ((s.setConn i { c with waiting := rest }).setJob id { j with phase := .running }) i m)

/-- Asks for a context that is not on die (R283): one in host memory is read from its entry of the spill area. -/
def fetchContext (s : State) (i : Nat) : State :=
  match s.conn i with
  | none => s
  | some c =>
    if c.tier = .die ∨ c.fetching = true then s
    else
      let s1 := s.setConn i { c with fetching := true }
      match c.tier, s.carm.spill, c.spillAt with
      | .host, some (base, _, f), some k => (hostRead s1 f (.ctx i) [(base + 512 * k, 512)]).getD s1
      | _, _, _ => s1

/-- Work joins a connection's order (R270): it waits for ESTABLISHED and behind what waits already, and a context in host memory is
fetched back (R254, R283). -/
def joinWaiting (s : State) (i : Nat) (c : Conn) (w : Waiting) : State :=
  let s1 := startWaiting i (c.waiting.length + 1) (s.setConn i { c with waiting := c.waiting ++ [w], activeAt := s.now })
  if c.tier = .host then fetchContext s1 i else s1

/-- A message of one of the device's own blocks joins a connection's order; in ERROR it ends at once (R254, R270). -/
def postMsg (s : State) (i : Nat) (m : TxMsg) : State :=
  match s.conn i with
  | none => completePoster s m.poster .peerLost 0 0
  | some c => if c.state = .error then completePoster s m.poster (c.lastSt.getD .peerLost) 0 0 else joinWaiting s i c (.msg m)

/-- Waiting work ends with a status. -/
def failWaiting (st : Status) (s : State) (w : Waiting) : State :=
  match w with
  | .job id => completeJob s id st 0 0
  | .msg m => completePoster s m.poster st 0 0

/-- Sends CLOSE to the peer, once; CLOSE waits while Palette core 3 restarts, and while the region of the slice is in reset (R254,
R288). -/
def sendClose (s : State) (i : Nat) : State :=
  match s.conn i with
  | none => s
  | some c => if c.closed || !pcoreRuns s 3 || !sliceUp s i then s else (sendCtrl s i 3).setConn i { c with closed := true }

/-- The CLOSEs that have waited go (R288). -/
def sendCloses (s : State) : State :=
  (s.carm.conns.filter (fun c => decide (c.2.state = .error) && !c.2.closed)).foldl (fun s c => sendClose s c.1) s

/-- Host reads for a connection's messages are no longer needed (R557). -/
def leaveSources (s : State) (i : Nat) : State :=
  orphan s (fun w => match w with
    | .remote c _ => c == i
    | _ => false)

/-- The connection enters ERROR (R254): its work completes with the status, CLOSE is sent once, and ECTR counts. -/
def connError (s : State) (i : Nat) (st : Status) : State :=
  match s.conn i with
  | none => s
  | some c =>
    if c.state = .error then s
    else
      let c1 : Conn := { c with state := .error, closed := c.closed || decide (c.state = .idle), lastSt := some st, msgs := [], waiting := [], unacked := [], staged := [], recvq := [], recvCur := none, winPkt := none, una := c.psn, nextSend := c.psn }
      let s1 := (leaveSources (s.setConn i c1) i).count CARM_CONN_ERR
      let s2 := (c.msgs.filter (fun m => !m.done)).foldl (fun s m => completePoster s m.poster st 0 0) s1
      let s3 := c.waiting.foldl (failWaiting st) s2
      let s4 := (c.recvCur.toList.map (·.entry) ++ c.recvq).foldl (fun s e => completeJob s e.job st 0 0) s3
      let s5 := sendClose s4 i
      if c.evtEn && ownsCtr s5 (s5.slot 3 i).owner c.ectr then s5.addCtr c.ectr 1#64 else s5

/-- Removes messages that have completed and are acknowledged, and lets waiting work start. -/
def reap (s : State) (i : Nat) : State :=
  match s.conn i with
  | none => s
  | some c => startWaiting i (c.waiting.length + 1) (s.setConn i { c with msgs := c.msgs.filter (fun m => !(m.done && decide (m.psn + m.count ≤ c.una))) })

/-- A message completes at the sender (R277). -/
def msgDone (s : State) (i msn : Nat) (st : Status) (detail result : Nat) : State :=
  match s.conn i with
  | none => s
  | some c => match c.msgs.find? (fun m => m.msn == msn && !m.done) with
    | none => s
    | some m =>
      let mark (x : TxMsg) : TxMsg := if x.msn = msn then { x with done := true } else x
      reap (completePoster (s.setConn i { c with msgs := c.msgs.map mark }) m.poster st detail result) i

-- Congestion and loss

/-- RTO in ns (R279). -/
def Conn.rto (c : Conn) : Nat := max (1000 * pRtoMin c.prof) (3 * c.srtt)

/-- Payload outstanding (R281). -/
def Conn.outstanding (c : Conn) : Nat := (c.unacked.map (fun p => p.2.paylen)).sum

/-- Records a congestion event for firmware, at most one per connection per 10 µs (R281). -/
def ccRecord (s : State) (i kind value : Nat) : State :=
  match mget s.carm.ccAt i with
  | some t => if s.now < t + 10000 then s else put s
  | none => put s
where
  /-- Writes the record. -/
  put (s : State) : State := { s with carm := { s.carm with ccRing := s.carm.ccRing ++ [(i, kind, value)], ccAt := mset s.carm.ccAt i s.now } }

/-- A path is held (R280). -/
def holdPath (s : State) (c : Conn) (path : Nat) : Conn := { c with hold := mset c.hold path (s.now + 1000 * pHold c.prof) }

/-- Marks a PSN lost (R279). -/
def losePsn (s : State) (i psn : Nat) : State :=
  match s.conn i with
  | none => s
  | some c => match mget c.unacked psn with
    | none => s
    | some t =>
      if t.lost then s
      else
        let c1 := holdPath s c t.path
        let s1 := s.setConn i { c1 with unacked := mset c1.unacked psn { t with lost := true } }
        if pFw c.prof then ccRecord s1 i 1 psn else s1

/-- The message that owns a PSN. -/
def Conn.msgAt (c : Conn) (psn : Nat) : Option TxMsg := c.msgs.find? (fun m => decide (m.psn ≤ psn) && decide (psn < m.psn + m.count))

/-- Owner of a connection's work. -/
def connReq (s : State) (i : Nat) : Req := { fn := (s.slot 3 i).owner }

/-- The agent that reads and writes for a message. -/
def msgAgent (s : State) (i : Nat) (m : TxMsg) : Agent :=
  match m.poster with
  | .job id => match mget s.vat.jobs id with
    | some j => { req := j.req, work := .job id }
    | none => { req := connReq s i, work := .remote i m.msn }
  | _ => { req := { fn := (s.slot 3 i).owner, firmware := true }, work := .remote i m.msn }

/-- Payload range of a PSN within its message: offset and length (R270). -/
def msgSpan (c : Conn) (m : TxMsg) (psn : Nat) : Nat × Nat :=
  let off := (psn - m.psn) * c.mtuBytes
  (off, min c.mtuBytes (m.len - off))

/-- MOFF of a packet (R259): the bytes of the message before its payload, which in a scatter write are the pieces before it. -/
def msgOffset (c : Conn) (m : TxMsg) (psn : Nat) : Nat :=
  if m.kind = .scatter then ((m.pieces.take (psn - m.psn)).map (fun p => p.data.length)).sum else min (msgSpan c m psn).1 m.len

/-- What the source of a packet gives. -/
inductive Src where
  | data (bs : List Byte)
  | wait
  | bad (st : Status)

/-- Reads near memory for a message: it waits for a region in reset (R23). -/
def nearSource (s : State) (w : Work) (a n : Nat) : State × Src :=
  if accessWaits s a n then
    match waitNear s w a n with
    | (s1, .fail st) => (s1, .bad st)
    | (s1, _) => (s1, .wait)
  else
    let (s1, bs, ps) := lakeRead s a n
    (s1, if ps.isEmpty then .data bs else .bad .poisonedData)

/-- Reads the source of a packet, each time it is sent (R270, R271). -/
def readSource (s : State) (i : Nat) (c : Conn) (m : TxMsg) (psn : Nat) : State × Src :=
  let (off, n) := msgSpan c m psn
  if n = 0 then (s, .data [])
  else if m.lhost then
    match xferOf s (.remote i psn) with
    | some x => if x.resolved then (dropXfer s (.remote i psn), match x.data with
        | some bs => .data (slice bs 0 n)
        | none => .bad .hostDmaError) else (s, .wait)
    | none => match hostRead s (s.slot 3 i).owner (.remote i psn) (pieces4k (m.laddr + off) n) with
      | some s1 => (s1, .wait)
      | none => (s, .bad .busMasterDisabled)
  else match m.poster, m.kind with
    | .saf _, _ => nearSource s (.remote i m.msn) (m.laddr + off) n
    | _, .readResp _ =>
      if inWindow (m.laddr % 2 ^ 48) n then
        match windowRead s (.remote i m.msn) (m.laddr % 2 ^ 48 + off) n with
        | (s1, .ok bs bad) => (dropGot s1 (.remote i m.msn), if bad.isEmpty then .data bs else .bad .poisonedData)
        | (s1, .fail st) => (dropGot s1 (.remote i m.msn), .bad st)
        | (s1, .wait) => (s1, .wait)
      else nearSource s (.remote i m.msn) (m.laddr % 2 ^ 48 + off) n
    | _, _ => match agentRead s (msgAgent s i m) (m.laddr + off) n with
      | (s1, .ok bs []) => (dropGot s1 (msgAgent s i m).work, .data bs)
      | (s1, .ok _ _) => (dropGot s1 (msgAgent s i m).work, .bad .poisonedData)
      | (s1, .fail st) => (dropGot s1 (msgAgent s i m).work, .bad st)
      | (s1, .wait) => (s1, .wait)

/-- The DATA extension (R262). -/
def dataExt (addr : Nat) (rkey : W32) (mlen ctr tgen ttag : Nat) : List Byte :=
  beBytes 24 (at_ 128 addr + at_ 96 rkey.toNat + at_ 64 (mlen % 2 ^ 32) + at_ 48 ctr + at_ 36 tgen + at_ 16 ttag)

/-- TYPE, OP and extension of a packet of a message (R260 to R265). -/
def msgExt (m : TxMsg) (piece : Option Piece) : Nat × Nat × List Byte :=
  match m.kind with
  | .write op => (0, op, dataExt m.raddr.toNat m.rkey m.len m.ctr m.tgen m.ttag)
  | .send => (0, 4, dataExt 0 0#32 m.len 0 0 0)
  | .scatter => match piece with
    | some p => (0, 8, dataExt p.addr p.rkey m.len 0 0 0)
    | none => (0, 8, dataExt 0 0#32 m.len 0 0 0)
  | .read => (3, 5, dataExt m.raddr.toNat m.rkey m.len 0 0 0)
  | .atomic op => (5, op, beBytes 32 (at_ 192 m.raddr.toNat + at_ 160 m.rkey.toNat + at_ 64 m.arg0.toNat + m.arg1.toNat))
  | .readResp r => (4, 5, beBytes 8 (at_ 32 (r % 2 ^ 32)))
  | .atomicResp op r v => (6, op, beBytes 16 (at_ 96 (r % 2 ^ 32) + v.toNat))

/-- The next PSN to send: the oldest that is lost, else the next for the first time (R279). -/
def nextPsn (c : Conn) : Option (Nat × Bool) :=
  match c.unacked.find? (fun p => p.2.lost) with
  | some p => some (p.1, true)
  | none => if c.nextSend < c.psn then some (c.nextSend, false) else none

/-- The limits on a new packet (R279, R281, R287). -/
def mayStart (c : Conn) (n : Nat) : Bool :=
  decide (c.nextSend < c.una + 256) && (if c.tc = 0 then decide (c.outstanding + n ≤ 262144) else decide (c.outstanding + n ≤ c.cwnd))

/-- The context of a connection is used (R283). -/
def touchConn (s : State) (i : Nat) : State :=
  match s.conn i with
  | none => s
  | some c =>
    let s1 := s.setConn i { c with lastUse := s.carm.useCtr + 1 }
    { s1 with carm := { s1.carm with useCtr := s.carm.useCtr + 1 } }

/-- A message whose source cannot be read: the rest of its PSNs go without data, and its work ends with the status. The reader that a
response answers gets NACK refused (R78, R276). -/
def sourceFails (s : State) (i : Nat) (m : TxMsg) (st : Status) : State :=
  match s.conn i with
  | none => s
  | some k =>
    let mark (x : TxMsg) : TxMsg := if x.msn = m.msn then { x with srcFailed := true } else x
    let s1 := s.setConn i { k with msgs := k.msgs.map mark }
    match m.kind with
    | .readResp r => msgDone ((sendNack s1 i k { k.hdr s1 3 with psn := m.reqPsn, msn := r, tstamp := m.reqTs } 2 st.code).count CARM_REFUSED) i m.msn st 0 0
    | _ => msgDone s1 i m.msn st 0 0

/-- A packet leaves (R270, R279 to R281): a lost one first, on another path than before. The RETRY-th retransmission of a PSN puts the
connection in ERROR (R279; log 46). -/
def packetSend (s : State) (i : Nat) : State :=
  match s.conn i with
  | none => s
  | some c =>
    if c.state = .established ∧ c.tier ≠ .die then (if (nextPsn c).isSome then fetchContext s i else s)
    else if c.state ≠ .established ∨ c.pauseEnd.isSome = true ∨ hasNode s = false ∨ sliceUp s i = false ∨ (ethPorts s).isEmpty = true then s
    else match nextPsn c with
      | none => s
      | some (psn, again) => match c.msgAt psn with
        | none => s
        | some m =>
          let piece := m.pieces[psn - m.psn]?
          let isLast := decide (psn + 1 = m.psn + m.count)
          let note := if isLast then m.notice else none
          let span := msgSpan c m psn
          let quiet := m.failed.isSome || m.srcFailed
          let plain : Bool := match m.kind with
            | .write _ => true
            | .send => true
            | .readResp _ => true
            | _ => false
          let size := if quiet then 0 else if note.isSome ∧ m.kind ≠ .scatter then 32 else match piece with
            | some p => p.data.length
            | none => if plain then span.2 else 0
          if !again && !mayStart c size then s
          else
            let (s1, src) := if quiet then (s, Src.data []) else if note.isSome ∧ m.kind ≠ .scatter then (s, Src.data (beBytes 32 (note.getD 0#256).toNat))
              else match piece with
              | some p => (s, Src.data p.data)
              | none => if plain then readSource s i c m psn else (s, Src.data [])
            match src with
            | .wait => s1
            | .bad st => sourceFails s1 i m st
            | .data bs =>
              match s1.conn i with
              | none => s1
              | some k =>
                let old := mget k.unacked psn
                let path := pickPath s1 k (if again then old.map (·.path) else none)
                let (ty, op, ext) := msgExt m piece
                let eom := isLast && !m.srcFailed
                let h : Hdr := { k.hdr s1 ty with
                  op := op, som := psn == m.psn, eom := eom, ar := isLast || k.tc == 0 || psn % 16 == 15, retx := again
                  nt := note.isSome && eom && !quiet, psn := psn, msn := m.msn, moff := if note.isSome then m.len else msgOffset k m psn, paylen := bs.length }
                let t : TxPsn := { sentAt := s1.now, path := path, paylen := bs.length, retx := (old.map (fun o => o.retx + b2n (again && !o.miss))).getD 0 }
                let k1 : Conn := { k with
                  unacked := mset k.unacked psn t, nextPath := (path + 1) % max 1 k.paths, activeAt := s1.now
                  nextSend := if again then k.nextSend else psn + 1
                  progAt := if k.unacked.isEmpty then s1.now else k.progAt }
                let s2 := sendPacket (s1.setConn i k1) i k path h ext bs
                let s3 := touchConn (if again then s2.count CARM_RETX else s2) i
                if again && decide (pRetry k.prof ≤ t.retx) then connError s3 i .remoteTimeout else s3

end Sys2Proof.Machine
end

