-- ==== Sys2Proof/Machine/Engine.lean ====
section
/-! DEFINITION. Indigo engines and Pastel codecs: selection and queues (R167, R175), codec jobs (R133, R134, R70), matrix jobs
(R159 to R174), array faults (R177, R178). -/

namespace Sys2Proof.Machine

open Sys2Proof

def State.eng (s : State) (c : Nat) (codec : Bool) : Eng := mgetD s.fab.engines (2 * c + b2n codec) {}
def State.setEng (s : State) (c : Nat) (codec : Bool) (e : Eng) : State :=
  { s with fab := { s.fab with engines := mset s.fab.engines (2 * c + b2n codec) e } }

/-- Unit of a cluster's engine or codec (R16). -/
def engUnit (c : Nat) (codec : Bool) : Nat := clUnit c (if codec then 17 else 16)

/-- Records a unit's change in Umber's journal (R514). -/
def State.note (s : State) (u : Nat) : State :=
  if s.fab.journal.contains u then s else { s with fab := { s.fab with journal := s.fab.journal ++ [u] } }

/-- The engine can take work at all: neither it nor its cluster is retired. -/
def engAlive (s : State) (c : Nat) (codec : Bool) : Bool := !s.retired (engUnit c codec) && decide ((s.cl c).cstate ≠ .retired)

/-- Clusters of a function that are not past t0 of a change of owner (R140, R167). -/
def ownClusters (s : State) (owner : Option Nat) : List Nat :=
  (List.range 64).filter (fun c => (s.cl c).owner == owner && (s.cl c).reclaim.isNone)

/-- The fewest accepted jobs, the lowest cluster of several (R167). -/
def fewest (s : State) (codec : Bool) : List Nat → Option Nat
  | [] => none
  | c :: cs => match fewest s codec cs with
    | none => some c
    | some d => if acceptedCount s c codec ≤ acceptedCount s d codec then some c else some d

/-- Selects the engine or codec for a ring's function (R167, R133): the cluster, or the refusing status. -/
def pickEngine (s : State) (fn cl : Nat) (codec : Bool) : Nat ⊕ Status :=
  if cl < 64 then
    if (s.cl cl).owner ≠ some fn ∨ (s.cl cl).reclaim.isSome = true then .inr .accessDenied
    else if !engAlive s cl codec then .inr .unitFault else .inl cl
  else
    let own := ownClusters s (some fn)
    let pool := if codec && own.isEmpty then ownClusters s none else own
    match fewest s codec (pool.filter (fun c => engAlive s c codec)) with
    | some c => .inl c
    | none => .inr .unitFault

/-- The idle engine starts an accepted job: core-started and ring jobs alternately when both wait, the oldest of its kind
(R175). -/
def startEngine (s : State) (c : Nat) (codec : Bool) : State :=
  if !(engJobs s c codec .running).isEmpty then s
  else
    let acc := engJobs s c codec .accepted
    let e := s.eng c codec
    let pick := match acc.find? (fun p => p.2.core.isSome != e.lastCore) with
      | some p => some p
      | none => acc.head?
    match pick with
    | none => s
    | some (id, j) => (s.setJob id { j with phase := .running }).setEng c codec { e with lastCore := j.core.isSome, tile := 0, mism := 0 }

/-- A cluster under an S1 test takes no work: its queues are closed (R513, R522, R524). -/
def underTest (s : State) (c : Nat) : Bool :=
  s.rel.running && (match s.rel.tests with
    | t :: _ => decide (t.test ≤ 3) && 4 * unitDomain t.unit + unitGroup t.unit == c
    | [] => false)

/-- Ring jobs wait in Vat for a queue of 8 (R175, R133). A gated cluster is powered up first (R25). -/
def acceptRing (s : State) (c : Nat) (codec : Bool) : State :=
  let ring := s.vat.jobs.filter (fun p => p.2.onEngine c codec && p.2.accepted && p.2.core.isNone)
  match engJobs s c codec .queued with
  | [] => s
  | (id, j) :: _ =>
    if (s.cl c).cstate = .inService ∧ underTest s c = false ∧ ring.length < 8 then startEngine (s.setJob id { j with phase := .accepted }) c codec else s

/-- An engine or a codec accepts a waiting job once its queue has room (R175). -/
def execEngineAccept (cluster : Nat) (codec : Bool) (s : State) : Host.Outcome State Fault Refusal :=
  next (acceptRing s cluster codec)

/-- Ends a job of an engine, which goes on with the next one. -/
def endEngineJob (s : State) (id c : Nat) (codec : Bool) (st : Status) (detail result : Nat) : State :=
  let s1 := completeJob s id st detail result
  startEngine (if codec then s1 else s1.count (IND_JOBS c)) c codec

/-- The agent of a job on a cluster. Codec jobs name no scratch (R133). -/
def Job.agent (j : Job) (id : Nat) : Agent := { req := j.req, work := .job id }

/-! Codec jobs. -/

def cSrc (d : Desc) : Nat := bn d 255 192
def cDst (d : Desc) : Nat := bn d 319 256
def cElems (d : Desc) : Nat := bn d 351 320
def cSfmt (d : Desc) : Nat := bn d 355 352
def cDfmt (d : Desc) : Nat := bn d 359 356
def cLayout (d : Desc) : Nat := bn d 361 360
def cRmode (d : Desc) : Nat := bn d 363 362
def cEf (d : Desc) : Bool := bt d 364
def cCluster (d : Desc) : Nat := bn d 371 365
def cEfAddr (d : Desc) : Nat := bn d 447 384

/-- Bytes of one value of a float format. -/
def floatBytes (f : Nat) : Nat := if f = 8 then 4 else 2
def floatFmt (f : Nat) : FFmt := if f = 8 then f32 else bf16

/-- Progress of a codec job (R133). -/
structure CodecRun where
  s : State
  /-- Source offset of the next block, destination offset, and bytes written. -/
  src : Nat
  dst : Nat
  written : Nat := 0
  rs : W64
  sat : Bool := false
  /-- First output block with poisoned source markers or a discarded partial write, and with malformed markers. -/
  pois : Option Nat := none
  malf : Option Nat := none
  malfCount : Nat := 0
  /-- The job has stopped: status and first block not written; or it waits for accelerator memory at an address. -/
  stop : Option (Status × Nat) := none
  wait : Option (Nat × Nat) := none
deriving DecidableEq, Repr

/-- One source block: the values, and for KBF8 and MXINT8 what the direct rules need. -/
structure SrcBlock where
  vals : List Val
  kbf : Option Block := none
  mx : Option (Nat × List Nat) := none
  f32s : List Nat := []

def firstOf (o : Option Nat) (i : Nat) : Option Nat := match o with
  | some x => some x
  | none => some i

/-- Reads for a codec job: stops it on a refusal, and makes it wait for accelerator memory. -/
def codecRead (g : Agent) (blk : Nat) (r : CodecRun) (a n : Nat) : CodecRun × List Byte × Bool :=
  match agentRead r.s g a n with
  | (s1, .ok bs bad) => ({ r with s := s1 }, bs, !bad.isEmpty)
  | (s1, .fail st) => ({ r with s := s1, stop := some (st, blk) }, [], false)
  | (s1, .wait) => ({ r with s := s1, wait := some (a, n) }, [], false)

def CodecRun.halted (r : CodecRun) : Bool := r.stop.isSome || r.wait.isSome

/-- Reads one KBF source block: its header, its mask, then the rest (R46). A block that overlaps a poisoned line reads as
markers; its size follows the bytes in memory (R78; log 25). -/
def codecReadKbf (g : Agent) (blk : Nat) (r : CodecRun) (a : Nat) : CodecRun × SrcBlock :=
  let (r1, h, _) := codecRead g blk r a 2
  if r1.halted then (r1, ⟨[], none, none, []⟩)
  else
    let hdr : W16 := BitVec.ofNat 16 (leNat h)
    let (r2, m, _) := if hSparse hdr then codecRead g blk r1 (a + 2) 4 else (r1, [], false)
    if r2.halted then (r2, ⟨[], none, none, []⟩)
    else
      let size := blockSize hdr (leNat m)
      let (r3, bs, bad) := codecRead g blk r2 a size
      if r3.halted then (r3, ⟨[], none, none, []⟩)
      else
        let b := readBlock bs
        let r4 := { r3 with src := r3.src + size }
        if bad then ({ r4 with pois := firstOf r4.pois blk }, ⟨List.replicate 32 none, none, none, []⟩)
        else if b.malformed then ({ r4 with malf := firstOf r4.malf blk, malfCount := r4.malfCount + 1 }, ⟨List.replicate 32 none, none, none, []⟩)
        else (r4, ⟨b.vals, some b, none, []⟩)

/-- Reads one source block of `n` values. A poisoned line in any other source stops the job (R133). -/
def codecReadSrc (g : Agent) (d : Desc) (blk n : Nat) (r : CodecRun) : CodecRun × SrcBlock :=
  let f := cSfmt d
  let a := cSrc d + r.src
  if isKbf f then codecReadKbf g blk r a
  else
    let size := if f ≤ 9 then n * floatBytes f else mxSize f
    let (r1, bs, bad) := codecRead g blk r a size
    if r1.halted then (r1, ⟨[], none, none, []⟩)
    else if bad then ({ r1 with stop := some (.poisonedData, blk) }, ⟨[], none, none, []⟩)
    else
      let r2 := { r1 with src := r1.src + size }
      if f ≤ 9 then
        let xs := (List.range n).map (fun i => leAt bs (i * floatBytes f) (floatBytes f))
        (r2, ⟨xs.map (floatVal (floatFmt f)), none, none, xs⟩)
      else
        let (sc, xs) := mxParts f bs
        (r2, ⟨mxVals f sc xs, none, some (sc, xs), []⟩)

/-- The first `n` values, and zeros to 32 (R46). -/
def pad32 (n : Nat) (xs : List Val) : List Val := xs.take n ++ List.replicate (32 - n) (some ⟨0, 0⟩)

/-- Encodes one output block: its bytes, whether it saturated, and the generator after (R51, R64 to R69, R134). -/
def codecEncode (d : Desc) (n : Nat) (b : SrcBlock) (rs : W64) : List Byte × Bool × W64 :=
  let f := cDfmt d
  let mode := RMode.ofCode (cRmode d)
  let vals := pad32 n b.vals
  if f = 8 then (((vals.take n).map (fun v => leBytes 4 (valF32 v))).flatten, false, rs)
  else if f = 9 then
    let xs := (vals.take n).map valBf16
    ((xs.map (fun x => leBytes 2 x.1)).flatten, xs.any (·.2), rs)
  else if isKbf f then
    let w := (kbfWidth f).getD 8
    let direct := match b.mx with
      | some (sc, xs) => if f = 3 ∧ cSfmt d = 0xF then mxInt8ToKbf8 (cLayout d) sc (xs.take n ++ List.replicate (32 - n) 0) else none
      | none => none
    match direct with
    | some e => (writeBlock e, false, rs)
    | none =>
      let (e, rs1) := encodeBlock f w (cLayout d) mode false vals rs
      (writeBlock e, hSat e.hdr, rs1)
  else
    let direct := match b.kbf with
      | some k => if f = 0xF ∧ hFmt k.hdr = 3 then
          some (kbf8ToMxInt8 k.hdr (k.codes.take n ++ List.replicate (32 - n) (some 0)) mode rs) else none
      | none => none
    match direct with
    | some ((sc, xs), rs1) => (mxBytes f sc xs, false, rs1)
    | none => let (sc, xs) := toMx f vals; (mxBytes f sc xs, false, rs)

/-- Error feedback of one block (R70): the inputs y, read with the residuals. -/
def codecEfIn (g : Agent) (d : Desc) (blk n : Nat) (r : CodecRun) (b : SrcBlock) : CodecRun × SrcBlock × List Nat :=
  let (r1, bs, bad) := codecRead g blk r (cEfAddr d + 128 * blk) (4 * n)
  if r1.halted then (r1, b, [])
  else if bad then ({ r1 with stop := some (.poisonedData, blk) }, b, [])
  else
    let ys := b.f32s.mapIdx (fun i x => efInput x (leAt bs (4 * i) 4))
    (r1, { b with vals := ys.map (floatVal f32) }, ys)

/-- Writes an output block, and under EF its residuals (R70, R133). A refusal of the residuals stops the job behind the block, which
is written. -/
def codecWrite (g : Agent) (d : Desc) (blk : Nat) (r : CodecRun) (bs : List Byte) (ys : List Nat) : CodecRun :=
  match agentWriteN r.s g (cDst d + r.dst) bs with
  | (s1, some st, _) => { r with s := s1, stop := some (st, blk) }
  | (s1, none, lost) =>
    let r1 := { r with s := s1, dst := r.dst + bs.length, written := r.written + (bs.length - lost), pois := if lost = 0 then r.pois else firstOf r.pois blk }
    if !cEf d then r1
    else
      let sent := (readBlock bs).vals
      let res := List.zipWith efResidual ys sent
      match agentWriteN r1.s g (cEfAddr d + 128 * blk) ((res.map (leBytes 4)).flatten) with
      | (s2, some st, _) => { r1 with s := s2, stop := some (st, blk + 1) }
      | (s2, none, l2) => { r1 with s := s2, pois := if l2 = 0 then r1.pois else firstOf r1.pois blk }

/-- One output block of a codec job. -/
def codecBlock (g : Agent) (d : Desc) (blk : Nat) (r : CodecRun) : CodecRun :=
  if r.halted then r
  else
    let n := min 32 (cElems d - 32 * blk)
    let (r1, b) := codecReadSrc g d blk n r
    if r1.halted then r1
    else
      let (r2, b2, ys) := if cEf d then codecEfIn g d blk n r1 b else (r1, b, [])
      if r2.halted then r2
      else
        let (bs, sat, rs1) := codecEncode d n b2 r2.rs
        codecWrite g d blk { r2 with rs := rs1, sat := r2.sat || sat } bs ys

/-- A codec job over its first `n` blocks, and over all. -/
def codecBlocks (d : Desc) : Nat := cdiv (cElems d) 32
def codecRunN (n : Nat) (s : State) (id : Nat) (j : Job) (rs : W64) : CodecRun :=
  (List.range n).foldl (fun r blk => codecBlock (j.agent id) j.desc blk r) { s := s, src := 0, dst := 0, rs := rs }

def codecRun (s : State) (id : Nat) (j : Job) (rs : W64) : CodecRun := codecRunN (codecBlocks j.desc) s id j rs

/-- Status and DETAIL of a codec job that ran (R133). Of several findings the job reports poisoned-data, else malformed-block, else
saturated, the order R168 states for matrix jobs: DESIGN CHOICE, R133 gives none (log 24). -/
def CodecRun.outcome (r : CodecRun) : Status × Nat :=
  match r.stop with
  | some (st, b) => (st, b)
  | none => match r.pois with
    | some b => (.poisonedData, b)
    | none => match r.malf with
      | some b => (.malformedBlock, b)
      | none => (if r.sat then .saturated else .success, 0)

/-- Every address of a codec body names the own node (R133); with no element, no access is made (R135). -/
def codecNodesOk (s : State) (d : Desc) : Bool :=
  [cSrc d, cDst d].all (fun a => (ownAddr s a).isSome) && (!cEf d || (ownAddr s (cEfAddr d)).isSome)

/-- Checks a codec descriptor as its job starts: the cluster it goes to, or its completion. -/
def codecStart (s : State) (d : Desc) (pick : Nat ⊕ Status) : Nat ⊕ Status :=
  if !codecNodesOk s d then .inr .bounds
  else match pick with
    | .inr st => .inr st
    | .inl c => if cElems d = 0 then .inr .success else .inl c

/-- CODEC: the job is checked and waits for its codec (R133). -/
def execCodec (job : Nat) (s : State) : Host.Outcome State Fault Refusal :=
  match jobOf s job 0x08 .started with
  | none => next s
  | some j => match codecStart s j.desc (pickEngine s j.fn (cCluster j.desc) true) with
    | .inr st => next (finish s job st)
    | .inl c => next (acceptRing (s.setJob job { j with phase := .queued, unit := some c }) c true)

/-- What a codec run leaves in its cluster: the generator, and the trouble count of blocks with a reserved FMT (R50, R54). -/
def codecApply (r : CodecRun) (c : Nat) : State :=
  let s1 := r.s.setCl c { r.s.cl c with rs := r.rs }
  if r.malfCount = 0 then s1 else s1.trouble (engUnit c true) .ue r.malfCount

/-- The running codec job finishes (R133). While it waits for accelerator memory it goes on later. -/
def execCodecJobDone (job : Nat) (s : State) : Host.Outcome State Fault Refusal :=
  match jobOf s job 0x08 .running with
  | none => next s
  | some j => match j.unit with
    | none => next s
    | some c =>
      let r := codecRun s job j (s.cl c).rs
      match r.wait with
      | some (a, n) => next (agentRead s (j.agent job) a n).1
      | none =>
        let (st, detail) := r.outcome
        next (endEngineJob (codecApply r c) job c true st detail r.written)

/-! Matrix jobs. -/

/-- One operand block as the array takes it: codes, their scale, and whether ZERO marks it (R164, R173). -/
structure OBlk where
  codes : List Code
  t : Int
  zero : Bool
deriving DecidableEq, Repr

/-- An operand block read as 32 markers. -/
def markerBlk : OBlk := ⟨List.replicate 32 none, 0, false⟩

/-- Takes an operand block (R164, R172): the block, and the status it earns the job. Of a block with ZERO = 1 the header alone is read
(R173). `headBad` and `bad` say whether its header, or any of it, could not be read. -/
def takeBlk (fmt : Nat) (bs : List Byte) (headBad bad : Bool) : OBlk × Option Status :=
  let b := readBlock bs
  if headBad then (markerBlk, some .poisonedData)
  else if !b.malformed && hZero b.hdr then (⟨List.replicate 32 (some 0), hScale b.hdr b.w, true⟩, none)
  else if bad then (markerBlk, some .poisonedData)
  else if b.malformed || hFmt b.hdr != fmt || hSparse b.hdr then (markerBlk, some .malformedBlock)
  else (⟨b.codes, hScale b.hdr b.w, false⟩, none)

/-- A block carries a reserved FMT (R50). -/
def badFmt (bs : List Byte) (headBad : Bool) : Bool := !headBad && (readBlock bs).malformed

/-- A finding on an operand block: operand, block index in row order, status. -/
structure Finding where
  operand : Nat
  index : Nat
  st : Status
deriving DecidableEq, Repr

/-- Progress of a matrix job. -/
structure MatRun where
  s : State
  rs : W64
  tiles : Nat := 0
  skipped : Nat := 0
  steps : Nat := 0
  hits : Nat := 0
  misses : Nat := 0
  sat : Bool := false
  found : List Finding := []
  /-- Operand blocks with a reserved FMT (R50). -/
  malf : Nat := 0
  /-- The job has stopped: its status and DETAIL; or it waits for memory at an address (R23). -/
  stop : Option (Status × Nat) := none
  wait : Option (Nat × Nat) := none
deriving DecidableEq, Repr

def MatRun.halted (r : MatRun) : Bool := r.stop.isSome || r.wait.isSome

/-- The operand of a finding and its block, as DETAIL shows them (R168). -/
def blockDetail (operand index : Nat) : Nat := at_ 30 operand + min (2 ^ 30 - 1) index

/-- Whether the byte range from `o` of `n` bytes meets a bad part. -/
def meets (bad : List (Nat × Nat)) (o n : Nat) : Bool := bad.any (fun p => decide (p.1 < o + n) && decide (o < p.2))

/-- Reads the blocks of one operand row. Row `i`, `n` blocks of `size` bytes (R163). -/
def readRow (g : Agent) (operand fmt addr i n size : Nat) (r : MatRun) : MatRun × List OBlk :=
  match agentRead r.s g addr (n * size) with
  | (s1, .ok bs bad) =>
    let part (b : Nat) : List Byte := (bs.drop (b * size)).take size
    let xs := (List.range n).map (fun b => (b, takeBlk fmt (part b) (meets bad (b * size) 2) (meets bad (b * size) size)))
    ({ r with
        s := s1
        found := r.found ++ xs.filterMap (fun x => x.2.2.map (fun st => ⟨operand, i * n + x.1, st⟩))
        malf := r.malf + ((List.range n).filter (fun b => badFmt (part b) (meets bad (b * size) 2))).length }, xs.map (·.2.1))
  | (s1, .fail st) => ({ r with s := s1, stop := some (st, blockDetail operand 0) }, [])
  | (s1, .wait) => ({ r with s := s1, wait := some (addr, n * size) }, [])

/-- Reads rows `i` on of an operand. -/
def readRows (g : Agent) (operand fmt base stride n size : Nat) : Nat → Nat → MatRun → MatRun × List (List OBlk)
  | 0, _, r => (r, [])
  | k + 1, i, r =>
    if r.halted then (r, [])
    else
      let (r1, row) := readRow g operand fmt (base + i * stride * size) i n size r
      let (r2, rows) := readRows g operand fmt base stride n size k (i + 1) r1
      (r2, row :: rows)

/-- The 2:4 condition on a block of B (R173). -/
def is24 (b : OBlk) : Bool :=
  (List.range 8).all (fun g => decide (((b.codes.drop (4 * g)).take 4 |>.filter (fun c => decide (c ≠ some 0))).length ≤ 2))

/-- Dense steps of a K-block (R159). -/
def denseSteps (d : Desc) : Nat :=
  if dOpcode d = 0x61 then 32
  else if mAfmt d = 1 ∧ mBfmt d = 1 then 16
  else if 4 ≤ mAfmt d ∨ 4 ≤ mBfmt d then 128
  else 32

/-- The K-blocks of a tile that are skipped (R173), given its rows of A and of B. -/
def skipAt (as bs : List (List OBlk)) (k : Nat) : Bool :=
  let z (rows : List (List OBlk)) : Bool := rows.all (fun r => (r.getD k markerBlk).zero)
  z as || z bs

/-- Products of element `e` of K-block `k`: row block `a` against the columns of `bs`; `none` beyond column N. -/
def productTerms (a : OBlk) (cols : List (List OBlk)) (k e : Nat) : List (Option (Int × Code)) :=
  let ts := cols.map (fun c => let b := c.getD k markerBlk; some (a.t + b.t, codeMul ((a.codes.getD e none)) ((b.codes.getD e none))))
  ts ++ List.replicate (32 - ts.length) none

/-- Accumulates one row against 32 columns over the K positions that are not skipped (R169). -/
def accRow (kdim : Nat) (skip : List Bool) (row : List OBlk) (cols : List (List OBlk)) (a0 : Acc) : Acc :=
  (List.range (cdiv kdim 32)).foldl (fun acc k =>
    if skip.getD k false then acc
    else (List.range (min 32 (kdim - 32 * k))).foldl (fun acc e => acc.addEach 0 (productTerms (row.getD k markerBlk) cols k e)) acc) a0

/-- A binary32 element of C as a term: its significand and scale, or the marker (R169). -/
def f32Term (x : Nat) : Int × Code :=
  match f32.read x with
  | .fin v => (v.e, some v.m)
  | .zero _ => (-149, some 0)
  | _ => (0, none)

/-- The C terms of one output block under ACC, as they stand in memory (R169). -/
def cTerms (g : Agent) (d : Desc) (i jb n : Nat) (r : MatRun) : MatRun × List (Option (Int × Code)) :=
  let size := mSize false (mOfmt d)
  let addr := mC d + (i * mLdc d + jb) * size
  let len := if mOfmt d = 8 then 4 * n else size
  let idx := i * cdiv (mN d) 32 + jb
  match agentRead r.s g addr len with
  | (s1, .ok bs bad) =>
    if mOfmt d = 8 then
      let r1 := if bad.isEmpty then { r with s := s1 } else { r with s := s1, found := r.found ++ [⟨2, idx, .poisonedData⟩] }
      let ts := (List.range n).map (fun e => some (if bad.isEmpty then f32Term (leAt bs (4 * e) 4) else (0, none)))
      (r1, ts ++ List.replicate (32 - n) none)
    else
      let (b, st) := takeBlk (mOfmt d) bs (meets bad 0 2) (!bad.isEmpty)
      let r1 := match st with
        | some st => { r with s := s1, found := r.found ++ [⟨2, idx, st⟩], malf := r.malf + b2n (badFmt bs (meets bad 0 2)) }
        | none => { r with s := s1 }
      (r1, (b.codes.take n).map (fun c => some (b.t, c)) ++ List.replicate (32 - n) none)
  | (s1, .fail st) => ({ r with s := s1, stop := some (st, blockDetail 2 0) }, [])
  | (s1, .wait) => ({ r with s := s1, wait := some (addr, len) }, [])

/-- Bytes of one output block, whether it saturated, and the generator after (R170, R171). -/
def outBlock (d : Desc) (n : Nat) (acc : Acc) (rs : W64) : List Byte × Bool × W64 :=
  if mOfmt d = 8 then
    if mK d = 0 then ((List.range n).flatMap (fun _ => leBytes 4 0), false, rs)
    else
      let xs := (acc.vals.take n).map valF32Held
      ((xs.map (fun x => leBytes 4 x.1)).flatten, xs.any (·.2), rs)
  else
    let w := (kbfWidth (mOfmt d)).getD 8
    if mK d = 0 then (writeBlock (encHeader (mOfmt d) w (-127) false 0 (List.replicate 32 (some 0))), false, rs)
    else
      let (e, rs1) := encodeBlock (mOfmt d) w 0 (RMode.ofCode (mRmode d)) acc.held (pad32 n acc.vals) rs
      (writeBlock e, hSat e.hdr, rs1)

/-- One output block of row `i`, columns from `32 * jb` (R169, R170). -/
def matBlock (g : Agent) (d : Desc) (skip : List Bool) (row : List OBlk) (bs : List (List OBlk)) (j0 i jb : Nat) (r : MatRun) : MatRun :=
  if r.halted then r
  else
    let n := min 32 (mN d - 32 * jb)
    let cols := (bs.drop (32 * jb - j0)).take n
    let (r1, c0) := if mAcc d && decide (mK d ≠ 0) then cTerms g d i jb n r else (r, [])
    if r1.halted then r1
    else
      let a0 := if c0.isEmpty then {} else (Acc.addEach {} 0 c0)
      let acc := accRow (mK d) skip row cols a0
      let (out, sat, rs1) := outBlock d n acc r1.rs
      match agentWriteN r1.s g (mC d + (i * mLdc d + jb) * mSize false (mOfmt d)) out with
      | (s1, some st, _) => { r1 with s := s1, stop := some (st, blockDetail 2 0) }
      | (s1, none, lost) =>
        { r1 with s := s1, rs := rs1, sat := r1.sat || sat
                  found := if lost = 0 then r1.found else r1.found ++ [⟨2, i * cdiv (mN d) 32 + jb, .poisonedData⟩] }

/-- Counts the steps of one tile (R173). -/
def countSteps (d : Desc) (skip : List Bool) (bs : List (List OBlk)) (r : MatRun) : MatRun :=
  let dn := denseSteps d
  (List.range skip.length).foldl (fun r k =>
    if skip.getD k false then { r with steps := r.steps + dn / 2, skipped := r.skipped + 1 }
    else if mS24 d then
      if bs.all (fun row => is24 (row.getD k markerBlk)) then { r with steps := r.steps + dn / 2, hits := r.hits + 1 }
      else { r with steps := r.steps + dn, misses := r.misses + 1 }
    else { r with steps := r.steps + dn }) r

/-- One tile of a KBF job: rows from `i0`, columns from `j0` (R159, R169). -/
def kbfTile (g : Agent) (d : Desc) (tcols i0 j0 : Nat) (r : MatRun) : MatRun :=
  if r.halted then r
  else
    let kb := cdiv (mK d) 32
    let rows := min 64 (mM d - i0)
    let cols := min tcols (mN d - j0)
    let (r1, as) := readRows g 0 (mAfmt d) (mA d) (mLda d) kb (mSize false (mAfmt d)) (if mK d = 0 then 0 else rows) i0 r
    let (r2, bs) := readRows g 1 (mBfmt d) (mB d) (mLdb d) kb (mSize false (mBfmt d)) (if mK d = 0 then 0 else cols) j0 r1
    if r2.halted then r2
    else
      let skip := (List.range kb).map (skipAt as bs)
      let r3 := countSteps d skip bs r2
      let r4 := (List.range rows).foldl (fun r i =>
        (List.range (cdiv cols 32)).foldl (fun r b => matBlock g d skip (as.getD i []) bs j0 (i0 + i) (j0 / 32 + b) r) r) r3
      if r4.halted then r4 else { r4 with tiles := r4.tiles + 1 }

/-- Reads bytes of GF rows; a bad byte stops the job (R174). A row of the operand has `per` blocks, and the bytes read begin with its byte
`first`. -/
def gfRows (g : Agent) (operand base stride first per n : Nat) : Nat → Nat → MatRun → MatRun × List (List Byte)
  | 0, _, r => (r, [])
  | k + 1, i, r =>
    if r.halted then (r, [])
    else match agentRead r.s g (base + first + i * stride * 32) n with
      | (s1, .ok bs bad) =>
        if bad.isEmpty then
          let (r2, rows) := gfRows g operand base stride first per n k (i + 1) { r with s := s1 }
          (r2, bs :: rows)
        else
          let at1 := bad.foldl (fun m p => min m p.1) n
          ({ r with s := s1, stop := some (.poisonedData, blockDetail operand (i * per + (first + at1) / 32)) }, [])
      | (s1, .fail st) => ({ r with s := s1, stop := some (st, blockDetail operand 0) }, [])
      | (s1, .wait) => ({ r with s := s1, wait := some (base + first + i * stride * 32, n) }, [])

/-- The GF(2^8) dot product of two byte rows over K positions (R174). -/
def gfDot (k : Nat) (a b : List Byte) : Nat :=
  ((List.zipWith (fun x y => gfMul x.toNat y.toNat) (a.take k) (b.take k))).foldl Nat.xor 0

/-- One tile of a GF job (R174). Every output row of the tile is computed before any is written. -/
def gfTile (g : Agent) (d : Desc) (tcols i0 j0 : Nat) (r : MatRun) : MatRun :=
  if r.halted then r
  else
    let rows := min 64 (mM d - i0)
    let cols := min tcols (mN d - j0)
    let kb := cdiv (mK d) 32
    let (r1, as) := gfRows g 0 (mA d) (mLda d) 0 kb (mK d) rows i0 r
    let (r2, bs) := gfRows g 1 (mB d) (mLdb d) 0 kb (mK d) cols j0 r1
    let (r3, cs) := if mAcc d then gfRows g 2 (mC d) (mLdc d) j0 (cdiv (mN d) 32) cols rows i0 r2 else (r2, [])
    if r3.halted then r3
    else
      let r4 := { r3 with steps := r3.steps + 32 * kb }
      let r5 := (List.range rows).foldl (fun (r : MatRun) i =>
        if r.halted then r
        else
          let out := (List.range cols).map (fun j =>
            BitVec.ofNat 8 (Nat.xor ((cs.getD i []).getD j 0#8).toNat (gfDot (mK d) (as.getD i []) (bs.getD j []))))
          match agentWriteN r.s g (mC d + j0 + (i0 + i) * mLdc d * 32) out with
          | (s1, some st, _) => { r with s := s1, stop := some (st, blockDetail 2 0) }
          | (s1, none, lost) => { r with s := s1, found := if lost = 0 then r.found else r.found ++ [⟨2, (i0 + i) * cdiv (mN d) 32 + j0 / 32, .poisonedData⟩] }) r4
      if r5.halted then r5 else { r5 with tiles := r5.tiles + 1 }

/-- Tile columns: 64, or 32 in 32-column mode (R178). -/
def tileCols (e : Eng) : Nat := if e.half.isSome then 32 else 64

/-- The tiles of a matrix job by their first row and column, rows of tiles first (R159). -/
def matTiles (d : Desc) (tcols : Nat) : List (Nat × Nat) :=
  (List.range (cdiv (mM d) 64)).flatMap (fun ti => (List.range (cdiv (mN d) tcols)).map (fun tj => (64 * ti, tcols * tj)))

/-- A matrix job over tiles (R169, R174). -/
def matRun (s : State) (g : Agent) (d : Desc) (tcols : Nat) (rs : W64) (tiles : List (Nat × Nat)) : MatRun :=
  tiles.foldl (fun r t => if dOpcode d = 0x61 then gfTile g d tcols t.1 t.2 r else kbfTile g d tcols t.1 t.2 r) { s := s, rs := rs }

/-- The first finding of a status: the lowest operand, then the lowest block (R168). -/
def firstFinding (fs : List Finding) (st : Status) : Option Finding :=
  (fs.filter (fun f => decide (f.st = st))).foldl (fun (m : Option Finding) f => match m with
    | none => some f
    | some x => if f.operand < x.operand ∨ (f.operand = x.operand ∧ f.index < x.index) then some f else some x) none

/-- Status and DETAIL of a matrix job that ran (R166, R168). -/
def MatRun.outcome (r : MatRun) : Status × Nat :=
  match r.stop with
  | some x => x
  | none => match firstFinding r.found .poisonedData with
    | some f => (.poisonedData, blockDetail f.operand f.index)
    | none => match firstFinding r.found .malformedBlock with
      | some f => (.malformedBlock, blockDetail f.operand f.index)
      | none => (if r.sat then .saturated else .success, 0)

/-- The agent of a matrix job: it may name scratch (R165). -/
def Job.matAgent (j : Job) (id c : Nat) : Agent := { req := j.req, work := .job id, cluster := some c }

/-- Extent of an operand: first byte to last byte of its last row (R166). -/
def extent (rows stride size rowBytes : Nat) : Nat := if rows = 0 ∨ rowBytes = 0 then 0 else (rows - 1) * stride * size + rowBytes

/-- The extents of A, B and C with their operand numbers (R163, R166). With K = 0 only C is touched. -/
def matExtents (d : Desc) : List (Nat × Nat × Nat) :=
  let gf := dOpcode d == 0x61
  let kb := cdiv (mK d) 32
  let sa := mSize gf (mAfmt d)
  let sb := mSize gf (mBfmt d)
  let sc := mSize gf (mOfmt d)
  let crow := if gf then mN d else if mOfmt d = 8 then 4 * mN d else cdiv (mN d) 32 * sc
  [(0, mA d, extent (mM d) (mLda d) sa (kb * sa)), (1, mB d, extent (mN d) (mLdb d) sb (kb * sb)), (2, mC d, extent (mM d) (mLdc d) sc crow)]

/-- An address as one number per byte: the own cluster's scratch under its long form. -/
def canonAddr (c a : Nat) : Nat := if 0xFFFF000000000000 ≤ a ∧ a < 0xFFFF000000400000 then a + 0x100000000000 + 0x400000 * c else a

/-- Whether the extent of C overlaps that of A or B (R166). -/
def matOverlap (d : Desc) (c : Nat) : Bool :=
  let xs := matExtents d
  match xs[2]? with
  | none => false
  | some (_, ca, cn) => (xs.take 2).any (fun x => decide (cn ≠ 0) && decide (x.2.2 ≠ 0) &&
      decide (canonAddr c x.2.1 < canonAddr c ca + cn) && decide (canonAddr c ca < canonAddr c x.2.1 + x.2.2))

/-- The checks of R166 on the extent of one operand. Where nothing is accessed only the node of the address counts (R135). -/
def checkExtent (g : Agent) (s : State) (a n : Nat) : State × Option Status :=
  if 0xFFFF000000000000 ≤ a then
    if n = 0 then (s, none)
    else match resolveAddr s g a n with
      | (s1, .inr st) => (s1, some st)
      | (s1, .inl _) => (s1, none)
  else match ownAddr s a with
    | none => (if n = 0 then s else s.count LAKE_DENY, some .bounds)
    | some l =>
      if n = 0 then (s, none)
      else if !inTierN l n then (s.count LAKE_DENY, some .bounds)
      else match lakeCheck s g.req l n with
        | some st => (denied s st, some st)
        | none => (s, none)

/-- Checks a matrix job whole before its first read (R166): operand after operand, and for each the rows of the table in their order; the
overlap is a check on C (log 145). The state, and the completion with DETAIL if the job ends. With no output it succeeds once every check of
its addresses has passed (R135, R171). -/
def matCheck (s : State) (g : Agent) (d : Desc) (c : Nat) : State × Option (Status × Nat) :=
  let none_ := mM d = 0 ∨ mN d = 0
  let r := (matExtents d).foldl (fun (a : State × Option (Status × Nat)) x => match a.2 with
    | some _ => a
    | none =>
      if (mCluster d = 0x7F ∧ x.2.1 / 2 ^ 44 = 0xFFFF0) ∨ (x.1 = 2 ∧ ¬ none_ ∧ matOverlap d c = true) then (a.1, some (.invalidField, at_ 30 x.1))
      else match checkExtent g a.1 x.2.1 (if none_ then 0 else x.2.2) with
        | (s1, some st) => (s1, some (st, at_ 30 x.1))
        | (s1, none) => (s1, none)) (s, none)
  match r with
  | (s1, none) => if none_ then (s1, some (.success, 0)) else (s1, none)
  | _ => r

/-- A matrix job starts: it is checked, and waits for its engine (R161 to R167). -/
def matrixStart (s : State) (job : Nat) (j : Job) (pick : Nat ⊕ Status) : State :=
  match pick with
  | .inr st => finish s job st
  | .inl c => match matCheck s (j.matAgent job c) j.desc c with
    | (s1, some (st, detail)) => (completeJob s1 job st detail 0).count (IND_JOBS c)
    | (s1, none) => acceptRing (s1.setJob job { j with phase := .queued, unit := some c }) c false

/-- MATMUL (R162). -/
def execMatmul (job : Nat) (s : State) : Host.Outcome State Fault Refusal :=
  match jobOf s job 0x60 .started with
  | none => next s
  | some j => next (matrixStart s job j (pickEngine s j.fn (mCluster j.desc) false))

/-- GF_MATMUL (R174). -/
def execGfMatmul (job : Nat) (s : State) : Host.Outcome State Fault Refusal :=
  match jobOf s job 0x61 .started with
  | none => next s
  | some j => next (matrixStart s job j (pickEngine s j.fn (mCluster j.desc) false))

/-- What a matrix run leaves: the generator, the counters of its steps, and the codec's trouble count of blocks with a reserved FMT (R50,
R54, R180). -/
def matApply (r : MatRun) (c : Nat) : State :=
  let s1 := r.s.setCl c { r.s.cl c with rs := r.rs }
  let s2 := if r.malf = 0 then s1 else s1.trouble (engUnit c true) .ue r.malf
  (((s2.count (IND_STEPS c) r.steps).count (IND_SKIP c) r.skipped).count (IND_S24_HIT c) r.hits).count (IND_S24_MISS c) r.misses

/-- RESULT of a matrix job (R168). -/
def MatRun.result (r : MatRun) : Nat := min (2 ^ 32 - 1) r.tiles + at_ 32 (min (2 ^ 32 - 1) r.skipped)

/-- The running matrix job completes: its tiles are computed and written, and it reports (R168 to R174). While near memory waits for a
region in reset it goes on later (R23). -/
def execIndigoJobDone (job : Nat) (s : State) : Host.Outcome State Fault Refusal :=
  match mget s.vat.jobs job with
  | none => next s
  | some j => match j.unit with
    | none => next s
    | some c =>
      if !j.isMatrix || decide (j.phase ≠ .running) || decide (2 ≤ (s.eng c false).mism) then next s
      else
        let tcols := tileCols (s.eng c false)
        let r := matRun s (j.matAgent job c) j.desc tcols (s.cl c).rs (matTiles j.desc tcols)
        match r.wait with
        | some (a, n) => next (agentRead s (j.matAgent job c) a n).1
        | none =>
          let (st, detail) := r.outcome
          next (endEngineJob (matApply r c) job c false st detail r.result)

/-- A running job stops at a block or tile boundary: what it has written by then stays in memory (R133, R140, R178, R179). How far it has
come is free (log 146). The state, and RESULT. -/
def cutJob (s : State) (id c : Nat) (j : Job) : State × Nat :=
  if j.phase ≠ .running then (s, 0)
  else if j.isCodec then
    let (n, s1) := s.choose (codecBlocks j.desc + 1)
    let r := codecRunN n s1 id j (s1.cl c).rs
    (codecApply r c, r.written)
  else
    let tcols := tileCols (s.eng c false)
    let tiles := matTiles j.desc tcols
    let (n, s1) := s.choose (tiles.length + 1)
    let r := matRun s1 (j.matAgent id c) j.desc tcols (s1.cl c).rs (tiles.take n)
    (matApply r c, r.result)

/-- Ends every job an engine has accepted with a status (R178, R179). -/
def abortEngine (s : State) (c : Nat) (codec : Bool) (st : Status) : State :=
  (s.vat.jobs.filter (fun p => p.2.onEngine c codec && p.2.accepted)).foldl (fun s p =>
    let (s0, result) := cutJob s p.1 c p.2
    let s1 := completeJob s0 p.1 st 0 result
    if codec then s1 else s1.count (IND_JOBS c)) s

/-- Jobs that wait in Vat for an engine complete with a status (R23). -/
def failQueued (s : State) (c : Nat) (codec : Bool) (st : Status) : State :=
  (engJobs s c codec .queued).foldl (fun s p => completeJob s p.1 st 0 0) s

/-- The CLUSTER field of an engine's or a codec's job. -/
def Job.cluster (j : Job) : Nat := if j.isCodec then cCluster j.desc else mCluster j.desc

/-- Jobs that wait in Vat for an engine that they may no longer use are selected for anew (R140, R167, R178): one that names the cluster is
refused, one that names any goes to another. -/
def reselect (s : State) (c : Nat) (codec : Bool) : State :=
  (engJobs s c codec .queued).foldl (fun s p => match pickEngine s p.2.fn p.2.cluster codec with
    | .inr st => completeJob s p.1 st 0 0
    | .inl c1 => acceptRing (s.setJob p.1 { p.2 with unit := some c1 }) c1 codec) s

/-- Retires an engine or a codec (R178, R511): the jobs it has accepted complete with the unit-fault status. -/
def retireEngine (s : State) (c : Nat) (codec : Bool) : State :=
  let u := engUnit c codec
  reselect (abortEngine ((s.setUnit u { s.unit u with state := .retired }).note u) c codec .unitFault) c codec

/-- A column residue check fails in a tile (R177): the tile is computed again; a second failure of the same tile starts a pattern
test. -/
def execResidueMismatch (place : TileAt) (s : State) : Host.Outcome State Fault Refusal :=
  let cluster := place.cluster
  if (engJobs s cluster false .running).isEmpty then next s
  else
    let e := s.eng cluster false
    next (((s.count (IND_RESIDUE cluster)).trouble (engUnit cluster false) .ue).setEng cluster false { e with tile := place.tile, mism := if e.mism = 2 ∨ (e.mism = 1 ∧ e.tile = place.tile) then 2 else 1 })

/-- The half of the array that the two spare columns can make whole, when a column fails with none free (R178). -/
def wholeHalf (e : Eng) (col : Nat) : Option Bool :=
  let bad := [e.col0, e.col1].filterMap id ++ [col]
  let inHalf (h : Bool) : Nat := (bad.filter (fun c => decide (32 ≤ c) == h)).length
  if inHalf false ≤ 2 then some false else if inHalf true ≤ 2 then some true else none

/-- A row or a column of an array fails (R177, R178): a free spare is swapped in; without one the array halves, or the engine is
retired. -/
def arrayRepair (s : State) (cluster : Nat) (column : Bool) (index : Nat) : State :=
  let e := { s.eng cluster false with mism := 0 }
  let u := engUnit cluster false
  let keep (e : Eng) : State := (s.setEng cluster false e).note u
  let gone : State := retireEngine (s.setEng cluster false e) cluster false
  if column then
    match e.col0, e.col1 with
    | none, _ => keep { e with col0 := some index }
    | some _, none => keep { e with col1 := some index }
    | some _, some _ =>
      if e.half.isSome then gone
      else match wholeHalf e index with
        | some h =>
          let bad := ([e.col0, e.col1].filterMap id ++ [index]).filter (fun c => decide (32 ≤ c) == h)
          keep { e with half := some h, col0 := bad[0]?, col1 := bad[1]? }
        | none => gone
  else
    match e.row0, e.row1 with
    | none, _ => keep { e with row0 := some index }
    | some _, none => keep { e with row1 := some index }
    | some _, some _ => gone

/-- The pattern test names the failing row or column (R177). -/
def execArrayPatternTestDone (cluster : Nat) (column : Bool) (index : Nat) (s : State) : Host.Outcome State Fault Refusal :=
  if (s.eng cluster false).mism < 2 ∨ 64 ≤ index then next s
  else
    let s1 := arrayRepair s cluster column index
    let u := engUnit cluster false
    next (if s1.retired u && !s.retired u then s1.trouble u .fx else s1)

end Sys2Proof.Machine
end

