-- ==== Sys2Proof/Machine/CarmRx.lean ====
section
/-! DEFINITION. Carmine's receiving side: parking and steps 3 to 8 of R273, placement and visibility (R274 to R276), responses
(R271, R277), ACK, NACK and CTRL (R255, R277 to R281, R285). -/

namespace Sys2Proof.Machine

open Sys2Proof

/-- What the blocks above Carmine do with a notice (R266) and a parity delta (R241) that has become visible on a connection. -/
structure Hooks where
  notice : State → Nat → BitVec 256 → State
  delta : State → Nat → ParityMsg → State

/-- The remote checks of R88 on an access of a packet: the local address, or the refusing status, counted. -/
def remoteCheck (s : State) (op : RemoteOp) (key : W32) (ga len : Nat) : State × (Nat ⊕ Status) :=
  match ownAddr s ga with
  | none => (s.count LAKE_DENY, .inr .bounds)
  | some a => match lakeCheckRemote s op key a len with
    | (some st, kf) => (if kf then (denied s st).count LAKE_KEYFAIL else denied s st, .inr st)
    | (none, _) => (s, .inl a)

/-- Writes a packet's payload for a remote peer (R275): a refusing status, if any. -/
def remoteWrite (s : State) (i : Nat) (c : Conn) (key : W32) (ga : Nat) (bs : List Byte) : State × Option Status :=
  match remoteCheck s .write key ga bs.length with
  | (s1, .inr st) => (s1, some st)
  | (s1, .inl a) =>
    if bs.isEmpty then (s1, none)
    else if inWindow a bs.length then
      match windowCheck s1 a bs.length with
      | some st => (if st = .bounds then s1.count LAKE_DENY else s1, some st)
      | none => (windowWrite s1 (some (.place i)) (c.tc == 0) a bs, none)
    else
      let (s2, n) := lakeWrite s1 a bs
      (s2.tagHeld s1.lake.held.length (some (.place i)), if n = 0 then none else some .poisonedData)

/-- A placement: the status that ends it, or nothing yet, because an accelerator port has to accept the bytes first (R275,
R310). `again` asks for the outcome of one that has waited; a port that failed it gives the port-error status (R315). -/
def placeWrite (s : State) (i : Nat) (again : Bool) (f : State → State × Option Status) : State × Option (Option Status) :=
  if again then (dropGot s (.place i), some (mget s.ap.failed (4 * i + 3)))
  else match f (dropGot s (.place i)) with
    | (s1, some e) => (s1, some (some e))
    | (s1, none) => (s1, if writesOut s1 (.place i) then none else some none)

/-- Marks a message of the peer failed and answers with NACK refused (R276). -/
def refuseMsg (s : State) (i : Nat) (c : Conn) (h : Hdr) (st : Status) : State :=
  let s1 := (sendNack s i c h 2 st.code).count CARM_REFUSED
  match s1.conn i with
  | none => s1
  | some k => if h.eom then s1 else s1.setConn i { k with failedMsn := h.msn :: k.failedMsn }

/-- Bytes received into the entry of a SEND (R272). -/
def recvWrite (s : State) (i : Nat) (express : Bool) (e : RecvEntry) (off : Nat) (bs : List Byte) : State × Option Status :=
  match mget s.vat.jobs e.job with
  | none => (s, none)
  | some j =>
    if e.lhost then
      if s.master j.fn then (s.hostWrite j.fn (e.laddr + off) bs, none) else (s, some .busMasterDisabled)
    else agentWrite s { req := j.req, work := .place i, express := express } (e.laddr + off) bs

/-- How placing a packet ends: it has taken effect, it waits for memory, or its message is refused (R275, R276). -/
inductive Placed where
  | done | waits | refused
deriving DecidableEq, Repr

/-- Places a packet of a SEND (R272). -/
def placeSend (s : State) (i : Nat) (again : Bool) (c : Conn) (h : Hdr) (mlen : Nat) (bs : List Byte) : State × Placed :=
  let cur : Option RecvCur := match c.recvCur with
    | some r => if r.msn = h.msn then some r else none
    | none => none
  let start : Option (RecvCur × Conn) := match cur with
    | some r => some (r, c)
    | none => match c.recvq with
      | e :: rest => some (⟨h.msn, e, 0⟩, { c with recvq := rest })
      | [] => none
  match start with
  | none => (refuseMsg s i c h (.cls 0x56), .refused)
  | some (r, c1) =>
    let room := r.entry.len - h.moff
    let (s1, res) := placeWrite (s.setConn i { c1 with recvCur := some { r with got := h.moff + bs.length } }) i again
      (fun s => recvWrite s i (c.tc == 0) r.entry h.moff (bs.take room))
    let close (s : State) : State := match s.conn i with
      | some k => s.setConn i { k with recvCur := none }
      | none => s
    match res with
    | none => (s1, .waits)
    | some (some e) => (completeJob (refuseMsg (close s1) i c1 h e) r.entry.job e 0 0, .refused)
    | some none =>
      if room < bs.length then (completeJob (refuseMsg (close s1) i c1 h (.cls 0x57)) r.entry.job (.cls 0x57) 0 r.entry.len, .refused)
      else if h.eom then (completeJob (close s1) r.entry.job .success 0 mlen, .done)
      else (s1, .done)

/-- Places the payload of a write at an address (R275). -/
def placeBytes (s : State) (i : Nat) (again : Bool) (c : Conn) (h : Hdr) (key : W32) (a : Nat) (bs : List Byte) : State × Placed :=
  match placeWrite s i again (fun s => remoteWrite s i c key a bs) with
  | (s1, none) => (s1, .waits)
  | (s1, some (some st)) => (refuseMsg s1 i c h st, .refused)
  | (s1, some none) => (s1, .done)

/-- What happens when the last packet of a message has taken effect: the counter, the tally, the notice (R275). -/
def becomeVisible (H : Hooks) (s : State) (i : Nat) (h : Hdr) (p : RxPkt) : State :=
  let x := extOf p.bytes
  let s1 := if h.op = 2 then s.addCtr (bn x 63 48) 1#64
    else if h.op = 3 then trigArrive s (bn x 63 48) (bn x 47 36) (bn x 35 16) (s.slot 3 i).owner
    else s
  if h.nt then H.notice s1 i (noticeOf p.bytes) else s1

/-- Places a DATA packet (R273 step 8, R275): the payload of a notice goes to no memory (R266). -/
def placeData (H : Hooks) (s : State) (i : Nat) (again : Bool) (c : Conn) (h : Hdr) (p : RxPkt) : State × Placed :=
  let x := extOf p.bytes
  let bs := if h.nt then [] else payloadOf p.bytes
  let key : W32 := BitVec.ofNat 32 (bn x 127 96)
  match (if h.op = 8 then p.par else none) with
  | some d => (H.delta s i d, .done)
  | none =>
    if h.op = 2 ∧ ownsCtr s (s.slot 3 i).owner (bn x 63 48) = false then (refuseMsg s i c h .accessDenied, .refused)
    else match (if h.op = 4 then placeSend s i again c h (bn x 95 64) bs
        else if h.nt then (s, .done)
        else placeBytes s i again c h key (bn x 191 128 + (if h.op = 8 then 0 else h.moff)) bs) with
      | (s1, .done) => (if h.eom then becomeVisible H s1 i h p else s1, .done)
      | r => r

/-- A read request runs (R271): its data go back as a message of this end. -/
def placeReadReq (s : State) (i : Nat) (c : Conn) (h : Hdr) (p : RxPkt) : State :=
  let x := extOf p.bytes
  match remoteCheck s .read (BitVec.ofNat 32 (bn x 127 96)) (bn x 191 128) (bn x 95 64) with
  | (s1, .inr st) => refuseMsg s1 i c h st
  | (s1, .inl a) =>
    let bad := if inWindow a (bn x 95 64) then windowCheck s1 a (bn x 95 64) else none
    match bad with
    | some st => refuseMsg (if st = .bounds then s1.count LAKE_DENY else s1) i c h st
    | none => addMsg s1 i { kind := .readResp h.msn, reqPsn := h.psn, reqTs := h.tstamp, poster := .none, msn := 0, psn := 0, count := 0, laddr := bn x 191 128, len := bn x 95 64 }

/-- An atomic request runs once at the line (R90, R271); true while it waits for near memory (R23). -/
def placeAtomicReq (s : State) (i : Nat) (c : Conn) (h : Hdr) (p : RxPkt) : State × Bool :=
  let x := extOf p.bytes
  let addr := bn x 255 192
  let arg0 : W64 := BitVec.ofNat 64 (bn x 127 64)
  let arg1 : W64 := BitVec.ofNat 64 (bn x 63 0)
  if addr % 8 ≠ 0 then (refuseMsg s i c h .invalidField, false)
  else match remoteCheck s .atomic (BitVec.ofNat 32 (bn x 191 160)) addr 8 with
    | (s1, .inr st) => (refuseMsg s1 i c h st, false)
    | (s1, .inl a) =>
      if inWindow a 8 then (refuseMsg s1 i c h .invalidField, false)
      else if atomicWaits s1 a then match waitNear s1 (.place i) a 8 with
        | (s2, .fail st) => (refuseMsg (dropGot s2 (.place i)) i c h st, false)
        | (s2, _) => (s2, true)
      else match lakeAtomic s1 a (fun v => if h.op = 6 then some (v + arg0) else if v = arg0 then some arg1 else none) with
        | (s2, none) => (refuseMsg s2 i c h .poisonedData, false)
        | (s2, some old) => (addMsg s2 i { kind := .atomicResp h.op h.msn old, poster := .none, msn := 0, psn := 0, count := 0 }, false)

/-- The request of this end a response answers (R277). -/
def askOf (c : Conn) (rmsn : Nat) : Option TxMsg := c.msgs.find? (fun m => m.asks && !m.done && decide (m.msn % 2 ^ 32 = rmsn))

/-- Writes what a response brings to LADDR, or into the backing command of Saffron that asked for it (R420). -/
def respWrite (s : State) (i : Nat) (m : TxMsg) (off : Nat) (bs : List Byte) : State × Option Status :=
  if m.lhost then
    let f := (s.slot 3 i).owner
    if s.master f then (s.hostWrite f (m.laddr + off) bs, none) else (s, some .busMasterDisabled)
  else match m.poster with
    | .saf key =>
      let put (b : Back) : Back := { b with got := putBytes b.got off bs }
      ({ s with saf := { s.saf with backs := mmod s.saf.backs key put } }, none)
    | _ => agentWrite s { msgAgent s i m with work := .place i, express := ((s.conn i).map (·.tc)).getD 1 == 0 } (m.laddr + off) bs

/-- A read response is placed; the last completes the READ (R277). -/
def placeReadResp (s : State) (i : Nat) (again : Bool) (c : Conn) (h : Hdr) (p : RxPkt) : State × Bool :=
  match askOf c (bn (extOf p.bytes) 63 32) with
  | none => (s, false)
  | some m => match placeWrite s i again (fun s => respWrite s i m h.moff (payloadOf p.bytes)) with
    | (s1, none) => (s1, true)
    | (s1, some (some st)) => (msgDone s1 i m.msn st 0 0, false)
    | (s1, some none) => (if h.eom then msgDone s1 i m.msn .success 0 m.len else s1, false)

/-- An atomic response writes VALUE to LADDR and completes the atomic (R269, R277). -/
def placeAtomicResp (s : State) (i : Nat) (again : Bool) (c : Conn) (p : RxPkt) : State × Bool :=
  let x := extOf p.bytes
  match askOf c (bn x 127 96) with
  | none => (s, false)
  | some m =>
    let v := bn x 63 0
    if m.laddr = 0 then (msgDone s i m.msn .success 0 v, false)
    else match placeWrite s i again (fun s => respWrite s i m 0 (leBytes 8 v)) with
      | (s1, none) => (s1, true)
      | (s1, some (some st)) => (msgDone s1 i m.msn st 0 0, false)
      | (s1, some none) => (msgDone s1 i m.msn .success 0 v, false)

/-- Places the packet at EPSN (R275, R276): EPSN is reported after the packet has taken effect. A packet whose bytes an
accelerator port has still to accept, or that waits for near memory, stays at EPSN. -/
def placePacket (H : Hooks) (s : State) (i : Nat) (again : Bool) (p : RxPkt) : State :=
  match s.conn i with
  | none => s
  | some c =>
    let h := readHdr p.bytes
    let (s1, waits) : State × Bool :=
      if c.failedMsn.contains h.msn ∧ h.ty = 0 then
        (if h.eom then s.setConn i { c with failedMsn := c.failedMsn.filter (· ≠ h.msn) } else s, false)
      else if h.ty = 0 then (let (s1, r) := placeData H s i again c h p; (s1, decide (r = .waits)))
      else if h.ty = 3 then (placeReadReq s i c h p, false)
      else if h.ty = 4 then placeReadResp s i again c h p
      else if h.ty = 5 then placeAtomicReq s i c h p
      else placeAtomicResp s i again c p
    match s1.conn i with
    | none => s1
    | some k =>
      if waits then s1.setConn i { k with winPkt := some p }
      else s1.setConn i { k with winPkt := none, epsn := k.epsn + 1, toAck := k.toAck + 1, toAckAt := if k.toAck = 0 then s.now else k.toAckAt, lastTs := h.tstamp, firstTs := if k.toAck = 0 then h.tstamp else k.firstTs, ackDue := k.ackDue || h.ar }

/-- Places staged packets while the next one is present, `n` at most (R274). -/
def drainStaged (H : Hooks) (i : Nat) : Nat → State → State
  | 0, s => s
  | n + 1, s =>
    match s.conn i with
    | none => s
    | some c => if c.winPkt.isSome then s else match mget c.staged c.epsn with
      | none => s
      | some p => drainStaged H i n (placePacket H (s.setConn i { c with staged := mdel c.staged c.epsn }) i false p)

/-- Places what follows, and acknowledges when that is due (R274, R278). -/
def goOn (H : Hooks) (s : State) (i : Nat) : State :=
  let s1 := drainStaged H i 257 s
  match s1.conn i with
  | none => s1
  | some k => if k.ackDue || decide (8 ≤ k.toAck) then sendAck s1 i else s1

/-- A packet that has waited for its accelerator port has been accepted, or has failed (R275, R315). -/
def resumeWin (H : Hooks) (s : State) (i : Nat) : State :=
  match s.conn i with
  | none => s
  | some c => match c.winPkt with
    | none => s
    | some p => if writesOut s (.place i) then s else goOn H (placePacket H s i true p) i

/-- The packets of every connection that have waited for memory; those of a slice in reset wait on (R288). -/
def resumeAll (H : Hooks) (s : State) : State := s.carm.conns.foldl (fun s c => if c.2.winPkt.isSome && sliceUp s c.1 then resumeWin H s c.1 else s) s

/-- Bytes staged (R274). -/
def stagedBytes (c : Conn) : Nat := (c.staged.map (fun p => p.2.bytes.length)).sum

/-- Staging space remains for a packet (R274). -/
def stageRoom (s : State) (c : Conn) (n : Nat) : Bool :=
  if c.tc = 0 then decide (stagedBytes c + n ≤ 262144)
  else decide (stagedBytes c + n ≤ 4194304) && decide (((s.carm.conns.filter (fun k => k.2.tc != 0)).map (fun k => stagedBytes k.2)).sum + n ≤ 536870912)

/-- Sends an ACK at once for a packet that is not placed: one staged, or a duplicate (R263, R278). -/
def ackFor (s : State) (i : Nat) (h : Hdr) : State :=
  match s.conn i with
  | none => s
  | some c => sendAck (s.setConn i { c with lastTs := h.tstamp }) i

/-- A packet that takes a PSN (R274, R278). -/
def sequenced (H : Hooks) (s : State) (i : Nat) (c : Conn) (h : Hdr) (p : RxPkt) : State :=
  let d := (h.psn + 2 ^ 32 - c.epsn % 2 ^ 32) % 2 ^ 32
  if d = 0 then (if c.winPkt.isSome then ackFor s i h else goOn H (placePacket H s i false p) i)
  else if d ≤ 256 then
    if (mget c.staged (c.epsn + d)).isSome then ackFor s i h
    else if stageRoom s c p.bytes.length then ackFor (s.setConn i { c with staged := mset c.staged (c.epsn + d) p }) i h
    else s.count CARM_STAGE_FULL
  else if d < 2 ^ 31 then s.count CARM_OOW
  else ackFor s i h

/-- Marks the PSNs of a SACK, and finds losses (R279). -/
def applySack (s : State) (i epsn : Nat) (bits : Nat) : State :=
  match s.conn i with
  | none => s
  | some c =>
    let un := mmap c.unacked (fun psn t => if epsn < psn ∧ psn ≤ epsn + 256 ∧ bits.testBit (psn - epsn - 1) = true then { t with sacked := true } else t)
    let lost := (un.filter (fun a => !a.2.sacked && decide (pDup c.prof ≤ (un.filter (fun b => b.2.sacked && decide (a.1 < b.1))).length))).map (·.1)
    lost.foldl (fun s p => losePsn s i p) (s.setConn i { c with unacked := un })

/-- The window after an ACK (R281). -/
def ackWindow (s : State) (i : Nat) (c : Conn) (acked ce rtt : Nat) : State × Conn :=
  if pFw c.prof then (if ce = 0 then ccRecord s i 2 rtt else ccRecord s i 0 ce, c)
  else if ce = 0 then (s, { c with cwnd := c.cwnd + pAi c.prof * acked / max 1 c.cwnd })
  else match c.cutAt with
    | some t => if s.now < t + c.srtt then (s, c) else (s, { c with cwnd := max (pMin c.prof) (c.cwnd * (256 - pMd c.prof) / 256), cutAt := some s.now })
    | none => (s, { c with cwnd := max (pMin c.prof) (c.cwnd * (256 - pMd c.prof) / 256), cutAt := some s.now })

/-- The messages that an EPSN acknowledges complete in order (R277). -/
def completeAcked (s : State) (i : Nat) : State :=
  match s.conn i with
  | none => s
  | some c =>
    let ready := c.msgs.filter (fun m => !m.done && !m.asks && decide (m.psn + m.count ≤ c.una))
    reap (ready.foldl (fun s m => match m.failed with
      | some st => msgDone s i m.msn .remoteRefused st 0
      | none => msgDone s i m.msn .success 0 m.len) s) i

/-- The EPSN that the peer reports moves on to `una` (R277, R279, R285). -/
def Conn.advance (c : Conn) (una now : Nat) : Conn :=
  { c with
    una := una, unacked := c.unacked.filter (fun t => decide (una ≤ t.1))
    misses := if c.una < una then 0 else c.misses, progAt := if c.una < una then now else c.progAt }

/-- The peer's EPSN in full, from its low 32 bits: none beyond what has been sent. -/
def Conn.peerPsn (c : Conn) (x : Nat) : Option Nat :=
  let d := (x + 2 ^ 32 - c.una % 2 ^ 32) % 2 ^ 32
  if c.nextSend < c.una + d then none else some (c.una + d)

/-- An ACK (R277, R279 to R281). -/
def ackIn (s : State) (i : Nat) (c : Conn) (p : RxPkt) : State :=
  let x := extOf p.bytes
  match c.peerPsn (bn x 383 352) with
  | none => s
  | some una =>
    let acked := ((c.unacked.filter (fun t => decide (t.1 < una))).map (fun t => t.2.paylen)).sum
    let rtt := (s.now % 2 ^ 32 + 2 ^ 32 - bn x 319 288) % 2 ^ 32
    let c1 : Conn := { c.advance una s.now with
      prof := profOf s c.ccprof, srtt := if c.srtt = 0 then rtt else (7 * c.srtt + rtt) / 8, activeAt := s.now, probes := 0 }
    let (s1, c2) := ackWindow s i c1 acked (bn x 351 336) rtt
    let c3 := if bt x 271 then ((List.range c2.paths).filter (fun k => pathPort i k == bn x 287 272)).foldl (holdPath s1) c2 else c2
    completeAcked (applySack (s1.setConn i c3) i una (bn x 255 0)) i

/-- The message that a NACK refuses completes with remote-refused, and the rest of it goes without data (R276). -/
def refusedIn (s : State) (i : Nat) (x : BitVec 384) : State :=
  match s.conn i with
  | none => s
  | some c => match c.msgs.find? (fun m => !m.done && decide (m.msn % 2 ^ 32 = bn x 63 32)) with
    | none => s
    | some m =>
      let st := bn x 87 80
      let mark (y : TxMsg) : TxMsg := if y.msn = m.msn then { y with failed := some st } else y
      msgDone (s.setConn i { c with msgs := c.msgs.map mark }) i m.msn .remoteRefused st 0

/-- A NACK (R276, R277, R279, R285). A refusal comes from the packet at EPSN, so every PSN before it has been placed. -/
def nackIn (s : State) (i : Nat) (c : Conn) (p : RxPkt) : State :=
  let x := extOf p.bytes
  let reason := bn x 95 88
  if reason = 3 then connError s i .peerLost
  else if reason = 1 then
    let k := c.misses + 1
    let pause := 1000 * min (pBackoff c.prof * 2 ^ (k - 1)) (32 * pBackoff c.prof)
    let d := (bn x 127 96 + 2 ^ 32 - c.una % 2 ^ 32) % 2 ^ 32
    let un := mmap c.unacked (fun psn t => if c.una + d ≤ psn then { t with lost := true, miss := true, sacked := false } else t)
    (s.count CARM_CMISS_RX).setConn i { c with misses := k, pauseEnd := some (s.now + pause), unacked := un }
  else match c.peerPsn (bn x 127 96) with
    | none => refusedIn s i x
    | some una => refusedIn (completeAcked (s.setConn i (c.advance una s.now)) i) i x

/-- ESTABLISHED: waiting work runs (R254, R255). -/
def establish (s : State) (i : Nat) (c : Conn) (peerPsn : Nat) : State :=
  let c1 : Conn := { c with state := .established, epsn := peerPsn, progAt := s.now, activeAt := s.now, probes := 0 }
  startWaiting i (c.waiting.length + 1) (s.setConn i c1)

/-- A CTRL packet (R254, R255, R281). CONNECT and CLOSE pause while Palette core 3 restarts (R288). -/
def ctrlIn (s : State) (i : Nat) (c : Conn) (h : Hdr) (p : RxPkt) : State :=
  let x := extOf p.bytes
  let kind := bn x 127 120
  if kind ≤ 2 then
    let fits := bn x 111 88 == c.peerConn && bn x 87 76 == c.peerGen && h.tc == c.tc && bn x 75 74 == c.mtu
    if !fits || c.state = .idle || c.state = .error then s.count CARM_STALE
    else
      let s1 := if kind = 1 then sendCtrl s i 2 else s
      if c.state = .connecting then establish s1 i c (bn x 63 32) else s1
  else if kind = 3 then connError s i .peerLost
  else if kind = 4 then (if c.state = .established then sendCtrl (s.setConn i { c with activeAt := s.now }) i 5 else s)
  else s.setConn i { c with probes := 0, activeAt := s.now }

/-- NACK stale to the source of a packet without a connection, once per source node in 10 µs (R273). The connection that it
names at the source is open (log 39). -/
def staleNack (s : State) (p : RxPkt) : State :=
  let h := readHdr p.bytes
  let s1 := s.count CARM_STALE
  let again := match mget s.carm.staleAt h.snode with
    | some t => decide (t + 10000 ≤ s.now)
    | none => true
  if h.ty = 1 ∨ h.ty = 2 ∨ h.ty = 7 ∨ again = false ∨ hasNode s = false then s1
  else
    let (d, s2) := s1.draw
    let w := Config.freeWord d
    let c : Conn := { peerNode := h.snode, peerConn := bn w 23 0, peerGen := bn w 35 24, tc := h.tc, mtu := 0, ipv4 := decide (p.srcIp < 2 ^ 32), evtEn := false, peerIp := p.srcIp, paths := 1, ccprof := 0, cookie := BitVec.ofNat 32 h.cookie, ectr := 0 }
    let s3 : State := { s2 with carm := { s2.carm with staleAt := mset s2.carm.staleAt h.snode s2.now } }
    sendPacket s3 h.dconn c 0 (nackHdr s3 c h) (nackExt h 3 0) []

/-- Steps 4 to 8 of R273, for a context on die. -/
def handlePacket (H : Hooks) (s : State) (p : RxPkt) : State :=
  let h := readHdr p.bytes
  let i := h.dconn
  let sl := s.slot 3 i
  match s.conn i with
  | none => staleNack s p
  | some c =>
    if !sl.live || sl.gen != h.dgen then staleNack s p
    else if c.cookie.toNat ≠ h.cookie ∨ c.peerNode ≠ h.snode ∨ c.peerIp ≠ p.srcIp then s.count CARM_COOKIE_ERR
    else if c.state ≠ .established ∧ h.ty ≠ 7 then s
    else
      let c1 : Conn := { c with ceCnt := if p.ce then min 65535 (c.ceCnt + 1) else c.ceCnt, cePort := if p.ce then some p.srcPort else c.cePort, lastUse := s.carm.useCtr + 1, activeAt := s.now }
      let s1 := touchConn (s.setConn i c1) i
      if h.ty = 1 then ackIn s1 i c1 p
      else if h.ty = 2 then nackIn s1 i c1 p
      else if h.ty = 7 then ctrlIn s1 i c1 h p
      else sequenced H s1 i c1 h p

/-- Drops a packet with NACK context-miss (R284); ACK, NACK and CTRL get none. -/
def missNack (s : State) (c : Conn) (p : RxPkt) : State :=
  let h := readHdr p.bytes
  if h.ty = 1 ∨ h.ty = 2 ∨ h.ty = 7 then s else (sendNack s h.dconn c h 1 0).count CARM_CMISS_TX

/-- Step 3 of R273: a packet whose context is not on die is parked (R284); in a region reset it gets a context-miss NACK
(R288). Without a node ID the device accepts none (R17). -/
def receive (H : Hooks) (s : State) (p : RxPkt) : State :=
  let h := readHdr p.bytes
  if !hasNode s then s
  else match s.conn h.dconn with
  | none => staleNack s p
  | some c =>
    if !sliceUp s h.dconn then missNack s c p
    else if c.tier = .die then handlePacket H s p
    else if 8192 ≤ s.carm.parked.length then missNack (fetchContext s h.dconn) c p
    else fetchContext { s with carm := { s.carm with parked := s.carm.parked ++ [⟨h.dconn, p, s.now⟩] } } h.dconn

/-- Takes the oldest packet of a TYPE, of a KIND for CTRL, from those that have arrived. -/
def takePacket (s : State) (ty kind : Nat) : Option (RxPkt × State) :=
  match s.carm.rx.find? (fun p => decide ((readHdr p.bytes).ty = ty) && (ty != 7 || bn (extOf p.bytes) 127 120 == kind)) with
  | none => none
  | some p => some (p, { s with carm := { s.carm with rx := s.carm.rx.erase p } })

/-- Handles the oldest packet of a TYPE. CONNECT and CLOSE wait while Palette core 3 restarts (R288). -/
def onPacket (H : Hooks) (s : State) (ty kind : Nat) (delta : Option ParityMsg) : State :=
  if ty = 7 ∧ kind ≤ 3 ∧ pcoreRuns s 3 = false then s
  else match takePacket s ty kind with
  | none => s
  | some (p, s1) => receive H s1 { p with par := delta }

end Sys2Proof.Machine
end

