-- ==== Sys2Proof/Machine/CarmCmds.lean ====
section
/-! DEFINITION. Commands of Carmine: connections (R252 to R256), transport descriptors (R268 to R272), timers (R255, R278,
R279, R281, R285), contexts (R282 to R284), CARM_NODE_LOST (R286), congestion profiles (R291). -/

namespace Sys2Proof.Machine

open Sys2Proof

/-- Fields of R252, which R253 refuses with the invalid-field status. -/
def connFieldsOk (s : State) (fn : Nat) (p : BitVec 256) : Bool :=
  zeroBits p 63 59 && zeroBits p 207 204 && bn p 56 55 != 3 && (!bt p 57 || zeroBits p 191 96) && bn p 15 0 != 0xFFFF &&
    bn p 15 0 != s.fab.node && decide (1 ≤ bn p 199 192) && decide (bn p 199 192 ≤ 128) && !zeroBits p 239 208 &&
    (bn p 54 52 != 0 || bn p 56 55 != 2) && (!bt p 58 || ownsCtr s fn (bn p 255 240))

/-- Pinned contexts of a slice, and of the device (R253, R283). -/
def pinnedOn (s : State) (slice : Nat) : Nat := (s.carm.conns.filter (fun c => c.2.tc == 0 && c.1 % 16 == slice)).length
def pinnedAll (s : State) : Nat := (s.carm.conns.filter (fun c => c.2.tc == 0)).length

/-- Contexts in a tier (R282). -/
def tierCount (s : State) (t : Tier) : Nat := (s.carm.conns.filter (fun c => decide (c.2.tier = t))).length

/-- A quiescent connection (R283). -/
def Conn.quiet (c : Conn) : Bool := c.msgs.isEmpty && c.staged.isEmpty && c.recvq.isEmpty && c.recvCur.isNone && c.waiting.isEmpty

/-- The least recently used of some connections. -/
def oldestConn : List (Nat × Conn) → Option (Nat × Conn)
  | [] => none
  | p :: ps => match oldestConn ps with
    | none => some p
    | some q => if p.2.lastUse ≤ q.2.lastUse then some p else some q

/-- A context leaves the die of a slice, the least recently used that is not pinned, when the slice holds 4,096 (R282, R283). -/
def leaveDie (s : State) (slice : Nat) : State :=
  let on := s.carm.conns.filter (fun c => c.1 % 16 == slice && decide (c.2.tier = .die))
  if on.length < 4096 then s
  else match oldestConn (on.filter (fun c => c.2.tc != 0)) with
    | none => s
    | some (i, c) => s.setConn i { c with tier := .near }

/-- Brings a context on die (R283, R284). -/
def bringOnDie (s : State) (i : Nat) : State :=
  let s1 := leaveDie s (i % 16)
  match s1.conn i with
  | none => s1
  | some c =>
    let s2 := s1.setConn i { c with tier := .die, fetching := false, lastUse := s1.carm.useCtr + 1 }
    { s2 with carm := { s2.carm with useCtr := s2.carm.useCtr + 1 } }

/-- Free entries of the spill area (R282). -/
def spillFree (s : State) : Nat := match s.carm.spill with
  | some (_, n, _) => n - tierCount s .host
  | none => 0

/-- The bytes of a context in host memory, which the manual does not lay out: 64 free words. -/
def contextBytes : Nat → State → State × List Byte
  | 0, s => (s, [])
  | n + 1, s =>
    let (d, s1) := s.draw
    let (s2, bs) := contextBytes n s1
    (s2, leBytes 8 (Config.freeWord d).toNat ++ bs)

/-- Contexts in near memory: every one that is not in host memory (R282). -/
def nearCount (s : State) : Nat := s.carm.conns.length - tierCount s .host

/-- The lowest free entry of the spill area (R282). -/
def spillEntry (s : State) : Option Nat :=
  let used := s.carm.conns.filterMap (fun c => if c.2.tier = .host then c.2.spillAt else none)
  let cands := (0 :: used.map (· + 1)).filter (fun k => !used.contains k)
  match s.carm.spill, cands with
  | some (_, n, _), k :: ks => let m := ks.foldl min k; if m < n then some m else none
  | _, _ => none

/-- The least recently used quiescent context, of those that may go, goes to a free entry in host memory (R282, R283). -/
def spillQuiet (s : State) (may : Nat → Bool) : Option State :=
  match oldestConn (s.carm.conns.filter (fun c => decide (c.2.tier ≠ .host) && c.2.tc != 0 && c.2.quiet && may c.1)), s.carm.spill, spillEntry s with
  | some (i, c), some (base, _, f), some k =>
    let (s1, bs) := contextBytes 64 s
    some ((s1.hostWrite f (base + 512 * k) bs).setConn i { c with tier := .host, spillAt := some k })
  | _, _, _ => none

/-- A quiescent context goes to host memory when a new connection needs its slot in near memory (R283). -/
def spillOne (s : State) : Option State := if nearCount s < 1048576 then some s else spillQuiet s (fun _ => true)

/-- A context comes back from host memory: its entry is free, and a full near memory gives one of its quiescent contexts for it (R282,
R283). -/
def unspill (s : State) (i : Nat) (c : Conn) : Option State :=
  if c.tier ≠ .host then some s
  else
    let s1 := s.setConn i { c with tier := .near, spillAt := none }
    if nearCount s1 ≤ 1048576 then some s1 else spillQuiet s1 (fun k => k != i)

/-- Moves a connection to CONNECTING with a fresh initial PSN, or to IDLE when it names no peer (R254, R255, R256). -/
def beginConn (s : State) (i : Nat) (c : Conn) : State :=
  let prof := profOf s c.ccprof
  let c0 : Conn := { peerNode := c.peerNode, peerConn := c.peerConn, peerGen := c.peerGen, tc := c.tc, mtu := c.mtu, ipv4 := c.ipv4, evtEn := c.evtEn, peerIp := c.peerIp, paths := c.paths, ccprof := c.ccprof, cookie := c.cookie, ectr := c.ectr, group := c.group, prof := prof, cwnd := pInit prof, waiting := c.waiting, recvq := c.recvq, lastUse := s.carm.useCtr, activeAt := s.now, tier := c.tier, spillAt := c.spillAt }
  if c.peerConn = 0 ∧ c.peerGen = 0 then s.setConn i c0
  else
    let (e, s1) := s.entropy
    let n := bn e 31 0
    s1.setConn i { c0 with state := .connecting, connectingAt := s1.now, ipsn := n, psn := n, una := n, nextSend := n }

/-- The connection that a parameter block describes (R252). -/
def connOf (p : BitVec 256) : Conn :=
  { peerNode := bn p 15 0, peerConn := bn p 39 16, peerGen := bn p 51 40, tc := bn p 54 52, mtu := bn p 56 55, ipv4 := bt p 57, evtEn := bt p 58, peerIp := bn p 191 64, paths := bn p 199 192, ccprof := bn p 203 200, cookie := BitVec.ofNat 32 (bn p 239 208), ectr := bn p 255 240 }

/-- CH_CREATE of a connection (R252 to R254). -/
def execChCreateConnection (pair : MboxId) (blk : CmdBlock) (s : State) : Host.Outcome State Fault Refusal :=
  next (chCommand 0x010 [3] pair blk (fun s c b =>
    let p := params b
    let k := connOf p
    if !createWord b 3 || !connFieldsOk s c.fn p then refuse s .invalidField
    else if k.tc = 0 ∧ 4096 ≤ pinnedAll s then refuse s .outOfResources
    else match spillOne s with
      | none => refuse s .outOfResources
      | some s1 => createIn s1 c 3 (fun i => k.tc != 0 || decide (pinnedOn s (i % 16) < 256)) 1 (fun s i =>
          .inr (bringOnDie (beginConn s i k) i, { status := .success }))) s)

/-- CH_MODIFY of a connection (R256). -/
def execChModifyConnection (pair : MboxId) (blk : CmdBlock) (s : State) : Host.Outcome State Fault Refusal :=
  next (chCommand 0x012 [3] pair blk (fun s c b =>
    match bodyHandle s c [3] b with
    | .inr st => refuse s st
    | .inl i => match s.conn i with
      | none => refuse s .staleHandle
      | some k =>
        let p := params b
        let m := connOf p
        let moved := m.peerNode != k.peerNode || m.peerConn != k.peerConn || m.peerGen != k.peerGen || m.peerIp != k.peerIp || m.ipv4 != k.ipv4 || m.cookie != k.cookie
        if !bodyReserved b [] 320 || !connFieldsOk s (s.slot 3 i).owner p then refuse s .invalidField
        else if m.tc ≠ k.tc ∨ m.mtu ≠ k.mtu ∨ (moved = true ∧ k.state ≠ .idle ∧ k.state ≠ .error) then refuse s .busy
        else if moved then accept (beginConn s i { m with group := k.group, waiting := k.waiting, recvq := k.recvq, tier := k.tier, spillAt := k.spillAt })
        else accept (s.setConn i { k with paths := m.paths, nextPath := k.nextPath % max 1 m.paths, ccprof := m.ccprof, evtEn := m.evtEn, ectr := m.ectr, prof := if m.ccprof = k.ccprof then k.prof else profOf s m.ccprof })) s)

/-- Every 1 ms a CONNECTING connection sends CONNECT (R255, R288). -/
def execConnectTimer (conn : Nat) (s : State) : Host.Outcome State Fault Refusal :=
  match s.conn conn with
  | none => next s
  | some c => next (if c.state = .connecting ∧ pcoreRuns s 3 = true then sendCtrl s conn 1 else s)

/-- 10 s in CONNECTING (R255). Without a node ID a connection stays as it is (R17). -/
def connectingTimeout (conn : Nat) (s : State) : State :=
  match s.conn conn with
  | none => s
  | some c => (if c.state = .connecting ∧ hasNode s = true then connError s conn .remoteTimeout else s)

/-- An idle connection sends PROBE; after three unanswered it enters ERROR (R281). In a region reset its sends wait (R288). -/
def keepaliveTimer (conn : Nat) (s : State) : State :=
  match s.conn conn with
  | none => s
  | some c =>
    if c.state ≠ .established ∨ pKeepalive c.prof = 0 ∨ sliceUp s conn = false then s
    else if 3 ≤ c.probes then (connError s conn .peerLost)
    else (sendCtrl (s.setConn conn { c with probes := c.probes + 1 }) conn 4)

/-- The local range of a transport operation (R269): the refusing status, if any. -/
def localRange (s : State) (j : Job) (n : Nat) : State × Option Status :=
  let a := tLaddr j.desc
  if n = 0 then (s, if tLhost j.desc || a == 0 && dOpcode j.desc ≥ 0x15 || (ownAddr s a).isSome then none else some .bounds)
  else if tLhost j.desc then (s, if s.master j.fn then none else some .busMasterDisabled)
  else match checkGlobal s j.req a n with
    | (s1, .inr st) => (s1, some st)
    | (s1, .inl _) => (s1, none)

/-- An earlier transport descriptor for the same connection has still to join its order: they join as they started (R121, R270). -/
def transportBehind (s : State) (job : Nat) (j : Job) : Bool :=
  s.vat.jobs.any (fun x => decide (x.1 < job) && decide (x.2.phase = .started) && decide (dTarget x.2.desc = dTarget j.desc) &&
    decide (0x10 ≤ dOpcode x.2.desc) && decide (dOpcode x.2.desc ≤ 0x17))

/-- A transport descriptor starts (R268 to R272): it completes at once, or joins the connection's order. -/
def transport (s : State) (op job : Nat) : State :=
  match jobOf s job op .started with
  | none => s
  | some j =>
    if transportBehind s job j then s else
    let i := hIndex (dTarget j.desc)
    let atomic := decide (op = 0x15) || decide (op = 0x16)
    let n := if atomic then (if tLaddr j.desc = 0 then 0 else 8) else tLen j.desc
    match s.conn i with
    | none => finish s job .staleHandle
    | some c =>
      if op ≠ 0x14 ∧ op ≠ 0x17 ∧ tRaddr j.desc / 2 ^ 48 ≠ c.peerNode then finish s job .bounds
      else match localRange s j n with
        | (s1, some st) => finish s1 job st
        | (s1, none) =>
          if op = 0x13 ∧ n = 0 then finish s1 job .success
          else if c.state = .error then finish s1 job (c.lastSt.getD .peerLost)
          else if op = 0x17 then
            if 4096 ≤ c.recvq.length then finish s1 job .outOfResources
            else
              let e : RecvEntry := { job := job, laddr := tLaddr j.desc, lhost := tLhost j.desc, len := tLen j.desc }
              let s2 := (s1.setJob job { j with phase := .running }).setConn i { c with recvq := c.recvq ++ [e] }
              if c.tier = .host then fetchContext s2 i else s2
          else joinWaiting (s1.setJob job { j with phase := .held }) i c (.job job)

/-- WRITE (R268). -/
def execWrite (job : Nat) (s : State) : Host.Outcome State Fault Refusal := next (transport s 0x10 job)
/-- WRITE_INC (R268). -/
def execWriteInc (job : Nat) (s : State) : Host.Outcome State Fault Refusal := next (transport s 0x11 job)
/-- WRITE_TRIG (R268). -/
def execWriteTrig (job : Nat) (s : State) : Host.Outcome State Fault Refusal := next (transport s 0x12 job)
/-- READ (R268). -/
def execRead (job : Nat) (s : State) : Host.Outcome State Fault Refusal := next (transport s 0x13 job)
/-- SEND (R268). -/
def execSend (job : Nat) (s : State) : Host.Outcome State Fault Refusal := next (transport s 0x14 job)
/-- FETCH_ADD (R265). -/
def execFetchAdd (job : Nat) (s : State) : Host.Outcome State Fault Refusal := next (transport s 0x15 job)
/-- CMP_SWAP (R265). -/
def execCmpSwap (job : Nat) (s : State) : Host.Outcome State Fault Refusal := next (transport s 0x16 job)
/-- RECV (R272). -/
def execRecv (job : Nat) (s : State) : Host.Outcome State Fault Refusal := next (transport s 0x17 job)

/-- 2 µs after the first unacknowledged placement an ACK goes (R278), for that packet (R263). In a region reset it waits (R288). -/
def execAckTimer (conn : Nat) (s : State) : Host.Outcome State Fault Refusal :=
  match s.conn conn with
  | none => next s
  | some c => next (if 0 < c.toAck ∧ sliceUp s conn = true then sendAck (s.setConn conn { c with lastTs := c.firstTs }) conn else s)

/-- RTO passes for a PSN (R279, R281). -/
def rtoExpiry (conn psn : Nat) (s : State) : State :=
  match s.conn conn with
  | none => s
  | some c => match mget c.unacked psn with
    | none => s
    | some t =>
      if c.state ≠ .established ∨ t.lost = true then s
      else (losePsn (if pFw c.prof then s else s.setConn conn { c with cwnd := pMin c.prof }) conn psn)

/-- EPSN has not advanced for NOPROG ms (R279). -/
def noprogExpiry (conn : Nat) (s : State) : State :=
  match s.conn conn with
  | none => s
  | some c => (if c.state = .established ∧ c.unacked.isEmpty = false then connError s conn .remoteTimeout else s)

/-- The pause after a context-miss NACK ends (R285). -/
def execContextMissBackoffEnd (conn : Nat) (s : State) : Host.Outcome State Fault Refusal :=
  match s.conn conn with
  | none => next s
  | some c => next (s.setConn conn { c with pauseEnd := none })

/-- The oldest packet parked for 50 µs is dropped (R284). -/
def execParkTimeout (s : State) : Host.Outcome State Fault Refusal :=
  match s.carm.parked with
  | [] => next s
  | p :: rest =>
    let s1 : State := { s with carm := { s.carm with parked := rest } }
    match s1.conn p.conn with
    | none => next s1
    | some c => next (missNack s1 c p.pkt)

/-- A context arrives on die (R284): waiting work and parked packets go on; a failed host read is R283's error. -/
def contextArrives (H : Hooks) (s : State) (i : Nat) : State :=
  match s.conn i with
  | none => s
  | some c =>
    if c.tier = .die ∨ c.fetching = false ∨ sliceUp s i = false then s
    else
      let x := xferOf s (.ctx i)
      if c.tier = .host ∧ (x.map (fun x => x.resolved)) = some false then s
      else
        let bad := decide (c.tier = .host) && ((x.bind (fun x => x.data)).isNone)
        match unspill s i c with
        | none => s
        | some s0 =>
          let s1 := bringOnDie (dropXfer s0 (.ctx i)) i
          let s2 := if bad then connError s1 i .hostDmaError else startWaiting i (c.waiting.length + 1) s1
          let mine := s2.carm.parked.filter (fun p => p.conn == i)
          let s3 : State := { s2 with carm := { s2.carm with parked := s2.carm.parked.filter (fun p => p.conn != i) } }
          mine.foldl (fun s p => handlePacket H s p.pkt) s3

/-- CARM_SPILL (R282). -/
def execCarmSpill (pair : MboxId) (blk : CmdBlock) (s : State) : Host.Outcome State Fault Refusal :=
  next (fwCommand 0x030 true pair blk (fun s c b =>
    if !fromPf0 c then refuse s .accessDenied
    else if !bodyReserved b [] 96 || bn b 63 0 % 4096 != 0 || decide (15728640 < bn b 95 64) then refuse s .invalidField
    else if 0 < tierCount s .host then refuse s .busy
    else accept { s with carm := { s.carm with spill := some (bn b 63 0, bn b 95 64, c.fn) } }) s)

/-- CARM_NODE_LOST (R286). -/
def carmNodeLost (pair : MboxId) (blk : CmdBlock) (s : State) : State :=
  (fwCommand 0x031 true pair blk (fun s c b =>
    if !fromPf0 c then refuse s .accessDenied
    else if !bodyReserved b [] 16 then refuse s .invalidField
    else accept ((s.carm.conns.filter (fun k => k.2.peerNode == bn b 15 0)).foldl (fun s k => connError s k.1 .peerLost) s)) s)

/-- A field of a profile at a commit: a reserved value leaves it unchanged (R5). -/
def profField (new old : BitVec 192) (f : Nat × Nat × Nat) : Nat :=
  let (hi, lo, least) := f
  at_ lo (if least ≤ bn new hi lo then bn new hi lo else bn old hi lo)

/-- The fields of R291 with the least value of each. -/
def profFields : List (Nat × Nat × Nat) :=
  [(31, 0, 0), (63, 32, 4096), (79, 64, 0), (87, 80, 0), (95, 88, 1), (111, 96, 0), (112, 112, 0), (143, 128, 1), (159, 144, 1), (175, 160, 1), (183, 176, 1), (191, 184, 0)]

/-- The third word of a profile is written: all three commit (R291). -/
def execCcProfCommit (prof : Nat) (value : W64) (s : State) : Host.Outcome State Fault Refusal :=
  if 16 ≤ prof then next s
  else
    let p := mgetD s.carm.prof prof {}
    let w0 := (p.w0.map (fun x => x.toNat)).getD (bn p.val 63 0)
    let w1 := (p.w1.map (fun x => x.toNat)).getD (bn p.val 127 64)
    let new := BitVec.ofNat 192 (w0 + at_ 64 w1 + at_ 128 value.toNat)
    let v := BitVec.ofNat 192 ((profFields.map (profField new p.val)).sum)
    next { s with carm := { s.carm with prof := mset s.carm.prof prof { val := v } } }

/-- Firmware sets cwnd and a pacing rate from the records of a connection (R281). -/
def execFirmwareCwndUpdate (conn cwnd rate : Nat) (s : State) : Host.Outcome State Fault Refusal :=
  match s.conn conn with
  | none => next s
  | some c =>
    if pFw c.prof = false ∨ pcoreRuns s 3 = false then next s
    else
      let s1 := s.setConn conn { c with cwnd := cwnd, rate := rate }
      next { s1 with carm := { s1.carm with ccRing := s1.carm.ccRing.filter (fun r => r.1 != conn) } }

end Sys2Proof.Machine
end

