-- ==== Sys2Proof/Machine/Types/Isa.lean ====
section
/-! DEFINITION. The mnemonics of the Mboripor instruction set (R430 to R438). -/

namespace Sys2Proof.Machine

/-- One mnemonic for each instruction row. -/
inductive Mn where
  | add | sub | and | or | xor | shl | shr | sra | mul | mulh | mulhu | div | divu | rem | remu | min | max | minu | maxu
  | clz | popc | rdp
  | addi | andi | ori | xori | shli | shri | srai | movz | movk0 | movk1 | movk2 | movk3
  | cmpeq | cmpne | cmplt | cmpge | cmpltu | cmpgeu | cmpeqi | cmplti | pand | por | pxor | pandn
  | fadd | fsub | fmul | fdiv | fsqrt | fmin | fmax | fma | fcvt | fcvti | icvtf | feq | flt | fle
  | ld8u | ld16u | ld32u | ld64 | ld8s | ld16s | ld32s | st8 | st16 | st32 | st64 | vld | vst | amoadd | amocas | amoswp
  | br | bl | jr | jrl
  | vadd | vsub | vmul | vand | vor | vxor | vshl | vshr | vsra | vmin | vmax | vadds | vsubs | vclmul | vclmulh
  | vfadd | vfsub | vfmul | vfdiv | vfsqrt | vfmin | vfmax | vfma | vfcvti | vicvtf | vfsqd | vfsumd
  | vbcast | vext | vins | vmov
  | kld | kst | kdec | kz | kadd | kacc2f | ksrd | kmac | kenc | kencf
  | fence | icinv | halt | wfe | evrd | sev | tdl | time
  | cadd | cset | crd | cwatch | cunwatch | cwst | istart | pstart | post
deriving DecidableEq, Repr

end Sys2Proof.Machine
end

