-- ==== Sys2Proof/Machine/Isa.lean ====
section
/-! DEFINITION. The encodings of the Mboripor instruction set: fields (R427) and the decoding of every word (R428, R430 to
R438); `none` is a reserved encoding. -/

namespace Sys2Proof.Machine

open Sys2Proof

/-- Fields of an instruction word (R427). -/
def iPG (w : W32) : Nat := bn w 2 0
def iPN (w : W32) : Bool := bt w 3
def iOP (w : W32) : Nat := bn w 9 4
def iD (w : W32) : Nat := bn w 14 10
def iA (w : W32) : Nat := bn w 19 15
def iB (w : W32) : Nat := bn w 24 20
def iFN (w : W32) : Nat := bn w 31 25
def iImm12 (w : W32) : Int := sgn 12 (bn w 31 20)
def iImm16 (w : W32) : Nat := bn w 30 15
def iImm22 (w : W32) : Int := sgn 22 (bn w 31 10)

/-- FN[4:0] and FN[6:5] (R430, R432). -/
def iFn5 (w : W32) : Nat := bn w 29 25
def iSel (w : W32) : Nat := bn w 31 30

/-- A predicate or an accumulator field in range (R427). -/
def predOk (x : Nat) : Bool := decide (x < 8)
def accOk (x : Nat) : Bool := decide (x < 4)

def guardM (b : Bool) (m : Option Mn) : Option Mn := if b then m else none

/-- OP 0x00, by FN. -/
def decAlu (fn : Nat) : Option Mn :=
  [Mn.add, .sub, .and, .or, .xor, .shl, .shr, .sra, .mul, .mulh, .mulhu, .div, .divu, .rem, .remu, .min, .max, .minu, .maxu,
   .clz, .popc, .rdp][fn]?

/-- OP 0x11, by FN[5:0]; the comparisons write a predicate. -/
def decFp (w : W32) : Option Mn :=
  let f := bn w 30 25
  guardM (decide (f < 11) || predOk (iD w))
    ([Mn.fadd, .fsub, .fmul, .fdiv, .fsqrt, .fmin, .fmax, .fma, .fcvt, .fcvti, .icvtf, .feq, .flt, .fle][f]?)

/-- OP 0x26 (R432): k must be 0 for every operation that does not use it. -/
def decKblk (w : W32) : Option Mn :=
  let k0 := iSel w == 0
  match iFn5 w with
  | 0 => guardM k0 (some .kld)
  | 1 => guardM k0 (some .kst)
  | 2 => some .kdec
  | 3 => guardM (k0 && accOk (iD w)) (some .kz)
  | 4 => guardM (k0 && accOk (iD w)) (some .kadd)
  | 5 => guardM (accOk (iA w)) (some .kacc2f)
  | 6 => guardM (k0 && accOk (iA w)) (some .ksrd)
  | _ => none

/-- FMT and LAYOUT of KENC and KENCF (R434). -/
def encOk (w : W32) : Bool := decide (1 ≤ bn w 27 25) && decide (bn w 27 25 ≤ 5) && iSel w != 3

/-- OP 0x2A (R435). -/
def decSync (fn : Nat) : Option Mn :=
  if fn = 0x10 then some .icinv
  else if fn = 0x11 then some .halt
  else guardM (decide (fn < 16) && decide (4 ≤ fn) && fn % 4 != 3) (some .fence)

/-- The decoding of a word (R428, R430). -/
def isaDecode (w : W32) : Option Mn :=
  let fn := iFN w
  guardM (!(iPG w == 0 && iPN w)) (match iOP w with
  | 0x00 => decAlu fn
  | 0x01 => some .addi
  | 0x02 => some .andi
  | 0x03 => some .ori
  | 0x04 => some .xori
  | 0x05 => guardM (decide (bn w 31 20 < 64)) (some .shli)
  | 0x06 => guardM (decide (bn w 31 20 < 64)) (some .shri)
  | 0x07 => guardM (decide (bn w 31 20 < 64)) (some .srai)
  | 0x08 => guardM (!bt w 31) (some .movz)
  | 0x09 => guardM (!bt w 31) (some .movk0)
  | 0x0A => guardM (!bt w 31) (some .movk1)
  | 0x0B => guardM (!bt w 31) (some .movk2)
  | 0x0C => guardM (!bt w 31) (some .movk3)
  | 0x0D => guardM (predOk (iD w)) ([Mn.cmpeq, .cmpne, .cmplt, .cmpge, .cmpltu, .cmpgeu][fn]?)
  | 0x0E => guardM (predOk (iD w)) (some .cmpeqi)
  | 0x0F => guardM (predOk (iD w)) (some .cmplti)
  | 0x10 => guardM (predOk (iD w) && predOk (iA w) && predOk (iB w)) ([Mn.pand, .por, .pxor, .pandn][fn]?)
  | 0x11 => decFp w
  | 0x12 => some .ld8u
  | 0x13 => some .ld16u
  | 0x14 => some .ld32u
  | 0x15 => some .ld64
  | 0x16 => some .ld8s
  | 0x17 => some .ld16s
  | 0x18 => some .ld32s
  | 0x19 => some .st8
  | 0x1A => some .st16
  | 0x1B => some .st32
  | 0x1C => some .st64
  | 0x1D => some .vld
  | 0x1E => some .vst
  | 0x1F => [Mn.amoadd, .amocas, .amoswp][fn]?
  | 0x20 => some .br
  | 0x21 => some .bl
  | 0x22 => [Mn.jr, .jrl][fn]?
  | 0x23 => guardM (decide (iFn5 w < 13) || iSel w == 3)
      ([Mn.vadd, .vsub, .vmul, .vand, .vor, .vxor, .vshl, .vshr, .vsra, .vmin, .vmax, .vadds, .vsubs, .vclmul, .vclmulh][iFn5 w]?)
  | 0x24 => [Mn.vfadd, .vfsub, .vfmul, .vfdiv, .vfsqrt, .vfmin, .vfmax, .vfma, .vfcvti, .vicvtf, .vfsqd, .vfsumd][fn]?
  | 0x25 => [Mn.vbcast, .vext, .vins, .vmov][iFn5 w]?
  | 0x26 => decKblk w
  | 0x27 => guardM (iSel w == 0 && accOk (iD w)) (some .kmac)
  | 0x28 => guardM (encOk w && accOk (iA w)) (some .kenc)
  | 0x29 => guardM (encOk w && iA w % 4 == 0) (some .kencf)
  | 0x2A => decSync fn
  | 0x2B => [Mn.wfe, .evrd, .sev, .tdl, .time][fn]?
  | 0x2C => [Mn.cadd, .cset, .crd, .cwatch, .cunwatch, .cwst][iFn5 w]?
  | 0x2D => [Mn.istart, .pstart, .post][fn]?
  | _ => none)

end Sys2Proof.Machine
end

