-- ==== Sys2Proof/Machine/Ochre.lean ====
section
/-! DEFINITION. Ochre cores: registers (R425), addresses (R144), caches and the memory model (R145 to R149), fetching, the end
of a program (R142, R230), exceptions (R439), and the one way an instruction runs. -/

namespace Sys2Proof.Machine

open Sys2Proof

def Core.getG (k : Core) (n : Nat) : W64 := if n = 0 then 0#64 else mgetD k.g n 0#64
def Core.setG (k : Core) (n : Nat) (v : W64) : Core := if n = 0 then k else { k with g := msetC 0#64 k.g n v }
def Core.getP (k : Core) (n : Nat) : Bool := n == 0 || k.p.getLsbD n
def Core.setP (k : Core) (n : Nat) (b : Bool) : Core :=
  if n = 0 then k
  else { k with p := if b then k.p ||| BitVec.ofNat 8 (2 ^ n) else k.p &&& ~~~(BitVec.ofNat 8 (2 ^ n)) }
def Core.getV (k : Core) (n : Nat) : BitVec 256 := mgetD k.v (n % 32) 0#256
def Core.setV (k : Core) (n : Nat) (v : BitVec 256) : Core := { k with v := msetC 0#256 k.v (n % 32) v }
def Core.getAcc (k : Core) (n : Nat) : Acc := mgetD k.acc n {}
def Core.setAcc (k : Core) (n : Nat) (a : Acc) : Core := { k with acc := msetC {} k.acc n a }

/-- For whom a core reads and writes (R140): the owner of its cluster. -/
def coreReq (s : State) (i : Nat) : Req :=
  let c := s.cl (coreCluster i)
  { fn := c.owner.getD 0, firmware := c.owner.isNone, secure := c.world }

/-- The target of an access (R144), or none when it is refused. -/
def coreTarget (s : State) (i ga len : Nat) : State × Option Target :=
  if 0xFFFF000000000000 ≤ ga then
    match scratchAddr s (coreCluster i) ga len with
    | .inl t => (s, some t)
    | .inr _ => (s, none)
  else match checkGlobal s (coreReq s i) ga len with
    | (s1, .inr _) => (s1, none)
    | (s1, .inl a) => (s1, some (if inWindow a len then .window a else .near a))

/-- What a core's memory access gives: bytes, an exception with its address, or nothing yet. -/
inductive MemRes where
  | ok (s : State) (bs : List Byte)
  | xcpt (s : State) (cause addr : Nat)
  | wait (s : State)

/-- Writes a dirty line of a core back (R145). The access is checked as any access is (R89); a refused line is discarded. -/
def writeBackLine (s : State) (i : Nat) (r : Req) (l : DLine) : State :=
  if !l.dirty then s
  else match lakeCheck s r l.addr 64 with
    | some st => denied s st
    | none => (lakeWrite s l.addr l.data).1.tagHeld s.lake.held.length (some (.core i))

/-- Set of a data-cache or an instruction-cache line (R145). -/
def dSet (a : Nat) : Nat := a / 64 % 64
def iSet (a : Nat) : Nat := a / 64 % 128

/-- Puts a line into the data cache: a full set gives up one of its lines (R145; which one is open, log 3). -/
def dInsert (s : State) (i : Nat) (l : DLine) : State :=
  let k := s.core i
  let set := k.dcache.filter (fun x => dSet x.addr == dSet l.addr)
  if set.length < 8 then s.setCore i { k with dcache := k.dcache ++ [l] }
  else
    let (n, s1) := s.choose 8
    match set[n]? with
    | none => s
    | some v =>
      let s2 := writeBackLine s1 i (coreReq s1 i) v
      s2.setCore i { s2.core i with dcache := (s2.core i).dcache.filter (fun x => x.addr != v.addr) ++ [l] }

/-- Brings the line of a near-memory address into the data cache: whether it reads as poisoned (R78, R145). -/
def dFill (s : State) (i la : Nat) : State × Bool :=
  if (s.core i).dcache.any (fun l => l.addr == la) then (s, false)
  else
    let (s1, bs, ps) := lakeRead s la 64
    if ps.isEmpty then (dInsert s1 i ⟨la, bs, false⟩, false) else (s1, true)

/-- Brings every line of an access in: the address of the first poisoned one. -/
def dFillAll (i : Nat) : Nat → Nat → State → State × Option Nat
  | 0, _, s => (s, none)
  | n + 1, la, s =>
    let (s1, bad) := dFill s i la
    if bad then (s1, some la) else dFillAll i n (la + 64) s1

/-- An access of a core to near memory waits for a region in reset: one of its lines is not in the cache and has to be brought in
(R23). -/
def dWaits (s : State) (i a len : Nat) : Bool :=
  (List.range (lineCount a len)).any (fun n =>
    let la := a / 64 * 64 + 64 * n
    !(s.core i).dcache.any (fun l => l.addr == la) && accessWaits s la 64)

/-- A core waits for near memory, or gets what the region's timeout has made of the access (R23). -/
def coreWaits (s : State) (i ga a len : Nat) : MemRes :=
  match waitNear s (.core i) a len with
  | (s1, .fail _) => .xcpt s1 3 ga
  | (s1, _) => .wait s1

/-- One byte of a cached line. -/
def dByte (k : Core) (a : Nat) : Byte :=
  match k.dcache.find? (fun l => l.addr == a / 64 * 64) with
  | some l => l.data.getD (a % 64) 0#8
  | none => 0#8

/-- Replaces bytes of a list from offset `o` on. -/
def patch (xs : List Byte) (o : Nat) (bs : List Byte) : List Byte := xs.take o ++ bs ++ xs.drop (o + bs.length)

/-- The part of a store that falls into one cached line. -/
def dPatch (a : Nat) (bs : List Byte) (l : DLine) : DLine :=
  let lo := max a l.addr
  let hi := min (a + bs.length) (l.addr + 64)
  if lo < hi then { l with data := patch l.data (lo - l.addr) ((bs.drop (lo - a)).take (hi - lo)), dirty := true } else l

/-- A core's accesses to scratch and to windows take effect in program order: one that its window writes could overtake waits until the
partner has acknowledged them (R146, R310). Writes to one port stay in order by themselves. -/
def orderWaits (s : State) (i : Nat) (port : Option Nat) : Bool :=
  let mine (x : ApPort) : Bool := x.tx.any (fun q => q.2.any (fun t => decide (t.work = some (.core i)))) || x.replay.any (fun f => f.works.contains (.core i))
  s.ap.ports.any (fun p => decide (some p.1 ≠ port) && mine p.2)

/-- A core reads memory (R144, R146). -/
def coreLoad (s : State) (i ga len : Nat) : MemRes :=
  match coreTarget s i ga len with
  | (s1, none) => .xcpt s1 2 ga
  | (s1, some (.scratch c off)) =>
    if orderWaits s1 i none then .wait s1
    else
      let (s2, bs, bad) := scrRead s1 c off len
      if bad then .xcpt s2 3 ga else .ok s2 bs
  | (s1, some (.near a)) =>
    if dWaits s1 i a len then coreWaits s1 i ga a len
    else match dFillAll i (lineCount a len) (a / 64 * 64) s1 with
    | (s2, some la) => .xcpt s2 3 (ga - a + max a la)
    | (s2, none) => .ok s2 ((List.range len).map (fun n => dByte (s2.core i) (a + n)))
  | (s1, some (.window a)) => match windowRead s1 (.core i) a len with
    | (s2, .ok bs bad) => if bad.isEmpty then .ok s2 bs else .xcpt s2 3 ga
    | (s2, .wait) => .wait s2
    | (s2, .fail st) => .xcpt s2 (if st = .poisonedData then 3 else 2) ga

/-- A core writes memory (R144, R146): near memory through the data cache, the rest at once. -/
def coreStore (s : State) (i ga : Nat) (bs : List Byte) : MemRes :=
  match coreTarget s i ga bs.length with
  | (s1, none) => .xcpt s1 2 ga
  | (s1, some (.scratch c off)) => if orderWaits s1 i none then .wait s1 else .ok (scrWrite s1 c off bs) []
  | (s1, some (.near a)) =>
    if dWaits s1 i a bs.length then coreWaits s1 i ga a bs.length
    else match dFillAll i (lineCount a bs.length) (a / 64 * 64) s1 with
    | (s2, some la) => .xcpt s2 3 (ga - a + max a la)
    | (s2, none) => .ok (s2.setCore i { s2.core i with dcache := (s2.core i).dcache.map (dPatch a bs) }) []
  | (s1, some (.window a)) => match windowCheck s1 a bs.length with
    | some st => .xcpt (if st = .bounds then s1.count LAKE_DENY else s1) 2 ga
    | none => if orderWaits s1 i (some (windowOf a)) then .wait s1 else .ok (windowWrite s1 (some (.core i)) false a bs) []

/-- An 8-byte atomic (R149): at the line, or at the bank. The core's own copy of the line is written back and dropped. -/
def coreAtomic (s : State) (i ga : Nat) (f : W64 → Option W64) : MemRes :=
  if ga % 8 ≠ 0 then .xcpt s 2 ga
  else match coreTarget s i ga 8 with
    | (s1, none) => .xcpt s1 2 ga
    | (s1, some (.window _)) => .xcpt s1 2 ga
    | (s1, some (.scratch c off)) =>
      let (s2, bs, bad) := scrRead s1 c off 8
      if orderWaits s1 i none then .wait s1
      else if bad then .xcpt s2 3 ga
      else match f (BitVec.ofNat 64 (leNat bs)) with
        | none => .ok s2 bs
        | some v => .ok (scrWrite s2 c off (leBytes 8 v.toNat)) bs
    | (s1, some (.near a)) =>
      if atomicWaits s1 a then coreWaits s1 i ga a 8
      else
      let la := a / 64 * 64
      let s2 := match (s1.core i).dcache.find? (fun l => l.addr == la) with
        | some l => writeBackLine s1 i (coreReq s1 i) l
        | none => s1
      let s3 := s2.setCore i { s2.core i with dcache := (s2.core i).dcache.filter (fun l => l.addr != la) }
      match lakeAtomic s3 a f with
      | (s4, none) => .xcpt s4 3 ga
      | (s4, some old) => .ok s4 (leBytes 8 old.toNat)

/-- Writes every dirty line of a core back; the lines stay, clean (R147). -/
def writeBackAll (s : State) (i : Nat) : State :=
  let s1 := (s.core i).dcache.foldl (fun s l => writeBackLine s i (coreReq s i) l) s
  s1.setCore i { s1.core i with dcache := (s1.core i).dcache.map (fun l => { l with dirty := false }) }

/-- A package-scope release has completed: nothing of the core is on its way to a window or waits for near memory (R147, R148). -/
def released (s : State) (i : Nat) : Bool := !windowBusy s (.core i) && !s.lake.held.any (fun h => decide (h.work = some (.core i)))

/-- Drops the clean lines: an acquire (R147). -/
def dropClean (s : State) (i : Nat) : State :=
  s.setCore i { s.core i with dcache := (s.core i).dcache.filter (fun l => l.dirty) }

/-- Puts a line into the instruction cache; a full set gives one up (log 3). -/
def iInsert (s : State) (i : Nat) (l : ILine) : State :=
  let k := s.core i
  let set := k.icache.filter (fun x => iSet x.addr == iSet l.addr)
  if set.length < 4 then s.setCore i { k with icache := k.icache ++ [l] }
  else
    let (n, s1) := s.choose 4
    match set[n]? with
    | none => s
    | some v => s1.setCore i { s1.core i with icache := (s1.core i).icache.filter (fun x => x.addr != v.addr) ++ [l] }

/-- Fetches the word at PC through the instruction cache, which fills from scratch or near memory (R145, R439). -/
def coreFetch (s : State) (i : Nat) : MemRes :=
  let pc := (s.core i).pc.toNat
  let la := pc / 64 * 64
  match coreTarget s i pc 4 with
  | (s1, none) => .xcpt s1 2 pc
  | (s1, some t) =>
    match (s1.core i).icache.find? (fun l => l.addr == la) with
    | some l => .ok s1 (slice l.data (pc % 64) 4)
    | none => match t with
      | .window _ => .xcpt s1 2 pc
      | .scratch c off =>
        let (s2, bs, bad) := scrRead s1 c (off / 64 * 64) 64
        if bad then .xcpt s2 3 pc else .ok (iInsert s2 i ⟨la, bs⟩) (slice bs (off % 64) 4)
      | .near a =>
        if accessWaits s1 (a / 64 * 64) 64 then coreWaits s1 i pc (a / 64 * 64) 64
        else
        let (s2, bs, ps) := lakeRead s1 (a / 64 * 64) 64
        if ps.isEmpty then .ok (iInsert s2 i ⟨la, bs⟩) (slice bs (a % 64) 4) else .xcpt s2 3 pc

/-- A status from its code; a code without a name stands for itself. -/
def statusOf (n : Nat) : Status := (Status.ofCode n).getD (.cls n)

/-- The end of a step of a user program (R230): unit-fault when a core was lost, else the first status outside the success
class in core order, else saturated if any core says so. RESULT is g2 of the first core. -/
def endStep (s : State) (r : OptRun) : State :=
  let sts := r.cores.map (fun c => statusOf ((mgetD r.ended c (0, 0)).1))
  let st := if sts.any (fun x => decide (x = .unitFault)) then .unitFault else match sts.find? (fun x => !x.ok) with
    | some x => x
    | none => if sts.any (fun x => decide (x = .saturated)) then .saturated else .success
  let g2 := ((r.cores.head?).map (fun c => (mgetD r.ended c (0, 0)).2)).getD 0
  completeJob { s with par := { s.par with runs := s.par.runs.filter (fun x => x.job != r.job) } } r.job st 0 g2

/-- What the end of a program on a core reports (R142, R230): its record, its counter once the record is visible, or its step. CAUSE 0 halt, 1 exception, 2 stopped,
3 fault retirement. -/
def endProg (s : State) (i : Nat) (status cause g2 : Nat) : State :=
  let k := s.core i
  let s1 := dropGot (s.setCore i { k with run := .idle, prog := none, wfeMask := 0#32 }) (.core i)
  match k.prog with
  | none => s1
  | some (.clRun done ctr fn) =>
    let rec_ := leBytes 8 (status + at_ 8 cause) ++ leBytes 8 g2
    let s2 := (agentWrite s1 { req := { fn := fn }, work := .core i } (done + 16 * (i % 8)) rec_).1
    match ctr with
    | some c =>
      if s1.lake.held.length < s2.lake.held.length then s2.tagHeld s1.lake.held.length (some (.core i)) (some (c, fn))
      else if ownsCtr s2 fn c then s2.addCtr c 1#64 else s2
    | none => s2
  | some (.optStep job) =>
    match s1.par.runs.find? (fun r => r.job == job) with
    | none => s1
    | some r =>
      let r1 := { r with ended := mset r.ended i (status, g2) }
      let s2 : State := { s1 with par := { s1.par with runs := s1.par.runs.map (fun x => if x.job = job then r1 else x) } }
      if r1.cores.all (fun c => (mget r1.ended c).isSome) then endStep s2 r1 else s2

/-- The program on a core ends; its cluster may now be gated (R25). -/
def endCore (s : State) (i : Nat) (status cause g2 : Nat) : State := gateIdle (endProg s i status cause g2) (i / 8)

/-- Status of the work for an exception code (R439). -/
def xcptStatus (cause : Nat) : Status := if cause = 1 then .programFault else if cause = 2 then .accessDenied else .poisonedData

/-- Takes an exception (R439, R441): it is recorded, and the program ends. -/
def takeXcpt (s : State) (i cause addr : Nat) (word : W32) : State :=
  let k := s.core i
  let s1 := s.setCore i { k with xcpt := BitVec.ofNat 32 (cause + at_ 8 (iOP word)), xpc := k.pc, xaddr := BitVec.ofNat 64 (if cause = 1 then 0 else addr) }
  endCore s1 i (xcptStatus cause).code 1 0

/-- What an instruction does. -/
inductive Exec where
  /-- It completes, and PC moves on. -/
  | done (s : State)
  /-- It completes, and PC is set. -/
  | jump (s : State) (pc : W64)
  /-- It raises an exception. -/
  | xcpt (s : State) (cause addr : Nat)
  /-- It waits: PC stays. -/
  | wait (s : State)
  /-- It ends the program. -/
  | stop (s : State)

/-- Core registers `OCH_CORE_INSTR` of a core (R156). -/
def coreInstr (i : Nat) : Nat := OCH_CORE_INSTR (i / 8) (i % 8)

/-- An instruction retires: PC moves to `pc` (R156). -/
def retire (s : State) (i : Nat) (pc : W64) : State :=
  (dropGot (s.setCore i { s.core i with pc := pc, run := .running, wfeMask := 0#32 }) (.core i)).count (coreInstr i)

/-- Runs what an instruction does. -/
def runExec (i : Nat) (w : W32) : Exec → State
  | .done s => retire s i ((s.core i).pc + 4#64)
  | .jump s pc => retire s i pc
  | .xcpt s cause addr => takeXcpt s i cause addr w
  | .wait s => s
  | .stop s => s.count (coreInstr i)

/-- Whether a core runs, or waits at the WFE that is asked to go on. -/
def coreActive (k : Core) (m : Mn) : Bool := decide (k.run = .running) || (decide (k.run = .waiting) && decide (m = .wfe))

/-- The one way an instruction runs: the core fetches the word at its PC; when that word is this instruction its guard is
tested and it takes effect (R427, R428). When it is another instruction, nothing happens (log 2). -/
def isa (m : Mn) (i : Nat) (f : W32 → State → Exec) (s : State) : State :=
  if !coreActive (s.core i) m then s
  else match coreFetch s i with
    | .ok s1 bs =>
      let w : W32 := BitVec.ofNat 32 (leNat bs)
      if isaDecode w = some m then
        if (s1.core i).getP (iPG w) != iPN w then runExec i w (f w s1) else runExec i w (.done s1)
      else s
    | .xcpt _ _ _ => s
    | .wait s1 => s1

/-- An instruction that writes gD from the core's registers. -/
def isaG (m : Mn) (i : Nat) (f : W32 → Core → W64) (s : State) : State :=
  isa m i (fun w s => .done (s.setCore i ((s.core i).setG (iD w) (f w (s.core i))))) s

/-- gD → gA op gB. -/
def isaAlu (m : Mn) (i : Nat) (f : W64 → W64 → W64) (s : State) : State :=
  isaG m i (fun w k => f (k.getG (iA w)) (k.getG (iB w))) s

/-- gD → gA op IMM12, sign-extended. -/
def isaImm (m : Mn) (i : Nat) (f : W64 → W64 → W64) (s : State) : State :=
  isaG m i (fun w k => f (k.getG (iA w)) (BitVec.ofInt 64 (iImm12 w))) s

/-- pD := a condition. -/
def isaP (m : Mn) (i : Nat) (f : W32 → Core → Bool) (s : State) : State :=
  isa m i (fun w s => .done (s.setCore i ((s.core i).setP (iD w) (f w (s.core i))))) s

/-- vD := a vector computed from the core's registers. -/
def isaV (m : Mn) (i : Nat) (f : W32 → Core → BitVec 256) (s : State) : State :=
  isa m i (fun w s => .done (s.setCore i ((s.core i).setV (iD w) (f w (s.core i))))) s

end Sys2Proof.Machine
end

