-- ==== Sys2Proof/Machine/ClusterOps.lean ====
section
/-! DEFINITION. Operations on clusters: stopping, resetting and handing over (R21, R24, R140), cores retired and renumbered
(R153 to R155), scratch banks (R139). -/

namespace Sys2Proof.Machine

open Sys2Proof

/-- Stops the busy cores of a cluster with a status and a CAUSE (R142, R143). -/
def stopCores (s : State) (is : List Nat) (st : Status) (cause : Nat) : State :=
  is.foldl (fun s i => if coreBusy (s.core i) then endCore s i st.code cause 0 else s) s

/-- Work of a cluster ends with a status: cores, engine, codec (R140 t1, R179). -/
def stopCluster (s : State) (c : Nat) (st : Status) (cause : Nat) : State :=
  abortEngine (abortEngine (stopCores s (coresOf c) st cause) c false st) c true st

/-- Empties the data cache of a core (R154): dirty lines are written back; those that cannot be read are poisoned. -/
def emptyCache (s : State) (i : Nat) (lost : List Nat) : State :=
  let s1 := (s.core i).dcache.foldl (fun s l =>
    if l.dirty && lost.contains l.addr then match mget s.lake.pageOf (l.addr / pageBytes) with
      | some pp => markPoison s (physLine pp (l.addr % pageBytes / 64))
      | none => s
    else writeBackLine s i (coreReq s i) l) s
  s1.setCore i { s1.core i with dcache := [] }

/-- Clears the state of a core (R425), which keeps its place. -/
def clearCore (s : State) (i : Nat) (lost : List Nat) : State :=
  let s1 := emptyCache s i lost
  let k := s1.core i
  s1.setCore i { run := if k.run = .absent then .absent else .idle, phys := k.phys }

/-- Clears the scratch of a cluster (R21). -/
def clearScratch (s : State) (c : Nat) : State :=
  { s with
    fab := { s.fab with
      scratch := s.fab.scratch.filter (fun p => decide (p.1 / 2 ^ 22 ≠ c))
      scrBad := s.fab.scrBad.filter (fun p => decide (p.1 / 2 ^ 19 ≠ c)) }
    par := { s.par with progs := mmap s.par.progs (fun _ p => { p with loaded := p.loaded.filter (· ≠ c) }) } }

/-- What a cluster reset clears (R21): cores, caches, scratch, engine and codec state, a pattern test among it. Work ends as aborted
(R179). `lost` are the dirty lines that cannot be read (R154). -/
def resetCluster (s : State) (c : Nat) (lost : List Nat) : State :=
  let s1 := stopCluster s c .aborted 2
  let s2 := clearScratch ((coresOf c).foldl (fun s i => clearCore s i lost) s1) c
  let fresh (s : State) (codec : Bool) : State := s.setEng c codec { s.eng c codec with lastCore := false, tile := 0, mism := 0 }
  let s3 := fresh (fresh s2 false) true
  s3.setCl c { s3.cl c with cstate := .resetting, gateWanted := (s.cl c).gateWanted }

/-- Physical positions of a cluster that carry no core and stand by (R39, R153). -/
def spareCore (s : State) (c : Nat) : Option Nat := (List.range 9).find? (fun n => decide ((s.unit (clUnit c n)).state = .spare))

/-- Marks a unit retired (R20, R514). -/
def markRetired (s : State) (u : Nat) : State := (s.setUnit u { s.unit u with state := .retired, standsFor := none }).note u

/-- Puts a spare in a unit's place (R19). -/
def standIn (s : State) (spare u : Nat) : State := (s.setUnit spare { s.unit spare with state := .inService, standsFor := some u }).note spare

/-- The core of a physical position is retired (R153, R155): a spare takes its logical number, or the number is absent until
the next reset. A planned retirement moves the program; after a fault it is lost. -/
def retireCore (s : State) (c pos : Nat) (planned : Bool) (lost : List Nat) : State :=
  let u := clUnit c pos
  let s0 := markRetired s u
  match (coresOf c).find? (fun i => decide ((s0.core i).run ≠ .absent) && (s0.core i).phys == pos) with
  | none => s0.setCl c { s0.cl c with spareReady := (spareCore s0 c).isSome }
  | some i =>
    let s1 := emptyCache (if planned then s0 else if coreBusy (s0.core i) then endCore s0 i Status.unitFault.code 3 0 else s0) i (if planned then [] else lost)
    match spareCore s1 c with
    | some sp =>
      let s2 := standIn s1 (clUnit c sp) u
      let k := s2.core i
      let s3 := s2.setCore i (if planned then { k with phys := sp, icache := [] } else { run := .idle, phys := sp })
      s3.setCl c { s3.cl c with spareReady := (spareCore s3 c).isSome }
    | none =>
      let s2 := if planned && coreBusy (s1.core i) then endCore s1 i Status.unitFault.code 3 0 else s1
      s2.setCore i { run := .absent }

/-- Renumbers the present cores from 0 (R155). -/
def renumber (s : State) (c : Nat) : State :=
  let here := ((coresOf c).map s.core).filter (fun k => decide (k.run ≠ .absent))
  (List.range 8).foldl (fun s n => s.setCore (8 * c + n) (here.getD n { run := .absent })) s

def presentCores (s : State) (c : Nat) : Nat := ((coresOf c).filter (fun i => decide ((s.core i).run ≠ .absent))).length

/-- Retires the banks that wait for a reset (R139). -/
def retireBanks (s : State) (c : Nat) : State :=
  let k := s.cl c
  let s1 := s.setCl c { k with banks := k.banks &&& ~~~k.retireBanks, retireBanks := 0#16 }
  (List.range 16).foldl (fun s b => if k.retireBanks.getLsbD b then markRetired s (clUnit c (32 + b)) else s) s1

/-- Replies to a command where there is one. -/
def replyTo (s : State) (cmd : Nat) (r : Reply) : State := if cmd = 0 then s else finishCmd s cmd r

/-- Retires a whole cluster (R511): its work ends with the unit-fault status, it leaves its owner's clusters, and a reclaim of
it ends. A secure cluster is cleared. -/
def retireCluster (s : State) (c : Nat) : State :=
  let s0 := stopCluster (s.setCl c { s.cl c with cstate := .retired }) c .unitFault 3
  let s1 := reselect (reselect s0 c false) c true
  let s2 := (coresOf c).foldl (fun s i => (emptyCache s i []).setCore i { run := .absent }) s1
  let k := s2.cl c
  let s3 := s2.setCl c { k with cstate := .retired, gateWanted := false, owner := none, reclaim := none, world := false }
  let s4 := match k.reclaim with
    | some r => replyTo s3 r.cmd { status := .unitFault }
    | none => s3
  ([0, 1, 2, 3, 4, 5, 6, 7, 8, 16, 17, 49] ++ (List.range 16).map (32 + ·)).foldl (fun s n => markRetired s (clUnit c n))
    (if k.world then clearScratch s4 c else s4)

/-- A cluster with too few cores or banks is retired (R511). -/
def checkCluster (s : State) (c : Nat) : State :=
  if (s.cl c).cstate = .retired then s
  else if presentCores s c < 4 ∨ popcount 16 (s.cl c).banks.toNat < 8 then retireCluster s c else s

/-- t3 of R140: the new owner and world are written. -/
def handOver (s : State) (c : Nat) : State :=
  let k := s.cl c
  match k.reclaim with
  | none => s
  | some r => replyTo (s.setCl c { k with owner := r.newOwner, world := r.world, reclaim := none }) r.cmd { status := .success }

/-- t1 and t2 of R140: work that still runs is stopped, and the cluster reset begins. -/
def reclaimStop (s : State) (c : Nat) : State :=
  let k := s.cl c
  match k.reclaim with
  | none => s
  | some r => resetCluster (s.setCl c { k with reclaim := some { r with stopped := true } }) c []

/-- t0 of R140: FW becomes pending in every present core, and the jobs that wait in Vat for the cluster are no longer its; an idle cluster goes on at once, one under an
S1 test when the test ends. -/
def reclaimStart (s : State) (c : Nat) (r : Reclaim) (now : Bool) : State :=
  let s1 := (coresOf c).foldl (fun s i =>
    let k := s.core i
    if k.run = .absent then s else s.setCore i { k with evt := k.evt ||| 0x10000#32 }) s
  let s2 := reselect (reselect (s1.setCl c { s1.cl c with reclaim := some r }) c false) c true
  if (now || !clusterBusy s2 c) && !underTest s2 c then reclaimStop s2 c else s2

/-- Starts a program on a core (R142, R425, R230, R441). -/
def startCore (s : State) (i pc : Nat) (regs : List (Nat × W64)) (p : Prog) : State :=
  let k := s.core i
  let k1 : Core := { run := .running, phys := k.phys, evt := k.evt, pc := BitVec.ofNat 64 pc, dcache := k.dcache, prog := some p }
  s.setCore i (regs.foldl (fun k r => k.setG r.1 r.2) k1)

/-- Invalidates the instruction caches of a cluster (R145). -/
def flushICaches (s : State) (c : Nat) : State :=
  (coresOf c).foldl (fun s i => s.setCore i { s.core i with icache := [] }) s

/-- A gated cluster is powered up (R25). -/
def powerUp (s : State) (c : Nat) : State :=
  if (s.cl c).cstate = .gated then s.setCl c { s.cl c with cstate := .inService, gateWanted := false } else s

end Sys2Proof.Machine
end

