-- ==== Sys2Proof/Machine/ClusterCmds.lean ====
section
/-! DEFINITION. Commands on clusters: gating (R25), worlds (R27), assignment (R140, R141), programs (R142, R143), the
stochastic seed (R55). -/

namespace Sys2Proof.Machine

open Sys2Proof

/-- Firmware resets a cluster (R21). A reset of its region absorbs the request (R24). -/
def execClusterReset (work : ClusterLoss) (s : State) : Host.Outcome State Fault Refusal :=
  let k := s.cl work.cluster
  if (s.rgn (clRegion work.cluster)).rstate = .resetting then next s
  else if k.cstate = .inService ∨ k.cstate = .gated then next (resetCluster s work.cluster work.lost) else next s

/-- Firmware powers up a gated cluster (R25). -/
def execClusterPowerUp (cluster : Nat) (s : State) : Host.Outcome State Fault Refusal := next (powerUp s cluster)

/-- Firmware gates a cluster (R25): not while it holds accepted work, and not before a reset ends (R24). -/
def execClusterGate (cluster : Nat) (s : State) : Host.Outcome State Fault Refusal :=
  let k := s.cl cluster
  match k.cstate with
  | .inService => next (s.setCl cluster (if clusterBusy s cluster then { k with gateWanted := true } else { k with cstate := .gated, gateWanted := false }))
  | .resetting => next (s.setCl cluster { k with gateWanted := true })
  | _ => next s

/-- Palette core 0 changes the world of an idle cluster (R27, R140). -/
def execWorldChange (cluster : Nat) (secure : Bool) (s : State) : Host.Outcome State Fault Refusal :=
  let k := s.cl cluster
  if clusterBusy s cluster ∨ k.reclaim.isSome ∨ k.cstate ≠ .inService then next s
  else next (reclaimStart s cluster { newOwner := k.owner, cmd := 0, world := secure } true)

/-- Firmware-owned clusters in service (R141). -/
def fwClusters (s : State) : List Nat :=
  (List.range 64).filter (fun c => let k := s.cl c
    k.owner.isNone && k.reclaim.isNone && (decide (k.cstate = .inService) || decide (k.cstate = .gated)))

/-- CL_ASSIGN (R141). -/
def execClAssign (pair : MboxId) (blk : CmdBlock) (s : State) : Host.Outcome State Fault Refusal :=
  next (fwCommand 0x0E0 true pair blk (fun s c b =>
    let cl := bn b 5 0
    let fn := bn b 27 16
    let fw := bt b 28
    let k := s.cl cl
    let owner := if fw then none else some fn
    if !fromPf0 c then refuse s .accessDenied
    else if !bodyReserved b [(15, 6), (31, 29), (63, 39)] 64 || decide (100 < bn b 38 32) || (fw && fn != 0) || (!fw && !s.fnPresent fn) then
      refuse s .invalidField
    else if k.world then refuse s .accessDenied
    else if k.cstate = .retired then refuse s .unitFault
    else if k.owner = owner ∧ k.reclaim.isNone then accept s
    else if k.reclaim.isSome then refuse s .busy
    else if k.owner.isNone ∧ ((fwClusters s).filter (· ≠ cl)).length < 4 then refuse s .busy
    else (reclaimStart s cl { newOwner := owner, cmd := c.id, world := false } (bn b 38 32 == 0), none)) s)

/-- The grace time of a reclaim ends, or the cluster has gone idle (R140). -/
def execReclaimGraceEnd (cluster : Nat) (s : State) : Host.Outcome State Fault Refusal :=
  match (s.cl cluster).reclaim with
  | some r => if r.stopped || underTest s cluster then next s else next (reclaimStop s cluster)
  | none => next s

/-- A cluster runs an optimizer step (R142). -/
def runsStep (s : State) (c : Nat) : Bool := s.par.runs.any (fun r => r.cores.any (fun i => i / 8 == c && (mget r.ended i).isNone))

/-- Logical cores a mask names. -/
def maskCores (c m : Nat) : List Nat := (coresOf c).filter (fun i => m.testBit (i % 8))

/-- An address in tier N of the own node, checked by R88 (R142). One of an accelerator window, which R88 itself may allow, is refused with the
bounds status and counted: DESIGN CHOICE, the rule names the status of R88 alone (log 141). -/
def checkTierN (s : State) (r : Req) (g n : Nat) : State × Option Status :=
  match checkGlobal s r g n with
  | (s1, .inr st) => (s1, some st)
  | (s1, .inl a) => if inTierN a n then (s1, none) else (s1.count LAKE_DENY, some .bounds)

/-- The fields of CL_RUN that lie in range (R142). -/
def clRunFieldsOk (s : State) (c : Cmd) (b : BitVec 32256) : Bool :=
  let cl := bn b 5 0
  let cores := bn b 15 8
  let len := bn b 159 128
  let load := bn b 191 160
  let entry := bn b 223 192
  bodyReserved b [(7, 6), (63, 16), (255, 224), (511, 465)] 512 && cores != 0 && len % 4 == 0 && decide (4 ≤ len) &&
    load % 64 == 0 && decide (load + len ≤ scratchSize (s.cl cl)) && entry % 4 == 0 && decide (entry < len) &&
    bn b 447 384 % 64 == 0 && (maskCores cl cores).all (fun i => decide ((s.core i).run ≠ .absent)) &&
    (!bt b 464 || ownsCtr s c.fn (bn b 463 448))

/-- The image of CL_RUN lies in near memory that waits for a region in reset (R23). -/
def imageWaits (s : State) (blk : CmdBlock) : Bool :=
  match ownAddr s (bn blk.body 127 64) with
  | some a => inTierN a (bn blk.body 159 128) && accessWaits s a (bn blk.body 159 128)
  | none => false

/-- CL_RUN (R142): the image is copied to scratch, and the named cores start. A retired cluster answers unit-fault, one that is off, starting
or resetting answers busy: DESIGN CHOICE, the rule names neither (log 142). -/
def execClRun (pair : MboxId) (blk : CmdBlock) (s : State) : Host.Outcome State Fault Refusal :=
  if imageWaits s blk then next s else next (fwCommand 0x0E1 true pair blk (fun s c b =>
    let cl := bn b 5 0
    let k := s.cl cl
    let cores := maskCores cl (bn b 15 8)
    let len := bn b 159 128
    let load := bn b 191 160
    let done := bn b 447 384
    if k.owner ≠ some c.fn ∨ k.reclaim.isSome then refuse s .accessDenied
    else if k.cstate = .retired then refuse s .unitFault
    else if !clRunFieldsOk s c b then refuse s .invalidField
    else if cores.any (fun i => coreBusy (s.core i)) || runsStep s cl || !(decide (k.cstate = .inService) || decide (k.cstate = .gated)) then
      refuse s .busy
    else match checkTierN s c.req (bn b 127 64) len with
      | (s1, some st) => refuse s1 st
      | (s1, none) => match checkTierN s1 c.req done 128 with
        | (s2, some st) => refuse s2 st
        | (s2, none) => match agentRead s2 { req := c.req, work := .firmware c.id } (bn b 127 64) len with
          | (s3, .ok bs bad) =>
            if !bad.isEmpty then refuse s3 .poisonedData
            else
              let s4 := flushICaches (scrWrite (powerUp s3 cl) cl load bs) cl
              let ctr := if bt b 464 then some (bn b 463 448) else none
              accept (cores.foldl (fun s i => startCore s i (0xFFFF000000000000 + load + bn b 223 192)
                [(1, BitVec.ofNat 64 (bn b 319 256)), (2, BitVec.ofNat 64 (bn b 383 320)), (3, BitVec.ofNat 64 (i % 8)), (4, BitVec.ofNat 64 cores.length)]
                (.clRun done ctr c.fn)) s4)
          | (s3, .fail st) => refuse s3 st
          | (s3, .wait) => refuse s3 .bounds) s)

/-- CL_STOP (R143). -/
def execClStop (pair : MboxId) (blk : CmdBlock) (s : State) : Host.Outcome State Fault Refusal :=
  next (fwCommand 0x0E2 true pair blk (fun s c b =>
    let cl := bn b 5 0
    if (s.cl cl).owner ≠ some c.fn then refuse s .accessDenied
    else if !bodyReserved b [(7, 6)] 16 then refuse s .invalidField
    else accept (stopCores s (maskCores cl (bn b 15 8)) .aborted 2)) s)

/-- A write to OCH_RS_SEED (R55): the whole state, or the low (`false`) or high (`true`) half of it. -/
def execSeedWrite (cluster : Nat) (half : Option Bool) (value : W64) (s : State) : Host.Outcome State Fault Refusal :=
  let k := s.cl cluster
  let v : W64 := match half with
    | none => value
    | some false => BitVec.ofNat 64 (at_ 32 (bn k.rs 63 32) + bn value 31 0)
    | some true => BitVec.ofNat 64 (at_ 32 (bn value 31 0) + bn k.rs 31 0)
  next (s.setCl cluster { k with rs := if v = 0#64 then 0x9E3779B97F4A7C15#64 else v })

end Sys2Proof.Machine
end

