-- ==== Sys2Proof/Machine/Rows.lean ====
section
/-! DEFINITION. Rows of values as Woad, Blend and the optimizer read and write them (R64 to R66, R78, R192), the firmware
cluster whose codec encodes for them (R54), and their messages. -/

namespace Sys2Proof.Machine

open Sys2Proof

/-- The unrounded bytes of a row of `h` elements (R192). -/
def rowBytes (fmt h : Nat) : Nat :=
  if fmt = 8 then 4 * h else if fmt = 9 then 2 * h else cdiv h 32 * denseSize ((kbfWidth fmt).getD 8)

/-- A row rounded up to a multiple of 64 (R192). -/
def rowb (fmt h : Nat) : Nat := cdiv (rowBytes fmt h) 64 * 64

/-- Status flags that a job gathers on its way (R168). -/
structure Flags3 where
  pois : Bool := false
  malf : Bool := false
  sat : Bool := false
  /-- Blocks met with a reserved FMT, for the codec's trouble counter (R50). -/
  odd : Nat := 0
deriving DecidableEq, Repr

def Flags3.or (a b : Flags3) : Flags3 := ⟨a.pois || b.pois, a.malf || b.malf, a.sat || b.sat, a.odd + b.odd⟩

/-- The order of R168. -/
def Flags3.status (f : Flags3) : Status := if f.pois then .poisonedData else if f.malf then .malformedBlock else if f.sat then .saturated else .success

/-- The values of an operand block. -/
def OBlk.vals (b : OBlk) : List Val := if b.zero then List.replicate 32 (some ⟨0, 0⟩) else b.codes.map (codeVal b.t)

/-- One dense block of a row (R46, R78). A sparse block of tokens reads as 32 markers whatever its ZERO (R194). -/
def rowBlock (fmt : Nat) (tokens : Bool) (bs : List Byte) (bad : Bool) : OBlk × Flags3 :=
  let odd := b2n (badFmt bs bad)
  if tokens && !bad && hSparse (readBlock bs).hdr then (markerBlk, { malf := true, odd := odd })
  else match takeBlk fmt bs bad bad with
    | (b, some .poisonedData) => (b, { pois := true })
    | (b, some _) => (b, { malf := true, odd := odd })
    | (b, none) => (b, {})

/-- The trouble counter of a cluster's codec counts blocks with a reserved FMT (R50). -/
def countOdd (s : State) (c : Nat) (f : Flags3) : State := if f.odd = 0 then s else s.trouble (engUnit c true) .ue f.odd

/-- The values of a row of `h` elements; parts of a float row that are poisoned read as markers (R78, R219). -/
def decodeRow (fmt h : Nat) (tokens : Bool) (bs : List Byte) (bad : List (Nat × Nat)) : List Val × Flags3 :=
  if fmt = 8 ∨ fmt = 9 then
    let n := floatBytes fmt
    let vs := (List.range h).map (fun i => if meets bad (n * i) n then none else floatVal (floatFmt fmt) (leAt bs (n * i) n))
    (vs, { pois := !bad.isEmpty })
  else
    let z := denseSize ((kbfWidth fmt).getD 8)
    let xs := (List.range (cdiv h 32)).map (fun b => rowBlock fmt tokens ((bs.drop (b * z)).take z) (meets bad (b * z) z))
    (((xs.map (fun x => x.1.vals)).flatten).take h, xs.foldl (fun f x => f.or x.2) {})

/-- Groups of 32 values, the last one filled with zeros. -/
def blocks32 (vs : List Val) : List (List Val) := (List.range (cdiv vs.length 32)).map (fun b => pad32 (min 32 (vs.length - 32 * b)) (vs.drop (32 * b)))

/-- Encodes a row densely: bytes, whether it saturated, the generator after (R51, R65). -/
def encodeRow (fmt : Nat) (mode : RMode) (vs : List Val) (rs : W64) : List Byte × Bool × W64 :=
  if fmt = 8 then ((vs.map (fun v => leBytes 4 (valF32 v))).flatten, false, rs)
  else if fmt = 9 then
    let xs := vs.map valBf16
    ((xs.map (fun x => leBytes 2 x.1)).flatten, xs.any (·.2), rs)
  else
    (blocks32 vs).foldl (fun (a : List Byte × Bool × W64) b =>
      let (e, r) := encodeBlock fmt ((kbfWidth fmt).getD 8) 0 mode false b a.2.2
      (a.1 ++ writeBlock e, a.2.1 || hSat e.hdr, r)) ([], false, rs)

/-- A row filled up to a multiple of 64 with zeros (R192). -/
def padRow (bs : List Byte) : List Byte := bs ++ List.replicate (cdiv bs.length 64 * 64 - bs.length) 0#8

/-- A row in bfloat16 from a row of floats: bfloat16 rows stay as they are, and binary32 values are rounded by R65. -/
def rowBf16 (fmt h : Nat) (bs : List Byte) : List Byte × Bool :=
  if fmt = 9 then (bs.take (2 * h), false)
  else
    let xs := (List.range h).map (fun i => f32Bf16 (leAt bs (4 * i) 4))
    ((xs.map (fun x => leBytes 2 x.1)).flatten, xs.any (·.2))

/-- An access to near memory of the own node waits for its region, or behind a held write (R23, R90). -/
def nearWaits (s : State) (a n : Nat) : Bool := match ownAddr s a with
  | some l => decide (l < 2 ^ 47) && accessWaits s l n
  | none => false

/-- A cluster of firmware whose engine, or codec, serves (R54, R201): which one is open. -/
def serving (s : State) (codec : Bool) : State × Option Nat :=
  match (fwClusters s).filter (fun c => engAlive s c codec && !(s.cl c).world) with
  | [] => (s, none)
  | c :: cs =>
    let (i, s1) := s.choose (cs.length + 1)
    (s1, some ((c :: cs).getD i c))

/-- Pieces of at most an MTU at consecutive addresses (R261). -/
def piecesOf (mtu : Nat) (rkey : W32) (addr : Nat) (bs : List Byte) : List Piece :=
  (chunks mtu (cdiv bs.length mtu) bs).mapIdx (fun i x => ⟨addr + mtu * i, rkey, x⟩)

/-- A scatter write of several ranges, with a notice as its last packet where one is given (R216, R261, R266). -/
def scatterMsg (p : Poster) (pieces : List Piece) (note : Option (BitVec 256)) : TxMsg :=
  { kind := .scatter, poster := p, msn := 0, psn := 0, count := 0
    len := (pieces.map (fun x => x.data.length)).sum
    pieces := pieces ++ (match note with
      | some n => [⟨0, 0#32, beBytes 32 n.toNat⟩]
      | none => [])
    notice := note }

/-- A write of one piece, with what becomes visible after it (R261, R262). -/
def noticeWrite (p : Poster) (op : Nat) (addr : Nat) (rkey : W32) (bs : List Byte) (ctr tgen ttag : Nat) : TxMsg :=
  { kind := .write op, poster := p, msn := 0, psn := 0, count := 0, raddr := BitVec.ofNat 64 addr, rkey := rkey, len := bs.length
    ctr := ctr, tgen := tgen, ttag := ttag, pieces := [⟨addr, rkey, bs⟩] }

/-- A cluster of firmware whose codec serves. -/
def codecCluster (s : State) : State × Option Nat := serving s true

/-- The connection that a handle of a configuration names for its function. -/
def connOfHandle (s : State) (fn : Nat) (h : W64) : Option Nat :=
  match checkHandle s { fn := fn } h [3] with
  | .inl i => some i
  | .inr _ => none

/-- Sends a message on a connection that a handle names; a connection that is gone ends it as lost. -/
def postOn (s : State) (fn : Nat) (h : W64) (m : TxMsg) : State :=
  match connOfHandle s fn h with
  | some i => postMsg s i m
  | none => completePoster s m.poster .peerLost 0 0

/-- MTU of the connection a handle names. -/
def mtuOf (s : State) (fn : Nat) (h : W64) : Nat := match connOfHandle s fn h with
  | some i => ((s.conn i).map Conn.mtuBytes).getD 1024
  | none => 1024

/-- The result of a posted message, taken from those that have completed. -/
def takePosted (s : State) (p : Poster) : State × Option Status :=
  match s.carm.posted.find? (fun x => decide (x.1 = p)) with
  | none => (s, none)
  | some x => ({ s with carm := { s.carm with posted := s.carm.posted.erase x } }, some x.2)

/-- Takes the results that have come for a list of sends: those still out, and those that failed with their rank. -/
def takeSends (mk : Nat → Poster) : List (Nat × Nat) → State → State × List (Nat × Nat) × List (Nat × Status)
  | [], s => (s, [], [])
  | (n, r) :: xs, s =>
    let (s1, st) := takePosted s (mk n)
    let (s2, out, bad) := takeSends mk xs s1
    match st with
    | none => (s2, (n, r) :: out, bad)
    | some x => if x.ok then (s2, out, bad) else (s2, out, (r, x) :: bad)

end Sys2Proof.Machine
end

