-- ==== Sys2Proof/Machine/Woad.lean ====
section
/-! DEFINITION. Woad: dispatch job queues, routing, DISPATCH, RETURN and COMBINE (R183 to R204). -/

namespace Sys2Proof.Machine

open Sys2Proof

def State.wq (s : State) (q : Nat) : Option WQueue := mget s.woad.queues q
def State.setWq (s : State) (q : Nat) (x : WQueue) : State := { s with woad := { s.woad with queues := mset s.woad.queues q x } }

/-- Fields of the configuration record (R185). -/
def wExpmap (r : BitVec 1024) : Nat := bn r 63 0
def wRanktab (r : BitVec 1024) : Nat := bn r 127 64
def wRouter (r : BitVec 1024) : Nat := bn r 191 128
def wBias (r : BitVec 1024) : Nat := bn r 255 192
def wRetBase (r : BitVec 1024) : Nat := bn r 319 256
def wSpill (r : BitVec 1024) : Nat := bn r 383 320
def wE (r : BitVec 1024) : Nat := bn r 394 384
def wK (r : BitVec 1024) : Nat := bn r 403 400
def wH (r : BitVec 1024) : Nat := bn r 423 408
def wCapmax (r : BitVec 1024) : Nat := bn r 439 424
def wSpillMax (r : BitVec 1024) : Nat := bn r 455 440
def wRanks (r : BitVec 1024) : Nat := bn r 468 456
def wMyRank (r : BitVec 1024) : Nat := bn r 483 472
def wInFmt (r : BitVec 1024) : Nat := bn r 487 484
/-- WIRE_FMT and RET_FMT, where 0x0 stands for KBF8. -/
def wWireFmt (r : BitVec 1024) : Nat := if bn r 491 488 = 0 then 3 else bn r 491 488
def wRetFmt (r : BitVec 1024) : Nat := if bn r 495 492 = 0 then 3 else bn r 495 492
def wOutFmt (r : BitVec 1024) : Nat := bn r 499 496
def wRwFmt (r : BitVec 1024) : Nat := bn r 503 500
def wRmode (r : BitVec 1024) : RMode := RMode.ofCode (bn r 505 504)
def wGate (r : BitVec 1024) : Nat := bn r 507 506
def wPolicy (r : BitVec 1024) : Nat := bn r 509 508
def wRenorm (r : BitVec 1024) : Bool := bt r 510
def wRetCtr (r : BitVec 1024) : Nat := bn r 527 512
def wTimeout (r : BitVec 1024) : Nat := bn r 543 528
def wRetKey (r : BitVec 1024) : Nat := bn r 575 544

/-- An area that begins in tier N of the own node (R185). -/
def areaOk (s : State) (a : Nat) : Bool := match ownAddr s a with
  | some l => inTierN l 1
  | none => false

/-- The record's own conditions (R184, R185). -/
def wRecordOk (s : State) (fn : Nat) (r : BitVec 1024) : Bool :=
  reservedZero r [(399, 395), (407, 404), (471, 469), (511, 511), (1023, 576)] &&
    decide (1 ≤ wE r) && decide (wE r ≤ 1024) && decide (1 ≤ wK r) && decide (wK r ≤ 8) && decide (wK r ≤ wE r) &&
    wH r % 32 == 0 && decide (32 ≤ wH r) && decide (wH r ≤ 32768) && decide (1 ≤ wRanks r) && decide (wRanks r ≤ 4096) &&
    decide (wMyRank r < wRanks r) && tileFmtOk (wInFmt r) && (isKbf (wWireFmt r) || (wWireFmt r == 9 && wInFmt r == 9)) &&
    (isKbf (wRetFmt r) || wRetFmt r == 9) && tileFmtOk (wOutFmt r) &&
    (if wRouter r = 0 then wRwFmt r == 0 else isKbf (wRwFmt r)) && areaOk s (wRetBase r) && (wSpill r == 0 || areaOk s (wSpill r)) && wGate r != 3 && wPolicy r != 3 &&
    (wPolicy r != 2 || wSpill r != 0) && ownsCtr s fn (wRetCtr r) && (ctrSetOf s (wRetCtr r)).isSome && ctrSetOf s (wRetCtr r) == ctrSetOf s (wRetCtr r + 1)

/-- A rank table entry (R186). -/
def readRank (x : BitVec 256) : WRank := ⟨BitVec.ofNat 64 (bn x 63 0), BitVec.ofNat 64 (bn x 127 64), BitVec.ofNat 32 (bn x 159 128), bn x 175 160⟩

/-- A handle names a connection of the function to a node, of the traffic class that is asked (R186). -/
def connFits (s : State) (fn : Nat) (h : W64) (node : Nat) (tc : Nat → Bool) : Bool :=
  match connOfHandle s fn h with
  | some i => match s.conn i with
    | some c => c.peerNode == node && tc c.tc
    | none => false
  | none => false

/-- The conditions of R186 on entry `i`. -/
def rankOk (s : State) (fn my i : Nat) (x : BitVec 256) : Bool :=
  let e := readRank x
  zeroBits x 255 176 && (decide (e.node = s.fab.node) == decide (i = my)) &&
    (if i = my then e.conn == 0#64 && e.xconn == 0#64 && e.rkey == 0#32
     else connFits s fn e.conn e.node (· == 1) && (e.xconn == 0#64 || connFits s fn e.xconn e.node (· == 0)))

/-- An expert map entry (R187). -/
def readExpert (x : BitVec 256) : WExpert := ⟨bn x 63 0, bn x 75 64, bn x 95 80, bn x 97 96, bn x 143 128, bn x 155 144, bn x 175 156⟩

/-- The conditions of R187. -/
def expertOk (r : BitVec 1024) (ranks : List WRank) (x : BitVec 256) : Bool :=
  let e := readExpert x
  zeroBits x 79 76 && zeroBits x 127 98 && zeroBits x 255 176 && e.dest % 64 == 0 && decide (e.rank < wRanks r) &&
    (match ranks[e.rank]? with
      | some k => e.dest / 2 ^ 48 == k.node
      | none => false) && decide (e.cap ≤ wCapmax r) && e.notify != 3 && (e.notify == 2 || (e.tgen == 0 && e.ttag == 0))

/-- Reads bytes of a configuration, once; none where they cannot be read (R184). -/
def readCfg (s : State) (r : Req) (a n : Nat) : State × Option (List Byte) :=
  match checkGlobal s r a n with
  | (s1, .inr _) => (s1, none)
  | (s1, .inl l) =>
    if !inTierN l n then (s1, none)
    else
      let (s2, bs, ps) := lakeRead s1 l n
      (s2, if ps.isEmpty then some bs else none)

/-- Reads a table of `n` entries of 32 bytes: it, or the index of the first entry that cannot be read (R184). -/
def readTable (s : State) (r : Req) (a n : Nat) : State × (List Byte ⊕ Nat) :=
  match readCfg s r a (32 * n) with
  | (s1, some bs) => (s1, .inl bs)
  | (s1, none) => (s1, .inr (((List.range n).find? (fun i => (readCfg s r (a + 32 * i) 32).2.isNone)).getD 0))

/-- 32-byte entries of a table. -/
def entries32 (bs : List Byte) (n : Nat) : List (BitVec 256) := (List.range n).map (fun i => BitVec.ofNat 256 (leAt bs (32 * i) 32))

/-- Index of the first entry that fails a condition. -/
def firstBad (ok : Nat → BitVec 256 → Bool) (xs : List (BitVec 256)) : Option Nat :=
  ((xs.mapIdx (fun i x => (i, ok i x))).find? (fun p => !p.2)).map (·.1)

/-- Reads and checks a configuration (R183, R184): it, or DETAIL of the refusal. -/
def loadWcfg (s : State) (r : Req) (cfg : Nat) : State × (WCfg ⊕ Nat) :=
  match readCfg s r cfg 128 with
  | (s1, none) => (s1, .inr 0)
  | (s1, some bs) =>
    let rec_ : BitVec 1024 := BitVec.ofNat 1024 (leNat bs)
    if !wRecordOk s1 r.fn rec_ then (s1, .inr 0)
    else match readTable s1 r (wExpmap rec_) (wE rec_) with
      | (s2, .inr i) => (s2, .inr (at_ 30 1 + i))
      | (s2, .inl mbs) => match readTable s2 r (wRanktab rec_) (wRanks rec_) with
        | (s3, .inr i) => (s3, .inr (at_ 30 2 + i))
        | (s3, .inl tbs) =>
          let ts := entries32 tbs (wRanks rec_)
          let ranks := ts.map readRank
          let ms := entries32 mbs (wE rec_)
          match firstBad (fun _ x => expertOk rec_ ranks x) ms with
          | some i => (s3, .inr (at_ 30 1 + i))
          | none => match firstBad (rankOk s3 r.fn (wMyRank rec_)) ts with
            | some i => (s3, .inr (at_ 30 2 + i))
            | none => (s3, .inl ⟨rec_, ms.map readExpert, ranks⟩)

/-- CH_CREATE of a dispatch job queue (R183, R184). -/
def execChCreateDispatchQueue (pair : MboxId) (blk : CmdBlock) (s : State) : Host.Outcome State Fault Refusal :=
  next (chCommand 0x010 [5] pair blk (fun s c b =>
    if !createWord b 5 || !zeroBits (params b) 255 64 then refuse s .invalidField
    else match loadWcfg s c.req (bn (params b) 63 0) with
      | (s1, .inr d) => (s1, some { status := .invalidField, detail := d })
      | (s1, .inl cfg) => createIn s1 c 5 (fun _ => true) 1 (fun s i => .inr (s.setWq i { cfg := cfg }, { status := .success }))) s)

/-- CH_MODIFY of a dispatch job queue (R183, R188). -/
def execChModifyDispatchQueue (pair : MboxId) (blk : CmdBlock) (s : State) : Host.Outcome State Fault Refusal :=
  next (chCommand 0x012 [5] pair blk (fun s c b =>
    match bodyHandle s c [5] b with
    | .inr st => refuse s st
    | .inl i => match s.wq i with
      | none => refuse s .staleHandle
      | some q =>
        if !bodyReserved b [] 320 || !zeroBits (params b) 255 64 then refuse s .invalidField
        else match loadWcfg s { fn := (s.slot 5 i).owner } (bn (params b) 63 0) with
          | (s1, .inr d) => (s1, some { status := .invalidField, detail := d })
          | (s1, .inl cfg) => accept (s1.setWq i { q with cfg := cfg })) s)

/-! Areas (R192). -/

/-- Bank of a job. -/
def WJob.bank (j : WJob) : Nat := j.n % 2

/-- Bytes of a receive slot (R192). -/
def slotBytes (r : BitVec 1024) : Nat := 64 + wCapmax r * rowb (wWireFmt r) (wH r)

/-- The receive slot of an expert from a source in a bank (R192). -/
def slotAddr (r : BitVec 1024) (e : WExpert) (b src : Nat) : Nat := e.dest + (b * wRanks r + src) * slotBytes r

/-- A return row: of expert `e` at position `p`, or of spill position `p` when `e` is E (R192). -/
def retRow (r : BitVec 1024) (b e p : Nat) : Nat :=
  wRetBase r + (b * (wE r * wCapmax r + wSpillMax r) + e * wCapmax r + p) * rowb (wRetFmt r) (wH r)

/-- A spill row (R192). -/
def spillRow (r : BitVec 1024) (b n : Nat) : Nat := wSpill r + (b * wSpillMax r + n) * rowb (wWireFmt r) (wH r)

/-- A count record (R193). -/
def countRecord (r : BitVec 1024) (b jobNo e count : Nat) (aborted : Bool) : List Byte :=
  leBytes 64 (count + at_ 16 (wMyRank r) + at_ 28 (b2n aborted) + at_ 32 e + at_ 64 (jobNo % 2 ^ 32) + at_ 96 (wRetKey r) +
    at_ 128 (retRow r b e 0) + at_ 192 (wRetCtr r + b))

/-! Routing (R189, R190). -/

/-- A route of a choice: expert, 0 unplaced, 1 placed or 2 spilled, position, gate (R191). -/
structure Route where
  exp : Nat
  kind : Nat
  pos : Nat
  gate : Nat
deriving DecidableEq, Repr

/-- The entry of R191. -/
def Route.entry (x : Route) : Nat :=
  if x.kind = 0 then 0xFFFF + at_ 32 x.gate
  else x.exp + at_ 15 (b2n (x.kind == 2)) + at_ 16 x.pos + at_ 32 x.gate

/-- A logit made ready: +∞ becomes the largest finite value; NaN and −∞ give none (R189). -/
def readyLogit (x : Nat) : Option Nat :=
  if x = 0x7F800000 then some 0x7F7FFFFF else if x = 0xFF800000 ∨ (f32.read x).isNan = true then none else some x

/-- Inserts an expert by falling score; equal scores keep the lower number first (R189). -/
def insertScore (x : Nat × Nat) : List (Nat × Nat) → List (Nat × Nat)
  | [] => [x]
  | y :: ys => if f32.lt y.1 x.1 then x :: y :: ys else y :: insertScore x ys

/-- The selectable experts by score: pairs of score and expert (R189). -/
def ranked (xs : List (Nat × Nat)) : List (Nat × Nat) := xs.foldl (fun l x => insertScore x l) []

/-- Progress of the placement of a job (R190). -/
structure Placing where
  used : Map Nat := []
  spilled : Nat := 0
  unplaced : Nat := 0
  rerouted : Nat := 0
  placed : Nat := 0
  routes : List Route := []
deriving DecidableEq, Repr

/-- Places an expert's route where it has room (R190). -/
def Placing.put (p : Placing) (e gate : Nat) : Placing :=
  let n := mgetD p.used e 0
  { p with used := mset p.used e (n + 1), placed := p.placed + 1, routes := p.routes ++ [⟨e, 1, n, gate⟩] }

def Placing.drop (p : Placing) (gate : Nat) : Placing := { p with unplaced := p.unplaced + 1, routes := p.routes ++ [⟨0, 0, 0, gate⟩] }

/-- Places one choice of a token (R190). `others` are the experts outside the selected set, in score order; `taken` those that
earlier choices of the token have taken. The experts taken after it are the second part of the result. -/
def placeChoice (c : WCfg) (p : Placing) (taken others : List Nat) (e gate : Nat) : Placing × List Nat :=
  let room (e : Nat) : Bool := match c.experts[e]? with
    | some x => decide (mgetD p.used e 0 < x.cap)
    | none => false
  if room e then (p.put e gate, e :: taken)
  else if wPolicy c.rec_ = 1 then
    match (((others.filter (fun x => !taken.contains x)).take 8).find? room) with
    | some x => ({ p.put x gate with rerouted := p.rerouted + 1 }, x :: taken)
    | none => (p.drop gate, taken)
  else if wPolicy c.rec_ = 2 ∧ p.spilled < wSpillMax c.rec_ then
    ({ p with spilled := p.spilled + 1, placed := p.placed + 1, routes := p.routes ++ [⟨e, 2, p.spilled, gate⟩] }, taken)
  else (p.drop gate, taken)

/-! The gates of R189: fixed point with 288 fraction bits, far finer than the 4 units in the last place that the rule allows. -/

def fxOne : Nat := 2 ^ 288

/-- exp(−y) for a fixed-point y, by its series at y / 2^8 and eight squarings; nothing of it is left beyond 160. -/
def expNeg (y : Nat) : Nat :=
  if 160 * fxOne ≤ y then 0
  else
    let z : Int := (y / 2 ^ 8 : Nat)
    let t := (List.range 64).foldl (fun (a : Int × Int) n =>
      let term := -(a.1 * z) / (fxOne : Int) / ((n + 1 : Nat) : Int)
      (term, a.2 + term)) ((fxOne : Int), (fxOne : Int))
    (List.range 8).foldl (fun v _ => v * v / fxOne) t.2.toNat

/-- A finite binary32 pattern in fixed point, exactly. -/
def fxOf (l : Nat) : Int := match f32.read l with
  | .fin v => v.m * ((2 ^ (v.e + 288).toNat : Nat) : Int)
  | _ => 0

/-- The exact gate of a choice as a quotient: the logit of the choice, and the logits it is normalised over (R189). σ is scaled by exp(−m),
m the largest logit where that is below zero. -/
def exactGate (mode : Nat) (l : Nat) (terms : List Nat) : Nat × Nat :=
  let top := terms.foldl (fun m x => max m (fxOf x)) (fxOf l)
  let m := min 0 top
  let sig (x : Nat) : Nat :=
    let v := fxOf x
    if 0 < v then fxOne * fxOne / (fxOne + expNeg v.toNat) else expNeg (m - v).toNat * fxOne / (fxOne + expNeg (-v).toNat)
  let weight (x : Nat) : Nat := if mode = 2 then sig x else expNeg (top - fxOf x).toNat
  (weight l, (terms.map weight).sum)

/-- Whether a binary32 pattern lies within 4 units in the last place of x × 2^−220; the last part in 2^20 covers the fixed point. -/
def nearGate (g x : Nat) : Bool :=
  let ulp : Nat := 2 ^ (max 51 (x.log2 - 23))
  match f32.read g with
  | .zero _ => decide (x ≤ 4 * ulp)
  | .fin v =>
    let y : Int := if -220 ≤ v.e then v.m * ((2 ^ (v.e + 220).toNat : Nat) : Int) else 0
    decide ((y - x).natAbs * 2 ^ 20 ≤ 4 * ulp * 2 ^ 20 + ulp)
  | _ => false

/-- The gate of a choice (R189): within 4 units in the last place of the exact value, which one is free (log 4). -/
def gateOf (mode : Nat) (l : W32) (terms : List W32) : W32 :=
  let q := exactGate mode l.toNat (terms.map (·.toNat))
  let x := q.1 * 2 ^ 220 / q.2
  let g := Config.gate mode l terms
  if nearGate g.toNat x then g else BitVec.ofNat 32 (f32.roundMag x (-220))

/-- Routes one token (R189, R190), given its logits and the scores of its experts. -/
def routeToken (c : WCfg) (p : Placing) (logits : List Nat) (score : Nat → Nat → Nat) : Placing :=
  let ready := logits.mapIdx (fun e l => (e, readyLogit l))
  let sel := ready.filterMap (fun x => x.2.map (fun l => (x.1, l)))
  let order := (ranked (sel.map (fun x => (score x.1 x.2, x.1)))).map (·.2)
  let k := wK c.rec_
  let chosen := order.take k
  let logitOf (e : Nat) : W32 := BitVec.ofNat 32 (((sel.find? (fun x => x.1 == e)).map (·.2)).getD 0)
  let terms : List W32 := if wGate c.rec_ = 0 then sel.map (fun x => BitVec.ofNat 32 x.2) else chosen.map logitOf
  let r := chosen.foldl (fun (a : Placing × List Nat) e => placeChoice c a.1 a.2 (order.drop k) e (gateOf (wGate c.rec_) (logitOf e) terms).toNat) (p, [])
  (List.range (k - chosen.length)).foldl (fun p _ => p.drop 0) r.1

/-- The score of R189: a score that is no number is open, a free value. -/
def scoreOf (bias : List Nat) (draw : Nat) (e l : Nat) : Nat :=
  match bias[e]? with
  | none => l
  | some b => let x := f32.add l b; if (f32.read x).isNan then (Config.freeWord draw).toNat % 2 ^ 32 else x

/-- What the router's MATMUL gives (R194): the logits, whether one was held at its limit, and the steps and skips of its tiles. -/
structure Router where
  logits : List (List Nat) := []
  held : Bool := false
  steps : Nat := 0
  skipped : Nat := 0

/-- The router's MATMUL (R194): KBF8 rows of the tokens against the router weights, in tiles of 64 rows as the engine takes them; `dense`
are the steps of a K-block that is not skipped (R159, R173). -/
def routerRun (h e tcols dense : Nat) (toks : List (List Val)) (w : List (List OBlk)) : Router :=
  let enc := toks.map (fun vs => (blocks32 vs).map (fun b =>
    let x := (encodeBlock 3 8 0 .nearest false b 0#64).1
    (⟨x.codes, hScale x.hdr 8, hZero x.hdr⟩ : OBlk)))
  let skips (i j : Nat) : List Bool := (List.range (h / 32)).map (skipAt ((enc.drop (64 * i)).take 64) ((w.drop (tcols * j)).take tcols))
  let vals := enc.mapIdx (fun i row => ((List.range (cdiv e 32)).map (fun jb =>
    let cols := (w.drop (32 * jb)).take 32
    (((accRow h (skips (i / 64) (32 * jb / tcols)) row cols {}).vals.take cols.length).map valF32Held))).flatten)
  let tiles := (List.range (cdiv toks.length 64)).flatMap (fun i => (List.range (cdiv e tcols)).flatMap (fun j => skips i j))
  { logits := vals.map (fun r => r.map (·.1)), held := vals.any (fun r => r.any (·.2))
    steps := (tiles.map (fun b => if b then dense / 2 else dense)).sum, skipped := (tiles.filter id).length }

/-! DISPATCH (R194 to R197). -/

def wjobOf (q : WQueue) (job : Nat) : Option WJob := q.jobs.find? (fun j => j.job == some job)
def WQueue.put (q : WQueue) (j : WJob) : WQueue := { q with jobs := q.jobs.map (fun x => if x.n = j.n then j else x) }

/-- A job is retired when it has been combined, or refused and finished (R195, R200). -/
def WJob.retired (j : WJob) : Bool := j.sent && j.finished && (j.combined || j.refused.isSome)

/-- Nothing of a job is left to come: it is retired, and its COMBINE has completed (R195, R200). -/
def wjobGone (s : State) (j : WJob) : Bool := j.retired && (j.combine.bind (fun id => mget s.vat.jobs id)).isNone

/-- Writes a job back, or lets it go when it is retired. -/
def putWjob (s : State) (q : Nat) (j : WJob) : State :=
  match s.wq q with
  | none => s
  | some x => s.setWq q (if wjobGone s j then { x with jobs := x.jobs.filter (fun y => y.n != j.n) } else x.put j)

/-- An address of a body: the refusing status, if any; `near` asks for tier N. Where nothing is accessed only its node counts (R135). -/
def bodyAddr (s : State) (r : Req) (near : Bool) (a n : Nat) : State × Option Status :=
  if n = 0 then (s, if (ownAddr s a).isSome then none else some .bounds)
  else match checkGlobal s r a n with
    | (s1, .inr st) => (s1, some st)
    | (s1, .inl l) => if near && !inTierN l n then (s1.count LAKE_DENY, some .bounds) else (s1, none)

/-- The first address of a list that fails, with its number. -/
def firstAddr (r : Req) : List (Nat × Bool × Nat × Nat) → State → State × Option (Nat × Status)
  | [], s => (s, none)
  | (i, near, a, n) :: xs, s => match bodyAddr s r near a n with
    | (s1, some st) => (s1, some (i, st))
    | (s1, none) => firstAddr r xs s1

/-- DISPATCH at t0 (R195). -/
def execDispatch (job : Nat) (s : State) : Host.Outcome State Fault Refusal :=
  match jobOf s job 0x30 .started with
  | none => next s
  | some jb =>
    let q := hIndex (dTarget jb.desc)
    match s.wq q with
    | none => next (finish s job .staleHandle)
    | some x =>
      let r := x.cfg.rec_
      let d := jb.desc
      let t := bn d 399 384
      let logits := bn d 319 256
      if woadBodyOk d = false ∨ (logits = 0 ∧ wRouter r = 0) then next (finish s job .invalidField)
      else
        let tok := if t = 0 then 0 else (t - 1) * rowb (wInFmt r) (wH r) + rowBytes (wInFmt r) (wH r)
        let addrs := [(0, false, bn d 255 192, tok)] ++ (if logits = 0 then [] else [(1, false, logits, 4 * wE r * t)]) ++
          [(2, true, bn d 383 320, 8 * wK r * t)] ++ (if bn d 511 448 = 0 then [] else [(3, true, bn d 511 448, 4 * wE r)])
        let (s1, bad) := firstAddr jb.req addrs s
        let w : WJob := { n := x.next, cfg := x.cfg, job := some job, tokens := t, route := bn d 383 320, counts := bn d 511 448, logits := logits, src := bn d 255 192, refused := bad.map (·.2), v := 0#64, finished := false }
        let s2 := (s1.setJob job { jb with phase := .held, detail := (bad.map (·.1)).getD 0 }).setWq q { x with next := x.next + 1, jobs := x.jobs ++ [w] }
        if t = 0 ∧ bad.isNone = true then
          next ((completeJob s2 job .success 0 (x.next % 2 ^ 32)).setWq q { x with next := x.next + 1, jobs := x.jobs ++ [{ w with job := none, finished := true }] })
        else next s2

/-- Sends a count record to the owner of an expert (R193, R195): the job after it. -/
def sendRecord (s : State) (fn : Nat) (j : WJob) (e : Nat) (x : WExpert) (count : Nat) (aborted : Bool) (keep : Bool) : State × WJob :=
  let r := j.cfg.rec_
  let a := slotAddr r x j.bank (wMyRank r)
  let bs := countRecord r j.bank j.n e count aborted
  let s0 := if count = 0 then s.count WOAD_NOTICES else s
  if x.rank = wMyRank r then
    let w : Work := .job (j.job.getD 0)
    let (s1, st) := agentWrite s0 { req := { fn := fn }, work := w } a bs
    (if st.isNone then { s1 with woad := { s1.woad with notes := s1.woad.notes ++ [⟨fn, w, x.notify, x.ctr, x.tgen, x.ttag⟩] } } else s1,
      { j with failed := if keep ∧ j.failed.isNone then st else j.failed })
  else match j.cfg.ranks[x.rank]? with
    | none => (s0, j)
    | some k =>
      let id := s0.woad.nextSend
      let s1 : State := { s0 with woad := { s0.woad with nextSend := id + 1 } }
      let op := if x.notify = 1 then 2 else if x.notify = 2 then 3 else 1
      let m := noticeWrite (if keep then .woad id else .none) op a k.rkey bs (if x.notify = 0 then 0 else x.ctr) (if x.notify = 2 then x.tgen else 0) (if x.notify = 2 then x.ttag else 0)
      let h := if count = 0 ∧ k.xconn ≠ 0#64 then k.xconn else k.conn
      (postOn s1 fn h m, if keep then { j with sends := j.sends ++ [(id, x.rank)] } else j)

/-- Sends every expert a record with COUNT 0 (R195, R196, R201). -/
def sendZero (s : State) (fn : Nat) (j : WJob) (aborted keep : Bool) : State × WJob :=
  (List.range j.cfg.experts.length).foldl (fun (a : State × WJob) e => match j.cfg.experts[e]? with
    | some x => sendRecord a.1 fn a.2 e x 0 aborted keep
    | none => a) (s, j)

/-- The rows and the record of one expert (R195 t4). `rows` are the token rows it takes, in position order. -/
def sendExpert (s : State) (fn : Nat) (j : WJob) (e : Nat) (x : WExpert) (rows : List (List Byte)) : State × WJob :=
  let r := j.cfg.rec_
  let base := slotAddr r x j.bank (wMyRank r) + 64
  if rows.isEmpty then sendRecord s fn j e x 0 false true
  else if x.rank = wMyRank r then
    let (s1, st) := agentWrite s { req := { fn := fn }, work := .job (j.job.getD 0) } base rows.flatten
    match st with
    | some y => (s1, { j with failed := if j.failed.isNone then some y else j.failed })
    | none => sendRecord s1 fn j e x rows.length false true
  else match j.cfg.ranks[x.rank]? with
    | none => (s, j)
    | some k =>
      let id := s.woad.nextSend
      let s1 : State := { s with woad := { s.woad with nextSend := id + 1 } }
      let s2 := postOn s1 fn k.conn (scatterMsg (.woad id) (piecesOf (mtuOf s1 fn k.conn) k.rkey base rows.flatten) none)
      sendRecord s2 fn { j with sends := j.sends ++ [(id, x.rank)] } e x rows.length false true

/-- What reading its sources gives a job. -/
inductive WSrc where
  | wait
  | fail (st : Status)
  | ok (toks : List (List Val)) (raw : List (List Byte)) (logits : List (List Nat)) (flags : Flags3)

/-- Runs the router's MATMUL on the engine of a firmware cluster, which counts it as one of its jobs (R180, R194); none when no engine is in
service (R201). -/
def routerJob (s : State) (r : BitVec 1024) (toks : List (List Val)) (w : List (List OBlk)) : State × Option Router :=
  match serving s false with
  | (s1, none) => (s1, none)
  | (s1, some c) =>
    let x := routerRun (wH r) (wE r) (tileCols (s1.eng c false)) (if 4 ≤ wRwFmt r then 128 else 32) toks w
    (((s1.count (IND_JOBS c)).count (IND_STEPS c) x.steps).count (IND_SKIP c) x.skipped, some x)

/-- Reads rows that lie at a stride. -/
def rowsOf (bs : List Byte) (stride n t : Nat) : List (List Byte) := (List.range t).map (fun i => slice bs (i * stride) n)

/-- Parts of a row that a poisoned line meets. -/
def rowBad (bad : List (Nat × Nat)) (off n : Nat) : List (Nat × Nat) :=
  bad.filterMap (fun p => if p.1 < off + n ∧ off < p.2 then some (p.1 - off, min p.2 (off + n) - off) else none)

/-- Reads tokens, logits or router weights (R78, R189, R194). -/
def readSources (s : State) (fn : Nat) (j : WJob) : State × WSrc :=
  let r := j.cfg.rec_
  let g : Agent := { req := { fn := fn }, work := .job (j.job.getD 0) }
  let stride := rowb (wInFmt r) (wH r)
  let n := rowBytes (wInFmt r) (wH r)
  match agentRead s g j.src ((j.tokens - 1) * stride + n) with
  | (s1, .wait) => (s1, .wait)
  | (s1, .fail st) => (s1, .fail st)
  | (s1, .ok bs bad) =>
    if !isKbf (wInFmt r) && !bad.isEmpty then (s1, .fail .poisonedData)
    else
      let raw := rowsOf bs stride n j.tokens
      let dec := raw.mapIdx (fun i x => decodeRow (wInFmt r) (wH r) true x (rowBad bad (i * stride) n))
      let toks := dec.map (·.1)
      let fl := dec.foldl (fun f x => f.or x.2) {}
      if j.logits ≠ 0 then
        match agentRead s1 g j.logits (4 * wE r * j.tokens) with
        | (s2, .wait) => (s2, .wait)
        | (s2, .fail st) => (s2, .fail st)
        | (s2, .ok lb lbad) =>
          if !lbad.isEmpty then (s2, .fail .poisonedData)
          else (s2, .ok toks raw ((List.range j.tokens).map (fun t => (List.range (wE r)).map (fun e => leAt lb (4 * (wE r * t + e)) 4))) fl)
      else
        let z := denseSize ((kbfWidth (wRwFmt r)).getD 8)
        let kb := wH r / 32
        match agentRead s1 g (wRouter r) (wE r * kb * z) with
        | (s2, .wait) => (s2, .wait)
        | (s2, .fail st) => (s2, .fail st)
        | (s2, .ok wb wbad) =>
          let blks := (List.range (wE r)).map (fun e => (List.range kb).map (fun b => rowBlock (wRwFmt r) false (slice wb ((e * kb + b) * z) z) (meets wbad ((e * kb + b) * z) z)))
          let wf := blks.flatten.foldl (fun f x => f.or x.2) fl
          match routerJob s2 r toks (blks.map (fun row => row.map (·.1))) with
          | (s3, none) => (s3, .fail .unitFault)
          | (s3, some x) => (s3, .ok toks raw x.logits { wf with sat := wf.sat || x.held })

/-- Encodes the token rows once each (R195): rows with their padding. -/
def encodeTokens (r : BitVec 1024) (toks : List (List Val)) (raw : List (List Byte)) (rs : W64) : List (List Byte) × Bool × W64 :=
  if wWireFmt r = 9 then (raw.map padRow, false, rs)
  else toks.foldl (fun (a : List (List Byte) × Bool × W64) vs =>
    let (bs, sat, rs1) := encodeRow (wWireFmt r) (wRmode r) vs a.2.2
    (a.1 ++ [padRow bs], a.2.1 || sat, rs1)) ([], false, rs)

/-- Ends a job whose sources cannot be read as one refused at t0: the owners get aborted records, RESULT holds the number that it keeps, and
a COMBINE that waits for it finds no such job (R195, R196). -/
def refuseDispatch (s : State) (q fn : Nat) (j : WJob) (st : Status) (detail : Nat) : State :=
  let (s1, j1) := sendZero s fn j true false
  let s2 := applyNotes s1
  let s3 := match j.job with
    | some id => completeJob s2 id st detail (j.n % 2 ^ 32)
    | none => s2
  let s4 := match j.combine with
    | some id => finish s3 id (.cls 0x51)
    | none => s3
  putWjob s4 q { j1 with job := none, combine := none, refused := some st, sent := true, finished := true }

/-- Reads the biases (R189). -/
def readBias (s : State) (fn : Nat) (j : WJob) : State × ReadRes :=
  let r := j.cfg.rec_
  if wBias r = 0 then (s, .ok [] [])
  else agentRead s { req := { fn := fn }, work := .job (j.job.getD 0) } (wBias r) (4 * wE r)

/-- The biases that have been read; none where there is no bias. -/
def biasList (r : BitVec 1024) (bs : List Byte) : List Nat := if wBias r = 0 then [] else (List.range (wE r)).map (fun e => leAt bs (4 * e) 4)

/-- Routes placed are remembered for 1 ms (R204). -/
def noteRate (s : State) (n : Nat) : State :=
  { s with woad := { s.woad with recent := s.woad.recent.filter (fun x => decide (s.now < x.1 + 1000000)) ++ (if n = 0 then [] else [(s.now, n)]) } }

/-- Routes a job and sends its rows and records: t3 and t4 of R195. -/
def runDispatch (s : State) (q fn : Nat) (j : WJob) (toks : List (List Val)) (raw : List (List Byte)) (logits : List (List Nat)) (fl : Flags3)
    (bias : List Nat) : State :=
  let r := j.cfg.rec_
  match codecCluster s with
  | (s1, none) => refuseDispatch s1 q fn j .unitFault 0
  | (s1, some c) =>
    let d0 := s1.freeCtr
    let s2 : State := { s1 with freeCtr := d0 + j.tokens * wE r }
    let pl := (logits.mapIdx (fun t x => (t, x))).foldl (fun p x => routeToken j.cfg p x.2 (fun e l => scoreOf bias (d0 + x.1 * wE r + e) e l)) ({} : Placing)
    let (rows, sat, rs) := encodeTokens r toks raw (s2.cl c).rs
    let s3 := s2.setCl c { s2.cl c with rs := rs }
    let owned := pl.routes.mapIdx (fun i x => (i / wK r, x))
    let rowsOfExp (e : Nat) : List (List Byte) := (owned.filter (fun x => x.2.kind == 1 && x.2.exp == e)).map (fun x => rows.getD x.1 [])
    let spillRows := owned.filter (fun x => x.2.kind == 2)
    let (s4, spillBad) := spillRows.foldl (fun (a : State × Option Status) x =>
      let (s', st) := agentWrite a.1 { req := { fn := fn }, work := .job (j.job.getD 0) } (spillRow r j.bank x.2.pos) (rows.getD x.1 [])
      (s', if a.2.isNone then st else a.2)) (countOdd s3 c fl, none)
    let f : Flags3 := { fl with sat := fl.sat || sat }
    let active := ((List.range (wE r)).filter (fun e => !(rowsOfExp e).isEmpty)).length
    let j1 : WJob := { j with
      sent := true, failed := spillBad, awaited := active + (if pl.spilled = 0 then 0 else 1)
      routes := (pl.routes.map (fun x => leBytes 8 x.entry)).flatten
      countBytes := ((List.range (wE r)).map (fun e => leBytes 4 (mgetD pl.used e 0))).flatten
      unplaced := pl.unplaced, spilled := pl.spilled, rerouted := pl.rerouted
      status := if 0 < pl.unplaced then .partialDone else f.status }
    let (s5, j2) := (List.range (wE r)).foldl (fun (a : State × WJob) e => match j.cfg.experts[e]? with
      | some x => sendExpert a.1 fn a.2 e x (rowsOfExp e)
      | none => a) (s4, j1)
    let s6 := (((s5.count WOAD_ROUTES pl.placed).count WOAD_REROUTED pl.rerouted).count WOAD_SPILLED pl.spilled).count WOAD_DROPPED pl.unplaced
    applyNotes (putWjob (noteRate s6 pl.placed) q j2)

/-- The first job of a queue that may go on from its hold: its J − 2 has retired (R195). -/
def heldJob (s : State) (x : WQueue) : Option WJob :=
  x.jobs.find? (fun j => !j.sent && !x.jobs.any (fun k => k.n + 2 == j.n && !wjobGone s k))

/-- J − 2 has retired, and the first held job goes on: t2 to t4 of R195. While memory answers it goes on later. -/
def execDispatchHoldEnd (queue : Nat) (s : State) : Host.Outcome State Fault Refusal :=
  match s.wq queue with
  | none => next s
  | some x =>
    match heldJob s x with
    | none => next s
    | some j0 =>
      let fn := (s.slot 5 queue).owner
      let r := j0.cfg.rec_
      let j : WJob := { j0 with v := s.ctr (wRetCtr r + j0.bank) }
      match j.refused with
      | some st => next (refuseDispatch s queue fn j st (((j.job.bind (fun id => mget s.vat.jobs id)).map (fun k => k.detail)).getD 0))
      | none =>
        if j.tokens = 0 then
          let (s1, j1) := sendZero s fn j false false
          next (applyNotes (putWjob s1 queue { j1 with sent := true }))
        else match readBias s fn j with
          | (s1, .wait) => next s1
          | (s1, .fail st) => next (refuseDispatch s1 queue fn j st 0)
          | (s1, .ok bb bad) =>
            if !bad.isEmpty then next (refuseDispatch s1 queue fn j .poisonedData 0)
            else match readSources s1 fn j with
              | (s2, .wait) => next s2
              | (s2, .fail st) => next (refuseDispatch s2 queue fn j st 0)
              | (s2, .ok toks raw logits fl) => next (runDispatch s2 queue fn j toks raw logits fl (biasList r bb))

/-- Every count record is visible: ROUTE and COUNTS are written, and DISPATCH completes (R195 t5, R196, R201). -/
def execDispatchDone (queue : Nat) (s : State) : Host.Outcome State Fault Refusal :=
  match s.wq queue with
  | none => next s
  | some x =>
    match x.jobs.find? (fun j => j.sent && !j.finished) with
    | none => next s
    | some j =>
      match j.job with
      | none => next s
      | some id =>
        let fn := (s.slot 5 queue).owner
        if windowBusy s (.job id) || writesOut s (.job id) then next s
        else
          let (s1, out, bad) := takeSends Poster.woad j.sends (applyNotes s)
          let j1 : WJob := { j with sends := out, failed := match j.failed, bad with
            | none, (_, st) :: _ => some st
            | f, _ => f }
          let lostRank := (bad.map (·.1)).head?
          let j2 := match lostRank with
            | some k => { j1 with lost := true, status := .peerLost, rerouted := k }
            | none => j1
          if !out.isEmpty then next (putWjob s1 queue j2)
          else
            let a : Agent := { req := { fn := fn }, work := .job id }
            match agentWrite s1 a j.route j.routes with
            | (s2, some st) => next (putWjob (completeJob s2 id st 0 (j.n % 2 ^ 32)) queue { j2 with job := none, finished := true, failed := some st })
            | (s2, none) =>
              let (s3, st3) := if j.counts = 0 then (s2, none) else agentWrite s2 a j.counts j.countBytes
              let st := match j2.failed, st3 with
                | some f, _ => f
                | none, some f => f
                | none, none => j2.status
              let result := j.n % 2 ^ 32 + at_ 32 (min 65535 j.unplaced) + at_ 48 (min 65535 j.spilled)
              next (putWjob (completeJob s3 id st j2.rerouted result) queue { j2 with job := none, finished := true })

/-! RETURN (R198). -/

/-- Reads the count record of a source in its receive slot; none while accelerator memory has not answered. -/
def readRecords (s : State) (g : Agent) (r : BitVec 1024) (x : WExpert) (b : Nat) : List Nat → State × Option (List (Nat × BitVec 512)) ⊕ Status
  | [] => .inl (s, some [])
  | src :: rest => match agentRead s g (slotAddr r x b src) 64 with
    | (s1, .wait) => .inl (s1, none)
    | (_, .fail st) => .inr st
    | (s1, .ok bs []) => match readRecords s1 g r x b rest with
      | .inr st => .inr st
      | .inl (s2, none) => .inl (s2, none)
      | .inl (s2, some xs) => .inl (s2, some ((src, BitVec.ofNat 512 (leNat bs)) :: xs))
    | (_, .ok _ _) => .inr .poisonedData

/-- Whether a count record is the one that RETURN expects (R198). -/
def recordFits (jobNo e src : Nat) (x : BitVec 512) : Bool := bn x 95 64 == jobNo && bn x 41 32 == e && bn x 27 16 == src

/-- Sends the rows of one source back (R198). -/
def sendReturn (s : State) (fn job : Nat) (c : WCfg) (src : Nat) (x : BitVec 512) (rows : List Byte) (w : WReturn) : State × WReturn :=
  let r := c.rec_
  let addr := bn x 191 128
  let key : W32 := BitVec.ofNat 32 (bn x 127 96)
  if src = wMyRank r then
    let (s1, st) := agentWrite s { req := { fn := fn }, work := .job job } addr rows
    match st with
    | some y => (s1, { w with status := y, detail := src })
    | none =>
      let c := bn x 207 192
      (if s.lake.held.length < s1.lake.held.length then s1.tagHeld s.lake.held.length (some (.job job)) (some (c, fn))
        else if ownsCtr s1 fn c then s1.addCtr c 1#64 else s1, w)
  else match c.ranks[src]? with
    | none => (s, w)
    | some k =>
      let pcs := piecesOf (mtuOf s fn k.conn) key addr rows
      let id := s.woad.nextSend
      let s1 : State := { s with woad := { s.woad with nextSend := id + 2 } }
      let s2 := if pcs.length ≤ 1 then s1 else postOn s1 fn k.conn (scatterMsg (.woad id) pcs.dropLast none)
      match pcs.getLast? with
      | none => (s2, w)
      | some p => (postOn s2 fn k.conn (noticeWrite (.woad (id + 1)) 2 p.addr key p.data (bn x 207 192) 0 0),
          { w with sends := w.sends ++ (if pcs.length ≤ 1 then [] else [(id, src)]) ++ [(id + 1, src)] })

/-- RETURN (R198): its records are read, its rows encoded and sent, under the configuration in force when Woad took it (R188). While accelerator memory answers, it goes on later. -/
def execReturnRows (job : Nat) (s : State) : Host.Outcome State Fault Refusal :=
  match mget s.vat.jobs job with
  | none => next s
  | some jb =>
    if dOpcode jb.desc ≠ 0x32 ∨ (jb.phase ≠ .started ∧ jb.phase ≠ .gathering) then next s
    else
      let d := jb.desc
      let e := bn d 297 288
      let jobNo := bn d 287 256
      let yf := bn d 303 300
      let ys := bn d 351 320
      match s.wq (hIndex (dTarget d)) with
      | none => next (finish s job .staleHandle)
      | some q =>
        let cfg := mgetD s.woad.retCfg job q.cfg
        let r := cfg.rec_
        match cfg.experts[e]? with
        | none => next (finish s job .invalidField)
        | some x =>
          if woadBodyOk d = false ∨ x.rank ≠ wMyRank r ∨ ys < rowBytes yf (wH r) then next (finish s job .invalidField)
          else
            let g : Agent := { req := jb.req, work := .job job }
            let sj := s.setJob job { jb with phase := .gathering }
            let s0 : State := { sj with woad := { sj.woad with retCfg := mset sj.woad.retCfg job cfg } }
            match readRecords s0 g r x (jobNo % 2) (List.range (wRanks r)) with
            | .inr st => next (finish s0 job st)
            | .inl (s1, none) => next s1
            | .inl (s1, some recs) =>
              let good := recs.filter (fun p => recordFits jobNo e p.1 p.2)
              let skipped := recs.filter (fun p => !recordFits jobNo e p.1 p.2)
              let live := good.filter (fun p => bn p.2 15 0 != 0 && !bt p.2 28)
              let n := (live.map (fun p => bn p.2 15 0)).sum
              let len := if n = 0 then 0 else (n - 1) * ys + rowBytes yf (wH r)
              match agentRead s1 g (bn d 255 192) len with
              | (s2, .wait) => next s2
              | (s2, .fail st) => next (finish s2 job st)
              | (s2, .ok bs bad) =>
                if !isKbf yf && !bad.isEmpty then next (finish s2 job .poisonedData)
                else match codecCluster s2 with
                  | (s3, none) => next (finish s3 job .unitFault)
                  | (s3, some c) =>
                    let dec := (List.range n).map (fun i => decodeRow yf (wH r) false (slice bs (i * ys) (rowBytes yf (wH r))) (rowBad bad (i * ys) (rowBytes yf (wH r))))
                    let enc := (dec.mapIdx (fun i v => (i, v))).foldl (fun (a : List (List Byte) × Bool × W64) v =>
                      let (b, sat, rs1) := if wRetFmt r = 9 ∧ 8 ≤ yf then let (b, sat) := rowBf16 yf (wH r) (slice bs (v.1 * ys) (rowBytes yf (wH r))); (b, sat, a.2.2)
                        else encodeRow (wRetFmt r) (wRmode r) v.2.1 a.2.2
                      (a.1 ++ [padRow b], a.2.1 || sat, rs1)) ([], false, (s3.cl c).rs)
                    let fl : Flags3 := dec.foldl (fun f v => f.or v.2) { sat := enc.2.1 }
                    let s4 := countOdd ((s3.setCl c { s3.cl c with rs := enc.2.2 }).count WOAD_MISMATCH skipped.length) c fl
                    let w0 : WReturn := match skipped with
                      | p :: _ => ⟨job, [], n, .cls 0x50, p.1⟩
                      | [] => ⟨job, [], n, fl.status, 0⟩
                    let (s5, w, _) := live.foldl (fun (a : State × WReturn × Nat) p =>
                      let k := bn p.2 15 0
                      let (s', w') := sendReturn a.1 jb.fn job cfg p.1 p.2 ((enc.1.drop a.2.2).take k).flatten a.2.1
                      (s', w', a.2.2 + k)) (s4, w0, 0)
                    let s6 := s5.setJob job { jb with phase := .running }
                    next { s6 with woad := { s6.woad with returns := s6.woad.returns ++ [w], retCfg := mdel s6.woad.retCfg job } }

/-- Every return write is visible, and RETURN completes (R198, R201). -/
def execReturnDone (job : Nat) (s : State) : Host.Outcome State Fault Refusal :=
  match s.woad.returns.find? (fun w => w.job == job) with
  | none => next s
  | some w =>
    let (s1, out, bad) := takeSends Poster.woad w.sends s
    let w1 : WReturn := match bad with
      | (k, _) :: _ => { w with sends := out, status := .peerLost, detail := k }
      | [] => { w with sends := out }
    let rest := s1.woad.returns.filter (fun x => x.job != job)
    if !out.isEmpty || windowBusy s1 (.job job) || writesOut s1 (.job job) then next { s1 with woad := { s1.woad with returns := w1 :: rest } }
    else next (completeJob { s1 with woad := { s1.woad with returns := rest } } job w1.status w1.detail w1.rows)

/-! COMBINE (R199, R200). -/

/-- Ends the COMBINE of a job. It is retired once the COMBINE has completed, which may wait for the window writes of OUT (R200). -/
def endCombine (s : State) (q : Nat) (j : WJob) (st : Status) (result : Nat) : State :=
  match j.combine with
  | none => s
  | some id => putWjob (completeJob s id st 0 result) q { j with combined := true }

/-- COMBINE is posted for a job that has been dispatched and not yet combined (R199). -/
def execCombine (job : Nat) (s : State) : Host.Outcome State Fault Refusal :=
  match jobOf s job 0x31 .started with
  | none => next s
  | some jb =>
    let q := hIndex (dTarget jb.desc)
    if !woadBodyOk jb.desc then next (finish s job .invalidField)
    else match (s.wq q).bind (fun x => x.jobs.find? (fun j => j.n % 2 ^ 32 == bn jb.desc 287 256 && j.refused.isNone && j.combine.isNone && !j.combined)) with
      | none => next (finish s job (.cls 0x51))
      | some j =>
        let j1 : WJob := { j with combine := some job }
        let s1 := putWjob (s.setJob job { jb with phase := .held }) q j1
        if j.tokens = 0 ∧ j.finished = true then next (endCombine s1 q j1 .success 0)
        else if j.late && !j.lost then next (endCombine s1 q j1 .remoteTimeout 0)
        else next s1

/-- One token of the combined tile (R199): its binary32 elements. -/
def combineToken (renorm : Bool) (h : Nat) (rows : List (Nat × List Nat)) : List Nat :=
  let den := rows.foldl (fun d x => f32.add d x.1) 0
  let dead := renorm && f32.eq den 0
  if dead then List.replicate h 0
  else rows.foldl (fun acc x =>
    let w := if renorm then f32.div x.1 den else x.1
    List.zipWith (fun a y => f32.add a (f32.mul w y)) acc x.2) (List.replicate h 0)

/-- A return row as binary32, exactly (R64, R199): a bfloat16 row keeps its infinities and signs. -/
def returnVals (r : BitVec 1024) (bs : List Byte) (vs : List Val) : List Nat :=
  if wRetFmt r = 9 then (List.range (wH r)).map (fun i => bf16.convert f32 (leAt bs (2 * i) 2)) else vs.map valF32

/-- Reads the return rows of a token's placed choices (R199): gate and decoded row, with the flags; or the failing status, or the address
that memory has not answered for. -/
def combineRows (g : Agent) (r : BitVec 1024) (b : Nat) : List Nat → State → State × (List (Nat × List Nat) × Flags3 ⊕ (Status ⊕ Nat))
  | [], s => (s, .inl ([], {}))
  | en :: es, s =>
    if en % 65536 = 65535 then combineRows g r b es s
    else
      let spill := en.testBit 15
      let pos := en / 65536 % 65536
      let a := if spill then retRow r b (wE r) pos else retRow r b (en % 1024) pos
      match agentRead s g a (rowBytes (wRetFmt r) (wH r)) with
      | (s1, .wait) => (s1, .inr (.inr a))
      | (s1, .fail st) => (s1, .inr (.inl st))
      | (s1, .ok bs bad) =>
        if !isKbf (wRetFmt r) && !bad.isEmpty then (s1, .inr (.inl .poisonedData))
        else
          let (vs, f) := decodeRow (wRetFmt r) (wH r) false bs bad
          match combineRows g r b es s1 with
          | (s2, .inr st) => (s2, .inr st)
          | (s2, .inl (rest, f2)) => (s2, .inl ((en / 2 ^ 32, returnVals r bs vs) :: rest, f.or f2))

/-- Encodes a row of the tile (R199). -/
def tileRow (r : BitVec 1024) (xs : List Nat) (rs : W64) : List Byte × Bool × W64 :=
  if wOutFmt r = 8 then ((xs.map (leBytes 4)).flatten, false, rs)
  else if wOutFmt r = 9 then ((xs.map (fun x => leBytes 2 (f32.convert bf16 x))).flatten, false, rs)
  else encodeRow (wOutFmt r) (wRmode r) (xs.map (floatVal f32)) rs

/-- Progress of a combine over its tokens. -/
structure Tile where
  s : State
  rs : W64
  out : List Byte := []
  fl : Flags3 := {}
  stop : Option Status := none
  /-- Memory has not answered for this address yet. -/
  wait : Option Nat := none

/-- One token of the tile. -/
def tileToken (g : Agent) (r : BitVec 1024) (b : Nat) (entries : List Nat) (t : Tile) : Tile :=
  if t.stop.isSome || t.wait.isSome then t
  else match combineRows g r b entries t.s with
    | (s1, .inr (.inl st)) => { t with s := s1, stop := some st }
    | (s1, .inr (.inr a)) => { t with s := s1, wait := some a }
    | (s1, .inl (rows, f)) =>
      let (bs, sat, rs1) := tileRow r (combineToken (wRenorm r) (wH r) rows) t.rs
      { t with s := s1, rs := rs1, out := t.out ++ padRow bs, fl := t.fl.or { f with sat := f.sat || sat } }

/-- The return counter has reached its target, and the combine runs (R199). -/
def execCombineStart (queue : Nat) (s : State) : Host.Outcome State Fault Refusal :=
  match s.wq queue with
  | none => next s
  | some x =>
    let fits (j : WJob) : Bool := j.combine.isSome && !j.combined && j.finished && (j.lost || j.tokens == 0 || ctrReached (s.ctr (wRetCtr j.cfg.rec_ + j.bank)) (j.v + BitVec.ofNat 64 j.awaited))
    match x.jobs.find? fits with
    | none => next s
    | some j =>
      match j.combine.bind (fun id => (mget s.vat.jobs id).map (fun jb => (id, jb))) with
      | none => next s
      | some (id, jb) =>
        let r := j.cfg.rec_
        if j.lost then next (endCombine s queue j .peerLost 0)
        else if j.tokens = 0 then next (endCombine s queue j .success 0)
        else
          let g : Agent := { req := jb.req, work := .job id }
          match agentRead s g j.route (8 * wK r * j.tokens) with
          | (s1, .ok bs []) => match codecCluster s1 with
            | (s2, none) => next (endCombine s2 queue j .unitFault 0)
            | (s2, some c) =>
              let t := (List.range j.tokens).foldl (fun t i => tileToken g r j.bank ((List.range (wK r)).map (fun k => leAt bs (8 * (wK r * i + k)) 8)) t) { s := s2, rs := (s2.cl c).rs }
              match t.stop, t.wait with
              | some st, _ => next (endCombine t.s queue j st 0)
              | none, some a => next (agentRead s1 g a (rowBytes (wRetFmt r) (wH r))).1
              | none, none =>
                let s3 := countOdd (t.s.setCl c { t.s.cl c with rs := t.rs }) c t.fl
                match agentWriteN s3 g (bn jb.desc 255 192) t.out with
                | (s4, some st, _) => next (endCombine s4 queue j st 0)
                | (s4, none, lost) => next (endCombine s4 queue j (if lost = 0 then t.fl.status else .poisonedData) (t.out.length - lost))
          | (s1, .ok _ _) => next (endCombine s1 queue j .poisonedData 0)
          | (s1, .fail st) => next (endCombine s1 queue j st 0)
          | (s1, .wait) => next s1

/-- CTIMEOUT passes after a DISPATCH without its returns (R200). -/
def execCombineTimeout (queue : Nat) (s : State) : Host.Outcome State Fault Refusal :=
  match s.wq queue with
  | none => next s
  | some x =>
    let due (j : WJob) : Bool := j.finished && !j.combined && !j.late && !j.lost && j.refused.isNone && wTimeout j.cfg.rec_ != 0 &&
      !ctrReached (s.ctr (wRetCtr j.cfg.rec_ + j.bank)) (j.v + BitVec.ofNat 64 j.awaited)
    match x.jobs.find? due with
    | none => next s
    | some j => next (match j.combine with
      | some _ => endCombine s queue j .remoteTimeout 0
      | none => putWjob s queue { j with late := true })

end Sys2Proof.Machine
end

