-- ==== Sys2Proof/Machine/Blend.lean ====
section
/-! DEFINITION. Blend: reduction groups, collectives and their notices (R205 to R227). -/

namespace Sys2Proof.Machine

open Sys2Proof

def State.bg (s : State) (i : Nat) : Option BGroup := mget s.blend.groups i
def State.setBg (s : State) (i : Nat) (x : BGroup) : State := { s with blend := { s.blend with groups := mset s.blend.groups i x } }

/-- Fields of the configuration record (R206). -/
def bMemtab (r : BitVec 1024) : Nat := bn r 63 0
def bStage (r : BitVec 1024) : Nat := bn r 127 64
def bRes (r : BitVec 1024) : Nat := bn r 191 128
def bG (r : BitVec 1024) : Nat := bn r 207 192
def bRank (r : BitVec 1024) : Nat := bn r 223 208
def bAlgo (r : BitVec 1024) : Nat := bn r 225 224
def bG1 (r : BitVec 1024) : Nat := bn r 234 226
def bCfmt (r : BitVec 1024) : Nat := bn r 243 240
def bPfmt (r : BitVec 1024) : Nat := bn r 247 244
def bGfmt (r : BitVec 1024) : Nat := bn r 251 248
def bRmode (r : BitVec 1024) : RMode := RMode.ofCode (bn r 253 252)
def bEf (r : BitVec 1024) : Bool := bt r 254
def bSeg (r : BitVec 1024) : Nat := 512 * 2 ^ bn r 257 256
def bTimeout (r : BitVec 1024) : Nat := bn r 287 272
def bMaxn (r : BitVec 1024) : Nat := bn r 319 288
def bGid (r : BitVec 1024) : Nat := bn r 335 320
def bGen (r : BitVec 1024) : Nat := bn r 347 336

/-- The hierarchical algorithm is in force (R208). -/
def bHier (r : BitVec 1024) : Bool := bAlgo r == 2 || (bAlgo r == 0 && decide (256 < bG r))
def bG2 (r : BitVec 1024) : Nat := bG r / max 1 (bG1 r)
/-- Subgroup number a and position p of a rank (R207). -/
def bSub (r : BitVec 1024) (k : Nat) : Nat := k / max 1 (bG1 r)
def bPos (r : BitVec 1024) (k : Nat) : Nat := k % max 1 (bG1 r)

/-- A partner of this member (R207). -/
def bPartner (r : BitVec 1024) (k : Nat) : Bool :=
  k != bRank r && decide (k < bG r) && (!bHier r || bSub r k == bSub r (bRank r) || bPos r k == bPos r (bRank r))
def bPartners (r : BitVec 1024) : List Nat := (List.range (bG r)).filter (bPartner r)

/-- MB, SB, SB1 and SB2 (R213). -/
def bMB (r : BitVec 1024) : Nat := cdiv (bMaxn r) 32
def bSB (r : BitVec 1024) : Nat := cdiv (bMB r) (bG r)
def bSB1 (r : BitVec 1024) : Nat := if bHier r then cdiv (bMB r) (bG1 r) else 0
def bSB2 (r : BitVec 1024) : Nat := cdiv (bSB1 r) (bG2 r)

/-- Format, shard blocks at most, and slots of a phase (R213, R266). -/
def phFmt (r : BitVec 1024) (ph : Nat) : Nat := if ph = 0 ∨ ph = 2 then bCfmt r else if ph = 3 then bPfmt r else bGfmt r
def phMax (r : BitVec 1024) (ph : Nat) : Nat := if ph ≤ 1 then bSB r else if ph = 2 ∨ ph = 5 then bSB1 r else bSB2 r
def phCount (r : BitVec 1024) (ph : Nat) : Nat := if ph ≤ 1 then bG r else if ph = 2 ∨ ph = 5 then bG1 r else bG2 r

/-- s(F), and the bytes of a slot (R213). -/
def blkBytes (f : Nat) : Nat := denseSize ((kbfWidth f).getD 8)
def mapBytes (n : Nat) : Nat := 64 * cdiv n 512
def bSlot (f n : Nat) : Nat := mapBytes n + 64 * cdiv (n * blkBytes f) 64
def phSlot (r : BitVec 1024) (ph : Nat) : Nat := bSlot (phFmt r ph) (phMax r ph)

/-- The phases that have a part in the staging area, in order (R213). -/
def bPhases (r : BitVec 1024) : List Nat := if bHier r then [2, 3, 4, 5] else [0, 1]
def partOff (r : BitVec 1024) (ph : Nat) : Nat := (((bPhases r).filter (fun x => decide (x < ph))).map (fun x => phCount r x * phSlot r x)).sum
def bBank (r : BitVec 1024) : Nat := ((bPhases r).map (fun x => phCount r x * phSlot r x)).sum

/-- Offset of a slot in a staging area (R213). -/
def slotOff (r : BitVec 1024) (bank ph slot : Nat) : Nat := bank * bBank r + partOff r ph + slot * phSlot r ph

/-- RESB, and the offset of block residuals: of the C, P or O stage (R214). -/
def bResb (r : BitVec 1024) : Nat := 128 * (bMB r + bSB1 r + (if bHier r then bSB2 r else bSB r))
def resOff (r : BitVec 1024) (stage blk : Nat) : Nat := 128 * ((if stage = 0 then 0 else if stage = 1 then bMB r else bMB r + bSB1 r) + blk)

/-- Range of blocks of a shard, a level-1 shard, a sub-shard (R211). -/
def cut (lo n k parts : Nat) : Nat × Nat := (lo + k * n / parts, lo + (k + 1) * n / parts)
def l1Range (r : BitVec 1024) (b p : Nat) : Nat × Nat := cut 0 b p (max 1 (bG1 r))
def subRange (r : BitVec 1024) (b p a : Nat) : Nat × Nat := let (lo, hi) := l1Range r b p; cut lo (hi - lo) a (max 1 (bG2 r))

/-- The blocks that a slot of a phase holds at a rank (R211, R212). -/
def slotRange (r : BitVec 1024) (b rank ph slot : Nat) : Nat × Nat :=
  if ph = 0 then cut 0 b rank (bG r)
  else if ph = 1 then cut 0 b slot (bG r)
  else if ph = 2 then l1Range r b (bPos r rank)
  else if ph = 3 then subRange r b (bPos r rank) (bSub r rank)
  else if ph = 4 then subRange r b (bPos r rank) slot
  else l1Range r b slot

/-- The slot index of a rank as a source (R213). -/
def mySlot (r : BitVec 1024) (rank ph : Nat) : Nat := if ph ≤ 1 then rank else if ph = 2 ∨ ph = 5 then bPos r rank else bSub r rank

/-- The ranks to which a phase sends, this one among them (R212). -/
def phTargets (r : BitVec 1024) (ph : Nat) : List Nat :=
  let me := bRank r
  if ph ≤ 1 then List.range (bG r)
  else if ph = 2 ∨ ph = 5 then (List.range (bG1 r)).map (fun p => bSub r me * bG1 r + p)
  else (List.range (bG2 r)).map (fun a => a * bG1 r + bPos r me)

/-- Segments of a shard of `n` blocks: an empty shard has one (R216). -/
def segCount (r : BitVec 1024) (n : Nat) : Nat := max 1 (cdiv n (bSeg r))

def ownRange (r : BitVec 1024) (b : Nat) : Nat × Nat := slotRange r b (bRank r) (if bHier r then 3 else 0) 0

/-! Configuration (R205 to R209). -/

def bRecordOk (r : BitVec 1024) : Bool :=
  reservedZero r [(239, 235), (255, 255), (271, 258), (1023, 348)] && decide (1 ≤ bG r) && decide (bG r ≤ 32768) && decide (bRank r < bG r) &&
    bAlgo r != 3 && isKbf (bCfmt r) && isKbf (bGfmt r) && decide (1 ≤ bMaxn r) && bGid r != 0 && bStage r % 64 == 0 && bRes r % 64 == 0 &&
    (bEf r || bRes r == 0) && (bAlgo r != 1 || decide (bG r ≤ 1024)) &&
    (if bHier r then isKbf (bPfmt r) && decide (2 ≤ bG1 r) && decide (bG1 r ≤ 256) && bG r % bG1 r == 0 && decide (bG2 r ≤ 256)
     else bPfmt r == 0 && bG1 r == 0)

def readMember (x : BitVec 256) : BMember := ⟨BitVec.ofNat 64 (bn x 63 0), BitVec.ofNat 64 (bn x 127 64), bn x 191 128, BitVec.ofNat 32 (bn x 223 192), bn x 239 224⟩

/-- The conditions of R207 and R208 on a table entry. -/
def memberOk (s : State) (fn : Nat) (r : BitVec 1024) (i : Nat) (x : BitVec 256) : Bool :=
  let m := readMember x
  zeroBits x 255 240 && (decide (m.node = s.fab.node) == decide (i = bRank r)) &&
    (if i = bRank r then m.conn == 0#64
     else (m.conn != 0#64 || !bPartner r i) && (m.conn == 0#64 || connFits s fn m.conn m.node (fun _ => true))) &&
    (m.xconn == 0#64 || connFits s fn m.xconn m.node (· == 0))

/-- STAGE and RES pass R88 for the function (R208). -/
def areasOk (s : State) (q : Req) (r : BitVec 1024) : Bool :=
  let ok (a n : Nat) : Bool := match ownAddr s a with
    | some l => inTierN l n && (lakeCheck s q l n).isNone
    | none => false
  ok (bStage r) (2 * bBank r) && (!bEf r || ok (bRes r) (2 * bResb r))

/-- Reads and checks a configuration: it, or DETAIL (R205, R208). `self` is the group that changes. -/
def loadBcfg (s : State) (q : Req) (self : Option Nat) (cfg : Nat) : State × (BCfg ⊕ Nat) :=
  match readCfg s q cfg 128 with
  | (s1, none) => (s1, .inr 0)
  | (s1, some bs) =>
    let r : BitVec 1024 := BitVec.ofNat 1024 (leNat bs)
    let twin := s1.blend.groups.any (fun g => some g.1 != self && (s1.slot 6 g.1).owner == q.fn && bGid g.2.cfg.rec_ == bGid r)
    if !bRecordOk r || twin || !areasOk s1 q r then (s1, .inr 0)
    else match readTable s1 q (bMemtab r) (bG r) with
      | (s2, .inr i) => (s2, .inr (at_ 30 1 + i))
      | (s2, .inl tbs) =>
        let ts := entries32 tbs (bG r)
        match firstBad (memberOk s2 q.fn r) ts with
        | some i => (s2, .inr (at_ 30 1 + i))
        | none => (s2, .inl ⟨r, ts.map readMember⟩)

/-- Zeroes residuals: all of both banks, or all but those of the C stage (R205, R209). -/
def zeroRes (s : State) (r : BitVec 1024) (keepC : Bool) : State :=
  if !bEf r then s
  else match ownAddr s (bRes r) with
    | none => s
    | some a =>
      let from_ := if keepC then 128 * bMB r else 0
      let n := bResb r - from_
      (lakeWrite (lakeWrite s (a + from_) (List.replicate n 0#8)).1 (a + bResb r + from_) (List.replicate n 0#8)).1

/-- CH_CREATE of a reduction group (R205, R208). -/
def execChCreateReductionGroup (pair : MboxId) (blk : CmdBlock) (s : State) : Host.Outcome State Fault Refusal :=
  next (chCommand 0x010 [6] pair blk (fun s c b =>
    if !createWord b 6 || !zeroBits (params b) 255 64 then refuse s .invalidField
    else match loadBcfg s c.req none (bn (params b) 63 0) with
      | (s1, .inr d) => (s1, some { status := .invalidField, detail := d })
      | (s1, .inl cfg) => createIn s1 c 6 (fun _ => true) 1 (fun s i => .inr (zeroRes (s.setBg i { cfg := cfg }) cfg.rec_ false, { status := .success }))) s)

/-- Moves the C residuals to where a changed layout has them (R209). -/
def moveRes (s : State) (old new : BitVec 1024) : State :=
  if !(bEf old && bEf new) then s
  else match ownAddr s (bRes old), ownAddr s (bRes new) with
    | some a, some b =>
      let n := 128 * min (bMB old) (bMB new)
      let (s1, x0, _) := lakeRead s a n
      let (s2, x1, _) := lakeRead s1 (a + bResb old) n
      (lakeWrite (lakeWrite s2 b x0).1 (b + bResb new) x1).1
    | _, _ => s

/-- CH_MODIFY of a reduction group (R209): refused with busy while an operation is accepted here. -/
def execChModifyReductionGroup (pair : MboxId) (blk : CmdBlock) (s : State) : Host.Outcome State Fault Refusal :=
  next (chCommand 0x012 [6] pair blk (fun s c b =>
    match bodyHandle s c [6] b with
    | .inr st => refuse s st
    | .inl i => match s.bg i with
      | none => refuse s .staleHandle
      | some g =>
        if !bodyReserved b [] 320 || !zeroBits (params b) 255 64 then refuse s .invalidField
        else match loadBcfg s { fn := (s.slot 6 i).owner } (some i) (bn (params b) 63 0) with
          | (s1, .inr d) => (s1, some { status := .invalidField, detail := d })
          | (s1, .inl cfg) =>
            let old := g.cfg.rec_
            let r := cfg.rec_
            if bGid r ≠ bGid old ∨ bGen r = bGen old then (s1, some { status := .invalidField })
            else if !g.ops.isEmpty then refuse s1 .busy
            else
              let s2 := if bG r ≠ bG old ∨ bG1 r ≠ bG1 old ∨ bAlgo r ≠ bAlgo old then zeroRes (moveRes s1 old r) r true else s1
              accept (s2.setBg i { cfg := cfg, bank := g.bank })) s)

/-! Notices and messages (R216, R266). -/

/-- A notice of this member. -/
def mkNotice (r : BitVec 1024) (kind opc ph slot j n seg arank : Nat) : BitVec 256 :=
  BitVec.ofNat 256 (at_ 252 kind + at_ 240 opc + at_ 224 (bGid r) + at_ 212 (bGen r) + at_ 209 ph + at_ 192 slot + at_ 160 (j % 2 ^ 32) +
    at_ 128 n + at_ 96 seg + at_ 80 (bRank r) + at_ 64 arank)

/-- Sends a notice without data to a rank, on XCONN where there is one (R216). -/
def sendNotice (s : State) (fn : Nat) (g : BGroup) (rank : Nat) (n : BitVec 256) : State :=
  match g.cfg.members[rank]? with
  | none => s
  | some m => postOn s fn (if m.xconn = 0#64 then m.conn else m.xconn) (scatterMsg .none [] (some n))

/-- Joins pieces that lie one after the other, up to an MTU. -/
def joinPieces (mtu : Nat) : List Piece → List Piece
  | [] => []
  | p :: ps => match joinPieces mtu ps with
    | [] => [p]
    | q :: qs => if p.addr + p.data.length = q.addr ∧ p.data.length + q.data.length ≤ mtu then ⟨p.addr, p.rkey, p.data ++ q.data⟩ :: qs else p :: q :: qs

/-- The map bytes of a segment: bit k of a byte is its block (R213, R216). -/
def segMap (r : BitVec 1024) (ph seg : Nat) (blks : List (List Byte)) : List Byte :=
  let n := min (bSeg r / 8) (mapBytes (phMax r ph) - seg * (bSeg r / 8))
  leBytes n ((blks.mapIdx (fun i x => if x.isEmpty then 0 else 2 ^ i)).sum)

/-- Map and blocks of a segment as writes into a slot that begins at an address (R216). -/
def segWrites (r : BitVec 1024) (ph base seg : Nat) (blks : List (List Byte)) : List (Nat × List Byte) :=
  let data := base + mapBytes (phMax r ph)
  (if blks.isEmpty then [] else [(base + seg * (bSeg r / 8), segMap r ph seg blks)]) ++
    ((blks.mapIdx (fun i x => (data + (seg * bSeg r + i) * blkBytes (phFmt r ph), x))).filter (fun p => !p.2.isEmpty))

/-- The agent of an operation. -/
def bAgent (fn job : Nat) : Agent := { req := { fn := fn }, work := .job job }

/-- Updates an operation of a group. -/
def putOp (s : State) (gi : Nat) (op : BOp) : State :=
  match s.bg gi with
  | none => s
  | some g => s.setBg gi { g with ops := g.ops.map (fun x => if x.j = op.j then op else x) }

/-- Records an arrived segment (R216). -/
def BOp.arrive (op : BOp) (ph slot seg : Nat) : BOp := if op.got.contains (ph, slot, seg) then op else { op with got := op.got ++ [(ph, slot, seg)] }

/-- Gives a segment to one target of a phase: by Carmine, or into the own slot (R213, R216). -/
def giveSegment (s : State) (fn gi : Nat) (op : BOp) (ph target seg : Nat) (blks : List (List Byte)) : State × BOp :=
  match s.bg gi with
  | none => (s, op)
  | some g =>
    let r := g.cfg.rec_
    let slot := mySlot r (bRank r) ph
    match g.cfg.members[target]? with
    | none => (s, op)
    | some m =>
      let base := (if target = bRank r then bStage r else m.stage) + slotOff r (op.j % 2) ph slot
      let ws := segWrites r ph base seg blks
      if target = bRank r then
        let s1 := ws.foldl (fun s w => (agentWrite s (bAgent fn op.job) w.1 w.2).1) s
        (s1, op.arrive ph slot seg)
      else
        let mtu := mtuOf s fn m.conn
        let pcs := (joinPieces mtu (ws.map (fun w => ⟨w.1, m.skey, w.2⟩))).flatMap (fun p => piecesOf mtu p.rkey p.addr p.data)
        (postOn s fn m.conn (scatterMsg .none pcs (some (mkNotice r 1 op.opc ph slot op.j op.n seg 0))), op)

/-- Gives the blocks of a slot range to a target, segment by segment (R216). -/
def giveRange (fn gi ph target : Nat) (blks : List (List Byte)) (segs : List Nat) (a : State × BOp) : State × BOp :=
  segs.foldl (fun a k => match a.1.bg gi with
    | none => a
    | some g => let n := bSeg g.cfg.rec_; giveSegment a.1 fn gi a.2 ph target k ((blks.drop (n * k)).take n)) a

/-! Encoding (R217, R218). -/

/-- `round32(v + r)` (R217). -/
def efAdd (v : Val) (r : Nat) : Nat := match v, floatVal f32 r with
  | some x, some y => f32.round (x.add y)
  | _, _ => f32.nan

/-- Encodes one block of a stage, with its residuals when EF = 1: an empty list is an absent block (R217, R218). -/
def stageEncode (s : State) (fn c : Nat) (r : BitVec 1024) (op : BOp) (stage fmt blk : Nat) (vs : List Val) (held : Bool) : State × BOp × List Byte :=
  let g := bAgent fn op.job
  let at0 := bRes r + op.beta * bResb r + resOff r stage blk
  let at1 := bRes r + (1 - op.beta) * bResb r + resOff r stage blk
  let ef := bEf r && op.opc != 0x42
  let (s1, ys, bad) : State × List Nat × Bool :=
    if !ef then (s, [], false)
    else match agentRead s g at0 128 with
      | (s1, .ok bs b) => (s1, vs.mapIdx (fun i v => efAdd (if b.isEmpty then v else none) (leAt bs (4 * i) 4)), !b.isEmpty)
      | (s1, _) => (s1, vs.map (fun v => efAdd v 0), false)
  let xs := if ef then ys.map (floatVal f32) else vs
  let (e, rs) := encodeBlock fmt ((kbfWidth fmt).getD 8) 0 (bRmode r) held xs (s1.cl c).rs
  let s2 := s1.setCl c { s1.cl c with rs := rs }
  let s3 := if ef then (agentWrite s2 g at1 ((List.zipWith (fun y v => leBytes 4 (efResidual y v)) ys e.vals).flatten)).1 else s2
  (s3, { op with pois := op.pois || bad }, if hZero e.hdr then [] else writeBlock e)

/-- Near memory that an operation reads as it goes on, STAGE and RES, waits for its region (R23). -/
def areasWait (s : State) (r : BitVec 1024) : Bool :=
  nearWaits s (bStage r) (2 * bBank r) || (bEf r && nearWaits s (bRes r) (2 * bResb r))

/-- A staged block whose FMT is reserved is counted on a codec that serves (R50). -/
def countOddAny (s : State) : State :=
  match codecCluster s with
  | (s1, some c) => s1.trouble (engUnit c true) .ue
  | (s1, none) => s1

/-- A block is dense and of one format, so that its bytes can be copied (R219). -/
def plainBlock (fmt : Nat) (bs : List Byte) : Bool := let h : W16 := BitVec.ofNat 16 (leAt bs 0 2); hFmt h == fmt && !hSparse h

/-- A block of a staging area, taken as its own header says (R47); the bytes are empty where it reads as 32 markers (R50, R78). -/
def stagedBlock (s : State) (g : Agent) (a : Nat) : State × Option (OBlk × List Byte) × Flags3 :=
  match agentRead s g a 6 with
  | (s1, .ok h []) => match agentRead s1 g a (blockSize (BitVec.ofNat 16 (leAt h 0 2)) (leAt h 2 4)) with
    | (s2, .ok bs []) =>
      let b := readBlock bs
      if b.malformed then (countOddAny s2, some (markerBlk, []), { malf := true })
      else (s2, some (⟨b.codes, hScale b.hdr b.w, hZero b.hdr⟩, bs), {})
    | (s2, .ok _ _) => (s2, some (markerBlk, []), { pois := true })
    | (s2, _) => (s2, none, {})
  | (s1, .ok _ _) => (s1, some (markerBlk, []), { pois := true })
  | (s1, _) => (s1, none, {})

/-- Reads block `k` of a slot of the own staging area: none is absent; a poisoned line reads as 32 markers (R218, R219). -/
def readStaged (s : State) (fn : Nat) (r : BitVec 1024) (op : BOp) (ph slot k : Nat) : State × Option (OBlk × List Byte) × Flags3 :=
  let g := bAgent fn op.job
  let base := bStage r + slotOff r (op.j % 2) ph slot
  let f := phFmt r ph
  match agentRead s g (base + k / 8) 1 with
  | (s1, .ok _ (_ :: _)) => (s1, some (markerBlk, []), { pois := true })
  | (s1, .ok [b] []) =>
    if !b.getLsbD (k % 8) then (s1, none, {})
    else stagedBlock s1 g (base + mapBytes (phMax r ph) + k * blkBytes f)
  | (s1, _) => (s1, none, {})

def BOp.flag (op : BOp) (f : Flags3) : BOp := { op with pois := op.pois || f.pois, malf := op.malf || f.malf, sat := op.sat || f.sat }

/-- Adds one block over its sources in the order of arrival (R216, R218, R219). -/
def addBlock (fn : Nat) (r : BitVec 1024) (ph k : Nat) (slots : List Nat) (s : State) (op : BOp) : State × BOp × Acc × Nat :=
  slots.foldl (fun (a : State × BOp × Acc × Nat) slot =>
    let (s1, o, f) := readStaged a.1 fn r a.2.1 ph slot k
    match o with
    | none => (s1, a.2.1.flag f, a.2.2.1, a.2.2.2)
    | some (b, _) => (s1, a.2.1.flag f, a.2.2.1.add b.t 16 b.codes, a.2.2.2 + 1)) (s, op, {}, 0)

/-- Counts block terms added (R226). -/
def countTerms (s : State) (n : Nat) : State :=
  let s1 := s.count BLND_TERMS n
  { s1 with blend := { s1.blend with recent := s1.blend.recent.filter (fun x => decide (s1.now < x.1 + 1000000)) ++ [(s1.now, n)] } }

/-- An owner adds and encodes a segment (R216 to R219). -/
def addSegment (fn c : Nat) (r : BitVec 1024) (ph seg : Nat) (s : State) (op : BOp) : State × BOp :=
  let b := cdiv op.n 32
  let (lo, hi) := slotRange r b (bRank r) ph 0
  let slots := (op.got.filter (fun x => x.1 == ph && x.2.2 == seg)).map (fun x => x.2.1)
  let ks := (List.range (min (bSeg r) (hi - lo - seg * bSeg r))).map (fun i => seg * bSeg r + i)
  let final := ph != 2
  let (s1, op1) := ks.foldl (fun (a : State × BOp) k =>
    let (s1, op1, acc, n) := addBlock fn r ph k slots a.1 a.2
    let s2 := if n = 0 then s1.count BLND_SKIPPED else countTerms s1 n
    let (s3, op2, bs) := stageEncode s2 fn c r op1 (if final then 2 else 1) (if final then bGfmt r else bPfmt r) k acc.vals acc.held
    (s3, if final then { op2 with own := mset op2.own k bs, skipped := op2.skipped + (if n = 0 then 1 else 0) } else { op2 with part := mset op2.part k bs })) (s, op)
  (s1, { op1 with added := op1.added ++ [(ph, seg)] })

/-! Progress (R215). -/

/-- All sources of a segment have given it (R216). -/
def allArrived (r : BitVec 1024) (op : BOp) (ph seg : Nat) : Bool := (List.range (phCount r ph)).all (fun k => op.got.contains (ph, k, seg))

/-- Counts an operation that completes with a status (R226). -/
def countOp (s : State) (st : Status) : State := let s1 := s.count BLND_OPS; if st.ok then s1 else s1.count BLND_ABORTS

/-- Sends the abort notice of an operation to every partner but one (R223). -/
def sendAborts (s : State) (fn : Nat) (g : BGroup) (j opc n rank : Nat) (no : Option Nat) : State :=
  ((bPartners g.cfg.rec_).filter (fun k => some k != no)).foldl (fun s k => sendNotice s fn g k (mkNotice g.cfg.rec_ 3 opc 0 0 j n 0 rank)) s

/-- The group breaks at operation `j`: the operation completes with a status, operations after it with group-broken, and the
abort notice goes out (R223). FAILED keeps the rank that broke the group first (R227). -/
def breakGroup (s : State) (fn gi j opc n : Nat) (st : Status) (rank : Nat) (no : Option Nat) : State :=
  match s.bg gi with
  | none => s
  | some g =>
    let hit := g.ops.filter (fun o => decide (j ≤ o.j))
    let s1 := s.setBg gi { g with ops := g.ops.filter (fun o => decide (o.j < j)), broken := true, failed := if g.broken then g.failed else rank, aborts := mset g.aborts j rank, early := [] }
    let s2 := hit.foldl (fun s o => (completeJob s o.job (if o.j = j then st else .cls 0x53) (if o.j = j then rank else 0) 0).count BLND_OPS) s1
    sendAborts (s2.count BLND_ABORTS hit.length) fn g j opc n rank no

/-- Segments of the reduce phases that are whole and not added yet (R216). -/
def readySegs (r : BitVec 1024) (op : BOp) : List (Nat × Nat) :=
  if op.opc = 0x42 then []
  else ((if bHier r then [2, 3] else [0]).flatMap (fun ph =>
    let (lo, hi) := slotRange r (cdiv op.n 32) (bRank r) ph 0
    (List.range (segCount r (hi - lo))).map (fun k => (ph, k)))).filter (fun x => !op.added.contains x && allArrived r op x.1 x.2)

/-- Adds the segments of the reduce phases that are whole. With no codec in service the operation ends with unit-fault (R223). -/
def reduceStep (fn gi : Nat) (s : State) (op : BOp) : State × BOp :=
  match s.bg gi with
  | none => (s, op)
  | some g =>
    let r := g.cfg.rec_
    match readySegs r op with
    | [] => (s, op)
    | xs => match codecCluster s with
      | (s1, none) => (breakGroup s1 fn gi op.j op.opc op.n .unitFault (bRank r) none, op)
      | (s1, some c) => xs.foldl (fun (a : State × BOp) x => addSegment fn c r x.1 x.2 a.1 a.2) (s1, op)

/-- Blocks of a range out of a map of encoded blocks, once all stand. -/
def blocksReady (m : Map (List Byte)) (lo n : Nat) : Option (List (List Byte)) :=
  let xs := (List.range n).map (fun i => mget m (lo + i))
  if xs.all (·.isSome) then some (xs.map (·.getD [])) else none

/-- Sends partial sums on to level 2 (R212). -/
def partStep (fn gi : Nat) (s : State) (op : BOp) : State × BOp :=
  match s.bg gi with
  | none => (s, op)
  | some g =>
    let r := g.cfg.rec_
    let b := cdiv op.n 32
    if !bHier r || op.opc == 0x42 then (s, op)
    else
      let p := bPos r (bRank r)
      let (l0, _) := l1Range r b p
      (List.range (bG2 r)).foldl (fun (a : State × BOp) q =>
        let (lo, hi) := subRange r b p q
        (List.range (segCount r (hi - lo))).foldl (fun (a : State × BOp) k =>
          let key := (3, q * 2 ^ 32 + k)
          let n := min (bSeg r) (hi - lo - k * bSeg r)
          if a.2.passed.contains key then a
          else match blocksReady a.2.part (lo - l0 + k * bSeg r) n with
            | none => a
            | some xs =>
              let ready := decide (0 < n) || allArrived r a.2 2 0
              if !ready then a
              else giveSegment a.1 fn gi { a.2 with passed := a.2.passed ++ [key] } 3 (q * bG1 r + p) k xs) a) (s, op)

/-- The owner sends its encoded segments to every partner (R212). -/
def ownStep (fn gi : Nat) (s : State) (op : BOp) : State × BOp :=
  match s.bg gi with
  | none => (s, op)
  | some g =>
    let r := g.cfg.rec_
    if op.opc = 0x41 then (s, op)
    else
      let (lo, hi) := ownRange r (cdiv op.n 32)
      let ph := if bHier r then 4 else 1
      (List.range (segCount r (hi - lo))).foldl (fun (a : State × BOp) k =>
        let done := op.opc == 0x42 || a.2.added.contains (if bHier r then 3 else 0, k)
        if !done || a.2.passed.contains (ph, k) then a
        else match blocksReady a.2.own (k * bSeg r) (min (bSeg r) (hi - lo - k * bSeg r)) with
          | none => a
          | some xs => (phTargets r ph).foldl (fun (a : State × BOp) t => giveSegment a.1 fn gi a.2 ph t k xs) (a.1, { a.2 with passed := a.2.passed ++ [(ph, k)] })) (s, op)

/-- The blocks of the gathered level-1 shard, absent ones as empty lists (R212). A block that is not a dense one of GFMT is encoded
anew, so that it fits its place. -/
def gathered (fn : Nat) (r : BitVec 1024) (op : BOp) (lo n : Nat) (s : State) : State × BOp × List (List Byte) :=
  let b := cdiv op.n 32
  let p := bPos r (bRank r)
  (List.range n).foldl (fun (a : State × BOp × List (List Byte)) i =>
    let blk := lo + i
    let q := ((List.range (bG2 r)).find? (fun q => let x := subRange r b p q; decide (x.1 ≤ blk) && decide (blk < x.2))).getD 0
    let (s1, o, f) := readStaged a.1 fn r a.2.1 4 q (blk - (subRange r b p q).1)
    let bs := match o with
      | none => []
      | some (b, bs) => if plainBlock (bGfmt r) bs then bs
        else writeBlock (encodeBlock (bGfmt r) ((kbfWidth (bGfmt r)).getD 8) 0 .nearest false b.vals 0#64).1
    (s1, a.2.1.flag f, a.2.2 ++ [bs])) (s, op, [])

/-- Sends the level-1 shard to the subgroup as its blocks arrive (R212). -/
def gatherStep (fn gi : Nat) (s : State) (op : BOp) : State × BOp :=
  match s.bg gi with
  | none => (s, op)
  | some g =>
    let r := g.cfg.rec_
    let b := cdiv op.n 32
    if !bHier r || op.opc == 0x41 then (s, op)
    else
      let p := bPos r (bRank r)
      let (lo, hi) := l1Range r b p
      let have_ (blk : Nat) : Bool := (List.range (bG2 r)).any (fun q => let x := subRange r b p q
        decide (x.1 ≤ blk) && decide (blk < x.2) && op.got.contains (4, q, (blk - x.1) / bSeg r))
      (List.range (segCount r (hi - lo))).foldl (fun (a : State × BOp) k =>
        let n := min (bSeg r) (hi - lo - k * bSeg r)
        let ready := if n = 0 then allArrived r a.2 4 0 else (List.range n).all (fun i => have_ (lo + k * bSeg r + i))
        if !ready || a.2.passed.contains (5, k) then a
        else
          let (s1, op1, xs) := gathered fn r a.2 (lo + k * bSeg r) n a.1
          (phTargets r 5).foldl (fun (a : State × BOp) t => giveSegment a.1 fn gi a.2 5 t k xs) (s1, { op1 with passed := op1.passed ++ [(5, k)] })) (s, op)

/-- Every output segment has arrived (R215 t4). -/
def outputWhole (r : BitVec 1024) (op : BOp) : Bool :=
  let b := cdiv op.n 32
  if op.opc = 0x41 then
    let (lo, hi) := ownRange r b
    (List.range (segCount r (hi - lo))).all (fun k => op.added.contains (if bHier r then 3 else 0, k))
  else
    let ph := if bHier r then 5 else 1
    (List.range (phCount r ph)).all (fun q => let x := slotRange r b (bRank r) ph q
      (List.range (segCount r (x.2 - x.1))).all (fun k => op.got.contains (ph, q, k)))

/-- One block of DST (R218, R219): `bs` is the encoded block, empty where absent. -/
def dstBlock (r : BitVec 1024) (out n : Nat) (o : Option (OBlk × List Byte)) (rs : W64) : List Byte × Bool × W64 :=
  match o with
  | none => if isKbf out then (writeBlock (encHeader out ((kbfWidth out).getD 8) (-127) false 0 (List.replicate 32 (some 0))), false, rs)
      else (List.replicate (n * floatBytes out) 0#8, false, rs)
  | some (b, bs) =>
    if out = bGfmt r ∧ plainBlock out bs = true then (bs, hSat (BitVec.ofNat 16 (leAt bs 0 2)), rs)
    else encodeRow out (bRmode r) (if isKbf out then b.vals else b.vals.take n) rs

/-- DST as bytes, block by block (R219). -/
def dstBytes (fn : Nat) (r : BitVec 1024) (out : Nat) (s : State) (op : BOp) (rs : W64) : State × BOp × List Byte × W64 :=
  let b := cdiv op.n 32
  let (lo, hi) := if op.opc = 0x41 then ownRange r b else (0, b)
  let ph := if bHier r then 5 else 1
  (List.range (hi - lo)).foldl (fun (a : State × BOp × List Byte × W64) i =>
    let blk := lo + i
    let n := min 32 (op.n - 32 * blk)
    let (s1, o, f) : State × Option (OBlk × List Byte) × Flags3 :=
      if op.opc = 0x41 then match mget a.2.1.own i with
        | some (x :: xs) => (a.1, some ((rowBlock (bGfmt r) false (x :: xs) false).1, x :: xs), {})
        | _ => (a.1, none, {})
      else
        let q := ((List.range (phCount r ph)).find? (fun q => let x := slotRange r b (bRank r) ph q; decide (x.1 ≤ blk) && decide (blk < x.2))).getD 0
        readStaged a.1 fn r a.2.1 ph q (blk - (slotRange r b (bRank r) ph q).1)
    let (bs, sat, rs1) := dstBlock r out n o a.2.2.2
    (s1, a.2.1.flag { f with sat := sat }, a.2.2.1 ++ bs, rs1)) (s, op, [], rs)

/-! Completion and failure (R222, R223). -/

def dropOp (s : State) (gi j : Nat) : State :=
  match s.bg gi with
  | none => s
  | some g => s.setBg gi { g with ops := g.ops.filter (fun o => o.j != j) }

/-- An operation is visible and completes; its release notices go (R215 t5, R222). -/
def completeOp (s : State) (fn gi : Nat) (op : BOp) : State :=
  match s.bg gi with
  | none => s
  | some g =>
    let r := g.cfg.rec_
    let st := ({ pois := op.pois, malf := op.malf, sat := op.sat } : Flags3).status
    let bank := if st.ok && bEf r && op.opc != 0x42 then 1 - op.beta else g.bank
    let s1 := countOp (dropOp s gi op.j) st
    let s2 := match s1.bg gi with
      | some k => s1.setBg gi { k with bank := bank }
      | none => s1
    let s3 := completeJob s2 op.job st 0 (op.j % 2 ^ 32 + at_ 32 bank + at_ 33 (min (2 ^ 31 - 1) op.skipped))
    (bPartners r).foldl (fun s k => sendNotice s fn g k (mkNotice r 2 op.opc 0 0 op.j op.n 0 0)) s3

/-- DST is written: the operation completes once it and the residuals are visible. A port that failed first ends it with its status,
and no bank commits (R214, R215, R315). -/
def landDst (s : State) (fn gi : Nat) (r : BitVec 1024) (op : BOp) : State :=
  if windowBusy s (.job op.job) || writesOut s (.job op.job) then s
  else match mget s.ap.failed (4 * op.job) with
    | some st => breakGroup s fn gi op.j op.opc op.n st (bRank r) none
    | none => completeOp s fn gi op

/-- DST is written once every output segment has arrived; the operation completes when it is visible (R215). -/
def finishStep (s : State) (fn gi : Nat) (op : BOp) : State :=
  match s.bg gi with
  | none => s
  | some g =>
    let r := g.cfg.rec_
    if op.written then landDst s fn gi r op
    else if !outputWhole r op then s
    else match mget s.vat.jobs op.job with
      | none => dropOp s gi op.j
      | some jb => match codecCluster s with
        | (s1, none) => breakGroup s1 fn gi op.j op.opc op.n .unitFault (bRank r) none
        | (s1, some c) =>
          let (s2, op1, bs, rs) := dstBytes fn r (bn jb.desc 359 356) s1 op (s1.cl c).rs
          let s3 := s2.setCl c { s2.cl c with rs := rs }
          match agentWriteN s3 (bAgent fn op.job) (bn jb.desc 319 256) bs with
          | (s4, some st, _) => breakGroup s4 fn gi op.j op.opc op.n st (bRank r) none
          | (s4, none, lost) =>
            let op2 : BOp := { op1 with written := true, pois := op1.pois || decide (lost ≠ 0) }
            landDst (putOp s4 gi op2) fn gi r op2

/-- The operation is still in its group. -/
def opLives (s : State) (gi j : Nat) : Bool := ((s.bg gi).map (fun g => g.ops.any (fun o => o.j == j))).getD false

/-- One pass over a started operation. It waits while the region of its areas does (R23). -/
def opPass (fn gi j : Nat) (s : State) : State :=
  match (s.bg gi).bind (fun g => (g.ops.find? (fun o => o.j == j && o.started)).map (fun o => (g, o))) with
  | none => s
  | some (g, op) =>
    if op.written then finishStep s fn gi op
    else if areasWait s g.cfg.rec_ then s
    else
      let (s1, o1) := reduceStep fn gi s op
      if !opLives s1 gi j then s1
      else
        let (s2, o2) := partStep fn gi (putOp s1 gi o1) o1
        let (s3, o3) := ownStep fn gi (putOp s2 gi o2) o2
        let (s4, o4) := gatherStep fn gi (putOp s3 gi o3) o3
        finishStep (putOp s4 gi o4) fn gi o4

/-- Moves every started operation of a group as far as it can go. -/
def blendGo (s : State) (gi : Nat) : State :=
  let fn := (s.slot 6 gi).owner
  (List.range 5).foldl (fun s _ => (((s.bg gi).map (fun g => g.ops.map (·.j))).getD []).foldl (fun s j => opPass fn gi j s) s) s

/-- The failure that Carmine reports on the connection of a handle (R223). -/
def handleLost (s : State) (fn : Nat) (h : W64) : Option Status :=
  match (connOfHandle s fn h).bind (fun i => s.conn i) with
  | none => none
  | some c => if c.state = .error then (match c.lastSt with
    | some .peerLost => some .peerLost
    | some .remoteTimeout => some .remoteTimeout
    | _ => none) else none

/-- The first failed connection to a partner of a group, CONN or XCONN: rank and status (R223). -/
def lostPartner (s : State) (fn : Nat) (g : BGroup) : Option (Nat × Status) :=
  (bPartners g.cfg.rec_).findSome? (fun k => match g.cfg.members[k]? with
    | none => none
    | some m => ((handleLost s fn m.conn).orElse (fun _ => handleLost s fn m.xconn)).map (fun st => (k, st)))

/-- What Blend does when Carmine has reported a failure, or memory has answered (R215, R223). -/
def blendSettle (s : State) : State :=
  (s.blend.groups.map (·.1)).foldl (fun s gi => match s.bg gi with
    | none => s
    | some g =>
      let fn := (s.slot 6 gi).owner
      match g.ops with
      | [] => s
      | o :: _ => match lostPartner s fn g with
        | some (rank, st) => breakGroup s fn gi o.j o.opc o.n st rank none
        | none => if g.ops.any (fun o => o.started) then blendGo s gi else s) s

/-! Notices that arrive (R216, R223, R266). -/

/-- A segment notice for an operation that is posted here. -/
def takeSegment (s : State) (fn gi : Nat) (op : BOp) (x : BitVec 256) : State :=
  if bn x 247 240 ≠ op.opc ∨ bn x 159 128 ≠ op.n then breakGroup (s.count BLND_MISMATCH) fn gi op.j op.opc op.n (.cls 0x52) (bn x 95 80) none
  else
    let s1 := putOp s gi (op.arrive (bn x 211 209) (bn x 207 192) (bn x 127 96))
    if op.started then blendGo s1 gi else s1

/-- The group a notice is for (R216, R266). -/
def noticeGroup (s : State) (conn : Nat) (x : BitVec 256) : Option (Nat × BGroup) :=
  let fn := (s.slot 3 conn).owner
  s.blend.groups.find? (fun g => (s.slot 6 g.1).live && (s.slot 6 g.1).owner == fn && bGid g.2.cfg.rec_ == bn x 239 224 && bGen g.2.cfg.rec_ == bn x 223 212)

/-- The operation number that the low 32 bits of a notice mean: the one nearest to the next operation. -/
def noticeJ (g : BGroup) (j : Nat) : Nat :=
  let ahead := (j + 2 ^ 32 - g.next % 2 ^ 32) % 2 ^ 32
  if ahead < 2 ^ 31 then g.next + ahead else g.next + ahead - 2 ^ 32

/-- A segment notice (R216, R223): for an operation that is posted, for one of the next two, or a mismatch. -/
def segNotice (s : State) (fn gi : Nat) (g : BGroup) (j rank : Nat) (x : BitVec 256) : State :=
  match g.ops.find? (fun o => o.j == j) with
  | some op => takeSegment s fn gi op x
  | none =>
    if g.broken then s
    else if g.next ≤ j ∧ j < g.next + 2 then s.setBg gi { g with early := g.early ++ [x] }
    else match g.ops with
      | o :: _ => breakGroup (s.count BLND_MISMATCH) fn gi o.j o.opc o.n (.cls 0x52) rank none
      | [] => s.count BLND_MISMATCH

/-- A notice has become visible on a connection (R266). -/
def blendNotice (s : State) (conn : Nat) (x : BitVec 256) : State :=
  match noticeGroup s conn x with
  | none => s.count CARM_NOTICE_DROP
  | some (gi, g) =>
    let fn := (s.slot 6 gi).owner
    let j := noticeJ g (bn x 191 160)
    let rank := bn x 95 80
    let kind := bn x 255 252
    if kind = 2 then s.setBg gi { g with released := (rank, j) :: g.released.filter (fun r => r.1 != rank || decide (j < r.2 + 2)) }
    else if kind = 3 then
      if g.broken && (mget g.aborts j).isSome then s
      else breakGroup s fn gi j (bn x 247 240) (bn x 159 128) .peerLost (bn x 79 64) (some rank)
    else segNotice s fn gi g j rank x

/-! Operations posted (R210, R215). -/

/-- The blocks of the source: a source that cannot be read, or one that accelerator memory has not given yet. -/
def readInput (s : State) (fn job : Nat) (d : Desc) (count : Nat) : CodecRun × List (List Val) :=
  (List.range (cdiv count 32)).foldl (fun (a : CodecRun × List (List Val)) blk =>
    if a.1.halted then a
    else
      let n := min 32 (count - 32 * blk)
      let (r, b) := codecReadSrc (bAgent fn job) d blk n a.1
      match r.stop with
      | some (.poisonedData, _) => ({ r with stop := none, src := a.1.src + n * floatBytes (cSfmt d), pois := firstOf r.pois blk }, a.2 ++ [List.replicate 32 none])
      | _ => if r.halted then (r, a.2) else (r, a.2 ++ [pad32 n b.vals])) ({ s := s, src := 0, dst := 0, rs := 0#64 }, [])

/-- Elements of the source and of the destination (R210, R211). -/
def shardElems (r : BitVec 1024) (n : Nat) : Nat := let (lo, hi) := ownRange r (cdiv n 32); min (32 * hi) n - min (32 * lo) n
def srcElems (r : BitVec 1024) (opc n : Nat) : Nat := if opc = 0x42 then shardElems r n else n
def dstElems (r : BitVec 1024) (opc n : Nat) : Nat := if opc = 0x41 then shardElems r n else n

/-- An earlier operation of the same group has still to take its number: operations are numbered as Vat started them (R121, R215). -/
def collectiveBehind (s : State) (job : Nat) (jb : Job) : Bool :=
  s.vat.jobs.any (fun x => decide (x.1 < job) && decide (x.2.phase = .started) && decide (dTarget x.2.desc = dTarget jb.desc) &&
    decide (0x40 ≤ dOpcode x.2.desc) && decide (dOpcode x.2.desc ≤ 0x42))

/-- An operation that t0 turns away: it completes and is counted (R215, R226). -/
def turnAway (s : State) (job : Nat) (st : Status) (detail : Nat) : State := countOp (completeJob s job st detail 0) st

/-- What t0 of R215 finds of SRC: the KBF blocks are read through to find its extent, of the other formats it is known. -/
def checkSrc (s : State) (jb : Job) (job count : Nat) : State × Option Status × Bool :=
  let d := jb.desc
  if isKbf (bn d 355 352) then
    let (run, _) := readInput s jb.fn job d count
    (run.s, run.stop.map (·.1), run.wait.isSome)
  else
    let (s1, x) := firstAddr jb.req [(0, false, bn d 255 192, rowBytes (bn d 355 352) count)] s
    (s1, x.map (·.2), false)

/-- The operation takes its number and is held; the notices that came before it are taken (R215 t0, t1). -/
def acceptOp (s : State) (gi job opc n : Nat) (jb : Job) (g : BGroup) : State :=
  let op : BOp := { j := g.next, job := job, opc := opc, n := n }
  let isMine (x : BitVec 256) : Bool := bn x 191 160 == g.next % 2 ^ 32
  let s1 := (s.setJob job { jb with phase := .held }).setBg gi { g with next := g.next + 1, ops := g.ops ++ [op], early := g.early.filter (fun x => !isMine x) }
  (g.early.filter isMine).foldl (fun s x => match (s.bg gi).bind (fun g => g.ops.find? (fun o => o.j == op.j)) with
    | some o => takeSegment s jb.fn gi o x
    | none => s) s1

/-- A collective is posted: t0 of R215. It stays where it is while its source, read to find its extent, waits for memory (log 148). -/
def collective (s : State) (opc job : Nat) : State :=
  match jobOf s job opc .started with
  | none => s
  | some jb =>
    if collectiveBehind s job jb then s
    else
      let gi := hIndex (dTarget jb.desc)
      let d := jb.desc
      match s.bg gi with
      | none => turnAway s job .staleHandle 0
      | some g =>
        let r := g.cfg.rec_
        let n := bn d 351 320
        if !blendBodyOk d || decide (bMaxn r < n) then turnAway s job .invalidField 0
        else if g.broken then
          match mget g.aborts g.next with
          | some rank => turnAway (s.setBg gi { g with next := g.next + 1 }) job .peerLost rank
          | none => turnAway s job (.cls 0x53) 0
        else match checkSrc s jb job (srcElems r opc n) with
          | (s1, _, true) => s1
          | (s1, some st, false) => turnAway s1 job st 0
          | (s1, none, false) => match firstAddr jb.req ([(1, false, bn d 319 256, rowBytes (bn d 359 356) (dstElems r opc n))] ++
              (if bEf r then [(2, true, bRes r, 2 * bResb r)] else [])) s1 with
            | (s2, some (i, st)) => turnAway s2 job st i
            | (s2, none) => acceptOp s2 gi job opc n jb g

/-- ALLREDUCE (R210). -/
def execAllreduce (job : Nat) (s : State) : Host.Outcome State Fault Refusal := next (collective s 0x40 job)
/-- REDUCE_SCATTER (R210). -/
def execReduceScatter (job : Nat) (s : State) : Host.Outcome State Fault Refusal := next (collective s 0x41 job)
/-- ALLGATHER (R210). -/
def execAllgather (job : Nat) (s : State) : Host.Outcome State Fault Refusal := next (collective s 0x42 job)

/-- Every partner has released operation J − 2 (R215 t1). -/
def releasedAll (g : BGroup) (j : Nat) : Bool :=
  decide (j < 2) || (bPartners g.cfg.rec_).all (fun k => g.released.any (fun x => x.1 == k && x.2 == j - 2))

/-- The contribution of this member: encoded blocks of the source (R212, R217). -/
def contribute (s : State) (fn c : Nat) (r : BitVec 1024) (op : BOp) (blks : List (List Val)) : State × BOp × List (List Byte) :=
  let first := if op.opc = 0x42 then (ownRange r (cdiv op.n 32)).1 else 0
  (blks.mapIdx (fun i v => (i, v))).foldl (fun (a : State × BOp × List (List Byte)) x =>
    let (s1, op1, bs) := stageEncode a.1 fn c r a.2.1 0 (if op.opc = 0x42 then bGfmt r else bCfmt r) (first + x.1) x.2 false
    (s1, op1, a.2.2 ++ [bs])) (s, op, [])

/-- Operations that keep residuals do not overlap: the bank that one reads is committed when the one before it completes (R214;
log 147). -/
def residualsBusy (g : BGroup) (op : BOp) : Bool :=
  bEf g.cfg.rec_ && op.opc != 0x42 && g.ops.any (fun o => o.started && o.opc != 0x42)

/-- The held operation starts: it encodes and sends its first phase (R215 t2). -/
def execCollectiveHoldEnd (group : Nat) (s : State) : Host.Outcome State Fault Refusal :=
  match s.bg group with
  | none => next s
  | some g =>
    let fn := (s.slot 6 group).owner
    let r := g.cfg.rec_
    match g.ops.find? (fun o => !o.started) with
    | none => next s
    | some op0 =>
      if !releasedAll g op0.j || residualsBusy g op0 || areasWait s r then next s
      else match mget s.vat.jobs op0.job with
        | none => next (dropOp s group op0.j)
        | some jb =>
          let (run, blks) := readInput s fn op0.job jb.desc (srcElems r op0.opc op0.n)
          match run.wait, run.stop with
          | some _, _ => next run.s
          | none, some (st, _) => next (breakGroup run.s fn group op0.j op0.opc op0.n st (bRank r) none)
          | none, none => match codecCluster run.s with
            | (s1, none) => next (breakGroup s1 fn group op0.j op0.opc op0.n .unitFault (bRank r) none)
            | (s1, some c) =>
              let op : BOp := { op0 with started := true, beta := g.bank, pois := op0.pois || run.pois.isSome, malf := op0.malf || run.malf.isSome }
              let (s2, op1, enc) := contribute (if run.malfCount = 0 then s1 else s1.trouble (engUnit c true) .ue run.malfCount) fn c r op blks
              let b := cdiv op.n 32
              if op.opc = 0x42 then
                let op2 : BOp := { op1 with own := enc.mapIdx (fun i x => (i, x)) }
                next (blendGo (putOp s2 group op2) group)
              else
                let ph := if bHier r then 2 else 0
                let (s3, op2) := (phTargets r ph).foldl (fun (a : State × BOp) t =>
                  let (lo, hi) := slotRange r b t ph 0
                  giveRange fn group ph t ((enc.drop lo).take (hi - lo)) (List.range (segCount r (hi - lo))) a) (s2, op1)
                next (blendGo (putOp s3 group op2) group)

/-- Segments that this member awaits from others: rank of the source, and its key in the arrivals (R223). -/
def awaitedOf (r : BitVec 1024) (op : BOp) : List (Nat × Nat × Nat × Nat) :=
  let b := cdiv op.n 32
  let phs := if bHier r then (if op.opc = 0x41 then [2, 3] else if op.opc = 0x42 then [4, 5] else [2, 3, 4, 5])
    else (if op.opc = 0x41 then [0] else if op.opc = 0x42 then [1] else [0, 1])
  (phs.flatMap (fun ph => (List.range (phCount r ph)).flatMap (fun k =>
    let rank := if ph ≤ 1 then k else if ph = 2 ∨ ph = 5 then bSub r (bRank r) * bG1 r + k else k * bG1 r + bPos r (bRank r)
    let (lo, hi) := slotRange r b (bRank r) ph k
    (List.range (segCount r (hi - lo))).map (fun g => (rank, ph, k, g))))).filter (fun x => x.1 != bRank r)

/-- CTIMEOUT passes after t2 of the oldest operation (R223). -/
def execCollectiveTimeout (group : Nat) (s : State) : Host.Outcome State Fault Refusal :=
  match s.bg group with
  | none => next s
  | some g =>
    match g.ops.find? (fun o => o.started && !o.written) with
    | none => next s
    | some op =>
      let r := g.cfg.rec_
      if bTimeout r = 0 then next s
      else
        let missing := ((awaitedOf r op).filter (fun x => !op.got.contains x.2)).map (·.1)
        next (breakGroup s (s.slot 6 group).owner group op.j op.opc op.n .remoteTimeout (missing.foldl min (missing.headD 0)) none)

end Sys2Proof.Machine
end

