-- ==== Sys2Proof/Machine/Opt.lean ====
section
/-! DEFINITION. Optimizer programs: their channels, the step and the weight push (R228 to R235). -/

namespace Sys2Proof.Machine

open Sys2Proof

/-! Fields of the step record (R231) and of the bodies (R232, R235). -/

def oLr (x : BitVec 512) : Nat := bn x 31 0
def oB1 (x : BitVec 512) : Nat := bn x 63 32
def oB2 (x : BitVec 512) : Nat := bn x 95 64
def oEps (x : BitVec 512) : Nat := bn x 127 96
def oWd (x : BitVec 512) : Nat := bn x 159 128
def oGscale (x : BitVec 512) : Nat := bn x 191 160
def oTclip (x : BitVec 512) : Nat := bn x 223 192
def oRows (x : BitVec 512) : Nat := bn x 255 224
def oPush (x : BitVec 512) : Nat := bn x 319 256
def oPfmt (x : BitVec 512) : Nat := bn x 323 320
def oPrmode (x : BitVec 512) : RMode := RMode.ofCode (bn x 325 324)
def oPlayout (x : BitVec 512) : Nat := bn x 327 326
def oDecoupled (x : BitVec 512) : Bool := bt x 328
def oNesterov (x : BitVec 512) : Bool := bt x 329

/-- Reserved fields of the step record, and the codes and the division that it asks for (R231). -/
def srecOk (lib n : Nat) (x : BitVec 512) : Bool :=
  zeroBits x 511 330 && (oPush x == 0 || (codecFmtOk (oPfmt x) && decide (oPlayout x ≠ 3))) &&
    (lib != 3 || n == 0 || (oRows x != 0 && n % oRows x == 0))

/-! The state area (R233). -/

def alignUp64 (n : Nat) : Nat := 64 * cdiv n 64
def arrayOff (n a k : Nat) : Nat := (2 * a + k) * alignUp64 (4 * n)
def rOff (n rows k : Nat) : Nat := 4 * alignUp64 (4 * n) + k * alignUp64 (4 * rows)
def cOff (n rows k : Nat) : Nat := 4 * alignUp64 (4 * n) + 2 * alignUp64 (4 * rows) + k * alignUp64 (4 * n / max 1 rows)

/-- Bytes of a library's state area; a user program's layout is its own (log 48). -/
def stateExtent (lib n rows : Nat) : Nat :=
  if lib = 0 then 1
  else if lib = 1 then 4 * alignUp64 (4 * n)
  else if lib = 3 then cOff n rows 2
  else 6 * alignUp64 (4 * n)

/-! Arithmetic (R234). -/

def one32 : Nat := 0x3F800000

/-- A binary64 sum in an order that is open: two of the numbers, drawn freely, are added until one is left. -/
def sumAny : Nat → Nat → List Nat → Nat
  | 0, _, xs => xs.headD 0
  | k + 1, c, xs => match xs with
    | [] => 0
    | [x] => x
    | _ =>
      let i := Config.freeNat c % xs.length
      let ys := xs.eraseIdx i
      let j := Config.freeNat (c + 1) % ys.length
      sumAny k (c + 2) (f64.add (xs.getD i 0) (ys.getD j 0) :: ys.eraseIdx j)

/-- The binary64 sum of binary32 numbers, each first put through `f`; the draws are counted. -/
def sum64 (s : State) (f : Nat → Nat) (xs : List Nat) : State × Nat :=
  ({ s with freeCtr := s.freeCtr + 2 * xs.length }, sumAny xs.length s.freeCtr (xs.map (fun x => f (f32.convert f64 x))))

/-- A binary64 sum divided by a count, rounded once to binary32. -/
def meanOf (sum n : Nat) : Nat :=
  match f64.read sum with
  | .nan => f32.nan
  | .inf b => f32.signed b f32.infinity
  | .zero b => f32.signed b 0
  | .fin a =>
    let k := 64 + n.log2
    let m := a.m.natAbs * 2 ^ k
    f32.signed (decide (a.m < 0)) (f32.roundMag (2 * (m / max 1 n) + b2n (m % max 1 n != 0)) (a.e - k - 1))

/-- The square root of a binary64 sum of squares, rounded once to binary32. -/
def normOf (sum : Nat) : Nat :=
  match f64.read sum with
  | .nan => f32.nan
  | .inf _ => f32.infinity
  | .zero _ => 0
  | .fin a =>
    let odd : Nat := if a.e % 2 = 0 then 0 else 1
    let n := a.m.natAbs * 2 ^ (60 + odd)
    let r := isqrtGo (n.log2 / 2 + 1) n 0
    f32.roundMag (2 * r + b2n (r * r != n)) ((a.e - odd) / 2 - 31)

/-- β^t in binary64, rounded once to binary32 (R234; log 49). -/
def powOf (b t : Nat) : Nat :=
  match f32.read b with
  | .nan => f32.nan
  | .inf neg => f32.signed (neg && t % 2 == 1) f32.infinity
  | .zero neg => f32.signed (neg && t % 2 == 1) 0
  | .fin v => f64.convert f32 (f64.round ⟨v.m ^ t, v.e * t⟩)

/-- The hyperparameters of a step. -/
structure Hyper where
  x : BitVec 512
  lib : Nat
  t : Nat

/-- One element's numbers: w, m, v before; the update u, and m, v after. -/
structure Elem where
  w : Nat
  m : Nat
  v : Nat := 0
  u : Nat := 0
deriving DecidableEq, Repr

def Hyper.g (h : Hyper) (y : Nat) : Nat := f32.mul (oGscale h.x) y

/-- `β × a + (1 − β) × b`. -/
def decay (beta a b : Nat) : Nat := f32.add (f32.mul beta a) (f32.mul (f32.sub one32 beta) b)

/-- LIB 1: m′ and w′. -/
def sgdElem (h : Hyper) (y : Nat) (e : Elem) : Elem :=
  let g := h.g y
  let m := f32.add (f32.mul (oB1 h.x) e.m) g
  let u := if oNesterov h.x then f32.add g (f32.mul (oB1 h.x) m) else m
  { e with m := m, w := f32.sub e.w (f32.mul (oLr h.x) (f32.add u (f32.mul (oWd h.x) e.w))) }

/-- m′, v′ and u of LIB 2 and LIB 4. The first rule of LIB 2 adds WD × w to g when DECOUPLED is 0 (R231: LIB 2 only). -/
def adamElem (h : Hyper) (y : Nat) (e : Elem) : Elem :=
  let g0 := h.g y
  let g := if h.lib = 2 ∧ oDecoupled h.x = false then f32.add g0 (f32.mul (oWd h.x) e.w) else g0
  let m := decay (oB1 h.x) e.m g
  let v := decay (oB2 h.x) e.v (f32.mul g g)
  let mh := f32.div m (f32.sub one32 (powOf (oB1 h.x) h.t))
  let vh := f32.div v (f32.sub one32 (powOf (oB2 h.x) h.t))
  { e with m := m, v := v, u := f32.div mh (f32.add (f32.sqrt vh) (oEps h.x)) }

/-- LIB 2: w′. -/
def adamW (h : Hyper) (e : Elem) : Elem :=
  let dec := if oDecoupled h.x then one32 else 0
  { e with w := f32.sub e.w (f32.mul (oLr h.x) (f32.add e.u (f32.mul (f32.mul dec (oWd h.x)) e.w))) }

/-- LIB 4: u with weight decay, the trust ratio, w′. -/
def lambStep (h : Hyper) (es : List Elem) (s : State) : State × List Elem :=
  let es1 := es.map (fun e => { e with u := f32.add e.u (f32.mul (oWd h.x) e.w) })
  let (s1, sw) := sum64 s (fun x => f64.mul x x) (es1.map (·.w))
  let (s2, su) := sum64 s1 (fun x => f64.mul x x) (es1.map (·.u))
  let nw := normOf sw
  let nu := normOf su
  let rho := if nw = 0 ∨ nu = 0 then one32 else f32.div nw nu
  let rho1 := if oTclip h.x = 0 then rho else f32.min rho (oTclip h.x)
  (s2, es1.map (fun e => { e with w := f32.sub e.w (f32.mul (f32.mul (oLr h.x) rho1) e.u) }))

/-- The means of a list of lists, one after the other. -/
def meansOf (s : State) : List (List Nat) → State × List Nat
  | [] => (s, [])
  | xs :: rest =>
    let (s1, t) := sum64 s id xs
    let (s2, ms) := meansOf s1 rest
    (s2, meanOf t xs.length :: ms)

/-- LIB 3: r′, c′ and the elements after. -/
def factoredStep (h : Hyper) (ys : List Nat) (es : List Elem) (r c : List Nat) (s : State) : State × List Elem × List Nat × List Nat :=
  let rows := r.length
  let cols := c.length
  let gs := ys.map h.g
  let sq := gs.map (fun g => f32.add (f32.mul g g) (oEps h.x))
  let (s1, rm) := meansOf s ((List.range rows).map (fun i => (sq.drop (i * cols)).take cols))
  let (s2, cm) := meansOf s1 ((List.range cols).map (fun j => (List.range rows).map (fun i => sq.getD (i * cols + j) 0)))
  let r1 := List.zipWith (decay (oB2 h.x)) r rm
  let c1 := List.zipWith (decay (oB2 h.x)) c cm
  let (s3, rt) := sum64 s2 id r1
  let rbar := meanOf rt rows
  let out := (List.zip gs es).mapIdx (fun k (p : Nat × Elem) =>
    let v := f32.div (f32.mul (r1.getD (k / max 1 cols) 0) (c1.getD (k % max 1 cols) 0)) rbar
    let m := decay (oB1 h.x) p.2.m p.1
    let q := if f32.eq v 0 then 0 else f32.div m (f32.sqrt v)
    { p.2 with m := m, w := f32.sub p.2.w (f32.mul (oLr h.x) (f32.add q (f32.mul (oWd h.x) p.2.w))) })
  (s3, out, r1, c1)

/-! Reading and writing. -/

/-- The gradient elements as binary32, none for one that is not finite, with the number of blocks that say ZERO (R234). A float keeps
its sign when it is zero. A poisoned float source stops the read. -/
def readGrad (s : State) (g : Agent) (b : OBody) : CodecRun × List (Option Nat) × Nat :=
  let d : Desc := BitVec.ofNat 512 (at_ 192 b.grad + at_ 352 b.gfmt)
  (List.range (cdiv b.n 32)).foldl (fun (a : CodecRun × List (Option Nat) × Nat) blk =>
    if a.1.halted then a
    else
      let n := min 32 (b.n - 32 * blk)
      let (r, x) := codecReadSrc g d blk n a.1
      if r.halted then (r, a.2)
      else
        let bits := if b.gfmt = 8 then x.f32s else if b.gfmt = 9 then x.f32s.map (· * 65536) else x.vals.map valF32
        let zero := match x.kbf with
          | some k => hZero k.hdr
          | none => false
        (r, a.2.1 ++ (List.zipWith (fun (v : Val) y => v.map (fun _ => y)) x.vals bits).take n, a.2.2 + b2n zero)) ({ s := s, src := 0, dst := 0, rs := 0#64 }, [], 0)

/-- A binary32 array of near memory: its numbers, whether a line of it is poisoned, or the refusing status. -/
def readArray (s : State) (g : Agent) (a n : Nat) : State × (List Nat × Bool ⊕ Status) :=
  match agentRead s g a (4 * n) with
  | (s1, .ok bs bad) => (s1, .inl ((List.range n).map (fun i => leAt bs (4 * i) 4), !bad.isEmpty))
  | (s1, .fail st) => (s1, .inr st)
  | (s1, .wait) => (s1, .inr .busy)

def bytes32 (xs : List Nat) : List Byte := (xs.map (leBytes 4)).flatten

/-- The arrays of a list of offsets. -/
def readArrays (g : Agent) : List (Nat × Nat) → State → State × (List (List Nat) × Bool ⊕ Status)
  | [], s => (s, .inl ([], false))
  | (a, n) :: rest, s => match readArray s g a n with
    | (s1, .inr st) => (s1, .inr st)
    | (s1, .inl (xs, p)) => match readArrays g rest s1 with
      | (s2, .inr st) => (s2, .inr st)
      | (s2, .inl (ys, q)) => (s2, .inl (xs :: ys, p || q))

/-- Writes arrays in order until one is refused. -/
def writeArrays (g : Agent) : List (Nat × List Nat) → State → State × Option Status
  | [], s => (s, none)
  | (a, xs) :: rest, s => match agentWrite s g a (bytes32 xs) with
    | (s1, some st) => (s1, some st)
    | (s1, none) => writeArrays g rest s1

/-- A binary32 pattern as bfloat16 (R235): a NaN becomes 0x7FC0, an infinity stays, and a finite value beyond the largest bfloat16 is
held there, which saturates. -/
def pushBf16 (x : Nat) : Nat × Bool :=
  let a := x % 2 ^ 31
  if 0x7F800000 < a then (0x7FC0, false)
  else if a = 0x7F800000 then (x / 65536, false)
  else if 0x7F7F0000 < a then (x / 2 ^ 31 * 0x8000 + 0x7F7F, true)
  else f32Bf16 x

/-- The bytes of a weight push (R235), whether it saturated, and the generator after. -/
def pushBytes (x : BitVec 512) (ws : List Nat) (rs : W64) : List Byte × Bool × W64 :=
  let f := oPfmt x
  if f = 8 then (bytes32 ws, false, rs)
  else if f = 9 then
    let xs := ws.map pushBf16
    ((xs.map (fun y => leBytes 2 y.1)).flatten, xs.any (·.2), rs)
  else (blocks32 (ws.map (floatVal f32))).foldl (fun (a : List Byte × Bool × W64) b =>
      if isKbf f then
        let (e, r) := encodeBlock f ((kbfWidth f).getD 8) (oPlayout x) (oPrmode x) false b a.2.2
        (a.1 ++ writeBlock e, a.2.1 || hSat e.hdr, r)
      else if f = 0xF then
        let (e, r) := encodeBlock 3 8 0 (oPrmode x) false b a.2.2
        let ((sc, ys), r1) := kbf8ToMxInt8 e.hdr e.codes (oPrmode x) r
        (a.1 ++ mxBytes f sc ys, a.2.1 || hSat e.hdr, r1)
      else
        let (sc, ys) := toMx f b
        (a.1 ++ mxBytes f sc ys, a.2.1, a.2.2)) ([], false, rs)

/-! Programs (R228, R229). -/

def optParamsOk (p : BitVec 256) : Bool :=
  let code := bn p 63 0
  let lib := bn p 67 64
  zeroBits p 127 68 && zeroBits p 255 192 && decide (lib ≤ 4) && bn p 191 128 != 0 && decide (lib = 0 ↔ code ≠ 0)

/-- Bytes of a user image from CODE: up to 256 KiB of its region (R229; log 47). -/
def imageLen (s : State) (a : Nat) : Nat := match regionAt s a 4 with
  | some (_, d) => min 262144 (d.stop - a)
  | none => 4

/-- CH_CREATE of an optimizer program (R228). -/
def execChCreateOptimizerProgram (pair : MboxId) (blk : CmdBlock) (s : State) : Host.Outcome State Fault Refusal :=
  next (chCommand 0x010 [7] pair blk (fun s c b =>
    let p := params b
    if !createWord b 7 || !optParamsOk p then refuse s .invalidField
    else
      let code := bn p 63 0
      let put (s : State) (len : Nat) : State × Option Reply := createIn s c 7 (fun _ => true) 1 (fun s i =>
        .inr ({ s with par := { s.par with progs := mset s.par.progs i { code := code, len := len, lib := bn p 67 64, clmask := BitVec.ofNat 64 (bn p 191 128) } } },
          { status := .success }))
      if code = 0 then put s 0
      else match checkTierN s c.req code 4 with
        | (s1, some st) => refuse s1 st
        | (s1, none) => put s1 (imageLen s1 (code % 2 ^ 48))) s)

/-- CH_MODIFY of an optimizer program: CLMASK alone may change (R228). -/
def execChModifyOptimizerProgram (pair : MboxId) (blk : CmdBlock) (s : State) : Host.Outcome State Fault Refusal :=
  next (chCommand 0x012 [7] pair blk (fun s c b => match bodyHandle s c [7] b with
    | .inr st => refuse s st
    | .inl i => match mget s.par.progs i with
      | none => refuse s .staleHandle
      | some x =>
        let p := params b
        if !bodyReserved b [] 320 || !optParamsOk p || bn p 63 0 != x.code || bn p 67 64 != x.lib then refuse s .invalidField
        else accept { s with par := { s.par with progs := mset s.par.progs i { x with clmask := BitVec.ofNat 64 (bn p 191 128) } } }) s)

/-- The clusters of a step: those of CLMASK that the function owns and that are in service (R229). -/
def stepClusters (s : State) (fn : Nat) (p : OptProg) : List Nat :=
  (List.range 64).filter (fun c => let k := s.cl c
    p.clmask.getLsbD c && k.owner == some fn && k.reclaim.isNone && !k.world && (decide (k.cstate = .inService) || decide (k.cstate = .gated)))

/-- A cluster of the step is being reset or started: the step waits for it (R23, R524). -/
def stepWaits (s : State) (fn : Nat) (p : OptProg) : Bool :=
  (List.range 64).any (fun c => let k := s.cl c
    p.clmask.getLsbD c && k.owner == some fn && k.reclaim.isNone && !k.world && (decide (k.cstate = .resetting) || decide (k.cstate = .starting)))

/-- The cores of a step in core order (R229, R230). -/
def stepCores (s : State) (cs : List Nat) : List Nat := ((cs.map coresOf).flatten).filter (fun i => decide ((s.core i).run ≠ .absent))

/-- Copies a program into a cluster's scratch where it is not there yet (R229). The image that stood there is another
program's no longer. -/
def loadProg (i : Nat) (image : List Byte) (s : State) (c : Nat) : State :=
  match mget s.par.progs i with
  | none => s
  | some p =>
    if p.loaded.contains c then s
    else
      let s1 := flushICaches (scrWrite s c (scratchSize (s.cl c) - 262144) image) c
      let progs := mmap s1.par.progs (fun k x => if k = i then { x with loaded := x.loaded ++ [c] } else { x with loaded := x.loaded.filter (· ≠ c) })
      { s1 with par := { s1.par with progs := progs } }

/-- The image of a program: a library program is firmware code (log 6); a user image is read from near memory. -/
def progImage (s : State) (req : Req) (job : Nat) (p : OptProg) : State × (List Byte ⊕ Status) :=
  if p.lib ≠ 0 then (s, .inl ((Config.factory (100 + p.lib)).take 262144))
  else match agentRead s { req := req, work := .job job } p.code p.len with
    | (s1, .ok bs bad) => (s1, if bad.isEmpty then .inl bs else .inr .poisonedData)
    | (s1, .fail st) => (s1, .inr st)
    | (s1, .wait) => (s1, .inr .bounds)

/-! The step (R229 to R235). -/

/-- The new arrays of a library step: what it writes, by address, and w′. -/
def libStep (h : Hyper) (b : OBody) (ys : List Nat) (arrs : List (List Nat)) (s : State) : State × List (Nat × List Nat) × List Nat :=
  let k := b.step % 2
  let w := arrs.getD 0 []
  let m := arrs.getD 1 []
  let v := arrs.getD 2 []
  let es := (List.zip w m).mapIdx (fun i (p : Nat × Nat) => ({ w := p.1, m := p.2, v := v.getD i 0 } : Elem))
  let at3 (a : Nat) : Nat := b.state + arrayOff b.n a k
  if h.lib = 1 then
    let es1 := List.zipWith (sgdElem h) ys es
    (s, [(at3 0, es1.map (·.w)), (at3 1, es1.map (·.m))], es1.map (·.w))
  else if h.lib = 3 then
    let (s1, es1, r1, c1) := factoredStep h ys es v (arrs.getD 3 []) s
    (s1, [(at3 0, es1.map (·.w)), (at3 1, es1.map (·.m)), (b.state + rOff b.n (oRows h.x) k, r1), (b.state + cOff b.n (oRows h.x) k, c1)], es1.map (·.w))
  else
    let es1 := List.zipWith (adamElem h) ys es
    let (s1, es2) := if h.lib = 4 then lambStep h es1 s else (s, es1.map (adamW h))
    (s1, [(at3 0, es2.map (·.w)), (at3 1, es2.map (·.m)), (at3 2, es2.map (·.v))], es2.map (·.w))

/-- The arrays a library step reads: those of bank (t − 1) mod 2 (R233). -/
def libReads (lib : Nat) (x : BitVec 512) (b : OBody) : List (Nat × Nat) :=
  let k := (b.step - 1) % 2
  let arr (a : Nat) : Nat × Nat := (b.state + arrayOff b.n a k, b.n)
  if lib = 1 then [arr 0, arr 1]
  else if lib = 3 then [arr 0, arr 1, (b.state + rOff b.n (oRows x) k, oRows x), (b.state + cOff b.n (oRows x) k, b.n / max 1 (oRows x))]
  else [arr 0, arr 1, arr 2]

/-- The cluster of a step whose codec and generator serve it: which one is open. -/
def stepCodec (s : State) (cs : List Nat) : Nat × State := let (i, s1) := s.choose (max 1 cs.length); (cs.getD i 0, s1)

/-- The bytes of a push, as rounded by the generator of a cluster of the step (R235), and PUSH checked for all of them (R232): whether
it saturated, or the refusing status. -/
def preparePush (s : State) (r : Req) (cs : List Nat) (x : BitVec 512) (ws : List Nat) : State × (List Byte × Bool ⊕ Status) :=
  let (c, s1) := stepCodec s cs
  let (bs, sat, rs) := pushBytes x ws (s1.cl c).rs
  match bodyAddr s1 r false (oPush x) bs.length with
  | (s2, some st) => (s2, .inr st)
  | (s2, none) => (s2.setCl c { s2.cl c with rs := rs }, .inl (bs, sat))

/-- RESULT of a step (R234). -/
def stepResult (b : OBody) (zeros : Nat) : Nat := b.step + at_ 32 (min (2 ^ 32 - 1) zeros)

/-- The end of a step or a push: what is pushed is written, and the job completes (R235). -/
def endPush (s : State) (job : Nat) (g : Agent) (x : BitVec 512) (bs : List Byte) (sat : Bool) (result : Nat) : State :=
  match agentWrite s g (oPush x) bs with
  | (s1, some st) => completeJob s1 job st 3 0
  | (s1, none) => completeJob s1 job (if sat then .saturated else .success) 0 result

/-- A library step, when its gradient has been read (R234). A refusal writes nothing (R232). A gradient block with a reserved FMT reads as
markers, and the step then completes with nonfinite-grad, not with malformed-block: R234 and R50 leave the choice open (DESIGN CHOICE,
unsafe; log 98). -/
def runLib (s : State) (job : Nat) (jb : Job) (cs : List Nat) (lib : Nat) (x : BitVec 512) (b : OBody) (vals : List (Option Nat)) (zeros : Nat) : State :=
  let g : Agent := { req := jb.req, work := .job job }
  let result := stepResult b zeros
  if vals.any (·.isNone) then finish s job (.cls 0x54)
  else match readArrays g (libReads lib x b) s with
    | (s1, .inr st) => completeJob s1 job st 1 0
    | (s1, .inl (_, true)) => finish s1 job .poisonedData
    | (s1, .inl (arrs, false)) =>
      let (s2, writes, ws) := libStep ⟨x, lib, b.step⟩ b (vals.map (·.getD 0)) arrs s1
      match (if oPush x = 0 then (s2, .inl ([], false)) else preparePush s2 jb.req cs x ws) with
      | (s3, .inr st) => completeJob s3 job st 3 0
      | (s3, .inl (bs, sat)) => match writeArrays g writes s3 with
        | (s4, some st) => completeJob s4 job st 1 0
        | (s4, none) => endPush s4 job g x bs sat result

/-- Starts a user program on the cores of a step (R230). -/
def startUser (s : State) (job i : Nat) (b : OBody) (cs : List Nat) : State :=
  let cores := stepCores s cs
  let n := cores.length
  let s1 : State := { s with par := { s.par with runs := s.par.runs ++ [{ job := job, prog := i, cores := cores }] } }
  (cores.mapIdx (fun k c => (k, c))).foldl (fun s (p : Nat × Nat) =>
    let c := p.2 / 8
    startCore s p.2 (0xFFFF000000000000 + scratchSize (s.cl c) - 262144)
      [(1, BitVec.ofNat 64 b.grad), (2, BitVec.ofNat 64 b.state), (3, BitVec.ofNat 64 b.n), (4, BitVec.ofNat 64 b.step),
       (5, BitVec.ofNat 64 b.srec), (6, BitVec.ofNat 64 p.1), (7, BitVec.ofNat 64 n), (8, 0#64), (9, BitVec.ofNat 64 b.gfmt)]
      (.optStep job)) s1

/-- Bytes a gradient or a push takes at least, for the checks before a step runs (R232): the length of a KBF stream of any layout is in
its blocks, which are checked as they are read, and before they are written. -/
def leastBytes (fmt layout n : Nat) : Nat :=
  if n = 0 then 0 else if fmt = 8 then 4 * n else if fmt = 9 then 2 * n
  else if isKbf fmt then (if layout = 0 then denseSize ((kbfWidth fmt).getD 8) else 2) * cdiv n 32
  else mxSize fmt * cdiv n 32

/-- Reads the step record: its bits, or the refusing status. -/
def readSrec (s : State) (g : Agent) (a : Nat) : State × (BitVec 512 ⊕ Status) :=
  match checkTierN s g.req a 64 with
  | (s1, some st) => (s1, .inr st)
  | (s1, none) => match agentRead s1 g a 64 with
    | (s2, .ok bs bad) => (s2, if bad.isEmpty then .inl (BitVec.ofNat 512 (leNat bs)) else .inr .poisonedData)
    | (s2, .fail st) => (s2, .inr st)
    | (s2, .wait) => (s2, .inr .bounds)

/-- The addresses of a step or a push, in the order GRAD, STATE, SREC, PUSH (R232): the record, or the refusing status with the
number of the failing address. The extent of STATE under LIB 3 takes ROWS from the record, which must be readable for it. -/
def optAddrs (s : State) (g : Agent) (lib : Nat) (op : Nat) (b : OBody) : State × (BitVec 512 ⊕ (Status × Nat)) :=
  match (if op = 0x50 then bodyAddr s g.req false b.grad (leastBytes b.gfmt 1 b.n) else (s, none)) with
  | (s1, some st) => (s1, .inr (st, 0))
  | (s1, none) =>
    let rows := match (readSrec s1 g b.srec).2 with
      | .inl x => oRows x
      | .inr _ => 0
    match bodyAddr s1 g.req true b.state (if op = 0x50 then stateExtent lib b.n rows else arrayOff b.n 0 (b.step % 2) + 4 * b.n) with
    | (s2, some st) => (s2, .inr (st, 1))
    | (s2, none) => match readSrec s2 g b.srec with
      | (s3, .inr st) => (s3, .inr (st, 2))
      | (s3, .inl x) =>
        if oPush x = 0 then (s3, .inl x)
        else match bodyAddr s3 g.req false (oPush x) (leastBytes (oPfmt x) (oPlayout x) b.n) with
          | (s4, some st) => (s4, .inr (st, 3))
          | (s4, none) => (s4, .inl x)

/-- Near memory that a step or a push reads waits for its region (R23): the step record, then the state area and the image. -/
def optWaits (s : State) (g : Agent) (p : OptProg) (b : OBody) : Bool :=
  nearWaits s b.srec 64 || nearWaits s p.code p.len ||
    nearWaits s b.state (stateExtent p.lib b.n (match (readSrec s g b.srec).2 with
      | .inl x => oRows x
      | .inr _ => 0))

/-- A step or a push of no elements: its addresses name the own node, its function owns a cluster, and nothing is accessed (R135). -/
def optEmpty (s : State) (op job : Nat) (jb : Job) (p : OptProg) (b : OBody) : State :=
  match firstAddr jb.req ((if op = 0x50 then [(0, false, b.grad, 0)] else []) ++ [(1, true, b.state, 0), (2, true, b.srec, 0)]) s with
  | (s1, some (k, st)) => completeJob s1 job st k 0
  | (s1, none) =>
    if (stepClusters s1 jb.fn p).isEmpty then finish s1 job .accessDenied
    else completeJob s1 job .success 0 (stepResult b 0)

/-- A step or a push as its descriptor starts: a refusal writes nothing (R232). -/
def optStart (s : State) (op job : Nat) (run : State → Job → Nat → OptProg → OBody → BitVec 512 → List Nat → State) : State :=
  match jobOf s job op .started with
    | none => s
    | some jb =>
      let i := hIndex (dTarget jb.desc)
      match mget s.par.progs i with
      | none => finish s job .staleHandle
      | some p =>
        let b := optBody jb.desc
        let g : Agent := { req := jb.req, work := .job job }
        if !optBodyOk jb.desc then finish s job .invalidField
        else if stepWaits s jb.fn p then s
        else if b.n = 0 then optEmpty s op job jb p b
        else if optWaits s g p b then s
        else match optAddrs s g p.lib op b with
          | (s1, .inr (st, k)) => completeJob s1 job st k 0
          | (s1, .inl x) =>
            let cs := stepClusters s1 jb.fn p
            if !srecOk p.lib b.n x then finish s1 job .invalidField
            else if cs.isEmpty then finish s1 job .accessDenied
            else run s1 jb i p b x cs

/-- Counts gradient blocks with a reserved FMT on a codec of the step (R50). -/
def countGrad (r : CodecRun) (cs : List Nat) : State :=
  if r.malfCount = 0 then r.s
  else
    let (c, s1) := stepCodec r.s cs
    s1.trouble (engUnit c true) .ue r.malfCount

/-- OPT_STEP (R229 to R235). While a core of its clusters still runs other work the step waits; while its gradient comes from
accelerator memory it waits. A library step takes effect whole in this command: the manual states what it writes, and no instruction of
its image, so its cores are not seen to run (DESIGN CHOICE, unsafe; log 149). -/
def execOptStep (job : Nat) (s : State) : Host.Outcome State Fault Refusal :=
  next (optStart s 0x50 job (fun s jb i p b x cs =>
    if cs.any (fun c => (coresOf c).any (fun k => coreBusy (s.core k)) || runsStep s c) then s
    else
      let s0 := cs.foldl powerUp s
      match progImage s0 jb.req job p with
      | (s1, .inr st) => finish s1 job st
      | (s1, .inl image) =>
        let s2 := cs.foldl (loadProg i image) s1
        if p.lib = 0 then startUser (s2.setJob job { jb with phase := .held }) job i b cs
        else
          let (r, vals, zeros) := readGrad s2 { req := jb.req, work := .job job } b
          match r.wait, r.stop with
          | some _, _ => r.s
          | none, some (st, _) => finish r.s job st
          | none, none =>
            let s3 := countGrad r cs
            if r.pois.isSome then finish s3 job .poisonedData else runLib s3 job jb cs p.lib x b vals zeros))

/-- WPUSH (R235): array 0 of bank STEP mod 2 goes to PUSH. -/
def execWpush (job : Nat) (s : State) : Host.Outcome State Fault Refusal :=
  next (optStart s 0x51 job (fun s jb _ _ b x cs =>
    let g : Agent := { req := jb.req, work := .job job }
    if oPush x = 0 then completeJob s job .success 0 b.step
    else match readArray s g (b.state + arrayOff b.n 0 (b.step % 2)) b.n with
      | (s1, .inr st) => completeJob s1 job st 1 0
      | (s1, .inl (_, true)) => finish s1 job .poisonedData
      | (s1, .inl (ws, false)) => match preparePush s1 jb.req cs x ws with
        | (s2, .inr st) => completeJob s2 job st 3 0
        | (s2, .inl (bs, sat)) => endPush s2 job g x bs sat b.step))

end Sys2Proof.Machine
end

