-- ==== Sys2Proof/Machine/Parity.lean ====
section
/-! DEFINITION. Parity groups: joining, deltas, epochs and rebuild (R236 to R248). -/

namespace Sys2Proof.Machine

open Sys2Proof

def State.pgroup (s : State) (n : Nat) : Option PGroup := mget s.par.groups n
def State.setPg (s : State) (n : Nat) (g : PGroup) : State := { s with par := { s.par with groups := mset s.par.groups n g } }
def State.dropPg (s : State) (n : Nat) : State := { s with par := { s.par with groups := mdel s.par.groups n } }

/-! The parity share (R95, R237). -/

/-- Pages of a group's share. -/
def sharePages (p d size : Nat) : Nat := p * cdiv size (max 1 d)

/-- Local pages of the reserve, and those that hold shares. -/
def reserveList (s : State) : List (Nat × Nat) :=
  (s.lake.fw.filter (fun f => decide (f.kind = .reserve))).map (fun f => (f.base / pageBytes, f.pages))
def sharesTaken (s : State) : List (Nat × Nat) := (s.par.groups.map (fun g => g.2.share)).flatten

/-- Takes up to `n` pages of one run of the reserve around the runs already taken: the pages taken, as runs, and how many are
still wanted. `fuel` bounds the pieces. -/
def takeRun (taken : List (Nat × Nat)) : Nat → Nat → Nat → Nat → List (Nat × Nat) × Nat
  | 0, _, _, n => ([], n)
  | fuel + 1, lo, hi, n =>
    if n = 0 ∨ hi ≤ lo then ([], n)
    else match taken.find? (fun r => decide (r.1 ≤ lo) && decide (lo < r.1 + r.2)) with
      | some r => takeRun taken fuel (r.1 + r.2) hi n
      | none =>
        let stop := taken.foldl (fun m r => if lo < r.1 ∧ r.1 < m then r.1 else m) hi
        let k := min n (stop - lo)
        let (rs, left) := takeRun taken fuel (lo + k) hi (n - k)
        ((lo, k) :: rs, left)

/-- The pages of a new share: the lowest free ones of the reserve. -/
def placeShare (s : State) (n : Nat) : Option (List (Nat × Nat)) :=
  let taken := sharesTaken s
  let (rs, left) := (reserveList s).foldl (fun (a : List (Nat × Nat) × Nat) r =>
    let (xs, l) := takeRun taken (2 * taken.length + 2) r.1 (r.1 + r.2) a.2
    (a.1 ++ xs, l)) ([], n)
  if left = 0 then some rs else none

/-- The local page that holds page `n` of a share. -/
def sharePage : List (Nat × Nat) → Nat → Option Nat
  | [], _ => none
  | (b, k) :: rest, n => if n < k then some (b + n) else sharePage rest (n - k)

/-- Zeroes a share (R240). -/
def zeroShare (s : State) (rs : List (Nat × Nat)) : State :=
  rs.foldl (fun s r => { s with lake := { s.lake with mem := memClear s.lake.mem (r.1 * pageBytes) (r.2 * pageBytes) } }) s

/-! Firmware's connections (R241; log 20). -/

/-- The owner number of firmware's connections: no function has it. -/
def fwOwner : Nat := 4096

/-- Frees a slot at the end of a destroy (R106, R109). -/
def freeSlot (s : State) (cls i : Nat) : State :=
  let s1 := s.setSlot cls i { s.slot cls i with live := false, dying := false }
  { s1 with vat := { s1.vat with freed := mset s1.vat.freed cls (mgetD s1.vat.freed cls [] ++ [i]) } }

/-- Opens a connection to another member. -/
def openPeer (slot : Nat) (s : State) (p : PeerConn) : State :=
  match s.pgroup slot, newSlot s 3 (fun _ => true), spillOne s with
  | some g, some i, some s1 =>
    let c : Conn := { peerNode := g.nodes.getD p.member 0xFFFF, peerConn := p.peerConn, peerGen := p.peerGen, tc := 3, mtu := 0, ipv4 := p.ipv4, evtEn := false, peerIp := p.peerIp, paths := 1, ccprof := 0, cookie := p.cookie, ectr := 0, group := slot + 1 }
    bringOnDie (beginConn (openSlot s1 3 i fwOwner) i c) i
  | _, _, _ => s

/-- The group's connections. -/
def groupConns (s : State) (slot : Nat) : List (Nat × Conn) := s.carm.conns.filter (fun c => c.2.group == slot + 1)

/-- Closes one of them: CLOSE goes, and the slot is free. -/
def closePeer (s : State) (i : Nat) : State :=
  let s1 := sendClose s i
  let s2 := s1.setSlot 3 i { s1.slot 3 i with gen := ((s1.slot 3 i).gen + 1) % 4096 }
  freeSlot { s2 with carm := { s2.carm with conns := mdel s2.carm.conns i } } 3 i

/-- Opens connections to the members of a list, closing those that stood before. -/
def openPeers (s : State) (slot : Nat) (ps : List PeerConn) : State :=
  let nodes := match s.pgroup slot with
    | some g => ps.map (fun (p : PeerConn) => g.nodes.getD p.member 0xFFFF)
    | none => []
  let old := (groupConns s slot).filter (fun c => nodes.contains c.2.peerNode)
  ps.foldl (openPeer slot) (old.foldl (fun s c => closePeer s c.1) s)

/-! Deltas and epochs (R241 to R243). -/

/-- Ends a pending PAR_EPOCH with a status. -/
def endEpoch (s : State) (slot : Nat) (g : PGroup) (st : Status) : State :=
  match g.closing with
  | none => s
  | some job => (finish s job st).setPg slot { g with closing := none }

/-- More than P members are lost (R248): PG_REBUILD completes with peer-lost, and the writes that it held go on without protection. -/
def groupEnds (s : State) (slot : Nat) : State :=
  match s.pgroup slot with
  | none => s
  | some g =>
    let s1 := s.setPg slot { g with state := .lost, cmd := 0 }
    let s2 : State := { s1 with par := { s1.par with deltas := s1.par.deltas.filter (fun d => d.slot != slot) } }
    releaseHeld (if g.cmd = 0 then s2 else replyTo s2 g.cmd { status := .peerLost })

/-- A member is lost (R248): pending PAR_EPOCH commands end as peer-lost, deltas for it are dropped, and the group is degraded,
or lost beyond P members. -/
def memberLost (s : State) (slot m : Nat) : State :=
  match s.pgroup slot with
  | none => s
  | some g =>
    if g.lost.getLsbD m ∨ g.state = .joining then s
    else
      let lost := g.lost ||| BitVec.ofNat 16 (2 ^ m)
      let g1 := { g with lost := lost, state := if g.state = .normal then .degraded else g.state }
      let s1 := endEpoch (s.setPg slot g1) slot g1 .peerLost
      let drop (d : Delta) : Delta := if d.slot = slot then { d with holders := d.holders.filter (· ≠ m) } else d
      let s2 : State := { s1 with par := { s1.par with deltas := (s1.par.deltas.map drop).filter (fun d => d.slot != slot || !d.holders.isEmpty) } }
      if g.p < popcount 16 lost.toNat ∧ g.state ≠ .lost then groupEnds s2 slot else s2

/-- Number of a delta's message to a member. -/
def deltaKey (id m : Nat) : Nat := 16 * id + m

/-- Posts a message of firmware to another member, where a connection to it stands. Its packet is not laid out (log 20). -/
def postPeer (s : State) (slot m : Nat) (p : Poster) (data : List Byte) : State × Bool :=
  match s.pgroup slot with
  | none => (s, false)
  | some g => match (groupConns s slot).find? (fun c => c.2.peerNode == g.nodes.getD m 0xFFFF && decide (c.2.state ≠ .error)) with
    | none => (s, false)
    | some (i, _) =>
      let (n, s1) := s.draw
      (postMsg s1 i (scatterMsg p [⟨(Config.freeWord n).toNat, 0#32, data⟩] none), true)

/-- Posts one delta to one holder. -/
def postDelta (s : State) (d : Delta) (m : Nat) : State × Bool := postPeer s d.slot m (.parity (deltaKey d.id m)) d.data

/-- Bytes that the manual does not lay out (log 20). -/
def openBytes (s : State) : State × List Byte := let (n, s1) := s.draw; (s1, leBytes 8 (Config.freeWord n).toNat)

/-- The protected regions and runs of this member: its manifest (R243). -/
def ownManifest (s : State) (g : PGroup) : List ManifestEntry :=
  (s.lake.regions.filter (fun r => r.2.prot && r.2.pgroup == g.pgroup)).map (fun r => ⟨r.1, r.2, mgetD s.par.rprot r.1 0⟩)

/-- Stores the own manifest at every other member in service (R243): where there is none to store, nothing goes. -/
def sendManifest (s : State) (slot : Nat) (g : PGroup) : State :=
  ((List.range g.w).filter (fun m => m != g.member && !g.lost.getLsbD m)).foldl (fun s m =>
    let (s1, bs) := openBytes s
    (postPeer s1 slot m .none bs).1) s

/-- A survivor whose deltas are applied reports E and the lost member's manifest to the spare (R246 t1). -/
def reportStep (s : State) (slot : Nat) : State :=
  match s.pgroup slot with
  | none => s
  | some g =>
    if g.state ≠ .rebuilding ∨ g.spare = true ∨ g.reported = true ∨ s.par.deltas.any (fun d => d.slot == slot) = true then s
    else
      let (s1, bs) := openBytes s
      match postPeer s1 slot g.rebuildOf .none bs with
      | (_, false) => s
      | (s2, true) => s2.setPg slot { g with reported := true }

/-- Sends one delta on where it can go, and takes the acknowledgements that have come. -/
def pumpDelta (s : State) (d : Delta) : State × Delta :=
  d.holders.foldl (fun (a : State × Delta) m =>
    if a.2.posted.contains m then
      match takePosted a.1 (.parity (deltaKey d.id m)) with
      | (s1, some st) => if st.ok then (s1, { a.2 with holders := a.2.holders.filter (· ≠ m) }) else (s1, a.2)
      | (s1, none) => (s1, a.2)
    else match postDelta a.1 a.2 m with
      | (s1, true) => (s1, { a.2 with posted := a.2.posted ++ [m] })
      | (s1, false) => (s1, a.2)) (s, d)

/-- Members of a group whose connection has failed (R248; log 51). -/
def failedMembers (s : State) (slot : Nat) (g : PGroup) : List Nat :=
  (List.range g.w).filter (fun m => (groupConns s slot).any (fun c => c.2.peerNode == g.nodes.getD m 0xFFFF && decide (c.2.state = .error)))

/-- Parity traffic goes on: deltas leave, acknowledgements are taken, lost members are noted (R241, R248). -/
def paritySettle (s : State) : State :=
  let s1 := s.par.deltas.foldl (fun s d =>
    let (s2, d1) := pumpDelta s d
    { s2 with par := { s2.par with deltas := (s2.par.deltas.map (fun x => if x.id = d.id then d1 else x)).filter (fun x => !x.holders.isEmpty) } }) s
  (s1.par.groups).foldl (fun s g => reportStep ((failedMembers s g.1 g.2).foldl (fun s m => memberLost s g.1 m) s) g.1) s1

/-- A line of a parity share changes (R241). A poisoned line stays as it is. -/
def applyShare (s : State) (g : PGroup) (page line : Nat) (f : List Byte → List Byte) : State :=
  match sharePage g.share page with
  | none => s
  | some lp =>
    let a := lp * pageBytes + 64 * line
    let (s1, bs, ps) := lakeRead s a 64
    if ps.isEmpty then (lakeWrite s1 a (f bs)).1 else s1

/-- A delta reaches its holder (R239 to R241). -/
def applyDelta (s : State) (slot : Nat) (d : DeltaMsg) : State :=
  match s.pgroup slot with
  | none => s
  | some g =>
    let k := (g.member + g.w * (g.w + 1) - d.stripe % g.w - (g.w - g.p)) % g.w
    if g.p ≤ k ∨ d.pgroup ≠ g.pgroup then s
    else
      let page := d.stripe / g.w * g.p + k
      let coef := gfAlpha (k * d.pos)
      let s1 := applyShare s g page d.line (List.zipWith (fun (x y : Byte) => x ^^^ BitVec.ofNat 8 (gfMul coef y.toNat)) (ys := d.data))
      let mark := (page, d.epoch)
      s1.setPg slot { g with applied := min (2 ^ 64 - 1) (g.applied + 1), dirty := if g.dirty.contains mark then g.dirty else g.dirty ++ [mark] }

/-- A rebuild begins at a survivor: t1 of R246. -/
def rebuildBegins (s : State) (slot m : Nat) (peers : List PeerConn) : State :=
  let s1 := memberLost s slot m
  match s1.pgroup slot with
  | none => s1
  | some g =>
    if g.state = .lost ∨ g.state = .joining then s1
    else reportStep (openPeers (s1.setPg slot { g with state := .rebuilding, rebuildOf := m, reported := false }) slot (peers.filter (fun p => p.member == m))) slot

/-! Solving a stripe (R240, R245). -/

/-- The sum of lines with coefficients (R240). -/
def gfSum (cs : List Nat) (xs : List (List Byte)) : List Byte :=
  (List.zip cs xs).foldl (fun acc c => List.zipWith (fun (a x : Byte) => a ^^^ BitVec.ofNat 8 (gfMul c.1 x.toNat)) acc c.2) (List.replicate 64 0#8)

/-- Solves linear equations over the field of R174, the right sides being lines, by elimination: `n` unknowns. -/
def gfSolve : Nat → List (List Nat × List Byte) → Option (List (List Byte))
  | 0, _ => some []
  | n + 1, eqs =>
    match eqs.find? (fun e => e.1.headD 0 != 0) with
    | none => none
    | some piv =>
      let scale (c : Nat) (e : List Nat × List Byte) : List Nat × List Byte := (e.1.map (gfMul c), e.2.map (fun x => BitVec.ofNat 8 (gfMul c x.toNat)))
      let plus (a b : List Nat × List Byte) : List Nat × List Byte := (List.zipWith Nat.xor a.1 b.1, List.zipWith (· ^^^ ·) a.2 b.2)
      let p := scale (gfInv (piv.1.headD 0)) piv
      let rest := (eqs.erase piv).map (fun e => let x := plus e (scale (e.1.headD 0) p); (x.1.tail, x.2))
      match gfSolve n rest with
      | none => none
      | some xs => some (List.zipWith (· ^^^ ·) p.2 (gfSum p.1.tail xs) :: xs)

/-- The row of a position in the code of a stripe: its coefficients over the D data positions (R240). -/
def codeRow (d pos : Nat) : List Nat := (List.range d).map (fun j => if pos < d then b2n (j == pos) else gfAlpha ((pos - d) * j))

/-- The line at a position of a stripe, out of D lines of other positions: the data first, then the lowest-numbered parities (R246 t3).
None where the lines do not determine it. -/
def solveLine (d pos : Nat) (sources : List (Nat × List Byte)) : Option (List Byte) :=
  let given := (List.range (d + 3)).filterMap (fun i => if i = pos then none else (sources.find? (fun x => x.1 == i)).map (fun x => (i, slice x.2 0 64)))
  let eqs := (given.take d).map (fun x => (codeRow d x.1, x.2))
  if eqs.length < d then none else (gfSolve d eqs).map (gfSum (codeRow d pos))

/-- The position of a member in a stripe (R239). -/
def stripePos (w m stripe : Nat) : Nat := (m + w - stripe % w) % w

/-- The local line of a protected page (R238): none where no region has the page. -/
def protLine (s : State) (g : PGroup) (page line : Nat) : Option Nat :=
  (s.lake.regions.find? (fun r => r.2.prot && r.2.pgroup == g.pgroup && decide (mgetD s.par.rprot r.1 0 ≤ page) && decide (page < mgetD s.par.rprot r.1 0 + r.2.pages))).map
    (fun r => r.2.base + (page - mgetD s.par.rprot r.1 0) * pageBytes + 64 * line)

/-- A line of this member comes back from its stripe: a data line of a spare, or a parity line (R245, R246 t3). -/
def rebuildLine (g : PGroup) (data : Bool) (s : State) (x : StripeLine) : State :=
  let d := g.w - g.p
  let pos := stripePos g.w g.member x.stripe
  match solveLine d pos x.sources with
  | none => s
  | some bs =>
    if d ≤ pos then applyShare s g (x.stripe / g.w * g.p + (pos - d)) x.line (fun _ => bs)
    else if !data then s
    else match protLine s g (x.stripe / g.w * d + pos) x.line with
      | none => s
      | some a => (lakeWrite s a bs).1

/-- The regions of a manifest come back (R246 t2). -/
def recreateRegion (g : PGroup) (s : State) (m : ManifestEntry) : State :=
  let r := { m.region with prot := true, pgroup := g.pgroup, owner := g.owner }
  match allocPages s r.place r.home r.pages (r.base / pageBytes) with
  | none => s
  | some s1 =>
    let sl := s1.slot 8 m.slot
    let s2 := s1.setSlot 8 m.slot { sl with owner := g.owner, live := true, used := true, gen := r.gen }
    { s2 with lake := { s2.lake with regions := mset s2.lake.regions m.slot r }, par := { s2.par with rprot := mset s2.par.rprot m.slot m.first } }

/-- A survivor's report reaches the spare: the first one recreates the regions (R246 t2). -/
def reportIn (s : State) (slot : Nat) (g : PGroup) (epoch : Nat) (entries : List ManifestEntry) : State :=
  if g.spare && decide (g.state = .rebuilding) && !g.reported then
    entries.foldl (recreateRegion g) (s.setPg slot { g with commit := epoch, reported := true })
  else s

/-- A parity message has become visible on a connection (R241, R243, R246). -/
def parityMsg (s : State) (conn : Nat) (m : ParityMsg) : State :=
  match s.conn conn with
  | none => s
  | some c => match c.group with
    | 0 => s
    | slot + 1 => match s.pgroup slot with
      | none => s
      | some g => match m with
        | .delta d => applyDelta s slot d
        | .manifest _ entries => match (List.range g.w).find? (fun i => g.nodes.getD i 0xFFFF == c.peerNode) with
          | some i => s.setPg slot { g with manifests := mset g.manifests i entries }
          | none => s
        | .rebuild _ x peers => rebuildBegins s slot x peers
        | .report _ e entries => reportIn s slot g e entries
        | .recompute _ x => rebuildLine g false s x

/-- What arriving notices and parity messages do (R216, R241, R266). -/
def carmHooks : Hooks := { notice := blendNotice, delta := parityMsg }

/-- What the other blocks do when packets, memory or time have changed the state of messages: packets that waited for memory are
placed, and the collectives, the parity groups and the waiting jobs go on. -/
def settle (s : State) : State := wake (paritySettle (blendSettle (resumeAll carmHooks s)))

/-! Commands (R236, R237). -/

/-- Fields of the PG_JOIN block. -/
def pgW (b : BitVec 32256) : Nat := bn b 20 16
def pgP (b : BitVec 32256) : Nat := bn b 25 24
def pgS (b : BitVec 32256) : Nat := bn b 95 64
def pgNodes (b : BitVec 32256) : List Nat := (List.range (pgW b)).map (fun m => bn b (143 + 16 * m) (128 + 16 * m))

def pgFieldsOk (b : BitVec 32256) : Bool :=
  let w := pgW b
  bodyReserved b [(23, 21), (31, 26), (63, 48), (127, 96)] (128 + 16 * w) && bn b 15 0 != 0 && decide (4 ≤ w) && decide (w ≤ 16) &&
    decide (1 ≤ pgP b) && decide (pgP b + 2 ≤ w) && decide (bn b 35 32 < w) && decide (1 ≤ pgS b) && decide (pgS b ≤ 1570016)

/-- The group that a block describes. -/
def pgOf (b : BitVec 32256) : PGroup :=
  { pgroup := bn b 15 0, w := pgW b, p := pgP b, member := bn b 35 32, owner := bn b 47 36, size := pgS b, nodes := pgNodes b }

/-- Makes a group of a block in the lowest free slot (R237). -/
def makeGroup (s : State) (c : Cmd) (b : BitVec 32256) (spare : Bool) : State × Option Reply :=
  let g := pgOf b
  let need := sharePages g.p (g.w - g.p) g.size
  match (List.range 16).find? (fun n => (s.pgroup n).isNone) with
  | none => refuse s .outOfResources
  | some n => match placeShare s need with
    | none => refuse s .outOfResources
    | some rs =>
      (zeroShare (s.setPg n { g with cmd := c.id, since := s.now, share := rs, spare := spare, state := if spare then .rebuilding else .joining, toRebuild := if spare then g.size + need else 0 }) rs, none)

/-- PG_JOIN (R237). -/
def execPgJoin (pair : MboxId) (blk : CmdBlock) (s : State) : Host.Outcome State Fault Refusal :=
  next (fwCommand 0x020 true pair blk (fun s c b =>
    if !fromPf0 c then refuse s .accessDenied
    else if !pgFieldsOk b || decide (pgP b < parityMin (max 1 s.fab.size)) || (groupOf s (bn b 15 0)).isSome then refuse s .invalidField
    else makeGroup s c b false) s)

/-- Every member has joined alike, or a mismatch fails the join (R237). -/
def execPgJoinDone (group : Nat) (same : Bool) (peers : List PeerConn) (s : State) : Host.Outcome State Fault Refusal :=
  match s.pgroup group with
  | none => next s
  | some g =>
    if g.state ≠ .joining then next s
    else if !same then next (replyTo (s.dropPg group) g.cmd { status := .invalidField })
    else
      let g1 := { g with state := .normal, commit := 0, openE := 1, cmd := 0 }
      next (replyTo (openPeers (s.setPg group g1) group (peers.filter (fun p => decide (p.member < g.w) && p.member != g.member))) g.cmd { status := .success })

/-- 60 s without every member (R237). -/
def execPgJoinTimeout (group : Nat) (s : State) : Host.Outcome State Fault Refusal :=
  match s.pgroup group with
  | none => next s
  | some g => if g.state = .joining then next (replyTo (s.dropPg group) g.cmd { status := .remoteTimeout }) else next s

/-- PG_LEAVE (R236, R237); `othersHold` says whether another member holds a protected region of the group. -/
def execPgLeave (pair : MboxId) (blk : CmdBlock) (othersHold : Bool) (s : State) : Host.Outcome State Fault Refusal :=
  next (fwCommand 0x021 true pair blk (fun s c b =>
    if !fromPf0 c then refuse s .accessDenied
    else if !bodyReserved b [] 16 then refuse s .invalidField
    else match groupOf s (bn b 15 0) with
      | none => refuse s .invalidField
      | some (n, g) =>
        if othersHold || g.cmd != 0 || s.lake.regions.any (fun r => r.2.prot && r.2.pgroup == g.pgroup) then refuse s .busy
        else
          let s1 := (groupConns s n).foldl (fun s k => closePeer s k.1) (endEpoch s n g .aborted)
          accept { s1.dropPg n with par := { (s1.dropPg n).par with deltas := s1.par.deltas.filter (fun d => d.slot != n) } }) s)

/-- PAR_EPOCH (R242, R243). A second close waits for the first. -/
def execParEpoch (job : Nat) (s : State) : Host.Outcome State Fault Refusal :=
  match jobOf s job 0x52 .started with
  | none => next s
  | some jb =>
    let d := jb.desc
    if !epochBodyOk d then next (finish s job .invalidField)
    else match groupOf s (bn d 207 192) with
      | none => next (finish s job .accessDenied)
      | some (n, g) =>
        if g.owner ≠ jb.fn ∨ g.state = .joining then next (finish s job .accessDenied)
        else if bn d 319 256 ≠ g.openE then next (finish s job (.cls 0x55))
        else if g.state ≠ .normal then next (finish s job .peerLost)
        else if g.closing.isSome then next s
        else next ((s.setJob job { jb with phase := .running }).setPg n { g with closing := some job, openE := (g.openE + 1) % 2 ^ 64 })

/-- Every member has started the close, and the own deltas of the epoch are applied: the epoch commits, and the manifest goes to the
other members (R243). -/
def execEpochCommit (group : Nat) (s : State) : Host.Outcome State Fault Refusal :=
  let s1 := paritySettle s
  match s1.pgroup group with
  | none => next s1
  | some g => match g.closing with
    | none => next s1
    | some job =>
      let e := g.openE - 1
      if g.state ≠ .normal ∨ s1.par.deltas.any (fun d => d.slot == group && decide (d.epoch ≤ e)) = true then next s1
      else
        let g1 := { g with commit := e, closing := none, dirty := g.dirty.filter (fun x => decide (e < x.2)) }
        next (finish (sendManifest (s1.setPg group g1) group g1) job .success)

/-! Rebuild (R246). -/

/-- What PG_REBUILD does: on a survivor it begins the rebuild there; on the spare it takes the lost member's place and opens the
group's connections (R246 t0, R248). -/
def pgRebuildBody (peers : List PeerConn) (s : State) (c : Cmd) (b : BitVec 32256) : State × Option Reply :=
  if !fromPf0 c then refuse s .accessDenied
  else if !pgFieldsOk b then refuse s .invalidField
  else match groupOf s (bn b 15 0) with
    | some (n, g) =>
      let x := pgOf b
      if x.w ≠ g.w ∨ x.p ≠ g.p ∨ x.size ≠ g.size ∨ x.nodes ≠ g.nodes ∨ x.member = g.member then refuse s .invalidField
      else if g.cmd ≠ 0 then refuse s .busy
      else
        let s1 := rebuildBegins s n x.member peers
        match s1.pgroup n with
        | none => refuse s1 .peerLost
        | some g1 => if g1.state = .lost then refuse s1 .peerLost else (s1.setPg n { g1 with cmd := c.id, since := s1.now }, none)
    | none =>
      if pgP b < parityMin (max 1 s.fab.size) ∨ (pgNodes b).getD (bn b 35 32) 0xFFFF ≠ s.fab.node then refuse s .invalidField
      else match makeGroup s c b true with
        | (s1, some x) => (s1, some x)
        | (s1, none) => match groupOf s1 (bn b 15 0) with
          | some (n, g) => (openPeers s1 n (peers.filter (fun p => decide (p.member < g.w) && p.member != g.member)), none)
          | none => (s1, none)

/-- PG_REBUILD (R246). -/
def execPgRebuild (pair : MboxId) (blk : RebuildBlk) (s : State) : Host.Outcome State Fault Refusal :=
  next (fwCommand 0x022 true pair blk.blk (pgRebuildBody blk.peers) s)

/-- t3 of R246 at one member: a spare gets its data lines back, then every member its parity lines. -/
def rebuildLines (g : PGroup) (s : State) (data parity : List StripeLine) : State :=
  parity.foldl (rebuildLine g false) ((if g.spare then data else []).foldl (rebuildLine g true) s)

/-- t4 of R246 at one member: the epochs, the dirty marks, the members that are back, the held writes, the reply. -/
def endRebuild (s : State) (slot : Nat) (g : PGroup) (epoch : Nat) (peers : List PeerConn) : State :=
  let back := peers.map (·.member)
  let lost := (List.range 16).foldl (fun (v : BitVec 16) m => if g.lost.getLsbD m && !back.contains m then v ||| BitVec.ofNat 16 (2 ^ m) else v) 0#16
  let g1 : PGroup := { g with state := if lost = 0#16 then .normal else .degraded, lost := lost, commit := epoch, openE := (epoch + 1) % 2 ^ 64, closing := none, dirty := [], cmd := 0, rebuilt := if g.spare then g.toRebuild else g.rebuilt, spare := false, reported := false }
  let absent := peers.filter (fun p => decide (p.member < g.w) && p.member != g.member && !(groupConns s slot).any (fun c => c.2.peerNode == g.nodes.getD p.member 0xFFFF && decide (c.2.state ≠ .error)))
  let s1 := releaseHeld (openPeers (s.setPg slot g1) slot absent)
  settle (if g.cmd = 0 then s1 else replyTo s1 g.cmd { status := .success })

/-- The rebuild has ended (R246 t4, R248). The data lines of a spare and the parity lines are solved from the stripe lines
read from the other members (R245). It cannot end before the spare has a manifest, and before a survivor's deltas are applied. -/
def execPgRebuildDone (group : Nat) (ok : Bool) (epoch : Nat) (data parity : List StripeLine) (peers : List PeerConn) (s : State) : Host.Outcome State Fault Refusal :=
  match s.pgroup group with
  | none => next s
  | some g =>
    if g.state ≠ .rebuilding then next s
    else if !ok then next (groupEnds s group)
    else if (if g.spare then !g.reported else s.par.deltas.any (fun d => d.slot == group)) then next (settle s)
    else
      let s1 := (rebuildLines g (s.setPg group { g with state := .lost }) data parity).setPg group g
      next (endRebuild s1 group g epoch peers)

end Sys2Proof.Machine
end

