-- ==== Sys2Proof/Machine/CarmLate.lean ====
section
/-! DEFINITION. Commands of Carmine after which the collectives and the parity groups go on: packets that arrive (R273 to R278),
packets that leave, and the timers that may end a connection (R255, R279, R281, R284, R286). -/

namespace Sys2Proof.Machine

open Sys2Proof

/-- The oldest arrived packet of a TYPE is handled. -/
def packetIn (s : State) (ty kind : Nat) (delta : Option ParityMsg) : State := settle (onPacket carmHooks s ty kind delta)

/-- CONNECT arrives (R255). -/
def execConnect (s : State) : Host.Outcome State Fault Refusal := next (packetIn s 7 1 none)

/-- CONNECT_ACK arrives (R255). -/
def execConnectAck (s : State) : Host.Outcome State Fault Refusal := next (packetIn s 7 2 none)

/-- CLOSE arrives (R254). -/
def execClose (s : State) : Host.Outcome State Fault Refusal := next (packetIn s 7 3 none)

/-- PROBE arrives (R281). -/
def execProbe (s : State) : Host.Outcome State Fault Refusal := next (packetIn s 7 4 none)

/-- PROBE_ACK arrives (R281). -/
def execProbeAck (s : State) : Host.Outcome State Fault Refusal := next (packetIn s 7 5 none)

/-- A DATA packet arrives (R274); `delta` says what a packet of a parity group carries (log 20). -/
def execDataPacket (delta : Option ParityMsg) (s : State) : Host.Outcome State Fault Refusal := next (packetIn s 0 0 delta)

/-- An ACK arrives (R277). -/
def execAckPacket (s : State) : Host.Outcome State Fault Refusal := next (packetIn s 1 0 none)

/-- A NACK arrives (R264, R279). -/
def execNackPacket (s : State) : Host.Outcome State Fault Refusal := next (packetIn s 2 0 none)

/-- READ_REQ arrives (R271). -/
def execReadReq (s : State) : Host.Outcome State Fault Refusal := next (packetIn s 3 0 none)

/-- READ_RESP arrives (R271). -/
def execReadResp (s : State) : Host.Outcome State Fault Refusal := next (packetIn s 4 0 none)

/-- ATOMIC_REQ arrives (R271). -/
def execAtomicReq (s : State) : Host.Outcome State Fault Refusal := next (packetIn s 5 0 none)

/-- ATOMIC_RESP arrives (R271). -/
def execAtomicResp (s : State) : Host.Outcome State Fault Refusal := next (packetIn s 6 0 none)

/-- A context arrives on die (R284). -/
def execContextArrived (conn : Nat) (s : State) : Host.Outcome State Fault Refusal := next (settle (contextArrives carmHooks s conn))

/-- A packet leaves (R279 to R281); deltas that wait are posted before (R241). -/
def execPacketSend (conn : Nat) (s : State) : Host.Outcome State Fault Refusal := next (settle (packetSend (paritySettle s) conn))

/-- 10 s in CONNECTING (R255). -/
def execConnectingTimeout (conn : Nat) (s : State) : Host.Outcome State Fault Refusal := next (settle (connectingTimeout conn s))

/-- The keepalive time of an idle connection (R281). -/
def execKeepaliveTimer (conn : Nat) (s : State) : Host.Outcome State Fault Refusal := next (settle (keepaliveTimer conn s))

/-- RTO passes for a PSN (R279, R281). -/
def execRtoExpiry (conn psn : Nat) (s : State) : Host.Outcome State Fault Refusal := next (settle (rtoExpiry conn psn s))

/-- EPSN has not advanced for NOPROG ms (R279). -/
def execNoprogExpiry (conn : Nat) (s : State) : Host.Outcome State Fault Refusal := next (settle (noprogExpiry conn s))

/-- CARM_NODE_LOST (R286). -/
def execCarmNodeLost (pair : MboxId) (blk : CmdBlock) (s : State) : Host.Outcome State Fault Refusal := next (settle (carmNodeLost pair blk s))

end Sys2Proof.Machine
end

