-- ==== Sys2Proof/Machine/IsaSys.lean ====
section
/-! DEFINITION. Synchronisation, events, counters and engine starts of a core (R435 to R438), exceptions of the fetch and of
reserved encodings (R439), the timed-wait deadline (R151). -/

namespace Sys2Proof.Machine

open Sys2Proof

/-- Carries the package-scope release of R148 before `f`: dirty lines are written back, and the instruction waits while the
core's window writes are on their way. -/
def afterRelease (i : Nat) (s : State) (f : State → Exec) : Exec :=
  let s1 := writeBackAll s i
  if released s1 i then f s1 else .wait s1

/-- FENCE (R147, R435). A release of package scope writes the data cache back; an acquire drops its clean lines. -/
def execFence (core : Nat) (s : State) : Host.Outcome State Fault Refusal :=
  next (isa .fence core (fun w s =>
    let fn := iFN w
    let acq (s : State) : Exec := .done (if fn.testBit 3 then dropClean s core else s)
    if fn.testBit 2 && fn % 4 == 2 then afterRelease core s acq else acq s) s)

/-- ICINV (R435): scratch stores of a core take effect at once. -/
def execIcinv (core : Nat) (s : State) : Host.Outcome State Fault Refusal :=
  next (isa .icinv core (fun _ s => .done (s.setCore core { s.core core with icache := [] })) s)

/-- The status a program reports at HALT (R435): a code that R126 does not name, nor the class of the work, is program-fault. -/
def haltStatus (p : Option Prog) (code : Nat) : Nat :=
  let named := (Status.ofCode code).isSome || (match p with
    | some (.optStep _) => code == 0x54 || code == 0x55 || code == 0x5A
    | _ => false)
  if named then code else Status.programFault.code

/-- HALT (R435). -/
def execHalt (core : Nat) (s : State) : Host.Outcome State Fault Refusal :=
  next (isa .halt core (fun _ s =>
    let k := s.core core
    .stop (endCore s core (haltStatus k.prog (bn (k.getG 1) 7 0)) 0 (k.getG 2).toNat)) s)

/-- WFE (R436): with nothing enabled pending, the core waits; it is asked again when it may go on. -/
def execWfe (core : Nat) (s : State) : Host.Outcome State Fault Refusal :=
  next (isa .wfe core (fun w s =>
    let k := s.core core
    let mask : W32 := BitVec.ofNat 32 (bn (k.getG (iA w)) 31 0)
    let hit := k.evt &&& mask
    if mask = 0#32 ∨ hit ≠ 0#32 then .done (s.setCore core ({ k with evt := k.evt &&& ~~~hit }.setG (iD w) (BitVec.ofNat 64 hit.toNat)))
    else .wait (s.setCore core { k with run := .waiting, wfeMask := mask })) s)

/-- EVRD (R436). -/
def execEvrd (core : Nat) (s : State) : Host.Outcome State Fault Refusal :=
  next (isaG .evrd core (fun _ k => BitVec.ofNat 64 k.evt.toNat) s)

/-- Sets pending-event bits of a core (R150). -/
def setEvt (s : State) (i : Nat) (bits : Nat) : State :=
  let k := s.core i
  s.setCore i { k with evt := k.evt ||| BitVec.ofNat 32 bits }

/-- A send-event from core `i` to core ID `t` (R151, R436). -/
def sendEvent (s : State) (i t : Nat) : State :=
  let c := coreCluster i
  let d := coreCluster t
  let drop := s.count (OCH_CL_EV_DROP c)
  if 512 ≤ t ∨ (s.core t).run = .absent then drop
  else if d = c then setEvt s t (2 ^ (4 + i % 8))
  else if (s.cl d).owner = (s.cl c).owner ∧ (s.cl d).world = (s.cl c).world ∧ (s.cl d).cstate = .inService then setEvt s t (2 ^ 12)
  else drop

/-- SEV (R436). -/
def execSev (core : Nat) (s : State) : Host.Outcome State Fault Refusal :=
  next (isa .sev core (fun w s => afterRelease core s (fun s => .done (sendEvent s core ((s.core core).getG (iA w)).toNat))) s)

/-- TDL (R436). -/
def execTdl (core : Nat) (s : State) : Host.Outcome State Fault Refusal :=
  next (isa .tdl core (fun w s =>
    let k := s.core core
    let t := k.getG (iA w)
    .done (s.setCore core { k with deadline := if t = 0#64 then none else some t })) s)

/-- The local time counter of the core's region reaches the deadline, and TIMER becomes pending (R151). -/
def execTimedWaitDeadline (core : Nat) (s : State) : Host.Outcome State Fault Refusal :=
  let k := s.core core
  match k.deadline with
  | none => next s
  | some t => if t.toNat ≤ s.now then next (setEvt (s.setCore core { k with deadline := none }) core (2 ^ 15)) else next s

/-- TIME (R436). -/
def execTime (core : Nat) (s : State) : Host.Outcome State Fault Refusal :=
  next (isa .time core (fun w s => .done (s.setCore core ((s.core core).setG (iD w) (BitVec.ofNat 64 s.now)))) s)

/-- A core reaches a counter (R437): gA[63:16] is zero, and the counter lies in a set of the owner, or firmware owns the
cluster. -/
def coreReaches (s : State) (i : Nat) (g : W64) : Bool :=
  let r := coreReq s i
  decide (g.toNat < 65536) && (r.firmware || ownsCtr s r.fn g.toNat)

/-- A counter operation: `f` gives the new value, or none for a read; gD → the value before (R437). -/
def isaCtr (m : Mn) (i : Nat) (f : W32 → Core → W64 → Option W64) (s : State) : State :=
  isa m i (fun w s =>
    let g := (s.core i).getG (iA w)
    if !coreReaches s i g then .xcpt s 2 g.toNat
    else afterRelease i s (fun s =>
      let old := s.ctr g.toNat
      let s1 := match f w (s.core i) old with
        | some v => s.putCtr g.toNat v
        | none => s
      .done (s1.setCore i ((s1.core i).setG (iD w) old)))) s

/-- CADD (R437). -/
def execCadd (core : Nat) (s : State) : Host.Outcome State Fault Refusal :=
  next (isaCtr .cadd core (fun w k old => some (old + k.getG (iB w))) s)

/-- CSET (R437). -/
def execCset (core : Nat) (s : State) : Host.Outcome State Fault Refusal :=
  next (isaCtr .cset core (fun w k _ => some (k.getG (iB w))) s)

/-- CRD (R437). -/
def execCrd (core : Nat) (s : State) : Host.Outcome State Fault Refusal := next (isaCtr .crd core (fun _ _ _ => none) s)

/-- Sets a watch of a core. -/
def setWatch (k : Core) (j : Nat) (x : Watch) : Core := { k with watch := mset k.watch j x }

/-- CWATCH (R437): the condition is tested at arming. -/
def execCwatch (core : Nat) (s : State) : Host.Outcome State Fault Refusal :=
  next (isa .cwatch core (fun w s =>
    let g := (s.core core).getG (iA w)
    if !coreReaches s core g then .xcpt s 2 g.toNat
    else afterRelease core s (fun s =>
      let k := s.core core
      .done (s.setCore core (fireWatches g.toNat (s.ctr g.toNat) (setWatch k (iSel w) ⟨.armed, g.toNat, k.getG (iB w)⟩))))) s)

/-- CUNWATCH (R437): a pending WATCH bit stays. -/
def execCunwatch (core : Nat) (s : State) : Host.Outcome State Fault Refusal :=
  next (isa .cunwatch core (fun w s => afterRelease core s (fun s => .done (s.setCore core (setWatch (s.core core) (iSel w) {})))) s)

/-- State code of a watch (R437). -/
def WState.code : WState → Nat
  | .idle => 0
  | .armed => 1
  | .fired => 2
  | .cancelled => 3

/-- CWST (R437). -/
def execCwst (core : Nat) (s : State) : Host.Outcome State Fault Refusal :=
  next (isa .cwst core (fun w s => afterRelease core s (fun s =>
    let k := s.core core
    let v := ((List.range 4).map (fun j => at_ (2 * j) (mgetD k.watch j {}).st.code)).sum
    .done (s.setCore core (k.setG (iD w) (BitVec.ofNat 64 v))))) s)

/-- An operand of an engine start or a POST: an offset in the core's own scratch (R438). -/
def ownScratch (s : State) (i ga len align : Nat) : Option Nat :=
  if ga % align ≠ 0 then none
  else match scratchAddr s (coreCluster i) ga len with
    | .inl (.scratch c off) => if c = coreCluster i then some off else none
    | _ => none

/-- The conditions on a core-started descriptor (R176, R438), R120's counters, then the engine: `inl` the job runs,
`inr` its completion. The state counts refused accesses. -/
def coreJobCheck (s : State) (j : Job) (id c : Nat) (codec : Bool) : State × (Unit ⊕ (Status × Nat)) :=
  let d := j.desc
  let kind := if codec then dOpcode d == 0x08 else j.isMatrix
  let plain := !dCmpl d && !dFence d && !dWait d && !dTrig d && dTarget d == 0#64
  let own := (if codec then cCluster d else mCluster d) == c
  if !kind || !plain || !headerOk d || !own || (bodyStatic d).isSome then (s, .inr (.invalidField, 0))
  else if dInc d && !(j.firmware || ownsCtr s j.fn (dIncCtr d)) then (s, .inr (.accessDenied, 0))
  else if !engAlive s c codec then (s, .inr (.unitFault, 0))
  else if codec then
    match codecStart s d (.inl c) with
    | .inl _ => (s, .inl ())
    | .inr st => (s, .inr (st, 0))
  else match matCheck s (j.matAgent id c) d c with
    | (s1, some r) => (s1, .inr r)
    | (s1, none) => (s1, .inl ())

/-- Starts an engine job from a core's descriptor and status slot (R176): it completes at once when it is refused. -/
def startCoreJob (s : State) (i off : Nat) (d : Desc) (codec : Bool) : State :=
  let c := coreCluster i
  let r := coreReq s i
  let id := s.vat.nextJob
  let j : Job := { ring := noRing, ringGen := 0, fn := r.fn, slot := 0, posted := false, seq := 0, desc := d, incSet := if dInc d then ctrSetGen s r.fn (dIncCtr d) else none, phase := .accepted, unit := some c, core := some (i, off), firmware := r.firmware, secure := r.secure }
  let s1 : State := { s with vat := { s.vat with nextJob := id + 1, jobs := mset s.vat.jobs id j } }
  match coreJobCheck s1 j id c codec with
  | (s2, .inr (st, detail)) => let s3 := completeJob s2 id st detail 0; if codec then s3 else s3.count (IND_JOBS c)
  | (s2, .inl _) => startEngine s2 c codec

/-- ISTART and PSTART (R438): they wait while the engine's core-started queue is full. -/
def isaStart (m : Mn) (i : Nat) (codec : Bool) (s : State) : State :=
  isa m i (fun w s =>
    let k := s.core i
    let ga := (k.getG (iA w)).toNat
    let gb := (k.getG (iB w)).toNat
    match ownScratch s i ga 64 64, ownScratch s i gb 32 32 with
    | none, _ => .xcpt s 2 ga
    | some _, none => .xcpt s 2 gb
    | some a, some b =>
      let c := coreCluster i
      if 8 ≤ (s.vat.jobs.filter (fun p => p.2.onEngine c codec && p.2.accepted && p.2.core.isSome)).length then .wait s
      else afterRelease i s (fun s =>
        let (s1, bs, bad) := scrRead s c a 64
        if bad then .xcpt s1 3 ga else .done (startCoreJob s1 i b (BitVec.ofNat 512 (leNat bs)) codec))) s

/-- ISTART (R438). -/
def execIstart (core : Nat) (s : State) : Host.Outcome State Fault Refusal := next (isaStart .istart core false s)

/-- PSTART (R438). -/
def execPstart (core : Nat) (s : State) : Host.Outcome State Fault Refusal := next (isaStart .pstart core true s)

/-- A reserved encoding at PC raises the illegal-instruction exception; a fetch that is refused or poisoned raises its own
(R428, R439). -/
def execIllegalInstruction (core : Nat) (s : State) : Host.Outcome State Fault Refusal :=
  if (s.core core).run ≠ .running then next s
  else match coreFetch s core with
    | .ok s1 bs =>
      let w : W32 := BitVec.ofNat 32 (leNat bs)
      if (isaDecode w).isNone then next (takeXcpt s1 core 1 0 w) else next s
    | .xcpt s1 cause addr => next (takeXcpt s1 core cause addr 0#32)
    | .wait s1 => next s1

end Sys2Proof.Machine
end

