-- ==== Sys2Proof/Machine/Ap.lean ====
section
/-! DEFINITION. The accelerator ports: lanes and training (R293 to R296), flits and link-level retry (R297 to R303), transactions
of a partner (R304 to R309), and POST, from a partner and from a core (R307, R438). -/

namespace Sys2Proof.Machine

open Sys2Proof

/-! Lanes. -/

/-- Unit of a lane of a port (R15). -/
def laneUnit (p l : Nat) : Nat := unitId (16 + p / 4) (4 + p % 4) l

/-- Lanes of a port that are not retired, and those of them that were good at the last test (R295). -/
def livingLanes (s : State) (p : Nat) : List Nat := (List.range 66).filter (fun l => !s.retired (laneUnit p l))
def goodLanes (s : State) (p : Nat) : List Nat := (livingLanes s p).filter (fun l => (s.port p).good.getLsbD l)

/-- Good lanes that carry no data (R295). -/
def standbyLanes (s : State) (p : Nat) : List Nat := (goodLanes s p).filter (fun l => !(s.port p).lanes.contains l)

/-- Retires lanes that have failed (R296; log 52). -/
def failLanes (s : State) (p : Nat) (ls : List Nat) : State :=
  ls.foldl (fun s l => markRetired (s.trouble (laneUnit p l) .fx) (laneUnit p l)) s

/-- Credits that the KY9 advertises on a VC, and the least that a partner may (R302). -/
def apCredits (vc : Nat) : Nat := [128, 512, 512, 64].getD vc 0
def apLeast (vc : Nat) : Nat := [32, 256, 256, 32].getD vc 0

/-! A link that goes down (R315). -/

/-- Notes that work of a window has failed. A core's store that is lost is reported to nobody (log 29). -/
def failWork (s : State) (w : Work) : State :=
  let live := match w with
    | .job id => (mget s.vat.jobs id).isSome
    | _ => true
  match w.key with
  | some k => if live then { s with ap := { s.ap with failed := mset s.ap.failed k .portError } } else s
  | none => s

/-- The works that a port's traffic belongs to: of unanswered requests, and of writes that are not acknowledged. -/
def portWorks (x : ApPort) : List Work :=
  x.reqs.map (·.work) ++ ((x.tx.map (fun q => q.2.filterMap (fun t => t.work))).flatten ++ (x.replay.map (·.works)).flatten).filter (fun w => match w with
    | .core _ => false
    | _ => true)

/-- Clears the link: work under way fails, requests and answers of the partner that wait are dropped, and what it has posted stays
(R315). -/
def dropLink (s : State) (p : Nat) : State :=
  let x := s.port p
  let y : ApPort := {
    pstate := x.pstate, enabled := x.enabled, present := x.present, cause := x.cause, owner := x.owner, partner := x.partner
    everHalf := x.everHalf, lateTags := x.lateTags, posts := x.posts, nextTxn := x.nextTxn, expTimes := x.expTimes
    inbox := (x.inbox.filter (fun t => decide (2 ≤ t.vc))).map (fun t => { t with frees := 0 }) }
  (portWorks x).foldl failWork (s.setPort p y)

/-- The port goes down, for a cause of R317. With fewer than 32 lanes left it is retired (R511). -/
def portDown (s : State) (p cause : Nat) : State :=
  let s1 := dropLink s p
  let st : PState := if (livingLanes s1 p).length < 32 then .retired else if (s1.port p).enabled then .down else .disabled
  s1.setPort p { s1.port p with pstate := st, cause := cause }

/-- Training begins: t0 of R295. A port without a partner is not trained (R541). -/
def trainPort (s : State) (p : Nat) : State :=
  let x := s.port p
  if x.pstate = .retired ∨ (livingLanes s p).length < 32 then portDown s p 1
  else if !x.enabled then portDown s p 5
  else if !x.present then portDown s p 2
  else
    let s1 := dropLink s p
    s1.setPort p { s1.port p with pstate := .training, t0 := s.now }

/-- A full retrain (R302, R314). -/
def fullRetrain (s : State) (p cause : Nat) : State :=
  let s1 := s.count (APRT_RETRAIN p)
  trainPort (s1.setPort p { s1.port p with cause := cause }) p

/-- A fast retrain begins: transactions wait, and the replay buffer will be resent (R296). -/
def fastRetrain (s : State) (p : Nat) : State :=
  let s1 := s.count (APRT_RETRAIN p)
  let x := s1.port p
  s1.setPort p { x with fast := true, nakSent := 0, nakGot := (0, 0), swap := none, control := [] }

/-- After anything on a port: jobs, Carmine placements and the blocks behind them go on. -/
def afterPort (s : State) : State := settle (finishEnding s)

/-- A command on a port that exists. -/
def onPort (p : Nat) (f : ApPort → State → State) (s : State) : Host.Outcome State Fault Refusal :=
  next (if p < 8 then afterPort (f (s.port p) s) else s)

/-! Training (R295, R296). -/

/-- The data lanes: the 64 lowest-numbered good lanes, or the 32 lowest; a port that has run at half width stays there (R295,
R296). -/
def dataLanes (s : State) (p : Nat) : List Nat :=
  let g := goodLanes s p
  if 64 ≤ g.length ∧ (s.port p).everHalf = false then g.take 64 else g.take 32

/-- Payload of LANE_MAP, of CAPS and of LANE_SWAP from byte 8 on (R300). -/
def laneMapBytes (lanes : List Nat) : List Byte := slice (lanes.map (BitVec.ofNat 8)) 0 66
def capsBytes : List Byte := leBytes 8 (apCredits 0 + at_ 16 (apCredits 1) + at_ 32 (apCredits 2) + at_ 48 (apCredits 3)) ++ List.replicate 12 0#8
def swapBytes (logical phys : Nat) : List Byte := leBytes 2 (logical + at_ 8 phys)

/-- A spare lane that carries data stands for a retired one (R19). -/
def noteSpares (s : State) (p : Nat) : State :=
  let gone := (List.range 64).filter (fun l => s.retired (laneUnit p l))
  let used := [64, 65].filter (fun l => (s.port p).lanes.contains l && decide ((s.unit (laneUnit p l)).state = .spare))
  let taken := [64, 65].filterMap (fun l => (s.unit (laneUnit p l)).standsFor)
  (used.zip ((gone.map (laneUnit p)).filter (fun u => !taken.contains u))).foldl (fun s x => standIn s (laneUnit p x.1) x.2) s

/-- t1 and t2 of R295: the tests have ended on every lane. -/
def execLaneTestDone (port : Nat) (good : BitVec 66) (s : State) : Host.Outcome State Fault Refusal :=
  onPort port (fun x s =>
    if x.pstate ≠ .training ∨ x.mapped = true then s
    else
      let s1 := s.setPort port { x with good := good }
      if (goodLanes s1 port).length < 32 then portDown s1 port 1
      else
        let s2 := failLanes s1 port ((livingLanes s1 port).filter (fun l => !good.getLsbD l))
        let ls := dataLanes s2 port
        noteSpares (s2.setPort port { s2.port port with lanes := ls, mapped := true, control := [(5, laneMapBytes ls), (4, capsBytes)] }) port) s

/-- A training that misses its bound (R295): before the lane map for want of good lanes, after it for want of a partner. -/
def execTrainingTimeout (port : Nat) (s : State) : Host.Outcome State Fault Refusal :=
  onPort port (fun x s => if x.pstate = .training then portDown s port (if x.mapped then 2 else 1) else s) s

/-- An enabled port that is down trains again every 1 s (R295). -/
def execTrainingRetryTimer (port : Nat) (s : State) : Host.Outcome State Fault Refusal :=
  onPort port (fun x s => if x.pstate = .down ∧ x.enabled = true then trainPort s port else s) s

/-- The retest of the standby lanes (R295): a lane that fails is retired. -/
def execStandbyLaneRetest (port : Nat) (good : BitVec 66) (s : State) : Host.Outcome State Fault Refusal :=
  onPort port (fun x s =>
    if !x.up then s
    else
      let bad := (standbyLanes s port).filter (fun l => !good.getLsbD l)
      failLanes s port bad) s

/-- A data lane is lost (R296); `ue` of its FEC codewords were uncorrectable. -/
def execLaneLoss (port lane ue : Nat) (s : State) : Host.Outcome State Fault Refusal :=
  onPort port (fun x s =>
    if !x.up || !x.lanes.contains lane then s
    else fastRetrain (markRetired ((s.trouble (laneUnit port lane) .ue ue).trouble (laneUnit port lane) .fx) (laneUnit port lane)) port) s

/-- A fast retrain ends (R296). -/
def execFastRetrainDone (port : Nat) (good : BitVec 66) (s : State) : Host.Outcome State Fault Refusal :=
  onPort port (fun x s =>
    if !x.up || !x.fast then s
    else
      let s1 := s.setPort port { x with good := good }
      if (goodLanes s1 port).length < 32 then portDown s1 port 1
      else
        let s2 := failLanes s1 port ((livingLanes s1 port).filter (fun l => !good.getLsbD l))
        let ls := dataLanes s2 port
        let y := s2.port port
        noteSpares (s2.setPort port { y with
          lanes := ls, fast := false, pstate := if ls.length = 64 then .full else .half, everHalf := y.everHalf || decide (ls.length < 64)
          control := if ls = y.lanes then y.control else [(5, laneMapBytes ls)], resend := y.replay }) port) s

/-- A 10 ms FEC window of a data lane closes (R293, R296): at 21.25 G symbols/s, 1 in 10^6 is 212.5 symbols. -/
def execLaneFecWindow (port lane corrected : Nat) (s : State) : Host.Outcome State Fault Refusal :=
  onPort port (fun x s =>
    if !x.up then s
    else
      let s1 := s.count (APRT_FEC_CE port) corrected
      if corrected * 1000000 ≤ 212500000 then s1
      else
        let s2 := s1.trouble (laneUnit port lane) .ce
        match x.lanes.findIdx? (· == lane), standbyLanes s port with
        | some i, k :: _ => if x.swap.isSome ∨ x.fast = true then s2 else s2.setPort port { s2.port port with swap := some (i, k), control := (s2.port port).control ++ [(2, swapBytes i k)] }
        | _, _ => s2) s

/-! Flits that arrive (R297 to R303). -/

/-- A flit as it arrives (R297). -/
structure FlitIn where
  kind : Nat
  vc : Nat
  first : Nat
  crcnt : Nat
  crvc : Nat
  ack : Nat
  seq : Nat
  payload : List Byte
deriving DecidableEq, Repr

/-- Reads a flit: none for a wrong CRC or a reserved header field (R297, R298). -/
def readFlit (bs : List Byte) : Option FlitIn :=
  let h : W64 := BitVec.ofNat 64 (leAt bs 0 8)
  let kind := bn h 3 0
  if bs.length ≠ 256 ∨ leAt bs 248 8 ≠ crc64 (bs.take 248) then none
  else if !zeroBits h 19 18 || !zeroBits h 63 44 || decide (2 < kind) || (kind != 1 && (bn h 5 4 != 0 || bn h 43 32 != 0)) then none
  else some ⟨kind, bn h 5 4, bn h 9 6, bn h 15 10, bn h 17 16, bn h 31 20, bn h 43 32, slice bs 8 240⟩

/-- The ACK and the credits of a header (R299, R302). -/
def applyFlit (x : ApPort) (f : FlitIn) : ApPort :=
  let open_ (r : TxFlit) : Bool := decide (1024 ≤ (f.ack + 4096 - r.seq) % 4096)
  let seen := mgetD x.crSeen f.crvc 0
  { x with
    replay := x.replay.filter open_, resend := x.resend.filter open_
    nakGot := if (x.replay.filter open_).any (fun r => r.seq == x.nakGot.1) then x.nakGot else (0, 0)
    credit := mset x.credit f.crvc (mgetD x.credit f.crvc 0 + (f.crcnt + 64 - seen) % 64), crSeen := mset x.crSeen f.crvc f.crcnt }

/-- Flits of the partner are read: the port carries traffic, or its training has come to the exchange of CAPS (R295). -/
def ApPort.listens (x : ApPort) : Bool := (x.up && !x.fast) || (decide (x.pstate = .training) && x.mapped)

/-- A flit of a kind arrives while the port listens; during training it has no effect (but see `execCaps`). Another kind is another row's
(log 2); a bad one is counted (R298). -/
def onFlit (port kind : Nat) (flit : List Byte) (f : FlitIn → State → State) (s : State) : Host.Outcome State Fault Refusal :=
  onPort port (fun x s =>
    if !x.listens then s
    else match readFlit flit with
      | none => s.count (APRT_CRC_ERR port)
      | some fl => if fl.kind ≠ kind ∨ x.up = false then s else f fl (s.setPort port (applyFlit x fl))) s

/-- A control flit of a CODE, whose payload keeps every reserved byte zero (R300; log 53). `n` is the number of bytes from byte
8 on that the CODE uses. -/
def ctlOk (code n : Nat) (f : FlitIn) : Bool :=
  decide (leAt f.payload 0 8 = code) && (f.payload.drop (8 + n)).all (fun b => decide (b = 0#8))

/-- An idle flit (R297). -/
def execIdleFlit (port : Nat) (flit : List Byte) (s : State) : Host.Outcome State Fault Refusal := onFlit port 0 flit (fun _ s => s) s

/-- The partner's CAPS (R295 t3 and t4, R302). One that comes again once the port carries traffic gives its ACK and its credits. -/
def execCaps (port : Nat) (flit : List Byte) (s : State) : Host.Outcome State Fault Refusal :=
  if (s.port port).up then onFlit port 2 flit (fun _ s => s) s
  else onPort port (fun x s =>
    if !x.listens then s
    else match readFlit flit with
      | none => s.count (APRT_CRC_ERR port)
      | some f =>
        let c (vc : Nat) : Nat := leAt f.payload (8 + 2 * vc) 2
        if f.kind ≠ 2 ∨ ctlOk 4 20 f = false then s
        else if (List.range 4).any (fun vc => decide (c vc < apLeast vc)) then portDown s port 3
        else
          let half := decide (x.lanes.length < 64)
          s.setPort port { x with
            pstate := if half then .half else .full, everHalf := x.everHalf || half, winsize := leAt f.payload 16 8
            partner := BitVec.ofNat 32 (leAt f.payload 24 4), credit := (List.range 4).map (fun vc => (vc, c vc)) }) s

/-- A NAK (R299): every unacknowledged flit from its SEQ on is resent. The eighth for one SEQ starts a fast retrain. -/
def execNak (port : Nat) (flit : List Byte) (s : State) : Host.Outcome State Fault Refusal :=
  onFlit port 2 flit (fun f s =>
    if !ctlOk 1 2 f || decide (4096 ≤ leAt f.payload 8 2) then s
    else
      let e := leAt f.payload 8 2
      let x := s.port port
      let n := if x.nakGot.1 = e then x.nakGot.2 + 1 else 1
      let s1 := s.setPort port { x with nakGot := (e, n), resend := x.replay.dropWhile (fun r => r.seq != e) }
      if 8 ≤ n then fastRetrain s1 port else s1) s

/-- LANE_SWAP from the partner (R296). A lane that carries another logical lane is no standby lane. -/
def execLaneSwap (port : Nat) (flit : List Byte) (s : State) : Host.Outcome State Fault Refusal :=
  onFlit port 2 flit (fun f s =>
    let i := leAt f.payload 8 1 % 64
    let k := leAt f.payload 9 1 % 128
    let x := s.port port
    if !ctlOk 2 2 f || leAt f.payload 8 2 != i + 256 * k || decide (x.lanes.length ≤ i) || decide (66 ≤ k) ||
        (x.lanes.contains k && x.lanes.getD i k != k) then s
    else noteSpares (s.setPort port { x with lanes := x.lanes.set i k, control := x.control ++ [(3, swapBytes i k)] }) port) s

/-- LANE_SWAP_ACK answers the swap that is out (R296). -/
def execLaneSwapAck (port : Nat) (flit : List Byte) (s : State) : Host.Outcome State Fault Refusal :=
  onFlit port 2 flit (fun f s =>
    let x := s.port port
    match x.swap with
    | some (i, k) => if ctlOk 3 2 f && leAt f.payload 8 2 == i + 256 * k then noteSpares (s.setPort port { x with lanes := x.lanes.set i k, swap := none }) port else s
    | none => s) s

/-- What calls for an answer goes again (R299); the eighth NAK for one SEQ starts a fast retrain. -/
def execNakRepeatTimer (port : Nat) (s : State) : Host.Outcome State Fault Refusal :=
  onPort port (fun x s =>
    if x.pstate = .training ∧ x.mapped = true then
      (if x.control.isEmpty then s.setPort port { x with control := [(4, capsBytes)] } else s)
    else if !x.up || x.fast then s
    else
      let c1 := match x.swap with
        | some (i, k) => [(2, swapBytes i k)]
        | none => []
      let c2 := if x.nakSent = 0 then [] else [(1, leBytes 2 x.rxSeq)]
      let n := if x.nakSent = 0 then 0 else x.nakSent + 1
      let s1 := s.setPort port { x with control := x.control ++ (c1 ++ c2).filter (fun c => !x.control.contains c), nakSent := n }
      if 8 ≤ n then fastRetrain s1 port else s1) s

/-! Transactions that arrive (R304 to R306). -/

/-- LEN of a transaction type, from least to most (R304). -/
def lenOk (ttype len : Nat) : Bool :=
  match ttype with
  | 1 => decide (1 ≤ len) && decide (len ≤ 512)
  | 2 => decide (1 ≤ len) && decide (len ≤ 512)
  | 3 => decide (len ≤ 512)
  | 5 => len == 8
  | 8 => len == 64
  | _ => len == 0

/-- Whether a VC carries a transaction type (R301). -/
def vcCarries (vc ttype : Nat) : Bool :=
  if ttype = 2 ∨ ttype = 6 ∨ ttype = 7 then vc == 0 else if ttype = 3 ∨ ttype = 4 then vc == 1 else vc == 2 || vc == 3

/-- A header that R306 accepts (R304, R305; log 53). -/
def txnHdrOk (vc : Nat) (h : BitVec 128) : Bool :=
  let t := bn h 7 0
  decide (1 ≤ t) && decide (t ≤ 8) && reservedZero h [(15, 8), (31, 28), (47, 42), (63, 56)] && lenOk t (bn h 41 32) && vcCarries vc t &&
    (t == 2 || t == 3 || t == 4 || t == 6 || t == 7 || zeroBits h 27 16) && (t == 4 || zeroBits h 55 48) &&
    (if t = 1 ∨ t = 2 then zeroBits h 127 112 else if t = 5 ∨ t = 6 then zeroBits h 127 80 else if t = 3 ∨ t = 4 then zeroBits h 127 64 else true)

/-- Whole transactions at the front of a VC's bytes, the bytes left, and whether a malformed one ended it (R304, R306). `n`
bounds them. -/
def parseTxns (vc : Nat) : Nat → List Byte → List RxTxn × List Byte × Bool
  | 0, bs => ([], bs, false)
  | n + 1, bs =>
    if bs.length < 16 then ([], bs, false)
    else
      let h : BitVec 128 := BitVec.ofNat 128 (leAt bs 0 16)
      if bn h 7 0 = 0 then ([], [], false)
      else if !txnHdrOk vc h then ([], [], true)
      else
        let len := bn h 41 32
        let size := 16 + 16 * cdiv len 16
        if bs.length < size then ([], bs, false)
        else
          let (ts, rest, bad) := parseTxns vc n (bs.drop size)
          ({ vc := vc, seq := 0, ttype := bn h 7 0, tag := bn h 27 16, len := len, status := bn h 55 48, addr := BitVec.ofNat 64 (bn h 127 64), data := slice bs 16 len } :: ts, rest, bad)

/-- Flits of a VC are freed (R297). -/
def freeFlits (x : ApPort) (vc n : Nat) : ApPort :=
  { x with freed := mset x.freed vc (mgetD x.freed vc 0 + n), rxHeld := mset x.rxHeld vc (mgetD x.rxHeld vc 0 - n) }

/-- Hands the flits that a list of transactions accounts for to the last of them. -/
def markFrees (n : Nat) : List RxTxn → List RxTxn
  | [] => []
  | [t] => [{ t with frees := n }]
  | t :: ts => t :: markFrees n ts

/-- Numbers transactions. -/
def numberTxns (ts : List RxTxn) (n : Nat) : List RxTxn := ts.mapIdx (fun i t => { t with seq := n + i })

/-- The payload of a flit that has been received in order joins the stream of its VC (R304, R306). -/
def takePayload (s : State) (p : Nat) (f : FlitIn) : State :=
  let x := s.port p
  let vc := f.vc
  let pend := mgetD x.rxPend vc 0 + 1
  let skip := mgetD x.rxSkip vc false
  if skip && f.first == 15 then s.setPort p (freeFlits { x with rxPend := mset x.rxPend vc 0 } vc pend)
  else
    let buf := if skip then f.payload.drop (16 * f.first) else mgetD x.rx vc [] ++ f.payload
    let (ts, rest, bad) := parseTxns vc 48 buf
    let n := if rest.isEmpty then pend else if ts.isEmpty then 0 else pend - 1
    let y : ApPort := { x with
      rx := mset x.rx vc rest, rxSkip := mset x.rxSkip vc bad, rxPend := mset x.rxPend vc (pend - n)
      inbox := x.inbox ++ numberTxns (markFrees n ts) x.nextTxn, nextTxn := x.nextTxn + ts.length }
    let s1 := s.setPort p (if ts.isEmpty then freeFlits y vc n else y)
    if bad then s1.count (APRT_MALFORMED p) else s1

/-- Express flits a partner may send in 10 µs: 6.25 % of the port's flits (R293, R303), in 1/16 flit. -/
def expLimit (x : ApPort) : Nat := if x.pstate = .full then 62500 else 31250

/-- The express share of the last 10 µs (R303). -/
def countExpress (s : State) (p : Nat) : State :=
  let x := s.port p
  let ts := s.now :: x.expTimes.filter (fun t => decide (s.now < t + 10000))
  let s1 := s.setPort p { x with expTimes := ts }
  if expLimit x < 16 * ts.length then s1.count (APRT_EXP_OVER p) else s1

/-- A transaction flit (R299, R302). -/
def execTransactionFlit (port : Nat) (flit : List Byte) (s : State) : Host.Outcome State Fault Refusal :=
  onFlit port 1 flit (fun f s =>
    let x := s.port port
    let d := (f.seq + 4096 - x.rxSeq) % 4096
    if d = 0 then
      let s1 := s.count (APRT_RX_FLITS port)
      let held_ := mgetD x.rxHeld f.vc 0
      if apCredits f.vc ≤ held_ then fullRetrain (s1.count (APRT_CREDIT_ERR port)) port 4
      else
        let s2 := s1.setPort port { x with rxSeq := (x.rxSeq + 1) % 4096, rxAny := true, nakSent := 0, rxHeld := mset x.rxHeld f.vc (held_ + 1) }
        takePayload (if f.vc = 3 then countExpress s2 port else s2) port f
    else if 2048 ≤ d ∨ x.nakSent ≠ 0 then s
    else s.setPort port { x with nakSent := 1, control := x.control ++ [(1, leBytes 2 x.rxSeq)] }) s

/-! Transactions take effect (R307 to R309). -/

/-- MRD, CTR_RD, FENCE, CPL and CPL_ERR come after every posted transaction sent before them (R309). -/
def RxTxn.behindPosted (t : RxTxn) : Bool := decide (t.vc < 2)

/-- The first transaction of a type that may take effect: it leads its VC, and no posted one stands before it where R309 asks
for that. -/
def firstTxn (ttype : Nat) (before : List RxTxn) : List RxTxn → Option RxTxn
  | [] => none
  | t :: ts =>
    if t.ttype = ttype ∧ before.any (fun e => e.vc == t.vc || (t.behindPosted && e.vc == 2)) = false then some t
    else firstTxn ttype (before ++ [t]) ts

/-- A transaction of the partner takes effect: it leaves the inbox, and its flits are free. -/
def onTxn (port ttype : Nat) (f : RxTxn → State → State) (s : State) : Host.Outcome State Fault Refusal :=
  onPort port (fun x s => match firstTxn ttype [] x.inbox with
    | none => s
    | some t => f t (s.setPort port (freeFlits { x with inbox := x.inbox.erase t } t.vc t.frees))) s

/-- Answers a request of the partner (R304, R305). -/
def answer (s : State) (p : Nat) (t : RxTxn) (data : List Byte) : State :=
  queueTxn s p 1 ⟨txnBytes 3 t.tag data.length 0 0#64 data, none⟩
def answerErr (s : State) (p : Nat) (t : RxTxn) (st : Status) : State :=
  queueTxn s p 1 ⟨txnBytes 4 t.tag 0 st.code 0#64 [], none⟩

/-- The check of R307 on an address: tier N, for the owner of the port. -/
def partnerCheck (s : State) (p a len : Nat) : State × Option Status :=
  match (s.port p).owner with
  | none => (s.count (APRT_DENY p), some .accessDenied)
  | some f =>
    if !inTierN a len then ((s.count LAKE_DENY).count (APRT_DENY p), some .bounds)
    else match lakeCheck s { fn := f } a len with
      | some st => ((denied s st).count (APRT_DENY p), some st)
      | none => (s, none)

/-- Near memory holds a write back: behind a region reset (R23, R315), a rebuild or deltas that cannot leave (R241, R246), or an earlier
write that waits (R90). -/
def writeWaits (s : State) (a len : Nat) : Bool := accessWaits s a len || groupHolds s a || groupHolds s (a + len - 1)

/-- MWR (R307). A write that near memory holds back waits in the queue of its VC, and its credits with it (R315). -/
def execMwr (port : Nat) (s : State) : Host.Outcome State Fault Refusal :=
  match firstTxn 1 [] (s.port port).inbox with
  | none => next s
  | some t0 =>
    if writeWaits s t0.addr.toNat t0.len then next s
    else onTxn port 1 (fun t s => match partnerCheck s port t.addr.toNat t.len with
      | (s1, some _) => s1
      | (s1, none) => (lakeWrite s1 t.addr.toNat t.data).1) s

/-- MRD (R307). -/
def execMrd (port : Nat) (s : State) : Host.Outcome State Fault Refusal :=
  match firstTxn 2 [] (s.port port).inbox with
  | none => next s
  | some t0 =>
    if accessWaits s t0.addr.toNat t0.len then next s
    else onTxn port 2 (fun t s => match partnerCheck s port t.addr.toNat t.len with
      | (s1, some st) => answerErr s1 port t st
      | (s1, none) =>
        let (s2, bs, ps) := lakeRead s1 t.addr.toNat t.len
        if ps.isEmpty then answer s2 port t bs else answerErr s2 port t .poisonedData) s

/-- The owner's counter sets hold a counter (R307). -/
def partnerCtr (s : State) (p c : Nat) : Bool :=
  match (s.port p).owner with
  | some f => ownsCtr s f c
  | none => false

/-- CTR_ADD of a partner (R307, R309). -/
def execApCtrAdd (port : Nat) (s : State) : Host.Outcome State Fault Refusal :=
  onTxn port 5 (fun t s =>
    if partnerCtr s port t.addr.toNat then s.addCtr t.addr.toNat (BitVec.ofNat 64 (leNat t.data)) else s.count (APRT_DENY port)) s

/-- CTR_RD (R307). -/
def execCtrRd (port : Nat) (s : State) : Host.Outcome State Fault Refusal :=
  onTxn port 6 (fun t s =>
    if partnerCtr s port t.addr.toNat then answer s port t (leBytes 8 (s.ctr t.addr.toNat).toNat)
    else answerErr (s.count (APRT_DENY port)) port t .accessDenied) s

/-- FENCE of a partner (R309). -/
def execApFence (port : Nat) (s : State) : Host.Outcome State Fault Refusal := onTxn port 7 (fun t s => answer s port t []) s

/-- POST of a partner (R307). -/
def execApPost (port : Nat) (s : State) : Host.Outcome State Fault Refusal :=
  onTxn port 8 (fun t s => match (s.port port).owner with
    | none => s.count (APRT_DENY port)
    | some f => match checkHandle s { fn := f } t.addr [1] with
      | .inr _ => s.count (APRT_DENY port)
      | .inl ring =>
        let x := s.port port
        if 256 ≤ x.posts.length then s.count (APRT_POST_DROP port)
        else s.setPort port { x with posts := x.posts ++ [⟨ring, (s.slot 1 ring).gen, BitVec.ofNat 512 (leNat t.data)⟩] }) s

/-- A posted descriptor can be taken: its completion ring has a slot that nothing goes before (R122, R131). -/
def mayPost (s : State) (ring : Nat) : Bool :=
  match mget s.vat.comp (cqOf s ring) with
  | some q => decide (q.free ≠ 0) && !slotsSpoken s (cqOf s ring)
  | none => false

/-- Takes a posted descriptor as the next one of its ring (R307, R438). Behind a failed descriptor none is started (R118). -/
def postDesc (s : State) (ring : Nat) (d : Desc) : State :=
  match mget s.vat.work ring with
  | none => s
  | some w =>
    if w.halted then s
    else reserve (s.setWork ring { w with nextSeq := w.nextSeq + 1, queue := w.queue ++ [{ slot := 0xFFFF, posted := true, desc := some d, seq := w.nextSeq }] }) w.cq

/-- The first waiting POST whose ring can take it, each ring's in order of arrival. -/
def firstPost (s : State) : List Nat → List PostWait → Option PostWait
  | _, [] => none
  | seen, w :: ws => if !seen.contains w.ring && mayPost s w.ring then some w else firstPost s (w.ring :: seen) ws

/-- A waiting POST obtains a completion slot (R307). -/
def execApPostStart (port : Nat) (s : State) : Host.Outcome State Fault Refusal :=
  onPort port (fun x s => match firstPost s [] x.posts with
    | none => s
    | some w => postDesc (s.setPort port { x with posts := x.posts.erase w }) w.ring w.desc) s

/-- POST of a core (R438). -/
def execPost (core : Nat) (s : State) : Host.Outcome State Fault Refusal :=
  next (isa .post core (fun w s =>
    let k := s.core core
    let ga := (k.getG (iA w)).toNat
    match ownScratch s core ga 64 64 with
    | none => .xcpt s 2 ga
    | some a => match checkHandle s (coreReq s core) (k.getG (iB w)) [1] with
      | .inr st => .done (s.setCore core (k.setG (iD w) (BitVec.ofNat 64 st.code)))
      | .inl ring =>
        if !mayPost s ring then .wait s
        else afterRelease core s (fun s =>
          let (s1, bs, bad) := scrRead s (coreCluster core) a 64
          if bad then .xcpt s1 3 ga
          else
            let s2 := postDesc s1 ring (BitVec.ofNat 512 (leNat bs))
            .done (s2.setCore core ((s2.core core).setG (iD w) 0#64)))) s)

/-! Answers to the KY9's own requests (R308). -/

/-- Bytes that answer a request join those at hand. -/
def gotData (s : State) (q : ApReq) (bs : List Byte) (bad : Bool) : State :=
  match q.work.key with
  | none => s
  | some k =>
    let got := putBytes (mgetD s.ap.got k []) q.addr bs
    { s with ap := { s.ap with got := mset s.ap.got k got, bad := if bad then mset s.ap.bad k (mgetD s.ap.bad k [] ++ [(q.addr, q.len)]) else s.ap.bad } }

/-- An answer of the partner: to an outstanding request, or late (R308). -/
def onAnswer (port ttype : Nat) (f : ApReq → RxTxn → State → State) (s : State) : Host.Outcome State Fault Refusal :=
  onTxn port ttype (fun t s =>
    let x := s.port port
    match x.reqs.find? (fun r => r.tag == t.tag) with
    | some q => f q t (s.setPort port { x with reqs := x.reqs.filter (fun r => r.tag != t.tag) })
    | none => if x.lateTags.any (fun l => l.1 == t.tag) then s.count (APRT_LATE_CPL port) else s) s

/-- CPL (R308). One that does not carry the requested LEN fails the request (log 58). -/
def execCpl (port : Nat) (s : State) : Host.Outcome State Fault Refusal :=
  onAnswer port 3 (fun q t s => if q.fence then s else if t.len = q.len then gotData s q t.data false else failWork s q.work) s

/-- CPL_ERR (R308). -/
def execCplErr (port : Nat) (s : State) : Host.Outcome State Fault Refusal :=
  onAnswer port 4 (fun q t s =>
    if t.status = Status.poisonedData.code ∧ q.fence = false then gotData s q (List.replicate q.len 0#8) true else failWork s q.work) s

/-- 100 µs without an answer (R308). -/
def execApCplTimeout (port tag : Nat) (s : State) : Host.Outcome State Fault Refusal :=
  onPort port (fun x s => match x.reqs.find? (fun r => r.tag == tag) with
    | none => s
    | some q =>
      let late := x.lateTags.filter (fun l => l.1 != tag && decide (s.now < l.2))
      failWork ((s.setPort port { x with reqs := x.reqs.filter (fun r => r.tag != tag), lateTags := late ++ [(tag, s.now + 200000)] }).count (APRT_CPL_TO port)) q.work) s

/-! Flits that leave (R299, R303, R304). -/

/-- What goes into a flit's payload: bytes, FIRST, works whose writes end in it, and what stays. `n` bounds the transactions. -/
structure Fill where
  bytes : List Byte := []
  first : Nat := 15
  works : List Work := []
  rest : List Txn
  off : Nat
deriving DecidableEq, Repr

def fillFlit : Nat → Fill → Fill
  | 0, f => f
  | n + 1, f =>
    match f.rest with
    | [] => f
    | t :: ts =>
      let room := 240 - f.bytes.length
      if room = 0 then f
      else
        let more := t.bytes.drop f.off
        let first := if f.off = 0 ∧ f.first = 15 then f.bytes.length / 16 else f.first
        if more.length ≤ room then
          fillFlit n { f with bytes := f.bytes ++ more, first := first, rest := ts, off := 0, works := if t.bytes.head? = some 1#8 then f.works ++ t.work.toList else f.works }
        else { f with bytes := f.bytes ++ more.take room, first := first, off := f.off + room }

/-- Puts a flit on the port: header, payload padded with zeros, CRC (R297, R298). -/
def putFlit (s : State) (p kind vc first seq : Nat) (payload : List Byte) : State :=
  let x := s.port p
  let ack := if x.rxAny then (x.rxSeq + 4095) % 4096 else 0xFFF
  let h := kind + at_ 4 vc + at_ 6 first + at_ 10 (mgetD x.freed x.crvc 0 % 64) + at_ 16 x.crvc + at_ 20 ack + at_ 32 seq
  let body := leBytes 8 h ++ slice payload 0 240
  (s.setPort p { x with crvc := (x.crvc + 1) % 4 }).emit (.flit p (body ++ leBytes 8 (crc64 body)))

/-- The VC whose flit goes next (R303). -/
def nextVc (x : ApPort) : Option Nat :=
  ([3, 1] ++ (if x.reqTurn then [0, 2] else [2, 0])).find? (fun vc => !(mgetD x.tx vc []).isEmpty && decide (mgetD x.credit vc 0 ≠ 0))

/-- Sends the next flit of a VC. -/
def sendVc (s : State) (p vc : Nat) : State :=
  let x := s.port p
  let f := fillFlit 16 { rest := mgetD x.tx vc [], off := mgetD x.txOff vc 0 }
  let s1 := s.setPort p { x with
    tx := mset x.tx vc f.rest, txOff := mset x.txOff vc f.off, credit := mset x.credit vc (mgetD x.credit vc 0 - 1), txSeq := (x.txSeq + 1) % 4096
    reqTurn := if vc = 2 then true else if vc = 0 then false else x.reqTurn
    replay := x.replay ++ [⟨x.txSeq, vc, f.first, slice f.bytes 0 240, f.works⟩] }
  (putFlit s1 p 1 vc f.first x.txSeq f.bytes).count (APRT_TX_FLITS p)

/-- The next flit leaves (R303): control, a flit to resend, then by VC; an idle flit otherwise. -/
def execFlitTransmit (port : Nat) (s : State) : Host.Outcome State Fault Refusal :=
  onPort port (fun x s =>
    let training := decide (x.pstate = .training) && x.mapped
    if !(training || (x.up && !x.fast)) then s
    else match x.control with
      | (code, bytes) :: cs => putFlit (s.setPort port { x with control := cs }) port 2 0 15 0 (leBytes 8 code ++ bytes)
      | [] =>
        if training then putFlit s port 0 0 15 0 []
        else match x.resend with
          | r :: rs => (putFlit (s.setPort port { x with resend := rs }) port 1 r.vc r.first r.seq r.payload).count (APRT_REPLAY port)
          | [] => match (if x.replay.length < 1024 then nextVc x else none) with
            | some vc => sendVc s port vc
            | none => putFlit s port 0 0 15 0 []) s

/-! Commands and pins (R314, R541). -/

/-- A partner arrives or leaves (R541). -/
def execPartnerPresence (port : Nat) (present : Bool) (s : State) : Host.Outcome State Fault Refusal :=
  onPort port (fun x s =>
    let s1 := s.setPort port { x with present := present }
    if present ∨ x.pstate = .disabled ∨ x.pstate = .retired then s1
    else portDown s1 port 2) s

/-- A command on an accelerator port, from physical function 0 (R314). -/
def apCommand (op : Nat) (rs : List (Nat × Nat)) (n : Nat) (k : MboxId) (blk : CmdBlock) (f : BitVec 32256 → Nat → State → State) (s : State) : State :=
  afterPort (fwCommand op true k blk (fun s c b =>
    if !fromPf0 c then refuse s .accessDenied
    else if !bodyReserved b rs n then refuse s .invalidField
    else accept (f b (bn b 2 0) s)) s)

/-- AP_ASSIGN (R314). -/
def execApAssign (pair : MboxId) (blk : CmdBlock) (s : State) : Host.Outcome State Fault Refusal :=
  next (apCommand 0x040 [(15, 3)] 29 pair blk (fun b p s =>
    s.setPort p { s.port p with owner := if bt b 28 then none else some (bn b 27 16) }) s)

/-- AP_RETRAIN (R314). A port that is disabled stays so (log 54). -/
def execApRetrain (pair : MboxId) (blk : CmdBlock) (s : State) : Host.Outcome State Fault Refusal :=
  next (apCommand 0x041 [] 3 pair blk (fun _ p s =>
    let x := s.port p
    if x.pstate = .disabled ∨ x.pstate = .retired then s else fullRetrain s p 5) s)

/-- AP_ENABLE (R314). -/
def execApEnable (pair : MboxId) (blk : CmdBlock) (s : State) : Host.Outcome State Fault Refusal :=
  next (apCommand 0x042 [(7, 3)] 9 pair blk (fun b p s =>
    let x := s.port p
    if x.pstate = .retired then s
    else if bt b 8 then (if x.enabled then s else trainPort (s.setPort p { x with enabled := true }) p)
    else if x.enabled then portDown (s.setPort p { x with enabled := false }) p 5
    else s) s)

end Sys2Proof.Machine
end

