-- ==== Sys2Proof/Machine/LakeCmds.lean ====
section
/-! DEFINITION. Commands of Lake: scrub, refresh, page moves, memory regions (R79, R80, R84 to R93, R98). -/

namespace Sys2Proof.Machine

open Sys2Proof

/-- Lines of a die, and of all dies with their places kept. -/
def dieLines : Nat := 134217728

/-- Whether patrol scrub reads a die: in service, in a role or standing by (R79). -/
def scrubs (s : State) (d : Nat) : Bool :=
  let k := s.stack (d / 16)
  if d % 16 = 13 then k.dieOn.getLsbD 13 && k.spareFor.isNone else decide (d % 16 < 13) && roleOn k (d % 16)

/-- The line after `l` in the order of patrol scrub: by stack, die, page and line, over the dies in service (R79). -/
def nextScrub (s : State) (l : Nat) : Nat :=
  let n := (l + 1) % (512 * dieLines)
  if scrubs s (n / dieLines) then n
  else match ((List.range 512).map (fun i => (n / dieLines + 1 + i) % 512)).find? (scrubs s) with
    | some d => d * dieLines
    | none => n

/-- What the world outside disturbs (log 21): the symbols of a physical line, or, from 2^40 on, the bits of a scratch word, numbered by
cluster × 2^19 + word (R138). -/
def upset (s : State) (u : Nat × Nat) : State :=
  if 2 ^ 40 ≤ u.1 then { s with fab := { s.fab with scrBad := msetC 0 s.fab.scrBad (u.1 - 2 ^ 40) (min 72 u.2) } }
  else setBad s u.1 (min 72 u.2)

/-- Patrol scrub reads the next line and resolves it (R79). `upsets` are the lines and scratch words that the world outside has
disturbed since, each with the number of its symbols or bits that are now bad (log 21). -/
def execScrubRead (upsets : List (Nat × Nat)) (s : State) : Host.Outcome State Fault Refusal :=
  let s1 := upsets.foldl upset s
  let l := s1.lake.scrubAt
  let s2 := if scrubs s1 (l / dieLines) then resolveAny s1 l else s1
  next { s2 with lake := { s2.lake with scrubAt := nextScrub s2 l } }

/-- A die begins a refresh round: a new interval applies (R80). -/
def execRefreshRound (stack die : Nat) (s : State) : Host.Outcome State Fault Refusal :=
  let k := s.stack stack
  match mget k.trefNext die with
  | none => next s
  | some c => next (s.setStack stack { k with tref := mset k.tref die c, trefNext := mdel k.trefNext die })

/-- A rebalance has moved its last page: its command completes (R92), once the accesses under the old rights have finished (R89). -/
def finishRebalance (s : State) (r : Nat) : State :=
  match s.lake.rebalances.find? (fun b => b.region == r) with
  | none => s
  | some b =>
    let key := ((mget s.lake.regions r).map (fun d => d.key.toNat)).getD 0
    settleRegions { s with lake := { s.lake with
      rebalances := s.lake.rebalances.filter (fun b => b.region != r), regionWaits := s.lake.regionWaits ++ [⟨r, b.cmd, key⟩] } }

/-- A page has moved: when it was the last of its migration, MIG_DONE is set (R102) and a rebalance completes. -/
def afterMove (s : State) (why : MoveWhy) : State :=
  if s.lake.moves.any (fun m => decide (m.why = why)) then s
  else
    let s1 := setEvent s 4
    match why with
    | .rebalance r => finishRebalance s1 r
    | _ => s1

/-- Copies one page of a die whose role the spare takes: a line that cannot be copied is rebuilt (R97). -/
def copyPage (s : State) (c : DieCopy) : State :=
  let pp := physPage c.stack c.die c.done
  let rest := s.lake.copies.filter (fun x => x.stack != c.stack || x.die != c.die)
  let s1 : State := { s with lake := { s.lake with copies := if c.done + 1 < 4096 then { c with done := c.done + 1 } :: rest else rest } }
  let lines := (s.lake.badSym.filter (fun p => decide (p.1 / 32768 = pp))).map (·.1)
  let s2 := lines.foldl resolveAny s1
  if c.done + 1 < 4096 then s2 else setEvent s2 4

/-- Every line of the page that leaves a stack has moved, and the page switches (R98). While the stack's region is in reset
the migration waits (R100). -/
def execPageMigrated (stack : Nat) (s : State) : Host.Outcome State Fault Refusal :=
  if (s.rgn (stack / 2)).rstate = .resetting then next s
  else match s.lake.copies.find? (fun c => c.stack == stack) with
    | some c => next (copyPage s c)
    | none =>
      match s.lake.moves.find? (fun m => match mget s.lake.pageOf m.page with
          | some pp => ppStack pp == stack
          | none => false) with
      | none => next s
      | some m =>
        let s1 := switchPage { s with lake := { s.lake with moves := s.lake.moves.erase m, migStack := stack } } m
        next (retryDegraded (afterMove s1 m.why))

/-- Fields of R91. -/
def mrWorld (p : BitVec 256) : Bool := bt p 0
def mrProt (p : BitVec 256) : Bool := bt p 1
def mrRemote (p : BitVec 256) : Bool := bt p 2 || bt p 3 || bt p 4
def mrPlace (p : BitVec 256) : Nat := bn p 6 5
def mrWin (p : BitVec 256) : Bool := bt p 7
def mrHome (p : BitVec 256) : Nat := bn p 11 8
def mrPort (p : BitVec 256) : Nat := bn p 14 12
def mrGroup (p : BitVec 256) : Nat := bn p 31 16
def mrKey (p : BitVec 256) : W32 := BitVec.ofNat 32 (bn p 63 32)
def mrPages (p : BitVec 256) : Nat := bn p 95 64
def mrOff (p : BitVec 256) : Nat := bn p 127 96

/-- The rules of R91 that the fields alone decide. -/
def mrFieldsOk (p : BitVec 256) : Bool :=
  !bt p 15 && zeroBits p 255 128 && mrPlace p != 3 &&
    (!mrWin p || (!mrProt p && mrPlace p == 0 && mrHome p == 0)) && (mrWin p || (mrPort p == 0 && mrOff p == 0)) &&
    (mrPlace p == 1 || (mrPlace p == 2 && decide (mrHome p < 4)) || mrHome p == 0) && (mrProt p || mrGroup p == 0) &&
    decide (mrPages p ≠ 0) && decide (mrPages p ≤ (if mrWin p then 4194304 else 1570016)) &&
    (!mrWin p || decide (mrOff p < 4194304))

/-- The lowest free run of protected pages of a group (R238). -/
def protRun (s : State) (g : PGroup) (n : Nat) : Option Nat :=
  let runs := ((s.lake.regions ++ s.lake.dying).filter (fun r => r.2.prot && r.2.pgroup == g.pgroup)).map
    (fun r => (mgetD s.par.rprot r.1 0, r.2.pages))
  let fits (b : Nat) : Bool := decide (b + n ≤ g.size) && runs.all (fun r => decide (b + n ≤ r.1) || decide (r.1 + r.2 ≤ b))
  ((0 :: runs.map (fun r => r.1 + r.2)).filter fits).foldl (fun (m : Option Nat) b => match m with
    | none => some b
    | some x => some (min x b)) none

/-- The conditions of R238 and R41 on a protected region. -/
def protOk (s : State) (p : BitVec 256) (owner : Nat) : Bool :=
  !mrWorld p && !mrWin p && (match groupOf s (mrGroup p) with
    | none => false
    | some (_, g) => g.owner == owner && decide (g.state ≠ .joining) && decide (parityMin (max 1 s.fab.size) ≤ g.p))

/-- Makes a memory region in slot `i` (R84, R86, R91, R93). -/
def makeRegion (p : BitVec 256) (owner : Nat) (s : State) (i : Nat) : Status ⊕ (State × Reply) :=
  let (key, s1) := drawKey s (mrKey p) (mrRemote p)
  let d : Region :=
    { world := mrWorld p, prot := mrProt p, rRd := bt p 2, rWr := bt p 3, rAt := bt p 4, place := mrPlace p, home := mrHome p,
      pgroup := mrGroup p, owner := owner, gen := (s.slot 8 i).gen, pages := mrPages p, key := key }
  let put (s : State) (base : Nat) : State × Reply :=
    ({ s with lake := { s.lake with regions := mset s.lake.regions i { d with base := base } } },
      { status := .success, r1 := base, r2 := key.toNat })
  if mrWin p then
    let base := winBase + mrPort p * winSize + mrOff p * pageBytes
    if (s.lake.regions ++ s.lake.dying).any (fun r => decide (r.2.base < base + d.pages * pageBytes) && decide (base < r.2.stop)) then .inl .busy
    else .inr (put s1 base)
  else
    match findLocal s1 d.pages with
    | none => .inl .outOfResources
    | some lp =>
      match allocPages s1 d.place d.home d.pages lp with
      | none => .inl .outOfResources
      | some s2 =>
        if d.prot then
          match groupOf s d.pgroup with
          | none => .inl .invalidField
          | some (_, g) => match protRun s g d.pages with
            | none => .inl .outOfResources
            | some first => .inr (put { s2 with par := { s2.par with rprot := mset s2.par.rprot i first } } (lp * pageBytes))
        else .inr (put s2 (lp * pageBytes))

/-- CH_CREATE of a memory region (R84, R91). -/
def execChCreateMemoryRegion (pair : MboxId) (blk : CmdBlock) (s : State) : Host.Outcome State Fault Refusal :=
  next (chCommand 0x010 [8] pair blk (fun s c b =>
    let p := params b
    if !createWord b 8 || !mrFieldsOk p then refuse s .invalidField
    else if mrWin p && decide (winSize < (mrOff p + mrPages p) * pageBytes) then refuse s .invalidField
    else if mrWorld p && !c.req.secure then refuse s .accessDenied
    else if mrProt p && !protOk s p c.fn then refuse s .invalidField
    else if anyDegraded s then refuse s .outOfResources
    else createIn s c 8 (fun _ => true) (mrPages p) (makeRegion p c.fn)) s)

/-- Starts a rebalance: every page of the region gets a page of the new placement, withheld until the page has moved (R92). -/
def startRebalance (s : State) (r : Nat) (d : Region) (cmd : Nat) : Option State :=
  let lp := d.base / pageBytes
  match takePages d.place d.home d.pages s (takenPages s) lp (startStack s d.place d.home) with
  | none => none
  | some (s1, _) =>
    let moves := (List.range d.pages).map (fun k => (⟨lp + k, mgetD s1.lake.pageOf (lp + k) 0, .rebalance r⟩ : Move))
    some { s with lake := { s.lake with
      moves := s.lake.moves ++ moves
      rebalances := s.lake.rebalances ++ [⟨r, cmd⟩]
      migStack := ppStack (mgetD s.lake.pageOf lp 0) } }

/-- CH_MODIFY of a memory region (R92): rights, KEY, PLACE and HOME. It completes after the accesses that passed the old check (R89). The
manual does not say what a second change of placement gets while the first one's rebalance runs: the model refuses it with
out-of-resources (DESIGN CHOICE, unsafe; log 136). -/
def execChModifyMemoryRegion (pair : MboxId) (blk : CmdBlock) (s : State) : Host.Outcome State Fault Refusal :=
  next (chCommand 0x012 [8] pair blk (fun s c b =>
    match bodyHandle s c [8] b with
    | .inr st => refuse s st
    | .inl i => match mget s.lake.regions i with
      | none => refuse s .staleHandle
      | some d =>
        let p := params b
        let win := decide (winBase ≤ d.base)
        let same := mrWorld p == d.world && mrProt p == d.prot && mrWin p == win && mrPages p == d.pages && mrGroup p == d.pgroup &&
          (!win || winBase + mrPort p * winSize + mrOff p * pageBytes == d.base)
        let place := mrPlace p != d.place || mrHome p != d.home
        if !bodyReserved b [] 320 || !mrFieldsOk p || !same then refuse s .invalidField
        else if place && (anyDegraded s || s.lake.rebalances.any (fun x => x.region == i)) then refuse s .outOfResources
        else
          let d1 := { d with place := mrPlace p, home := mrHome p }
          match (if place then startRebalance s i d1 c.id else some s) with
          | none => refuse s .outOfResources
          | some s1 =>
            let (key, s2) := drawKey s1 (mrKey p) (mrRemote p)
            let d2 := { d1 with rRd := bt p 2, rWr := bt p 3, rAt := bt p 4, key := key }
            let s3 : State := { s2 with lake := { s2.lake with regions := mset s2.lake.regions i d2 } }
            if place then (s3, none)
            else if regionBusy s3 d2 then ({ s3 with lake := { s3.lake with regionWaits := s3.lake.regionWaits ++ [⟨i, c.id, key.toNat⟩] } }, none)
            else (s3, some { status := .success, r2 := key.toNat })) s)

end Sys2Proof.Machine
end

