-- ==== Sys2Proof/Machine/Mordant.lean ====
section
/-! DEFINITION. Mordant: key slots (R488, R489), cipher, hash and entropy vectors (R490 to R495), and the entropy source's
health tests (R494). -/

namespace Sys2Proof.Machine

open Sys2Proof

/-- Bytes of a key (R488). -/
def keyBytes (ksize : Nat) : Nat := 16 + 8 * ksize

/-- The rules on the parameters of a key slot (R488). -/
def keyFieldsOk (p : BitVec 256) : Bool :=
  zeroBits p 127 71 && zeroBits p 255 192 && bn p 65 64 != 3 && bn p 67 66 != 3 && (bt p 68 || bt p 69 || bt p 70) &&
    !(bt p 70 && (bt p 68 || bt p 69)) && (bn p 67 66 == 1 || zeroBits p 191 128) && (bn p 67 66 != 2 || zeroBits p 63 0)

/-- The UNWRAP slot a KEK handle names, of the same function (R107, R488). -/
def kekOf (s : State) (c : Cmd) (p : BitVec 256) : List Byte ⊕ Status :=
  match checkHandle s c.req (BitVec.ofNat 64 (bn p 191 128)) [9] with
  | .inr st => .inr st
  | .inl i => match mget s.sec.keys i with
    | none => .inr .staleHandle
    | some k => if k.unwrap && (s.slot 9 i).owner == c.fn then .inl k.key else .inr .accessDenied

/-- The key of a create: plain, unwrapped or drawn (R488, R494). `data` is what the host returns for KADDR. -/
def makeKey (s : State) (c : Cmd) (p : BitVec 256) (data : Option (List Byte)) : State × (List Byte ⊕ Status) :=
  let n := keyBytes (bn p 65 64)
  if bn p 67 66 = 2 then
    if s.sec.entOk then
      let (e, s1) := s.entropy
      (s1, .inl (slice (leBytes 32 e.toNat) 0 n))
    else (s, .inr .unitFault)
  else if bn p 67 66 = 1 then
    match kekOf s c p with
    | .inr st => (s, .inr st)
    | .inl kek => match data with
      | none => (s, .inr .hostDmaError)
      | some bs => match aesUnwrap kek (slice bs 0 (n + 8)) with
        | none => (s, .inr .accessDenied)
        | some k => (s, .inl k)
  else match data with
    | none => (s, .inr .hostDmaError)
    | some bs => (s, .inl (slice bs 0 n))

/-- CH_CREATE of a key slot (R488), which waits while Palette core 0 restarts (R501): functions receive slots from 64 on; slots below are Palette core 0's. -/
def execChCreateKeySlot (pair : MboxId) (blk : CmdBlock) (data : Option (List Byte)) (s : State) : Host.Outcome State Fault Refusal :=
  next (chCommand 0x010 [9] pair blk (fun s c b =>
    let p := params b
    if !createWord b 9 || !keyFieldsOk p then refuse s .invalidField
    else if !c.req.secure && (s.sec.lc == 0 || s.sec.lc == 1 || s.sec.lc == 4) then refuse s .accessDenied
    else match makeKey s c p data with
      | (s1, .inr st) => refuse s1 st
      | (s1, .inl key) => createIn s1 c 9 (fun i => if c.req.secure then decide (i < 64) else decide (64 ≤ i)) 1 (fun s i =>
          let k : KeySlot := { world := c.req.secure, ksize := bn p 65 64, enc := bt p 68, dec := bt p 69, unwrap := bt p 70, key := key }
          .inr ({ s with sec := { s.sec with keys := mset s.sec.keys i k } }, { status := .success }))) s 0)

/-- The bytes of a transfer before its first failed part, and whether one failed (R557). -/
def Xfer.upTo (x : Xfer) : List Byte × Bool :=
  x.parts.foldl (fun (a : List Byte × Bool) p => match a.2, p.done with
    | false, some (some d) => (a.1 ++ d, false)
    | _, _ => (a.1, true)) ([], false)

/-- Input of a Mordant job: the bytes that can be used, and why they end where they do; none while it waits. -/
def mordantRead (s : State) (id : Nat) (j : Job) (host : Bool) (a n : Nat) : State × Option (List Byte × Option Status) :=
  if host then
    match xferOf s (.job id) with
    | none => (s, some ([], some .busMasterDisabled))
    | some x =>
      if x.resolved then (s, some (x.upTo.1.take n, if x.upTo.2 && decide (x.upTo.1.length < n) then some .hostDmaError else none))
      else (s, none)
  else match agentRead s (j.agent id) a n with
    | (s1, .ok bs bad) =>
      let first := bad.foldl (fun m r => min m r.1) n
      (s1, some (bs.take first, if bad.isEmpty then none else some .poisonedData))
    | (s1, .fail st) => (s1, some ([], some st))
    | (s1, .wait) => (s1, none)

/-- Writes near memory line by line, `n` lines at most, until a line refuses: the bytes written and why it stopped (R78). -/
def writeUntil (g : Agent) : Nat → State → Nat → List Byte → State × Nat × Option Status
  | 0, s, _, _ => (s, 0, none)
  | n + 1, s, a, bs =>
    if bs.isEmpty then (s, 0, none)
    else
      let k := 64 - a % 64
      match agentWrite s g a (bs.take k) with
      | (s1, some st) => (s1, 0, some st)
      | (s1, none) =>
        let (s2, w, st) := writeUntil g n s1 (a + k) (bs.drop k)
        (s2, (bs.take k).length + w, st)

/-- Output of a Mordant job: bytes written, and the status that stopped it. -/
def mordantWrite (s : State) (id : Nat) (j : Job) (host : Bool) (a : Nat) (bs : List Byte) : State × Nat × Option Status :=
  if bs.isEmpty then (s, 0, none)
  else if host then
    if s.master j.fn then (s.hostWrite j.fn a bs, bs.length, none) else (s, 0, some .busMasterDisabled)
  else if inWindow (a % 2 ^ 48) bs.length then
    match agentWrite s (j.agent id) a bs with
    | (s1, some st) => (s1, 0, some st)
    | (s1, none) => (s1, bs.length, none)
  else writeUntil (j.agent id) (bs.length / 64 + 2) s a bs

/-- Blocks of 16 bytes through a cipher (R491). -/
def cipherBlocks (f : List Byte → List Byte) (bs : List Byte) : List Byte := ((chunks 16 (bs.length / 16) bs).map f).flatten

/-- The key slot of a cipher job. -/
def keyOfJob (s : State) (j : Job) : Option KeySlot := mget s.sec.keys (hIndex (dTarget j.desc))

/-- Starts a Mordant job: the host data it needs is asked for (R490). -/
def startMordant (s : State) (job : Nat) (j : Job) (pieces : List (Nat × Nat)) : State :=
  let s1 := s.setJob job { j with phase := .running }
  if pieces.isEmpty then s1
  else match hostRead s1 j.fn (.job job) pieces with
    | some s2 => s2
    | none => finish s job .busMasterDisabled

/-- Checks a cipher job and starts it (R490, R491). -/
def cipherStart (s : State) (op job : Nat) : State :=
  match jobOf s job op .started with
  | none => s
  | some j => match keyOfJob s j with
    | none => finish s job .staleHandle
    | some k =>
      if !(if op = 0x70 then k.enc else k.dec) then finish (s.count MORD_KEY_DENY) job .accessDenied
      else if xBlocks j.desc = 0 then finish s job .emptyVector
      else startMordant s job j (if xSHost j.desc then pieces4k (xSrc j.desc) (16 * xBlocks j.desc) else [])

/-- AES_ENC (R491). -/
def execAesEnc (job : Nat) (s : State) : Host.Outcome State Fault Refusal := next (cipherStart s 0x70 job)

/-- AES_DEC (R491). -/
def execAesDec (job : Nat) (s : State) : Host.Outcome State Fault Refusal := next (cipherStart s 0x71 job)

/-- SHA256 (R493): host data of the message come first in the transfer, then those of the chaining state. -/
def execSha256 (job : Nat) (s : State) : Host.Outcome State Fault Refusal :=
  match jobOf s job 0x74 .started with
  | none => next s
  | some j =>
    if xBlocks j.desc = 0 then next (finish s job .emptyVector)
    else next (startMordant s job j ((if xSHost j.desc then pieces4k (xSrc j.desc) (64 * xBlocks j.desc) else []) ++
      (if xDHost j.desc then pieces4k (xDst j.desc) 32 else [])))

/-- ENTROPY (R494). -/
def execEntropy (job : Nat) (s : State) : Host.Outcome State Fault Refusal :=
  match jobOf s job 0x76 .started with
  | none => next s
  | some j =>
    if xBlocks j.desc = 0 then next (finish s job .emptyVector)
    else if !s.sec.entOk then next (finish s job .unitFault)
    else next (startMordant s job j [])

/-- Full-entropy blocks of 16 bytes (R494). -/
def drawBlocks : Nat → State → State × List Byte
  | 0, s => (s, [])
  | n + 1, s =>
    let (e, s1) := s.entropy
    let (s2, bs) := drawBlocks n s1
    (s2, leBytes 16 e.toNat ++ bs)

/-- A cipher job acts and completes (R491). -/
def cipherDone (s : State) (job : Nat) (j : Job) (enc : Bool) : State :=
  let n := 16 * xBlocks j.desc
  match keyOfJob s j with
  | none => completeJob s job .aborted 0 0
  | some k => match mordantRead s job j (xSHost j.desc) (xSrc j.desc) n with
    | (s1, none) => s1
    | (s1, some (bs, why)) =>
      let out := cipherBlocks (if enc then aesEnc k.key else aesDec k.key) (bs.take (bs.length / 16 * 16))
      let (s2, w, stop) := mordantWrite s1 job j (xDHost j.desc) (xDst j.desc) out
      let s3 := s2.count MORD_AES_BLKS (out.length / 16)
      match stop, why with
      | some st, _ => completeJob s3 job st (w / 16) w
      | none, some st => completeJob s3 job st (w / 16) w
      | none, none => completeJob s3 job .success 0 w

/-- Compresses message blocks from a chaining state (R493). -/
def shaBlocks (st : List Byte) (bs : List Byte) : List Byte :=
  shaBytes ((chunks 64 (bs.length / 64) bs).foldl shaCompress (shaOfBytes st))

/-- A SHA256 job acts and completes (R493). -/
def shaDone (s : State) (job : Nat) (j : Job) : State :=
  let n := 64 * xBlocks j.desc
  let total := (if xSHost j.desc then n else 0) + (if xDHost j.desc then 32 else 0)
  match (if total = 0 then (s, some ([], none)) else mordantRead s job j true 0 total) with
  | (s1, none) => s1
  | (s1, some (_, some st)) => completeJob s1 job st 0 0
  | (s1, some (hs, none)) =>
    match (if xSHost j.desc then (s1, some (hs.take n, none)) else mordantRead s1 job j false (xSrc j.desc) n) with
    | (s2, none) => s2
    | (s2, some (_, some st)) => completeJob s2 job st 0 0
    | (s2, some (msg, none)) =>
      match (if xDHost j.desc then (s2, some (hs.drop (total - 32), none)) else mordantRead s2 job j false (xDst j.desc) 32) with
      | (s3, none) => s3
      | (s3, some (_, some st)) => completeJob s3 job st 0 0
      | (s3, some (st0, none)) =>
        let (s4, w, stop) := mordantWrite s3 job j (xDHost j.desc) (xDst j.desc) (shaBlocks st0 msg)
        completeJob (s4.count MORD_SHA_BLKS (xBlocks j.desc)) job (stop.getD .success) 0 (if stop.isSome then w else 0)

/-- Stops a running cipher or entropy job (R109, R491, R501): some number of its blocks have been written, an open one (DESIGN CHOICE; log
146). The bytes written. -/
def cutMordant (s : State) (job : Nat) (j : Job) : State × Nat :=
  let op := dOpcode j.desc
  if j.phase ≠ .running then (s, 0)
  else
    let (n, s0) := s.choose (xBlocks j.desc + 1)
    if op = 0x76 then
      let (s1, bs) := drawBlocks n s0
      let (s2, w, _) := mordantWrite s1 job j (xDHost j.desc) (xDst j.desc) bs
      (s2, w)
    else match keyOfJob s0 j with
      | none => (s0, 0)
      | some k => match mordantRead s0 job j (xSHost j.desc) (xSrc j.desc) (16 * xBlocks j.desc) with
        | (s1, none) => (s1, 0)
        | (s1, some (bs, _)) =>
          let out := cipherBlocks (if op = 0x70 then aesEnc k.key else aesDec k.key) (bs.take (min n (bs.length / 16) * 16))
          let (s2, w, _) := mordantWrite s1 job j (xDHost j.desc) (xDst j.desc) out
          (s2.count MORD_AES_BLKS (out.length / 16), w)

/-- A cipher, hash or entropy job completes (R491, R493, R494). While its data are under way it goes on later. -/
def execCipherJobDone (job : Nat) (s : State) : Host.Outcome State Fault Refusal :=
  match mget s.vat.jobs job with
  | none => next s
  | some j =>
    let op := dOpcode j.desc
    if j.phase ≠ .running then next s
    else if op = 0x70 then next (cipherDone s job j true)
    else if op = 0x71 then next (cipherDone s job j false)
    else if op = 0x74 then next (shaDone s job j)
    else if op = 0x76 then
      let (s1, bs) := drawBlocks (xBlocks j.desc) s
      let (s2, w, stop) := mordantWrite s1 job j (xDHost j.desc) (xDst j.desc) bs
      next (completeJob s2 job (stop.getD .success) (if stop.isSome then w / 16 else 0) w)
    else next s

/-- The source's continuous health tests fail (R494): jobs that draw on it complete with the unit-fault status. -/
def execContinuousHealthTestFailure (s : State) : Host.Outcome State Fault Refusal :=
  let s1 : State := { s.count MORD_ENT_FAIL with sec := { s.sec with entOk := false } }
  next ((s.vat.jobs.filter (fun p => decide (dOpcode p.2.desc = 0x76))).foldl (fun s p => finish s p.1 .unitFault) s1)

/-- The source tests itself again (R494). -/
def execEntropyHealthRetest (pass : Bool) (s : State) : Host.Outcome State Fault Refusal :=
  let s1 : State := { s with sec := { s.sec with entOk := pass } }
  next (if pass then s1 else s1.count MORD_ENT_FAIL)

end Sys2Proof.Machine
end

