-- ==== Sys2Proof/Machine/Sienna.lean ====
section
/-! DEFINITION. Sienna: IPFIX collectors, their messages and templates (R515 to R517, R519), and frame sampling (R518). -/

namespace Sys2Proof.Machine

open Sys2Proof

def State.coll (s : State) (i : Nat) : Collector := mgetD s.rel.collectors i {}
def State.setColl (s : State) (i : Nat) (c : Collector) : State := { s with rel := { s.rel with collectors := mset s.rel.collectors i c } }

/-- SIEN_EXPORT (R515). -/
def sienFieldsOk (s : State) (b : BitVec 32256) : Bool :=
  decide (1 ≤ bn b 18 16) && decide (10 ≤ bn b 239 224) && decide (bn b 239 224 ≤ 60000) && decide (1 ≤ bn b 255 240) && decide (bn b 255 240 ≤ 3600) &&
    decide (1 ≤ bn b 319 288) && decide (bn b 319 288 ≤ 10000) && (!bt b 3 || zeroBits b 191 96) && (s.eth (bn b 13 8)).lstate != 5

/-- The own address of a collector's family is not set (R516). -/
def noAddr (s : State) (c : Collector) : Bool := if c.ipv4 then s.carm.ip4 == 0#32 else s.carm.ip6 == 0#128

/-- A time of a port's IEEE 1588 counter, in ns, as UTC seconds (R516): with the offset of 802.1AS, or 37 s. -/
def utcSec (s : State) (p : Nat) (ns : Int) : Nat := unsgn 32 (ns / 1000000000 - (mgetD s.rel.utc p 37 : Nat))

/-- The NTP form of dateTimeNanoseconds (R516, RFC 7011). -/
def ntpTime (s : State) (p : Nat) (ns : Int) : List Byte :=
  beBytes 4 (utcSec s p ns + 2208988800) ++ beBytes 4 ((ns % 1000000000).toNat * 2 ^ 32 / 1000000000)

/-- Templates by ID: information element, length, whether it is enterprise-specific (R517). -/
def template (id : Nat) : List (Nat × Nat × Bool) :=
  let time := (325, 8, false)
  let flow := [(7, 2, false), (11, 2, false), (4, 1, false), (5, 1, false), (312, 2, false), (311, 8, false), (20, 1, true)]
  match id with
  | 256 => [time, (1, 1, true), (2, 4, true), (3, 2, true), (4, 2, true), (5, 2, true), (6, 1, true)]
  | 257 => [time, (14, 4, false), (7, 2, true), (8, 64, true), (9, 64, true)]
  | 258 => [time, (10, 4, false), (15, 8, true), (16, 8, true), (17, 8, true), (18, 8, true), (19, 8, true), (21, 1, true)]
  | 259 => [time, (10, 4, false), (27, 16, false), (28, 16, false)] ++ flow
  | 260 => [time, (10, 4, false), (8, 4, false), (12, 4, false)] ++ flow
  | 261 => [time, (10, 4, false), (256, 2, false), (312, 2, false), (311, 8, false), (20, 1, true)]
  | _ => [time, (10, 2, true), (11, 2, true), (12, 2, true), (13, 2, true), (14, 2, true)]

/-- A template record (RFC 7011). The enterprise number is fixed at manufacture (log 6). -/
def templateRec (pen id : Nat) : List Byte :=
  let fs := template id
  beBytes 2 id ++ beBytes 2 fs.length ++ (fs.map (fun f => beBytes 2 (f.1 + (if f.2.2 then 0x8000 else 0)) ++ beBytes 2 f.2.1 ++ (if f.2.2 then beBytes 4 pen else []))).flatten

/-- Templates of the sets a collector takes, in order (R517). -/
def setTemplates (sets : BitVec 8) : List Nat :=
  (if sets.getLsbD 0 then [256] else []) ++ (if sets.getLsbD 1 then [257] else []) ++ (if sets.getLsbD 2 then [258] else []) ++
    (if sets.getLsbD 3 then [259, 260, 261] else []) ++ (if sets.getLsbD 4 then [262] else [])

/-- The private enterprise number (R520; log 6). -/
def sienPen : Nat := leNat (slice (Config.factory 10) 0 4)

def templateSet (c : Collector) : List Byte :=
  let rs := ((setTemplates c.sets).map (templateRec sienPen)).flatten
  beBytes 2 2 ++ beBytes 2 (4 + rs.length) ++ rs

/-- A record: template, bytes, and the baselines that stand once it has been sent (R517). -/
structure SRec where
  id : Nat
  bytes : List Byte
  base : List (Nat × Nat) := []
deriving DecidableEq, Repr

/-- Neighbouring records of one template share a set (RFC 7011). -/
def groupRecs : List SRec → List (Nat × List Byte)
  | [] => []
  | r :: rs => match groupRecs rs with
    | g :: gs => if g.1 = r.id then (r.id, r.bytes ++ g.2) :: gs else (r.id, r.bytes) :: g :: gs
    | [] => [(r.id, r.bytes)]

def setsOf (rs : List SRec) : List Byte := ((groupRecs rs).map (fun g => beBytes 2 g.1 ++ beBytes 2 (4 + g.2.length) ++ g.2)).flatten

/-- Packs records into messages of at most 1,400 bytes, the header of 16 bytes included (R516): `cur` is the message being
filled, `size` its bytes so far. -/
def packMsgs : List SRec → List SRec → Nat → List (List SRec)
  | [], cur, _ => if cur.isEmpty then [] else [cur]
  | r :: rs, cur, size =>
    let grow := r.bytes.length + (if (cur.getLast?.map (·.id)) = some r.id then 0 else 4)
    if cur.isEmpty then packMsgs rs [r] (20 + r.bytes.length)
    else if size + grow ≤ 1400 then packMsgs rs (cur ++ [r]) (size + grow)
    else cur :: packMsgs rs [r] (20 + r.bytes.length)

/-- Sends one message that carries `n` data records (R516). -/
def sendIpfix (s : State) (i n : Nat) (sets : List Byte) : State :=
  let c := s.coll i
  let msg := beBytes 2 10 ++ beBytes 2 (16 + sets.length) ++ beBytes 4 (utcSec s c.port (portNs s c.port)) ++ beBytes 4 (c.seq % 2 ^ 32) ++ beBytes 4 c.odid ++ sets
  let dport := if c.dport = 0 then 4739 else c.dport
  let f := udpFrame s c.port c.ipv4 c.addr.toNat (s.reg CARM_DSCP / 2 ^ (6 * c.tc) % 64) 0 (49152 + i) dport msg
  (handToWeld (s.setColl i { c with seq := (c.seq + n) % 2 ^ 32 }) c.port 0 { bytes := f, cls := c.tc }).count (SIEN_EXP_MSGS i)

/-- Bits that RATE allows a collector now (R515, R519): at most those of one interval (log 61). -/
def rateCredit (s : State) (c : Collector) : Nat :=
  min (c.rate * 1000 * c.interval) (c.credit + c.rate * (s.now - c.creditAt) / 1000)

/-- The records RATE still allows, and how many bits they take. -/
def withinRate (credit : Nat) : List SRec → List SRec × Nat
  | [] => ([], credit)
  | r :: rs =>
    if 8 * r.bytes.length ≤ credit then
      let (ks, left) := withinRate (credit - 8 * r.bytes.length) rs
      (r :: ks, left)
    else ([], credit)

/-- The templates go first when they are due (R516). -/
def sendTemplates (s : State) (i : Nat) : State :=
  let c := s.coll i
  sendIpfix (s.setColl i { c with due := false }) i 0 (templateSet c)

/-- Sends records to a collector (R516, R519). A collector whose port is retired is disabled; on a port that is down its messages
are discarded and baselines stay; records beyond RATE are dropped. Nothing is sent without an own address. -/
def exportRecs (s : State) (i : Nat) (rs : List SRec) : State :=
  let c := s.coll i
  if !c.en then s
  else if (s.eth c.port).lstate = 5 then s.setColl i { c with en := false }
  else if noAddr s c then s
  else if !(s.eth c.port).up then
    let n := (packMsgs rs [] 0).length
    (s.setColl i { c with due := true, seq := (c.seq + rs.length) % 2 ^ 32 }).count (SIEN_EXP_DROP i) n
  else
    let s1 := if c.due then sendTemplates s i else s
    let (keep, left) := withinRate (rateCredit s c) rs
    let s2 := s1.setColl i { s1.coll i with credit := left, creditAt := s.now, base := (keep.map (·.base)).flatten.foldl (fun m b => mset m b.1 b.2) c.base }
    let s3 := (packMsgs keep [] 0).foldl (fun s m => sendIpfix s i m.length (setsOf m)) s2
    let lost := rs.length - keep.length
    let s4 := s3.setColl i { s3.coll i with seq := ((s3.coll i).seq + lost) % 2 ^ 32 }
    if lost = 0 then s4 else s4.count (SIEN_EXP_DROP i) lost

/-- Count since the previous record: its baseline is kept modulo 2^64, so that clearing a register moves it (R517). -/
def delta64 (now base : Nat) : Nat := (now + 2 ^ 64 - base % 2 ^ 64) % 2 ^ 64

/-- Keys of baselines: counters of a port, bins of a queue, trouble of a unit. -/
def portBase (p k : Nat) : Nat := p * 8 + k
def queueBase (q k : Nat) : Nat := 2 ^ 20 + q * 32 + k
def unitBase (u : Nat) : Nat := 2 ^ 40 + u

/-- Records of a round, in the order region, port, queue, trouble (R516, R517). -/
def regionRecs (s : State) (c : Collector) : List SRec :=
  ((List.range 16).filter (fun r => decide ((s.rgn r).rstate ≠ .off))).map (fun r =>
    let x := s.rgn r
    let code : Nat := match x.rstate with
      | .off => 0
      | .starting => 1
      | .inService => 2
      | .resetting => 3
      | .retired => 4
    { id := 256, bytes := ntpTime s c.port (portNs s c.port) ++ beBytes 1 r ++ beBytes 4 x.rate.toNat ++ beBytes 2 (x.tj.toNat % 65536) ++ beBytes 2 x.vset ++ beBytes 2 x.offset ++ beBytes 1 code })
def portRecs (s : State) (c : Collector) : List SRec :=
  ((List.range 64).filter (fun p => ethMode s p != 0)).map (fun p =>
    let regs := [ETH_TX_FRAMES p, ETH_RX_FRAMES p, ETH_RX_ERR p, ETH_FEC_CE p, ETH_FEC_UE p]
    let now := regs.map (fun r => mgetD s.regs r 0)
    let ds := now.mapIdx (fun k v => delta64 v (mgetD c.base (portBase p k) 0))
    { id := 258, bytes := ntpTime s c.port (portNs s c.port) ++ beBytes 4 p ++ (ds.map (beBytes 8)).flatten ++ beBytes 1 (s.eth p).lstate
      base := now.mapIdx (fun k v => (portBase p k, v)) })
def queueRecs (s : State) (c : Collector) : List SRec :=
  (s.net.queues.filter (fun q => bt q.2.cfg 0)).filterMap (fun q =>
    let now := (List.range 16).map (fun k => mgetD q.2.histDepth k 0) ++ (List.range 16).map (fun k => mgetD q.2.histSoj k 0)
    let ds := now.mapIdx (fun k v => (v + 2 ^ 32 - mgetD c.base (queueBase q.1 k) 0 % 2 ^ 32) % 2 ^ 32)
    if ds.all (· == 0) then none
    else some { id := 257, bytes := ntpTime s c.port (portNs s c.port) ++ beBytes 4 (q.1 / 4096) ++ beBytes 2 (q.1 % 4096) ++ (ds.map (beBytes 4)).flatten
                base := now.mapIdx (fun k v => (queueBase q.1 k, v)) })
def troubleRecs (s : State) (c : Collector) : List SRec :=
  (s.fab.trouble).filterMap (fun u =>
    let x := u.2.ce + at_ 16 u.2.ue + at_ 32 u.2.tmo + at_ 48 u.2.fx
    if mgetD c.base (unitBase u.1) 0 = x then none
    else some { id := 262, bytes := ntpTime s c.port (portNs s c.port) ++ beBytes 2 u.1 ++ beBytes 2 u.2.ce ++ beBytes 2 u.2.ue ++ beBytes 2 u.2.tmo ++ beBytes 2 u.2.fx
                base := [(unitBase u.1, x)] })
def roundRecs (s : State) (c : Collector) : List SRec :=
  (if c.sets.getLsbD 0 then regionRecs s c else []) ++ (if c.sets.getLsbD 2 then portRecs s c else []) ++
    (if c.sets.getLsbD 1 then queueRecs s c else []) ++ (if c.sets.getLsbD 4 then troubleRecs s c else [])

/-- An interval of a collector ends (R516). While Palette core 7 restarts, export pauses (R519). -/
def execExportInterval (slot : Nat) (s : State) : Host.Outcome State Fault Refusal :=
  next (if pcoreRuns s 7 then exportRecs s slot (roundRecs s (s.coll slot)) else s)

/-- TREFRESH passes (R516). -/
def execTemplateRefresh (slot : Nat) (s : State) : Host.Outcome State Fault Refusal :=
  let c := s.coll slot
  next (if !c.en || !pcoreRuns s 7 then s else exportRecs (s.setColl slot { c with due := true }) slot [])

/-- Sampled records that have accumulated are sent (R516). -/
def execSampledRecordFlush (s : State) : Host.Outcome State Fault Refusal :=
  next (if !pcoreRuns s 7 then s
  else (List.range 4).foldl (fun s i =>
    let c := s.coll i
    if c.samples.isEmpty then s else exportRecs (s.setColl i { c with samples := [] }) i (c.samples.map (fun r => { id := r.1, bytes := r.2 }))) s)

/-- SIEN_EXPORT (R515). The baselines of a collector outlive its configuration (log 60). -/
def execSienExport (pair : MboxId) (blk : CmdBlock) (s : State) : Host.Outcome State Fault Refusal :=
  next (fwCommand 0x0D6 true pair blk (fun s c b =>
    if !fromPf0 c then refuse s .accessDenied
    else if !bodyReserved b [(7, 4), (15, 14), (31, 19), (63, 48), (263, 261), (287, 264)] 320 then refuse s .invalidField
    else
      let i := bn b 1 0
      let x := s.coll i
      if !bt b 2 then accept (s.setColl i { x with en := false, samples := [] })
      else if !sienFieldsOk s b then refuse s .invalidField
      else
        let y : Collector := {
          en := true, ipv4 := bt b 3, port := bn b 13 8, tc := bn b 18 16, dport := bn b 47 32, addr := BitVec.ofNat 128 (bn b 191 64), odid := bn b 223 192
          interval := bn b 239 224, trefresh := bn b 255 240, sets := BitVec.ofNat 8 (bn b 263 256), rate := bn b 319 288, due := true, base := x.base
          credit := bn b 319 288 * 1000 * bn b 239 224, creditAt := s.now }
        accept (exportRecs (s.setColl i y) i [])) s)

/-- SIEN_SAMPLE (R518). -/
def execSienSample (pair : MboxId) (blk : CmdBlock) (s : State) : Host.Outcome State Fault Refusal :=
  next (fwCommand 0x0D7 true pair blk (fun s c b =>
    if !fromPf0 c then refuse s .accessDenied
    else if !bodyReserved b [(7, 6)] 13 || decide (24 < bn b 12 8) then refuse s .invalidField
    else accept { s with rel := { s.rel with sampleK := mset s.rel.sampleK (bn b 5 0) (bn b 12 8) } }) s)

/-- A sampled-frame record (R517, R518): ingress time, port and key fields of the frame, its size without FCS (log 63), and what
Madder did with it. -/
def sampleRec (s : State) (p k : Nat) (key : BitVec 448) (size : Nat) (stamp : Int) (disp : Nat) : Nat × List Byte :=
  let v6 := bt key 6
  let v4 := bt key 7
  let head := ntpTime s p stamp ++ beBytes 4 p
  let tail := beBytes 2 size ++ beBytes 8 ((1023 - k) * 2 ^ 52) ++ beBytes 1 disp
  let flow := beBytes 2 (bn key 399 384) ++ beBytes 2 (bn key 415 400) ++ beBytes 1 (bn key 119 112) ++ beBytes 1 (4 * bn key 125 120 + bn key 127 126)
  if v6 then (259, head ++ beBytes 16 (bn key 255 128) ++ beBytes 16 (bn key 383 256) ++ flow ++ tail)
  else if v4 then (260, head ++ beBytes 4 (bn key 159 128) ++ beBytes 4 (bn key 287 256) ++ flow ++ tail)
  else (261, head ++ beBytes 2 (bn key 63 48) ++ tail)

/-- A frame may be sampled (R518): with probability 2^−K, within the limits of a second. -/
def sampleFrame (s : State) (p : Nat) (key : BitVec 448) (size : Nat) (stamp : Int) (disp : Nat) : State :=
  let k := mgetD s.rel.sampleK p 0
  if k = 0 then s
  else
    let (n, s1) := s.choose (2 ^ k)
    if n ≠ 0 then s1
    else
      let sec := s1.now / 1000000000
      let s2 : State := if s1.rel.takenAt = sec then s1 else { s1 with rel := { s1.rel with takenAt := sec, taken := [] } }
      let here := mgetD s2.rel.taken p 0
      let all := mgetD s2.rel.taken 64 0
      if 4000000 ≤ here ∨ 32000000 ≤ all then s2.count SIEN_SAMPLE_DROP
      else
        let s3 : State := { s2 with rel := { s2.rel with taken := mset (mset s2.rel.taken p (here + 1)) 64 (all + 1) } }
        (List.range 4).foldl (fun s i =>
          let c := s.coll i
          if c.en && c.sets.getLsbD 3 then s.setColl i { c with samples := c.samples ++ [sampleRec s p k key size stamp disp] } else s) (s3.count (SIEN_SAMPLED p))

end Sys2Proof.Machine
end

