-- ==== Sys2Proof/Machine/Madder.lean ====
section
/-! DEFINITION. Madder: ingress (R320, R338), the parse graph and the key (R339, R340, R343), slow-path causes and delivery
(R341, R342, R469, R470), rules (R344 to R348), the flow table (R349 to R352). -/

namespace Sys2Proof.Machine

open Sys2Proof

/-! Parsing (R339 to R341, R343). -/

/-- What a parse has found: causes of R341, and the fields of the key. -/
structure Parse where
  causes : List Nat := []
  ntags : Nat := 0
  vid1 : Nat := 0
  vid2 : Nat := 0
  pcp : Nat := 0
  etype : Nat := 0
  dmac : Nat := 0
  own : Bool := false
  v4 : Bool := false
  v6 : Bool := false
  tcp : Bool := false
  udp : Bool := false
  carm : Bool := false
  tun : Bool := false
  proto : Nat := 0
  dscp : Nat := 0
  ecn : Nat := 0
  sip : Nat := 0
  dip : Nat := 0
  sport : Nat := 0
  dport : Nat := 0
  tcpf : Nat := 0
  vni : Nat := 0
  /-- Where the UDP or TCP header starts, and where its datagram ends. -/
  l4 : Nat := 0
  stop : Nat := 0
deriving DecidableEq, Repr

def Parse.add (p : Parse) (bad : Bool) (cause : Nat) : Parse := if bad then { p with causes := p.causes ++ [cause] } else p

/-- A header that ends at byte `e`: cause 3 beyond byte 512, cause 4 beyond the frame (log 64). -/
def Parse.header (p : Parse) (bs : List Byte) (e : Nat) : Parse := (p.add (decide (512 < e)) 3).add (decide (bs.length < e)) 4

def isTag (t : Nat) : Bool := t == 0x8100 || t == 0x88A8

/-- Tags at an offset, two at most (R339): how many, the two tag words, where the EtherType stands, and whether more follow. -/
def readTags (bs : List Byte) (o : Nat) : Nat × Nat × Nat × Nat × Bool :=
  if !isTag (beAt bs o 2) then (0, 0, 0, o, false)
  else
    let t1 := beAt bs (o + 2) 2
    if !isTag (beAt bs (o + 4) 2) then (1, t1, 0, o + 4, false)
    else (2, t1, beAt bs (o + 6) 2, o + 8, isTag (beAt bs (o + 8) 2))

/-- TCP at an offset (R339, R341). -/
def parseTcp (bs : List Byte) (o : Nat) (p : Parse) : Parse :=
  let doff := 4 * (beAt bs (o + 12) 1 / 16)
  let p1 := (p.header bs (o + 20)).add (decide (doff < 20) || decide (bs.length < o + doff)) 4
  { p1.add (decide (512 < o + doff)) 3 with tcp := true, sport := beAt bs o 2, dport := beAt bs (o + 2) 2, tcpf := beAt bs (o + 13) 1, l4 := o }

/-- UDP at an offset (R339 to R341). -/
def parseUdp (carmPort : Nat) (bs : List Byte) (o : Nat) (p : Parse) : Parse :=
  let dport := beAt bs (o + 2) 2
  let p1 := (p.header bs (o + 8)).add (decide (bs.length < o + beAt bs (o + 4) 2)) 4
  { p1 with udp := true, sport := beAt bs o 2, dport := dport, carm := dport == carmPort, l4 := o, stop := o + beAt bs (o + 4) 2 }

/-- The upper layer at an offset. -/
def parseL4 (carmPort : Nat) (bs : List Byte) (o proto : Nat) (p : Parse) : Parse :=
  let p1 := { p with proto := proto }
  if proto = 17 then parseUdp carmPort bs o p1 else if proto = 6 then parseTcp bs o p1 else p1

/-- IPv4 at an offset (R339, R341). A fragment's upper layer is not parsed. -/
def parseV4 (carmPort : Nat) (bs : List Byte) (o : Nat) (p : Parse) : Parse :=
  let ihl := 4 * (beAt bs o 1 % 16)
  let frag := beAt bs (o + 6) 2
  let p1 := ((p.header bs (o + 20)).add (decide (ihl ≠ 20) && decide (20 < ihl)) 2).add (decide (ihl < 20) || decide (bs.length < o + beAt bs (o + 2) 2)) 4
  let p2 := (p1.add (decide (frag % 0x4000 ≠ 0)) 1).add (decide (fold16 (sum16 (slice bs o ihl)) ≠ 0xFFFF)) 4
  let p3 := { (p2.header bs (o + ihl)) with v4 := true, dscp := beAt bs (o + 1) 1 / 4, ecn := beAt bs (o + 1) 1 % 4, sip := beAt bs (o + 12) 4, dip := beAt bs (o + 16) 4 }
  if frag % 0x4000 ≠ 0 ∨ ihl < 20 then { p3 with proto := beAt bs (o + 9) 1 } else parseL4 carmPort bs (o + ihl) (beAt bs (o + 9) 1) p3

/-- IPv6 extension headers from an offset, `n` more at most (R339, R341). -/
def parseExt (carmPort : Nat) (bs : List Byte) : Nat → Nat → Nat → Parse → Parse
  | n, o, nh, p =>
    if nh = 44 then (p.add true 1).header bs (o + 8)
    else if nh = 0 ∨ nh = 43 ∨ nh = 60 ∨ nh = 51 then
      let len := if nh = 51 then 4 * (beAt bs (o + 1) 1 + 2) else 8 * (beAt bs (o + 1) 1 + 1)
      match n with
      | 0 => p.add true 3
      | n + 1 => parseExt carmPort bs n (o + len) (beAt bs o 1) (p.header bs (o + len))
    else parseL4 carmPort bs o nh p

/-- IPv6 at an offset (R339, R341). -/
def parseV6 (carmPort : Nat) (bs : List Byte) (o : Nat) (p : Parse) : Parse :=
  let w := beAt bs o 4
  let p1 := (p.header bs (o + 40)).add (decide (bs.length < o + 40 + beAt bs (o + 4) 2)) 4
  parseExt carmPort bs 4 (o + 40) (beAt bs (o + 6) 1)
    { p1 with v6 := true, dscp := w / 2 ^ 22 % 64, ecn := w / 2 ^ 20 % 4, sip := beAt bs (o + 8) 16, dip := beAt bs (o + 24) 16 }

/-- What follows an EtherType (R339, R341). -/
def parseL3 (carmPort : Nat) (bs : List Byte) (o etype : Nat) (p : Parse) : Parse :=
  let ver := beAt bs o 1 / 16
  if etype = 0x0800 then (if ver = 4 then parseV4 carmPort bs o p else p.add true 4)
  else if etype = 0x86DD then (if ver = 6 then parseV6 carmPort bs o p else p.add true 4)
  else p

/-- Where the inner frame of a tunnel starts, with its VNI (R339, R340). -/
def tunnelOf (bs : List Byte) (p : Parse) : Option (Nat × Nat) :=
  let o := p.l4 + 8
  if !p.udp || p.carm then none
  else if p.dport = 4789 then (if beAt bs o 1 / 8 % 2 = 1 then some (o + 8, beAt bs (o + 4) 3) else none)
  else if p.dport = 6081 then (if beAt bs (o + 2) 2 = 0x6558 then some (o + 8 + 4 * (beAt bs o 1 % 64), beAt bs (o + 4) 3) else none)
  else none

/-- The inner frame at an offset: the tag fields, DMAC and OWN stay those of the outer frame (R343). -/
def parseInner (carmPort : Nat) (bs : List Byte) (o vni : Nat) (p : Parse) : Parse :=
  let (_, _, _, e, more) := readTags bs (o + 12)
  let q : Parse := { causes := p.causes, ntags := p.ntags, vid1 := p.vid1, vid2 := p.vid2, pcp := p.pcp, dmac := p.dmac, own := p.own, tun := true, vni := vni, etype := beAt bs e 2 }
  parseL3 carmPort bs (e + 2) (beAt bs e 2) (((q.header bs o).header bs (e + 2)).add more 5)

/-- Parses a frame (R339 to R341). -/
def parseFrame (s : State) (bs : List Byte) : Parse :=
  let carmPort := s.reg CARM_UDP_PORT % 65536
  let (n, t1, t2, e, more) := readTags bs 12
  let et := beAt bs e 2
  let p0 : Parse := { ntags := n, vid1 := t1 % 4096, pcp := t1 / 8192, vid2 := t2 % 4096, etype := et, dmac := beAt bs 0 6 }
  let p1 := parseL3 carmPort bs (e + 2) et (((p0.header bs (e + 2)).add more 5).add (et == 0x88F7) 6)
  let p2 := { p1 with own := (p1.v4 && p1.dip == s.carm.ip4.toNat) || (p1.v6 && p1.dip == s.carm.ip6.toNat) }
  match tunnelOf bs p2 with
  | some (o, vni) => parseInner carmPort bs o vni p2
  | none => p2

/-- The lookup key (R343). -/
def Parse.key (p : Parse) (port : Nat) : BitVec 448 :=
  BitVec.ofNat 448 (port + at_ 6 (b2n p.v6) + at_ 7 (b2n p.v4) + at_ 8 (b2n p.tcp) + at_ 9 (b2n p.udp) + at_ 10 (b2n p.carm) + at_ 11 (b2n p.tun) +
    at_ 12 (b2n p.own) + at_ 13 p.ntags + at_ 16 p.vid1 + at_ 28 p.vid2 + at_ 40 p.pcp + at_ 48 p.etype + at_ 64 p.dmac + at_ 112 p.proto + at_ 120 p.dscp +
    at_ 126 p.ecn + at_ 128 p.sip + at_ 256 p.dip + at_ 384 p.sport + at_ 400 p.dport + at_ 416 p.tcpf + at_ 424 p.vni)

/-! The slow path (R342, R469, R470). -/

/-- Takes a token of a bucket that refills at `rate` tokens a second and holds `cap` (R342). -/
def takeToken (s : State) (i rate cap : Nat) : State × Bool :=
  let b := mgetD s.madr.buckets i {}
  let full := 1000000000 * cap
  let level := if b.full then full else min full (b.level + rate * (s.now - b.at_))
  let ok := decide (1000000000 ≤ level)
  let b1 : Bucket := { level := if ok then level - 1000000000 else level, at_ := s.now, full := false }
  ({ s with madr := { s.madr with buckets := mset s.madr.buckets i b1 } }, ok)

/-- The reply of firmware to an ARP request for the own IPv4 address (R469; log 66). -/
def arpReply (s : State) (p : Nat) (bs : List Byte) : Option (List Byte) :=
  let (_, _, _, e, _) := readTags bs 12
  let o := e + 2
  if beAt bs e 2 = 0x0806 ∧ beAt bs o 8 = 0x0001080006040001 ∧ s.carm.ip4 ≠ 0#32 ∧ beAt bs (o + 24) 4 = s.carm.ip4.toNat then
    let mac := beBytes 6 (s.reg (ETH_MAC p) % 2 ^ 48)
    some (slice bs (o + 8) 6 ++ mac ++ beBytes 2 0x0806 ++ beBytes 8 0x0001080006040002 ++ mac ++ beBytes 4 s.carm.ip4.toNat ++ slice bs (o + 8) 10)
  else none

/-- The neighbour advertisement that answers a neighbour solicitation for the own IPv6 address (R469; log 66). -/
def ndReply (s : State) (p : Nat) (bs : List Byte) : Option (List Byte) :=
  let (_, _, _, e, _) := readTags bs 12
  let o := e + 2
  if beAt bs e 2 = 0x86DD ∧ beAt bs (o + 6) 1 = 58 ∧ beAt bs (o + 40) 1 = 135 ∧ s.carm.ip6 ≠ 0#128 ∧ beAt bs (o + 48) 16 = s.carm.ip6.toNat then
    let mac := beBytes 6 (s.reg (ETH_MAC p) % 2 ^ 48)
    let own := beBytes 16 s.carm.ip6.toNat
    let dst := slice bs (o + 8) 16
    let na (ck : Nat) : List Byte := beBytes 2 0x8800 ++ beBytes 2 ck ++ beBytes 4 0x60000000 ++ own ++ beBytes 2 0x0201 ++ mac
    let ck := csum16 (own ++ dst ++ beBytes 4 32 ++ beBytes 4 58 ++ na 0)
    some (slice bs 6 6 ++ mac ++ beBytes 2 0x86DD ++ beBytes 4 (at_ 28 6) ++ beBytes 2 32 ++ beBytes 1 58 ++ beBytes 1 255 ++ own ++ dst ++ na ck)
  else none

/-- Function that a slow-path ring lies in (R469). -/
def SpRing.fn (r : SpRing) : Nat := if r.port then 2048 else 0

/-- The ring's interrupt, at most one in 10 µs (R469). -/
def spIrq (s : State) (q : Nat) : State :=
  match mget s.pal.spRings q with
  | none => s
  | some r =>
    if r.due && (match r.lastIrq with
        | some t => decide (t + 10000 ≤ s.now)
        | none => true) then
      ({ s with pal := { s.pal with spRings := mset s.pal.spRings q { r with due := false, lastIrq := some s.now } } } : State).msix r.fn r.vector
    else s

/-- Delivers a slow-path frame to the ring of its SPQ (R469, R470); none when it has no room there. -/
def spDeliver (s : State) (f : RxFrame) (cause spq : Nat) : Option State :=
  match mget s.pal.spRings spq with
  | none => none
  | some r =>
    let n := 2 ^ r.sizeLog2
    let used := (r.written + n - mgetD s.pal.spHead spq 0 % n) % n
    if n ≤ used + 1 ∨ s.master r.fn = false then none
    else
      let phase := if r.written / n % 2 = 0 then 1 else 0
      let sec := ((f.stamp / 1000000000) % 2 ^ 48).toNat
      let rec_ := leBytes 64 (phase + at_ 8 cause + at_ 16 f.port + at_ 32 spq + at_ 48 f.bytes.length + at_ 64 sec + at_ 112 (f.stamp % 1000000000).toNat)
      let a := r.base + 8256 * (r.written % n)
      let s1 := ((s.hostWrite r.fn (a + 64) (f.bytes.take 8192)).hostWrite r.fn (a + 8) (rec_.drop 8)).hostWrite r.fn a (rec_.take 8)
      some (spIrq { s1 with pal := { s1.pal with spRings := mset s1.pal.spRings spq { r with written := r.written + 1, due := true } } } spq)

/-- A frame takes the slow path with a cause and an SPQ (R341, R342, R469). Firmware answers address requests itself; a reply's
class is open (log 66). -/
def slowPath (s : State) (f : RxFrame) (cause spq : Nat) : State :=
  let p := f.port
  let s1 := s.count (MADR_CAUSE cause)
  let rate := s.reg (MADR_SP_LIMIT p) % 16384
  let (s2, ok) := if cause = 6 then takeToken s1 (2 * p + 1) 10000 10 else takeToken s1 (2 * p) (1000 * rate) rate
  let drop (s : State) : State := s.count (MADR_SP_DROP p)
  if !ok || !pcoreRuns s2 6 then drop s2
  else if cause = 6 then s2
  else match (arpReply s2 p f.bytes).orElse (fun _ => ndReply s2 p f.bytes) with
    | some bs =>
      let (c, s3) := s2.choose 8
      handToWeld s3 p 0 { bytes := bs, cls := c }
    | none => match spDeliver s2 f cause spq with
      | some s3 => s3
      | none => drop s2

/-! Decisions (R344 to R346). -/

/-- The bytes of the UDP payload as a packet for Carmine (R258). -/
def carmPkt (p : Parse) (bs : List Byte) : RxPkt :=
  { srcIp := p.sip, srcPort := p.sport, ce := decide (p.ecn = 3), bytes := if p.udp then slice bs (p.l4 + 8) (p.stop - (p.l4 + 8)) else [] }

/-- A field of the key that comparators look at, and whether a comparator hits (R344). -/
def rangeHits (s : State) (key : BitVec 448) (n : Nat) : Bool :=
  let r := s.reg (MADR_RANGE n)
  let f := if r.testBit 32 then bn key 415 400 else bn key 399 384
  decide (r % 65536 ≤ f) && decide (f ≤ r / 65536 % 65536)

/-- A rule matches a key (R344, R354). -/
def Rule.hits (r : Rule) (s : State) (key : BitVec 448) : Bool :=
  r.valid && ((key ^^^ r.value) &&& r.mask == 0#448) && (!bt r.range 12 || rangeHits s key (bn r.range 11 0)) &&
    (!bt r.range 28 || rangeHits s key (bn r.range 27 16))

/-- A Carmine packet from a frame. -/
def toCarmine (s : State) (p : Parse) (bs : List Byte) : State := carmArrive s (carmPkt p bs)

/-- Applies an action (R345), and samples the frame (R518). -/
def applyAction (s : State) (f : RxFrame) (p : Parse) (action : W64) : State :=
  let kind := bn action 2 0
  let s1 := if kind = 1 then slowPath s f 7 (bn action 15 8)
    else if kind = 2 then toCarmine s p f.bytes
    else if kind = 3 then { s with madr := { s.madr with toSaffron := s.madr.toSaffron ++ [(bn action 24 8, f)] } }
    else s
  sampleFrame s1 f.port (p.key f.port) f.bytes.length f.stamp kind

/-- A frame that nothing matched (R346 step 5). -/
def unmatched (s : State) (f : RxFrame) (p : Parse) : State :=
  sampleFrame (slowPath s f 8 0) f.port (p.key f.port) f.bytes.length f.stamp 1

/-- The least of the causes. -/
def leastCause (cs : List Nat) : Option Nat := cs.foldl (fun (m : Option Nat) c => match m with
  | some x => some (min x c)
  | none => some c) none

/-- Decides a parsed frame (R346). A flow lookup is answered later. -/
def decideFrame (s : State) (f : RxFrame) : State :=
  let p := parseFrame s f.bytes
  let key := p.key f.port
  match leastCause p.causes with
  | some c => sampleFrame (slowPath s f c 0) f.port key f.bytes.length f.stamp 1
  | none => match s.madr.rules.find? (fun r => r.2.hits s key) with
    | some (i, r) => applyAction (s.count (MADR_RULE_HITS i)) f p r.action
    | none =>
      if p.carm && p.own then sampleFrame (toCarmine (s.count MADR_CARM_DEF) p f.bytes) f.port key f.bytes.length f.stamp 2
      else if p.v4 || p.v6 then
        (if s.madr.n = 0 then unmatched (s.count MADR_FLOW_MISS) f p
         else { s with madr := { s.madr with lookups := s.madr.lookups ++ [⟨f, key⟩] } })
      else unmatched s f p

/-! Ingress (R320, R338). -/

/-- The outer tag of a frame carries PCP 0. -/
def pcpZero (bs : List Byte) : Bool := isTag (beAt bs 12 2) && beAt bs 14 2 / 8192 == 0

def ingressBytes (s : State) (p : Nat) : Nat := ((s.madr.ingress.filter (fun f => f.port == p)).map (fun f => f.bytes.length)).sum

/-- Drops the youngest frames of a port that do not carry PCP 0 until `n` bytes fit, `k` at most (R338; log 65). -/
def makeRoom (p n : Nat) : Nat → State → State
  | 0, s => s
  | k + 1, s =>
    if ingressBytes s p + n ≤ 262144 then s
    else match (s.madr.ingress.filter (fun f => f.port == p && !pcpZero f.bytes)).getLast? with
      | none => s
      | some f => makeRoom p n k (({ s with madr := { s.madr with ingress := (s.madr.ingress.reverse.erase f).reverse } } : State).count MADR_RX_OVF)

/-- A frame arrives at a port that is up (R320, R325, R338). -/
def execFrameReceive (port : Nat) (frame : List Byte) (fcsOk : Bool) (s : State) : Host.Outcome State Fault Refusal :=
  if !(s.eth port).up then next s
  else if !fcsOk || decide (frame.length < 60) || decide (9212 < frame.length) then next (s.count (ETH_RX_ERR port))
  else
    let s1 := s.count (ETH_RX_FRAMES port)
    let s2 := if pcpZero frame then makeRoom port frame.length s1.madr.ingress.length s1 else s1
    if 262144 < ingressBytes s2 port + frame.length then next (s2.count MADR_RX_OVF)
    else next { s2 with madr := { s2.madr with ingress := s2.madr.ingress ++ [⟨port, frame, portNs s port⟩] } }

/-- Madder parses the next frame of a port, those with PCP 0 first (R338, R346). -/
def execMadderParse (port : Nat) (s : State) : Host.Outcome State Fault Refusal :=
  let mine := s.madr.ingress.filter (fun f => f.port == port)
  match (mine.find? (fun f => pcpZero f.bytes)).orElse (fun _ => mine.head?) with
  | none => next s
  | some f => next (decideFrame { s with madr := { s.madr with ingress := s.madr.ingress.erase f } } f)

/-! The flow table (R349 to R352). -/

/-- The entry's key from the lookup key (R349). -/
def flowKey (key : BitVec 448) : BitVec 384 :=
  BitVec.ofNat 384 (bn key 255 128 + at_ 128 (bn key 383 256) + at_ 256 (bn key 399 384) + at_ 272 (bn key 415 400) + at_ 288 (bn key 119 112) +
    at_ 296 (bn key 447 424) + at_ 320 (bn key 6 6) + at_ 321 (bn key 11 11))

/-- The two candidate slots (R350). -/
def flowSlots (n : Nat) (k : BitVec 384) : Nat × Nat :=
  let h := crc32c (leBytes 48 k.toNat)
  (h % 2 ^ n, (h / 65536 + h * 65536) % 2 ^ 32 % 2 ^ n)

/-- The slot of a key in a table. -/
def flowFind (n : Nat) (m : Map FlowEntry) (k : BitVec 384) : Option (Nat × FlowEntry) :=
  let (a, b) := flowSlots n k
  [a, b].findSome? (fun i => match mget m i with
    | some e => if e.key = k then some (i, e) else none
    | none => none)

/-- Puts an entry into a table: in place, or slot A, or slot B; none when both are taken (R351). -/
def flowPut (n : Nat) (m : Map FlowEntry) (e : FlowEntry) : Option (Map FlowEntry) :=
  match flowFind n m e.key with
  | some (i, _) => some (mset m i e)
  | none =>
    let (a, b) := flowSlots n e.key
    if (mget m a).isNone then some (mset m a e) else if (mget m b).isNone then some (mset m b e) else none

/-- A slot's line lies in a region under reset (R23, R346). -/
def flowStalls (s : State) (k : BitVec 384) : Bool :=
  let (a, b) := flowSlots s.madr.n k
  match s.lake.fw.find? (fun f => decide (f.kind = .flowTable)) with
  | none => false
  | some r => [a, b].any (fun i => match mget s.lake.pageOf ((r.base + 64 * i) / pageBytes) with
    | some pp => decide ((s.rgn (ppStack pp / 2)).rstate = .resetting)
    | none => false)

/-- The oldest flow lookup is answered (R346, R350). -/
def execFlowLookupResult (s : State) : Host.Outcome State Fault Refusal :=
  match s.madr.lookups with
  | [] => next s
  | l :: ls =>
    if flowStalls s (flowKey l.key) then next s
    else
      let s1 : State := { s with madr := { s.madr with lookups := ls } }
      let p := parseFrame s l.frame.bytes
      match flowFind s.madr.n s.madr.flows (flowKey l.key) with
      | some (_, e) => next (applyAction (s1.count MADR_FLOW_HIT) l.frame p e.action)
      | none => next (unmatched (s1.count MADR_FLOW_MISS) l.frame p)

/-- The oldest flow lookup is not answered within 2 µs (R346 step 4). -/
def execFlowLookupTimeout (s : State) : Host.Outcome State Fault Refusal :=
  match s.madr.lookups with
  | [] => next s
  | l :: ls => next (unmatched (({ s with madr := { s.madr with lookups := ls } } : State).count MADR_FLOW_MISS) l.frame (parseFrame s l.frame.bytes))

/-- An action that keeps the reserved fields and encodings of R345. -/
def actionOk (a : W64) : Bool :=
  let k := bn a 2 0
  decide (k < 4) && zeroBits a 7 3 && zeroBits a 63 32 && (if k = 1 then zeroBits a 31 16 else if k = 3 then zeroBits a 31 25 else zeroBits a 31 8)

/-- A flow command, which waits while a table is built (R351). -/
def flowCommand (op n : Nat) (rs : List (Nat × Nat)) (k : MboxId) (blk : CmdBlock) (f : BitVec 32256 → Cmd → State → State × Option Reply) (s : State) : State :=
  if s.madr.building.isSome then s
  else fwCommand op true k blk (fun s c b =>
    if !fromPf0 c then refuse s .accessDenied
    else if !bodyReserved b rs n then refuse s .invalidField
    else f b c s) s

/-- Pages of a table of 2^n slots. -/
def flowPages (n : Nat) : Nat := cdiv (64 * 2 ^ n) pageBytes

/-- Gives back one of firmware's flow-table regions: the first, or the last, of them. -/
def dropFlowRegion (s : State) (last : Bool) : State :=
  let rs := s.lake.fw.filter (fun f => decide (f.kind = .flowTable))
  match (if last then rs.getLast? else rs.head?) with
  | none => s
  | some f => releasePages { s with lake := { s.lake with fw := s.lake.fw.erase f } } (f.base / pageBytes) f.pages

/-- FLOW_TABLE (R351). -/
def execFlowTable (pair : MboxId) (blk : CmdBlock) (s : State) : Host.Outcome State Fault Refusal :=
  next (flowCommand 0x060 5 [] pair blk (fun b c s =>
    let n := bn b 4 0
    if n < 16 ∨ 26 < n then refuse s .invalidField
    else match takeFwRegion s .flowTable (flowPages n) with
      | none => refuse s .outOfResources
      | some s1 => ({ s1 with madr := { s1.madr with building := some (n, c.id) } }, none)) s)

/-- The table is built: lookups switch to it, or the build fails (R351). -/
def execFlowTableSwitch (s : State) : Host.Outcome State Fault Refusal :=
  match s.madr.building with
  | none => next s
  | some (n, cmd) =>
    let s1 : State := { s with madr := { s.madr with building := none } }
    match s.madr.flows.foldl (fun (m : Option (Map FlowEntry)) e => m.bind (fun t => flowPut n t e.2)) (some []) with
    | none => next (replyTo (dropFlowRegion s1 true) cmd { status := .outOfResources })
    | some m =>
      let s2 := if s1.madr.n = 0 then s1 else dropFlowRegion s1 false
      next (replyTo { s2 with madr := { s2.madr with n := n, flows := m } } cmd { status := .success })

/-- FLOW_ADD (R351). -/
def execFlowAdd (pair : MboxId) (blk : CmdBlock) (s : State) : Host.Outcome State Fault Refusal :=
  next (flowCommand 0x061 448 [(383, 322)] pair blk (fun b _ s =>
    let e : FlowEntry := { key := BitVec.ofNat 384 (bn b 383 0), action := BitVec.ofNat 64 (bn b 447 384) }
    if !actionOk e.action then refuse s .invalidField
    else if s.madr.n = 0 then refuse s .outOfResources
    else match flowFind s.madr.n s.madr.flows e.key with
      | some (_, x) => if x.fw then refuse s .accessDenied else put s e
      | none => put s e) s)
where
  /-- Puts the entry where there is a slot for it. -/
  put (s : State) (e : FlowEntry) : State × Option Reply := match flowPut s.madr.n s.madr.flows e with
    | some m => accept { s with madr := { s.madr with flows := m } }
    | none => refuse s .outOfResources

/-- FLOW_DEL (R351, R352). -/
def execFlowDel (pair : MboxId) (blk : CmdBlock) (s : State) : Host.Outcome State Fault Refusal :=
  next (flowCommand 0x062 384 [(383, 322)] pair blk (fun b _ s =>
    if s.madr.n = 0 then refuse s (.cls 0x59)
    else match flowFind s.madr.n s.madr.flows (BitVec.ofNat 384 (bn b 383 0)) with
      | none => refuse s (.cls 0x59)
      | some (i, x) => if x.fw then refuse s .accessDenied else accept { s with madr := { s.madr with flows := mdel s.madr.flows i } }) s)

/-! Rule commands (R347). -/

/-- The selected rule. -/
def ruleSel (s : State) : Nat := s.reg MADR_RULE_SEL % 65536

def State.setRule (s : State) (i : Nat) (r : Rule) : State := { s with madr := { s.madr with rules := mset s.madr.rules i r } }

/-- A 448-bit field of seven staging words from word `k` on. -/
def stagedWide (s : State) (k : Nat) : BitVec 448 := BitVec.ofNat 448 (((List.range 7).map (fun i => at_ (64 * i) (s.reg (MADR_RULE_DATA (k + i)) % 2 ^ 64))).sum)

/-- A command that finds BUSY is ignored, and ERR reads 2; otherwise it acts, and BUSY reads 1 until it is done. -/
def ruleCommand (f : Rule → State → State) (s : State) : Host.Outcome State Fault Refusal :=
  if s.madr.busy then next { s with madr := { s.madr with err := 2 } }
  else next (f (mgetD s.madr.rules (ruleSel s) {}) { s with madr := { s.madr with busy := true, err := 0 } })

/-- Command 1: the staged rule is written where the selected one is not valid. -/
def execRuleWrite (s : State) : Host.Outcome State Fault Refusal :=
  ruleCommand (fun r s =>
    if r.valid then { s with madr := { s.madr with busy := false, err := 1 } }
    else
      let i := ruleSel s
      (s.setRule i { value := stagedWide s 0, mask := stagedWide s 7, range := BitVec.ofNat 64 (s.reg (MADR_RULE_DATA 14)), action := BitVec.ofNat 64 (s.reg (MADR_RULE_DATA 15)), valid := true }).setReg (MADR_RULE_HITS i) 0) s

/-- Command 2. -/
def execRuleInvalidate (s : State) : Host.Outcome State Fault Refusal :=
  ruleCommand (fun r s => if r.valid then s.setRule (ruleSel s) { r with valid := false } else s) s

/-- Command 3. -/
def execRuleRead (s : State) : Host.Outcome State Fault Refusal :=
  ruleCommand (fun r s =>
    let wide (x : BitVec 448) (k : Nat) (s : State) : State := (List.range 7).foldl (fun s i => s.setReg (MADR_RULE_DATA (k + i)) (bn x (64 * i + 63) (64 * i))) s
    let s1 := ((wide r.mask 7 (wide r.value 0 s)).setReg (MADR_RULE_DATA 14) r.range.toNat).setReg (MADR_RULE_DATA 15) r.action.toNat
    { s1 with madr := { s1.madr with statValid := r.valid } }) s

/-- Both slices hold the result. -/
def execRuleCmdDone (s : State) : Host.Outcome State Fault Refusal := next { s with madr := { s.madr with busy := false } }

end Sys2Proof.Machine
end

