-- ==== Sys2Proof/Machine/VatCmds.lean ====
section
/-! DEFINITION. Commands of Vat: rings, counter sets and trigger lists created (R111 to R113, R129, R130), descriptors fetched
and started (R118, R121, R122, R127), the counter descriptors (R128), interrupts and fired entries (R131, R132). -/

namespace Sys2Proof.Machine

open Sys2Proof

/-- Fields that both ring kinds share (R111, R112): BASE aligned, SIZE_LOG2 4 to 16, DB_PAGE within BAR2. -/
def ringFieldsOk (p : BitVec 256) (fn : Nat) : Bool :=
  zeroBits p 11 0 && decide (4 ≤ bn p 68 64) && decide (bn p 68 64 ≤ 16) && zeroBits p 71 69 && zeroBits p 95 88 &&
    decide (bn p 87 72 < fnDbPages fn)

/-- CH_CREATE of a work ring (R111). -/
def execChCreateWorkRing (pair : MboxId) (blk : CmdBlock) (s : State) : Host.Outcome State Fault Refusal :=
  next (chCommand 0x010 [1] pair blk (fun s c b =>
    let p := params b
    let tl : W64 := BitVec.ofNat 64 (bn p 223 160)
    if !createWord b 1 || !ringFieldsOk p c.fn || !zeroBits p 255 224 then refuse s .invalidField
    else match checkHandle s c.req (BitVec.ofNat 64 (bn p 159 96)) [2] with
      | .inr st => refuse s st
      | .inl cq =>
        match (if tl = 0#64 then .inl 0 else checkHandle s c.req tl [0xB]) with
        | .inr st => refuse s st
        | .inl _ => createIn s c 1 (fun _ => true) 1 (fun s i =>
            .inr (s.setWork i { base := bn p 63 0, sizeLog2 := bn p 68 64, dbPage := bn p 87 72, cq := cq, tlist := tl },
              { status := .success }))) s)

/-- Fields of R112 that CH_MODIFY may change, checked: VECTOR within the function's table, MOD_COUNT at most 256. -/
def compFieldsOk (p : BitVec 256) (fn : Nat) : Bool :=
  ringFieldsOk p fn && decide (bn p 106 96 < fnVectors fn) && zeroBits p 111 107 && decide (bn p 120 112 ≤ 256) &&
    zeroBits p 127 121 && zeroBits p 255 144

/-- CH_CREATE of a completion ring: its shadow is taken (R96), its entries are zeroed in host memory (R113). -/
def execChCreateCompletionRing (pair : MboxId) (blk : CmdBlock) (s : State) : Host.Outcome State Fault Refusal :=
  next (chCommand 0x010 [2] pair blk (fun s c b =>
    let p := params b
    if !createWord b 2 || !compFieldsOk p c.fn then refuse s .invalidField
    else if !s.master c.fn then refuse s .busMasterDisabled
    else createIn s c 2 (fun _ => true) 1 (fun s i =>
      let size := 32 * 2 ^ bn p 68 64
      match takeShadow s size with
      | none => .inl .outOfResources
      | some s1 =>
        let s2 := s1.setComp i { base := bn p 63 0, sizeLog2 := bn p 68 64, dbPage := bn p 87 72, vector := bn p 106 96, modCount := bn p 120 112, modTime := bn p 143 128 }
        .inr (s2.hostWrite c.fn (bn p 63 0) (List.replicate size 0#8), { status := .success }))) s)

/-- CH_MODIFY of a completion ring: VECTOR, MOD_COUNT and MOD_TIME (R112). -/
def execChModifyCompletionRing (pair : MboxId) (blk : CmdBlock) (s : State) : Host.Outcome State Fault Refusal :=
  next (chCommand 0x012 [2] pair blk (fun s c b =>
    match bodyHandle s c [2] b with
    | .inr st => refuse s st
    | .inl i => match mget s.vat.comp i with
      | none => refuse s .staleHandle
      | some q =>
        let p := params b
        if !bodyReserved b [] 320 || !compFieldsOk p (s.slot 2 i).owner || bn p 63 0 != q.base || bn p 68 64 != q.sizeLog2 ||
            bn p 87 72 != q.dbPage then refuse s .invalidField
        else accept (s.setComp i { q with vector := bn p 106 96, modCount := bn p 120 112, modTime := bn p 143 128 })) s)

/-- CH_MODIFY of a class without modifiable parameters is refused (R108). -/
def execChModifyFixedClass (pair : MboxId) (blk : CmdBlock) (s : State) : Host.Outcome State Fault Refusal :=
  next (chCommand 0x012 [1, 9, 0xA, 0xB] pair blk (fun s c b =>
    match bodyHandle s c [1, 9, 0xA, 0xB] b with
    | .inr st => refuse s st
    | .inl _ => refuse s .invalidField) s)

/-- The lowest free run of `n` counters in a cluster (R129), from offset `o` on. A retired counter block holds no set. -/
def ctrRun (s : State) (c n : Nat) : Option Nat :=
  let runs := s.vat.sets
  if s.retired (clUnit c 48) then none
  else
    let fits (b : Nat) : Bool := decide (1024 * c ≤ b) && decide (b + n ≤ 1024 * c + 1024) &&
      runs.all (fun r => decide (b + n ≤ r.1) || decide (r.1 + r.2 ≤ b))
    ((1024 * c :: runs.map (fun r => r.1 + r.2)).filter fits).foldl (fun (m : Option Nat) b => match m with
      | none => some b
      | some x => some (min x b)) none

/-- Where R129 places a counter set. -/
def placeCtrs (s : State) (c n : Nat) : Option Nat :=
  match ctrRun s c n with
  | some b => some b
  | none => (List.range 64).findSome? (fun c => ctrRun s c n)

/-- CH_CREATE of a counter set (R129). Bit 11 is reserved. -/
def execChCreateCounterSet (pair : MboxId) (blk : CmdBlock) (s : State) : Host.Outcome State Fault Refusal :=
  next (chCommand 0x010 [0xA] pair blk (fun s c b =>
    let p := params b
    let n := bn p 10 0
    if !createWord b 0xA || !zeroBits p 11 11 || !zeroBits p 255 18 || n == 0 || decide (1024 < n) then refuse s .invalidField
    else match placeCtrs s (bn p 17 12) n with
      | none => refuse s .outOfResources
      | some first => createIn s c 0xA (fun i => i == first) n (fun s i =>
          .inr ({ s with vat := { s.vat with
            sets := mset s.vat.sets i n
            ctr := s.vat.ctr.filter (fun e => decide (e.1 < i) || decide (i + n ≤ e.1)) } }, { status := .success }))) s)

/-- CH_CREATE of a trigger list with its storage (R96, R130). -/
def execChCreateTriggerList (pair : MboxId) (blk : CmdBlock) (s : State) : Host.Outcome State Fault Refusal :=
  next (chCommand 0x010 [0xB] pair blk (fun s c b =>
    let p := params b
    let tags := bn p 4 0
    let n := bn p 52 32
    if !createWord b 0xB || !zeroBits p 31 5 || !zeroBits p 255 53 || decide (tags < 4) || decide (20 < tags) || n == 0 ||
        decide (1048576 < n) then refuse s .invalidField
    else if 4194304 < (s.vat.trig.map (fun t => t.2.entries)).sum + n then refuse s .outOfResources
    else createIn s c 0xB (fun _ => true) 1 (fun s i =>
      match takeFwRegion s (.triggers i) (cdiv (64 * n + 8 * 2 ^ tags) pageBytes) with
      | none => .inl .outOfResources
      | some s1 => .inr ({ s1 with vat := { s1.vat with trig := mset s1.vat.trig i { tagsLog2 := tags, entries := n } } },
          { status := .success }))) s)

/-- Vat reserves a slot of a completion ring and fetches the next descriptor of the work ring whose turn it is (R122). -/
def execDescriptorFetch (cq : Nat) (s : State) : Host.Outcome State Fault Refusal :=
  match mget s.vat.comp cq, fetchTurn s cq with
  | some q, some ring => match mget s.vat.work ring with
    | none => next s
    | some w =>
      if q.free = 0 ∨ slotsSpoken s cq = true then next s
      else
        match w.queue.find? (unmade s ring) with
        | some f => match hostRead s (s.slot 1 ring).owner (.desc ring f.seq) [(w.base + 64 * f.slot, 64)] with
          | none => next s
          | some s1 => next (s1.setComp cq { q with reserved := q.reserved + 1, lastFetch := ring })
        | none =>
          let slot := w.fetch % 2 ^ w.sizeLog2
          match hostRead s (s.slot 1 ring).owner (.desc ring w.nextSeq) [(w.base + 64 * slot, 64)] with
          | none => next s
          | some s1 =>
            let s2 := s1.setWork ring { w with fetch := w.fetch + 1, nextSeq := w.nextSeq + 1, queue := w.queue ++ [{ slot := slot, seq := w.nextSeq }] }
            next (s2.setComp cq { q with reserved := q.reserved + 1, lastFetch := ring })
  | _, _ => next s

/-- A failed descriptor read (R118): one completion, the ring halts, and the descriptors behind it are dropped. -/
def execDescriptorReadError (ring : Nat) (s : State) : Host.Outcome State Fault Refusal :=
  match mget s.vat.work ring with
  | none => next s
  | some w =>
    let before := w.queue.takeWhile (fun f => !f.failed)
    match w.queue.dropWhile (fun f => !f.failed) with
    | [] => next s
    | f :: after =>
      let s1 := s.setWork ring { w with queue := before, halted := true }
      let s2 := (after.filter (fun g => !unmade s ring g)).foldl (fun s g => orphan (unreserve s w.cq) (fun w => decide (w = .desc ring g.seq))) s1
      next (writeEntry s2 w.cq (mkEntry false .hostDmaError 0 0 0 f.slot ring (s.slot 1 ring).gen 0) false)

/-- The descriptor at the head of a ring is checked, then started, made to wait or parked (R120, R121). -/
def execDescriptorStart (ring : Nat) (s : State) : Host.Outcome State Fault Refusal := next (startHead s ring)

/-- The counter of a waiting descriptor meets its threshold, and the descriptor starts (R127). -/
def execCountWaitSatisfied (ring : Nat) (s : State) : Host.Outcome State Fault Refusal :=
  match mget s.vat.work ring with
  | some w => match w.queue with
    | f :: _ => next (if f.waiting then startHead s ring else s)
    | [] => next s
  | none => next s

/-- NOP (R120). -/
def execNop (job : Nat) (s : State) : Host.Outcome State Fault Refusal :=
  match jobOf s job 0x00 .started with
  | none => next s
  | some _ => next (finish s job .success)

/-- The counter and the VALUE of a counter descriptor (R128). -/
def dCtr (d : Desc) : Nat := bn d 207 192
def dValue (d : Desc) : W64 := BitVec.ofNat 64 (bn d 319 256)

/-- A counter descriptor acts on its counter: RESULT is the value before. When the counter's set has been destroyed since the descriptor was
checked, it is refused (R109, R120, R128). -/
def counterJob (s : State) (op job : Nat) (f : W64 → W64 → W64) : State :=
  match jobOf s job op .started with
  | none => s
  | some j =>
    let c := dCtr j.desc
    if j.bodySet.isSome && ctrSetGen s j.fn c == j.bodySet then completeJob (s.putCtr c (f (s.ctr c) (dValue j.desc))) job .success 0 (s.ctr c).toNat
    else finish s job .accessDenied

/-- CTR_ADD (R128). -/
def execCtrAdd (job : Nat) (s : State) : Host.Outcome State Fault Refusal := next (counterJob s 0x01 job (fun old v => old + v))

/-- CTR_SET (R128). -/
def execCtrSet (job : Nat) (s : State) : Host.Outcome State Fault Refusal := next (counterJob s 0x02 job (fun _ v => v))

/-- MOD_TIME passes after the first unsignalled completion of an armed ring (R132). -/
def execModTimeExpiry (cq : Nat) (s : State) : Host.Outcome State Fault Refusal :=
  match mget s.vat.comp cq with
  | none => next s
  | some q => next (if q.armed && decide (1 ≤ q.p) && decide (q.modTime ≠ 0) && decide (q.modCount ≠ 0) then interrupt s cq else s)

/-- The oldest fired entry that waits for a slot of a completion ring gets one and runs (R131 step 7). The channel it names must still be
there: its use of the handle is checked like every other (R107; log 143). -/
def execTriggerEntryRun (cq : Nat) (s : State) : Host.Outcome State Fault Refusal :=
  match mget s.vat.comp cq, s.vat.fired.find? (fun e => cqOf s e.ring == cq) with
  | some q, some e =>
    if q.free = 0 then next s
    else match e.item.desc with
      | none => next s
      | some d =>
        let s1 := reserve { s with vat := { s.vat with fired := s.vat.fired.erase e } } cq
        next (match targetCheck s (s.slot 1 e.ring).owner d with
          | some st => report s1 e.ring e.ringGen e.item.slot e.item.posted d st 0 0
          | none => startJob s1 e.ring e.ringGen e.item d)
  | _, _ => next s

end Sys2Proof.Machine
end

