-- ==== Sys2Proof/Machine/SafBase.lean ====
section
/-! DEFINITION. Saffron: commands and their completion entries (R402, R404, R408), asynchronous events (R406), the write buffer
(R409 to R412), and the end of a backing command. -/

namespace Sys2Proof.Machine

open Sys2Proof

def State.setSq (s : State) (q : Nat) (x : SQueue) : State := { s with saf := { s.saf with queues := mset s.saf.queues q x } }
def State.setNs (s : State) (n : Nat) (x : Ns) : State := { s with saf := { s.saf with nss := mset s.saf.nss n x } }
def State.setPages (s : State) (m : Map BufPage) : State := { s with saf := { s.saf with pages := m } }
def State.ns (s : State) (n : Nat) : Option Ns := mget s.saf.nss n

/-- A command of a storage queue by its fetch order, and one whose entry has been read by its CID. -/
def nvAt (s : State) (q seq : Nat) : Option NvCmd := (mget s.saf.queues q).bind (fun w => w.cmds.find? (fun c => c.seq == seq))
def nvOf (s : State) (q cid : Nat) : Option NvCmd :=
  (mget s.saf.queues q).bind (fun w => w.cmds.find? (fun c => c.cid == cid && decide (c.phase ≠ .reading)))

/-- Changes every command of every storage queue. -/
def mapNv (s : State) (f : Nat → NvCmd → NvCmd) : State :=
  { s with saf := { s.saf with queues := mmap s.saf.queues (fun q w => { w with cmds := w.cmds.map (f q) }) } }

/-- Changes one command. -/
def setNv (s : State) (q seq : Nat) (f : NvCmd → NvCmd) : State :=
  { s with saf := { s.saf with queues := mmod s.saf.queues q (fun w => { w with cmds := w.cmds.map (fun c => if c.seq = seq then f c else c) }) } }

/-- Every command of the device with its queue. -/
def allNv (s : State) : List (Nat × NvCmd) := (s.saf.queues.map (fun p => p.2.cmds.map (fun c => (p.1, c)))).flatten

/-- Fields of a submission entry (R402). -/
def eOp (c : NvCmd) : Nat := bn c.sqe 7 0
def eNsid (c : NvCmd) : Nat := bn c.sqe 63 32
def ePrp1 (c : NvCmd) : Nat := bn c.sqe 255 192
def ePrp2 (c : NvCmd) : Nat := bn c.sqe 319 256
def eDw (c : NvCmd) (n : Nat) : Nat := bn c.sqe (32 * n + 31) (32 * n)

/-- The status field of a completion entry: SCT, SC, DNR (R408). -/
def nvStatus (sct sc : Nat) (dnr : Bool) : Nat := sc + 256 * sct + 0x4000 * b2n dnr

def stOpcode : Nat := nvStatus 0 0x01 true
def stField : Nat := nvStatus 0 0x02 true
def stTransfer : Nat := nvStatus 0 0x04 false
def stAborted : Nat := nvStatus 0 0x07 false
def stNamespace : Nat := nvStatus 0 0x0B true
def stTransport : Nat := nvStatus 0 0x22 false
def stRange : Nat := nvStatus 0 0x80 true
def stNotReady : Nat := nvStatus 0 0x82 false
def stWriteFault : Nat := nvStatus 2 0x80 true
def stUnread : Nat := nvStatus 2 0x81 true
/-- Asynchronous Event Request Limit Exceeded (NVMe; log 71). -/
def stAerLimit : Nat := nvStatus 1 0x05 false

/-- The completion side of a storage queue (R404). -/
def cqKey (q : Nat) : Nat := 2 ^ 24 + q

/-- Function that owns a storage queue. -/
def sqFn (s : State) (q : Nat) : Nat := (s.slot 4 q).owner

/-- Writes a 16-byte completion entry with its Phase Tag, or holds it while the function may not write (R391, R404). -/
def writeSqEntry (s : State) (q entry : Nat) : State :=
  match mget s.vat.comp (cqKey q) with
  | none => s
  | some r =>
    let f := sqFn s q
    let n := 2 ^ r.sizeLog2
    let bs := leBytes 16 (entry + at_ 112 (if r.written / n % 2 = 0 then 1 else 0))
    let r1 := { r with
      written := r.written + 1, reserved := r.reserved - 1, p := r.p + 1
      firstAt := if r.p = 0 then some s.now else r.firstAt }
    if s.master f && r.held.isEmpty then decide132 ((s.setComp (cqKey q) r1).hostWrite f (r.base + 16 * (r.written % n)) bs) (cqKey q) false
    else decide132 (s.setComp (cqKey q) { r1 with held := r.held ++ [⟨r.written, bs, false⟩] }) (cqKey q) false

/-- Ends a transfer that a command no longer needs (R557). -/
def endXfer (s : State) (w : Work) : State := orphan s (fun x => decide (x = w))

/-- Adds an error log entry for a failed command (R407, log page 0x01). -/
def errEntry (s : State) (q : Nat) (c : NvCmd) (st : Nat) : State :=
  let f := sqFn s q
  let n := mgetD s.saf.errCount f 0 + 1
  let qid := ((mget s.saf.queues q).map (·.qid)).getD 0
  let e := BitVec.ofNat 512 (n + at_ 64 qid + at_ 80 c.cid + at_ 97 st + at_ 112 0xFFFF + at_ 128 (bn c.sqe 383 320) + at_ 192 (eNsid c))
  { s with saf := { s.saf with errCount := mset s.saf.errCount f n, errLog := mset s.saf.errLog f ((e :: mgetD s.saf.errLog f []).take 64) } }

/-- Removes a command without an entry; its host reads are discarded, its unsent backing commands dropped. -/
def dropNv (s : State) (q : Nat) (c : NvCmd) : State :=
  let s1 := endXfer (endXfer s (.nvme q c.seq)) (.sqe q c.seq)
  { s1 with saf := { s1.saf with
      queues := mmod s1.saf.queues q (fun w => { w with cmds := w.cmds.filter (fun x => x.seq != c.seq) })
      backs := s1.saf.backs.filter (fun b => b.2.issued || !c.backs.contains b.1) } }

/-- Completes a command with its entry (R404, R408). -/
def nvEnd (s : State) (q : Nat) (c : NvCmd) (st dw0 : Nat) : State :=
  let qid := ((mget s.saf.queues q).map (·.qid)).getD 0
  let s1 := (dropNv s q c).count SAFF_CMDS
  let s2 := if st = 0 then s1 else errEntry s1 q c st
  writeSqEntry s2 q (dw0 % 2 ^ 32 + at_ 64 (c.sqhd % 65536) + at_ 80 qid + at_ 96 c.cid + at_ 113 st)

/-! Asynchronous events (R406, R407). -/

/-- Outstanding Asynchronous Event Requests of a function, oldest first. -/
def aersOf (s : State) (f : Nat) : List (Nat × NvCmd) :=
  (allNv s).filter (fun p => decide (eOp p.2 = 0x0C) && decide (p.2.phase = .running) && sqFn s p.1 == f &&
    ((mget s.saf.queues p.1).map (·.qid)).getD 1 == 0)

/-- Reports a Namespace Attribute Changed event when a request is outstanding. -/
def reportEvent (s : State) (f : Nat) : State :=
  if mgetD s.saf.events f 0 ≠ 1 then s
  else match aersOf s f with
    | [] => s
    | (q, c) :: _ => nvEnd { s with saf := { s.saf with events := mset s.saf.events f 2 } } q c 0 0x040002

/-- A controller's namespace attributes have changed (R406): the namespace is listed in log page 0x04, and an event raised unless
one is reported and its log page not read, or the host has disabled it. -/
def nsChanged (s : State) (f n : Nat) : State :=
  let l := mgetD s.saf.changed f []
  let s1 : State := { s with saf := { s.saf with changed := mset s.saf.changed f (if l.contains n then l else l ++ [n]) } }
  if mgetD s1.saf.events f 0 = 0 ∧ (mgetD s1.saf.aec f 0x100).testBit 8 = true then
    reportEvent { s1 with saf := { s1.saf with events := mset s1.saf.events f 1 } } f
  else s1

/-! The write buffer (R409 to R412). -/

/-- The storage write-buffer carve-out (R94) and its pages (R409). -/
def bufBase : Nat := 0x02FEC0000000
def bufPages : Nat := 262144

def pageKey (n p : Nat) : Nat := n * 2 ^ 52 + p
def keyNs (k : Nat) : Nat := k / 2 ^ 52
def keyPage (k : Nat) : Nat := k % 2 ^ 52

/-- The pages a namespace holds. -/
def pagesOf (s : State) (n : Nat) : Map BufPage := s.saf.pages.filter (fun p => keyNs p.1 == n)

/-- The lowest free place of the buffer. -/
def freeBufSlot (s : State) : Nat :=
  ((List.range (s.saf.pages.length + 1)).find? (fun i => !s.saf.pages.any (fun p => p.2.slot == i))).getD 0

/-- The vault is armed (R414). -/
def safArmed (s : State) : Bool := s.saf.vstate == 1

/-- Bytes of a logical block (R405). -/
def Ns.bs (x : Ns) : Nat := if x.lbaf then 4096 else 512

/-- Valid bits of the sectors of a page from byte `lo` on, `n` bytes. -/
def sectorMask (lo n : Nat) : BitVec 8 := BitVec.ofNat 8 ((2 ^ (n / 512) - 1) * 2 ^ (lo / 512))

/-- Puts bytes into one page under a version (R409). -/
def putPage (s : State) (k lo : Nat) (bs : List Byte) (ver : Nat) : State :=
  let p := (mget s.saf.pages k).getD { slot := freeBufSlot s, mask := 0#8, ver := 0 }
  let (s1, _) := lakeWrite s (bufBase + 4096 * p.slot + lo) bs
  s1.setPages (mset s1.saf.pages k { p with mask := p.mask ||| sectorMask lo bs.length, ver := ver })

/-- The pages a byte range touches: page, first byte in it, bytes. -/
def pagePieces (off len : Nat) : List (Nat × Nat × Nat) :=
  if len = 0 then [] else
    (List.range ((off + len - 1) / 4096 - off / 4096 + 1)).map (fun i =>
      let p := off / 4096 + i
      let a := max off (4096 * p)
      (p, a - 4096 * p, min (off + len) (4096 * p + 4096) - a))

/-- Pages that a byte range adds to the buffer. -/
def newPages (s : State) (n off len : Nat) : Nat := ((pagePieces off len).filter (fun p => (mget s.saf.pages (pageKey n p.1)).isNone)).length

/-- Room for a unit below BUFMAX (R409). -/
def nsFits (s : State) (n : Nat) (x : Ns) (off len : Nat) : Bool := decide ((pagesOf s n).length + newPages s n off len ≤ 256 * x.bufmax)

/-- Room for a unit: BUFMAX and the buffer as a whole (R409). -/
def unitFits (s : State) (n : Nat) (x : Ns) (off len : Nat) : Bool :=
  nsFits s n x off len && decide (s.saf.pages.length + newPages s n off len ≤ bufPages)

/-- An access to a page of the buffer waits: its region is in reset (R23, R422). -/
def bufWaits (s : State) (slot : Nat) : Bool := accessWaits s (bufBase + 4096 * slot) 4096

/-- So does one to the pages that the buffer holds of a byte range. -/
def rangeWaits (s : State) (n off len : Nat) : Bool :=
  (pagePieces off len).any (fun p => ((mget s.saf.pages (pageKey n p.1)).map (fun g => bufWaits s g.slot)).getD false)

/-- A unit waits: for a page it changes, or for one of the places that its new pages take. -/
def unitWaits (s : State) (n off len : Nat) : Bool :=
  let m := newPages s n off len
  rangeWaits s n off len ||
    ((((List.range (s.saf.pages.length + m)).filter (fun i => !s.saf.pages.any (fun p => p.2.slot == i))).take m).any (bufWaits s))

/-- Atomic units of a byte range (R412). -/
def unitBytes : Nat := 0x40000
def unitCount (off len : Nat) : Nat := if len = 0 then 0 else (off + len - 1) / unitBytes - off / unitBytes + 1

/-- Unit `k` of a list of ranges: its offset, its length, and where its data start. -/
def unitAt : List (Nat × Nat) → Nat → Nat → Option (Nat × Nat × Nat)
  | [], _, _ => none
  | (o, l) :: r, k, d =>
    if k < unitCount o l then
      let a := max o ((o / unitBytes + k) * unitBytes)
      some (a, min (o + l) ((o / unitBytes + k + 1) * unitBytes) - a, d + (a - o))
    else unitAt r (k - unitCount o l) (d + l)

/-- Range `i` of a Dataset Management command: offset and length in bytes. -/
def dsmRange (x : Ns) (data : List Byte) (i : Nat) : Nat × Nat := (leAt data (16 * i + 8) 8 * x.bs, leAt data (16 * i + 4) 4 * x.bs)

/-- The byte ranges that a command writes (R407). -/
def nvSpans (x : Ns) (c : NvCmd) : List (Nat × Nat) :=
  if eOp c = 0x09 then (List.range (eDw c 10 % 256 + 1)).map (dsmRange x c.data)
  else [(bn c.sqe 383 320 * x.bs, (eDw c 12 % 65536 + 1) * x.bs)]

def totalUnits (spans : List (Nat × Nat)) : Nat := (spans.map (fun p => unitCount p.1 p.2)).sum

/-- A write, Write Zeroes or deallocate. -/
def isWrite (c : NvCmd) : Bool := [0x01, 0x08, 0x09].contains (eOp c)

/-- The command is of an I/O queue. -/
def isIo (s : State) (q : Nat) : Bool := ((mget s.saf.queues q).map (·.qid)).getD 0 != 0

/-- A command that started earlier still has units to put into the buffer where a unit lies (R411). -/
def unitBlocked (s : State) (n : Nat) (x : Ns) (c : NvCmd) (off len : Nat) : Bool :=
  (allNv s).any (fun p => isIo s p.1 && isWrite p.2 && decide (0 < p.2.start) && decide (p.2.start < c.start) && eNsid p.2 == n &&
    (let sp := nvSpans x p.2
     decide (p.2.units < totalUnits sp) && sp.any (fun r => decide (r.1 < off + len) && decide (off < r.1 + r.2))))

/-- Puts a unit into the buffer under a new version. Flushes fetched later from the same queue wait for its pages too (R417). -/
def admitUnit (s : State) (q : Nat) (c : NvCmd) (n off : Nat) (bs : List Byte) : State :=
  let ver := s.saf.nextVer
  let ps := pagePieces off bs.length
  let s1 := ps.foldl (fun s p => putPage s (pageKey n p.1) p.2.1 ((bs.drop (4096 * p.1 + p.2.1 - off)).take p.2.2) ver) s
  let ws := ps.map (fun p => (pageKey n p.1, ver))
  mapNv { s1 with saf := { s1.saf with nextVer := ver + 1 } } (fun r d =>
    if r = q ∧ d.seq = c.seq then { d with units := d.units + 1, waits := d.waits ++ ws }
    else if r = q ∧ c.seq < d.seq ∧ eOp d = 0 ∧ d.phase ≠ .reading then { d with waits := d.waits ++ ws } else d)

/-- Bytes of a transfer: at hand, failed, or still to come (R557). -/
def xferSpan (x : Xfer) (off len : Nat) : ReadRes :=
  let ps := x.parts.filter (fun p => decide (p.off < off + len) && decide (off < p.off + p.len))
  if ps.any (fun p => decide (p.done = some none)) then .fail .hostDmaError
  else if ps.all (fun p => p.done.isSome) then
    .ok (slice ((ps.map (fun p => ((p.done.getD none).getD []))).flatten) (off - ((ps.head?).map (·.off)).getD off) len) []
  else .wait

/-- Pages of the namespace of a write whose data have come, wholly or in part, and whose unit is incomplete (R415, R418). -/
def partPages (s : State) (q : Nat) (c : NvCmd) : Nat :=
  match s.ns (eNsid c), xferOf s (.nvme q c.seq) with
  | some x, some t =>
    if eOp c ≠ 1 ∨ c.phase ≠ .data then 0
    else match unitAt (nvSpans x c) c.units 0 with
      | none => 0
      | some (_, _, d) =>
        let base := ((nvSpans x c).head?.map (·.1)).getD 0
        let ps := t.parts.filter (fun p => (p.done.getD none).isSome && decide (d < p.off + p.len))
        (((ps.map (fun p => (pagePieces (base + max d p.off) (p.off + p.len - max d p.off)).map (·.1))).flatten).eraseDups).length
  | _, _ => 0

/-! Backing commands. -/

/-- A command no longer waits for pages of a version. -/
def releaseWaits (s : State) (k ver : Nat) : State :=
  mapNv s (fun _ c => { c with waits := c.waits.filter (fun w => w.1 != k || decide (ver < w.2)) })

/-- A backing command ends: with its NVMe status, or none when the transport failed (R408). What a destaging brings is kept for
DESTAGE_ACK; a read or a Flush goes on at once. -/
def backEnd (s : State) (key : Nat) (st : Option Nat) : State :=
  match mget s.saf.backs key with
  | none => s
  | some b =>
    let gone (s : State) : State := { s with saf := { s.saf with backs := mdel s.saf.backs key } }
    let s1 := if st = some 0 then s else s.count SAFF_BACK_ERR
    let fail : Nat := match st with
      | none => stTransport
      | some e => e
    match b.why with
    | .destage _ _ => { s1 with saf := { s1.saf with acks := s1.saf.acks ++ [(key, st)] } }
    | .read q seq off =>
      let bs := (List.range b.len).map (fun i => mget b.got i)
      let short := bs.any (·.isNone)
      gone (setNv s1 q seq (fun c => { c with
        backs := c.backs.erase key
        data := if fail = 0 then c.data.take off ++ bs.map (·.getD 0#8) ++ c.data.drop (off + b.len) else c.data
        status := if c.status ≠ 0 then c.status else if fail ≠ 0 then fail else if short then stTransport else 0 }))
    | .flush q seq => gone (setNv s1 q seq (fun c => { c with backs := c.backs.erase key, status := if c.status ≠ 0 then c.status else fail }))
    | _ => gone s1

/-- The numbers of a namespace's sessions. -/
def sessOf (s : State) (n : Nat) : Map Sess := s.saf.sessions.filter (fun p => p.2.ns == n)

/-- At least one session, or CONN, is established (R421). -/
def nsUp (s : State) (n : Nat) : Bool :=
  match s.ns n with
  | none => false
  | some x =>
    if x.carmine then
      let h : W64 := BitVec.ofNat 64 (bn x.addr 63 0)
      let sl := s.slot 3 (hIndex h)
      sl.live && sl.gen == hGen h && decide (((mget s.carm.conns (hIndex h)).map (·.state)) = some .established)
    else (sessOf s n).any (fun p => decide (p.2.st = .up) && p.2.queue != 0)

/-- A namespace that has a session again is ready (R421). -/
def syncReady (s : State) : State :=
  { s with saf := { s.saf with nss := mmap s.saf.nss (fun n x => if nsUp s n then { x with ready := true } else x) } }

/-- What Carmine has ended for Saffron (R420): a refused read reads as an unrecovered error, a refused write as a write fault. -/
def absorbCarmine (s : State) : State :=
  let mine := s.carm.posted.filterMap (fun p => match p.1 with
    | .saf k => some (k, p.2)
    | _ => none)
  let s1 : State := { s with carm := { s.carm with posted := s.carm.posted.filter (fun p => match p.1 with
    | .saf _ => false
    | _ => true) } }
  mine.foldl (fun s p =>
    let rd := match (mget s.saf.backs p.1).map (·.why) with
      | some (.read _ _ _) => true
      | _ => false
    backEnd s p.1 (if p.2.ok then some 0 else if p.2 = .remoteTimeout ∨ p.2 = .peerLost then none else some (if rd then stUnread else stWriteFault))) s1

end Sys2Proof.Machine
end

