-- ==== Sys2Proof/Machine/SafTcp.lean ====
section
/-! DEFINITION. Saffron's backing sessions (R420): TCP of RFC 9293, NVMe/TCP PDUs, and the commands sent to a target. The
layouts of TCP and of NVMe/TCP come from those specifications (log 55). -/

namespace Sys2Proof.Machine

open Sys2Proof

def State.sess (s : State) (k : Nat) : Option Sess := mget s.saf.sessions k
def State.setSess (s : State) (k : Nat) (x : Sess) : State := { s with saf := { s.saf with sessions := mset s.saf.sessions k x } }

/-! TCP segments. -/

/-- A TCP segment in IP as an untagged frame (R356; log 55). -/
def tcpFrame (s : State) (port : Nat) (v4 : Bool) (dst dscp : Nat) (sport dport seq ack flags win : Nat) (opts data : List Byte) : List Byte :=
  let hlen := 20 + opts.length
  let seg (ck : Nat) : List Byte := beBytes 2 sport ++ beBytes 2 dport ++ beBytes 4 (seq % 2 ^ 32) ++ beBytes 4 (ack % 2 ^ 32) ++
    beBytes 2 (at_ 12 (hlen / 4) + flags) ++ beBytes 2 win ++ beBytes 2 ck ++ beBytes 2 0 ++ opts ++ data
  let mac := beBytes 6 (Config.nextHop dst % 2 ^ 48) ++ beBytes 6 (s.reg (ETH_MAC port) % 2 ^ 48)
  let len := hlen + data.length
  if v4 then
    let ck := csum16 (beBytes 4 s.carm.ip4.toNat ++ beBytes 4 dst ++ beBytes 2 6 ++ beBytes 2 len ++ seg 0)
    let hd (ck : Nat) : List Byte := beBytes 1 0x45 ++ beBytes 1 (4 * dscp) ++ beBytes 2 (20 + len) ++ beBytes 2 0 ++ beBytes 2 0x4000 ++
      beBytes 1 64 ++ beBytes 1 6 ++ beBytes 2 ck ++ beBytes 4 s.carm.ip4.toNat ++ beBytes 4 dst
    mac ++ beBytes 2 0x0800 ++ hd (csum16 (hd 0)) ++ seg ck
  else
    let addrs := beBytes 16 s.carm.ip6.toNat ++ beBytes 16 dst
    let ck := csum16 (addrs ++ beBytes 4 len ++ beBytes 4 6 ++ seg 0)
    mac ++ beBytes 2 0x86DD ++ beBytes 4 (at_ 28 6 + at_ 20 (4 * dscp)) ++ beBytes 2 len ++ beBytes 1 6 ++ beBytes 1 64 ++ addrs ++ seg ck

/-- Target address of a namespace. -/
def Ns.target (x : Ns) : Nat := if x.ipv4 then bn x.addr 31 0 else x.addr.toNat

/-- Sends a segment of a session (R356); with its port out of service nothing leaves. -/
def sendSeg (s : State) (k : Nat) (x : Sess) (seq flags : Nat) (opts data : List Byte) : State :=
  match s.ns x.ns with
  | none => s
  | some n =>
    if !ethOpen s x.port then s
    else
      let dscp := s.reg CARM_DSCP / 2 ^ (6 * n.tc) % 64
      handToWeld s x.port k { bytes := tcpFrame s x.port n.ipv4 n.target dscp x.lport n.tport seq x.rcv flags 65535 opts data, cls := n.tc }

/-- Largest segment this end takes and sends (log 55). -/
def ownMss (v4 : Bool) : Nat := if v4 then 1460 else 1440

/-- SACK blocks for bytes beyond a gap (R420). -/
def sackOpt (x : Sess) : List Byte :=
  let bl := x.ooo.take 3
  if bl.isEmpty then [] else
    beBytes 2 0x0101 ++ beBytes 1 5 ++ beBytes 1 (2 + 8 * bl.length) ++
      (bl.map (fun p => beBytes 4 (p.1 % 2 ^ 32) ++ beBytes 4 ((p.1 + p.2.length) % 2 ^ 32))).flatten

def sendAckSeg (s : State) (k : Nat) : State :=
  match s.sess k with
  | none => s
  | some x => sendSeg s k x (x.una + x.sent) 0x10 (sackOpt x) []

/-- Sends what the window lets, `n` segments at most. -/
def pushOut (k : Nat) : Nat → State → State
  | 0, s => s
  | n + 1, s =>
    match s.sess k with
    | none => s
    | some x =>
      let len := min x.mss (min (x.buf.length - x.sent) (x.wnd - x.sent))
      if len = 0 then s
      else pushOut k n ((sendSeg s k x (x.una + x.sent) 0x18 (sackOpt x) ((x.buf.drop x.sent).take len)).setSess k { x with sent := x.sent + len })

def pushAll (s : State) (k : Nat) : State := pushOut k (((s.sess k).map (fun x => x.buf.length)).getD 0 + 1) s

/-- Appends bytes to a session's stream. -/
def sendBytes (s : State) (k : Nat) (bs : List Byte) : State :=
  match s.sess k with
  | none => s
  | some x => pushAll (({ s with out := .tcp k bs :: s.out } : State).setSess k { x with buf := x.buf ++ bs }) k

/-- The flow entry of a session: frames from its target to its port (R349, R351). -/
def sessFlow (s : State) (x : Sess) (n : Ns) : BitVec 384 :=
  let own := if n.ipv4 then s.carm.ip4.toNat else s.carm.ip6.toNat
  BitVec.ofNat 384 (n.target + at_ 128 own + at_ 256 n.tport + at_ 272 x.lport + at_ 288 6 + at_ 320 (b2n (!n.ipv4)))

def putSessFlow (s : State) (k : Nat) (x : Sess) (n : Ns) : State :=
  if s.madr.n = 0 then s
  else match flowPut s.madr.n s.madr.flows { key := sessFlow s x n, action := BitVec.ofNat 64 (3 + at_ 8 k), fw := true } with
    | some m => { s with madr := { s.madr with flows := m } }
    | none => s

def dropSessFlow (s : State) (x : Sess) (n : Ns) : State :=
  match flowFind s.madr.n s.madr.flows (sessFlow s x n) with
  | some (i, e) => if e.fw then { s with madr := { s.madr with flows := mdel s.madr.flows i } } else s
  | none => s

/-- Opens a session: firmware's flow entry, then SYN (R351, R420). Its egress port, its own TCP port and its first sequence
number are open choices (log 3). It stays closed while the device has no address or no port in service. -/
def openSess (s : State) (k : Nat) : State :=
  match s.sess k with
  | none => s
  | some x => match s.ns x.ns with
    | none => s
    | some n =>
      if x.st ≠ .closed ∨ ethPorts s = [] ∨ (if n.ipv4 then s.carm.ip4 = 0#32 else s.carm.ip6 = 0#128) then s
      else
        let (c, s1) := s.choose (ethPorts s).length
        let (l, s2) := s1.choose 0x4000
        let (e, s3) := s2.entropy
        let isn := e.toNat % 2 ^ 32
        let x1 : Sess := { ns := x.ns, queue := x.queue, st := .synSent, port := (ethPorts s)[c]?.getD 0, lport := 0xC000 + l, una := isn }
        let s4 := putSessFlow s3 k x1 n
        let opts := beBytes 2 0x0204 ++ beBytes 2 (ownMss n.ipv4) ++ beBytes 4 0x01030307 ++ beBytes 4 0x01010402
        sendSeg (s4.setSess k x1) k x1 isn 0x02 opts []

/-- Puts a session down: its commands end without an answer (R408), and it counts as lost when it was open (R423). -/
def downSess (s : State) (k : Nat) : State :=
  match s.sess k with
  | none => s
  | some x =>
    if x.st = .closed then s
    else
      let s1 := match s.ns x.ns with
        | some n => dropSessFlow s x n
        | none => s
      let s0 := s1.setSess k { ns := x.ns, queue := x.queue }
      let s2 := if x.st = .up then s0.count SAFF_BACK_ERR else s0
      (s2.saf.backs.filter (fun b => b.2.issued && b.2.sess == k && !((s2.ns b.2.ns).map (·.carmine)).getD false)).foldl (fun s b => backEnd s b.1 none) s2

/-- A session fails (R420). The loss of the admin session ends the association, and so every session of the namespace. -/
def failSess (s : State) (k : Nat) : State :=
  match s.sess k with
  | none => s
  | some x =>
    let s1 := downSess s k
    if x.queue ≠ 0 then s1 else (sessOf s1 x.ns).foldl (fun s p => downSess s p.1) s1

/-! NVMe/TCP PDUs. -/

/-- A PDU: header with its digest, then padded data with theirs (R420). `hdr` is the header from byte 8 on. -/
def mkPdu (x : Sess) (ty flags : Nat) (hdr data : List Byte) : List Byte :=
  let hd := x.hd && decide (4 ≤ ty)
  let dd := x.dd && decide (4 ≤ ty) && !data.isEmpty
  let hlen := 8 + hdr.length
  let hl := hlen + (if hd then 4 else 0)
  let pdo := if data.isEmpty then 0 else cdiv hl (4 * (x.cpda + 1)) * (4 * (x.cpda + 1))
  let plen := if data.isEmpty then hl else pdo + data.length + (if dd then 4 else 0)
  let h := leBytes 1 ty ++ leBytes 1 (flags + b2n hd + 2 * b2n dd) ++ leBytes 1 hlen ++ leBytes 1 pdo ++ leBytes 4 plen ++ hdr
  let h1 := h ++ (if hd then leBytes 4 (crc32c h) else [])
  if data.isEmpty then h1 else h1 ++ List.replicate (pdo - h1.length) 0#8 ++ data ++ (if dd then leBytes 4 (crc32c data) else [])

/-- A submission entry: opcode and flags, CID, NSID, SGL, and dwords 10 to 15 (NVMe). -/
def mkSqe (op cid nsid : Nat) (inCap : Bool) (len : Nat) (tail : List Byte) : List Byte :=
  let sgl := if len = 0 then List.replicate 16 0#8 else leBytes 8 0 ++ leBytes 4 len ++ leBytes 3 0 ++ leBytes 1 (if inCap then 0x01 else 0x5A)
  leBytes 1 op ++ leBytes 1 0x40 ++ leBytes 2 cid ++ leBytes 4 nsid ++ List.replicate 16 0#8 ++ sgl ++ slice tail 0 24

/-- A Fabrics capsule: its type stands in the NSID's place. -/
def fabricSqe (fctype cid len : Nat) (tail : List Byte) : List Byte := mkSqe 0x7F cid fctype true len tail

/-- Sends a capsule for a new backing command on a session. -/
def sendCapsule (s : State) (k : Nat) (x : Sess) (b : Back) (key : Nat) (sqe : Nat → List Byte) (data : List Byte) : State :=
  let cid := x.nextCid % 65536
  let s1 := (({ s with saf := { s.saf with backs := mset s.saf.backs key { b with issued := true, sess := k, cid := cid } } } : State).setSess k { x with nextCid := x.nextCid + 1 })
  sendBytes s1 k (mkPdu x 4 0 (sqe cid) data)

/-- Makes a backing command number. -/
def newBack (s : State) (b : Back) : Nat × State :=
  (s.saf.nextBack, { s with saf := { s.saf with nextBack := s.saf.nextBack + 1, backs := mset s.saf.backs s.saf.nextBack b } })

/-- Sends a command of the session's own setting up. -/
def sendSetup (s : State) (k : Nat) (why : BackWhy) (sqe : Nat → List Byte) (data : List Byte) (len : Nat := 0) : State :=
  match s.sess k with
  | none => s
  | some x =>
    let b : Back := { ns := x.ns, why := why, len := len }
    let (key, s1) := newBack s b
    sendCapsule s1 k x b key sqe data

/-- Fabrics Connect (R420): SUBNQN, HOSTNQN. HOSTID is the module's serial number (log 55). -/
def sendConnect (s : State) (k : Nat) : State :=
  match s.sess k with
  | none => s
  | some x => match s.ns x.ns with
    | none => s
    | some n =>
      let cntlid := if x.queue = 0 then 0xFFFF else (((sessOf s x.ns).find? (fun p => p.2.queue == 0)).map (·.2.cntlid)).getD 0xFFFF
      let data := slice (Config.factory 0) 0 16 ++ leBytes 2 cntlid ++ List.replicate 238 0#8 ++ slice n.subnqn 0 256 ++ slice n.hostnqn 0 256 ++ List.replicate 256 0#8
      sendSetup s k .connect (fun cid => fabricSqe 1 cid 1024 (leBytes 2 0 ++ leBytes 2 x.queue ++ leBytes 2 (if x.queue = 0 then 31 else 127))) data

/-- Property Set of CC with EN, Property Get of CSTS, and Identify of the controller. -/
def sendEnable (s : State) (k : Nat) : State :=
  sendSetup s k .enable (fun cid => fabricSqe 0 cid 0 (leBytes 4 0 ++ leBytes 4 0x14 ++ leBytes 8 0x00460001)) []
def sendPoll (s : State) (k : Nat) : State :=
  sendSetup s k .poll (fun cid => fabricSqe 4 cid 0 (leBytes 4 0 ++ leBytes 4 0x1C)) []
def sendIdentify (s : State) (k : Nat) : State :=
  sendSetup s k .identify (fun cid => mkSqe 0x06 cid 0 false 4096 (leBytes 4 1)) [] 4096

/-- Bytes of the buffer that a destaging carries. -/
def destageBytes (s : State) (b : Back) : State × List Byte :=
  match mget s.saf.pages (pageKey b.ns (b.off / 4096)) with
  | none => (s, [])
  | some p => let (s1, bs, _) := lakeRead s (bufBase + 4096 * p.slot + b.off % 4096) b.len; (s1, bs)

/-- The page that a destaging reads lies in a region in reset (R422). -/
def destageWaits (s : State) (b : Back) : Bool :=
  match b.why, mget s.saf.pages (pageKey b.ns (b.off / 4096)) with
  | .destage _ _, some p => bufWaits s p.slot
  | _, _ => false

/-- Backing commands out on a session. -/
def outOn (s : State) (k : Nat) : Nat := (s.saf.backs.filter (fun b => b.2.issued && b.2.sess == k && !((s.ns b.2.ns).map (·.carmine)).getD false)).length

/-- The open I/O session of a namespace with the fewest commands out, the lowest-numbered of several (log 74). -/
def pickSess (s : State) (n : Nat) : Option (Nat × Sess) :=
  (((sessOf s n).filter (fun p => decide (p.2.st = .up) && p.2.queue != 0 && decide (outOn s p.1 < 127))).foldl (fun (m : Option (Nat × Nat × Sess)) p =>
    let o := outOn s p.1
    match m with
    | some (b, _, _) => if o < b then some (o, p.1, p.2) else m
    | none => some (o, p.1, p.2)) none).map (·.2)

/-- Sends one backing command over NVMe/TCP (R414, R420). -/
def issueTcp (s : State) (n : Ns) (key : Nat) (b : Back) : State :=
  match pickSess s b.ns with
  | none => s
  | some (k, x) =>
    let lba := leBytes 8 (b.off / n.bs)
    let nlb := b.len / n.bs - 1
    match b.why with
    | .destage _ _ =>
      let inCap := decide (b.len ≤ min x.inCap 8192)
      let fua := if safArmed s then 0 else at_ 30 1
      let (s1, bs) := destageBytes s b
      sendCapsule s1 k x b key (fun cid => mkSqe 0x01 cid n.tnsid inCap b.len (lba ++ leBytes 4 (nlb + fua))) (if inCap then bs else [])
    | .read _ _ _ => sendCapsule s k x b key (fun cid => mkSqe 0x02 cid n.tnsid false b.len (lba ++ leBytes 4 nlb)) []
    | .flush _ _ => sendCapsule s k x b key (fun cid => mkSqe 0x00 cid n.tnsid false 0 []) []
    | _ => s

/-- Sends one backing command over Carmine (R420). -/
def issueCarm (s : State) (n : Ns) (key : Nat) (b : Back) : State :=
  let i := hIndex (BitVec.ofNat 64 (bn n.addr 63 0))
  let rd := match b.why with
    | .read _ _ _ => true
    | _ => false
  let laddr := if rd then 0 else ((mget s.saf.pages (pageKey b.ns (b.off / 4096))).map (fun p => bufBase + 4096 * p.slot + b.off % 4096)).getD 0
  postMsg { s with saf := { s.saf with backs := mset s.saf.backs key { b with issued := true } } } i
    { kind := if rd then .read else .write 1, poster := .saf key, msn := 0, psn := 0, count := 0, laddr := laddr,
      raddr := BitVec.ofNat 64 (bn n.addr 127 64 + b.off), rkey := BitVec.ofNat 32 n.tnsid, len := b.len }

/-- Sends the backing commands that have not been sent, oldest first, where the backing is up. -/
def issueBacks (s : State) : State :=
  (s.saf.backs.filter (fun b => !b.2.issued)).foldl (fun s p =>
    match s.ns p.2.ns with
    | none => s
    | some n => if !nsUp s p.2.ns || destageWaits s p.2 then s else if n.carmine then issueCarm s n p.1 p.2 else issueTcp s n p.1 p.2) s

/-! Segments that arrive. -/

/-- Options of a SYN: the peer's largest segment and its window scale, `n` options at most. -/
def synOpts : Nat → List Byte → Nat × Nat → Nat × Nat
  | 0, _, r => r
  | n + 1, bs, r =>
    match bs with
    | [] => r
    | k :: rest =>
      if k = 0#8 then r
      else if k = 1#8 then synOpts n rest r
      else
        let len := leAt rest 0 1
        let r1 := if k = 2#8 then (beAt rest 1 2, r.2) else if k = 3#8 then (r.1, min 14 (beAt rest 1 1)) else r
        if len < 2 then r else synOpts n (bs.drop len) r1

/-- A segment: SEQ, ACK, flags, window, options, data; none when its checksum fails. -/
structure Seg where
  seq : Nat
  ack : Nat
  flags : Nat
  win : Nat
  opts : List Byte
  data : List Byte

def readSeg (s : State) (bs : List Byte) : Option Seg :=
  let p := parseFrame s bs
  let (_, _, _, e, _) := readTags bs 12
  let ip := e + 2
  let stop := if p.v4 then ip + beAt bs (ip + 2) 2 else ip + 40 + beAt bs (ip + 4) 2
  let len := stop - p.l4
  let seg := slice bs p.l4 len
  let pseudo := if p.v4 then slice bs (ip + 12) 8 ++ beBytes 2 6 ++ beBytes 2 len else slice bs (ip + 8) 32 ++ beBytes 4 len ++ beBytes 4 6
  let doff := 4 * (beAt seg 12 1 / 16)
  if !p.tcp || fold16 (sum16 (pseudo ++ seg)) ≠ 0xFFFF then none
  else some ⟨beAt seg 4 4, beAt seg 8 4, beAt seg 13 1, beAt seg 14 2, (seg.take doff).drop 20, seg.drop doff⟩

/-- Bytes beyond a gap that now follow on, `n` runs at most. -/
def joinOoo : Nat → Sess → Sess
  | 0, x => x
  | n + 1, x =>
    match x.ooo.find? (fun p => decide (p.1 ≤ x.rcv)) with
    | none => x
    | some p => joinOoo n { x with
        ooo := x.ooo.erase p
        rx := x.rx ++ p.2.drop (x.rcv - p.1)
        rcv := max x.rcv (p.1 + p.2.length) }

/-- Acceptance of an acknowledgement. -/
def takeAck (x : Sess) (g : Seg) : Sess :=
  let d := (g.ack + 2 ^ 32 - x.una % 2 ^ 32) % 2 ^ 32
  if d ≤ x.sent then { x with una := x.una + d, buf := x.buf.drop d, sent := x.sent - d, wnd := g.win * 2 ^ x.wscale } else x

/-- Acceptance of data and of the end of the peer's stream. -/
def takeData (x : Sess) (g : Seg) : Sess :=
  let d := (g.seq + 2 ^ 32 - x.rcv % 2 ^ 32) % 2 ^ 32
  let ahead := decide (d < 2 ^ 31)
  let at0 := if ahead then x.rcv + d else x.rcv + d - 2 ^ 32
  let fits := decide (at0 + g.data.length ≤ x.rcv + 65535 * 128)
  let x1 := if g.data.isEmpty || !fits then x else joinOoo (x.ooo.length + 1) { x with ooo := x.ooo ++ [(at0, g.data)] }
  if g.flags % 2 = 1 ∧ at0 + g.data.length = x1.rcv ∧ x1.fin = false then { x1 with fin := true, rcv := x1.rcv + 1 } else x1

/-- A segment comes in for a session (RFC 9293). -/
def tcpIn (s : State) (k : Nat) (bs : List Byte) : State :=
  match s.sess k, readSeg s bs with
  | some x, some g =>
    let bit (i : Nat) : Bool := g.flags.testBit i
    match x.st with
    | .closed => if bit 2 then s else sendSeg s k x g.ack 0x04 [] []
    | .synSent =>
      let good := bit 4 && g.ack == (x.una + 1) % 2 ^ 32
      if bit 2 then (if good then failSess s k else s)
      else if !(bit 1 && good) then s
      else
        let v4 := ((s.ns x.ns).map (·.ipv4)).getD true
        let (mss, sc) := synOpts 40 g.opts (if v4 then 536 else 1220, 0)
        let x1 : Sess := { x with st := .icSent, una := x.una + 1, rcv := 2 ^ 32 + g.seq + 1, mss := max 1 (min mss (ownMss v4)), wscale := sc, wnd := g.win, inCap := 8192 }
        let dgst := match s.ns x.ns with
          | some n => b2n n.hdgst + 2 * b2n n.ddgst
          | none => 0
        sendBytes (s.setSess k x1) k (mkPdu x1 0 0 (leBytes 2 0 ++ leBytes 1 0 ++ leBytes 1 dgst ++ leBytes 4 0 ++ List.replicate 112 0#8) [])
    | _ =>
      let near := decide ((g.seq + 2 ^ 32 - x.rcv % 2 ^ 32) % 2 ^ 32 < 65535 * 128)
      if bit 2 then (if near then failSess s k else s)
      else if bit 1 then sendAckSeg s k
      else
        let x1 := takeData (if bit 4 then takeAck x g else x) g
        let s1 := s.setSess k x1
        let s2 := if g.data.isEmpty && !bit 0 then s1 else sendAckSeg s1 k
        pushAll s2 k
  | _, _ => s

/-- The oldest frame for a session (R345, R420). -/
def nextSeg (s : State) (k : Nat) : State :=
  match s.madr.toSaffron.find? (fun p => p.1 == k) with
  | none => s
  | some p => tcpIn { s with madr := { s.madr with toSaffron := s.madr.toSaffron.erase p } } k p.2.bytes

/-- The complete PDU at the front of a session's stream. -/
def headPdu (x : Sess) : Option (List Byte) :=
  let len := leAt x.rx 4 4
  if x.rx.length < 8 ∨ len < 8 ∨ x.rx.length < len then none else some (x.rx.take len)

/-- A peer that has closed its side, with no PDU left, has ended the session. -/
def checkFin (s : State) (k : Nat) : State :=
  match s.sess k with
  | some x => if x.fin && (headPdu x).isNone then failSess s k else s
  | none => s

end Sys2Proof.Machine
end

