-- ==== Sys2Proof/Machine/SafRun.lean ====
section
/-! DEFINITION. Saffron: how a command of a storage queue runs (R407 to R413, R417), destaging (R409, R410), and the end of a
controller (R406, R418). -/

namespace Sys2Proof.Machine

open Sys2Proof

/-! Data of a command (R402: PRP only). -/

/-- Bytes that a command moves from or to host memory. -/
def nvBytes (s : State) (c : NvCmd) : Nat :=
  let bs := ((s.ns (eNsid c)).map Ns.bs).getD 512
  match eOp c with
  | 0x01 => (eDw c 12 % 65536 + 1) * bs
  | 0x02 => (eDw c 12 % 65536 + 1) * bs
  | 0x09 => 16 * (eDw c 10 % 256 + 1)
  | 0x06 => 4096
  | _ => 0

/-- Bytes of a Get Log Page command: NUMD dwords. -/
def logBytes (c : NvCmd) : Nat := 4 * (eDw c 10 / 65536 + 65536 * (eDw c 11 % 65536) + 1)

def moveBytes (s : State) (q : Nat) (c : NvCmd) : Nat :=
  if isIo s q then (if eOp c = 0x06 then 0 else nvBytes s c) else if eOp c = 0x02 then logBytes c else if eOp c = 0x06 then 4096 else 0

/-- Pieces of data at list entries: whole pages, the last as long as is left. -/
def listPieces : List Nat → Nat → List (Nat × Nat)
  | [], _ => []
  | a :: as, left => if left = 0 then [] else (a, min 4096 left) :: listPieces as (left - 4096)

/-- PRP entries of a command: its pieces, the list that holds the rest, and how many bytes that describes; none for an offset
that NVMe does not allow. -/
def prpStart (c : NvCmd) (len : Nat) : Option (List (Nat × Nat) × Nat × Nat) :=
  let n := min len (4096 - ePrp1 c % 4096)
  if len = 0 then some ([], 0, 0)
  else if ePrp1 c % 4 ≠ 0 then none
  else if n = len then some ([(ePrp1 c, n)], 0, 0)
  else if len - n ≤ 4096 then (if ePrp2 c % 4096 = 0 then some ([(ePrp1 c, n), (ePrp2 c, len - n)], 0, 0) else none)
  else if ePrp2 c % 8 ≠ 0 then none
  else some ([(ePrp1 c, n)], ePrp2 c, len - n)

/-- Entries of a list page from an address on, and how many of them to read: all the data, or a full page whose last entry
leads on. -/
def listCount (addr left : Nat) : Nat := min (cdiv left 4096) ((4096 - addr % 4096) / 8)

/-- Writes data into a command's pieces. -/
def writePieces (s : State) (f : Nat) : List (Nat × Nat) → List Byte → State
  | [], _ => s
  | (a, n) :: ps, bs => writePieces (s.hostWrite f a (bs.take n)) f ps (bs.drop n)

/-- Delivers the data of a command and completes it; with no host access the transfer fails (R408). -/
def nvDeliver (s : State) (q : Nat) (c : NvCmd) (bs : List Byte) : State :=
  if !s.master (sqFn s q) then nvEnd s q c stTransfer 0 else nvEnd (writePieces s (sqFn s q) c.pieces bs) q c 0 0

/-! Checks before a command starts (R407, R408). -/

def attached (s : State) (q : Nat) (n : Nat) : Bool := ((s.ns n).map (fun x => x.fns.contains (sqFn s q) && x.deleting.isNone)).getD false

def ioOps : List Nat := [0x00, 0x01, 0x02, 0x08, 0x09]
def adminOps : List Nat := [0x02, 0x06, 0x08, 0x09, 0x0A, 0x0C]

/-- The status of the first check that fails: opcode, fields, namespace, range (log 75). -/
def nvCheck (s : State) (q : Nat) (c : NvCmd) : Nat :=
  let io := isIo s q
  let op := eOp c
  let fields : Bool := zeroBits c.sqe 9 8 && zeroBits c.sqe 15 14 && decide (moveBytes s q c ≤ 0x200000) &&
    (if io then (if op = 1 then zeroBits c.sqe 407 404 else true)
     else if op = 0x02 then [1, 2, 4].contains (eDw c 10 % 256) && eDw c 12 % 4 == 0
     else if op = 0x06 then decide (eDw c 10 % 256 < 4)
     else if op = 0x09 then [0x07, 0x0B].contains (eDw c 10 % 256) && !bt c.sqe 351
     else if op = 0x0A then [0x07, 0x0B].contains (eDw c 10 % 256) && zeroBits c.sqe 330 328
     else true)
  if !(if io then ioOps else adminOps).contains op then stOpcode
  else if !fields then stField
  else if io then
    (if op = 0 ∧ eNsid c = 0xFFFFFFFF then 0
     else if !attached s q (eNsid c) then stNamespace
     else match s.ns (eNsid c) with
       | none => stNamespace
       | some x => if (op = 1 ∨ op = 2 ∨ op = 8) ∧ x.nsze < bn c.sqe 383 320 + eDw c 12 % 65536 + 1 then stRange else 0)
  else if op = 0x06 ∧ eDw c 10 % 256 ≠ 1 ∧ eDw c 10 % 256 ≠ 2 ∧ attached s q (eNsid c) = false then stNamespace
  else if op = 0x06 ∧ eDw c 10 % 256 = 2 ∧ 0xFFFFFFFE ≤ eNsid c then stNamespace
  else 0

/-! Reads (R410, R411). -/

/-- Length of the run of equal flags at the front of a list. -/
def runLen : List Bool → Nat
  | [] => 0
  | [_] => 1
  | a :: b :: r => if a = b then runLen (b :: r) + 1 else 1

/-- Runs of sectors that the buffer lacks, at most 128 KiB each (log 74), `n` at most: offset and length within the read. -/
def missRuns : Nat → List Bool → Nat → List (Nat × Nat)
  | 0, _, _ => []
  | n + 1, l, off =>
    match l with
    | [] => []
    | h :: _ =>
      let k := min 256 (runLen l)
      if h then missRuns n (l.drop k) (off + 512 * k) else (off, 512 * k) :: missRuns n (l.drop k) (off + 512 * k)

/-- What the buffer holds of a byte range: data with zeros where it lacks a sector, flags by sector, and whether a line it needed
is poisoned (R422). -/
def bufRead (s : State) (n off len : Nat) : State × List Byte × List Bool × Bool :=
  (pagePieces off len).foldl (fun (a : State × List Byte × List Bool × Bool) p =>
    let (s, bs, fl, bad) := a
    (List.range (p.2.2 / 512)).foldl (fun (a : State × List Byte × List Bool × Bool) i =>
      let (s, bs, fl, bad) := a
      let lo := p.2.1 + 512 * i
      match mget s.saf.pages (pageKey n p.1) with
      | none => (s, bs ++ List.replicate 512 0#8, fl ++ [false], bad)
      | some g =>
        if !g.mask.getLsbD (lo / 512) then (s, bs ++ List.replicate 512 0#8, fl ++ [false], bad)
        else
          let (s1, d, ps) := lakeRead s (bufBase + 4096 * g.slot + lo) 512
          (s1, bs ++ d, fl ++ [true], bad || !ps.isEmpty)) (s, bs, fl, bad)) (s, [], [], false)

/-- Range of a read or write in its namespace. -/
def rwRange (x : Ns) (c : NvCmd) : Nat × Nat := (bn c.sqe 383 320 * x.bs, (eDw c 12 % 65536 + 1) * x.bs)

/-- A read runs: what the buffer holds is taken at once, and what it lacks is asked of the backing. -/
def runRead (s : State) (q : Nat) (c : NvCmd) : State :=
  match s.ns (eNsid c) with
  | none => nvEnd s q c stNamespace 0
  | some x =>
    let (off, len) := rwRange x c
    if !c.asked then
      if rangeWaits s (eNsid c) off len then s else
      let (s1, bs, fl, bad) := bufRead s (eNsid c) off len
      if bad then nvEnd s1 q c stUnread 0
      else if fl.all id then nvDeliver (s1.count SAFF_HITS) q c bs
      else if !x.ready then nvEnd s1 q c stNotReady 0
      else
        let (s2, ks) := (missRuns (len / 512 + 1) fl 0).foldl (fun (a : State × List Nat) r =>
          let (k, s) := newBack a.1 { ns := eNsid c, why := .read q c.seq r.1, off := off + r.1, len := r.2 }
          (s, a.2 ++ [k])) (s1, [])
        issueBacks (setNv s2 q c.seq (fun c => { c with asked := true, data := bs, backs := ks }))
    else if !c.backs.isEmpty then s
    else if c.status ≠ 0 then nvEnd s q c c.status 0
    else nvDeliver s q c c.data

/-! Writes (R409 to R412, R414). -/

/-- Bytes of unit data: of a write from what the host has sent, zeros otherwise (R407). -/
def unitData (s : State) (q : Nat) (c : NvCmd) (d len : Nat) : ReadRes :=
  if eOp c ≠ 1 then .ok (List.replicate len 0#8) []
  else match xferOf s (.nvme q c.seq) with
    | some x => xferSpan x d len
    | none => .fail .hostDmaError

/-- Puts the units of a command into the buffer, one after another, `n` at most. -/
def admitUnits (q seq : Nat) : Nat → State → State
  | 0, s => s
  | n + 1, s =>
    match nvAt s q seq with
    | none => s
    | some c => match s.ns (eNsid c) with
      | none => s
      | some x => match unitAt (nvSpans x c) c.units 0 with
        | none => s
        | some (off, len, d) => match unitData s q c d len with
          | .fail _ => if ((xferOf s (.nvme q seq)).map Xfer.resolved).getD true then nvEnd s q c stTransfer 0 else s
          | .wait => s
          | .ok bs _ =>
            if unitBlocked s (eNsid c) x c off len then s
            else if unitWaits s (eNsid c) off len then s
            else if !unitFits s (eNsid c) x off len then (if x.ready || nsFits s (eNsid c) x off len then s else nvEnd s q c stNotReady 0)
            else admitUnits q seq n (admitUnit s q c (eNsid c) off bs)

/-- A write whose units are all in the buffer completes: at once while the vault is armed, else when the backing has them
(R409, R414). -/
def finishWrite (s : State) (q : Nat) (c : NvCmd) : State :=
  match s.ns (eNsid c) with
  | none => nvEnd s q c stNamespace 0
  | some x =>
    if c.units < totalUnits (nvSpans x c) then s
    else if safArmed s || c.waits.isEmpty then nvEnd s q c 0 0
    else if c.status ≠ 0 then nvEnd s q c c.status 0
    else if !x.ready then nvEnd s q c stNotReady 0
    else setNv (endXfer s (.nvme q c.seq)) q c.seq (fun c => { c with phase := .running })

/-! Flush (R417). -/

/-- The namespaces of a Flush. -/
def flushNs (s : State) (q : Nat) (c : NvCmd) : List Nat :=
  if eNsid c = 0xFFFFFFFF then (s.saf.nss.filter (fun p => p.2.fns.contains (sqFn s q))).map (·.1) else [eNsid c]

/-- Dirty pages of namespaces, with their versions. -/
def dirtyOf (s : State) (ns : List Nat) : List (Nat × Nat) := (s.saf.pages.filter (fun p => ns.contains (keyNs p.1))).map (fun p => (p.1, p.2.ver))

/-- A Flush runs. -/
def runFlush (s : State) (q : Nat) (c : NvCmd) : State :=
  let ns := flushNs s q c
  let earlier := (allNv s).any (fun p => p.1 == q && decide (p.2.seq < c.seq) && isWrite p.2 && ns.contains (eNsid p.2))
  if earlier then s
  else if safArmed s then nvEnd s q c 0 0
  else if c.status ≠ 0 then nvEnd s q c c.status 0
  else if ns.any (fun n => !(((s.ns n).map (·.ready)).getD true) && (c.waits.any (fun w => keyNs w.1 == n) || !((s.ns n).map (·.carmine)).getD true)) then nvEnd s q c stNotReady 0
  else if !c.waits.isEmpty then s
  else if !c.asked then
    let (s1, ks) := (ns.filter (fun n => !((s.ns n).map (·.carmine)).getD true)).foldl (fun (a : State × List Nat) n =>
      let (k, s) := newBack a.1 { ns := n, why := .flush q c.seq }
      (s, a.2 ++ [k])) (s, [])
    if ks.isEmpty then nvEnd s1 q c 0 0 else issueBacks (setNv s1 q c.seq (fun c => { c with asked := true, backs := ks }))
  else if c.backs.isEmpty then nvEnd s q c 0 0
  else s

/-! Identify, log pages, features (R407, R413). -/

/-- Puts a value into a table of bytes. -/
def put (bs : List Byte) (off n v : Nat) : List Byte := bs.take off ++ leBytes n v ++ bs.drop (off + n)

/-- Identify Controller (R402, R407, R413). What the manual does not state comes from the factory (log 6). -/
def idController (f : Nat) : List Byte :=
  let b := slice (Config.factory 7) 0 4096
  [(0, 2, 0xD9A1), (2, 2, 0xD9A1), (77, 1, 9), (78, 2, f), (80, 4, 0x00020000), (92, 4, 0x100), (259, 1, 3), (262, 1, 63), (256, 2, 0), (512, 1, 0x66), (513, 1, 0x44),
    (516, 4, 16384), (520, 2, 0x0C), (522, 2, 0), (525, 1, 0), (526, 2, 0), (528, 2, 0), (536, 4, 0)].foldl (fun b (p : Nat × Nat × Nat) => put b p.1 p.2.1 p.2.2) b

/-- Identify Namespace (R405, R406, R407, R413). -/
def idNamespace (x : Ns) : List Byte :=
  let at_units := if x.lbaf then 63 else 511
  [(0, 8, x.nsze), (8, 8, x.nsze), (16, 8, x.nsze), (24, 1, 2), (30, 1, b2n (decide (1 < x.fns.length))), (33, 1, 1), (34, 2, at_units), (36, 2, at_units),
    (40, 2, at_units), (44, 2, at_units), (130, 1, if x.lbaf then 12 else 9)].foldl (fun b (p : Nat × Nat × Nat) => put b p.1 p.2.1 p.2.2) (List.replicate 4096 0#8)

/-- The data of an Identify command. -/
def identifyData (s : State) (q : Nat) (c : NvCmd) : List Byte :=
  let f := sqFn s q
  match eDw c 10 % 256 with
  | 0 => ((s.ns (eNsid c)).map idNamespace).getD []
  | 1 => idController f
  | 2 => slice (((s.saf.nss.filter (fun p => p.2.fns.contains f && decide (eNsid c < p.1))).map (fun p => leBytes 4 p.1)).flatten) 0 4096
  | _ => slice (Config.factory 9) 0 4096

/-- SMART / Health: Critical Warning bit 4 while the vault is disarmed (R414); the rest are measurements (log 3). -/
def smartPage (s : State) : State × List Byte :=
  let n := s.freeCtr
  let bs := ((List.range 64).map (fun i => leBytes 8 (Config.freeWord (n + i)).toNat)).flatten
  ({ s with freeCtr := n + 64 }, put bs 0 1 (if safArmed s then 0 else 0x10))

/-- A log page, and reading it (R406, R407). -/
def logPage (s : State) (q : Nat) (c : NvCmd) : State × List Byte :=
  let f := sqFn s q
  match eDw c 10 % 256 with
  | 1 => (s, slice (((mgetD s.saf.errLog f []).map (fun e => leBytes 64 e.toNat)).flatten) 0 4096)
  | 2 => smartPage s
  | _ =>
    let l := mgetD s.saf.changed f []
    let bs := slice (if 1024 < l.length then leBytes 4 0xFFFFFFFF else (l.map (leBytes 4)).flatten) 0 4096
    let s1 : State := { s with saf := { s.saf with changed := mset s.saf.changed f [], events := mset s.saf.events f 0 } }
    (if bt c.sqe 335 then s else s1, bs)

/-- Number of Queues: the class 0x4 quota less 1, as NVMe counts from 0, in both halves (R407; log 70). -/
def queueFeature (s : State) (f : Nat) : Nat := let n := min 65534 (quotaOf s f 4 - 2); n + at_ 16 n

/-- Runs an admin command (R407). -/
def runAdmin (s : State) (q : Nat) (c : NvCmd) : State :=
  let f := sqFn s q
  let fid := eDw c 10 % 256
  match eOp c with
  | 0x02 =>
    let (s1, page) := logPage s q c
    let off := eDw c 12 + 2 ^ 32 * eDw c 13
    if page.length < off then nvEnd s q c stField 0 else nvDeliver s1 q c (slice (page.drop off) 0 (logBytes c))
  | 0x06 => nvDeliver s q c (identifyData s q c)
  | 0x08 =>
    let sqid := eDw c 10 % 65536
    let cid := eDw c 10 / 65536
    match (allNv s).find? (fun p => sqFn s p.1 == f && ((mget s.saf.queues p.1).map (·.qid)).getD 0 == sqid && p.2.cid == cid && decide (p.2.phase = .fetched)) with
    | some (r, d) => nvEnd (nvEnd s r d stAborted 0) q c 0 0
    | none => nvEnd s q c 0 1
  | 0x09 =>
    if fid = 7 then nvEnd s q c 0 (queueFeature s f)
    else nvEnd { s with saf := { s.saf with aec := mset s.saf.aec f (eDw c 11) } } q c 0 0
  | 0x0A => nvEnd s q c 0 (if fid = 7 then queueFeature s f else mgetD s.saf.aec f 0x100)
  | 0x0C =>
    if 4 < (aersOf s f).length then nvEnd s q c stAerLimit 0 else reportEvent s f
  | _ => nvEnd s q c stOpcode 0

/-! The course of a command. -/

/-- A command whose data, if any, are at hand or need no waiting for. -/
def runNv (s : State) (q : Nat) (c : NvCmd) (entering : Bool) : State :=
  if !isIo s q then runAdmin s q c
  else match eOp c with
    | 0x00 => runFlush s q c
    | 0x02 => runRead s q c
    | _ =>
      let s1 := if entering then admitUnits q c.seq 4096 s else s
      match nvAt s1 q c.seq with
      | some d => finishWrite s1 q d
      | none => s1

/-- The pieces of a command's data are known: data from the host are asked for, data for the host are made. -/
def dataReady (s : State) (q seq : Nat) : State :=
  match nvAt s q seq with
  | none => s
  | some c =>
    let toDevice := isIo s q && (eOp c == 0x01 || eOp c == 0x09)
    if toDevice then
      match hostRead s (sqFn s q) (.nvme q seq) c.pieces with
      | none => nvEnd s q c stTransfer 0
      | some s1 => setNv s1 q seq (fun c => { c with phase := .data })
    else
      let c1 := { c with phase := .running }
      runNv (setNv s q seq (fun _ => c1)) q c1 true

/-- Asks for the next part of a PRP list. -/
def askList (s : State) (q seq : Nat) : State :=
  match nvAt s q seq with
  | none => s
  | some c =>
    if c.listLeft = 0 then dataReady s q seq
    else match hostRead s (sqFn s q) (.nvme q seq) [(c.listAt, 8 * listCount c.listAt c.listLeft)] with
      | none => nvEnd s q c stTransfer 0
      | some s1 => setNv s1 q seq (fun c => { c with phase := .prp })

/-- A part of a PRP list has come. -/
def listCame (s : State) (q : Nat) (c : NvCmd) (bs : List Byte) : State :=
  let n := listCount c.listAt c.listLeft
  let es := (List.range n).map (fun i => leAt bs (8 * i) 8)
  let full := decide (n < cdiv c.listLeft 4096)
  let data := if full then es.take (n - 1) else es
  if data.any (fun a => a % 4096 ≠ 0) then nvEnd s q c stField 0
  else askList (setNv s q c.seq (fun c => { c with
    pieces := c.pieces ++ listPieces data c.listLeft
    listAt := if full then es.getLastD 0 else 0
    listLeft := if full then c.listLeft - 4096 * (n - 1) else 0 })) q c.seq

/-- Earlier commands of the queue that have not started (R411). -/
def earlierWaits (s : State) (q : Nat) (c : NvCmd) : Bool :=
  (allNv s).any (fun p => p.1 == q && decide (p.2.seq < c.seq) && (decide (p.2.phase = .reading) || decide (p.2.phase = .fetched)))

/-- Starts a fetched command (R407, R411). Saffron starts none during a save or an activation; admin commands wait while
Palette core 4 restarts (R415, R419, R422). -/
def startNv (s : State) (q : Nat) (c : NvCmd) : State :=
  if s.saf.stopped || earlierWaits s q c || (!isIo s q && !pcoreRuns s 4) then s
  else
    let st := nvCheck s q c
    if st ≠ 0 then nvEnd s q c st 0
    else match prpStart c (moveBytes s q c) with
      | none => nvEnd s q c stField 0
      | some (ps, at0, left) =>
        let s1 := setNv s q c.seq (fun c => { c with start := s.saf.nextStart, pieces := ps, listAt := at0, listLeft := left })
        askList { s1 with saf := { s1.saf with nextStart := s.saf.nextStart + 1 } } q c.seq

/-- Advances a command as far as it goes now. -/
def advanceNv (s : State) (q seq : Nat) (entering : Bool) : State :=
  match nvAt s q seq with
  | none => s
  | some c => match c.phase with
    | .reading => s
    | .fetched => startNv s q c
    | .prp => match xferOf s (.nvme q seq) with
      | none => s
      | some x =>
        if !x.resolved then s
        else match x.data with
          | none => nvEnd (dropXfer s (.nvme q seq)) q c stTransfer 0
          | some bs => listCame (dropXfer s (.nvme q seq)) q c bs
    | .data =>
      if eOp c = 0x01 then runNv s q c entering
      else match xferOf s (.nvme q seq) with
        | none => s
        | some x =>
          if !x.resolved then s
          else match x.data, s.ns (eNsid c) with
            | some bs, some n =>
              let c1 := { c with phase := .running, data := bs }
              let s1 := setNv (dropXfer s (.nvme q seq)) q seq (fun _ => c1)
              if (nvSpans n c1).any (fun r => decide (n.nsze * n.bs < r.1 + r.2)) then nvEnd s1 q c1 stRange 0
              else if bt c.sqe 354 then runNv s1 q c1 entering
              else nvEnd s1 q c1 0 0
            | _, _ => nvEnd (dropXfer s (.nvme q seq)) q c stTransfer 0
    | .running => if isIo s q then runNv s q c entering else s

/-! Destaging and the backing (R409, R410, R420, R421). -/

/-- A read that waits for the backing lies over a page: its destaging waits, so that the read sees one content (R411). -/
def readHolds (s : State) (k : Nat) : Bool :=
  (allNv s).any (fun p => isIo s p.1 && eOp p.2 == 2 && p.2.asked && eNsid p.2 == keyNs k &&
    ((s.ns (eNsid p.2)).map (fun x => let (o, l) := rwRange x p.2; decide (o / 4096 ≤ keyPage k) && decide (keyPage k ≤ (o + l - 1) / 4096))).getD false)

/-- Starts destaging one page: a backing write for each run of valid sectors (R410). A page with a poisoned line stays (log 68). -/
def destagePage (s : State) (k : Nat) : State :=
  match mget s.saf.pages k with
  | none => s
  | some p =>
    let (s1, _, fl, bad) := bufRead s (keyNs k) (4096 * keyPage k) 4096
    if bad then s1
    else
      let gaps := missRuns 9 (fl.map (!·)) 0
      let s2 := gaps.foldl (fun s r => (newBack s { ns := keyNs k, why := .destage k p.ver, off := 4096 * keyPage k + r.1, len := r.2 }).2) s1
      s2.setPages (mset s2.saf.pages k { p with sent := some (p.ver, gaps.length), bad := false })

/-- Destages every dirty page whose backing is up (R409, R414; log 76). -/
def destageAll (s : State) : State :=
  (s.saf.pages.filter (fun p => p.2.sent.isNone)).foldl (fun s p =>
    if nsUp s (keyNs p.1) && !readHolds s p.1 && !bufWaits s p.2.slot && decide (s.umb.shutting = false) && s.saf.vstate != 2 then destagePage s p.1 else s) s

/-- Saffron goes on: what has ended is taken, commands that wait for it go on, pages are destaged and commands sent. -/
def safSettle (s : State) : State :=
  let s1 := syncReady (absorbCarmine s)
  let s2 := (allNv s1).foldl (fun s p => if p.2.phase = .running ∨ (p.2.phase = .data ∧ eOp p.2 = 1) then advanceNv s p.1 p.2.seq false else s) s1
  issueBacks (destageAll s2)

/-- A namespace is gone: its sessions close, its commands end, its pages are dropped (R406). -/
def deleteNs (s : State) (n : Nat) : State :=
  let s1 := (sessOf s n).foldl (fun s p => (match s.ns n with
    | some x => dropSessFlow (sendSeg s p.1 p.2 (p.2.una + p.2.sent) 0x14 [] []) p.2 x
    | none => s)) s
  { s1 with saf := { s1.saf with
      nss := mdel s1.saf.nss n
      sessions := s1.saf.sessions.filter (fun p => p.2.ns != n)
      backs := s1.saf.backs.filter (fun p => p.2.ns != n)
      pages := s1.saf.pages.filter (fun p => keyNs p.1 != n) } }

/-- The pages of a namespace have all been destaged: a deletion that waits for it ends (R406). -/
def finishDelete (s : State) (n : Nat) : State :=
  match s.ns n with
  | none => s
  | some x => match x.deleting with
    | none => s
    | some cmd => if (pagesOf s n).isEmpty then finishCmd (deleteNs s n) cmd { status := .success } else s

/-- Every command of a namespace ends, since it is attached nowhere (R406, R408; log 77). -/
def endNsCmds (s : State) (n : Nat) : State :=
  (allNv s).foldl (fun s p => if isIo s p.1 && eNsid p.2 == n && decide (p.2.phase ≠ .reading) then nvEnd s p.1 p.2 stNamespace 0 else s) s

/-- Removes a storage queue at t3 of its destroy (R109): the slot is freed under the next generation, entries that were held are
lost, the pages of its shadow return, and a CH_DESTROY of it that was in progress completes. -/
def removeSq (s : State) (q : Nat) : State :=
  let sl := s.slot 4 q
  let held := ((mget s.vat.comp (cqKey q)).map (fun r => r.held.length)).getD 0
  let s1 := s.setSlot 4 q { sl with gen := if sl.dying then sl.gen else (sl.gen + 1) % 4096, live := false, dying := false }
  let s2 : State := { s1 with
    saf := { s1.saf with queues := mdel s1.saf.queues q }
    vat := { s1.vat with
      comp := mdel s1.vat.comp (cqKey q)
      freed := mset s1.vat.freed 4 (mgetD s1.vat.freed 4 [] ++ [q])
      dying := s1.vat.dying.filter (fun d => !(d.cls == 4 && d.index == q)) } }
  let s3 := releaseShadow s2.lake.fw.length (s2.count VAT_CMPL_LOST held)
  match s.vat.dying.find? (fun d => d.cls == 4 && d.index == q) with
  | some d => replyTo s3 d.cmd { status := .success }
  | none => s3

/-- The parts of incomplete units of a queue's writes are dropped and counted (R418). -/
def countParts (s : State) (q : Nat) : State :=
  match mget s.saf.queues q with
  | none => s
  | some w => s.count SAFF_DISCARD ((w.cmds.map (partPages s q)).sum)

/-- A controller reset (R418). -/
def ctrlReset (s : State) (f : Nat) : State :=
  (ownSlots s f 4).foldl (fun s q =>
    let s1 := countParts s q
    let s2 := match mget s1.saf.queues q with
      | some w => w.cmds.foldl (fun s c => dropNv s q c) s1
      | none => s1
    removeSq s2 q) { s with saf := { s.saf with events := mdel s.saf.events f, aec := mdel s.saf.aec f } }

/-- A started write whose next unit is at hand waits for a place in the buffer or behind an earlier write; one whose units are all
there waits for their destaging. -/
def writeStalls (s : State) (q : Nat) (c : NvCmd) : Bool :=
  match s.ns (eNsid c) with
  | none => false
  | some x => match unitAt (nvSpans x c) c.units 0 with
    | none => true
    | some (off, len, d) => match unitData s q c d len with
      | .ok _ _ => unitBlocked s (eNsid c) x c off len || !unitFits s (eNsid c) x off len
      | _ => false

/-- No command is started, or those started wait only for a backing target (R419): a read for its sectors, a write for its pages or
for room that destaging makes, a Flush for either. -/
def safQuiet (s : State) : Bool :=
  (allNv s).all (fun p => p.2.phase = .reading || p.2.phase = .fetched ||
    (if isIo s p.1 then (if isWrite p.2 then (p.2.phase = .running || (p.2.phase = .data && eOp p.2 == 1)) && writeStalls s p.1 p.2 else decide (p.2.phase = .running))
     else decide (p.2.phase = .running) && eOp p.2 == 0x0C))

/-- A save begins (R415): units wholly in the buffer stay, parts of incomplete units are dropped and counted. -/
def saveStart (s : State) : State :=
  if !safArmed s then s
  else
    let s1 := s.saf.queues.foldl (fun s p => countParts s p.1) s
    { s1 with saf := { s1.saf with vstate := 2, stopped := true } }

end Sys2Proof.Machine
end

