-- ==== Sys2Proof/Machine/Saf.lean ====
section
/-! DEFINITION. Commands of Saffron: storage queues (R403, R404), namespaces (R405, R406), NVMe commands (R407), the write buffer
and the vault (R409, R410, R414), backing sessions (R420, R421). -/

namespace Sys2Proof.Machine

open Sys2Proof

/-! Storage queues (R403, R404). -/

/-- Fields of R403. -/
def sqFieldsOk (p : BitVec 256) (fn : Nat) : Bool :=
  zeroBits p 11 0 && zeroBits p 75 64 && decide (4 ≤ bn p 132 128) && decide (bn p 132 128 ≤ 16) && zeroBits p 135 133 && decide (bn p 151 136 < fnDbPages fn) &&
    zeroBits p 159 152 && decide (bn p 186 176 < fnVectors fn) && zeroBits p 191 187 && decide (bn p 200 192 ≤ 256) && zeroBits p 207 201 && zeroBits p 255 224

/-- A function's storage queues by QID. -/
def hasQid (s : State) (f qid : Nat) : Bool := s.saf.queues.any (fun p => sqFn s p.1 == f && p.2.qid == qid)

/-- CH_CREATE of a storage queue (R403, R404). -/
def execChCreateStorageQueue (pair : MboxId) (blk : CmdBlock) (s : State) : Host.Outcome State Fault Refusal :=
  next (chCommand 0x010 [4] pair blk (fun s c b =>
    let p := params b
    let qid := bn p 175 160
    if !createWord b 4 || !sqFieldsOk p c.fn || hasQid s c.fn qid || (qid != 0 && !hasQid s c.fn 0) then refuse s .invalidField
    else if !s.master c.fn then refuse s .busMasterDisabled
    else createIn s c 4 (fun _ => true) 1 (fun s i =>
      let n := bn p 132 128
      match takeShadow s (16 * 2 ^ n) with
      | none => .inl .outOfResources
      | some s1 =>
        let s2 := s1.setComp (cqKey i) { base := bn p 127 64, sizeLog2 := n, dbPage := bn p 151 136, vector := bn p 186 176, modCount := bn p 200 192, modTime := bn p 223 208 }
        let s3 := s2.setSq i { base := bn p 63 0, sizeLog2 := n, dbPage := bn p 151 136, qid := qid }
        .inr (s3.hostWrite c.fn (bn p 127 64) (List.replicate (16 * 2 ^ n) 0#8), { status := .success }))) s)

/-- CH_MODIFY of a storage queue: VECTOR, MOD_COUNT and MOD_TIME (R403). -/
def execChModifyStorageQueue (pair : MboxId) (blk : CmdBlock) (s : State) : Host.Outcome State Fault Refusal :=
  next (chCommand 0x012 [4] pair blk (fun s c b =>
    match bodyHandle s c [4] b with
    | .inr st => refuse s st
    | .inl i => match mget s.vat.comp (cqKey i), mget s.saf.queues i with
      | some r, some w =>
        let p := params b
        if !bodyReserved b [] 320 || !sqFieldsOk p (s.slot 4 i).owner || bn p 63 0 != w.base || bn p 127 64 != r.base || bn p 132 128 != w.sizeLog2 ||
            bn p 151 136 != w.dbPage || bn p 175 160 != w.qid then refuse s .invalidField
        else accept (s.setComp (cqKey i) { r with vector := bn p 186 176, modCount := bn p 200 192, modTime := bn p 223 208 })
      | _, _ => refuse s .staleHandle) s)

/-- Saffron fetches an entry once a completion slot is free for it (R404); one whose fetch counts as not made is fetched again
first (R391). -/
def execSqFetch (queue : Nat) (s : State) : Host.Outcome State Fault Refusal :=
  match mget s.saf.queues queue, mget s.vat.comp (cqKey queue) with
  | some w, some r =>
    let sl := s.slot 4 queue
    let n := 2 ^ w.sizeLog2
    let again := w.cmds.find? (fun c => decide (c.phase = .reading) && (xferOf s (.sqe queue c.seq)).isNone)
    if !sl.live || sl.dying || s.saf.stopped || decide (r.free = 0) then next s
    else match again with
      | some c => match hostRead s sl.owner (.sqe queue c.seq) [(w.base + 64 * ((c.sqhd + n - 1) % n), 64)] with
        | none => next s
        | some s1 => next (reserve s1 (cqKey queue))
      | none =>
        let seq := s.saf.nextSeq
        if w.tail ≤ w.fetch then next s
        else match hostRead s sl.owner (.sqe queue seq) [(w.base + 64 * (w.fetch % n), 64)] with
          | none => next s
          | some s1 =>
            let s2 := s1.setSq queue { w with fetch := w.fetch + 1, cmds := w.cmds ++ [{ cid := 0, sqhd := (w.fetch + 1) % n, seq := seq }] }
            next (reserve { s2 with saf := { s2.saf with nextSeq := seq + 1 } } (cqKey queue))
  | _, _ => next s

/-- A submission entry has come from the host, or its read has failed (log 67). A Flush notes the pages it is to wait for (R417). -/
def sqeCame (s : State) (q seq : Nat) : State :=
  match xferOf s (.sqe q seq), nvAt s q seq with
  | some x, some c =>
    if !x.resolved then s
    else
      let s1 := dropXfer s (.sqe q seq)
      match x.data with
      | none =>
        let (cid, s2) := s1.choose 65536
        nvEnd s2 q { c with cid := cid } stTransfer 0
      | some bs =>
        let e := BitVec.ofNat 512 (leNat bs)
        let c1 : NvCmd := { c with sqe := e, cid := bn e 31 16, phase := .fetched }
        setNv s1 q seq (fun _ => if isIo s1 q && eOp c1 == 0 then { c1 with waits := dirtyOf s1 (flushNs s1 q c1) } else c1)
  | _, _ => s

/-! Namespaces (R405, R406). -/

/-- Lowest free session numbers, `n` of them (R420). -/
def freeSess (s : State) (n : Nat) : List Nat := ((List.range (s.saf.sessions.length + n)).filter (fun k => (s.sess k).isNone)).take n

/-- Registers the sessions of a namespace, the admin session first, and opens that one. -/
def makeSess (s : State) (n count : Nat) : State :=
  let ks := freeSess s (count + 1)
  let s1 := (ks.zip (List.range (count + 1))).foldl (fun s p => s.setSess p.1 { ns := n, queue := p.2 }) s
  match ks with
  | k :: _ => openSess s1 k
  | [] => s1

/-- SAF_NS_CREATE (R405). -/
def execSafNsCreate (pair : MboxId) (blk : CmdBlock) (s : State) : Host.Outcome State Fault Refusal :=
  next (fwCommand 0x080 true pair blk (fun s c b =>
    let n := bn b 14 0
    let carmine := bt b 16
    let nsze := bn b 95 32
    let sess := bn b 264 260
    let x : Ns := {
      carmine := carmine, lbaf := bt b 17, nsze := nsze, bufmax := bn b 106 96, tc := bn b 114 112, addr := BitVec.ofNat 128 (bn b 255 128), ipv4 := bt b 256,
      hdgst := bt b 257, ddgst := bt b 258, sess := sess, tport := bn b 287 272, tnsid := bn b 319 288,
      subnqn := leBytes 224 (bn b 2111 320), hostnqn := leBytes 224 (bn b 3903 2112) }
    let conn : W64 := BitVec.ofNat 64 (bn b 191 128)
    if !fromPf0 c then refuse s .accessDenied
    else if !bodyReserved b [(15, 15), (31, 18), (111, 107), (127, 115), (259, 259), (271, 265)] 3904 || n == 0 || decide (16384 < n) || nsze == 0 ||
        decide (2 ^ 48 < nsze) || x.bufmax == 0 || decide (1024 < x.bufmax) || x.tc == 0 ||
        (if carmine then x.tport != 0 else sess == 0 || decide (16 < sess)) then refuse s .invalidField
    else if (s.ns n).isSome then refuse s .busy
    else if carmine then
      match checkHandle s c.req conn [3] with
      | .inr st => refuse s st
      | .inl i =>
        if ((s.conn i).map (·.peerNode)) ≠ some (bn b 255 240) then refuse s .invalidField
        else accept (safSettle (s.setNs n x))
    else if 131072 < s.saf.sessions.length + sess + 1 then refuse s .outOfResources
    else accept (makeSess (s.setNs n x) n sess)) s)

/-- SAF_NS_ATTACH with DETACH 0 or 1 (R406). The other form is the other row's (log 2). -/
def attachRow (detach : Bool) (k : MboxId) (blk : CmdBlock) (s : State) : State :=
  if !blk.readFails && bt blk.body 28 != detach then s
  else fwCommand 0x081 true k blk (fun s c b =>
    let n := bn b 14 0
    let f := bn b 27 16
    if !fromPf0 c then refuse s .accessDenied
    else if !bodyReserved b [(15, 15)] 29 then refuse s .invalidField
    else match s.ns n with
      | none => refuse s .invalidField
      | some x =>
        if x.deleting.isSome then refuse s .busy
        else if x.fns.contains f != detach then accept s
        else accept (nsChanged (s.setNs n { x with fns := if detach then x.fns.erase f else x.fns ++ [f] }) f n)) s

/-- SAF_NS_ATTACH, attaching (R406). -/
def execSafNsAttach (pair : MboxId) (blk : CmdBlock) (s : State) : Host.Outcome State Fault Refusal := next (attachRow false pair blk s)

/-- SAF_NS_ATTACH with DETACH, detaching (R406). -/
def execSafNsDetach (pair : MboxId) (blk : CmdBlock) (s : State) : Host.Outcome State Fault Refusal := next (attachRow true pair blk s)

/-- SAF_NS_DELETE (R406). -/
def execSafNsDelete (pair : MboxId) (blk : CmdBlock) (s : State) : Host.Outcome State Fault Refusal :=
  next (fwCommand 0x082 true pair blk (fun s c b =>
    let n := bn b 14 0
    if !fromPf0 c then refuse s .accessDenied
    else if !bodyReserved b [(15, 15)] 17 then refuse s .invalidField
    else match s.ns n with
      | none => refuse s .invalidField
      | some x =>
        if !x.fns.isEmpty || x.deleting.isSome then refuse s .busy
        else
          let s1 := endNsCmds s n
          if bt b 16 then accept (deleteNs (s1.count SAFF_DISCARD (pagesOf s1 n).length) n)
          else (finishDelete (s1.setNs n { x with deleting := some c.id }) n, none)) s)

/-- SAF_CTRL_RESET (R406, R418). -/
def execSafCtrlReset (pair : MboxId) (blk : CmdBlock) (s : State) : Host.Outcome State Fault Refusal :=
  next (fwCommand 0x083 true pair blk (fun s c b =>
    let f := bn b 11 0
    if !fromPf0 c && c.fn != f then refuse s .accessDenied
    else if !bodyReserved b [] 12 then refuse s .invalidField
    else accept (ctrlReset s f)) s)

/-! NVMe commands (R407): the row of a command starts it when its turn has come, and carries on with it as far as it goes. A
command whose opcode is not supported is completed by whichever row takes it (log 2). -/

/-- The row of an opcode of the admin or the NVM command set. -/
def nvRow (op : Nat) (io : Bool) (q cid : Nat) (s : State) : State :=
  match nvOf s q cid with
  | none => s
  | some c =>
    let known := (if isIo s q then ioOps else adminOps).contains (eOp c)
    if (isIo s q == io && eOp c == op) || !known then safSettle (advanceNv s q c.seq true) else s

/-- Get Log Page (R407). -/
def execGetLogPage (queue cid : Nat) (s : State) : Host.Outcome State Fault Refusal := next (nvRow 0x02 false queue cid s)
/-- Identify (R407, R413). -/
def execIdentify (queue cid : Nat) (s : State) : Host.Outcome State Fault Refusal := next (nvRow 0x06 false queue cid s)
/-- Abort (R407). -/
def execAbort (queue cid : Nat) (s : State) : Host.Outcome State Fault Refusal := next (nvRow 0x08 false queue cid s)
/-- Set Features (R407). -/
def execSetFeatures (queue cid : Nat) (s : State) : Host.Outcome State Fault Refusal := next (nvRow 0x09 false queue cid s)
/-- Get Features (R407). -/
def execGetFeatures (queue cid : Nat) (s : State) : Host.Outcome State Fault Refusal := next (nvRow 0x0A false queue cid s)
/-- Asynchronous Event Request (R407). -/
def execAsyncEventRequest (queue cid : Nat) (s : State) : Host.Outcome State Fault Refusal := next (nvRow 0x0C false queue cid s)
/-- Flush (R417). -/
def execNvmeFlush (queue cid : Nat) (s : State) : Host.Outcome State Fault Refusal := next (nvRow 0x00 true queue cid s)
/-- Write (R409, R412). -/
def execNvmeWrite (queue cid : Nat) (s : State) : Host.Outcome State Fault Refusal := next (nvRow 0x01 true queue cid s)
/-- Read (R410). -/
def execNvmeRead (queue cid : Nat) (s : State) : Host.Outcome State Fault Refusal := next (nvRow 0x02 true queue cid s)
/-- Write Zeroes (R407). -/
def execWriteZeroes (queue cid : Nat) (s : State) : Host.Outcome State Fault Refusal := next (nvRow 0x08 true queue cid s)
/-- Dataset Management: Deallocate, performed as Write Zeroes (R407). -/
def execDatasetManagement (queue cid : Nat) (s : State) : Host.Outcome State Fault Refusal := next (nvRow 0x09 true queue cid s)

/-- A write that waits for pages of the buffer goes on (R409). -/
def execWriteBufferAdmit (queue cid : Nat) (s : State) : Host.Outcome State Fault Refusal :=
  match nvOf s queue cid with
  | none => next s
  | some c => next (if isIo s queue && isWrite c && decide (0 < c.start) then safSettle (advanceNv s queue c.seq true) else s)

/-- A piece of a destaging has ended (R410): with the last piece the page leaves the buffer when its newest contents are
acknowledged. A failed page is sent again; while the vault is disarmed the commands that wait for it fail (R408). -/
def destageEnd (s : State) (key : Nat) (st : Option Nat) : State :=
  match mget s.saf.backs key with
  | none => s
  | some b =>
    let s1 : State := { s with saf := { s.saf with backs := mdel s.saf.backs key } }
    match b.why with
    | .destage k ver => match mget s1.saf.pages k with
      | none => s1
      | some p =>
        let fail := match st with
          | none => stTransport
          | some e => e
        let bad := p.bad || decide (fail ≠ 0)
        let s2 := if fail = 0 ∨ safArmed s1 = true then s1
          else mapNv s1 (fun _ c => if c.status = 0 ∧ c.waits.any (fun w => w.1 == k && decide (w.2 ≤ ver)) then { c with status := fail } else c)
        match p.sent with
        | some (v, n) =>
          if 1 < n then s2.setPages (mset s2.saf.pages k { p with sent := some (v, n - 1), bad := bad })
          else if bad then s2.setPages (mset s2.saf.pages k { p with sent := none, bad := false })
          else
            let s3 := (releaseWaits s2 k v).count SAFF_DESTAGE
            finishDelete (s3.setPages (if p.ver = v then mdel s3.saf.pages k else mset s3.saf.pages k { p with sent := none })) (keyNs k)
        | none => s2
    | _ => s1

/-- The backing has answered for a piece of a page (R410). -/
def execDestageAck (s : State) : Host.Outcome State Fault Refusal :=
  let s1 := absorbCarmine s
  match s1.saf.acks with
  | [] => next s1
  | (key, st) :: rest => next (safSettle (destageEnd { s1 with saf := { s1.saf with acks := rest } } key st))

/-- The conditions of the vault are measured anew (R414, R424). -/
def execVaultArmChange (energy : Nat) (erased flashFault : Bool) (s : State) : Host.Outcome State Fault Refusal :=
  let armed := decide (25 ≤ energy) && erased && !flashFault
  next (safSettle { s with saf := { s.saf with
    energy := energy, erased := erased, flashFault := flashFault
    vstate := if s.saf.vstate ≤ 1 then b2n armed else s.saf.vstate } })

/-! The backing (R420, R421). -/

/-- 30 s pass with no backing established (R421): commands that need the backing complete with Namespace Not Ready. -/
def execNsReadyTimeout (ns : Nat) (s : State) : Host.Outcome State Fault Refusal :=
  match s.ns ns with
  | none => next s
  | some x =>
    if nsUp s ns then next s
    else
      let s1 := s.setNs ns { x with ready := false }
      next (safSettle ((allNv s1).foldl (fun s p =>
        if !isIo s p.1 || decide (p.2.start = 0) || (eOp p.2 != 0 && eNsid p.2 != ns) then s
        else if eOp p.2 = 2 then (if p.2.backs.isEmpty then s else nvEnd s p.1 p.2 stNotReady 0)
        else advanceNv s p.1 p.2.seq true) s1))

/-- A failed session tries again (R420). An I/O session follows its namespace's admin session. -/
def execSessionReconnectTimer (session : Nat) (s : State) : Host.Outcome State Fault Refusal :=
  match s.sess session with
  | none => next s
  | some x =>
    if x.queue = 0 ∨ (sessOf s x.ns).any (fun p => p.2.queue == 0 && decide (p.2.st = .up)) = true then next (openSess s session) else next s

/-- Ends a session over a PDU that breaks the protocol: H2CTermReq leaves first (R420; log 55). -/
def termSess (s : State) (k fes : Nat) (pdu : List Byte) : State :=
  match s.sess k with
  | none => s
  | some x => failSess (sendBytes s k (mkPdu { x with hd := false, dd := false } 2 0 (leBytes 2 fes ++ leBytes 4 0 ++ List.replicate 10 0#8) (pdu.take 128))) k

/-- Header digest of a PDU. -/
def hdrDigestOk (x : Sess) (p : List Byte) : Bool :=
  let hlen := leAt p 2 1
  !(x.hd && decide (4 ≤ leAt p 0 1)) || leAt p hlen 4 == crc32c (p.take hlen)

/-- Data of a PDU, and whether its digest holds. -/
def pduData (x : Sess) (p : List Byte) (len : Nat) : List Byte × Bool :=
  let pdo := leAt p 3 1
  let d := slice p pdo len
  (d, !x.dd || leAt p (pdo + len) 4 == crc32c d)

/-- The backing command of a CID on a session. -/
def backOf (s : State) (k cid : Nat) : Option (Nat × Back) := s.saf.backs.find? (fun b => b.2.issued && b.2.sess == k && b.2.cid == cid)

/-- A session is open: the other sessions of the namespace follow its admin session (R420, R421). -/
def sessUp (s : State) (k : Nat) : State :=
  match s.sess k with
  | none => s
  | some x =>
    let s1 := s.setSess k { x with st := .up }
    if x.queue ≠ 0 then s1 else (sessOf s1 x.ns).foldl (fun s p => if p.2.queue = 0 then s else openSess s p.1) s1

/-- A completion of the session's own setting up. -/
def setupDone (s : State) (k : Nat) (x : Sess) (why : BackWhy) (st : Nat) (cqe : List Byte) (b : Back) : State :=
  if st ≠ 0 then failSess s k
  else match why with
    | .connect => if x.queue = 0 then sendEnable (s.setSess k { x with cntlid := leAt cqe 0 2, st := .enabling }) k
      else
        let cap := (((sessOf s x.ns).find? (fun p => p.2.queue == 0)).map (·.2.inCap)).getD 0
        sessUp (s.setSess k { x with inCap := cap }) k
    | .enable => sendPoll s k
    | .poll => if leAt cqe 0 1 % 2 = 1 then sendIdentify s k else sendPoll s k
    | .identify =>
      let n := leNat ((List.range 4).map (fun i => (mget b.got (1792 + i)).getD 0#8))
      sessUp (s.setSess k { x with inCap := 16 * n - 64 }) k
    | _ => s

/-- Whether a backing command is the setting up of a session. -/
def BackWhy.setup : BackWhy → Bool
  | .connect => true
  | .enable => true
  | .poll => true
  | .identify => true
  | _ => false

/-- A command's completion comes. -/
def respCame (s : State) (k : Nat) (x : Sess) (cid st : Nat) (cqe : List Byte) : State :=
  match backOf s k cid with
  | none => s
  | some (key, b) => if b.why.setup then setupDone (backEnd s key (some st)) k x b.why st cqe b else backEnd s key (some st)

/-- Takes the PDU of a type from the front of a session's stream, after the oldest segment where none stands there, and acts on
it (R420). -/
def pduRow (ty : Nat) (act : State → Sess → List Byte → State) (k : Nat) (s : State) : State :=
  let ready (s : State) : Option (Sess × List Byte) := match s.sess k with
    | some x => (headPdu x).bind (fun p => if leAt p 0 1 = ty then some (x, p) else none)
    | none => none
  let s1 := if (ready s).isSome then s else nextSeg s k
  match ready s1 with
  | none => checkFin s1 k
  | some (x, p) =>
    let x1 := { x with rx := x.rx.drop p.length }
    let s2 := s1.setSess k x1
    safSettle (checkFin (if hdrDigestOk x1 p then act s2 x1 p else termSess s2 k 3 p) k)

/-- ICResp completes the session's initialisation (R420). -/
def execIcResp (session : Nat) (s : State) : Host.Outcome State Fault Refusal :=
  next (pduRow 1 (fun s x p =>
    let dgst := leAt p 11 1
    let n := s.ns x.ns
    if x.st ≠ .icSent then termSess s session 2 p
    else if leAt p 8 2 ≠ 0 then failSess s session
    else sendConnect (s.setSess session { x with
      st := .connecting, cpda := leAt p 10 1, maxh2c := leAt p 12 4
      hd := (n.map (·.hdgst)).getD false && dgst.testBit 0
      dd := (n.map (·.ddgst)).getD false && dgst.testBit 1 }) session) session s)

/-- CapsuleResp completes a backing command (R420). -/
def execCapsuleResp (session : Nat) (s : State) : Host.Outcome State Fault Refusal :=
  next (pduRow 5 (fun s x p => let c := slice p 8 16; respCame s session x (leAt c 12 2) (leAt c 14 2 / 2) c) session s)

/-- C2HData brings read data (R420). With its SUCCESS flag no CapsuleResp follows. -/
def execC2hData (session : Nat) (s : State) : Host.Outcome State Fault Refusal :=
  next (pduRow 7 (fun s x p =>
    let cid := leAt p 8 2
    let off := leAt p 12 4
    let (d, good) := pduData x p (leAt p 16 4)
    match backOf s session cid with
    | none => s
    | some (key, b) =>
      if b.len < off + d.length then termSess s session 4 p
      else if !good then (if b.why.setup then failSess s session else backEnd s key none)
      else
        let s1 : State := { s with saf := { s.saf with backs := mset s.saf.backs key { b with got := putBytes b.got off d } } }
        if leAt p 1 1 / 8 % 2 = 1 then respCame s1 session x cid 0 (List.replicate 16 0#8) else s1) session s)

/-- H2CData PDUs that answer an R2T, `n` at most. -/
def h2cPdus (x : Sess) (cid ttag : Nat) : Nat → Nat → List Byte → List Byte
  | 0, _, _ => []
  | n + 1, off, bs =>
    let m := if x.maxh2c = 0 then bs.length else min x.maxh2c bs.length
    if bs.isEmpty then []
    else mkPdu x 6 (if m = bs.length then 4 else 0) (leBytes 2 cid ++ leBytes 2 ttag ++ leBytes 4 off ++ leBytes 4 m ++ leBytes 4 0) (bs.take m) ++ h2cPdus x cid ttag n (off + m) (bs.drop m)

/-- An R2T at the front of a session's stream asks for a page whose region is in reset (R422). -/
def r2tWaits (s : State) (k : Nat) : Bool :=
  match (s.sess k).bind headPdu with
  | some p => decide (leAt p 0 1 = 9) && ((backOf s k (leAt p 8 2)).map (fun b => destageWaits s b.2)).getD false
  | none => false

/-- R2T asks for write data (R420). While the page it asks for cannot be read it stays where it is. -/
def execReadyToTransfer (session : Nat) (s : State) : Host.Outcome State Fault Refusal :=
  let s0 := if ((s.sess session).bind headPdu).isSome then s else nextSeg s session
  if r2tWaits s0 session then next s0 else
  next (pduRow 9 (fun s x p =>
    let cid := leAt p 8 2
    let off := leAt p 12 4
    let len := leAt p 16 4
    match backOf s session cid with
    | none => termSess s session 1 p
    | some (_, b) =>
      if b.len < off + len then termSess s session 4 p
      else
        let (s1, bs) := destageBytes s b
        sendBytes s1 session (h2cPdus x cid (leAt p 10 2) (len + 1) off (slice (bs.drop off) 0 len))) session s0)

/-- C2HTermReq ends the session (R420). -/
def execC2hTermReq (session : Nat) (s : State) : Host.Outcome State Fault Refusal :=
  next (pduRow 3 (fun s _ _ => failSess s session) session s)

/-- The oldest segment for a session comes in (R420). -/
def execTcpSegmentArrival (session : Nat) (s : State) : Host.Outcome State Fault Refusal :=
  next (safSettle (checkFin (nextSeg s session) session))

/-- A session's retransmission timer runs out (R420): the oldest segment goes again, or after too many the session has failed
(log 72). -/
def execTcpRetransmissionTimeout (session : Nat) (giveUp : Bool) (s : State) : Host.Outcome State Fault Refusal :=
  match s.sess session with
  | none => next s
  | some x =>
    if x.st = .closed ∨ (x.st ≠ .synSent ∧ x.sent = 0) then next s
    else if giveUp then next (safSettle (failSess s session))
    else if x.st = .synSent then
      let v4 := ((s.ns x.ns).map (·.ipv4)).getD true
      next (sendSeg s session x x.una 0x02 (beBytes 2 0x0204 ++ beBytes 2 (ownMss v4) ++ beBytes 4 0x01030307 ++ beBytes 4 0x01010402) [])
    else next (sendSeg s session x x.una 0x18 (sackOpt x) (x.buf.take (min x.mss x.sent)))

end Sys2Proof.Machine
end

