-- ==== Sys2Proof/Machine/Destroy.lean ====
section
/-! DEFINITION. Channels destroyed (R109, R110), class by class, and doorbells (R114 to R116). -/

namespace Sys2Proof.Machine

open Sys2Proof

/-! Jobs aborted. -/

/-- Carmine forgets who posted a job's messages; those that have not started go (R109, R270). -/
def dropCarmJob (s : State) (id : Nat) : State :=
  let own (m : TxMsg) : Bool := decide (m.poster = .job id)
  { s with carm := { s.carm with conns := mmap s.carm.conns (fun _ c => { c with
      msgs := c.msgs.map (fun m => if own m then { m with poster := .none } else m)
      waiting := c.waiting.filter (fun w => match w with
        | .job x => x != id
        | .msg m => !own m)
      recvq := c.recvq.filter (fun e => e.job != id) }) } }

/-- Woad lets go of a job: a DISPATCH whose records have not gone sends aborted ones (R195, R201). -/
def dropWoadJob (s : State) (id : Nat) (st : Status) : State :=
  let s1 := s.woad.queues.foldl (fun s p =>
    let fn := (s.slot 5 p.1).owner
    (((s.wq p.1).map (·.jobs)).getD []).foldl (fun s j =>
      if j.job = some id then (if j.sent then putWjob s p.1 { j with job := none, finished := true, failed := some st } else refuseDispatch s p.1 fn j st 0)
      else if j.combine = some id then putWjob s p.1 { j with combine := none, combined := true } else s) s) s
  { s1 with woad := { s1.woad with returns := s1.woad.returns.filter (fun w => w.job != id), retCfg := mdel s1.woad.retCfg id } }

/-- Blend breaks the group of a job's operation (R223). -/
def dropBlendJob (s : State) (id : Nat) (st : Status) : State :=
  match s.blend.groups.findSome? (fun g => (g.2.ops.find? (fun o => o.job == id)).map (fun o => (g.1, g.2, o))) with
  | none => s
  | some (gi, g, o) => breakGroup s (s.slot 6 gi).owner gi o.j o.opc o.n st (bRank g.cfg.rec_) none

/-- An optimizer step's cores stop; a PAR_EPOCH ends. -/
def dropParJob (s : State) (id : Nat) (st : Status) : State :=
  let s1 := match s.par.runs.find? (fun r => r.job == id) with
    | some r => stopCores s r.cores st 2
    | none => s
  s1.par.groups.foldl (fun s g => if g.2.closing = some id then endEpoch s g.1 g.2 st else s) s1

/-- A job ends with a status wherever it stands, and the unit that had it goes on (R109 t1, t2). -/
def abortJob (s : State) (st : Status) (id : Nat) : State :=
  match mget s.vat.jobs id with
  | none => s
  | some j =>
    let s1 := dropParJob (dropBlendJob (dropWoadJob (dropCarmJob s id) id st) id st) id st
    let (s2, result) := match j.unit with
      | some c => let (s2, n) := if j.isCodec || j.isMatrix then cutJob s1 id c j else (s1, 0)
        (if j.isMatrix && j.accepted then s2.count (IND_JOBS c) else s2, n)
      | none => if [0x70, 0x71, 0x76].contains (dOpcode j.desc) then cutMordant s1 id j else (s1, 0)
    let s3 := endJob s2 id st (if [0x70, 0x71].contains (dOpcode j.desc) then result / 16 else 0) result
    match j.unit with
    | some c => startEngine s3 c j.isCodec
    | none => s3

/-- Jobs that satisfy a condition end with a status. -/
def abortJobs (s : State) (st : Status) (p : Job → Bool) : State := ((s.vat.jobs.filter (fun j => p j.2)).map (·.1)).foldl (fun s id => abortJob s st id) s

/-- A job acts on a channel. -/
def Job.on (j : Job) (cls i : Nat) : Bool := hClass (dTarget j.desc) == cls && hIndex (dTarget j.desc) == i && j.core.isNone && (targetClasses (dOpcode j.desc)).contains cls

/-! Classes. -/

def chanKey (cls i : Nat) : Nat := cls * 2 ^ 24 + i

/-- An item that must wait for a completion slot before it can be reported as aborted (R109). -/
def lateOf (s : State) (chan ring gen slot : Nat) (posted : Bool) (d : Desc) : LateDone :=
  { ring := ring, ringGen := gen, cq := cqOf s ring, slot := slot, posted := posted, desc := d, status := .aborted, chan := chan }

def addLate (s : State) (ls : List LateDone) : State := { s with vat := { s.vat with late := s.vat.late ++ ls } }

/-- Parked entries as waiting abort completions. -/
def lateParked (s : State) (chan : Nat) (es : List Parked) : List LateDone :=
  es.filterMap (fun e => e.item.desc.map (fun d => lateOf s chan e.ring e.ringGen e.item.slot e.item.posted d))

/-- Writes waiting abort completions wherever there are slots. -/
def drainAll (s : State) : State := s.vat.comp.foldl (fun s q => drainLate q.1 s.vat.late.length s) s

/-- t1 of a work ring's destroy: fetched, parked, fired and waiting posted descriptors are aborted; a read that is still out is
discarded without a completion (R109, R110; log 78). -/
def stopRing (s : State) (i gen : Nat) : State :=
  match mget s.vat.work i with
  | none => s
  | some w =>
    let ch := chanKey 1 i
    let s1 := s.setWork i { w with queue := [], halted := true }
    let s2 := w.queue.foldl (fun s f => match f.desc with
      | some d => report s i gen f.slot f.posted d .aborted 0 0
      | none => if unmade s i f then s else orphan (unreserve s w.cq) (fun w => decide (w = .desc i f.seq))) s1
    let parked := (s2.vat.trig.map (fun t => t.2.parked.filter (fun e => e.ring == i))).flatten
    let fired := s2.vat.fired.filter (fun e => e.ring == i)
    let posts := (s2.ap.ports.map (fun p => p.2.posts.filter (fun x => x.ring == i))).flatten
    let late := lateParked s2 ch (parked ++ fired) ++ posts.map (fun x => lateOf s2 ch i gen 0xFFFF true x.desc)
    drainAll (addLate { s2 with
      vat := { s2.vat with
        trig := mmap s2.vat.trig (fun _ t => { t with parked := t.parked.filter (fun e => e.ring != i) })
        fired := s2.vat.fired.filter (fun e => e.ring != i) }
      ap := { s2.ap with ports := mmap s2.ap.ports (fun _ p => { p with posts := p.posts.filter (fun x => x.ring != i) }) } } late)

/-- t1 of a connection's destroy: everything outstanding ends as aborted (R257). -/
def stopConn (s : State) (i : Nat) : State :=
  match s.conn i with
  | none => s
  | some c =>
    let c1 : Conn := { c with state := .error, msgs := [], waiting := [], unacked := [], staged := [], recvq := [], recvCur := none, winPkt := none, una := c.psn, nextSend := c.psn, closed := c.closed || decide (c.state = .idle) }
    let s1 := (c.msgs.filter (fun m => !m.done)).foldl (fun s m => completePoster s m.poster .aborted 0 0) (leaveSources (s.setConn i c1) i)
    let s2 := c.waiting.foldl (failWaiting .aborted) s1
    let s3 := (c.recvCur.toList.map (·.entry) ++ c.recvq).foldl (fun s e => completeJob s e.job .aborted 0 0) s2
    abortJobs { s3 with carm := { s3.carm with parked := s3.carm.parked.filter (fun p => p.conn != i) } } .aborted (Job.on · 3 i)

/-- A storage queue's commands end with Command Abort Requested; parts of incomplete units are dropped (R109, R408, R418). -/
def stopSq (s : State) (q : Nat) : State :=
  match mget s.saf.queues q with
  | none => s
  | some w => w.cmds.foldl (fun s c => if c.phase = .reading then unreserve (dropNv s q c) (cqKey q) else nvEnd s q c stAborted 0) (countParts s q)

/-- A dispatch queue's jobs end (R201). -/
def stopQueue (s : State) (q : Nat) : State :=
  let fn := (s.slot 5 q).owner
  let s1 := (((s.wq q).map (·.jobs)).getD []).foldl (fun s j =>
    let s1 := match j.combine with
      | some id => completeJob s id .aborted 0 0
      | none => s
    match j.job with
    | some id => if j.sent then completeJob s1 id .aborted 0 0 else refuseDispatch s1 q fn { j with combine := none } .aborted 0
    | none => s1) s
  abortJobs s1 .aborted (Job.on · 5 q)

/-- A reduction group's operations end, and an abort notice goes to every partner (R223). -/
def stopGroup (s : State) (gi : Nat) : State :=
  match s.bg gi with
  | none => s
  | some g =>
    let s1 := match g.ops with
      | o :: _ => sendAborts (s.count BLND_ABORTS g.ops.length) (s.slot 6 gi).owner g o.j o.opc o.n (bRank g.cfg.rec_) none
      | [] => s
    abortJobs (g.ops.foldl (fun s o => (completeJob s o.job .aborted 0 0).count BLND_OPS) (s1.setBg gi { g with ops := [] })) .aborted (Job.on · 6 gi)

/-- The lines of a run of near memory that hold anything. -/
def usedLines (s : State) (a n : Nat) : List Nat :=
  (((s.lake.mem.filter (fun p => decide (a ≤ p.1) && decide (p.1 < a + n))).map (fun p => p.1 / 64))).eraseDups

/-- t0 of a region's destroy: no access passes its check any longer, and its slot shows no region; a rebalance of it ends (R86, R89,
R92). -/
def closeRegion (s : State) (i : Nat) : State :=
  match mget s.lake.regions i with
  | none => s
  | some d =>
    let s1 : State := { s with lake := { s.lake with
      regions := mdel s.lake.regions i, dying := mset s.lake.dying i d, moves := s.lake.moves.filter (fun m => decide (m.why ≠ .rebalance i)) } }
    match s1.lake.rebalances.find? (fun r => r.region == i) with
    | none => settleRegions s1
    | some r => replyTo (settleRegions { s1 with lake := { s1.lake with rebalances := s1.lake.rebalances.erase r } }) r.cmd { status := .aborted }

/-- t3 of a region's destroy: a protected one sends its zeroing deltas (R241), and its pages are freed (R85, R89). -/
def dropRegion (s : State) (i : Nat) : State :=
  match mget s.lake.dying i with
  | none => s
  | some d =>
    let s1 := match (if d.prot then groupOf s d.pgroup else none) with
      | none => s
      | some (gs, _) => (usedLines s d.base (d.pages * pageBytes)).foldl (fun s l => match mget s.par.groups gs with
        | some g => sendDelta s gs g (protPage s i d (64 * l)) (l % 32768) (memBytes s.lake.mem (64 * l) 64)
        | none => s) s
    let s2 : State := { s1 with
      lake := { s1.lake with dying := mdel s1.lake.dying i }
      par := { s1.par with rprot := mdel s1.par.rprot i } }
    if inTierN d.base 1 then releasePages s2 (d.base / pageBytes) d.pages else s2

/-- Descriptors that wait on a counter of a destroyed set end as aborted, and watches on it are cancelled (R109, R151). -/
def stopCtrs (s : State) (first : Nat) : State :=
  let n := mgetD s.vat.sets first 0
  let hit (c : Nat) : Bool := decide (first ≤ c) && decide (c < first + n)
  let s1 := s.vat.work.foldl (fun s p => match (mget s.vat.work p.1).map (·.queue) with
    | some (f :: _) => match f.desc with
      | some d => if f.waiting && dWait d && hit (dWaitCtr d) then report (popHead s p.1) p.1 (s.slot 1 p.1).gen f.slot f.posted d .aborted 0 0 else s
      | none => s
    | _ => s) s
  let cancel (k : Core) : Core := (List.range 4).foldl (fun k j =>
    let w := mgetD k.watch j {}
    if w.st = .armed ∧ hit w.ctr = true then { k with watch := mset k.watch j { w with st := .cancelled }, evt := k.evt ||| BitVec.ofNat 32 (2 ^ j) } else k) k
  { s1 with fab := { s1.fab with cores := mmap s1.fab.cores (fun _ k => cancel k) } }

/-- A trigger list's parked entries end as aborted, in post order (R109). -/
def stopTrig (s : State) (i : Nat) : State :=
  match mget s.vat.trig i with
  | none => s
  | some t => drainAll (addLate { s with vat := { s.vat with trig := mdel s.vat.trig i } } (lateParked s (chanKey 0xB i) t.parked))

/-! The course of a destroy (R109). -/

/-- t0 and t1: the generation increments, and work that has not started ends. -/
def destroyStart (s : State) (cls i cmd : Nat) (sweep : Bool) : State :=
  let sl := s.slot cls i
  let s1 := s.setSlot cls i { sl with gen := (sl.gen + 1) % 4096, live := false, dying := true }
  let s2 : State := { s1 with vat := { s1.vat with dying := s1.vat.dying ++ [{ cls := cls, index := i, owner := sl.owner, cmd := cmd, sweep := sweep }] } }
  match cls with
  | 1 => stopRing s2 i sl.gen
  | 3 => stopConn s2 i
  | 4 => stopSq s2 i
  | 5 => stopQueue s2 i
  | 6 => stopGroup s2 i
  | 7 => abortJobs s2 .aborted (Job.on · 7 i)
  | 8 => closeRegion s2 i
  | 9 => abortJobs s2 .aborted (Job.on · 9 i)
  | 0xA => stopCtrs s2 i
  | 0xB => stopTrig s2 i
  | _ => s2

/-- t2: started work of a work ring stops (R109). Other classes have stopped at t1. -/
def destroyStop (s : State) (cls i : Nat) : State := if cls = 1 then drainAll (abortJobs s .aborted (fun j => j.ring == i && j.core.isNone)) else s

/-- Whether t3 has come: every completion is written, a connection has sent CLOSE, and the accesses to a region have finished (R109, R257,
R89). -/
def destroyOver (s : State) (cls i : Nat) : Bool :=
  match cls with
  | 1 => !s.vat.late.any (fun l => l.ring == i)
  | 3 => ((s.conn i).map (·.closed)).getD true
  | 8 => ((mget s.lake.dying i).map (fun d => !regionBusy s d)).getD true
  | 0xB => !s.vat.late.any (fun l => l.chan == chanKey 0xB i)
  | _ => true

/-- The state of a channel goes with it. -/
def removeChannel (s : State) (cls i : Nat) : State :=
  match cls with
  | 1 => { s with vat := { s.vat with work := mdel s.vat.work i } }
  | 2 =>
    let held := ((mget s.vat.comp i).map (fun q => q.held.length)).getD 0
    releaseShadow s.lake.fw.length (({ s with vat := { s.vat with comp := mdel s.vat.comp i } } : State).count VAT_CMPL_LOST held)
  | 3 => { s with carm := { s.carm with conns := mdel s.carm.conns i } }
  | 4 =>
    let held := ((mget s.vat.comp (cqKey i)).map (fun q => q.held.length)).getD 0
    releaseShadow s.lake.fw.length (({ s with
      saf := { s.saf with queues := mdel s.saf.queues i }
      vat := { s.vat with comp := mdel s.vat.comp (cqKey i) } } : State).count VAT_CMPL_LOST held)
  | 5 => { s with woad := { s.woad with queues := mdel s.woad.queues i } }
  | 6 => { s with blend := { s.blend with groups := mdel s.blend.groups i } }
  | 7 => { s with par := { s.par with progs := mdel s.par.progs i } }
  | 8 => dropRegion s i
  | 9 => { s with sec := { s.sec with keys := mdel s.sec.keys i } }
  | 0xA => { s with vat := { s.vat with sets := mdel s.vat.sets i } }
  | 0xB => dropFwRegion s (.triggers i)
  | _ => s

/-- t3: the slot is free, and the command completes (R106, R109). -/
def destroyEnd (s : State) (d : Dying) : State :=
  let s1 := freeSlot (removeChannel { s with vat := { s.vat with dying := s.vat.dying.erase d } } d.cls d.index) d.cls d.index
  replyTo s1 d.cmd { status := .success }

/-- Refusals of a destroy by state (R109, R403). -/
def destroyBusy (s : State) (cls i : Nat) : Bool :=
  if cls = 2 then s.vat.work.any (fun w => w.2.cq == i)
  else if cls = 4 then !isIo s i && s.saf.queues.any (fun q => q.1 != i && sqFn s q.1 == sqFn s i)
  else false

/-- CH_DESTROY (R109): t0 and t1. Destroying an admin queue is a controller reset, whose commands get no entry (R418). -/
def execChDestroy (pair : MboxId) (blk : CmdBlock) (s : State) : Host.Outcome State Fault Refusal :=
  next (fwCommand 0x011 true pair blk (fun s c b =>
    let classes := [1, 2, 3, 4, 5, 6, 7, 8, 9, 0xA, 0xB]
    let cls := bn b 63 60
    match bodyHandle s c classes b with
    | .inr st => refuse s st
    | .inl i =>
      if !bodyReserved b [] 64 then refuse s .invalidField
      else if destroyBusy s cls i then refuse s .busy
      else if cls = 4 ∧ isIo s i = false then accept (ctrlReset s (sqFn s i))
      else (safSettle (settle (destroyStart s cls i c.id false)), none)) s)

/-- t2 and t3 of a destroy (R109). Before its completions are written, or CLOSE has gone, it is not over. -/
def execChDestroyDone (cls index : Nat) (s : State) : Host.Outcome State Fault Refusal :=
  match s.vat.dying.find? (fun d => d.cls == cls && d.index == index) with
  | none => next s
  | some d =>
    let s1 := destroyStop s cls index
    let s2 := if cls = 3 then sendClose s1 index else s1
    next (if destroyOver s2 cls index then settle (destroyEnd s2 d) else s2)

/-- Waiting abort completions of a function's rings are discarded and counted (R125, R393). -/
def discardLate (s : State) (f : Nat) : State :=
  let mine (l : LateDone) : Bool := (s.slot 1 l.ring).owner == f
  ({ s with vat := { s.vat with late := s.vat.late.filter (fun l => !mine l) } } : State).count VAT_CMPL_LOST (s.vat.late.filter mine).length

/-- The sweep of a function's channels (R393 t2): storage queues and work rings first, completion rings last. Every completion is
discarded and counted, those that were held among them (R125, R391; log 79). -/
def sweepFn (s : State) (f : Nat) : State :=
  let held := ((s.vat.comp.filter (fun q => (cqSlot s q.1).owner == f)).map (fun q => q.2.held.length)).sum
  let s0 := s.count VAT_CMPL_LOST held
  let s1 : State := { s0 with vat := { s0.vat with comp := s0.vat.comp.filter (fun q => (cqSlot s0 q.1).owner != f) } }
  let one (s : State) (cls : Nat) : State := (ownSlots s f cls).foldl (fun s i =>
    let sl := s.slot cls i
    let a := if sl.live then destroyStart s cls i 0 true else s
    let b := destroyStop a cls i
    let c := if cls = 3 then sendClose b i else b
    let d : Dying := (c.vat.dying.find? (fun d => d.cls == cls && d.index == i)).getD { cls := cls, index := i, owner := f, cmd := 0 }
    destroyEnd (discardLate c f) d) s
  [1, 3, 5, 6, 7, 8, 9, 0xA, 0xB, 2].foldl one (ctrlReset (discardLate s1 f) f)

/-! Doorbells (R114 to R116). -/

/-- Fields of the doorbell word (R115). -/
def dbPtr (w : W64) : Nat := bn w 15 0
def dbArm (w : W64) : Bool := bt w 16
def dbGen (w : W64) : Nat := bn w 31 20
def dbIndex (w : W64) : Nat := bn w 55 32
def dbClass (w : W64) : Nat := bn w 59 56

/-- The channel a doorbell names, when the function may ring it on this page (R116). -/
def dbSlot (s : State) (fn page : Nat) (pageOf : Nat → Nat → Option Nat) (w : W64) : Bool :=
  let sl := s.slot (dbClass w) (dbIndex w)
  zeroBits w 19 17 && zeroBits w 63 60 && sl.live && sl.gen == dbGen w && sl.owner == fn && pageOf (dbClass w) (dbIndex w) == some page

/-- A write to a doorbell page reaches the function: not in D3hot, not during a function-level reset (R391, R393). -/
def pageReached (s : State) (fn page : Nat) : Bool := s.barReached fn && decide (page < fnDbPages fn)

/-- The new tail of a submission ring: PTR, taken modulo the size, counted on from the tail (R115). -/
def newTail (size tail ptr : Nat) : Nat := tail + (ptr % size + size - tail % size) % size

/-- The next entry that Vat will fetch: the oldest one whose fetch counts as not made comes before those never fetched (R116, R391). -/
def nextFetch (s : State) (ring : Nat) (w : WorkRing) : Nat :=
  match w.queue.find? (unmade s ring) with
  | some f => w.fetch - (w.fetch + 2 ^ w.sizeLog2 - f.slot) % 2 ^ w.sizeLog2
  | none => w.fetch

/-- The same of a storage queue. -/
def sqNext (s : State) (q : Nat) (w : SQueue) : Nat :=
  let n := 2 ^ w.sizeLog2
  match w.cmds.find? (fun c => decide (c.phase = .reading) && (xferOf s (.sqe q c.seq)).isNone) with
  | some c => w.fetch - (w.fetch + n - (c.sqhd + n - 1) % n) % n
  | none => w.fetch

/-- A 64-bit or other write at page offset 0x000 (R114 to R116). A PTR that would place more than size − 1 entries between the next entry to
fetch and the new tail is dropped. -/
def execWorkDoorbell (fn page : Nat) (wide : Bool) (value : W64) (s : State) : Host.Outcome State Fault Refusal :=
  let drop := s.count VAT_DB_DROP
  let pageOf (cls i : Nat) : Option Nat := if cls = 1 then (mget s.vat.work i).map (·.dbPage) else if cls = 4 then (mget s.saf.queues i).map (·.dbPage) else none
  let i := dbIndex value
  if !pageReached s fn page then next s
  else if !wide || dbArm value || !dbSlot s fn page pageOf value then next drop
  else if dbClass value = 1 then
    match mget s.vat.work i with
    | none => next drop
    | some w =>
      let t := newTail (2 ^ w.sizeLog2) w.tail (dbPtr value)
      next (if nextFetch s i w + 2 ^ w.sizeLog2 ≤ t then drop else s.setWork i { w with tail := t })
  else
    match mget s.saf.queues i with
    | none => next drop
    | some w =>
      let t := newTail (2 ^ w.sizeLog2) w.tail (dbPtr value)
      next (if sqNext s i w + 2 ^ w.sizeLog2 ≤ t then drop else s.setSq i { w with tail := t })

/-- A write at page offset 0x008 (R114 to R116, R132). -/
def execCompletionDoorbell (fn page : Nat) (wide : Bool) (value : W64) (s : State) : Host.Outcome State Fault Refusal :=
  let drop := s.count VAT_DB_DROP
  let key := if dbClass value = 2 then dbIndex value else cqKey (dbIndex value)
  let pageOf (cls _ : Nat) : Option Nat := if cls = 2 ∨ cls = 4 then (mget s.vat.comp key).map (·.dbPage) else none
  if !pageReached s fn page then next s
  else if !wide || !dbSlot s fn page pageOf value then next drop
  else match mget s.vat.comp key with
    | none => next drop
    | some q =>
      let n := 2 ^ q.sizeLog2
      let written := q.written - q.held.length
      let h := q.head + (dbPtr value + n - q.head % n) % n
      if written < h then next drop
      else
        let q1 := { q with head := h }
        let q2 := if dbArm value then { q1 with armed := true, p := 0, firstAt := none } else q1
        let s1 := s.setComp key q2
        let s2 := if dbArm value && decide (h < written) && decide (q.modCount ≠ 0) then interrupt s1 key else s1
        next (drainLate key s2.vat.late.length s2)

end Sys2Proof.Machine
end

