-- ==== Sys2Proof/Machine/Vault.lean ====
section
/-! DEFINITION. The vault in save flash: its keys (R496), and the images as they are stored (R497), written by a save (R415) and read at a
restore (R416). -/

namespace Sys2Proof.Machine

open Sys2Proof

/-- The identity seed (R496); as delivered it comes from the factory (log 6). -/
def idSeedOf (s : State) : List Byte := slice (s.sec.idSeed.getD (Config.factory 16)) 0 32

/-- The labels KY9-VAULT-DATA and KY9-VAULT-TWEAK in ASCII (R496). -/
def vaultLabel : List Byte := [0x4B#8, 0x59#8, 0x39#8, 0x2D#8, 0x56#8, 0x41#8, 0x55#8, 0x4C#8, 0x54#8, 0x2D#8]
def dataLabel : List Byte := vaultLabel ++ [0x44#8, 0x41#8, 0x54#8, 0x41#8]
def tweakLabel : List Byte := vaultLabel ++ [0x54#8, 0x57#8, 0x45#8, 0x41#8, 0x4B#8]

/-- K1 and K2 as Umber forms them at a start (R496). -/
def formKeys (s : State) : List Byte × List Byte :=
  let salt := s.sec.salt.getD []
  (hmac (idSeedOf s) (dataLabel ++ salt), hmac (idSeedOf s) (tweakLabel ++ salt))

/-- The keys that the cipher unit of the save-flash controller holds. -/
def vaultKeys (s : State) : List Byte × List Byte := s.sec.vaultKeys.getD ([], [])

/-- SHA-256 of the salt in force. -/
def saltHash (s : State) : List Byte := sha256 (s.sec.salt.getD [])

/-- A data unit of an image. -/
def unitOf (bs : List Byte) : List Byte := slice bs 0 4096

/-- The header of an image (R497). -/
def vaultHeader (seq npage : Nat) (salth : List Byte) : List Byte :=
  unitOf (leBytes 4 0x4B564831 ++ leBytes 4 seq ++ leBytes 4 npage ++ leBytes 4 (cdiv (32 * npage) 4096) ++ salth)

/-- The index entry of a page (R497). -/
def vaultEntry (p : Nat × BufPage) : List Byte := leBytes 32 (keyNs p.1 + at_ 16 (keyPage p.1) + at_ 64 p.2.mask.toNat)

/-- Data units encrypted under their numbers in the slot, from `n` on (R496). -/
def sealUnits (k : List Byte × List Byte) : Nat → List (List Byte) → List Byte
  | _, [] => []
  | n, u :: us => xtsEnc k.1 k.2 n u ++ sealUnits k (n + 1) us

/-- An image as it is stored: header, index units, page units, trailer (R497). -/
def sealImage (k : List Byte × List Byte) (salth : List Byte) (seq : Nat) (ps : List (Nat × BufPage)) (data : List (List Byte)) : List Byte :=
  let nidx := cdiv (32 * ps.length) 4096
  let index := (List.range nidx).map (fun i => unitOf (((ps.drop (128 * i)).take 128).map vaultEntry).flatten)
  let body := vaultHeader seq ps.length salth ++ sealUnits k 1 (index ++ data)
  body ++ unitOf (leBytes 4 0x4B565431 ++ leBytes 4 seq ++ sha256 body)

/-- Fields of a stored image (R497): SEQ, NPAGE, NIDX, and where its trailer begins. -/
def imageSeq (im : List Byte) : Nat := leAt im 4 4
def imagePages (im : List Byte) : Nat := leAt im 8 4
def imageIdx (im : List Byte) : Nat := leAt im 12 4
def imageEnd (im : List Byte) : Nat := 4096 * (1 + imageIdx im + imagePages im)

/-- An image is valid (R497). -/
def imageValid (s : State) (im : List Byte) : Bool :=
  let n := imageEnd im
  decide (leAt im 0 4 = 0x4B564831) && decide (leAt im n 4 = 0x4B565431) && decide (imageSeq im = leAt im (n + 4) 4) &&
    decide (slice im 16 32 = saltHash s) && decide (slice im (n + 8) 32 = sha256 (slice im 0 n))

/-- The valid image with the highest SEQ, with its slot; the stored bytes of the slots `bad` cannot be relied on (R416, R497). -/
def newestImage (s : State) (bad : List Nat) : Option (Nat × List Byte) :=
  (s.saf.images.filter (fun i => !bad.contains i.1 && imageValid s i.2)).foldl (fun (m : Option (Nat × List Byte)) i => match m with
    | none => some i
    | some x => if imageSeq x.2 < imageSeq i.2 then some i else some x) none

/-- The SEQ of the next image (R497). -/
def nextImageSeq (s : State) : Nat := ((newestImage s []).map (fun i => imageSeq i.2)).getD 0 + 1

/-- The bytes of a page as a save reads them. An image has no place for a poison mark; what it holds of a poisoned line is open
(DESIGN CHOICE; log 154). -/
def savedPage (s : State) (p : BufPage) : State × List Byte :=
  let a := bufBase + 4096 * p.slot
  let (s1, bs, ps) := lakeRead s a 4096
  ps.foldl (fun (x : State × List Byte) l =>
    let n := x.1.freeCtr
    let off := 64 * l - a
    ({ x.1 with freeCtr := n + 8 }, x.2.take off ++ ((List.range 8).map (fun i => leBytes 8 (Config.freeWord (n + i)).toNat)).flatten ++ x.2.drop (off + 64))) (s1, bs)

/-- t2 and t3 of a save (R415): the image is written to the slot after that of the newest valid image (R414). -/
def writeImage (s : State) : State :=
  let slot := (s.saf.newest + 1) % 8
  let (s1, data) := s.saf.pages.foldl (fun (x : State × List (List Byte)) p => let (t, bs) := savedPage x.1 p.2; (t, x.2 ++ [bs])) (s, [])
  let im := sealImage (vaultKeys s) (saltHash s) (nextImageSeq s) s.saf.pages data
  { s1.count SAFF_SAVES with saf := { s.saf with images := mset s.saf.images slot im, newest := slot, vstate := 0, erased := false } }

/-- One page of an image comes back into the buffer: its key, its sectors, its bytes. -/
def restorePage (s : State) (p : Nat × BitVec 8 × List Byte) : State :=
  let slot := freeBufSlot s
  let s1 := (lakeWrite s (bufBase + 4096 * slot) p.2.2).1
  { s1 with saf := { s1.saf with pages := mset s1.saf.pages p.1 { slot := slot, mask := p.2.1, ver := s1.saf.nextVer }, nextVer := s1.saf.nextVer + 1 } }

/-- The pages of a stored image, decrypted (R496, R497). -/
def openImage (k : List Byte × List Byte) (im : List Byte) : List (Nat × BitVec 8 × List Byte) :=
  let plain (n : Nat) : List Byte := xtsDec k.1 k.2 n (slice im (4096 * n) 4096)
  (List.range (imagePages im)).map (fun i =>
    let e := leAt (plain (1 + i / 128)) (32 * (i % 128)) 32
    (pageKey (e % 32768) (e / 65536 % 2 ^ 48), BitVec.ofNat 8 (e / 2 ^ 64), plain (1 + imageIdx im + i)))

/-- The vault is restored (R416): the newest valid image is loaded, and its slot erased. -/
def restoreVault (s : State) (bad : List Nat) : State :=
  match newestImage s bad with
  | none => s
  | some (k, im) =>
    let s1 := (openImage (vaultKeys s) im).foldl restorePage s
    { s1 with saf := { s1.saf with images := mdel s1.saf.images k, newest := k, restored := true } }

/-- At a start an erase that was cut short ends (R482), the salt is drawn when none exists, and the vault's keys are formed (R496). -/
def startKeys (s : State) : State :=
  let s1 : State := if s.sec.erasePending then { s with sec := { s.sec with erasePending := false, salt := none }, saf := { s.saf with images := [] } } else s
  let s2 : State := match s1.sec.salt with
    | some _ => s1
    | none =>
      let (e, s2) := s1.entropy
      { s2 with sec := { s2.sec with salt := some (leBytes 32 e.toNat) } }
  { s2 with sec := { s2.sec with vaultKeys := some (formKeys s2) } }

end Sys2Proof.Machine
end

