-- ==== Sys2Proof/Machine/Umb.lean ====
section
/-! DEFINITION. Umber's operations: what a reset keeps, rails off, warm reset, emergency shutdown (R507, R508, R529 to R531,
R544, R551). -/

namespace Sys2Proof.Machine

open Sys2Proof

/-- Umber notes the last guaranteed operation, numbered in the order of R507 (R523). -/
def guarded (s : State) (n : Nat) : State := { s with rel := { s.rel with guardOp := n } }

/-- What every reset keeps (R530): fuses and boot flash, boot banks, save-flash images, the retirement map and what it says of
the units, namespaces, cartridges as they are fitted, and what stands outside the module. Everything else is at its reset value. -/
def keptState (s : State) : State := {
  pending := s.pending
  freeCtr := s.freeCtr
  out := s.out
  pal := { banks := s.pal.banks, active := s.pal.active }
  sec := { s.sec with nonce := none, keys := [], vaultKeys := none, entOk := false, engines := 0, erasing := false }
  umb := s.umb
  fab := {
    xOffset := s.fab.xOffset
    units := mmap s.fab.units (fun i u => { u with world := unitSecure i })
    journal := s.fab.journal
    clusters := mmap s.fab.clusters (fun _ k => { banks := k.banks &&& ~~~k.retireBanks })
    engines := mmap s.fab.engines (fun _ e => { row0 := e.row0, row1 := e.row1, col0 := e.col0, col1 := e.col1, half := e.half })
    regions := mmap s.fab.regions (fun _ r => { offset := r.offset, vset := r.vset, rstate := if r.rstate = .retired then .retired else .off }) }
  lake := { stk := mmap s.lake.stk (fun _ k => { k with tref := [], trefNext := [], tj := [] }) }
  rel := {
    verd := mmap s.rel.verd (fun _ v => { vstate := if v.vstate = 2 then b2n (decide (v.tmax < 100)) else v.vstate, tmax := v.tmax, badSensors := v.badSensors })
    rmap := s.rel.rmap, gen := s.rel.gen, copyA := s.rel.copyA, copyB := s.rel.copyB, guardOp := s.rel.guardOp }
  saf := {
    nss := mmap s.saf.nss (fun _ n => { n with ready := false, deleting := none })
    images := s.saf.images, newest := s.saf.newest }
  ap := { ports := mmap s.ap.ports (fun _ p => { present := p.present }) }
  net := {
    eth := mmap s.net.eth (fun _ p => { deadHalf := p.deadHalf })
    carts := mmap s.net.carts (fun _ k => { latch := k.latch, data := k.data, retired := k.retired, chours := k.chours, cstate := if k.latch && k.data.isSome then 1 else 0 })
    removed := s.net.removed } }

/-- The rails go off: Umber stays in standby, with what it measures, the trouble counters and the tamper causes, which the next
fundamental reset clears (R530, R544, R550). -/
def railsOff (s : State) : State :=
  let k := keptState s
  { k with
    fab := { k.fab with trouble := s.fab.trouble }
    umb := { nodeFlash := s.umb.nodeFlash, sizeFlash := s.umb.sizeFlash, lim := s.umb.lim, emerg := s.umb.emerg, lastShut := s.umb.lastShut
             barred := s.umb.barred, allowed := s.umb.allowed, retried := s.umb.retried, lastReset := s.umb.lastReset
             sizeLast := s.umb.sizeLast, sizePending := s.umb.sizePending, sizeRefused := s.umb.sizeRefused } }

/-- w2 of a warm reset: every unit except Umber is held in reset; trouble counters, local time, Ethernet timestamps and the count of region resets (R35) go on
(R529, R530). -/
def warmClear (s : State) : State :=
  let k := keptState s
  { k with
    fab := { k.fab with trouble := s.fab.trouble, time := s.fab.time, regions := mmap s.fab.regions (fun i r => { mgetD k.fab.regions i {} with resets := r.resets }) }
    umb := { s.umb with warming := none, phase := 9 }
    net := { k.net with eth := mmap s.net.eth (fun _ p => { deadHalf := p.deadHalf, ts32 := p.ts32, tsAt := p.tsAt, latched := p.latched }) } }

/-- Both host links go down and their ports are held in reset (R529, R540). -/
def holdHosts (s : State) : State :=
  { s with host := { s.host with ports := mset (mset s.host.ports 0 {}) 1 {}, fns := mmap s.host.fns (fun _ f => { f with bme := false }) } }

/-- Umber drives PWRGD (R540). -/
def powerGood (s : State) (level : Nat) : State := s.emit (.pin "PWRGD" level)

/-- DATA of a map entry of KIND 4: LAKE_STK_STATE [31:16] (R103). -/
def stackWord (k : Stack) : Nat := k.spareFor.getD 0xF + at_ 4 (b2n k.spareReady) + at_ 5 (b2n k.checkOk) + at_ 8 k.lost

/-- IND_REPAIR (R182). -/
def repairWord (e : Eng) : Nat :=
  let field (lo : Nat) (x : Option Nat) : Nat := match x with
    | some n => at_ lo (n + 64)
    | none => 0
  field 0 e.row0 + field 8 e.row1 + field 16 e.col0 + field 24 e.col1

/-- IND_STATE [2:0] of a unit that serves (R181). -/
def arrayWord (s : State) (c : Nat) (e : Eng) : Nat :=
  if s.retired (engUnit c false) then 3 else match e.half with
    | some h => 2 + at_ 2 (b2n h)
    | none => 1

/-- One entry of the retirement map (R514). -/
def mapEntry (unit state : Nat) (standsFor : Option Nat) (kind data : Nat) : BitVec 128 :=
  BitVec.ofNat 128 (unit + at_ 16 state + at_ 18 (b2n standsFor.isSome) + at_ 32 (standsFor.getD 0) + at_ 48 kind + at_ 64 (data % 2 ^ 32))

def UState.code : UState → Nat
  | .inService => 1
  | .spare => 2
  | .retired => 3

/-- The entries of a unit: its state, and what its KIND carries: an engine's repairs, a region's offset and TMAX under the region
control's ID, a stack's roles under the ID of its die 0 (R514; log 81). -/
def mapEntries (s : State) (u : Nat) : List (BitVec 128) :=
  let x := s.unit u
  let entry (kind data : Nat) : BitVec 128 := mapEntry u x.state.code x.standsFor kind data
  let d := unitDomain u
  let g := unitGroup u
  let i := unitIndex u
  [entry 0 0] ++
    (if d < 16 ∧ g < 4 ∧ i = 16 then
      [entry 1 (repairWord (s.eng (4 * d + g) false)), entry 2 (arrayWord s (4 * d + g) (s.eng (4 * d + g) false))]
    else if d < 16 ∧ g = 7 then [entry 3 ((s.rgn d).offset % 256 + at_ 8 (mgetD s.rel.verd d {}).tmax)]
    else if d < 16 ∧ (g = 8 ∨ g = 9) ∧ i = 0 then [entry 4 (stackWord (s.stack (2 * d + (g - 8))))]
    else [])

/-- Units that the map names, by rising ID: those it named before and those of the journal. A stack's entry goes with any of its
dies. -/
def mapUnits (s : State) : List Nat :=
  let named := s.rel.rmap.map (fun e => bn e 15 0)
  let dies := s.fab.journal.filterMap (fun u => if unitDomain u < 16 ∧ (unitGroup u = 8 ∨ unitGroup u = 9) then some (u - unitIndex u) else none)
  ((named ++ s.fab.journal ++ dies).mergeSort (fun a b => decide (a ≤ b))).dedup

/-- The retirement map as it is now; units of a cartridge follow the cartridge that is fitted (R319, R514). -/
def buildMap (s : State) : List (BitVec 128) := ((mapUnits s).map (mapEntries s)).flatten

/-- The retirement journal is written into both copies of the map (R514). -/
def flushJournal (s : State) : State :=
  if s.fab.journal.isEmpty then s
  else { s with
    fab := { s.fab with journal := [] }
    rel := { s.rel with rmap := buildMap s, gen := (s.rel.gen + 1) % 2 ^ 32, copyA := true, copyB := true } }

/-- An emergency shutdown or the loss of the main input, by its LASTSHUT code (R415, R507, R544, R551). A START write is needed
after every cause but the loss of the main input (R550). -/
def shutdown (s : State) (code : Nat) : State :=
  if s.umb.phase = 0 ∨ s.umb.shutting = true then s
  else
    let s1 := guarded (powerGood (holdHosts s) 0) 1
    let s2 : State := { s1 with umb := { s1.umb with shutting := true, lastShut := code, warming := none, barred := decide (code ≠ 5), allowed := false } }
    if s2.saf.vstate = 2 then s2
    else if safArmed s2 then saveStart s2
    else railsOff (flushJournal s2)

/-- A warm reset by its LASTRESET code (R529): w0, and the vault save of w1, or w2 at once. A second cause merges (R531). RCAUSE 2 is kept
until the map is valid again. -/
def warmReset (s : State) (code : Nat) (save : Bool) : State :=
  if s.umb.phase = 0 ∨ s.umb.phase = 9 ∨ s.umb.shutting = true then s
  else
    let s1 := powerGood (holdHosts s) 0
    let s2 : State := { s1 with umb := { s1.umb with phase := 9, lastReset := code, warms := min 65535 (s1.umb.warms + 1), rcause := if s1.umb.rcause = 2 then 2 else 0, warming := some code } }
    if save && safArmed s2 then guarded (saveStart s2) 7 else warmClear s2

/-- A package fault (R508, R511). -/
def packageFault (s : State) : State := warmReset s 2 true

/-- t3 of R415: the image is valid, and power is released, or the warm reset goes on (R529). -/
def execVaultSaveDone (s : State) : Host.Outcome State Fault Refusal :=
  if s.saf.vstate ≠ 2 then next s
  else
    let s1 := writeImage s
    next (if s1.umb.shutting then railsOff (flushJournal s1) else if s1.umb.warming.isSome then warmClear s1 else s1)

/-- What waits for the end of an Umber restart (R508): emergency shutdowns by their LASTSHUT code, warm resets by 16 plus their
LASTRESET code. -/
def umberDo (s : State) (n : Nat) : State := if n < 16 then shutdown s n else warmReset s (n - 16) true

/-- Umber starts an operation, or keeps it for the end of its restart (R508). -/
def umberOp (s : State) (n : Nat) : State :=
  if s.umb.restarting then (if s.umb.waiting.contains n then s else { s with umb := { s.umb with waiting := s.umb.waiting ++ [n] } }) else umberDo s n

end Sys2Proof.Machine
end

