-- ==== Sys2Proof/Machine/Units.lean ====
section
/-! DEFINITION. Units and regions: retirement of every kind of unit (R21, R24, R153, R178, R511), cluster and region resets (R21
to R24, R288), retirement of a region (R512), freed pages and dies (R85, R97), the system size (R95, R528). -/

namespace Sys2Proof.Machine

open Sys2Proof

/-! Kinds of units. -/

/-- The cluster of a cluster's unit, the stack of a DRAM die (R13, R15). -/
def unitCluster (u : Nat) : Option Nat := if unitDomain u < 16 ∧ unitGroup u < 4 then some (4 * unitDomain u + unitGroup u) else none
def unitStack (u : Nat) : Option Nat :=
  if unitDomain u < 16 ∧ (unitGroup u = 8 ∨ unitGroup u = 9) then some (2 * unitDomain u + (unitGroup u - 8)) else none

/-- A unit of a region that is in no cluster and no stack (R15). -/
def unitRegion (u : Nat) : Option Nat := if unitDomain u < 16 ∧ 4 ≤ unitGroup u ∧ unitGroup u < 8 then some (unitDomain u) else none

/-- The accelerator port of a lane, the Ethernet port of a MAC and PCS (R15, R16). -/
def unitAp (u : Nat) : Option Nat :=
  if (unitDomain u = 16 ∨ unitDomain u = 17) ∧ 4 ≤ unitGroup u ∧ unitGroup u < 8 then some (4 * (unitDomain u - 16) + (unitGroup u - 4)) else none
def unitEth (u : Nat) : Option Nat :=
  if (unitDomain u = 16 ∨ unitDomain u = 17) ∧ unitGroup u = 13 then some (32 * (unitDomain u - 16) + unitIndex u) else none

/-- An X-die block without a spare (R511): a unit of an X-die that is no lane and no Ethernet port. -/
def unitXBlock (u : Nat) : Bool := (unitDomain u == 16 || unitDomain u == 17) && (unitAp u).isNone && (unitEth u).isNone

/-! Die-to-die links (R39, R511). -/

/-- Lanes of a group of 16 that are retired, its spare among them. The manual does not number the groups: the model takes data lanes 16g
to 16g + 15 with spare lane 96 + g (DESIGN CHOICE, unsafe; log 140). -/
def groupLost (s : State) (link g : Nat) : Nat :=
  (((List.range 16).map (16 * g + ·) ++ [96 + g]).filter (fun l => s.retired (unitId 20 link l))).length

/-- A link is up with three whole groups or more. -/
def d2dUp (s : State) (link : Nat) : Bool := decide (3 ≤ ((List.range 6).filter (fun g => decide (groupLost s link g ≤ 1))).length)

/-- A C-die reaches an X-die by its own link, or through the C-die ring. -/
def dieReaches (s : State) (n x : Nat) : Bool :=
  d2dUp s (4 * x + n) || (d2dUp s (8 + n) && d2dUp s (4 * x + (n + 1) % 4)) || (d2dUp s (8 + (n + 3) % 4) && d2dUp s (4 * x + (n + 3) % 4))

def allReach (s : State) : Bool := (List.range 4).all (fun n => dieReaches s n 0 && dieReaches s n 1)

/-! Retirement. -/

/-- A planned retirement whose unit is retired is answered (R521). -/
def answerPlanned (s : State) : State :=
  let done := s.rel.planned.filter (fun p => s.retired p.1)
  done.foldl (fun s p => replyTo s p.2 { status := .success }) { s with rel := { s.rel with planned := s.rel.planned.filter (fun p => !s.retired p.1) } }

/-- Every allocated local page on a region's two stacks, in the order of R556 within each role (R512). -/
def regionPages (s : State) (r : Nat) : List Nat :=
  ([2 * r, 2 * r + 1].map (fun k => ((List.range 12).map (fun d => pagesOnDie s k d)).flatten)).flatten

/-- t0 to t2 of R512: the clusters are retired, and Lake moves the pages of the region's stacks. When the region has stopped its
pages are not moved: those that no stripe restores are poisoned. -/
def retireRegion (s : State) (r : Nat) (stopped : Bool) : State :=
  let g := s.rgn r
  if g.rstate = .retired ∨ g.retiring ≠ 0 then s
  else
    let v := mgetD s.rel.verd r {}
    let s1 : State := { s with rel := { s.rel with event := s.rel.event ||| 4#5, verd := mset s.rel.verd r { v with vstate := 2 } } }
    let s2 := [4 * r, 4 * r + 1, 4 * r + 2, 4 * r + 3].foldl (fun s c => if (s.cl c).cstate = .retired then s else retireCluster s c) (s1.setRgn r { g with retiring := 1 })
    let pages := regionPages s2 r
    if stopped then
      poisonPages (s2.setRgn r { s2.rgn r with retiring := 2 }) (pages.filter (fun lp => match regionAt s2 (lp * pageBytes) 1 with
        | some (_, d) => !d.prot
        | none => true))
    else
      let moving := s2.lake.moves.map (·.page) ++ s2.lake.degraded.map (·.1)
      startMoves (.regionRetire r) (pages.filter (fun p => !moving.contains p)) (redirectMoves s2 (fun pp => decide (ppStack pp / 2 = r)))

/-- A core, bank, engine or codec is retired; during a reset of its cluster or region the retirement waits (R24, R139). -/
def retireInCluster (s : State) (c i : Nat) (planned : Bool) (lost : List Nat) : State :=
  let k := s.cl c
  if k.cstate = .resetting ∨ (s.rgn (clRegion c)).rstate = .resetting then s.setCl c { k with deferred := k.deferred ++ [clUnit c i] }
  else if i ≤ 8 then checkCluster (retireCore s c i planned lost) c
  else if i = 16 then retireEngine s c false
  else if i = 17 then retireEngine s c true
  else if 32 ≤ i ∧ i ≤ 47 then s.setCl c { k with retireBanks := k.retireBanks ||| BitVec.ofNat 16 (2 ^ (i - 32)) }
  else if i = 48 then
    let hit := s.vat.sets.filter (fun p => decide (p.1 < 1024 * (c + 1)) && decide (1024 * c < p.1 + p.2) && (s.slot 0xA p.1).live)
    hit.foldl (fun s p => destroyStart s 0xA p.1 0 false) (markRetired s (clUnit c 48))
  else retireCluster (markRetired s (clUnit c i)) c

/-- A stack with fewer than 8 data dies is retired: every role that is left is lost (R511). -/
def checkStack (s : State) (k : Nat) : State :=
  if (s.stack k).lost ≤ 4 then s
  else (List.range 13).foldl (fun s d => if roleOn (s.stack k) d then
      (let die := carrier (s.stack k) d
       let s1 := markRetired s (dieUnit k die)
       let x := s1.stack k
       loseRole (s1.setStack k { x with dieOn := x.dieOn &&& ~~~(BitVec.ofNat 14 (2 ^ die)), spareFor := if die = 13 then none else x.spareFor }) k d) else s) s

/-- An accelerator-port lane is retired: a port that uses it changes lanes (R296), and one with fewer than 32 is retired. -/
def retireApLane (s : State) (p l : Nat) : State :=
  let s1 := markRetired s (laneUnit p l)
  let x := s1.port p
  if (livingLanes s1 p).length < 32 then portDown s1 p 1
  else if x.up && x.lanes.contains l then fastRetrain s1 p else s1

/-- A unit of an optical engine is retired (R511): a lane darkens its half-port for good; an emitter; the controller. -/
def retireOptic (s : State) (e i : Nat) : State :=
  if i < 32 then
    let p := 4 * e + i / 8
    let s1 := markRetired s (unitId 18 e i)
    let x := s1.eth p
    let s2 := s1.setEth p { x with deadHalf := x.deadHalf ||| BitVec.ofNat 2 (2 ^ (i / 4 % 2)) }
    if (s2.eth p).deadHalf = 3#2 then (flushPort s2 p).setEth p { s2.eth p with lstate := 5, cause := 2 } else relight s2 p
  else if i < 44 then retireEmitter s e (i - 32)
  else
    let s1 := markRetired s (unitId 18 e i)
    enginePortsDown (s1.setCart e { s1.cart e with cstate := 5 }) e 3

/-- The region whose reset holds the retirement of a DRAM die or of one of its own units back (R24); units of clusters have theirs. -/
def heldByReset (s : State) (u : Nat) : Option Nat :=
  if unitDomain u < 16 ∧ 4 ≤ unitGroup u ∧ (s.rgn (unitDomain u)).rstate = .resetting then some (unitDomain u) else none

/-- Retires a unit (R21, R511): planned, or by a fault, of which `lost` are the dirty lines that cannot be read (R154). A unit
that is retired already stays so; one of a region in reset waits for its end (R24). -/
def retireUnit (s : State) (u : Nat) (planned : Bool) (lost : List Nat) : State :=
  if s.retired u ∨ unitValid u = false then s
  else match heldByReset s u with
  | some r =>
    let g := s.rgn r
    s.setRgn r { g with deferred := if g.deferred.contains u then g.deferred else g.deferred ++ [u] }
  | none =>
    let s1 := match unitCluster u with
      | some c => retireInCluster s c (unitIndex u) planned lost
      | none => match unitStack u with
        | some k => checkStack (retireDie (s.note u) k (unitIndex u)) k
        | none => match unitRegion u with
          | some r => retireRegion (markRetired s u) r (!planned)
          | none => match unitAp u with
            | some p => retireApLane s p (unitIndex u)
            | none => match unitEth u with
              | some p => (flushPort (markRetired s u) p).setEth p { s.eth p with lstate := 5 }
              | none =>
                if unitXBlock u then packageFault (markRetired s u)
                else if unitDomain u = 18 then retireOptic s (unitGroup u) (unitIndex u)
                else if unitDomain u = 20 then
                  let s1 := markRetired s u
                  let g := if unitIndex u < 96 then unitIndex u / 16 else unitIndex u - 96
                  let spare := unitId 20 (unitGroup u) (96 + g)
                  let s2 := if unitIndex u < 96 ∧ (s1.unit spare).state = .spare then standIn s1 spare u else s1
                  if allReach s2 then s2 else packageFault s2
                else markRetired s u
    answerPlanned s1

/-- Rebalances none of whose pages is left to move complete their commands (R92). -/
def settleRebalances (s : State) : State :=
  s.lake.rebalances.foldl (fun s b => if s.lake.moves.any (fun m => decide (m.why = .rebalance b.region)) then s else finishRebalance s b.region) s

/-- After units have changed, what waits for them goes on. -/
def afterUnit (s : State) : State := safSettle (afterPort (settleRebalances s))

/-- A DRAM die is retired (R97). -/
def execDieRetirement (stack die : Nat) (s : State) : Host.Outcome State Fault Refusal :=
  if 32 ≤ stack ∨ 14 ≤ die then next s else next (afterUnit (retireUnit s (dieUnit stack die) true []))

/-! Resets of clusters and regions. -/

/-- The end of a cluster reset (R21, R24, R139, R155): retirements that waited take effect, the present cores are renumbered, the
cluster is handed over, gated, or opens its queues. -/
def clusterBack (s : State) (c : Nat) : State :=
  let k := s.cl c
  let s1 := s.setCl c { k with cstate := .inService, deferred := [] }
  let s2 := k.deferred.foldl (fun s u => retireUnit s u false []) s1
  let s3 := answerPlanned (checkCluster (renumber (retireBanks s2 c) c) c)
  let k3 := s3.cl c
  if k3.cstate = .retired then s3
  else
    let s4 := s3.setCl c { k3 with cstate := if k3.gateWanted then .gated else .inService, gateWanted := false }
    let s5 := match k3.reclaim with
      | some r => if r.stopped then handOver s4 c else s4
      | none => s4
    acceptRing (acceptRing s5 c false) c true

/-- A cluster reset ends (R21, R24). -/
def execClusterResetDone (cluster : Nat) (s : State) : Host.Outcome State Fault Refusal :=
  if (s.cl cluster).cstate ≠ .resetting ∨ (s.rgn (clRegion cluster)).rstate = .resetting then next s else next (afterUnit (clusterBack s cluster))

/-- Contexts of a slice that cannot be written back put their connections in ERROR (R288); the others leave the die. -/
def sliceOff (s : State) (r : Nat) (lost : List Nat) : State :=
  let s1 := (lost.filter (fun i => i % 16 == r)).foldl (fun s i => connError s i .unitFault) s
  { s1 with carm := { s1.carm with conns := mmap s1.carm.conns (fun i c => if i % 16 = r ∧ c.tier = .die then { c with tier := .near, fetching := false } else c) } }

/-- A region reset begins (R21, R24): its clusters are reset, and its slices stop. A second request merges; after a reset that
has missed its bound it begins another (R511). Umber does it as a guaranteed operation (R507). `lost` are the contexts that cannot be
written back and, by 2^48 plus their addresses, the dirty lines of cores that cannot be read (R154; log 57). -/
def execRegionReset (region : Nat) (umber : Bool) (lost : List Nat) (s : State) : Host.Outcome State Fault Refusal :=
  let g := s.rgn region
  let late := decide (g.rstate = .resetting) && decide (g.missed ≠ 0) && decide (5000000 ≤ s.now - g.since)
  if 16 ≤ region ∨ (g.rstate ≠ .inService ∧ late = false) then next s
  else
    let dirty := (lost.filter (fun i => decide (2 ^ 48 ≤ i))).map (· - 2 ^ 48)
    let s1 := s.setRgn region { g with rstate := .resetting, resets := min 255 (g.resets + 1), since := s.now }
    let s2 := [4 * region, 4 * region + 1, 4 * region + 2, 4 * region + 3].foldl (fun s c => if (s.cl c).cstate = .retired then s else resetCluster s c dirty) s1
    let s3 := sliceOff s2 region (lost.filter (fun i => decide (i < 2 ^ 48)))
    next (afterUnit (if umber then guarded s3 8 else s3))

/-- A region returns from its reset (R23, R100, R288): its clusters, its pinned contexts, and what waited. -/
def execRegionResetDone (region : Nat) (s : State) : Host.Outcome State Fault Refusal :=
  let g := s.rgn region
  if g.rstate ≠ .resetting then next s
  else
    let s0 := s.setRgn region { g with rstate := .inService, deferred := [], missed := if s.now - g.since ≤ 5000000 then 0 else g.missed }
    let s1 := g.deferred.foldl (fun s u => retireUnit s u false []) { s0 with lake := { s0.lake with blocked := s0.lake.blocked.filter (fun b => b.1 != region) } }
    let s2 := [4 * region, 4 * region + 1, 4 * region + 2, 4 * region + 3].foldl (fun s c => if (s.cl c).cstate = .resetting then clusterBack s c else s) s1
    let pins := (s2.carm.conns.filter (fun c => c.1 % 16 == region && c.2.tc == 0 && decide (c.2.tier = .near))).map (·.1)
    next (afterUnit (sendCloses (pins.foldl bringOnDie s2)))

/-- An access that waits for a region fails with the region-unavailable status (R23): a job completes, a core or a message sees the
failure where the access stands. -/
def failRegion (s : State) (w : Work) : State :=
  match w, w.key with
  | .job id, _ => completeJob s id .regionUnavailable 0 0
  | _, some k => { s with ap := { s.ap with failed := mset s.ap.failed k .regionUnavailable } }
  | _, none => s

/-- The writes that wait for a region are given up: their jobs complete with the region-unavailable status (R23). -/
def dropHeld (s : State) (r : Nat) : State :=
  let mine (h : Held) : Bool := decide (ppStack (mgetD s.lake.pageOf (h.addr / pageBytes) 0) / 2 = r) && pageWaits s h.addr
  let gone := s.lake.held.filter mine
  gone.foldl (fun s h => match h.work.bind Work.key with
    | some k => { s with ap := { s.ap with failed := mset s.ap.failed k .regionUnavailable } }
    | none => s) { s with lake := { s.lake with held := s.lake.held.filter (fun h => !mine h) } }

/-- A region misses its reset bound (R23): the work that waits for it completes with the region-unavailable status. The second
miss in a row retires the region (R511, R512). `waiting` are jobs of blocks whose accesses the model does not follow one by one
(log 57); the others are noted as they wait. -/
def execRegionResetTimeout (region : Nat) (waiting : List Nat) (s : State) : Host.Outcome State Fault Refusal :=
  let g := s.rgn region
  if g.rstate ≠ .resetting then next s
  else
    let cs := [4 * region, 4 * region + 1, 4 * region + 2, 4 * region + 3]
    let s0 := dropHeld (s.setRgn region { g with missed := g.missed + 1 }) region
    let noted := (s0.lake.blocked.filter (fun b => b.1 == region)).map (·.2)
    let s1 := (waiting.map Work.job ++ noted).foldl failRegion { s0 with lake := { s0.lake with blocked := s0.lake.blocked.filter (fun b => b.1 != region) } }
    let s2 := cs.foldl (fun s c => failQueued (failQueued s c false .regionUnavailable) c true .regionUnavailable) s1
    next (afterUnit (if g.missed + 1 < 2 then s2 else retireRegion s2 region true))

/-- t3 of R512: the pages have moved, the connections of the slice enter ERROR, stacks and slices are retired. -/
def execRegionRetireDone (region : Nat) (s : State) : Host.Outcome State Fault Refusal :=
  let g := s.rgn region
  if g.retiring = 0 ∨ g.rstate = .retired then next s
  else if g.retiring = 1 ∧ s.lake.moves.any (fun m => decide (m.why = .regionRetire region)) = true then next s
  else
    let s1 := (s.carm.conns.filter (fun c => c.1 % 16 == region)).foldl (fun s c => connError s c.1 .unitFault) s
    let off (s : State) (k : Nat) : State := stackOff (s.note (dieUnit k 0)) k
    let s2 := [4, 5, 6, 7].foldl (fun s q => markRetired s (unitId region q 0)) (off (off s1 (2 * region)) (2 * region + 1))
    let v := mgetD s2.rel.verd region {}
    let s3 : State := { s2 with rel := { s2.rel with verd := mset s2.rel.verd region { v with vstate := 3 } } }
    let s4 := s3.setRgn region { s3.rgn region with rstate := .retired }
    let x := ((List.range 16).find? (fun r => decide ((s4.rgn r).rstate ≠ .retired))).getD 0
    next (afterUnit (answerPlanned { s4 with fab := { s4.fab with xRegion := x } }))

/-! Pages and the system size. -/

/-- Reserve pages that hold no parity share go back to the pool, `n` at most, from the end of each run (R95). -/
def shrinkReserve (s : State) (n : Nat) : State :=
  let taken (lp : Nat) : Bool := s.par.groups.any (fun g => g.2.share.any (fun r => decide (r.1 ≤ lp) && decide (lp < r.1 + r.2)))
  let step (a : State × Nat) (f : FwRegion) : State × Nat :=
    let first := f.base / pageBytes
    let used := ((List.range f.pages).filter (fun i => taken (first + i))).foldl (fun m i => max m (i + 1)) 0
    let give := min a.2 (f.pages - used)
    if give = 0 then a
    else
      let keep := f.pages - give
      let fw := if keep = 0 then a.1.lake.fw.erase f else a.1.lake.fw.map (fun x => if x = f then { x with pages := keep } else x)
      (releasePages { a.1 with lake := { a.1.lake with fw := fw } } (first + keep) give, a.2 - give)
  ((s.lake.fw.filter (fun f => decide (f.kind = .reserve))).reverse.foldl step (s, n)).1

/-- Applies a system size (R95, R528): the reserve is withheld or given back; none when the pool lacks the pages. -/
def applySize (s : State) (size : Nat) : Option State :=
  let need := reservePages (max 1 size)
  let have_ := ((s.lake.fw.filter (fun f => decide (f.kind = .reserve))).map (·.pages)).sum
  let set (s : State) : State := { s with fab := { s.fab with size := size } }
  if need ≤ have_ then some (set (shrinkReserve s (have_ - need))) else (takeFwRegion s .reserve (need - have_)).map set

/-- Firmware applies the size last written, or notes that the pool lacks pages and logs it (R528). -/
def trySize (s : State) (logIt : Bool) : State :=
  match applySize s s.umb.sizeLast with
  | some s1 => { s1 with umb := { s1.umb with sizePending := false, sizeRefused := false } }
  | none =>
    let have_ := ((s.lake.fw.filter (fun f => decide (f.kind = .reserve))).map (·.pages)).sum
    let lack := reservePages (max 1 s.umb.sizeLast) - have_ - freePages s
    let s1 : State := { s with umb := { s.umb with sizePending := false, sizeRefused := true } }
    if logIt then s1.event none 0x12 (s.umb.sizeLast % 65536 + at_ 16 (lack % 2 ^ 32)) else s1

/-- Firmware applies a system size written after t6 (R528). -/
def execSystemSizeApply (s : State) : Host.Outcome State Fault Refusal :=
  if s.umb.sizePending = true ∧ s.umb.phase = 7 then next (trySize s true) else next s

/-- A freed page has been zeroed and returns to the pool (R85): degraded pages move (R99), and a size that was refused is tried
again (R528). -/
def execPageZeroingDone (s : State) : Host.Outcome State Fault Refusal :=
  match s.lake.zeroing with
  | [] => next s
  | pp :: rest =>
    let s1 : State := { s with lake := { s.lake with
      zeroing := rest
      poison := s.lake.poison.filter (fun p => decide (p.1 / 32768 ≠ pp))
      badSym := s.lake.badSym.filter (fun p => decide (p.1 / 32768 ≠ pp)) } }
    let s2 := retryDegraded s1
    next (if s2.umb.sizeRefused then trySize s2 false else s2)

end Sys2Proof.Machine
end

