-- ==== Sys2Proof/Machine/Start.lean ====
section
/-! DEFINITION. Bring-up (R525 to R528), recovery (R532, R533), and the management bus's writes (R546). -/

namespace Sys2Proof.Machine

open Sys2Proof

/-- Tests run at a start (R513): both X-dies twice, the spare lanes of the die-to-die links, and every region and cluster that is not
retired. -/
def startTests (s : State) : Nat :=
  4 + ((List.range 12).map (fun l => ((List.range 102).filter (fun i => decide ((s.unit (unitId 20 l i)).state = .spare))).length)).sum +
    ((List.range 16).filter (fun r => decide ((s.rgn r).rstate ≠ .retired))).length +
    3 * ((List.range 64).filter (fun c => !s.retired (clUnit c 49))).length

/-- A unit fails its test during a start (R513, R525): it is counted in FX and retired. An X-die block is found afterwards. -/
def startRetire (s : State) (u : Nat) : State :=
  let s1 := s.trouble u .fx
  if !unitValid u then s else if unitXBlock u then markRetired s1 u else retireUnit s1 u false []

/-- The cores of a cluster as it starts (R137, R155): each logical number carried by its core, or by the spare that stands for it, and
the present cores renumbered from 0. -/
def placeCores (s : State) (c : Nat) : State :=
  let at_ (n : Nat) : Option Nat :=
    if (s.unit (clUnit c n)).state = .inService ∧ (s.unit (clUnit c n)).standsFor = none then some n
    else (List.range 9).find? (fun m => decide ((s.unit (clUnit c m)).state = .inService) && (s.unit (clUnit c m)).standsFor == some (clUnit c n))
  renumber ((List.range 8).foldl (fun s n => s.setCore (8 * c + n) (match at_ n with
    | some m => { run := .idle, phys := m }
    | none => { run := .absent })) s) c

/-- A cluster enters service with its region, its generator seeded from the entropy source (R55, R526), or it stays retired. -/
def startCluster (s : State) (c : Nat) : State :=
  if s.retired (clUnit c 49) then s.setCl c { s.cl c with cstate := .retired }
  else
    let (e, s1) := s.entropy
    let s2 := s1.setCl c { s1.cl c with cstate := .inService, rs := BitVec.ofNat 64 e.toNat, spareReady := (spareCore s1 c).isSome }
    checkCluster (placeCores s2 c) c

def clustersOf (r : Nat) : List Nat := [4 * r, 4 * r + 1, 4 * r + 2, 4 * r + 3]

/-- A region enters service, or waits for its bound (R526). -/
def startRegion (late : List Nat) (s : State) (r : Nat) : State :=
  let g := s.rgn r
  if g.rstate = .retired then (clustersOf r).foldl (fun s c => s.setCl c { s.cl c with cstate := .retired }) s
  else if late.contains r then
    (clustersOf r).foldl (fun s c => s.setCl c { s.cl c with cstate := if s.retired (clUnit c 49) then .retired else .starting }) (s.setRgn r { g with rstate := .starting })
  else (clustersOf r).foldl startCluster (s.setRgn r { g with rstate := .inService })

/-- A region that has not started is retired at once: it holds no contents (R526). -/
def dropRegionAtStart (s : State) (r : Nat) : State :=
  let s1 := s.trouble (unitId r 7 0) .fx
  let s2 := (clustersOf r).foldl (fun s c => retireCluster s c) (s1.setRgn r { s1.rgn r with rstate := .retired, retiring := 2 })
  let off (s : State) (k : Nat) : State := stackOff (s.note (dieUnit k 0)) k
  let s3 := [4, 5, 6, 7].foldl (fun s q => markRetired s (unitId r q 0)) (off (off s2 (2 * r)) (2 * r + 1))
  { s3 with rel := { s3.rel with verd := mset s3.rel.verd r { mgetD s3.rel.verd r {} with vstate := 3 } } }

/-- Recovery (R532): no host port but port 0, and no Palette core. -/
def recover (s : State) (cause : Nat) : State :=
  { s with umb := { s.umb with phase := 8, rcause := cause } }

/-- The carve-outs: first page, pages, and whether they are secure (R94). -/
def carveOuts : List (Nat × Nat × Bool) :=
  [(0x02FE9C000000, 32, false), (0x02FEA0000000, 256, false), (0x02FEC0000000, 512, false), (0x02FF00000000, 1536, false), (0x02FFC0000000, 512, true)]

def takeCarveOut (s : State) (c : Nat × Nat × Bool) : State :=
  let s1 := (allocPages s 0 0 c.2.1 (c.1 / pageBytes)).getD s
  { s1 with lake := { s1.lake with fw := s1.lake.fw ++ [⟨.carveOut, c.1, c.2.1, c.2.2⟩] } }

/-- t6 and t7 of R525: the region counters start from 0 after a fundamental reset (R36), carve-outs, flow table, staging, node and size, the vault, then PWRGD; ports train afterwards (R527). -/
def finishStart (s : State) (bad : List Nat) (ms : Nat) : State :=
  let s1 := carveOuts.foldl takeCarveOut s
  let s2 := (takeFwRegion s1 .flowTable 32).getD s1
  let s3 := (takeFwRegion s2 .staging 768).getD s2
  let (a, s4) := s3.draw
  let (b, s5) := s4.draw
  let (c, s6) := s5.draw
  let s7 : State := { s6 with
    madr := { s6.madr with n := 20 }
    fab := { s6.fab with
      node := s6.umb.nodeFlash
      time := if s6.umb.lastReset = 0 then 0 else s6.fab.time
      xRegion := ((List.range 16).find? (fun r => decide ((s6.rgn r).rstate ≠ .retired))).getD 0 }
    carm := { s6.carm with ip6 := Config.freeWord a ++ Config.freeWord b, ip4 := (Config.freeWord c).setWidth 32 } }
  let s8 := match applySize s7 s7.umb.sizeFlash with
    | some x => { x with umb := { x.umb with sizePending := false, sizeRefused := false } }
    | none => { s7 with umb := { s7.umb with sizePending := false, sizeRefused := true } }
  let s9 := restoreVault s8 bad
  let s10 := s9.saf.nss.foldl (fun s n => if n.2.carmine then s else makeSess s n.1 n.2.sess) s9
  let s11 : State := { s10 with umb := { s10.umb with phase := 7, startMs := ms % 65536, retried := false, rcause := 0 } }
  let s12 := (List.range 8).foldl (fun s p => trainPort (s.setPort p { s.port p with enabled := true }) p) (powerGood s11 1)
  (List.range 64).foldl (fun s p =>
    if s.retired (unitId (16 + p / 32) 13 (p % 32)) ∨ (s.eth p).deadHalf = 3#2 then s.setEth p { s.eth p with lstate := 5 } else relight s p) s12

/-- Regions in service at the end of t5. With none the start is tried once more, and then the device stays in recovery (R533). -/
def regionsStarted (s : State) (bad : List Nat) (ms : Nat) : State :=
  if (List.range 16).any (fun r => decide ((s.rgn r).rstate = .starting)) then { s with umb := { s.umb with phase := 5 } }
  else if (List.range 16).any (fun r => decide ((s.rgn r).rstate = .inService)) then finishStart s bad ms
  else if s.umb.retried then recover s 4
  else
    let s1 := warmClear (recover s 4)
    { s1 with umb := { s1.umb with phase := 9, lastReset := 3, rcause := 0, retried := true, warms := min 65535 (s.umb.warms + 1) } }

/-- t2 of R525: the Umber ROM verifies the active bank, and failing it the other, which becomes active (R486). -/
def bootBank (s : State) : Option State :=
  let a := s.pal.active
  let o := otherBank a
  let other (s : State) (n : Nat) : State := markBank s n (((s.bank n).verified || (s.bank n).intact) && imageVerifies s (s.bank n))
  if imageVerifies s (s.bank a) then some (other (markBank s a true) o)
  else if imageVerifies s (s.bank o) then
    let s1 := markBank (markBank s a false) o true
    some { s1 with pal := { s1.pal with active := o } }
  else none

/-- t3 to t5: both X-dies, of which Mordant's entropy source and AES engines pass their tests (R503), Palette, and the regions. In BLANK no firmware runs and the start goes no further than t3 (R480). -/
def startDies (s : State) (failed late bad : List Nat) (ms : Nat) : State :=
  let n := startTests s
  let s0 : State := { s with umb := { s.umb with phase := 9 }, sec := { s.sec with entOk := true, engines := 64 } }
  let s1 := (failed.filter (fun u => decide (16 ≤ unitDomain u))).foldl startRetire (((s0.count SWAT_RUNS n).count SWAT_FAILS failed.length))
  let blocks := [0, 1, 3, 8, 9, 10, 11, 12, 14, 15].map (unitId 16 · 0) ++ (List.range 8).map (unitId 16 2 ·) ++ [8, 9, 14, 15].map (unitId 17 · 0)
  if blocks.any s1.retired ∨ allReach s1 = false then recover s1 3
  else if s1.sec.lc = 0 then { s1 with umb := { s1.umb with phase := 3 } }
  else
    let s2 := (List.range 16).foldl (startRegion late) s1
    let s3 := (failed.filter (fun u => decide (unitDomain u < 16))).foldl startRetire s2
    regionsStarted s3 bad ms

/-- From t2 on (R525, R529). -/
def startFromBanks (s : State) (failed late bad : List Nat) (ms : Nat) : State :=
  match bootBank s with
  | none => recover s 1
  | some s1 => startDies s1 failed late bad ms

/-- t0 of R525: a fundamental reset asserts. -/
def startState (s : State) : State := { s with
  umb := { nodeFlash := s.umb.nodeFlash, sizeFlash := s.umb.sizeFlash, retried := s.umb.retried, phase := 1 }
  sec := { s.sec with cause := 0#5 }
  rel := { s.rel with guardOp := 0 }
  fab := { s.fab with trouble := [], time := 0, regions := mmap s.fab.regions (fun _ r => { r with resets := 0 }) } }

/-- A fundamental reset runs from t0, or a warm reset from its w3 (R525, R529, R530). `failed` are the units that fail a test, `late`
the regions that are not in service when their round ends, `bad` the save-flash slots whose image is not valid, `ms` the time the start
takes; `vinCycled` is VIN48 removed and applied again (R550). -/
def execFundamentalReset (vinCycled : Bool) (failed late bad : List Nat) (ms : Nat) (s : State) : Host.Outcome State Fault Refusal :=
  if s.umb.phase = 9 ∧ s.umb.warming = none then
    next (if s.sec.lc = 5 then s else if s.umb.rcause = 2 ∧ (s.rel.copyA || s.rel.copyB) = false then recover s 2 else startFromBanks (startKeys s) failed late bad ms)
  else if s.umb.phase ≠ 0 ∨ s.sec.lc = 5 ∨ (s.umb.barred = true ∧ s.umb.allowed = false ∧ vinCycled = false) then next s
  else
    let s2 := startKeys (startState s)
    next (if s2.rel.copyA || s2.rel.copyB then startFromBanks s2 failed late bad ms else recover s2 2)

/-- A region is not in service 100 ms after its round started: it is retired (R526), and the start goes on when it was the last. -/
def execRegionStartTimeout (region : Nat) (bad : List Nat) (ms : Nat) (s : State) : Host.Outcome State Fault Refusal :=
  if (s.rgn region).rstate ≠ .starting ∨ s.umb.phase ≠ 5 then next s else next (regionsStarted (dropRegionAtStart s region) bad ms)

/-- Umber has rebuilt the retirement map (R533): the units that fail are retired, every region has an offset of 60 mV and a TMAX of
85 °C, and both copies are written with GEN 1. A warm reset follows. -/
def execMapRebuildDone (failed : List Nat) (s : State) : Host.Outcome State Fault Refusal :=
  if s.umb.phase ≠ 8 ∨ s.umb.rcause ≠ 2 then next s
  else
    let s1 := failed.foldl startRetire { s with umb := { s.umb with phase := 9 } }
    let s2 := (List.range 16).foldl (fun s r =>
      let g := s.rgn r
      let s1 := s.setRgn r { g with offset := 60, vset := g.vset - g.offset + 60 }
      { s1 with rel := { s1.rel with verd := mset s1.rel.verd r { mgetD s1.rel.verd r {} with tmax := 85, vstate := max 1 (mgetD s1.rel.verd r {}).vstate } } }) s1
    let s3 : State := { s2 with rel := { s2.rel with rmap := buildMap s2, gen := 1, copyA := true, copyB := true }, fab := { s2.fab with journal := [] } }
    let s4 : State := { s3 with umb := { s3.umb with phase := 8, rcause := 0 } }
    next (warmReset s4 3 true)

/-! Management bus (R528, R546, R550). -/

/-- The device holds no connection outside IDLE and belongs to no parity group (R528). -/
def nodeFree (s : State) : Bool := s.carm.conns.all (fun c => decide (c.2.state = .idle)) && s.par.groups.isEmpty

/-- A write of NODE (R528, R546). -/
def execMgmtNodeWrite (pecOk : Bool) (data : W32) (s : State) : Host.Outcome State Fault Refusal :=
  if !pecOk || decide (65536 ≤ data.toNat) then next s
  else
    let s1 : State := { s with umb := { s.umb with nodeFlash := data.toNat } }
    next (if s.umb.phase = 7 ∧ s.umb.shutting = false ∧ nodeFree s = true then { s1 with fab := { s1.fab with node := data.toNat } } else s1)

/-- A write of SIZE (R528, R546). -/
def execMgmtSizeWrite (pecOk : Bool) (data : W32) (s : State) : Host.Outcome State Fault Refusal :=
  if !pecOk || decide (32768 < data.toNat) then next s
  else next { s with umb := { s.umb with sizeFlash := data.toNat, sizeLast := data.toNat, sizePending := true, sizeRefused := false } }

/-- A write of WARM (R529, R546). -/
def execMgmtWarmWrite (pecOk : Bool) (data : W32) (s : State) : Host.Outcome State Fault Refusal :=
  if !pecOk || decide (data ≠ 0x5741524D#32) || s.umb.shutting then next s else next (umberOp s 20)

/-- A write of START (R546, R550). -/
def execMgmtStartWrite (pecOk : Bool) (data : W32) (s : State) : Host.Outcome State Fault Refusal :=
  if !pecOk || decide (data ≠ 0x53545254#32) || s.umb.shutting then next s else next { s with umb := { s.umb with allowed := true } }

end Sys2Proof.Machine
end

