-- ==== Sys2Proof/Machine/Activate.lean ====
section
/-! DEFINITION. A restarted Palette core (R461, R463), and the activation of firmware (R466 to R468, R533). -/

namespace Sys2Proof.Machine

open Sys2Proof

/-- A Palette core restarts now. -/
def coreRestarting (s : State) : Bool := (List.range 8).any (fun n => decide ((s.pcore n).cstate = 2))

/-- Pairs that have a state. -/
def drainPairs (s : State) : State := (pairKeys s).foldl fwDrain s

/-- An activation ends before t4 with a failure: its command is answered; one that was deferred reports in ACT and ACT_STATUS and
logs the result (R467, R468). -/
def actFail (s : State) (st : Status) (act : Nat) : State :=
  let p := s.pal
  let s1 : State := { s with pal := { p with act := act, actStatus := st.code, actCmd := 0, actDeferred := false } }
  if p.actDeferred then s1.event none 3 st.code else replyTo s1 p.actCmd { status := st }

/-- t1 and t2 of R466 (R468): t1 waits while a Palette core restarts. A deferred activation that fails reads as failed whichever check
it fails; one that fails at t1 otherwise leaves ACT as it was. -/
def actGo (s : State) : State :=
  if coreRestarting s then s
  else
    let b := s.bank (otherBank s.pal.active)
    let run := s.bank s.pal.active
    if !b.verified || decide (run.stateVer < b.stateMin) then actFail s .invalidField (if s.pal.actDeferred then 6 else s.pal.act)
    else if !imageVerifies s b then actFail s .accessDenied 6
    else { s with pal := { s.pal with act := 4 }, saf := { s.saf with stopped := true } }

/-- An activation waits for t1. -/
def actWaits (s : State) : Bool := decide (s.pal.act ≠ 4) && decide (s.pal.actCmd ≠ 0)

/-- t3 of R461: the core has resolved its journal, releases its locks and resumes, and what waited for it goes on (R459, R462). -/
def execPaletteRestartDone (core : Nat) (s : State) : Host.Outcome State Fault Refusal :=
  let k := s.pcore core
  if 8 ≤ core ∨ k.cstate ≠ 2 ∨ restartHeld s core = true then next s
  else
    let s1 := (releaseLocks (s.setPcore core { k with cstate := 1 }) (0x100 + core)).event (some core) 2 (s.now - k.since)
    let s2 := drainPairs s1
    let s3 := if core = 3 then sendCloses s2 else s2
    let s4 := if core = 4 then safSettle s3 else s3
    next (if actWaits s4 then actGo s4 else s4)

/-- All eight Palette cores restart, and their locks are released (R450, R534). -/
def restartAll (s : State) : State :=
  (List.range 8).foldl (fun s n => (releaseLocks (s.setPcore n { s.pcore n with cstate := 1, since := s.now }) (0x100 + n)).count (PAL_CORE_RESTARTS n)) s

/-- What waited for every Palette core goes on: CLOSEs, storage work and an activation (R288, R462, R468). -/
def coresBack (s : State) : State :=
  let t := safSettle (sendCloses s)
  if actWaits t then actGo t else t

/-- Umber resets all eight Palette cores (R460, R534): unread inbound words are cleared, commands that were not started are
replied aborted, those whose effect has begun go on, and the cores restart; the CLOSEs, the storage work and an activation that waited for a core go on (R288, R462, R468). It needs a core that restarts. -/
def execPaletteComplexReset (s : State) : Host.Outcome State Fault Refusal :=
  if !(List.range 8).any (fun n => decide ((s.pcore n).cstate = 2)) then next s
  else
    let s1 := (pairKeys s).foldl clearInbound s
    let s2 := s1.pal.queue.foldl (fun s q => holdReply s q.pair q.word { status := .aborted }) s1
    let s3 : State := { s2 with pal := { s2.pal with queue := [] } }
    next (coresBack (restartAll s3))

/-- FW_ACTIVATE (R466 to R468). In recovery Umber verifies the bank and starts a warm reset onto it (R533); with RCAUSE 2 the warm
reset is that which follows the rebuilding of the map. -/
def execFwActivate (pair : MboxId) (blk : CmdBlock) (s : State) : Host.Outcome State Fault Refusal :=
  let s1 := fwCommand 0x0A1 true pair blk (fun s c b =>
    let n := otherBank s.pal.active
    if !fromPf0 c then refuse s .accessDenied
    else if !bodyReserved b [] 0 then refuse s .invalidField
    else if s.recovery then
      if imageVerifies s (s.bank n) then
        let s1 := markBank s n true
        accept { s1 with pal := { s1.pal with active := n } }
      else refuse s .accessDenied
    else if s.pal.act = 4 ∨ s.pal.actCmd ≠ 0 then refuse s .busy
    else if s.pal.act = 3 then refuse s .deferred
    else if s.umb.emerg then
      let s1 : State := { s with pal := { s.pal with act := 3, actDeferred := true } }
      refuse (s1.event none 4 0) .deferred
    else (actGo { s with pal := { s.pal with actCmd := c.id, actDeferred := false } }, none)) s
  next (if s.recovery = true ∧ s.umb.rcause = 1 ∧ s1.pal.active ≠ s.pal.active then warmReset (postReply s1 pair) 3 false else s1)

/-- The emergency has cleared: firmware starts the deferred activation at t1 (R467), once no core restarts. -/
def execDeferredActivationStart (s : State) : Host.Outcome State Fault Refusal :=
  if s.pal.act ≠ 3 ∨ s.umb.emerg = true ∨ coreRestarting s = true then next s else next (actGo s)

/-- t4 of R466: Saffron has quiesced, every core runs the new image, and the banks swap. -/
def execActivationDone (s : State) : Host.Outcome State Fault Refusal :=
  if s.pal.act ≠ 4 ∨ coreRestarting s = true ∨ safQuiet s = false then next s
  else
    let p := s.pal
    let s1 : State := { s with
      pal := { p with
        active := otherBank p.active, act := 5, actStatus := 0, actCmd := 0, actDeferred := false, activatedAt := some s.now
        cores := mmap p.cores (fun _ k => { k with restartTimes := [] }) }
      saf := { s.saf with stopped := decide (s.saf.vstate = 2) } }
    let s2 := if p.actDeferred then s1.event none 3 0 else replyTo s1 p.actCmd { status := .success }
    next (safSettle (drainPairs s2))

end Sys2Proof.Machine
end

