-- ==== Sys2Proof/Machine/Attest.lean ====
section
/-! DEFINITION. Lifecycle and attestation commands that change no other block: LC_QUERY, LC_NONCE (R483), SVN_COMMIT (R487),
certificates and evidence (R499, R500), the factory sequence (R481) and debug requests (R498). -/

namespace Sys2Proof.Machine

open Sys2Proof

/-- LC_QUERY (R483). -/
def execLcQuery (pair : MboxId) (s : State) : Host.Outcome State Fault Refusal :=
  next (fwCommand 0x0C0 false pair noBlock (fun s _ _ =>
    ({ s with rel := { s.rel with guardOp := 9 } }, some { status := .success, arg := s.sec.lc + at_ 4 s.sec.svnMin })) s)

/-- LC_NONCE (R483): 24 bytes in the RESULT words, the last 8 at the start of the body. -/
def execLcNonce (pair : MboxId) (blk : CmdBlock) (s : State) : Host.Outcome State Fault Refusal :=
  next (fwCommand 0x0C1 true pair blk (fun s c _ =>
    if !fromPf0 c then refuse s .accessDenied
    else if !s.sec.entOk then refuse s .unitFault
    else
      let (e, s1) := s.entropy
      let s2 : State := { s1 with sec := { s1.sec with nonce := some e } }
      (s2.hostWrite c.fn (c.block + 64) (leBytes 8 (bn e 255 192)),
        some { status := .success, r0 := bn e 63 0, r1 := bn e 127 64, r2 := bn e 191 128 })) s)

/-- SVN_COMMIT (R487). -/
def execSvnCommit (pair : MboxId) (s : State) : Host.Outcome State Fault Refusal :=
  next (fwCommand 0x0C3 false pair noBlock (fun s c _ =>
    if !fromPf0 c then refuse s .accessDenied
    else if 1 ≤ s.pal.act ∧ s.pal.act ≤ 4 then refuse s .busy
    else
      let n := otherBank s.pal.active
      let m := max s.sec.svnMin (s.bank s.pal.active).svn
      let s1 : State := { s with sec := { s.sec with svnMin := m } }
      accept (if (s1.bank n).svn < m then markBank s1 n false else s1)) s)

/-- The device and CA certificates (R499; log 6). -/
def deviceCert (s : State) : List Byte := slice (s.sec.cert.getD (Config.factory 3)) 0 7984
def caCert : List Byte := slice (Config.factory 4) 0 7984

/-- ATT_CERTS (R499). -/
def execAttCerts (pair : MboxId) (blk : CmdBlock) (s : State) : Host.Outcome State Fault Refusal :=
  next (fwCommand 0x0C5 true pair blk (fun s c b =>
    if !bodyReserved b [(5, 0)] 64 then refuse s .invalidField
    else accept (s.hostWrite c.fn (bn b 63 0) (deviceCert s ++ caCert))) s)

/-- The identity key's secret bytes (R499). -/
def idSecret (s : State) : List Byte := slice (s.sec.idKey.getD (Config.factory 2)) 0 48

/-- One evidence entry (R500). -/
def evEntry (kind index : Nat) (digest : List Byte) : List Byte :=
  leBytes 8 (kind + at_ 16 index) ++ slice digest 0 32 ++ List.replicate 24 0#8

/-- A digest of content the manual does not lay out (R500; log 37). -/
def evOpen (kind index : Nat) (xs : List Nat) : List Byte := evEntry kind index (leBytes 32 (Config.evidence kind xs).toNat)

/-- SHA-256 of the header region and payload of a bank (R500). -/
def bankDigest (b : Bank) : List Byte := sha256 (bankBytes b 0 (16384 + leAt (bankBytes b 0 20) 16 4))

/-- Clusters and ports a function owns. -/
def ownedClusters (s : State) (f : Nat) : List Nat := (List.range 64).filter (fun c => (s.cl c).owner == some f)
def ownedPorts (s : State) (f : Nat) : List Nat := (List.range 8).filter (fun p => (s.port p).owner == some f)

/-- Optimizer programs of a requester by INDEX, user images only (R500). -/
def userPrograms (s : State) (f : Nat) : List (Nat × OptProg) :=
  s.par.progs.filter (fun p => decide (p.2.lib = 0) && (s.slot 7 p.1).live && (s.slot 7 p.1).owner == f)

/-- Library programs that run on a cluster (R500). -/
def loadedLibs (s : State) : List Nat :=
  ((s.par.progs.filter (fun p => decide (p.2.lib ≠ 0) && !p.2.loaded.isEmpty && (s.slot 7 p.1).live)).map (fun p => p.2.lib)).eraseDups

/-- The entries of evidence for a requester, in order (R500). -/
def evEntries (s : State) (f : Nat) : List (List Byte) :=
  let other := otherBank s.pal.active
  [evEntry 1 0 (sha256 (Config.factory 5)), evEntry 2 0 (bankDigest (s.bank s.pal.active))] ++
    (if (s.bank other).verified then [evEntry 3 0 (bankDigest (s.bank other))] else []) ++
    (loadedLibs s).map (fun l => evOpen 4 l [l, (s.bank s.pal.active).release]) ++
    [evOpen 5 0 ([s.sec.lc, leNat rootPkh, s.sec.svnMin] ++ s.sec.owners.map leNat)] ++
    [evOpen 6 0 ((List.range 12).map (quotaOf s f) ++ [(s.fn f).weight] ++ ownedClusters s f ++ ownedPorts s f)] ++
    (userPrograms s f).map (fun p => evEntry 7 p.1 (sha256 (memBytes s.lake.mem (p.2.code % 2 ^ 48) p.2.len)))

/-- The evidence header (R500). -/
def evHeader (s : State) (f nmeas nonce user : Nat) : List Byte :=
  let b := s.bank s.pal.active
  leBytes 256 (0x4B455631 + at_ 32 1 + at_ 48 s.sec.lc + at_ 56 (nmeas % 256) + at_ 64 serial + at_ 128 s.fab.node + at_ 144 (f % 4096) +
    at_ 160 (b.release % 65536) + at_ 176 (b.svn % 256) + at_ 184 s.sec.svnMin + at_ 192 s.pal.active + at_ 208 s.sec.tcount +
    at_ 224 s.sec.cause.toNat + at_ 256 (s.now % 2 ^ 64) + at_ 320 nonce + at_ 576 user)

/-- ATT_QUOTE (R500). -/
def execAttQuote (pair : MboxId) (blk : CmdBlock) (s : State) : Host.Outcome State Fault Refusal :=
  next (fwCommand 0x0C4 true pair blk (fun s c b =>
    if !bodyReserved b [(5, 0)] 576 then refuse s .invalidField
    else if s.sec.lc = 0 ∨ s.sec.lc = 1 ∨ s.sec.lc = 5 then refuse s .accessDenied
    else if !s.sec.entOk then refuse s .unitFault
    else
      let es := evEntries s c.fn
      let body := evHeader s c.fn es.length (bn b 319 64) (bn b 575 320) ++ es.flatten
      let all := body ++ slice (Config.slhSign (idSecret s) body) 0 17088
      (s.hostWrite c.fn (bn b 63 0) all, some { status := .success, r0 := all.length })) s)

/-- A factory JTAG sequence (R481): BLANK to TEST, or TEST to PROVISIONED with key, seed and certificate (R496, R499). -/
def execFactoryJtagSequence (cert : List Byte) (s : State) : Host.Outcome State Fault Refusal :=
  if s.sec.lc = 0 then next { s with sec := { s.sec with lc := 1 } }
  else if s.sec.lc = 1 then
    let (a, s1) := s.entropy
    let (b, s2) := s1.entropy
    let (e, s3) := s2.entropy
    next { s3 with sec := { s3.sec with
      lc := 2, cert := some cert, idKey := some (slice (leBytes 32 a.toNat ++ leBytes 32 b.toNat) 0 48), idSeed := some (leBytes 32 e.toNat) } }
  else next s

/-- A tamper event is counted and its cause bit set (R498, R504). -/
def noteTamper (s : State) (i : Nat) : State :=
  { s with sec := { s.sec with cause := s.sec.cause ||| BitVec.ofNat 5 (2 ^ i), tcount := min 65535 (s.sec.tcount + 1) } }

/-- A core-debug request over JTAG (R480, R498): refused and counted in PROVISIONED and DEPLOYED. -/
def execJtagDebugRequest (s : State) : Host.Outcome State Fault Refusal :=
  next (if s.sec.lc = 2 ∨ s.sec.lc = 3 then noteTamper s 4 else s)

end Sys2Proof.Machine
end

