-- ==== Sys2Proof/Machine/Host.lean ====
section
/-! DEFINITION. The host interface (R378 to R401, R557): completions and their timeouts, Bus Master Enable, function-level and
port resets, MSI-X masks, quotas and shares. -/

namespace Sys2Proof.Machine

open Sys2Proof

/-! Completions (R389, R390, R557). -/

/-- AER status bits (R389, R390). -/
def aerTimeout : BitVec 3 := 1#3
def aerUnexpected : BitVec 3 := 2#3
def aerPoisoned : BitVec 3 := 4#3

def logAer (s : State) (f : Nat) (b : BitVec 3) : State := s.setFn f { s.fn f with aer := (s.fn f).aer ||| b }

/-- The message whose packet `msn` was waiting on host memory fails (R270, R391). -/
def failSource (s : State) (i psn : Nat) (st : Status) : State :=
  match s.conn i with
  | none => s
  | some c => match c.msgAt psn with
    | none => s
    | some m =>
      let mark (x : TxMsg) : TxMsg := if x.msn = m.msn then { x with srcFailed := true } else x
      msgDone (s.setConn i { c with msgs := c.msgs.map mark }) i m.msn st 0 0

/-- A descriptor read has ended: the descriptor stands in its ring's queue, or R118 applies to it. -/
def descCame (s : State) (ring seq : Nat) (data : Option (List Byte)) : State :=
  let put (f : Fetched) : Fetched :=
    if f.seq = seq ∧ f.posted = false then
      (match data with
        | some bs => { f with desc := some (BitVec.ofNat 512 (leNat bs)) }
        | none => { f with failed := true })
    else f
  { s with vat := { s.vat with work := mmod s.vat.work ring (fun w => { w with queue := w.queue.map put }) } }

/-- A transfer whose work still waits for it. -/
def xferWanted (s : State) (x : Xfer) : Bool :=
  match x.work with
  | .remote i psn => ((s.conn i).bind (fun c => c.msgAt psn)).isSome
  | .job id => (mget s.vat.jobs id).isSome
  | .ctx i => ((s.conn i).map (·.fetching)).getD false
  | .firmware _ => false
  | _ => true

/-- A transfer of which every request is resolved goes to its work (R557). Jobs, packets and contexts take it at their own
command. -/
def xferEnded (s : State) (x : Xfer) : State :=
  let gone (s : State) : State := { s with host := { s.host with xfers := s.host.xfers.erase x } }
  if !x.resolved then s
  else if x.dropped || !xferWanted s x then gone s
  else match x.work with
    | .desc ring seq => descCame (gone s) ring seq x.data
    | .sqe q seq => safSettle (sqeCame s q seq)
    | .nvme q seq => safSettle (advanceNv s q seq true)
    | _ => s

/-- A request that is out for a function under a tag: its transfer and the part. -/
def findPart (s : State) (f tag : Nat) : Option (Nat × Xfer × Nat) :=
  (s.host.xfers.zipIdx).findSome? (fun p =>
    if p.1.fn ≠ f then none
    else (p.1.parts.findIdx? (fun q => q.out && q.tag == some tag)).map (fun k => (p.2, p.1, k)))

/-- Resolves a request with its data, or as failed, and lets the function's other requests go (R383, R557). -/
def resolvePart (s : State) (f tag : Nat) (data : Option (List Byte)) : State :=
  match findPart s f tag with
  | none => s
  | some (i, x, k) =>
    let x1 : Xfer := { x with parts := x.parts.modify k (fun q => { q with done := some (data.map (fun bs => slice bs 0 q.len)) }) }
    let s1 := xferEnded { s with host := { s.host with xfers := s.host.xfers.set i x1 } } x1
    pumpReads f (((s1.host.xfers.filter (fun x => x.fn == f)).map (fun x => x.parts.length)).sum) s1

/-- A completion from the host (R389, R390): it resolves a read, or is discarded for a quarantined tag or for a read that Bus
Master Enable or a reset gave up (R391, R393). -/
def execHostCompletion (fn tag : Nat) (kind : CplKind) (data : List Byte) (s : State) : Host.Outcome State Fault Refusal :=
  if s.host.quarantine.any (fun q => q.1 == fn && q.2.1 == tag) then next (logAer (s.count HIF_LATE_CPL) fn aerUnexpected)
  else match findPart s fn tag with
    | none => next (logAer s fn aerUnexpected)
    | some (_, x, _) =>
      let s1 := if x.dropped then s.count HIF_DROP_CPL else s
      match kind with
      | .ok => next (resolvePart s1 fn tag (some data))
      | .poisoned => next (resolvePart (logAer s1 fn aerPoisoned) fn tag none)
      | .unsupported => next (resolvePart s1 fn tag none)
      | .abort => next (resolvePart s1 fn tag none)

/-- Quarantine time, the upper end of range D (R389). -/
def quarantineNs : Nat := 64000000000

/-- Completion Timeout in ns (R389). -/
def cplTimeoutNs (enc : Nat) : Nat :=
  match enc with
  | 1 => 90000
  | 2 => 9000000
  | 5 => 50000000
  | 6 => 190000000
  | 9 => 800000000
  | 0xA => 3200000000
  | 0xD => 12000000000
  | 0xE => 60000000000
  | _ => 45000000

/-- The Completion Timeout of an outstanding read has passed (R389). -/
def cplLate (s : State) (f tag : Nat) : Bool :=
  match findPart s f tag with
  | none => false
  | some (_, x, k) => match x.parts[k]? with
    | none => false
    | some p => decide (p.sent + cplTimeoutNs (s.fn f).cto ≤ s.now)

/-- A host read times out (R389), when the time of its function's Completion Timeout Value has passed. -/
def execHostCplTimeout (fn tag : Nat) (s : State) : Host.Outcome State Fault Refusal :=
  if !cplLate s fn tag then next s
  else
    let s1 := logAer (s.count HIF_CPL_TO) fn aerTimeout
    next (resolvePart { s1 with host := { s1.host with quarantine := s1.host.quarantine ++ [(fn, tag, s.now + quarantineNs)] } } fn tag none)

/-- 64 s after its timeout a tag becomes reusable (R389). -/
def execTagQuarantineEnd (fn tag : Nat) (s : State) : Host.Outcome State Fault Refusal :=
  let s1 : State := { s with host := { s.host with quarantine := s.host.quarantine.filter (fun q => !(q.1 == fn && q.2.1 == tag && decide (q.2.2 ≤ s.now))) } }
  next (pumpReads fn (((s1.host.xfers.filter (fun x => x.fn == fn)).map (fun x => x.parts.length)).sum) s1)

/-- An ATS invalidation completes after every request that used the translation (R383). -/
def execAtsInvalidate (fn page : Nat) (s : State) : Host.Outcome State Fault Refusal :=
  let used := s.host.xfers.any (fun x => x.fn == fn && x.parts.any (fun p => p.out && decide (p.addr / 4096 = page)))
  next (if used then s else { s with host := { s.host with ats := s.host.ats.filter (fun e => !(e.fn == fn && e.page == page)) } })

/-! Bus Master Enable and D3hot (R391). -/

/-- What waits on a read of a function that may no longer issue (R391). -/
def stopWork (s : State) (w : Work) : State :=
  match w with
  | .desc ring _ => unreserve s (cqOf s ring)
  | .sqe q _ => unreserve s (cqKey q)
  | .nvme q seq => match nvAt s q seq with
    | some c => nvEnd s q c stTransfer 0
    | none => s
  | .remote i psn => failSource s i psn .busMasterDisabled
  | _ => s

/-- The function's requests stop: reads that are out are discarded as they come, and the work that waited on them ends (R391). -/
def hostStop (s : State) (f : Nat) : State :=
  let hit (x : Xfer) : Bool := x.fn == f && !x.dropped && !x.resolved
  let ws := ((s.host.xfers.filter hit).map (·.work))
  let s1 : State := { s with host := { s.host with xfers := s.host.xfers.filterMap (fun x =>
    if !hit x then some x
    else if x.parts.any Part.out then some { x with dropped := true, parts := x.parts.filter Part.out }
    else none) } }
  safSettle (ws.foldl stopWork s1)

/-- Writes the held entries of a completion ring in order: bytes 8 to 31 and then 0 to 7, or the 16 bytes of a storage entry
(R125, R391, R404). -/
def writeHeld (s : State) (cq : Nat) : State :=
  match mget s.vat.comp cq with
  | none => s
  | some q =>
    let f := (cqSlot s cq).owner
    let n := 2 ^ q.sizeLog2
    q.held.foldl (fun s e =>
      if cq < 2 ^ 24 then
        let a := q.base + 32 * (e.index % n)
        (s.hostWrite f (a + 8) (e.data.drop 8)).hostWrite f a (e.data.take 8)
      else s.hostWrite f (q.base + 16 * (e.index % n)) e.data) (s.setComp cq { q with held := [] })

/-- The function may issue requests again: held entries, then held interrupts, then what waits for the host (R391). -/
def hostGo (s : State) (f : Nat) : State :=
  if !s.master f then s
  else
    let s1 := (s.vat.comp.filter (fun q => (cqSlot s q.1).owner == f)).foldl (fun s q => writeHeld s q.1) s
    let s2 := copyLog 65536 (s1.msixFlush f)
    safSettle (pumpReads f (((s2.host.xfers.filter (fun x => x.fn == f)).map (fun x => x.parts.length)).sum) s2)

/-- The DMA kill of a function, one of Umber's guaranteed operations (R507). -/
def dmaKill (s : State) (f : Nat) : State := hostStop { s with rel := { s.rel with guardOp := 3 } } f

/-- Bus Master Enable becomes 0 (R391). Configuration writes during a function-level reset are not performed (R393). -/
def execBmeClear (fn : Nat) (s : State) : Host.Outcome State Fault Refusal :=
  let x := s.fn fn
  if !s.fnPresent fn || x.flr || !x.bme then next s else next (dmaKill (s.setFn fn { x with bme := false }) fn)

/-- Bus Master Enable becomes 1 (R391). -/
def execBmeSet (fn : Nat) (s : State) : Host.Outcome State Fault Refusal :=
  let x := s.fn fn
  if !s.fnPresent fn || x.flr || x.bme then next s else next (hostGo (s.setFn fn { x with bme := true }) fn)

/-- A function enters D3hot (R391). -/
def execD3hotEntry (fn : Nat) (s : State) : Host.Outcome State Fault Refusal :=
  let x := s.fn fn
  if !s.fnPresent fn || x.flr || x.d3 then next s else next (hostStop (s.setFn fn { x with d3 := true }) fn)

/-- A function returns to D0 with its state kept (R391). -/
def execD0Return (fn : Nat) (s : State) : Host.Outcome State Fault Refusal :=
  let x := s.fn fn
  if !s.fnPresent fn || x.flr || !x.d3 then next s else next (hostGo (s.setFn fn { x with d3 := false }) fn)

/-! MSI-X (R388). -/

/-- A write to an entry of the MSI-X table (`vec`), or to MSI-X Enable and Function Mask (R388). Vectors whose masks have all
cleared send their message. -/
def execMsixMaskChange (fn : Nat) (vec : Option Nat) (addr : W64) (data : W32) (mask enable : Bool) (s : State) : Host.Outcome State Fault Refusal :=
  let x := s.fn fn
  if !s.fnPresent fn || x.flr then next s
  else match vec with
    | some v =>
      if fnVectors fn ≤ v ∨ x.d3 = true then next s
      else next ((s.setFn fn { x with msix := mset x.msix v { mgetD x.msix v {} with addr := addr &&& 0xFFFFFFFFFFFFFFFC#64, data := data, mask := mask } }).msixFlush fn)
    | none => next ((s.setFn fn { x with msixEn := enable, fmask := mask }).msixFlush fn)

/-! Resets (R392 to R394). -/

/-- A host-side reset clears the unread outbound word of a function's pairs and its held replies, and replies to come are
discarded (R460). -/
def clearOutbound (s : State) (k : MboxId) : State :=
  let p := s.pair k
  let s1 : State := { s with pal := { s.pal with
    cmds := s.pal.cmds.map (fun c => if c.pair = k then { c with noReply := true } else c) } }
  if p.outWord = 0#64 then s1.setPair k { p with held := [], en := false }
  else (s1.setPair k { p with outWord := 0#64, held := [], outRR := true, en := false, rrcnt := min (2 ^ 32 - 1) (p.rrcnt + 1) }).event none 6 (pairArg k 1)

/-- Pairs of a function (R449). -/
def pairsOf (s : State) (f : Nat) : List MboxId :=
  (pairKeys s).filter (fun k => match k with
    | .sec _ => false
    | _ => pairFn s k == f)

/-- t0 of R393 for one function: R391, no pending message, no port. A reset in progress absorbs another (R394). -/
def flrStart (s : State) (f : Nat) : State :=
  let x := s.fn f
  if x.flr then s
  else
    let s1 := s.setFn f { x with flr := true, msix := x.msix.map (fun p => (p.1, { p.2 with pending := false })) }
    let s2 : State := { s1 with ap := { s1.ap with ports := mmap s1.ap.ports (fun _ p => if p.owner = some f then { p with owner := none } else p) } }
    (pairsOf s2 f).foldl clearOutbound (dmaKill s2 f)

/-- Functions of VFs that are enabled on a port (R378, R401). -/
def vfsOf (s : State) (h : Nat) : List Nat :=
  let p := s.hport h
  if p.vfEnable then (List.range p.numVfs).map (fun n => 2048 * h + 2 + n) else []

/-- VF Enable clears: every VF of the port is reset, and its quotas return to their defaults (R392, R395). -/
def clearVfs (s : State) (h : Nat) : State :=
  let s1 := (vfsOf s h).foldl flrStart s
  let s2 := (vfsOf s h).foldl (fun s f => s.setFn f { s.fn f with quota := [] }) s1
  s2.setHport h { s2.hport h with vfEnable := false }

/-- Initiate Function Level Reset is written (R393 t0). A reset of PF1 clears VF Enable (R392). -/
def execFlrInitiate (fn : Nat) (s : State) : Host.Outcome State Fault Refusal :=
  if !s.fnPresent fn || (s.fn fn).flr then next s
  else
    let s1 := if fn % 2048 = 1 then clearVfs s (fnPort fn) else s
    next (flrStart s1 fn)

/-- Locks of an agent are released, and a function's command windows are cleared (R450, R454). -/
def flrMailboxes (s : State) (f : Nat) : State :=
  (pairsOf s f).foldl (fun s k => s.setPair k { s.pair k with window := none }) (releaseLocks s (0x1000 + f))

/-- Clusters that a function owns are reclaimed with grace time 0 (R140, R393). -/
def flrClusters (s : State) (f : Nat) : State :=
  (List.range 64).foldl (fun s c =>
    let k := s.cl c
    if k.owner ≠ some f then s
    else match k.reclaim with
      | none => reclaimStart s c { newOwner := none, cmd := 0 } true
      | some r => if r.stopped then s else reclaimStop s c) s

/-- t2 and t3 of R393: the sweep, then configuration space at its reset values but for the sticky AER fields. It ends after a
restart of Palette core 1 or 3 (R394), and a configuration reset of PF1 clears NumVFs. -/
def execFlrDone (fn : Nat) (s : State) : Host.Outcome State Fault Refusal :=
  let x := s.fn fn
  if !x.flr || !pcoreRuns s 1 || !pcoreRuns s 3 then next s
  else
    let s1 := settle (flrMailboxes (flrClusters (sweepFn s fn) fn) fn)
    let x1 := s1.fn fn
    let s2 := s1.setFn fn { weight := x1.weight, quota := x1.quota, aer := x1.aer }
    let s3 : State := { s2 with host := { s2.host with ats := s2.host.ats.filter (fun e => e.fn != fn) } }
    let s4 := if fn % 2048 = 1 then s3.setHport (fnPort fn) { s3.hport (fnPort fn) with numVfs := 0 } else s3
    next (safSettle (s4.count HIF_FLR))

/-- VF Enable is cleared (R392). -/
def execVfEnableClear (port : Nat) (s : State) : Host.Outcome State Fault Refusal :=
  let f := 2048 * port + 1
  if 2 ≤ port ∨ s.fnPresent f = false ∨ (s.fn f).flr = true then next s else next (clearVfs s port)

/-- Every function of a host port goes down with its link (R392). -/
def hostPortDown (s : State) (h : Nat) (perst : Bool) : State :=
  let p := s.hport h
  if !p.up then s.setHport h { p with perst := p.perst || perst }
  else
    let s1 := clearVfs s h
    let s2 := flrStart (flrStart s1 (2048 * h)) (2048 * h + 1)
    s2.setHport h { s2.hport h with up := false, width := 0, gen := 0, flit := false, perst := p.perst || perst }

/-- A hot reset, link down or PERST# on one host port while the device is in service (R392). -/
def execHostPortReset (port : Nat) (perst : Bool) (s : State) : Host.Outcome State Fault Refusal :=
  if 2 ≤ port then next s else next (hostPortDown s port perst)

/-- PERST# is released after PWRGD, and the host port trains (R527, R532). -/
def execHostPortLeavesReset (port width gen : Nat) (flit : Bool) (s : State) : Host.Outcome State Fault Refusal :=
  let ready := s.umb.phase == 7 || (s.umb.phase == 8 && port == 0)
  if 2 ≤ port ∨ ready = false ∨ (s.hport port).up = true ∨ [1, 2, 4, 8, 16].contains width = false ∨ gen = 0 ∨ 6 < gen then next s
  else next (s.setHport port { s.hport port with up := true, width := width, gen := gen, flit := flit, perst := false })

/-! Quotas and shares (R395 to R397). -/

/-- The function FUNC names is present: a physical function, or a VF that is enabled (R395). -/
def funcNamed (s : State) (f : Nat) : Bool := !fnIsVf f || s.fnPresent f

/-- FN_QUOTA (R395). -/
def execFnQuota (pair : MboxId) (blk : CmdBlock) (s : State) : Host.Outcome State Fault Refusal :=
  next (fwCommand 0x070 true pair blk (fun s c b =>
    let f := bn b 11 0
    let x := s.fn f
    if !fromPf0 c then refuse s .accessDenied
    else if !bodyReserved b [(31, 12)] 384 || !funcNamed s f then refuse s .invalidField
    else accept (s.setFn f { x with quota := (List.range 11).foldl (fun m k => mset m (k + 1) (BitVec.ofNat 32 (bn b (32 * (k + 1) + 31) (32 * (k + 1))))) x.quota })) s)

/-- FN_SHARE (R397). -/
def execFnShare (pair : MboxId) (blk : CmdBlock) (s : State) : Host.Outcome State Fault Refusal :=
  next (fwCommand 0x071 true pair blk (fun s c b =>
    let f := bn b 11 0
    if !fromPf0 c then refuse s .accessDenied
    else if !bodyReserved b [(15, 12)] 24 || !funcNamed s f then refuse s .invalidField
    else accept (s.setFn f { s.fn f with weight := bn b 23 16 })) s)

end Sys2Proof.Machine
end

