-- ==== Sys2Proof/Machine/IsaVector.lean ====
section
/-! DEFINITION. Vector instructions (R430, R431). -/

namespace Sys2Proof.Machine

open Sys2Proof

/-- Lane width of FN[6:5]: 8, 16, 32 or 64 bits (R425, R430; log 31). -/
def laneW (w : W32) : Nat := 8 * 2 ^ iSel w

/-- Lane `i` of width `n`. -/
def lane (v : BitVec 256) (n i : Nat) : Nat := v.toNat / 2 ^ (n * i) % 2 ^ n

/-- A vector from lanes of width `n`, lane 0 first. -/
def ofLanes (n : Nat) : List Nat → Nat
  | [] => 0
  | x :: xs => x % 2 ^ n + 2 ^ n * ofLanes n xs

/-- Lane by lane over two vectors. -/
def vmap2 (n : Nat) (f : Nat → Nat → Nat) (a b : BitVec 256) : BitVec 256 :=
  BitVec.ofNat 256 (ofLanes n ((List.range (256 / n)).map (fun i => f (lane a n i) (lane b n i))))

/-- vD := vA op vB, lane by lane at the lane size of FN[6:5] (R430). -/
def isaLanes (m : Mn) (i : Nat) (f : Nat → Nat → Nat → Nat) (s : State) : State :=
  isaV m i (fun w k => vmap2 (laneW w) (f (laneW w)) (k.getV (iA w)) (k.getV (iB w))) s

/-- The signed sum or difference of two lanes, held at the signed limits. -/
def heldLane (n : Nat) (x : Int) : Nat := unsgn n (holdSigned n x)

/-- VADD (R430). -/
def execVadd (core : Nat) (s : State) : Host.Outcome State Fault Refusal :=
  next (isaLanes .vadd core (fun _ x y => x + y) s)

/-- VSUB (R430). -/
def execVsub (core : Nat) (s : State) : Host.Outcome State Fault Refusal :=
  next (isaLanes .vsub core (fun n x y => x + 2 ^ n - y) s)

/-- VMUL (R430). -/
def execVmul (core : Nat) (s : State) : Host.Outcome State Fault Refusal :=
  next (isaLanes .vmul core (fun _ x y => x * y) s)

/-- VAND (R430). -/
def execVand (core : Nat) (s : State) : Host.Outcome State Fault Refusal :=
  next (isaLanes .vand core (fun _ x y => Nat.land x y) s)

/-- VOR (R430). -/
def execVor (core : Nat) (s : State) : Host.Outcome State Fault Refusal :=
  next (isaLanes .vor core (fun _ x y => Nat.lor x y) s)

/-- VXOR (R430). -/
def execVxor (core : Nat) (s : State) : Host.Outcome State Fault Refusal :=
  next (isaLanes .vxor core (fun _ x y => Nat.xor x y) s)

/-- VSHL (R430). -/
def execVshl (core : Nat) (s : State) : Host.Outcome State Fault Refusal :=
  next (isaLanes .vshl core (fun n x y => x * 2 ^ (y % n)) s)

/-- VSHR (R430). -/
def execVshr (core : Nat) (s : State) : Host.Outcome State Fault Refusal :=
  next (isaLanes .vshr core (fun n x y => x / 2 ^ (y % n)) s)

/-- VSRA (R430). -/
def execVsra (core : Nat) (s : State) : Host.Outcome State Fault Refusal :=
  next (isaLanes .vsra core (fun n x y => unsgn n (sgn n x / 2 ^ (y % n))) s)

/-- VMIN (R430; signed lanes, log 30). -/
def execVmin (core : Nat) (s : State) : Host.Outcome State Fault Refusal :=
  next (isaLanes .vmin core (fun n x y => if sgn n x < sgn n y then x else y) s)

/-- VMAX (R430; signed lanes, log 30). -/
def execVmax (core : Nat) (s : State) : Host.Outcome State Fault Refusal :=
  next (isaLanes .vmax core (fun n x y => if sgn n x < sgn n y then y else x) s)

/-- VADDS (R430). -/
def execVadds (core : Nat) (s : State) : Host.Outcome State Fault Refusal :=
  next (isaLanes .vadds core (fun n x y => heldLane n (sgn n x + sgn n y)) s)

/-- VSUBS (R430). -/
def execVsubs (core : Nat) (s : State) : Host.Outcome State Fault Refusal :=
  next (isaLanes .vsubs core (fun n x y => heldLane n (sgn n x - sgn n y)) s)

/-- The carry-less products of lanes 2h + `o`, one in each half (R430). -/
def clmulHalves (o : Nat) (a b : BitVec 256) : BitVec 256 :=
  BitVec.ofNat 256 (ofLanes 128 ((List.range 2).map (fun h => clmul 64 (lane a 64 (2 * h + o)) (lane b 64 (2 * h + o)))))

/-- VCLMUL (R430). -/
def execVclmul (core : Nat) (s : State) : Host.Outcome State Fault Refusal :=
  next (isaV .vclmul core (fun w k => clmulHalves 0 (k.getV (iA w)) (k.getV (iB w))) s)

/-- VCLMULH (R430). -/
def execVclmulh (core : Nat) (s : State) : Host.Outcome State Fault Refusal :=
  next (isaV .vclmulh core (fun w k => clmulHalves 1 (k.getV (iA w)) (k.getV (iB w))) s)

/-- Eight binary32 lanes: vD := vA op vB (R430, R431). -/
def isaVf (m : Mn) (i : Nat) (f : Nat → Nat → Nat) (s : State) : State :=
  isaV m i (fun w k => vmap2 32 f (k.getV (iA w)) (k.getV (iB w))) s

/-- VFADD (R431). -/
def execVfadd (core : Nat) (s : State) : Host.Outcome State Fault Refusal :=
  next (isaVf .vfadd core (fun x y => f32.add x y) s)

/-- VFSUB (R431). -/
def execVfsub (core : Nat) (s : State) : Host.Outcome State Fault Refusal :=
  next (isaVf .vfsub core (fun x y => f32.sub x y) s)

/-- VFMUL (R431). -/
def execVfmul (core : Nat) (s : State) : Host.Outcome State Fault Refusal :=
  next (isaVf .vfmul core (fun x y => f32.mul x y) s)

/-- VFDIV (R431). -/
def execVfdiv (core : Nat) (s : State) : Host.Outcome State Fault Refusal :=
  next (isaVf .vfdiv core (fun x y => f32.div x y) s)

/-- VFMIN (R431). -/
def execVfmin (core : Nat) (s : State) : Host.Outcome State Fault Refusal :=
  next (isaVf .vfmin core (fun x y => f32.min x y) s)

/-- VFMAX (R431). -/
def execVfmax (core : Nat) (s : State) : Host.Outcome State Fault Refusal :=
  next (isaVf .vfmax core (fun x y => f32.max x y) s)

/-- VFSQRT (R431). -/
def execVfsqrt (core : Nat) (s : State) : Host.Outcome State Fault Refusal :=
  next (isaVf .vfsqrt core (fun x _ => f32.sqrt x) s)

/-- VFMA: vD + vA × vB, rounded once (R430). -/
def execVfma (core : Nat) (s : State) : Host.Outcome State Fault Refusal :=
  next (isaV .vfma core (fun w k =>
    BitVec.ofNat 256 (ofLanes 32 ((List.range 8).map (fun i =>
      f32.fma (lane (k.getV (iD w)) 32 i) (lane (k.getV (iA w)) 32 i) (lane (k.getV (iB w)) 32 i))))) s)

/-- VFCVTI: to int32 (R430). -/
def execVfcvti (core : Nat) (s : State) : Host.Outcome State Fault Refusal :=
  next (isaVf .vfcvti core (fun x _ => unsgn 32 (f32.toSigned 32 x)) s)

/-- VICVTF: from int32 (R430). -/
def execVicvtf (core : Nat) (s : State) : Host.Outcome State Fault Refusal :=
  next (isaVf .vicvtf core (fun x _ => f32.ofSigned (sgn 32 x)) s)

/-- A binary64 sum over the lanes in order, rounded at each step (R430). -/
def sumLanes (f : Nat → Nat) (acc : Nat) (v : BitVec 256) : Nat :=
  (List.range 8).foldl (fun a i => f64.add a (f (lane v 32 i))) acc

/-- A binary64 sum of squares over the lanes in order: each addition rounds once (R430); a square of a binary32 is exact in binary64. -/
def sumSquares (acc : Nat) (v : BitVec 256) : Nat :=
  (List.range 8).foldl (fun a i => let x := f32.convert f64 (lane v 32 i); f64.fma a x x) acc

/-- VFSQD (R430). -/
def execVfsqd (core : Nat) (s : State) : Host.Outcome State Fault Refusal :=
  next (isaG .vfsqd core (fun w k => BitVec.ofNat 64 (sumSquares (k.getG (iD w)).toNat (k.getV (iA w)))) s)

/-- VFSUMD (R430). -/
def execVfsumd (core : Nat) (s : State) : Host.Outcome State Fault Refusal :=
  next (isaG .vfsumd core (fun w k => BitVec.ofNat 64 (sumLanes (f32.convert f64) (k.getG (iD w)).toNat (k.getV (iA w)))) s)

/-- VBCAST (R430). -/
def execVbcast (core : Nat) (s : State) : Host.Outcome State Fault Refusal :=
  next (isaV .vbcast core (fun w k => vmap2 (laneW w) (fun _ _ => (k.getG (iA w)).toNat) 0#256 0#256) s)

/-- VEXT (R430). -/
def execVext (core : Nat) (s : State) : Host.Outcome State Fault Refusal :=
  next (isaG .vext core (fun w k => BitVec.ofNat 64 (lane (k.getV (iA w)) (laneW w) ((k.getG (iB w)).toNat % (256 / laneW w)))) s)

/-- VINS (R430). -/
def execVins (core : Nat) (s : State) : Host.Outcome State Fault Refusal :=
  next (isaV .vins core (fun w k =>
    let n := laneW w
    let at' := (k.getG (iB w)).toNat % (256 / n)
    BitVec.ofNat 256 (ofLanes n ((List.range (256 / n)).map (fun i => if i = at' then (k.getG (iA w)).toNat else lane (k.getV (iD w)) n i)))) s)

/-- VMOV (R430). -/
def execVmov (core : Nat) (s : State) : Host.Outcome State Fault Refusal :=
  next (isaV .vmov core (fun w k => k.getV (iA w)) s)

end Sys2Proof.Machine
end

