-- ==== Sys2Proof/Machine/IsaKbf.lean ====
section
/-! DEFINITION. Fraction instructions: blocks in registers (R426), KLD to KSRD (R432), KMAC (R433), KENC and KENCF (R434). -/

namespace Sys2Proof.Machine

open Sys2Proof

/-- The element width a header names for register operands; a reserved FMT counts as width 8, all markers (R50, R432). -/
def regWidth (h : W16) : Nat := (kbfWidth (hFmt h)).getD 8

/-- The header in bits [15:0], and the second one in bits [31:16], of a header word (R426). -/
def hdrLo (g : W64) : W16 := BitVec.ofNat 16 (bn g 15 0)
def hdrHi (g : W64) : W16 := BitVec.ofNat 16 (bn g 31 16)

/-- A lane as a code of width `w`: −2^(w − 1) is the marker (R426). -/
def laneCode (w n x : Nat) : Code := let v := sgn n x; if v = -(2 ^ (w - 1) : Nat) then none else some v

/-- The 32 codes in code form from vector register `n` (R426). A reserved FMT makes every code a marker (R50). -/
def regCodes (k : Core) (n : Nat) (h : W16) : List Code :=
  match kbfWidth (hFmt h) with
  | none => List.replicate 32 none
  | some w =>
    if w ≤ 8 then (List.range 32).map (fun i => laneCode w 8 (lane (k.getV n) 8 i))
    else (List.range 32).map (fun i => laneCode w 16 (lane (k.getV (n + i / 16)) 16 (i % 16)))

/-- Writes 32 codes in code form to vector register `n` (R426). -/
def setCodes (k : Core) (n w : Nat) (cs : List Code) : Core :=
  let lanes (b : Nat) (xs : List Code) : BitVec 256 := BitVec.ofNat 256 (ofLanes b (xs.map (fun c => match c with
    | none => unsgn b (-(2 ^ (w - 1) : Nat))
    | some v => unsgn b v)))
  if w ≤ 8 then k.setV n (lanes 8 cs) else (k.setV n (lanes 16 (cs.take 16))).setV (n + 1) (lanes 16 (cs.drop 16))

/-- A header word with the size of its block (R426). -/
def hdrWord (h : W16) (size : Nat) : W64 := BitVec.ofNat 64 (h.toNat + at_ 32 size)

/-- Loads the parts of a block from `a`: header, mask, whole block (R432). -/
def coreLoadBlock (s : State) (i a : Nat) : MemRes :=
  match coreLoad s i a 2 with
  | .ok s1 h =>
    let hdr : W16 := BitVec.ofNat 16 (leNat h)
    if hSparse hdr then
      match coreLoad s1 i (a + 2) 4 with
      | .ok s2 m => coreLoad s2 i a (blockSize hdr (leNat m))
      | r => r
    else coreLoad s1 i a (blockSize hdr 0)
  | r => r

/-- KLD (R432). -/
def execKld (core : Nat) (s : State) : Host.Outcome State Fault Refusal :=
  next (isa .kld core (fun w s => match coreLoadBlock s core ((s.core core).getG (iA w)).toNat with
    | .ok s1 bs =>
      let b := readBlock bs
      .done (s1.setCore core ((setCodes (s1.core core) (iD w) b.w b.codes).setG (iB w) (hdrWord b.hdr b.size)))
    | .xcpt s1 c a => .xcpt s1 c a
    | .wait s1 => .wait s1) s)

/-- The block that KST writes: EXP, FMT, SAT and the layout of the given header over the codes, with NF and ZERO recomputed as in every
block that the KY9 writes (R49, R52, R432; DEDUCED, log 137). -/
def kstBlock (h : W16) (cs : List Code) : Enc :=
  encHeader (hFmt h) ((kbfWidth (hFmt h)).getD 8) ((hExp h : Int) - 127) (hSat h) (if hSparse h then 1 else 0) cs

/-- KST (R432): a reserved FMT raises the illegal-instruction exception. -/
def execKst (core : Nat) (s : State) : Host.Outcome State Fault Refusal :=
  next (isa .kst core (fun w s =>
    let k := s.core core
    let h := hdrLo (k.getG (iB w))
    if (kbfWidth (hFmt h)).isNone then .xcpt s 1 0
    else match coreStore s core (k.getG (iA w)).toNat (writeBlock (kstBlock h (regCodes k (iD w) h))) with
      | .ok s1 _ => .done s1
      | .xcpt s1 c a => .xcpt s1 c a
      | .wait s1 => .wait s1) s)

/-- The exact values of a block in registers (R48, R50). -/
def regVals (k : Core) (n : Nat) (h : W16) : List Val :=
  if hZero h && (kbfWidth (hFmt h)).isSome then List.replicate 32 (some ⟨0, 0⟩)
  else (regCodes k n h).map (codeVal (hScale h (regWidth h)))

/-- KDEC (R432). -/
def execKdec (core : Nat) (s : State) : Host.Outcome State Fault Refusal :=
  next (isaV .kdec core (fun w k =>
    let xs := regVals k (iA w) (hdrLo (k.getG (iB w)))
    BitVec.ofNat 256 (ofLanes 32 (((xs.drop (8 * iSel w)).take 8).map valF32))) s)

/-- accD := an accumulator. -/
def isaAcc (m : Mn) (i : Nat) (f : W32 → Core → Acc) (s : State) : State :=
  isa m i (fun w s => .done (s.setCore i ((s.core i).setAcc (iD w) (f w (s.core i))))) s

/-- KZ (R432). -/
def execKz (core : Nat) (s : State) : Host.Outcome State Fault Refusal := next (isaAcc .kz core (fun _ _ => {}) s)

/-- A block marked ZERO adds no terms (R432). -/
def noTerms (h : W16) : Bool := hZero h && (kbfWidth (hFmt h)).isSome

/-- KADD: G = 16 (R432). -/
def execKadd (core : Nat) (s : State) : Host.Outcome State Fault Refusal :=
  next (isaAcc .kadd core (fun w k =>
    let h := hdrLo (k.getG (iB w))
    let a := k.getAcc (iD w)
    if noTerms h then a else a.add (hScale h (regWidth h)) 16 (regCodes k (iA w) h)) s)

/-- KACC2F (R432, R170). -/
def execKacc2f (core : Nat) (s : State) : Host.Outcome State Fault Refusal :=
  next (isaV .kacc2f core (fun w k =>
    BitVec.ofNat 256 (ofLanes 32 ((((k.getAcc (iA w)).vals.drop (8 * iSel w)).take 8).map (fun v => (valF32Held v).1)))) s)

/-- KSRD (R432). -/
def execKsrd (core : Nat) (s : State) : Host.Outcome State Fault Refusal :=
  next (isaG .ksrd core (fun w k =>
    let a := k.getAcc (iA w)
    BitVec.ofNat 64 (unsgn 10 a.s + at_ 16 (b2n a.empty) + at_ 17 (b2n a.held))) s)

/-- KMAC (R433): gH names the two headers, G = 0. -/
def execKmac (core : Nat) (s : State) : Host.Outcome State Fault Refusal :=
  next (isaAcc .kmac core (fun w k =>
    let g := k.getG (iFn5 w)
    let hx := hdrLo g
    let hy := hdrHi g
    let a := k.getAcc (iD w)
    if noTerms hx || noTerms hy then a
    else a.add (hScale hx (regWidth hx) + hScale hy (regWidth hy)) 0
      (List.zipWith codeMul (regCodes k (iA w) hx) (regCodes k (iB w) hy))) s)

/-- Encodes values by the fields of KENC and KENCF with the cluster's generator (R434, R54). -/
def isaEnc (m : Mn) (i : Nat) (src : W32 → Core → List Val × Bool) (s : State) : State :=
  isa m i (fun w s =>
    let k := s.core i
    let fmt := bn w 27 25
    let width := (kbfWidth fmt).getD 8
    let (vals, held) := src w k
    let c := coreCluster i
    let (e, rs) := encodeBlock fmt width (iSel w) (RMode.ofCode (bn w 29 28)) held vals (s.cl c).rs
    let s1 := s.setCl c { s.cl c with rs := rs }
    .done (s1.setCore i ((setCodes k (iD w) width e.codes).setG (iB w) (hdrWord e.hdr (writeBlock e).length)))) s

/-- KENC (R434). -/
def execKenc (core : Nat) (s : State) : Host.Outcome State Fault Refusal :=
  next (isaEnc .kenc core (fun w k => let a := k.getAcc (iA w); (a.vals, a.held)) s)

/-- KENCF (R434, R63). -/
def execKencf (core : Nat) (s : State) : Host.Outcome State Fault Refusal :=
  next (isaEnc .kencf core (fun w k =>
    ((List.range 32).map (fun i => floatVal f32 (lane (k.getV (iA w + i / 8)) 32 (i % 8))), false)) s)

end Sys2Proof.Machine
end

