-- ==== Sys2Proof/Machine/IsaMem.lean ====
section
/-! DEFINITION. Memory instructions: loads, stores, vector accesses, atomics (R430, R144 to R149). -/

namespace Sys2Proof.Machine

open Sys2Proof

/-- The address of an M-format access: gA + IMM12 × size (R430). -/
def mAddr (w : W32) (k : Core) (size : Nat) : Nat := (k.getG (iA w) + BitVec.ofInt 64 (iImm12 w * size)).toNat

/-- A load: the bytes read go through `f` into the core (R430). -/
def isaLoad (m : Mn) (i size : Nat) (f : W32 → Core → List Byte → Core) (s : State) : State :=
  isa m i (fun w s => match coreLoad s i (mAddr w (s.core i) size) size with
    | .ok s1 bs => .done (s1.setCore i (f w (s1.core i) bs))
    | .xcpt s1 c a => .xcpt s1 c a
    | .wait s1 => .wait s1) s

/-- A load into gD, zero-extended or sign-extended. -/
def isaLd (m : Mn) (i size : Nat) (signed : Bool) (s : State) : State :=
  isaLoad m i size (fun w k bs => k.setG (iD w) (if signed then BitVec.ofInt 64 (sgn (8 * size) (leNat bs)) else BitVec.ofNat 64 (leNat bs))) s

/-- A store of bytes that the core gives. -/
def isaStore (m : Mn) (i size : Nat) (f : W32 → Core → List Byte) (s : State) : State :=
  isa m i (fun w s => match coreStore s i (mAddr w (s.core i) size) (f w (s.core i)) with
    | .ok s1 _ => .done s1
    | .xcpt s1 c a => .xcpt s1 c a
    | .wait s1 => .wait s1) s

/-- A store of the low bytes of gD. -/
def isaSt (m : Mn) (i size : Nat) (s : State) : State := isaStore m i size (fun w k => leBytes size (k.getG (iD w)).toNat) s

/-- An atomic at gA: gD → the old value (R430). -/
def isaAmo (m : Mn) (i : Nat) (f : W32 → Core → W64 → Option W64) (s : State) : State :=
  isa m i (fun w s => match coreAtomic s i ((s.core i).getG (iA w)).toNat (f w (s.core i)) with
    | .ok s1 bs => .done (s1.setCore i ((s1.core i).setG (iD w) (BitVec.ofNat 64 (leNat bs))))
    | .xcpt s1 c a => .xcpt s1 c a
    | .wait s1 => .wait s1) s

/-- LD8U (R430). -/
def execLd8u (core : Nat) (s : State) : Host.Outcome State Fault Refusal :=
  next (isaLd .ld8u core 1 false s)

/-- LD16U (R430). -/
def execLd16u (core : Nat) (s : State) : Host.Outcome State Fault Refusal :=
  next (isaLd .ld16u core 2 false s)

/-- LD32U (R430). -/
def execLd32u (core : Nat) (s : State) : Host.Outcome State Fault Refusal :=
  next (isaLd .ld32u core 4 false s)

/-- LD64 (R430). -/
def execLd64 (core : Nat) (s : State) : Host.Outcome State Fault Refusal :=
  next (isaLd .ld64 core 8 false s)

/-- LD8S (R430). -/
def execLd8s (core : Nat) (s : State) : Host.Outcome State Fault Refusal :=
  next (isaLd .ld8s core 1 true s)

/-- LD16S (R430). -/
def execLd16s (core : Nat) (s : State) : Host.Outcome State Fault Refusal :=
  next (isaLd .ld16s core 2 true s)

/-- LD32S (R430). -/
def execLd32s (core : Nat) (s : State) : Host.Outcome State Fault Refusal :=
  next (isaLd .ld32s core 4 true s)

/-- ST8 (R430). -/
def execSt8 (core : Nat) (s : State) : Host.Outcome State Fault Refusal :=
  next (isaSt .st8 core 1 s)

/-- ST16 (R430). -/
def execSt16 (core : Nat) (s : State) : Host.Outcome State Fault Refusal :=
  next (isaSt .st16 core 2 s)

/-- ST32 (R430). -/
def execSt32 (core : Nat) (s : State) : Host.Outcome State Fault Refusal :=
  next (isaSt .st32 core 4 s)

/-- ST64 (R430). -/
def execSt64 (core : Nat) (s : State) : Host.Outcome State Fault Refusal :=
  next (isaSt .st64 core 8 s)

/-- VLD (R430). -/
def execVld (core : Nat) (s : State) : Host.Outcome State Fault Refusal :=
  next (isaLoad .vld core 32 (fun w k bs => k.setV (iD w) (BitVec.ofNat 256 (leNat bs))) s)

/-- VST (R430). -/
def execVst (core : Nat) (s : State) : Host.Outcome State Fault Refusal :=
  next (isaStore .vst core 32 (fun w k => leBytes 32 (k.getV (iD w)).toNat) s)

/-- AMOADD (R149). -/
def execAmoadd (core : Nat) (s : State) : Host.Outcome State Fault Refusal :=
  next (isaAmo .amoadd core (fun w k old => some (old + k.getG (iB w))) s)

/-- AMOCAS (R149). -/
def execAmocas (core : Nat) (s : State) : Host.Outcome State Fault Refusal :=
  next (isaAmo .amocas core (fun w k old => if old = k.getG (iD w) then some (k.getG (iB w)) else none) s)

/-- AMOSWP (R149). -/
def execAmoswp (core : Nat) (s : State) : Host.Outcome State Fault Refusal :=
  next (isaAmo .amoswp core (fun w k _ => some (k.getG (iB w))) s)

end Sys2Proof.Machine
end

