-- ==== Sys2Proof/Machine/IsaScalar.lean ====
section
/-! DEFINITION. Scalar instructions: integer, predicate, floating point, branches (R430, R431). -/

namespace Sys2Proof.Machine

open Sys2Proof

/-- Signed and unsigned division (R430): quotients round toward zero, division by zero gives all ones and the dividend. -/
def divS (a b : W64) : W64 := if b = 0#64 then BitVec.allOnes 64 else a.sdiv b
def divU (a b : W64) : W64 := if b = 0#64 then BitVec.allOnes 64 else a / b
def remS (a b : W64) : W64 := if b = 0#64 then a else a.srem b
def remU (a b : W64) : W64 := if b = 0#64 then a else a % b

/-- Bits [127:64] of the signed and of the unsigned product. -/
def mulHi (a b : W64) : W64 := BitVec.ofInt 64 (a.toInt * b.toInt / 2 ^ 64)
def mulHiU (a b : W64) : W64 := BitVec.ofNat 64 (a.toNat * b.toNat / 2 ^ 64)

/-- Leading zeros of the low `n` bits. -/
def leadZeros : Nat → Nat → Nat
  | 0, _ => 0
  | n + 1, x => if x.testBit n then 0 else 1 + leadZeros n x

/-- ADD (R430). -/
def execAdd (core : Nat) (s : State) : Host.Outcome State Fault Refusal :=
  next (isaAlu .add core (fun a b => a + b) s)

/-- SUB (R430). -/
def execSub (core : Nat) (s : State) : Host.Outcome State Fault Refusal :=
  next (isaAlu .sub core (fun a b => a - b) s)

/-- AND (R430). -/
def execAnd (core : Nat) (s : State) : Host.Outcome State Fault Refusal :=
  next (isaAlu .and core (fun a b => a &&& b) s)

/-- OR (R430). -/
def execOr (core : Nat) (s : State) : Host.Outcome State Fault Refusal :=
  next (isaAlu .or core (fun a b => a ||| b) s)

/-- XOR (R430). -/
def execXor (core : Nat) (s : State) : Host.Outcome State Fault Refusal :=
  next (isaAlu .xor core (fun a b => a ^^^ b) s)

/-- SHL: the count is gB[5:0] (R430). -/
def execShl (core : Nat) (s : State) : Host.Outcome State Fault Refusal :=
  next (isaAlu .shl core (fun a b => a <<< (b.toNat % 64)) s)

/-- SHR (R430). -/
def execShr (core : Nat) (s : State) : Host.Outcome State Fault Refusal :=
  next (isaAlu .shr core (fun a b => a >>> (b.toNat % 64)) s)

/-- SRA (R430). -/
def execSra (core : Nat) (s : State) : Host.Outcome State Fault Refusal :=
  next (isaAlu .sra core (fun a b => a.sshiftRight (b.toNat % 64)) s)

/-- MUL (R430). -/
def execMul (core : Nat) (s : State) : Host.Outcome State Fault Refusal :=
  next (isaAlu .mul core (fun a b => a * b) s)

/-- MULH (R430). -/
def execMulh (core : Nat) (s : State) : Host.Outcome State Fault Refusal :=
  next (isaAlu .mulh core (fun a b => mulHi a b) s)

/-- MULHU (R430). -/
def execMulhu (core : Nat) (s : State) : Host.Outcome State Fault Refusal :=
  next (isaAlu .mulhu core (fun a b => mulHiU a b) s)

/-- DIV (R430). -/
def execDiv (core : Nat) (s : State) : Host.Outcome State Fault Refusal :=
  next (isaAlu .div core (fun a b => divS a b) s)

/-- DIVU (R430). -/
def execDivu (core : Nat) (s : State) : Host.Outcome State Fault Refusal :=
  next (isaAlu .divu core (fun a b => divU a b) s)

/-- REM (R430). -/
def execRem (core : Nat) (s : State) : Host.Outcome State Fault Refusal :=
  next (isaAlu .rem core (fun a b => remS a b) s)

/-- REMU (R430). -/
def execRemu (core : Nat) (s : State) : Host.Outcome State Fault Refusal :=
  next (isaAlu .remu core (fun a b => remU a b) s)

/-- MIN (R430). -/
def execMin (core : Nat) (s : State) : Host.Outcome State Fault Refusal :=
  next (isaAlu .min core (fun a b => if a.slt b then a else b) s)

/-- MAX (R430). -/
def execMax (core : Nat) (s : State) : Host.Outcome State Fault Refusal :=
  next (isaAlu .max core (fun a b => if a.slt b then b else a) s)

/-- MINU (R430). -/
def execMinu (core : Nat) (s : State) : Host.Outcome State Fault Refusal :=
  next (isaAlu .minu core (fun a b => if a.ult b then a else b) s)

/-- MAXU (R430). -/
def execMaxu (core : Nat) (s : State) : Host.Outcome State Fault Refusal :=
  next (isaAlu .maxu core (fun a b => if a.ult b then b else a) s)

/-- CLZ (R430). -/
def execClz (core : Nat) (s : State) : Host.Outcome State Fault Refusal :=
  next (isaAlu .clz core (fun a _ => BitVec.ofNat 64 (leadZeros 64 a.toNat)) s)

/-- POPC (R430). -/
def execPopc (core : Nat) (s : State) : Host.Outcome State Fault Refusal :=
  next (isaAlu .popc core (fun a _ => BitVec.ofNat 64 (popcount 64 a.toNat)) s)

/-- RDP (R430): p0 reads 1. -/
def execRdp (core : Nat) (s : State) : Host.Outcome State Fault Refusal :=
  next (isaG .rdp core (fun _ k => BitVec.ofNat 64 (((List.range 8).map (fun n => at_ n (b2n (k.getP n)))).sum)) s)

/-- ADDI (R430). -/
def execAddi (core : Nat) (s : State) : Host.Outcome State Fault Refusal :=
  next (isaImm .addi core (fun a b => a + b) s)

/-- ANDI (R430). -/
def execAndi (core : Nat) (s : State) : Host.Outcome State Fault Refusal :=
  next (isaImm .andi core (fun a b => a &&& b) s)

/-- ORI (R430). -/
def execOri (core : Nat) (s : State) : Host.Outcome State Fault Refusal :=
  next (isaImm .ori core (fun a b => a ||| b) s)

/-- XORI (R430). -/
def execXori (core : Nat) (s : State) : Host.Outcome State Fault Refusal :=
  next (isaImm .xori core (fun a b => a ^^^ b) s)

/-- SHLI (R430). -/
def execShli (core : Nat) (s : State) : Host.Outcome State Fault Refusal :=
  next (isaImm .shli core (fun a b => a <<< (b.toNat % 64)) s)

/-- SHRI (R430). -/
def execShri (core : Nat) (s : State) : Host.Outcome State Fault Refusal :=
  next (isaImm .shri core (fun a b => a >>> (b.toNat % 64)) s)

/-- SRAI (R430). -/
def execSrai (core : Nat) (s : State) : Host.Outcome State Fault Refusal :=
  next (isaImm .srai core (fun a b => a.sshiftRight (b.toNat % 64)) s)

/-- MOVZ (R430). -/
def execMovz (core : Nat) (s : State) : Host.Outcome State Fault Refusal :=
  next (isaG .movz core (fun w _ => BitVec.ofNat 64 (iImm16 w)) s)

/-- gD[16k + 15 : 16k] := IMM16; the other bits are kept (R430). -/
def insert16 (k : Nat) (v : W64) (x : Nat) : W64 :=
  (v &&& ~~~(BitVec.ofNat 64 (0xFFFF * 2 ^ (16 * k)))) ||| BitVec.ofNat 64 (x * 2 ^ (16 * k))

/-- MOVK0 (R430). -/
def execMovk0 (core : Nat) (s : State) : Host.Outcome State Fault Refusal :=
  next (isaG .movk0 core (fun w k => insert16 0 (k.getG (iD w)) (iImm16 w)) s)

/-- MOVK1 (R430). -/
def execMovk1 (core : Nat) (s : State) : Host.Outcome State Fault Refusal :=
  next (isaG .movk1 core (fun w k => insert16 1 (k.getG (iD w)) (iImm16 w)) s)

/-- MOVK2 (R430). -/
def execMovk2 (core : Nat) (s : State) : Host.Outcome State Fault Refusal :=
  next (isaG .movk2 core (fun w k => insert16 2 (k.getG (iD w)) (iImm16 w)) s)

/-- MOVK3 (R430). -/
def execMovk3 (core : Nat) (s : State) : Host.Outcome State Fault Refusal :=
  next (isaG .movk3 core (fun w k => insert16 3 (k.getG (iD w)) (iImm16 w)) s)

/-- A comparison of gA with gB (R430). -/
def isaCmp (m : Mn) (i : Nat) (f : W64 → W64 → Bool) (s : State) : State := isaP m i (fun w k => f (k.getG (iA w)) (k.getG (iB w))) s

/-- CMPEQ (R430). -/
def execCmpeq (core : Nat) (s : State) : Host.Outcome State Fault Refusal :=
  next (isaCmp .cmpeq core (fun a b => a == b) s)

/-- CMPNE (R430). -/
def execCmpne (core : Nat) (s : State) : Host.Outcome State Fault Refusal :=
  next (isaCmp .cmpne core (fun a b => a != b) s)

/-- CMPLT (R430). -/
def execCmplt (core : Nat) (s : State) : Host.Outcome State Fault Refusal :=
  next (isaCmp .cmplt core (fun a b => a.slt b) s)

/-- CMPGE (R430). -/
def execCmpge (core : Nat) (s : State) : Host.Outcome State Fault Refusal :=
  next (isaCmp .cmpge core (fun a b => !a.slt b) s)

/-- CMPLTU (R430). -/
def execCmpltu (core : Nat) (s : State) : Host.Outcome State Fault Refusal :=
  next (isaCmp .cmpltu core (fun a b => a.ult b) s)

/-- CMPGEU (R430). -/
def execCmpgeu (core : Nat) (s : State) : Host.Outcome State Fault Refusal :=
  next (isaCmp .cmpgeu core (fun a b => !a.ult b) s)

/-- CMPEQI (R430). -/
def execCmpeqi (core : Nat) (s : State) : Host.Outcome State Fault Refusal :=
  next (isaP .cmpeqi core (fun w k => k.getG (iA w) == BitVec.ofInt 64 (iImm12 w)) s)

/-- CMPLTI (R430). -/
def execCmplti (core : Nat) (s : State) : Host.Outcome State Fault Refusal :=
  next (isaP .cmplti core (fun w k => (k.getG (iA w)).slt (BitVec.ofInt 64 (iImm12 w))) s)

/-- PAND (R430). -/
def execPand (core : Nat) (s : State) : Host.Outcome State Fault Refusal :=
  next (isaP .pand core (fun w k => let a := k.getP (iA w); let b := k.getP (iB w); a && b) s)

/-- POR (R430). -/
def execPor (core : Nat) (s : State) : Host.Outcome State Fault Refusal :=
  next (isaP .por core (fun w k => let a := k.getP (iA w); let b := k.getP (iB w); a || b) s)

/-- PXOR (R430). -/
def execPxor (core : Nat) (s : State) : Host.Outcome State Fault Refusal :=
  next (isaP .pxor core (fun w k => let a := k.getP (iA w); let b := k.getP (iB w); a != b) s)

/-- PANDN (R430). -/
def execPandn (core : Nat) (s : State) : Host.Outcome State Fault Refusal :=
  next (isaP .pandn core (fun w k => let a := k.getP (iA w); let b := k.getP (iB w); a && !b) s)

/-- The precision FN[6] names, and the other one (R431). -/
def fpFmt (w : W32) : FFmt := if bt w 31 then f64 else f32
def fpOther (w : W32) : FFmt := if bt w 31 then f32 else f64

/-- An operand of a floating-point instruction: binary32 lies in bits [31:0] (R431). -/
def fpArg (f : FFmt) (v : W64) : Nat := v.toNat % 2 ^ f.width

/-- gD → gA op gB in floating point (R431). -/
def isaFp (m : Mn) (i : Nat) (f : FFmt → Nat → Nat → Nat) (s : State) : State :=
  isaG m i (fun w k => let t := fpFmt w; BitVec.ofNat 64 (f t (fpArg t (k.getG (iA w))) (fpArg t (k.getG (iB w))))) s

/-- pD := a floating-point comparison (R431). -/
def isaFcmp (m : Mn) (i : Nat) (f : FFmt → Nat → Nat → Bool) (s : State) : State :=
  isaP m i (fun w k => let t := fpFmt w; f t (fpArg t (k.getG (iA w))) (fpArg t (k.getG (iB w)))) s

/-- FADD (R431). -/
def execFadd (core : Nat) (s : State) : Host.Outcome State Fault Refusal :=
  next (isaFp .fadd core (fun t x y => t.add x y) s)

/-- FSUB (R431). -/
def execFsub (core : Nat) (s : State) : Host.Outcome State Fault Refusal :=
  next (isaFp .fsub core (fun t x y => t.sub x y) s)

/-- FMUL (R431). -/
def execFmul (core : Nat) (s : State) : Host.Outcome State Fault Refusal :=
  next (isaFp .fmul core (fun t x y => t.mul x y) s)

/-- FDIV (R431). -/
def execFdiv (core : Nat) (s : State) : Host.Outcome State Fault Refusal :=
  next (isaFp .fdiv core (fun t x y => t.div x y) s)

/-- FMIN (R431). -/
def execFmin (core : Nat) (s : State) : Host.Outcome State Fault Refusal :=
  next (isaFp .fmin core (fun t x y => t.min x y) s)

/-- FMAX (R431). -/
def execFmax (core : Nat) (s : State) : Host.Outcome State Fault Refusal :=
  next (isaFp .fmax core (fun t x y => t.max x y) s)

/-- FSQRT (R431). -/
def execFsqrt (core : Nat) (s : State) : Host.Outcome State Fault Refusal :=
  next (isaFp .fsqrt core (fun t x _ => t.sqrt x) s)

/-- FMA: gD + gA × gB, rounded once (R430). -/
def execFma (core : Nat) (s : State) : Host.Outcome State Fault Refusal :=
  next (isaG .fma core (fun w k => let t := fpFmt w; BitVec.ofNat 64 (t.fma (fpArg t (k.getG (iD w))) (fpArg t (k.getG (iA w))) (fpArg t (k.getG (iB w))))) s)

/-- FCVT: to the other precision (R430). -/
def execFcvt (core : Nat) (s : State) : Host.Outcome State Fault Refusal :=
  next (isaG .fcvt core (fun w k => BitVec.ofNat 64 ((fpFmt w).convert (fpOther w) (fpArg (fpFmt w) (k.getG (iA w))))) s)

/-- FCVTI: to int64, toward zero, held at the limits, NaN gives 0 (R430). -/
def execFcvti (core : Nat) (s : State) : Host.Outcome State Fault Refusal :=
  next (isaG .fcvti core (fun w k => BitVec.ofInt 64 ((fpFmt w).toSigned 64 (fpArg (fpFmt w) (k.getG (iA w))))) s)

/-- ICVTF: from int64 (R430). -/
def execIcvtf (core : Nat) (s : State) : Host.Outcome State Fault Refusal :=
  next (isaG .icvtf core (fun w k => BitVec.ofNat 64 ((fpFmt w).ofSigned (k.getG (iA w)).toInt)) s)

/-- FEQ (R431). -/
def execFeq (core : Nat) (s : State) : Host.Outcome State Fault Refusal :=
  next (isaFcmp .feq core (fun t x y => t.eq x y) s)

/-- FLT (R431). -/
def execFlt (core : Nat) (s : State) : Host.Outcome State Fault Refusal :=
  next (isaFcmp .flt core (fun t x y => t.lt x y) s)

/-- FLE (R431). -/
def execFle (core : Nat) (s : State) : Host.Outcome State Fault Refusal :=
  next (isaFcmp .fle core (fun t x y => t.le x y) s)

/-- The target of a branch: PC + 4 × IMM22. -/
def branchTo (w : W32) (k : Core) : W64 := k.pc + BitVec.ofInt 64 (4 * iImm22 w)

/-- BR (R430). -/
def execBr (core : Nat) (s : State) : Host.Outcome State Fault Refusal :=
  next (isa .br core (fun w s => .jump s (branchTo w (s.core core))) s)

/-- BL: g31 := PC + 4 (R430). -/
def execBl (core : Nat) (s : State) : Host.Outcome State Fault Refusal :=
  next (isa .bl core (fun w s => let k := s.core core; .jump (s.setCore core (k.setG 31 (k.pc + 4#64))) (branchTo w k)) s)

/-- JR (R430): a misaligned target raises the access-fault exception (R439). -/
def execJr (core : Nat) (s : State) : Host.Outcome State Fault Refusal :=
  next (isa .jr core (fun w s =>
    let t := (s.core core).getG (iA w)
    if t.toNat % 4 = 0 then .jump s t else .xcpt s 2 t.toNat) s)

/-- JRL: gD := PC + 4 (R430). -/
def execJrl (core : Nat) (s : State) : Host.Outcome State Fault Refusal :=
  next (isa .jrl core (fun w s =>
    let k := s.core core
    let t := k.getG (iA w)
    if t.toNat % 4 = 0 then .jump (s.setCore core (k.setG (iD w) (k.pc + 4#64))) t else .xcpt s 2 t.toNat) s)

end Sys2Proof.Machine
end

