-- ==== Sys2Proof/Machine/Reli.lean ====
section
/-! DEFINITION. Verdigris and Swatch: trouble thresholds (R505, R506), Umber restarts (R508), margins (R509), retention (R510),
self-tests (R513, R522), the retirement map (R514, R522), and the reliability commands (R521). -/

namespace Sys2Proof.Machine

open Sys2Proof

/-! Trouble. -/

/-- The kind of a unit (R506). -/
def unitKind (u : Nat) : Nat :=
  let i := unitIndex u
  if (unitCluster u).isSome then (if i ≤ 8 ∨ i = 16 ∨ i = 17 ∨ (32 ≤ i ∧ i ≤ 47) then 0 else 3)
  else if unitDomain u = 16 ∧ unitGroup u = 2 then 0
  else if (unitStack u).isSome then 1
  else if (unitAp u).isSome ∨ unitDomain u = 20 ∨ (unitDomain u = 18 ∧ i < 32) then 2
  else 3

/-- The default thresholds: CE, UE, TO, FX (R506). -/
def policyDefault (k : Nat) : W64 :=
  match k with
  | 0 => BitVec.ofNat 64 (1000 + at_ 16 4 + at_ 32 64 + at_ 48 4)
  | 1 => BitVec.ofNat 64 (50000 + at_ 16 64 + at_ 32 64 + at_ 48 4)
  | 2 => BitVec.ofNat 64 (1000 + at_ 16 16 + at_ 32 64 + at_ 48 4)
  | _ => BitVec.ofNat 64 (1000 + at_ 16 4 + at_ 32 64 + at_ 48 4)

/-- VERD_POLICY (R523). -/
def policyOf (s : State) (k : Nat) : W64 := mgetD s.rel.policy k (policyDefault k)

/-- VERD_EVENT bits are set (R523). -/
def verdEvent (s : State) (i : Nat) : State := { s with rel := { s.rel with event := s.rel.event ||| BitVec.ofNat 5 (2 ^ i) } }

/-- The loss of the unit would let the device's service end (R511). -/
def endsService (s : State) (u : Nat) : Bool := unitXBlock u || (decide (unitDomain u = 20) && !allReach (markRetired s u))

/-- A planned retirement (R21, R511, R521), with the command that waits for it, 0 for none. -/
def planRetire (s : State) (u cmd : Nat) : State :=
  let s1 : State := { s with rel := { s.rel with planned := s.rel.planned ++ [(u, cmd)] } }
  match unitRegion u with
  | some r => retireRegion s1 r false
  | none => retireUnit s1 u true []

/-- The four counters of a unit are cleared (R521). -/
def clearTrouble (s : State) (u : Nat) : State := if (mget s.fab.trouble u).isSome then { s with fab := { s.fab with trouble := mset s.fab.trouble u {} } } else s

/-- One threshold of a unit has been reached (R506): `c` is the counter, `v` its value. -/
def crossed (u : Nat) (s : State) (c v : Nat) : State :=
  if s.retired u then s
  else
    let ask := !endsService s u && !s.rel.planned.any (fun p => p.1 == u)
    let s1 := (verdEvent s 3).event none 0x10 (u + at_ 16 c + at_ 32 v + at_ 48 (b2n ask))
    if ask then planRetire s1 u 0 else s1

/-- The counters of a unit against their thresholds. A CE counter that has stopped is logged and the unit's counters are cleared. -/
def checkTrouble (s : State) (u : Nat) (t : Trouble) : State :=
  let p := policyOf s (unitKind u)
  let lim (c : Nat) : Nat := bn p (16 * c + 15) (16 * c)
  let hits := [(0, t.ce, t.ce - t.ceBase), (1, t.ue, t.ue), (2, t.tmo, t.tmo), (3, t.fx, t.fx)].filter (fun x => lim x.1 != 0 && decide (lim x.1 ≤ x.2.2))
  let s1 := hits.foldl (fun s x => crossed u s x.1 x.2.1) s
  if t.ce < 65535 then s1
  else
    let s2 := if s.retired u || hits.any (fun x => x.1 == 0) then s1 else (verdEvent s1 3).event none 0x10 (u + at_ 32 65535)
    clearTrouble s2 u

/-- The hourly check (R506). The rise of CE is taken over spans of 24 hours. -/
def execTroubleCheck (s : State) : Host.Outcome State Fault Refusal :=
  let s1 := s.fab.trouble.foldl (fun s p => if unitValid p.1 then checkTrouble s p.1 p.2 else s) s
  let s2 : State := if s.now - s.rel.ceSpan < 86400000000000 then s1
    else { s1 with fab := { s1.fab with trouble := mmap s1.fab.trouble (fun _ t => { t with ceBase := t.ce }) }, rel := { s1.rel with ceSpan := s1.now } }
  next (afterUnit s2)

/-- A handshake stage holds a request for more than 10 µs, or credit stays out for more than 100 µs (R505). -/
def execHandshakeStallTimeout (unit : Nat) (s : State) : Host.Outcome State Fault Refusal :=
  if unitValid unit then next (s.trouble unit .tmo) else next s

/-! Umber. -/

/-- A lockstep mismatch (R508, R531): Umber restarts, and a start repeats from t0; one that recurs within 1 s is a package fault. -/
def execUmberMismatch (s : State) : Host.Outcome State Fault Refusal :=
  let again := match s.umb.lastMismatch with
    | some t => decide (s.now - t < 1000000000)
    | none => false
  let s1 : State := { s with umb := { s.umb with restarts := s.umb.restarts + 1, lastMismatch := some s.now, restarting := true } }
  let s2 := s1.event (some 0x10) 0x11 (s1.umb.restarts % 65536 + at_ 16 (b2n again))
  if 1 ≤ s.umb.phase ∧ s.umb.phase ≤ 6 then
    let s3 := railsOff s2
    next { s3 with umb := { s3.umb with restarts := s2.umb.restarts, lastMismatch := s2.umb.lastMismatch, restarting := true, waiting := s2.umb.waiting, barred := false } }
  else if again then next (packageFault s2)
  else next s2

/-- The restart from ROM is over (R508): what was started meanwhile is performed. -/
def execUmberRestartEnd (s : State) : Host.Outcome State Fault Refusal :=
  if !s.umb.restarting then next s
  else next (s.umb.waiting.foldl umberDo { s with umb := { s.umb with restarting := false, waiting := [] } })

/-! Margins. -/

/-- 80,000 × R_worst at a TMAX: the rate in M steps/s, the junction in 0.125 °C (R509). -/
def worst80000 (rate : Nat) (tj : Int) (tmax : Nat) : Int :=
  if 8 * (tmax : Int) ≤ tj then 80000 * (rate : Int) else (rate : Int) * (80000 - 15 * (8 * (tmax : Int) - tj))

/-- The margin of 1,320 M steps/s is kept. -/
def marginOk (rate : Nat) (tj : Int) (tmax : Nat) : Bool := decide (1320 * 80000 ≤ worst80000 rate tj tmax)

/-- A region's TMAX falls (R509, R513). -/
def derate (s : State) (r tmax : Nat) : State :=
  let v := mgetD s.rel.verd r {}
  let s1 : State := { s with rel := { s.rel with verd := mset s.rel.verd r { v with tmax := tmax, vstate := max 1 v.vstate } } }
  (verdEvent s1 1).note (unitId r 7 0)

/-- The setpoint of an X-die in mV, its own ageing offset included (R26). -/
def xSetpoint (s : State) (x : Nat) : Nat := 750 + mgetD s.fab.xOffset x 0

/-- The ageing offset of an X-die rises by a step of 5 mV, to 60 mV at most (R26, R31). -/
def raiseX (s : State) (x : Nat) : State := { s with fab := { s.fab with xOffset := mset s.fab.xOffset x (min 60 (mgetD s.fab.xOffset x 0 + 5)) } }

/-- One check of a region (R509): what is measured is the achieved rate, the hottest junction and the rate over that at manufacture. How
VERD_RGN_WORST rounds is open. The X-dies, which keep the same floor with an offset of their own (R26, R31), are checked as numbers 16
and 17 (DESIGN CHOICE, safe; log 135). -/
def execMarginCheck (region : Nat) (rate tj age : W32) (s : State) : Host.Outcome State Fault Refusal :=
  let g := s.rgn region
  if 16 ≤ region then next (if region < 18 ∧ marginOk rate.toNat tj.toInt 100 = false then raiseX s (region - 16) else s)
  else if (g.rstate ≠ .inService ∧ g.rstate ≠ .resetting) ∨ g.retiring ≠ 0 then next s
  else
    let v := mgetD s.rel.verd region {}
    let t : Int := tj.toInt
    let n := rate.toNat
    let (up, s0) := s.choose 2
    let w := worst80000 n t v.tmax
    let shown := (w / 80000).toNat + (if w % 80000 = 0 then 0 else up)
    let s1 := s0.setRgn region { g with rate := rate, tj := tj }
    let s2 : State := { s1 with rel := { s1.rel with verd := mset s1.rel.verd region { v with worst := shown % 2 ^ 32, age := age.toNat } } }
    if marginOk n t v.tmax then next s2
    else if g.offset < 60 then
      next ((verdEvent (s2.setRgn region { s2.rgn region with offset := g.offset + 5, vset := g.vset + 5 }) 0).note (unitId region 7 0))
    else if 85 < v.tmax then next (derate s2 region (([95, 90, 85].find? (marginOk n t)).getD 85))
    else next (afterUnit (retireRegion s2 region false))

/-- The refresh codes that R80 allows for a shortest retention in ms and a die temperature in 0.125 °C (R101). -/
def refreshCodes (ms : Nat) (tj : Int) : List Nat :=
  ([(1, 8), (2, 16), (3, 32), (4, 48), (5, 64)].filter (fun c => decide (2 * c.2 ≤ ms) && (decide (tj ≤ 680) || decide (c.2 ≤ 32)) && (decide (tj ≤ 760) || decide (c.2 ≤ 16)))).map (·.1)

/-- A measurement of a die (R510): the shortest retention in ms and the die's temperature. Which of the intervals that R80 allows
Verdigris takes is open. -/
def execRetentionMeasure (stack die ms : Nat) (tj : W32) (s : State) : Host.Outcome State Fault Refusal :=
  if 32 ≤ stack ∨ 14 ≤ die ∨ s.retired (dieUnit stack die) = true then next s
  else if ms < 16 then next (afterUnit (retireUnit (verdEvent s 4) (dieUnit stack die) true []))
  else
    let codes := refreshCodes ms tj.toInt
    let (k, s1) := s.choose codes.length
    let x := s1.stack stack
    next (s1.setStack stack { x with trefNext := mset x.trefNext die (codes.getD k 1), tj := mset x.tj die tj })

/-! Swatch. -/

/-- A lane that no link uses now: a standing spare, or a lane that a port at half width leaves (R513). -/
def standbyLane (s : State) (u : Nat) : Bool :=
  decide ((s.unit u).state = .spare) || (match unitAp u with
    | some p => (s.port p).up && !(s.port p).lanes.contains (unitIndex u) && !s.retired u
    | none => false)

/-- The unit is of the test's kind (R513, R521). -/
def testTarget (s : State) (t u : Nat) : Bool :=
  unitValid u && !s.retired u && (match t with
    | 1 => (unitCluster u).isSome
    | 2 => (unitCluster u).isSome
    | 3 => (unitCluster u).isSome && unitIndex u == 16
    | 4 => ((unitAp u).isSome || decide (unitDomain u = 20)) && standbyLane s u
    | 5 => decide (unitDomain u = 18) && unitIndex u == 48 && (s.cart (unitGroup u)).data.isSome
    | 6 => (decide (unitDomain u < 16) && unitGroup u == 7) || unitXBlock u
    | 7 => (unitStack u).isSome
    | 8 => unitXBlock u
    | _ => false)

/-- DESTR_OK: the states in which the destructive tests run and SWAT_CTRL accepts writes (R480, R513, R523). -/
def destrOk (s : State) : Bool := s.sec.lc == 0 || s.sec.lc == 1 || s.sec.lc == 4

/-- An S1 test may take the cluster: firmware's, in service or gated, and without work (R513, R521). -/
def testable (s : State) (c : Nat) : Bool :=
  let k := s.cl c
  k.owner.isNone && k.reclaim.isNone && (decide (k.cstate = .inService) || decide (k.cstate = .gated)) && !clusterBusy s c

/-- What refuses a test now (R521). -/
def testRefusal (s : State) (t u : Nat) : Option Status :=
  if t = 0 ∨ 8 < t then some .invalidField
  else if 7 ≤ t ∧ destrOk s = false then some .accessDenied
  else if !testTarget s t u then some .invalidField
  else if t ≤ 3 ∧ ((unitCluster u).map (testable s)).getD false = false then some .busy
  else none

/-- SWAT_RESULT is written (R523): OUTCOME 1 pass, 2 fail, 3 refused. -/
def testOutcome (s : State) (t u outcome : Nat) : State := { s with rel := { s.rel with lastTest := t, outcome := outcome, lastUnit := u } }

/-- SWAT_RESULT (R523). -/
def swatResult (s : State) : Nat := s.rel.lastTest + at_ 8 s.rel.outcome + at_ 16 s.rel.lastUnit

/-- The next test that waits starts, if it still can; `n` bounds the tests that cannot (R521). -/
def startTest : Nat → State → State
  | 0, s => s
  | n + 1, s =>
    if s.rel.running then s
    else match s.rel.tests with
      | [] => s
      | t :: ts =>
        match testRefusal s t.test t.unit with
        | some st =>
          let s1 := testOutcome { s with rel := { s.rel with tests := ts } } t.test t.unit 3
          startTest n (replyTo s1 t.cmd { status := st, r0 := swatResult s1, r1 := s1.rel.sig.toNat })
        | none =>
          let s1 := if t.test ≤ 3 then powerUp s ((unitCluster t.unit).getD 0) else s
          { s1 with rel := { s1.rel with running := true } }

/-- A test joins the queue (R521). -/
def queueTest (s : State) (t u cmd : Nat) : State :=
  startTest 17 { s with rel := { s.rel with tests := s.rel.tests ++ [{ test := t, unit := u, cmd := cmd }] } }

/-- Tests that wait. -/
def testsQueued (s : State) : Nat := s.rel.tests.length - b2n s.rel.running

/-- SWAT_RUN (R521). -/
def execSwatRun (pair : MboxId) (blk : CmdBlock) (s : State) : Host.Outcome State Fault Refusal :=
  next (fwCommand 0x0D0 true pair blk (fun s c b =>
    if !fromPf0 c then refuse s .accessDenied
    else if !bodyReserved b [(15, 8)] 32 then refuse s .invalidField
    else match testRefusal s (bn b 7 0) (bn b 31 16) with
      | some st => refuse s st
      | none => if 16 ≤ testsQueued s then refuse s .outOfResources else (queueTest s (bn b 7 0) (bn b 31 16) c.id, none)) s)

/-- A write of SWAT_CTRL with GO 1 (R523): in the locked states it is dropped; a test that is refused shows in SWAT_RESULT. -/
def execSwatCtrlGo (value : W32) (s : State) : Host.Outcome State Fault Refusal :=
  if !destrOk s || !bt value 24 then next s
  else
    let t := bn value 7 0
    let u := bn value 23 8
    let s1 := s.setReg SWAT_CTRL (value.toNat % 2 ^ 24)
    if (testRefusal s1 t u).isSome || decide (16 ≤ testsQueued s1) then next (testOutcome s1 t u 3)
    else next (queueTest s1 t u 0)

/-- A region's sensor fails (R513): its second sensor takes over, and with both failed the region is derated to 85 °C. -/
def sensorFails (s : State) (u : Nat) : State :=
  if 16 ≤ unitDomain u then s
  else
    let v := mgetD s.rel.verd (unitDomain u) {}
    let s1 : State := { s with rel := { s.rel with verd := mset s.rel.verd (unitDomain u) { v with badSensors := min 2 (v.badSensors + 1) } } }
    if 1 ≤ v.badSensors ∧ 85 < v.tmax then derate s1 (unitDomain u) 85 else s1

/-- A failed test retires the unit it names (R513): `named` is the unit that the signature or the march names, for INDIGO_PAT the row, or
64 plus the column. -/
def testFails (s : State) (t u : Nat) (named : Option Nat) : State :=
  let inCluster := named.bind (fun x => if unitCluster x = unitCluster u then some x else none)
  let x := match t with
    | 1 => (inCluster.filter (fun x => unitIndex x ≤ 8 || unitIndex x == 16 || unitIndex x == 17)).getD (unitId (unitDomain u) (unitGroup u) 49)
    | 2 => (inCluster.filter (fun x => decide (32 ≤ unitIndex x) && decide (unitIndex x ≤ 47))).getD (unitId (unitDomain u) (unitGroup u) 49)
    | 5 => (named.filter (fun x => decide (unitDomain x = 18) && unitGroup x == unitGroup u && decide (32 ≤ unitIndex x))).getD u
    | 7 => (named.filter (fun x => unitStack x == unitStack u)).getD u
    | 8 => (named.filter (fun x => unitXBlock x && unitDomain x == unitDomain u)).getD u
    | _ => u
  let s1 := s.trouble x .fx
  if t = 6 then sensorFails s1 u
  else if t = 3 then (match named with
    | some i => arrayRepair s1 ((unitCluster u).getD 0) (decide (64 ≤ i)) (i % 64)
    | none => retireUnit s1 u false [])
  else retireUnit s1 x false []

/-- What a test leaves behind (R513): a tested cluster is cleared, a marched stack is zeroed. -/
def testLeaves (s : State) (t u : Nat) : State :=
  match unitCluster u, unitStack u with
  | some c, _ => if t ≤ 2 then clearScratch ((coresOf c).foldl (fun s i => clearCore s i []) s) c else s
  | none, some k =>
    if t ≠ 7 then s
    else
      let mine (pp : Nat) : Bool := ppStack pp == k
      let lps := (s.lake.pageOf.filter (fun p => mine p.2)).map (·.1)
      { s with lake := { s.lake with
          mem := lps.foldl (fun m lp => memClear m (lp * pageBytes) pageBytes) s.lake.mem
          poison := s.lake.poison.filter (fun p => !mine (p.1 / 32768))
          badSym := s.lake.badSym.filter (fun p => !mine (p.1 / 32768)) } }
  | none, none => s

/-- What waited for a cluster under test goes on (R522, R524). -/
def testOver (s : State) (u : Nat) : State :=
  match unitCluster u with
  | none => s
  | some c =>
    let waits := match (s.cl c).reclaim with
      | some r => !r.stopped
      | none => false
    if waits && !clusterBusy s c then reclaimStop s c else acceptRing (acceptRing s c false) c true

/-- The running test ends (R513, R521, R522). -/
def execSwatchTestDone (pass : Bool) (named : Option Nat) (sig : W64) (s : State) : Host.Outcome State Fault Refusal :=
  match s.rel.tests with
  | [] => next s
  | t :: ts =>
    if !s.rel.running then next s
    else
      let s1 := testLeaves (s.count SWAT_RUNS) t.test t.unit
      let s2 : State := { s1 with rel := { s1.rel with tests := ts, running := false, sig := if t.test = 1 ∨ t.test = 8 then sig else s1.rel.sig } }
      let s3 := testOutcome s2 t.test t.unit (if pass then 1 else 2)
      let r : Reply := { status := if pass then .success else .unitFault, r0 := swatResult s3, r1 := s3.rel.sig.toNat }
      let s4 := if pass then s3 else testFails (s3.count SWAT_FAILS) t.test t.unit named
      next (afterUnit (startTest 17 (testOver (replyTo s4 t.cmd r) t.unit)))

/-- The test that runs ends as failed when its unit, or a unit of its cluster, is retired by a fault (R522). -/
def stopTest (s : State) (u : Nat) : State :=
  match s.rel.tests with
  | t :: ts =>
    let hit := t.unit == u || ((unitCluster u).isSome && unitCluster u == unitCluster t.unit)
    if s.rel.running && hit then
      let res := t.test + at_ 8 2 + at_ 16 t.unit
      let s1 : State := { s with rel := { s.rel with tests := ts, running := false, lastTest := t.test, outcome := 2, lastUnit := t.unit } }
      replyTo ((s1.count SWAT_RUNS).count SWAT_FAILS) t.cmd { status := .unitFault, r0 := res, r1 := s1.rel.sig.toNat }
    else s
  | [] => s

/-- A detected fault of a unit retires it at once (R153, R505, R511); `lost` are the dirty data-cache lines that cannot be
read (R154). -/
def execUnitFault (unit : Nat) (lost : List Nat) (s : State) : Host.Outcome State Fault Refusal :=
  if !unitValid unit || s.retired unit then next s
  else next (afterUnit (startTest 17 (stopTest (retireUnit (s.trouble unit .fx) unit false lost) unit)))

/-- The daily tests in service (R513): every standby lane, cartridge, region and X-die. `failed` are the units that fail. -/
def execSwatchPeriodic (failed : List Nat) (s : State) : Host.Outcome State Fault Refusal :=
  let lanes := ((List.range 8).map (fun p => ((List.range 66).filter (fun l => standbyLane s (laneUnit p l))).length)).sum +
    ((List.range 12).map (fun l => ((List.range 102).filter (fun i => standbyLane s (unitId 20 l i))).length)).sum
  let carts := ((List.range 16).filter (fun e => (s.cart e).data.isSome)).length
  let rgns := ((List.range 16).filter (fun r => decide ((s.rgn r).rstate ≠ .retired))).length
  let kind (u : Nat) : Option Nat :=
    if testTarget s 4 u then some 4 else if testTarget s 6 u then some 6
    else if decide (unitDomain u = 18) && decide (32 ≤ unitIndex u) && unitValid u && (s.cart (unitGroup u)).data.isSome then some 5 else none
  let hits := failed.eraseDups.filterMap (fun u => (kind u).map (fun t => (t, u)))
  let s1 := (s.count SWAT_RUNS (lanes + carts + rgns + 2)).count SWAT_FAILS hits.length
  next (afterUnit (hits.foldl (fun s x => testFails s x.1 x.2 (some x.2)) s1))

/-- A cluster has been idle and firmware's for 10 s (R513): it is tested, at most once in 24 hours. -/
def execIdleClusterTest (cluster : Nat) (s : State) : Host.Outcome State Fault Refusal :=
  let recent := match mget s.rel.idleTest cluster with
    | some t => decide (s.now - t < 86400000000000)
    | none => false
  let u := clUnit cluster 49
  if 64 ≤ cluster ∨ recent = true ∨ testable s cluster = false ∨ s.retired u = true ∨ 14 < testsQueued s then next s
  else next (queueTest (queueTest { s with rel := { s.rel with idleTest := mset s.rel.idleTest cluster s.now } } 1 u 0) 2 u 0)

/-! The retirement map. -/

/-- A copy of the map as RMAP_READ writes it (R514). -/
def rmapBytes (s : State) : List Byte :=
  let es := (s.rel.rmap.map (fun e => leBytes 16 e.toNat)).flatten
  leBytes 32 (0x4B524D31 + at_ 32 (s.rel.gen % 2 ^ 32) + at_ 64 (s.rel.rmap.length % 65536)) ++ sha256 es ++ es

/-- Writing the journal into both copies (R514, R522): whether each write succeeds. With no copy written the journal stays. -/
def writeMap (s : State) (okA okB : Bool) : State :=
  if okA || okB then
    let s1 := flushJournal s
    { s1 with rel := { s1.rel with copyA := okA, copyB := okB } }
  else { s with rel := { s.rel with copyA := false, copyB := false } }

/-- The journal is written (R514). -/
def execRmapJournalWrite (okA okB : Bool) (s : State) : Host.Outcome State Fault Refusal :=
  if s.fab.journal.isEmpty then next s else next (writeMap s okA okB)

/-- Umber tries a bad copy again (R522): a copy alone takes the GEN in force, the journal is written where it still waits. -/
def execRmapRetry (okA okB : Bool) (s : State) : Host.Outcome State Fault Refusal :=
  if s.rel.copyA && s.rel.copyB then next s
  else next (writeMap s (okA || (s.rel.copyA && s.fab.journal.isEmpty)) (okB || (s.rel.copyB && s.fab.journal.isEmpty)))

/-! Commands (R521). -/

/-- UNIT_RETIRE (R521). An emitter or a cartridge controller without a cartridge is not in service. -/
def execUnitRetire (pair : MboxId) (blk : CmdBlock) (s : State) : Host.Outcome State Fault Refusal :=
  next (fwCommand 0x0D1 true pair blk (fun s c b =>
    let u := bn b 15 0
    let noCart := decide (unitDomain u = 18) && decide (32 ≤ unitIndex u) && (s.cart (unitGroup u)).data.isNone
    if !fromPf0 c then refuse s .accessDenied
    else if !bodyReserved b [] 16 || !unitValid u || decide ((s.unit u).state ≠ .inService) || noCart then refuse s .invalidField
    else if endsService s u then refuse s .busy
    else (afterUnit (planRetire s u c.id), none)) s)

/-- TROUBLE_CLEAR (R521). -/
def execTroubleClear (pair : MboxId) (blk : CmdBlock) (s : State) : Host.Outcome State Fault Refusal :=
  next (fwCommand 0x0D2 true pair blk (fun s c b =>
    let u := bn b 15 0
    if !fromPf0 c then refuse s .accessDenied
    else if !bodyReserved b [] 17 || (!bt b 16 && !unitValid u) then refuse s .invalidField
    else if bt b 16 then accept { s with fab := { s.fab with trouble := mmap s.fab.trouble (fun _ _ => {}) } }
    else accept (clearTrouble s u)) s)

/-- REL_POLICY (R506, R521). -/
def execRelPolicy (pair : MboxId) (blk : CmdBlock) (s : State) : Host.Outcome State Fault Refusal :=
  next (fwCommand 0x0D3 true pair blk (fun s c b =>
    if !fromPf0 c then refuse s .accessDenied
    else if !bodyReserved b [] 256 then refuse s .invalidField
    else accept { s with rel := { s.rel with policy := (List.range 4).map (fun k => (k, BitVec.ofNat 64 (bn b (64 * k + 63) (64 * k)))) } }) s)

/-- RMAP_READ (R514, R521). With neither copy valid there is nothing to write. -/
def execRmapRead (pair : MboxId) (blk : CmdBlock) (s : State) : Host.Outcome State Fault Refusal :=
  next (fwCommand 0x0D4 true pair blk (fun s c b =>
    if !fromPf0 c then refuse s .accessDenied
    else if !bodyReserved b [(5, 0)] 64 then refuse s .invalidField
    else if !s.rel.copyA && !s.rel.copyB then refuse s .unitFault
    else
      let bs := rmapBytes s
      (s.hostWrite c.fn (bn b 63 0) bs, some { status := .success, r0 := bs.length })) s)

/-- REL_SHUTDOWN (R507, R521): no reply is posted. -/
def execRelShutdown (pair : MboxId) (blk : CmdBlock) (s : State) : Host.Outcome State Fault Refusal :=
  next (fwCommand 0x0D5 true pair blk (fun s c b =>
    if !fromPf0 c then refuse s .accessDenied
    else if !bodyReserved b [] 32 || decide (bn b 31 0 ≠ 0x53485554) then refuse s .invalidField
    else (umberOp s 7, none)) s)

end Sys2Proof.Machine
end

