-- ==== Sys2Proof/Machine/Mirror.lean ====
section
/-! DEFINITION. The registers as they read: what every read-only register shows of the state, the UMB mirror (R19, R502 to R504,
R507, R523, R536, R537, R552, R553), and a read of BAR0 (R6, R7, R385 to R387). -/

namespace Sys2Proof.Machine

open Sys2Proof

def RState.code : RState → Nat
  | .off => 0
  | .starting => 1
  | .inService => 2
  | .resetting => 3
  | .retired => 4

def CState.code : CState → Nat
  | .off => 0
  | .starting => 1
  | .inService => 2
  | .resetting => 3
  | .retired => 4
  | .gated => 5

def Run.code : Run → Nat
  | .idle => 0
  | .running => 1
  | .waiting => 2
  | .absent => 3

def PState.code : PState → Nat
  | .disabled => 0
  | .down => 1
  | .training => 2
  | .full => 3
  | .half => 4
  | .retired => 5

def CnState.code : CnState → Nat
  | .idle => 1
  | .connecting => 2
  | .established => 3
  | .error => 4

def PgState.code : PgState → Nat
  | .joining => 1
  | .normal => 2
  | .degraded => 3
  | .rebuilding => 4
  | .lost => 5

/-- Bits of a list of conditions, the first in bit 0. -/
def bitsOf (bs : List Bool) : Nat := (bs.mapIdx (fun i b => at_ i (b2n b))).sum

/-- UMB_UNIT_STATE (R19). WORLD of the units of a cluster is that of the cluster (R27). -/
def unitWord (s : State) (u : Nat) : Nat :=
  if !unitValid u then 0
  else
    let x := s.unit u
    let t := mgetD s.fab.trouble u {}
    let world := match unitCluster u with
      | some c => (s.cl c).world
      | none => x.world
    x.state.code + at_ 2 (b2n world) + at_ 3 (b2n x.standsFor.isSome) + at_ 8 (min 255 (max (max t.ce t.ue) (max t.tmo t.fx))) + at_ 16 (x.standsFor.getD 0)

/-- UMB_TROUBLE (R505, R523). -/
def troubleWord (s : State) (u : Nat) : Nat :=
  let t := mgetD s.fab.trouble u {}
  t.ce + at_ 16 t.ue + at_ 32 t.tmo + at_ 48 t.fx

def lifecycleWord (s : State) : Nat := s.sec.lc + at_ 8 s.sec.svnMin + at_ 16 s.sec.owners.length
def tamperWord (s : State) : Nat := s.sec.cause.toNat + at_ 16 s.sec.tcount
def guardWord (s : State) : Nat := s.rel.guardOp + at_ 4 (b2n s.umb.restarting) + at_ 8 (min 255 s.umb.restarts)

/-- UMB_BOOT (R537): RCAUSE reads 0 outside recovery. -/
def bootWord (s : State) : Nat :=
  s.umb.phase + at_ 4 s.umb.lastReset + at_ 8 (if s.umb.phase = 8 then s.umb.rcause else 0) + at_ 16 s.umb.warms + at_ 32 s.umb.startMs

def nodeWord (s : State) : Nat := s.fab.node + at_ 16 s.fab.size
def sizeReqWord (s : State) : Nat := s.umb.sizeLast + at_ 16 (b2n s.umb.sizePending) + at_ 17 (b2n s.umb.sizeRefused)

/-- UMB_PWR and UMB_COOL (R552): measurements, with the hold-up energy in [55:48]. -/
def powerWord (s : State) : Nat := (Config.measured UMB_PWR s.now).toNat % 2 ^ 48 + at_ 48 (min 255 s.saf.energy)
def coolWord (s : State) : Nat := (Config.measured UMB_COOL s.now).toNat % 2 ^ 48

/-- UMB_EMERG (R553). -/
def emergWord (s : State) : Nat :=
  bitsOf [s.umb.lim.therm, s.umb.lim.flow, s.umb.lim.inlet, s.umb.lim.vin, s.umb.lim.pcap] + at_ 7 (b2n s.umb.emerg) + at_ 8 s.umb.lastShut

/-- The aligned 8 bytes of the UMB mirror at an offset in it; offsets not listed read zero (R502, R507). -/
def mirrorWord (s : State) (o : Nat) : Nat :=
  if o = 0x00 then lifecycleWord s
  else if o = 0x08 then tamperWord s
  else if o = 0x10 then guardWord s
  else if o = 0x20 then bootWord s
  else if o = 0x28 then nodeWord s + at_ 32 (sizeReqWord s)
  else if o = 0x40 then powerWord s
  else if o = 0x48 then coolWord s
  else if o = 0x50 then emergWord s
  else if 0x40000 ≤ o ∧ o < 0x80000 then unitWord s ((o - 0x40000) / 4) + at_ 32 (unitWord s ((o - 0x40000) / 4 + 1))
  else if 0x80000 ≤ o ∧ o < 0x100000 then troubleWord s ((o - 0x80000) / 8)
  else 0

/-- `n` bytes of the mirror from any offset, little-endian (R507). -/
def mirrorRead (s : State) (o n : Nat) : Nat :=
  let a := o / 8 * 8
  (mirrorWord s a + at_ 64 (mirrorWord s (a + 8))) / 2 ^ (8 * (o - a)) % 2 ^ (8 * n)

/-- ALERT# is driven low while any of these holds (R540). -/
def alertLow (s : State) : Bool :=
  s.umb.emerg || decide (s.umb.phase = 8) || s.sec.cause != 0#5 || (List.range 16).any (fun e => (s.cart e).cstate == 4 || (s.cart e).cstate == 5)

/-- APn_RST# is held low while the port is disabled or down (R541). -/
def apRstLow (s : State) (p : Nat) : Bool := (s.port p).pstate == .disabled || (s.port p).pstate == .down

-- Regions, clusters, cores, engines

/-- SIEN_RGN_STATE (R35). -/
def rgnStateWord (s : State) (r : Nat) : Nat :=
  let x := s.rgn r
  let on (k : Nat) : Bool := (s.cl (4 * r + k)).cstate == .inService
  let gated (k : Nat) : Bool := (s.cl (4 * r + k)).cstate == .gated
  x.rstate.code + at_ 4 (bitsOf ((List.range 4).map on)) + at_ 8 (bitsOf ((List.range 4).map gated)) + at_ 16 x.resets

/-- OCH_CL_STATE (R157). -/
def clStateWord (s : State) (c : Nat) : Nat :=
  let k := s.cl c
  k.cstate.code + at_ 8 (bitsOf ((coresOf c).map (fun i => (s.core i).run != .absent))) + at_ 16 (presentCores s c) + at_ 20 (b2n (k.spareReady && k.cstate != .off))

/-- OCH_CL_OWNER. -/
def clOwnerWord (s : State) (c : Nat) : Nat :=
  let k := s.cl c
  k.owner.getD 0 + at_ 12 (b2n k.owner.isNone) + at_ 13 (b2n k.world)

/-- OCH_CL_SCR. -/
def clScrWord (s : State) (c : Nat) : Nat := (s.cl c).banks.toNat + at_ 16 (scratchSize (s.cl c) / 1024)

/-- OCH_CORE_STATE (R158). -/
def coreStateWord (s : State) (i : Nat) : Nat :=
  let k := s.core i
  k.run.code + at_ 4 (if k.run = .absent then 0 else k.phys)

/-- IND_STATE (R181). -/
def indStateWord (s : State) (c : Nat) : Nat :=
  let e := s.eng c false
  let jobs := (s.vat.jobs.filter (fun p => p.2.onEngine c false && p.2.accepted)).map (·.2)
  let est : Nat := if !engAlive s c false then 3 else if (s.cl c).cstate = .inService then (if e.half.isSome then 2 else 1) else 0
  est + at_ 2 (b2n (decide (est = 2) && e.half.getD false)) + at_ 3 (b2n (jobs.any (fun j => decide (j.phase = .running)))) +
    at_ 8 (jobs.filter (fun j => j.core.isNone)).length + at_ 12 (jobs.filter (fun j => j.core.isSome)).length

-- Lake and peer parity

/-- LAKE_STK_STATE (R103). -/
def stkStateWord (s : State) (k : Nat) : Nat :=
  let x := s.stack k
  x.dieOn.toNat + at_ 16 (x.spareFor.getD 0xF) + at_ 20 (b2n x.spareReady) + at_ 21 (b2n x.checkOk) + at_ 24 x.lost + at_ 32 (min 4096 (degradedPages s k).length)

/-- LAKE_STK_TREF: 0 for a die out of service (R101). -/
def stkTrefWord (s : State) (k : Nat) : Nat :=
  let x := s.stack k
  ((List.range 14).map (fun d => if x.dieOn.getLsbD d then at_ (4 * d) (mgetD x.tref d 3) else 0)).sum

/-- Pages left to leave a stack: of its moves, and of a die whose role its spare takes (R97, R101). -/
def leftOf (s : State) (k : Nat) : Nat :=
  (s.lake.moves.filter (fun m => pageStack s m.page == k)).length + ((s.lake.copies.filter (fun c => c.stack == k)).map (fun c => 4096 - c.done)).sum

/-- LAKE_MIG_LEFT (R101). -/
def migLeft (s : State) : Nat := s.lake.moves.length + (s.lake.copies.map (fun c => 4096 - c.done)).sum

/-- LAKE_MIG (R101): the stack whose page moved last, while it has pages left, else the lowest that has. -/
def migWord (s : State) : Nat :=
  if s.lake.moves.isEmpty && s.lake.copies.isEmpty then 0
  else
    let k := if leftOf s s.lake.migStack = 0 then ((List.range 32).find? (fun k => decide (leftOf s k ≠ 0))).getD 0 else s.lake.migStack
    1 + at_ 8 k + at_ 16 (min 8191 (leftOf s k))

/-- LAKE_RD as the host reads it, whose reads are non-secure: KEY reads zero (R86, R93). -/
def rdWord (s : State) (i : Nat) : Nat :=
  match mget s.lake.regions i with
  | none => 0
  | some d =>
    if d.world then 0
    else 1 + at_ 2 (b2n d.prot) + at_ 3 (b2n d.rRd) + at_ 4 (b2n d.rWr) + at_ 5 (b2n d.rAt) + at_ 6 d.place + at_ 8 d.home + at_ 16 d.pgroup + at_ 32 d.owner +
      at_ 48 d.gen + at_ 64 d.base + at_ 128 d.pages

/-- LAKE_PG_CFG (R250). -/
def pgCfgWord (s : State) (i : Nat) : Nat :=
  match mget s.par.groups i with
  | none => 0
  | some g =>
    g.pgroup + at_ 16 g.w + at_ 24 g.p + at_ 32 g.member + at_ 36 g.owner + at_ 48 g.state.code + at_ 51 (b2n (decide (g.p < parityMin (max 1 s.fab.size))))

def pgGet (s : State) (i : Nat) (f : PGroup → Nat) : Nat := ((mget s.par.groups i).map f).getD 0

-- Carmine

/-- CARM_CQ_STATE (R292). -/
def cqStateWord (s : State) : Nat :=
  let i := s.reg CARM_CQ_SEL
  match s.conn i with
  | none => at_ 8 (s.slot 3 i).gen
  | some c =>
    let res : Nat := if c.tc = 0 then 1 else match c.tier with
      | .die => 0
      | .near => 2
      | .host => 3
    c.state.code + at_ 3 res + at_ 5 c.tc + at_ 8 (s.slot 3 i).gen + at_ 20 (s.slot 3 i).owner + at_ 32 ((c.lastSt.map Status.code).getD 0) +
      at_ 40 (min 255 (c.msgs.filter (fun m => !m.done)).length) + at_ 48 (min 255 c.staged.length)

def ctxIn (s : State) (t : Tier) : Nat := (s.carm.conns.filter (fun c => c.2.tier == t)).length
def ctxPinned (s : State) : Nat := (s.carm.conns.filter (fun c => c.2.tc == 0)).length

-- Accelerator ports

/-- APRT_STATE (R317). -/
def apStateWord (s : State) (p : Nat) : Nat :=
  let x := s.port p
  let spare := ((List.range 66).filter (fun l => x.good.getLsbD l && !x.lanes.contains l && !s.retired (laneUnit p l))).length
  let lanes : Nat := match x.pstate with
    | .full => 64
    | .half => 32
    | _ => 0
  x.pstate.code + at_ 4 lanes + at_ 12 (if x.up then spare else 0) + at_ 24 x.cause

/-- Lanes in service as data or standby (R314). -/
def laneOn (s : State) (p lo n : Nat) : Nat := bitsOf ((List.range n).map (fun i => !s.retired (laneUnit p (lo + i))))

-- Ethernet, cartridges, Weld

/-- ETH_PORT_STATE (R336). -/
def ethStateWord (s : State) (p : Nat) : Nat :=
  let x := s.eth p
  x.lstate + at_ 3 (b2n (x.half && x.lstate == 4)) + at_ 4 x.pstate + at_ 8 x.cause + at_ 16 (b2n x.degraded)

/-- ETH_CART_STATE (R330, R337). -/
def cartStateWord (s : State) (e : Nat) : Nat :=
  let k := s.cart e
  let dark := ((List.range 8).filter (fun h => halfAsked s e h && (halfLit s e h).isNone)).length
  let worn := match k.data with
    | some c => (List.range 12).any (fun i => decide (60000 ≤ logHours c i))
    | none => false
  k.cstate + at_ 3 (b2n k.latch) + at_ 4 (if k.cstate = 2 then min 4 (spareEmitters k).length else 0) + at_ 8 dark + at_ 12 (b2n worn)

def cartMapWord (s : State) (e : Nat) : Nat := ((List.range 8).map (fun h => at_ (4 * h) ((halfLit s e h).getD 0xF))).sum

/-- WELD_Q_STAT of the selected queue. -/
def qStatWord (s : State) : Nat :=
  let p := s.reg WELD_Q_SEL / 4096 % 64
  let q := s.reg WELD_Q_SEL % 4096
  let x := s.queue p q
  let age := match x.frames.head? with
    | some f => s.now - f.since
    | none => 0
  queueBytes s p ((queueClass s p q).getD 1) x % 2 ^ 32 + at_ 32 (min (2 ^ 32 - 1) age)

/-- WELD_GATE_STAT: with no list running every gate is open (R365). Its Reset column says 0 (R373): the model shows 0 until the start has
reached service, and from then on what R365 says (DESIGN CHOICE, unsafe; log 131). -/
def gateStatWord (s : State) (p : Nat) : Nat :=
  if s.umb.phase ≠ 7 then 0 else
  let w := s.wport p
  let g := w.running
  let pending := at_ 26 (b2n w.change.isSome)
  if g.entries.isEmpty then at_ 17 0xFF + at_ 25 1 + pending
  else
    let pos := gatePos s p g
    match g.windows.find? (fun x => decide (x.1 ≤ pos) && decide (pos < x.2.1)) with
    | none => g.entries.length + pending
    | some x =>
      let i := ((List.range g.entries.length).find? (fun i => decide (((g.entries.take (i + 1)).map (·.interval)).sum > x.1))).getD (g.entries.length - 1)
      g.entries.length + at_ 9 i + at_ 17 x.2.2.gates.toNat + at_ 25 (b2n x.2.2.others) + pending

/-- WELD_SHP_CRED: bytes, rounded toward −∞. -/
def shpCredWord (s : State) (i : Nat) : Nat :=
  let x := shaperNow s i
  unsgn 32 (x.c / 256) + at_ 32 (unsgn 32 (x.p / 256))

-- Host interface

/-- HIF_PORT_STATE (R400). -/
def hportWord (s : State) (h : Nat) : Nat :=
  let x := s.hport h
  b2n x.up + at_ 1 x.width + at_ 6 x.gen + at_ 9 (b2n x.flit) + at_ 16 (min 65535 (s.host.quarantine.filter (fun q => fnPort q.1 == h)).length) + at_ 32 (outNp s h)

/-- HIF_FN_STATE of the selected function (R401). -/
def fnStateWord (s : State) : Nat :=
  let f := s.reg HIF_FN_SEL % 4096
  let x := s.fn f
  bitsOf [s.fnPresent f, x.bme, x.msixEn, x.fmask, x.flr, x.d3] + at_ 8 x.weight + at_ 32 (min 65535 (s.host.quarantine.filter (fun q => q.1 == f)).length)

def fnQuotaWord (s : State) (c : Nat) : Nat :=
  let f := s.reg HIF_FN_SEL % 4096
  quotaOf s f c + at_ 32 (quotaUse s f c)

-- Saffron

/-- SAFF_VAULT (R424). -/
def vaultWord (s : State) : Nat :=
  let x := s.saf
  x.vstate + at_ 2 (b2n (decide (25 ≤ x.energy))) + at_ 3 (b2n (x.erased && !x.flashFault)) + at_ 8 (min 255 x.energy) + at_ 16 x.newest + at_ 20 (b2n x.restored)

/-- SAFF_NS_STATE of the selected namespace. -/
def nsStateWord (s : State) : Nat :=
  let n := s.reg SAFF_NS_SEL
  match s.ns n with
  | none => 0
  | some x =>
    let st : Nat := if x.deleting.isSome then 3 else if x.ready then 1 else 2
    let up := ((sessOf s n).filter (fun p => p.2.queue != 0 && p.2.st == .up)).length
    st + at_ 2 (b2n x.carmine) + at_ 3 (b2n x.lbaf) + at_ 4 up + at_ 16 (cdiv (4096 * (pagesOf s n).length) (2 ^ 20))

-- Mailboxes, Palette, Mordant

/-- MBOX_STAT (R446). -/
def mboxStatWord (p : Pair) : Nat := bitsOf [p.inWord != 0#64, p.outWord != 0#64, p.inRR, p.outRR, p.crossed]

/-- MBOX_IRQ (R447): PORT resets to k mod 2. -/
def mboxIrqWord (k : MboxId) (p : Pair) : Nat :=
  let port := match k with
    | .block n => b2n (p.port.getD (n % 2 == 1))
    | _ => 0
  p.vector + at_ 11 port + at_ 12 (b2n p.en)

/-- The registers of a pair but its words, which MAILBOX_READ reads. -/
def pairReg (s : State) (k : MboxId) (o : Nat) : Nat :=
  let p := s.pair k
  if o = 0x10 then mboxStatWord p else if o = 0x14 then mboxIrqWord k p else if o = 0x18 then p.refused else if o = 0x1C then p.rrcnt else 0

/-- PAL_FW (R476). -/
def palFwWord (s : State) : Nat :=
  let b := s.bank (otherBank s.pal.active)
  runningRelease s + at_ 16 (if b.verified then b.release else 0) + at_ 32 s.pal.active + at_ 33 (b2n b.verified) + at_ 34 s.pal.act + at_ 40 s.pal.actStatus

/-- MORD_STATE and MORD_SLOT, for readers of the secure world (R502, R503). -/
def mordStateWord (s : State) : Nat := b2n s.sec.entOk + at_ 1 (b2n s.sec.erasing) + at_ 8 s.sec.engines
def mordSlotWord (s : State) (i : Nat) : Nat :=
  match mget s.sec.keys i with
  | none => 0
  | some k => 1 + at_ 1 (b2n k.world) + at_ 2 k.ksize + at_ 4 (b2n k.enc) + at_ 5 (b2n k.dec) + at_ 6 (b2n k.unwrap) + at_ 8 (s.slot 9 i).owner + at_ 20 (s.slot 9 i).gen

-- Verdigris, Swatch, Sienna

/-- SWAT_STATE (R523). -/
def swatStateWord (s : State) : Nat :=
  let queued := if s.rel.running then s.rel.tests.length - 1 else s.rel.tests.length
  let test := match s.rel.tests.head? with
    | some t => if s.rel.running then t.test else 0
    | none => 0
  b2n s.rel.running + at_ 1 (b2n (destrOk s)) + at_ 8 test + at_ 16 queued

def collStateWord (s : State) (i : Nat) : Nat :=
  let c := s.coll i
  if c.en && decide ((s.eth c.port).lstate ≠ 5) then 1 + at_ 1 (b2n (s.eth c.port).up) + at_ 2 (b2n (noAddr s c)) else 0

/-- The index of a register among those of a stride. -/
def nth (off base stride : Nat) : Nat := (off - base) / stride

/-- Lower half of the register map: HIF to BLND. -/
def readLow (s : State) (f off : Nat) : Nat :=
  if off = HIF_SELF then f + at_ 12 (b2n (fnIsVf f))
  else if off = HIF_ID then 0x0900D9A1
  else if 0x40 ≤ off ∧ off < 0x50 then hportWord s (nth off 0x40 8)
  else if off = HIF_FN_STATE then fnStateWord s
  else if 0x1048 ≤ off ∧ off < 0x10A0 then fnQuotaWord s (nth off 0x1040 8)
  else if off = VAT_HALTED then (s.vat.work.filter (fun w => w.2.halted)).length
  else if 0x180000 ≤ off ∧ off < 0x200000 then (s.ctr (nth off 0x180000 8)).toNat
  else if off = LAKE_CAP then servicePages s + at_ 32 (freePages s)
  else if off = LAKE_MIG then migWord s
  else if off = LAKE_MIG_LEFT then migLeft s
  else if off = LAKE_EVENT then s.lake.event.toNat
  else if 0x201000 ≤ off ∧ off < 0x201400 then
    let k := nth off 0x201000 0x20
    let o := (off - 0x201000) % 0x20
    if o = 0 then stkStateWord s k else if o = 8 then stkTrefWord s k else if o = 0x10 then (s.stack k).hottest.toNat else 0
  else if 0x210000 ≤ off ∧ off < 0x230000 then rdWord s (nth off 0x210000 0x20)
  else if 0x230000 ≤ off ∧ off < 0x230400 then
    let i := nth off 0x230000 0x40
    let o := (off - 0x230000) % 0x40
    if o = 0 then pgCfgWord s i
    else if o = 8 then pgGet s i (·.commit)
    else if o = 0x10 then pgGet s i (fun g => g.lost.toNat)
    else if o = 0x18 then pgGet s i (fun g => (g.dirty.filter (fun x => x.2 == g.openE)).length)
    else if o = 0x20 then pgGet s i (·.sent)
    else if o = 0x28 then pgGet s i (·.applied)
    else if o = 0x30 then pgGet s i (fun g => g.rebuilt + at_ 32 g.toRebuild)
    else 0
  else if 0x238000 ≤ off ∧ off < 0x240000 then mgetD s.par.rprot (nth off 0x238000 8) 0
  else if off = CARM_IP6_HI then s.carm.ip6.toNat / 2 ^ 64
  else if off = CARM_IP6_LO then s.carm.ip6.toNat % 2 ^ 64
  else if off = CARM_IP4 then s.carm.ip4.toNat
  else if off = CARM_CTX_DIE then ctxIn s .die + at_ 17 (ctxPinned s)
  else if off = CARM_CTX_NEAR then s.carm.conns.length - ctxIn s .host
  else if off = CARM_CTX_HOST then ctxIn s .host
  else if off = CARM_PARK then s.carm.parked.length
  else if off = CARM_CQ_STATE then cqStateWord s
  else if 0x301000 ≤ off ∧ off < 0x301200 then (profOf s (nth off 0x301000 0x20)).toNat
  else if off = MADR_RULE_CMD then 0
  else if off = MADR_RULE_STAT then b2n s.madr.busy + at_ 1 s.madr.err + at_ 8 (b2n s.madr.statValid)
  else if off = MADR_FLOW_CFG then s.madr.n + at_ 32 s.madr.flows.length
  else if off = WELD_Q_CFG then (s.queue (s.reg WELD_Q_SEL / 4096 % 64) (s.reg WELD_Q_SEL % 4096)).cfg.toNat
  else if off = WELD_Q_STAT then qStatWord s
  else if 0x500040 ≤ off ∧ off < 0x5000C0 then
    let q := s.queue (s.reg WELD_HIST_SEL / 4096 % 64) (s.reg WELD_HIST_SEL % 4096)
    if off < 0x500080 then mgetD q.histDepth (nth off 0x500040 4) 0 else mgetD q.histSoj (nth off 0x500080 4) 0
  else if 0x510000 ≤ off ∧ off < 0x514000 ∧ (off - 0x510000) % 0x100 = 0x48 then s.reg off + at_ 16 (b2n (s.wport (nth off 0x510000 0x100)).change.isSome)
  else if 0x510000 ≤ off ∧ off < 0x514000 ∧ (off - 0x510000) % 0x100 = 0x5C then gateStatWord s (nth off 0x510000 0x100)
  else if 0x580000 ≤ off ∧ off < 0x600000 ∧ (off - 0x580000) % 0x20 = 0x18 then shpCredWord s (nth off 0x580000 0x20)
  else if off = WOAD_RATE then ((s.woad.recent.filter (fun x => decide (s.now < x.1 + 1000000))).map (·.2)).sum / 1000
  else if off = WOAD_ACTIVE then min 8191 (s.woad.queues.map (fun q => (q.2.jobs.filter (fun j => j.sent && !wjobGone s j)).length)).sum
  else if off = BLND_RATE then ((s.blend.recent.filter (fun x => decide (s.now < x.1 + 1000000))).map (·.2)).sum / 1000
  else if off = BLND_ACTIVE then min 65535 (s.blend.groups.map (fun g => g.2.ops.length)).sum
  else if 0x710000 ≤ off ∧ off < 0x790000 then match mget s.blend.groups (nth off 0x710000 8) with
    | none => 0
    | some g => g.next % 2 ^ 32 + at_ 32 (b2n g.broken) + at_ 33 g.bank + (if g.broken then at_ 48 g.failed else 0)
  else s.reg off

/-- Registers of a core. -/
def readCore (s : State) (off : Nat) : Nat :=
  let c := nth off 0x900000 0x1000
  let o := (off - 0x900000) % 0x1000
  let i := 8 * c + (o - 0x100) / 0x40
  let k := s.core i
  let r := (o - 0x100) % 0x40
  if r = 0x00 then coreStateWord s i
  else if r = 0x04 then k.evt.toNat
  else if r = 0x08 then k.pc.toNat
  else if r = 0x18 then k.xcpt.toNat
  else if r = 0x20 then k.xpc.toNat
  else if r = 0x28 then k.xaddr.toNat
  else s.reg off

/-- Upper half of the register map: IND to SWAT. The registers of the cores and engines of a secure cluster read zero to the host, which
is no reader of the secure world (R156, R180). -/
def readHigh (s : State) (off : Nat) : Nat :=
  if off < 0x900000 then
    let c := nth off 0x800000 0x1000
    let o := (off - 0x800000) % 0x1000
    if (s.cl c).world then 0 else if o = 0 then indStateWord s c else if o = 4 then repairWord (s.eng c false) else s.reg off
  else if off < 0xA00000 then
    let c := nth off 0x900000 0x1000
    let o := (off - 0x900000) % 0x1000
    if o = 0 then clStateWord s c
    else if o = 4 then clOwnerWord s c
    else if o = 8 then clScrWord s c
    else if o = 0xF00 then 0
    else if 0x100 ≤ o ∧ o < 0x300 then (if (s.cl c).world then 0 else readCore s off)
    else s.reg off
  else if off = SAFF_VAULT then vaultWord s
  else if off = SAFF_BUF then s.saf.pages.length + at_ 32 s.saf.pages.length
  else if off = SAFF_NS_STATE then nsStateWord s
  else if 0xB00000 ≤ off ∧ off < 0xB08000 then
    let p := nth off 0xB00000 0x1000
    let o := (off - 0xB00000) % 0x1000
    let x := s.port p
    if o = 0 then apStateWord s p
    else if o = 4 then x.owner.getD 0 + at_ 12 (b2n x.owner.isNone)
    else if o = 8 then laneOn s p 0 64
    else if o = 0x10 then laneOn s p 64 2
    else if o = 0x18 then (if x.up then x.winsize else 0)
    else if o = 0x20 then x.partner.toNat
    else s.reg off
  else if 0xC00000 ≤ off ∧ off < 0xC04000 then
    let p := nth off 0xC00000 0x100
    let o := (off - 0xC00000) % 0x100
    if o = 4 then ethStateWord s p else if o = 0x18 then (s.eth p).latched else if o = 0x20 then portSubNs s p else if o = 0x28 then 0 else s.reg off
  else if 0xC10000 ≤ off ∧ off < 0xC11000 then
    let e := nth off 0xC10000 0x100
    let o := (off - 0xC10000) % 0x100
    let k := s.cart e
    if o = 0 then cartStateWord s e
    else if o = 4 then cartMapWord s e
    else if o = 8 then (k.data.map recSerial).getD 0
    else if 0x10 ≤ o ∧ o < 0x40 then mgetD k.bias ((o - 0x10) / 4) 0
    else (k.data.map (fun c => logHours c ((o - 0x40) / 4))).getD 0
  else if 0xD08000 ≤ off ∧ off < 0xD08400 then
    let r := nth off 0xD08000 0x40
    let o := (off - 0xD08000) % 0x40
    let x := s.rgn r
    if o = 0 then s.now % 2 ^ 64
    else if o = 8 then x.rate.toNat
    else if o = 0xC then x.tj.toNat
    else if o = 0x10 then x.vset + at_ 16 x.offset
    else rgnStateWord s r
  else if off = SIEN_EXP_PEN then sienPen
  else if 0xD10008 ≤ off ∧ off < 0xD10088 ∧ (off - 0xD10008) % 0x20 = 0 then collStateWord s (nth off 0xD10008 0x20)
  else if 0xD11000 ≤ off ∧ off < 0xD11400 ∧ (off - 0xD11000) % 0x10 = 0 then mgetD s.rel.sampleK (nth off 0xD11000 0x10) 0
  else if 0xD40000 ≤ off ∧ off < 0xD40200 then
    let x := mgetD s.rel.verd (nth off 0xD40000 0x20) {}
    let o := (off - 0xD40000) % 0x20
    if o = 0 then x.vstate + at_ 8 x.tmax else if o = 4 then x.worst else x.age
  else if off = VERD_EVENT then s.rel.event.toNat
  else if 0xD41008 ≤ off ∧ off < 0xD41028 then (policyOf s (nth off 0xD41008 8)).toNat
  else if 0xE00000 ≤ off ∧ off < 0xE02000 then pairReg s (.block (nth off 0xE00000 0x40)) ((off - 0xE00000) % 0x40)
  else if 0xE04400 ≤ off ∧ off < 0xE04800 then mgetD s.pal.locks (nth off 0xE04400 4) 0
  else if 0xE05000 ≤ off ∧ off < 0xE05080 ∧ (off - 0xE05000) % 0x10 = 0 then
    let k := s.pcore (nth off 0xE05000 0x10)
    k.cstate + at_ 8 k.lastCause
  else if off = PAL_FW then palFwWord s
  else if off = PAL_LOG_TAIL then s.pal.logTail % 2 ^ 32
  else if off = PAL_LOG_HEAD then s.pal.logHead % 2 ^ 32
  else if 0xE06000 ≤ off ∧ off < 0xE06400 then mgetD s.pal.spHead (nth off 0xE06000 4) 0
  else if 0xF00000 ≤ off ∧ off < 0x1000000 then 0
  else if 0x1000000 ≤ off ∧ off < 0x1100000 then mirrorRead s (off - 0x1000000) 8
  else if off = SWAT_STATE then swatStateWord s
  else if off = SWAT_RESULT then s.rel.lastTest + at_ 8 s.rel.outcome + at_ 16 s.rel.lastUnit
  else if off = SWAT_SIG then s.rel.sig.toNat
  else if off = SWAT_RMAP then
    s.rel.gen % 2 ^ 32 + at_ 32 (b2n s.rel.copyA) + at_ 33 (b2n s.rel.copyB) + at_ 34 (b2n (!s.fab.journal.isEmpty))
  else s.reg off

/-- The row of the register map whose register holds the byte at an offset, and the offset of that register (R385). -/
def RegRow.start (r : RegRow) (off : Nat) : Option Nat :=
  let d := off - r.base
  let a := if r.s1 = 0 then 0 else d / r.s1 * r.s1
  let b := if r.s2 = 0 then 0 else (d - a) / r.s2 * r.s2
  let o := r.base + a + b
  if r.base ≤ off ∧ off < o + r.width / 8 ∧ r.hits o = true then some o else none

def regAt (off : Nat) : Option (Nat × RegRow) := regRows.findSome? (fun r => (r.start off).map (fun o => (o, r)))

/-- 4 aligned bytes of BAR0 of physical function 0 (R7, R385, R387): a reserved offset reads zero. The locks are read by LOCK_CLAIM. -/
def bar0Word (s : State) (f off : Nat) : Nat :=
  match regAt off with
  | none => if 0xE04400 ≤ off ∧ off < 0xE04800 then readHigh s off else 0
  | some (o, _) => (if o < 0x800000 then readLow s f o else readHigh s o) / 2 ^ (8 * (off - o)) % 2 ^ 32

/-- A read of BAR0 by the function `f` (R6, R386, R387): PF0 reads the block map, another function its own page. A read that breaks R6
returns zero. -/
def readReg (s : State) (f off size : Nat) : Nat :=
  if (size ≠ 4 ∧ size ≠ 8) ∨ off % size ≠ 0 then 0
  else
    let word (o : Nat) : Nat :=
      if fnIsPf0 f then bar0Word s f o
      else if o < 8 then readLow s f o
      else if 0x1000 ≤ o ∧ o < 0x1040 then pairReg s (.page f) (o - 0x1000)
      else 0
    if size = 4 then word off else word off + at_ 32 (word (off + 4))

end Sys2Proof.Machine
end

