-- ==== Sys2Proof/Machine/Module.lean ====
section
/-! DEFINITION. The module: the management bus (R507, R546), supply, coolant and thermal limits (R543, R544, R549, R550). -/

namespace Sys2Proof.Machine

open Sys2Proof

/-- A read of 4 or 8 bytes of the UMB mirror over the management bus (R507, R546): offsets outside the mirror read zero. It is one of
the guaranteed operations. -/
def execMgmtBusRead (offset : W32) (wide : Bool) (s : State) : Host.Outcome State Fault Refusal :=
  let n := if wide then 8 else 4
  next ((guarded s 6).emit (.readData (mirrorRead s offset.toNat n)))

/-- VIN48 has stayed below 38 V for 20 µs while the main rails were on (R544): t0 of R415. -/
def execMainInputLost (s : State) : Host.Outcome State Fault Refusal :=
  next (umberOp { s with umb := { s.umb with lim := { s.umb.lim with vin := true } } } 5)

/-- 12 V has been lost for 1 ms while the main rails were on (R543). -/
def execStandbyLost (s : State) : Host.Outcome State Fault Refusal := next (umberOp s 6)

/-- A condition of R549 is outside its limits, and an emergency is in force (R550). -/
def emergency (s : State) (f : Limits → Limits) : State := { s with umb := { s.umb with lim := f s.umb.lim, emerg := true } }

/-- Hottest junction at or above 105 °C (R549). -/
def execJunctionOvertemp (s : State) : Host.Outcome State Fault Refusal := next (emergency s (fun l => { l with therm := true }))

/-- Hottest junction at or above 110 °C for 1 s, or 115 °C for 1 ms (R549). -/
def execJunctionShutdownTemp (s : State) : Host.Outcome State Fault Refusal := next (umberOp (emergency s (fun l => { l with therm := true })) 1)

/-- Flow below 3.6 L/min for 2 s (R549). -/
def execFlowLow (s : State) : Host.Outcome State Fault Refusal := next (emergency s (fun l => { l with flow := true }))

/-- Flow below 2.4 L/min for 5 s (R549). -/
def execFlowCritical (s : State) : Host.Outcome State Fault Refusal := next (umberOp (emergency s (fun l => { l with flow := true })) 2)

/-- Inlet above 40 °C for 2 s (R549). -/
def execInletHigh (s : State) : Host.Outcome State Fault Refusal := next (emergency s (fun l => { l with inlet := true }))

/-- Inlet above 45 °C for 10 s (R549). -/
def execInletCritical (s : State) : Host.Outcome State Fault Refusal := next (umberOp (emergency s (fun l => { l with inlet := true })) 3)

/-- VIN48 outside 40 to 60 V for 100 µs (R549). -/
def execVinOutOfRange (s : State) : Host.Outcome State Fault Refusal := next (emergency s (fun l => { l with vin := true }))

/-- VIN48 above 63 V for 10 µs (R549): outside 40 to 60 V, though not for long enough to be an emergency by itself. -/
def execVinOvervolt (s : State) : Host.Outcome State Fault Refusal :=
  next (umberOp { s with umb := { s.umb with lim := { s.umb.lim with vin := true } } } 4)

/-- Input power above 2,400 W as a mean over 10 ms (R549). -/
def execPowerCap (s : State) : Host.Outcome State Fault Refusal := next (emergency s (fun l => { l with pcap := true }))

/-- Every condition has stayed inside its limits for 10 s (R550). -/
def execEmergencyClear (s : State) : Host.Outcome State Fault Refusal := next { s with umb := { s.umb with lim := {}, emerg := false } }

end Sys2Proof.Machine
end

