-- ==== Sys2Proof/Machine/PciCfg.lean ====
section
/-! DEFINITION. What a host reads of a function outside its registers: configuration space (R380, R381), the doorbell pages (R114) and
the MSI-X BAR (R384, R388); and a read of BAR0 as a command (R6, R387). The places of fields within the configuration header and the
capabilities are those of PCI Express (PRESUMED, unsafe; log 152). -/

namespace Sys2Proof.Machine

open Sys2Proof

/-- The identity of a function (R380). -/
structure Identity where
  vendor : Nat
  device : Nat
  cls : Nat
  revision : Nat
  subVendor : Nat
  subsystem : Nat
deriving DecidableEq, Repr

/-- What the header of a function reports (R380): a VF's own vendor and device read 0xFFFF. -/
def identityOf (f : Nat) : Identity :=
  if fnIsVf f then ⟨0xFFFF, 0xFFFF, 0x120000, 0x01, 0xD9A1, 0x0009⟩ else ⟨0xD9A1, 0x0900, 0x120000, 0x01, 0xD9A1, 0x0009⟩

/-- The device ID of the virtual functions, which PF1's SR-IOV capability gives (R378, R380). -/
def vfDeviceId : Nat := 0x0901

/-- Where a capability of a function stands, its ID, and where the next one stands (R381): those in the first 256 bytes, and the
extended ones. -/
def capsLow : List (Nat × Nat × Nat) := [(0x040, 0x01, 0x50), (0x050, 0x10, 0xB0), (0x0B0, 0x11, 0)]
def capsHigh (f : Nat) : List (Nat × Nat × Nat) :=
  if fnIsVf f then [(0x100, 0x01, 0x148), (0x148, 0x0E, 0x160), (0x160, 0x0F, 0)]
  else if fnIsPf0 f then [(0x100, 0x01, 0x148), (0x148, 0x0E, 0x150), (0x150, 0x03, 0x160), (0x160, 0x0F, 0x1C0)]
  else [(0x100, 0x01, 0x148), (0x148, 0x0E, 0x150), (0x150, 0x03, 0x160), (0x160, 0x0F, 0x180), (0x180, 0x10, 0x1C0)]

/-- The SR-IOV capability of PF1 past its header (R378, R381). -/
def sriovWord (s : State) (f o : Nat) : Nat :=
  let p := s.hport (fnPort f)
  if o = 0x08 then b2n p.vfEnable
  else if o = 0x0C then 2046 + at_ 16 2046
  else if o = 0x10 then p.numVfs
  else if o = 0x14 then 1 + at_ 16 1
  else if o = 0x18 then at_ 16 vfDeviceId
  else if o = 0x1C ∨ o = 0x20 then 1
  else 0

/-- The aligned 4 bytes of configuration space at an offset: the header, the enables that State holds, and what R381 says each
capability supports; the rest reads zero. -/
def cfgWord (s : State) (f o : Nat) : Nat :=
  let x := s.fn f
  let i := identityOf f
  if o = 0x00 then i.vendor + at_ 16 i.device
  else if o = 0x04 then at_ 2 (b2n x.bme) + at_ 20 1
  else if o = 0x08 then i.revision + at_ 8 i.cls
  else if o = 0x2C then i.subVendor + at_ 16 i.subsystem
  else if o = 0x34 then 0x40
  else if o = 0x44 then (if x.d3 then 3 else 0) + at_ 3 1
  else if o = 0x54 then 2 + at_ 5 1 + at_ 28 1
  else if o = 0x74 then 0xF + at_ 16 3
  else if o = 0x78 then x.cto + at_ 12 (b2n x.tag10)
  else if o = 0x150 + 4 ∧ fnIsVf f = false then serial % 2 ^ 32
  else if o = 0x150 + 8 ∧ fnIsVf f = false then serial / 2 ^ 32
  else if o = 0x164 then at_ 5 1 + at_ 31 (b2n x.ats)
  else match capsLow.find? (fun c => c.1 == o), (capsHigh f).find? (fun c => c.1 == o) with
    | some c, _ => c.2.1 + at_ 8 c.2.2 + (if o = 0xB0 then at_ 16 (fnVectors f - 1) + at_ 30 (b2n x.fmask) + at_ 31 (b2n x.msixEn) else 0)
    | none, some c => c.2.1 + at_ 16 1 + at_ 20 c.2.2
    | none, none => if f % 2048 = 1 ∧ 0x180 < o ∧ o < 0x1C0 then sriovWord s f (o - 0x180) else 0

/-- A read of configuration space: during a function-level reset it gets Request Retry Status and no data (R393). -/
def readConfig (s : State) (f off : Nat) : State :=
  if s.fnPresent f = false ∨ (s.fn f).flr = true ∨ off % 4 ≠ 0 then s else s.emit (.readData (cfgWord s f off))

/-- A memory read of a BAR is answered: with zero during a function-level reset and in D3hot (R391, R393). -/
def answerRead (s : State) (f v : Nat) : State :=
  if !s.fnPresent f then s else s.emit (.readData (if (s.fn f).flr || (s.fn f).d3 then 0 else v))

/-- The aligned 8 bytes of the MSI-X BAR at an offset (R384, R388): Address, then Data and Vector Control, and the pending bits. -/
def msixWord (s : State) (f o : Nat) : Nat :=
  let pba := if fnIsVf f then 0x800 else 0x8000
  let x := s.fn f
  if o < 16 * fnVectors f then
    let e := mgetD x.msix (o / 16) {}
    if o % 16 = 0 then e.addr.toNat else e.data.toNat + at_ 32 (b2n e.mask)
  else if pba ≤ o ∧ o < pba + fnVectors f / 8 then bitsOf ((List.range 64).map (fun k => (mgetD x.msix (8 * (o - pba) + k) {}).pending))
  else 0

/-- The words of the mailboxes as a function sees them in BAR0 (R445). -/
def mboxWords (f off : Nat) : Bool :=
  if fnIsPf0 f then decide (0xE00000 ≤ off) && decide (off < 0xE02000) && decide ((off - 0xE00000) % 0x40 < 0x10)
  else decide (0x1000 ≤ off) && decide (off < 0x1010)

/-- A register of BAR0 whose reads are rows of their own: the locks, ETH_TS_NS, and the outbound word of a mailbox (R326, R448, R450). -/
def readOwnRow (f off : Nat) : Bool :=
  (mboxWords f off && decide (8 ≤ off % 0x10)) || (fnIsPf0 f && ((decide (0xE04000 ≤ off) && decide (off < 0xE04400)) ||
    (decide (0xC00000 ≤ off) && decide (off < 0xC04000) && off % 0x100 == 0x20)))

/-- A read of BAR0 by a host (R6, R385 to R387): one that breaks R6 returns zero and is counted; in recovery only pair 0 is there
(R532). -/
def readBar0 (s : State) (f off size : Nat) : State :=
  if s.fnPresent f = false then s
  else if (s.fn f).flr = true ∨ (s.fn f).d3 = true then answerRead s f 0
  else if (size ≠ 4 ∧ size ≠ 8) ∨ off % size ≠ 0 then answerRead (s.count HIF_BAD_ACCESS) f 0
  else if s.recovery && !(decide (0xE00000 ≤ off) && decide (off < 0xE00040)) then answerRead s f 0
  else if readOwnRow f off then s
  else answerRead s f (readReg s f off size)

end Sys2Proof.Machine
end

