-- ==== Sys2Proof/Machine/RegWrite.lean ====
section
/-! DEFINITION. A write to a register without a row of its own (R5 to R9, R385 to R387, R401), and with it the reads of the same places. -/

namespace Sys2Proof.Machine

open Sys2Proof

/-- `old` with the `n` bits from `lo` on replaced by those of `v` (R6). -/
def withBits (old lo n v : Nat) : Nat := old - old / 2 ^ lo % 2 ^ n * 2 ^ lo + v % 2 ^ n * 2 ^ lo

/-- A field of an RW register: its bits, and the encodings that are not reserved. -/
structure RegField where
  hi : Nat
  lo : Nat
  ok : Nat → Bool := fun _ => true

/-- The fields of a write: a reserved encoding leaves its field as it was, reserved bits read zero (R5). -/
def mergeFields (fs : List RegField) (old new : Nat) : Nat :=
  (fs.map (fun f =>
    let w := f.hi + 1 - f.lo
    let x := new / 2 ^ f.lo % 2 ^ w
    at_ f.lo (if f.ok x then x else old / 2 ^ f.lo % 2 ^ w))).sum

def between (a b x : Nat) : Bool := decide (a ≤ x) && decide (x ≤ b)

/-- Whether ARG of an action suits its KIND (R345). -/
def argOk (kind arg : Nat) : Bool := if kind = 1 then decide (arg < 256) else if kind = 3 then decide (arg < 2 ^ 17) else arg == 0

/-- A staging word of a rule (R343 to R345, R354). Bits 15 and 47 to 43 of the key are reserved. -/
def ruleFields (k old new : Nat) : List RegField :=
  if k = 0 ∨ k = 7 then [⟨14, 0, fun _ => true⟩, ⟨42, 16, fun _ => true⟩, ⟨63, 48, fun _ => true⟩]
  else if k < 14 then [⟨63, 0, fun _ => true⟩]
  else if k = 14 then [⟨12, 0, fun _ => true⟩, ⟨28, 16, fun _ => true⟩]
  else
    let kind := if new % 8 < 4 then new % 8 else old % 8
    [⟨2, 0, fun x => decide (x < 4)⟩, ⟨31, 8, argOk kind⟩]

/-- Fields of the RW registers that hold what was written, by offset; `old` and `new` are the whole register. -/
def rwFields (off old new : Nat) : List RegField :=
  let all (hi : Nat) : List RegField := [⟨hi, 0, fun _ => true⟩]
  if off = HIF_FN_SEL then all 11
  else if off = LAKE_SCRUB_CFG then [⟨7, 0, between 1 168⟩]
  else if off = CARM_UDP_PORT then all 15
  else if off = CARM_DSCP then all 47
  else if off = CARM_CQ_SEL then all 23
  else if off = MADR_RULE_SEL then all 15
  else if 0x400040 ≤ off ∧ off < 0x4000C0 then ruleFields (nth off 0x400040 8) old new
  else if 0x410000 ≤ off ∧ off < 0x420000 then all 32
  else if 0x420000 ≤ off ∧ off < 0x430000 then [⟨13, 0, between 0 16000⟩]
  else if off = WELD_SAMPLE_CFG then [⟨9, 0, between 1 1000⟩]
  else if off = WELD_Q_SEL ∨ off = WELD_HIST_SEL then all 17
  else if 0x510000 ≤ off ∧ off < 0x514000 then
    let o := (off - 0x510000) % 0x100
    if o = 0 then all 5 else if o = 0x4C then all 29 else if o = 0x50 then all 47 else if o = 0x58 then [⟨31, 0, fun x => decide (x ≠ 0)⟩] else []
  else if 0x540000 ≤ off ∧ off < 0x560000 then all 40
  else if 0x580000 ≤ off ∧ off < 0x600000 then
    (if (off - 0x580000) % 0x20 = 0 then [⟨23, 0, between 0 1600000⟩, ⟨47, 24, between 0 1600000⟩] else all 47)
  else if off = SAFF_NS_SEL then [⟨14, 0, between 1 16384⟩]
  else if 0xC00000 ≤ off ∧ off < 0xC04000 then
    let o := (off - 0xC00000) % 0x100
    if o = 8 then all 47
    else if o = 0x10 then
      [⟨11, 0, fun _ => true⟩, ⟨12, 12, fun x => x == 1 || !new.testBit 44⟩, ⟨31, 16, fun x => x == 0x8100 || x == 0x88A8⟩, ⟨43, 32, fun _ => true⟩, ⟨44, 44, fun x => x == 0 || new.testBit 12⟩]
    else []
  else []

/-- Registers whose writes are rows of their own: PORT_CFG and TS_RATE, GATE_CTRL, SHP_CTRL, SWAT_CTRL with GO, the inbound mailbox. -/
def ownRow (off new : Nat) : Bool :=
  (decide (0xC00000 ≤ off) && decide (off < 0xC04000) && ((off - 0xC00000) % 0x100 == 0 || (off - 0xC00000) % 0x100 == 0x24)) ||
    (decide (0x510000 ≤ off) && decide (off < 0x514000) && (off - 0x510000) % 0x100 == 0x48) ||
    (decide (0x580000 ≤ off) && decide (off < 0x600000) && (off - 0x580000) % 0x20 == 0x10) ||
    (off == SWAT_CTRL && new.testBit 24)

/-! WELD_Q_CFG and WELD_CLASS (R364, R372, R374, R375). -/

/-- A write of WELD_Q_CFG: a gate held by another queue, or GATED on a queue of TC0, leaves the configuration unchanged. -/
def writeQCfg (s : State) (new : Nat) : State :=
  let p := s.reg WELD_Q_SEL / 4096 % 64
  let q := s.reg WELD_Q_SEL % 4096
  let x := s.queue p q
  let v := mergeFields [⟨4, 0, fun _ => true⟩, ⟨12, 5, fun w => decide (w ≠ 0)⟩, ⟨13, 13, fun _ => true⟩, ⟨27, 14, fun i => decide (i / 8192 = p / 32)⟩] x.cfg.toNat new
  let y := { x with cfg := BitVec.ofNat 64 v }
  let clash := (portQueues s p).any (fun z => z.1 != q && z.2.gated && z.2.gbit == y.gbit)
  if y.gated && (clash || queueClass s p q == some 0) then s
  else
    let s1 := tickShapers s p
    (if y.shpEn then s1.setShaper y.shaperNo (shaperNow s1 y.shaperNo) else s1).setQueue p q y

/-- A write of WELD_CLASS: ranges that overlap, or go past queue 4,095, leave the register unchanged. Queues that leave the range
keep its class as their last. -/
def writeClass (s : State) (p k new : Nat) : State :=
  let old := s.reg (WELD_CLASS p k)
  let fs : List RegField :=
    if k = 0 then [⟨11, 0, fun _ => true⟩, ⟨24, 12, between 1 4096⟩]
    else [⟨11, 0, fun _ => true⟩, ⟨24, 12, between 1 4096⟩, ⟨32, 25, between 1 255⟩, ⟨33, 33, fun _ => true⟩]
  let v := mergeFields fs old new
  let base := v % 4096
  let stop := base + v / 4096 % 8192
  let hits := (List.range 8).any (fun j => j != k && decide (base < clsBase s p j + clsQn s p j) && decide (clsBase s p j < stop))
  if 4096 < stop ∨ hits = true then s
  else
    let mine (q : Nat) : Bool := decide (q / 4096 = p) && decide (clsBase s p k ≤ q % 4096) && decide (q % 4096 < clsBase s p k + clsQn s p k)
    ({ s with net := { s.net with queues := mmap s.net.queues (fun q x => if mine q then { x with lastCls := some k } else x) } }).setReg (WELD_CLASS p k) v

/-! SC and W1C registers (R7). -/

/-- Baselines of telemetry move with a register that is cleared, so that clearing changes nothing exported (R517). -/
def shiftBase (s : State) (key by_ m : Nat) : State :=
  { s with rel := { s.rel with collectors := mmap s.rel.collectors (fun _ c => { c with base := mmap c.base (fun k b => if k = key then (b + 2 ^ m - by_ % 2 ^ m) % 2 ^ m else b) }) } }

/-- A baseline that stands at 0 unlisted is listed before it moves. -/
def listBase (s : State) (key : Nat) : State :=
  { s with rel := { s.rel with collectors := mmap s.rel.collectors (fun _ c => { c with base := mset c.base key (mgetD c.base key 0) }) } }

/-- The counter of a port that Sienna exports at an offset in the port's registers (R517). -/
def portCounter (o : Nat) : Option Nat :=
  if o = 0x40 then some 0 else if o = 0x48 then some 1 else if o = 0x50 then some 2 else if o = 0x30 then some 3 else if o = 0x38 then some 4 else none

/-- Clears the bits of a count that a write addresses (R6, R7). -/
def clearCount (s : State) (off lo n : Nat) : State :=
  let cut (x : Nat) : Nat := withBits x lo n 0
  if 0x500040 ≤ off ∧ off < 0x5000C0 then
    let p := s.reg WELD_HIST_SEL / 4096 % 64
    let q := s.reg WELD_HIST_SEL % 4096
    let x := s.queue p q
    let b := nth off 0x500040 4
    let key := queueBase (4096 * p + q) b
    if b < 16 then (shiftBase (listBase s key) key (mgetD x.histDepth b 0) 32).setQueue p q { x with histDepth := mset x.histDepth b 0 }
    else (shiftBase (listBase s key) key (mgetD x.histSoj (b - 16) 0) 32).setQueue p q { x with histSoj := mset x.histSoj (b - 16) 0 }
  else if 0x230000 ≤ off ∧ off < 0x230400 then
    let i := nth off 0x230000 0x40
    { s with par := { s.par with groups := mmod s.par.groups i (fun g =>
        if (off - 0x230000) % 0x40 = 0x20 then { g with sent := cut g.sent } else { g with applied := cut g.applied }) } }
  else
    let old := s.reg off
    let s1 := if 0xC00000 ≤ off ∧ off < 0xC04000 then
        match portCounter ((off - 0xC00000) % 0x100) with
        | some k =>
          let key := portBase (nth off 0xC00000 0x100) k
          shiftBase (listBase s key) key (old - cut old) 64
        | none => s
      else s
    s1.setReg off (cut old)

/-- A pair's registers but its words (R446, R447). -/
def writePair (s : State) (k : MboxId) (o v : Nat) : State :=
  let p := s.pair k
  if o = 0x10 then s.setPair k { p with inRR := p.inRR && !v.testBit 2, outRR := p.outRR && !v.testBit 3, crossed := p.crossed && !v.testBit 4 }
  else if o = 0x14 then
    let port := match k with
      | .block _ => some (v.testBit 11)
      | _ => p.port
    s.setPair k { p with vector := v % 2048, port := port, en := v.testBit 12 }
  else if o = 0x18 then s.setPair k { p with refused := 0 }
  else if o = 0x1C then s.setPair k { p with rrcnt := 0 }
  else s

/-! The write. -/

/-- A write of `n` bits `v` at bit `lo` of the RW register at `off`. -/
def writeRw (s : State) (off lo n v : Nat) : State :=
  if off = WELD_Q_CFG then writeQCfg s (withBits ((s.queue (s.reg WELD_Q_SEL / 4096 % 64) (s.reg WELD_Q_SEL % 4096)).cfg.toNat) lo n v)
  else if 0x301000 ≤ off ∧ off < 0x301200 then
    let i := nth off 0x301000 0x20
    let c := mgetD s.carm.prof i {}
    let word (w : Option W64) (k : Nat) : Nat := (w.map (·.toNat)).getD (bn c.val (64 * k + 63) (64 * k))
    if lo < 64 then { s with carm := { s.carm with prof := mset s.carm.prof i { c with w0 := some (BitVec.ofNat 64 (withBits (word c.w0 0) lo n v)) } } }
    else if lo < 128 then { s with carm := { s.carm with prof := mset s.carm.prof i { c with w1 := some (BitVec.ofNat 64 (withBits (word c.w1 1) (lo - 64) n v)) } } }
    else s
  else if off = PAL_LOG_HEAD then
    let head := s.pal.logTail - (s.pal.logTail + 2 ^ 32 - v % 2 ^ 32) % 2 ^ 32
    copyLog 65536 { s with pal := { s.pal with logHead := head } }
  else if 0xE06000 ≤ off ∧ off < 0xE06400 then { s with pal := { s.pal with spHead := mset s.pal.spHead (nth off 0xE06000 4) (v % 65536) } }
  else if 0x510000 ≤ off ∧ off < 0x514000 ∧ 8 ≤ (off - 0x510000) % 0x100 ∧ (off - 0x510000) % 0x100 < 0x48 then
    let p := nth off 0x510000 0x100
    let k := ((off - 0x510000) % 0x100 - 8) / 8
    writeClass s p k (withBits (s.reg off) lo n v)
  else if off = SWAT_CTRL then (if destrOk s then s.setReg off (withBits (s.reg off) lo n v % 2 ^ 24) else s)
  else
    let old := s.reg off
    let new := withBits old lo n v
    match rwFields off old new with
    | [] => s
    | fs => s.setReg off (mergeFields fs old new)

/-- A write of `n` bits `v` at bit `lo` of the register of a row of the map (R7). -/
def writeRow (s : State) (off : Nat) (r : RegRow) (lo n v : Nat) : State :=
  if 0xE00000 ≤ off ∧ off < 0xE02000 then writePair s (.block (nth off 0xE00000 0x40)) ((off - 0xE00000) % 0x40) v
  else if (0xF00000 ≤ off ∧ off < 0x1000000) ∨ ownRow off v = true then s
  else match r.acc with
    | .RW => writeRw s off lo n v
    | .SC => clearCount s off lo n
    | .W1C =>
      if off = LAKE_EVENT then { s with lake := { s.lake with event := s.lake.event &&& ~~~BitVec.ofNat 6 v } }
      else if off = VERD_EVENT then { s with rel := { s.rel with event := s.rel.event &&& ~~~BitVec.ofNat 5 v } }
      else s
    | .RO => s
    | .WO => s
    | .W1S => s
    | .LK => s

/-- A naturally aligned write to BAR0 of physical function 0 (R6, R385): two 32-bit registers take their halves of a 64-bit write. -/
def writeRegs (s : State) (off size v : Nat) : State :=
  let half (s : State) (o x : Nat) : State :=
    match regAt o with
    | some (a, r) => writeRow s a r (8 * (o - a)) 32 x
    | none => s
  match regAt off with
  | some (a, r) =>
    if size = 8 ∧ 64 ≤ r.width then writeRow s a r (8 * (off - a)) 64 v
    else if size = 8 then half (half s off (v % 2 ^ 32)) (off + 4) (v / 2 ^ 32)
    else half s off (v % 2 ^ 32)
  | none => if size = 8 then half s (off + 4) (v / 2 ^ 32) else s

/-- A naturally aligned write to a function page (R386, R445). -/
def writePage (s : State) (f off size v : Nat) : State :=
  if 0x1000 ≤ off ∧ off < 0x1040 then
    let o := off - 0x1000
    let s1 := writePair s (.page f) o (v % 2 ^ 32)
    if size = 8 then writePair s1 (.page f) (o + 4) (v / 2 ^ 32) else s1
  else s

/-- A write to BAR0 (R6, R385 to R387). The words of the mailboxes have rows of their own, whatever
the size (R448). In recovery only pair 0 is there (R532); a function in reset or D3hot takes no write (R393). -/
def writeBar0 (s : State) (f off size v : Nat) : State :=
  if s.fnPresent f = false ∨ (s.fn f).flr = true ∨ (s.fn f).d3 = true then s
  else if mboxWords f off then s
  else if (size ≠ 4 ∧ size ≠ 8) ∨ off % size ≠ 0 then s.count HIF_BAD_ACCESS
  else if !fnIsPf0 f then writePage s f off size v
  else if s.recovery && !(decide (0xE00000 ≤ off) && decide (off < 0xE00040)) then s
  else writeRegs s off size v

/-- A host write of `size` bytes to a register without a row of its own (R7), or to a field of configuration space, and the reads of those
places (R6, R114, R380, R387). Registers with rows of their own are left to those rows. The doorbell pages drop every other write (R114),
and a poisoned write to a BAR is dropped and logged (R390). -/
def execRegisterWrite (fn : Nat) (space : RegSpace) (off size : Nat) (value : W64) (s : State) : Host.Outcome State Fault Refusal :=
  let v := value.toNat
  let x := s.fn fn
  let h := fnPort fn
  if 4096 ≤ fn then next s
  else match space with
    | .bar0 => next (writeBar0 s fn off size v)
    | .bar0Read => next (readBar0 s fn off size)
    | .pages => next s
    | .pagesRead => next (answerRead s fn 0)
    | .bar4Read => next (answerRead s fn (msixWord s fn (off / 8 * 8) / 2 ^ (8 * (off % 8)) % 2 ^ (8 * size)))
    | .cfgRead => next (readConfig s fn off)
    | .poisoned => next (if s.fnPresent fn then s.setFn fn { x with aer := x.aer ||| 4#3 } else s)
    | .vfEnable => next (if fn % 2048 = 1 ∧ s.fnPresent fn = true ∧ x.flr = false ∧ s.recovery = false ∧ v % 2 = 1 then s.setHport h { s.hport h with vfEnable := true } else s)
    | .numVfs => next (if fn % 2048 = 1 ∧ s.fnPresent fn = true ∧ x.flr = false ∧ (s.hport h).vfEnable = false ∧ v ≤ 2046 then s.setHport h { s.hport h with numVfs := v } else s)
    | .cplTimeout => next (if s.fnPresent fn && !x.flr then s.setFn fn { x with cto := v % 16 } else s)
    | .tag10 => next (if s.fnPresent fn && !x.flr then s.setFn fn { x with tag10 := v.testBit 0 } else s)
    | .tag14 => next (if s.fnPresent fn && !x.flr then s.setFn fn { x with tag14 := v.testBit 0 } else s)
    | .ats => next (if s.fnPresent fn && !x.flr then s.setFn fn { x with ats := v.testBit 0 } else s)

end Sys2Proof.Machine
end

