-- ==== Sys2Proof/Machine/Secure.lean ====
section
/-! DEFINITION. Lifecycle transitions and the full erase (R481 to R483, R501), and the tamper responses (R498, R501). -/

namespace Sys2Proof.Machine

open Sys2Proof

/-! Lifecycle. -/

/-- The key of the ROLE 4 certificate, when the root it was issued by is the one that ROOT_PKH names (R484; log 80). -/
def lifecycleKey : Option (List Byte) :=
  let cert := slice (Config.factory 13) 0 7984
  let root := slice (Config.factory 14) 0 32
  if sha256 root = rootPkh ∧ certOk root cert 4 = true then some (certKey cert) else none

/-- The key of the current owner: that whose SHA-256 the last owner slot used holds (R481; log 80). -/
def ownerPk (s : State) : Option (List Byte) :=
  match s.sec.owners.getLast? with
  | none => none
  | some h =>
    let k := slice (Config.ownerKey h) 0 32
    if sha256 k = h then some k else none

/-- The key that must sign a transition of R481, or none when there is no such transition. -/
def transitKey (s : State) (to_ : Nat) (newpk : List Byte) : Option (List Byte) :=
  match s.sec.lc, to_ with
  | 2, 3 => if s.sec.owners.length < 5 then some newpk else none
  | 3, 4 => ownerPk s
  | 4, 2 => if s.sec.owners.length < 5 then lifecycleKey else none
  | 3, 5 => ownerPk s
  | 5, _ => none
  | _, 5 => lifecycleKey
  | _, _ => none

/-- Every check of a token (R483). -/
def tokenOk (s : State) (tok : List Byte) : Bool :=
  let to_ := leAt tok 4 1 / 16
  let newpk := slice tok 48 32
  decide (leAt tok 0 4 = 0x4B4C5431) && decide (leAt tok 4 1 % 16 = s.sec.lc) && decide (leAt tok 5 3 = 0) && decide (leAt tok 8 8 = serial) &&
    decide (s.sec.nonce = some (BitVec.ofNat 256 (leAt tok 16 32))) && (decide (s.sec.lc = 2 ∧ to_ = 3) || decide (leNat newpk = 0)) &&
    decide (leAt tok 80 48 = 0) &&
    (match transitKey s to_ newpk with
      | some k => Config.slhVerify k (slice tok 0 128) (slice tok 128 7856)
      | none => false)

/-- Destroys a channel to its end (R109). -/
def destroyNow (s : State) (cls i : Nat) : State :=
  let sl := s.slot cls i
  let s1 := destroyStop (if sl.live then destroyStart s cls i 0 false else s) cls i
  let s2 := if cls = 3 then sendClose s1 i else s1
  let d : Dying := (s2.vat.dying.find? (fun d => d.cls == cls && d.index == i)).getD { cls := cls, index := i, owner := sl.owner, cmd := 0 }
  destroyEnd s2 d

/-- Every channel of a class that is live or dying. -/
def allSlots (s : State) (cls : Nat) : List Nat := (s.vat.slots.filter (fun p => decide (p.1 / 2 ^ 24 = cls) && (p.2.live || p.2.dying))).map (fun p => p.1 % 2 ^ 24)

/-- A full erase (R482): channels, key slots, tier N, scratch, save-flash images and the salt. The write buffer and the flow table are
contents of tier N. -/
def fullErase (s : State) : State :=
  let s1 := [1, 3, 4, 5, 6, 7, 8, 9, 0xA, 0xB, 2].foldl (fun s cls => (allSlots s cls).foldl (fun s i => destroyNow s cls i) s) s
  { s1 with
    sec := { s1.sec with keys := [], salt := none }
    lake := { s1.lake with mem := [], poison := [], badSym := [] }
    fab := { s1.fab with scratch := [], scrBad := [] }
    par := { s1.par with progs := mmap s1.par.progs (fun _ p => { p with loaded := [] }) }
    madr := { s1.madr with flows := [] }
    saf := { s1.saf with images := [], pages := [] } }

/-- The effect of a transition (R481, R482). -/
def transit (s : State) (to_ : Nat) (newpk : List Byte) : State :=
  let s1 := if to_ = 4 ∨ to_ = 5 then fullErase { s with sec := { s.sec with erasePending := true } } else s
  { s1 with sec := { s1.sec with lc := to_, erasePending := false, owners := if to_ = 3 then s1.sec.owners ++ [sha256 newpk] else s1.sec.owners } }

/-- LC_TRANSIT (R481, R483, R501): `token` is what the host returns for the 7,984 bytes of the token, none for a failed read (log 40).
The nonce is spent by every transition that is tried. -/
def execLcTransit (pair : MboxId) (blk : CmdBlock) (token : Option (List Byte)) (s : State) : Host.Outcome State Fault Refusal :=
  next (safSettle (fwCommand 0x0C2 true pair blk (fun s c b =>
    let off := bn b 31 0
    if !fromPf0 c then refuse s .accessDenied
    else if s.pal.act = 4 ∨ s.pal.actCmd ≠ 0 then refuse s .busy
    else if !bodyReserved b [] 32 || decide (off % 64 ≠ 0) then refuse s .invalidField
    else if 65536 < off + 7984 then refuse s .bounds
    else match token with
      | none => refuse s .hostDmaError
      | some bs =>
        let tok := slice bs 0 7984
        let spent : State := { s with sec := { s.sec with nonce := none } }
        if !tokenOk s tok then refuse spent .accessDenied
        else accept (transit spent (leAt tok 4 1 / 16) (slice tok 48 32))) s))

/-! Tamper. -/

/-- The key erase (R498 step 1, R507): every key slot and Mordant's internal state; jobs that use a key complete as aborted.
ERASING stays until the warm reset that follows. -/
def keyErase (s : State) : State :=
  let s1 := abortJobs s .aborted (fun j => dOpcode j.desc == 0x70 || dOpcode j.desc == 0x71)
  guarded { s1 with sec := { s1.sec with keys := [], erasing := decide (s.umb.phase ≠ 0) && (decide (s.umb.phase ≠ 9) || s.umb.warming.isSome) } } 2

/-- Step 2 of the volatile response: the secure carve-out and the scratch of secure clusters. -/
def zeroSecure (s : State) : State :=
  let s1 : State := { s with lake := { s.lake with mem := memClear s.lake.mem 0x02FFC0000000 0x40000000 } }
  ((s1.fab.clusters.filter (fun c => c.2.world)).map (·.1)).foldl clearScratch s1

/-- The volatile response (R498); in standby there is nothing to reset. -/
def volatileResponse (s : State) (cause : Nat) : State := warmReset (zeroSecure (keyErase (noteTamper s cause))) 1 true

/-- The full response (R498, R501): the salt and the images go too, and a save that runs stops. -/
def fullResponse (s : State) (cause : Nat) : State :=
  let s1 := zeroSecure (keyErase (noteTamper s cause))
  let s2 : State := { s1 with sec := { s1.sec with salt := none }, saf := { s1.saf with images := [], vstate := if s1.saf.vstate = 2 then 0 else s1.saf.vstate } }
  if s.saf.vstate = 2 ∧ s2.umb.shutting = true then railsOff (flushJournal s2)
  else if s.saf.vstate = 2 ∧ s2.umb.warming.isSome = true then warmClear s2
  else warmReset s2 1 false

/-- The break-wire under the cold plate is broken (R498). -/
def execLidBreak (s : State) : Host.Outcome State Fault Refusal := next (fullResponse s 0)

/-- The shield mesh is open or short (R498). -/
def execMeshFault (s : State) : Host.Outcome State Fault Refusal := next (fullResponse s 1)

/-- A supply has been outside its window for more than 50 ns (R498). -/
def execSupplyGlitch (s : State) : Host.Outcome State Fault Refusal := next (volatileResponse s 2)

/-- A junction is below −20 °C or above 125 °C (R498). -/
def execTamperTemp (s : State) : Host.Outcome State Fault Refusal := next (volatileResponse s 3)

end Sys2Proof.Machine
end

