-- ==== Sys2Proof/Machine/Dispatch.lean ====
section
/-! DEFINITION. The meaning of each command: one arm for each constructor. -/

namespace Sys2Proof.Machine

open Sys2Proof

def exec (i : Instr) (s : State) : Host.Outcome State Fault Refusal :=
  match i with
  | .unitFault unit lost => Sys2Proof.Machine.execUnitFault unit lost s
  | .clusterReset work => Sys2Proof.Machine.execClusterReset work s
  | .clusterResetDone cluster => Sys2Proof.Machine.execClusterResetDone cluster s
  | .regionReset region umber lost => Sys2Proof.Machine.execRegionReset region umber lost s
  | .regionResetDone region => Sys2Proof.Machine.execRegionResetDone region s
  | .regionResetTimeout region waiting => Sys2Proof.Machine.execRegionResetTimeout region waiting s
  | .clusterPowerUp cluster => Sys2Proof.Machine.execClusterPowerUp cluster s
  | .clusterGate cluster => Sys2Proof.Machine.execClusterGate cluster s
  | .worldChange cluster secure => Sys2Proof.Machine.execWorldChange cluster secure s
  | .scrubRead upsets => Sys2Proof.Machine.execScrubRead upsets s
  | .refreshRound stack die => Sys2Proof.Machine.execRefreshRound stack die s
  | .pageZeroingDone => Sys2Proof.Machine.execPageZeroingDone s
  | .dieRetirement stack die => Sys2Proof.Machine.execDieRetirement stack die s
  | .pageMigrated stack => Sys2Proof.Machine.execPageMigrated stack s
  | .chCreateWorkRing pair blk => Sys2Proof.Machine.execChCreateWorkRing pair blk s
  | .chCreateCompletionRing pair blk => Sys2Proof.Machine.execChCreateCompletionRing pair blk s
  | .chCreateConnection pair blk => Sys2Proof.Machine.execChCreateConnection pair blk s
  | .chCreateStorageQueue pair blk => Sys2Proof.Machine.execChCreateStorageQueue pair blk s
  | .chCreateDispatchQueue pair blk => Sys2Proof.Machine.execChCreateDispatchQueue pair blk s
  | .chCreateReductionGroup pair blk => Sys2Proof.Machine.execChCreateReductionGroup pair blk s
  | .chCreateOptimizerProgram pair blk => Sys2Proof.Machine.execChCreateOptimizerProgram pair blk s
  | .chCreateMemoryRegion pair blk => Sys2Proof.Machine.execChCreateMemoryRegion pair blk s
  | .chCreateKeySlot pair blk data => Sys2Proof.Machine.execChCreateKeySlot pair blk data s
  | .chCreateCounterSet pair blk => Sys2Proof.Machine.execChCreateCounterSet pair blk s
  | .chCreateTriggerList pair blk => Sys2Proof.Machine.execChCreateTriggerList pair blk s
  | .chModifyCompletionRing pair blk => Sys2Proof.Machine.execChModifyCompletionRing pair blk s
  | .chModifyMemoryRegion pair blk => Sys2Proof.Machine.execChModifyMemoryRegion pair blk s
  | .chModifyDispatchQueue pair blk => Sys2Proof.Machine.execChModifyDispatchQueue pair blk s
  | .chModifyReductionGroup pair blk => Sys2Proof.Machine.execChModifyReductionGroup pair blk s
  | .chModifyOptimizerProgram pair blk => Sys2Proof.Machine.execChModifyOptimizerProgram pair blk s
  | .chModifyConnection pair blk => Sys2Proof.Machine.execChModifyConnection pair blk s
  | .chModifyStorageQueue pair blk => Sys2Proof.Machine.execChModifyStorageQueue pair blk s
  | .chModifyFixedClass pair blk => Sys2Proof.Machine.execChModifyFixedClass pair blk s
  | .chDestroy pair blk => Sys2Proof.Machine.execChDestroy pair blk s
  | .chDestroyDone cls index => Sys2Proof.Machine.execChDestroyDone cls index s
  | .workDoorbell fn page wide value => Sys2Proof.Machine.execWorkDoorbell fn page wide value s
  | .completionDoorbell fn page wide value => Sys2Proof.Machine.execCompletionDoorbell fn page wide value s
  | .descriptorFetch cq => Sys2Proof.Machine.execDescriptorFetch cq s
  | .descriptorReadError ring => Sys2Proof.Machine.execDescriptorReadError ring s
  | .descriptorStart ring => Sys2Proof.Machine.execDescriptorStart ring s
  | .countWaitSatisfied ring => Sys2Proof.Machine.execCountWaitSatisfied ring s
  | .nop job => Sys2Proof.Machine.execNop job s
  | .ctrAdd job => Sys2Proof.Machine.execCtrAdd job s
  | .ctrSet job => Sys2Proof.Machine.execCtrSet job s
  | .codec job => Sys2Proof.Machine.execCodec job s
  | .codecJobDone job => Sys2Proof.Machine.execCodecJobDone job s
  | .modTimeExpiry cq => Sys2Proof.Machine.execModTimeExpiry cq s
  | .triggerEntryRun cq => Sys2Proof.Machine.execTriggerEntryRun cq s
  | .clAssign pair blk => Sys2Proof.Machine.execClAssign pair blk s
  | .reclaimGraceEnd cluster => Sys2Proof.Machine.execReclaimGraceEnd cluster s
  | .clRun pair blk => Sys2Proof.Machine.execClRun pair blk s
  | .clStop pair blk => Sys2Proof.Machine.execClStop pair blk s
  | .matmul job => Sys2Proof.Machine.execMatmul job s
  | .gfMatmul job => Sys2Proof.Machine.execGfMatmul job s
  | .engineAccept cluster codec => Sys2Proof.Machine.execEngineAccept cluster codec s
  | .indigoJobDone job => Sys2Proof.Machine.execIndigoJobDone job s
  | .residueMismatch place => Sys2Proof.Machine.execResidueMismatch place s
  | .arrayPatternTestDone cluster column index => Sys2Proof.Machine.execArrayPatternTestDone cluster column index s
  | .dispatch job => Sys2Proof.Machine.execDispatch job s
  | .dispatchHoldEnd queue => Sys2Proof.Machine.execDispatchHoldEnd queue s
  | .dispatchDone queue => Sys2Proof.Machine.execDispatchDone queue s
  | .returnRows job => Sys2Proof.Machine.execReturnRows job s
  | .returnDone job => Sys2Proof.Machine.execReturnDone job s
  | .combine job => Sys2Proof.Machine.execCombine job s
  | .combineStart queue => Sys2Proof.Machine.execCombineStart queue s
  | .combineTimeout queue => Sys2Proof.Machine.execCombineTimeout queue s
  | .allreduce job => Sys2Proof.Machine.execAllreduce job s
  | .reduceScatter job => Sys2Proof.Machine.execReduceScatter job s
  | .allgather job => Sys2Proof.Machine.execAllgather job s
  | .collectiveHoldEnd group => Sys2Proof.Machine.execCollectiveHoldEnd group s
  | .collectiveTimeout group => Sys2Proof.Machine.execCollectiveTimeout group s
  | .optStep job => Sys2Proof.Machine.execOptStep job s
  | .wpush job => Sys2Proof.Machine.execWpush job s
  | .parEpoch job => Sys2Proof.Machine.execParEpoch job s
  | .epochCommit group => Sys2Proof.Machine.execEpochCommit group s
  | .pgJoin pair blk => Sys2Proof.Machine.execPgJoin pair blk s
  | .pgJoinDone group same peers => Sys2Proof.Machine.execPgJoinDone group same peers s
  | .pgJoinTimeout group => Sys2Proof.Machine.execPgJoinTimeout group s
  | .pgLeave pair blk othersHold => Sys2Proof.Machine.execPgLeave pair blk othersHold s
  | .pgRebuild pair blk => Sys2Proof.Machine.execPgRebuild pair blk s
  | .pgRebuildDone group ok epoch data parity peers => Sys2Proof.Machine.execPgRebuildDone group ok epoch data parity peers s
  | .connectTimer conn => Sys2Proof.Machine.execConnectTimer conn s
  | .connectingTimeout conn => Sys2Proof.Machine.execConnectingTimeout conn s
  | .connect => Sys2Proof.Machine.execConnect s
  | .connectAck => Sys2Proof.Machine.execConnectAck s
  | .close => Sys2Proof.Machine.execClose s
  | .probe => Sys2Proof.Machine.execProbe s
  | .probeAck => Sys2Proof.Machine.execProbeAck s
  | .keepaliveTimer conn => Sys2Proof.Machine.execKeepaliveTimer conn s
  | .write job => Sys2Proof.Machine.execWrite job s
  | .writeInc job => Sys2Proof.Machine.execWriteInc job s
  | .writeTrig job => Sys2Proof.Machine.execWriteTrig job s
  | .read job => Sys2Proof.Machine.execRead job s
  | .send job => Sys2Proof.Machine.execSend job s
  | .fetchAdd job => Sys2Proof.Machine.execFetchAdd job s
  | .cmpSwap job => Sys2Proof.Machine.execCmpSwap job s
  | .recv job => Sys2Proof.Machine.execRecv job s
  | .packetSend conn => Sys2Proof.Machine.execPacketSend conn s
  | .dataPacket delta => Sys2Proof.Machine.execDataPacket delta s
  | .ackPacket => Sys2Proof.Machine.execAckPacket s
  | .nackPacket => Sys2Proof.Machine.execNackPacket s
  | .readReq => Sys2Proof.Machine.execReadReq s
  | .readResp => Sys2Proof.Machine.execReadResp s
  | .atomicReq => Sys2Proof.Machine.execAtomicReq s
  | .atomicResp => Sys2Proof.Machine.execAtomicResp s
  | .ackTimer conn => Sys2Proof.Machine.execAckTimer conn s
  | .rtoExpiry conn psn => Sys2Proof.Machine.execRtoExpiry conn psn s
  | .noprogExpiry conn => Sys2Proof.Machine.execNoprogExpiry conn s
  | .contextMissBackoffEnd conn => Sys2Proof.Machine.execContextMissBackoffEnd conn s
  | .parkTimeout => Sys2Proof.Machine.execParkTimeout s
  | .contextArrived conn => Sys2Proof.Machine.execContextArrived conn s
  | .carmSpill pair blk => Sys2Proof.Machine.execCarmSpill pair blk s
  | .carmNodeLost pair blk => Sys2Proof.Machine.execCarmNodeLost pair blk s
  | .ccProfCommit prof value => Sys2Proof.Machine.execCcProfCommit prof value s
  | .apAssign pair blk => Sys2Proof.Machine.execApAssign pair blk s
  | .apRetrain pair blk => Sys2Proof.Machine.execApRetrain pair blk s
  | .apEnable pair blk => Sys2Proof.Machine.execApEnable pair blk s
  | .trainingRetryTimer port => Sys2Proof.Machine.execTrainingRetryTimer port s
  | .laneTestDone port good => Sys2Proof.Machine.execLaneTestDone port good s
  | .caps port flit => Sys2Proof.Machine.execCaps port flit s
  | .trainingTimeout port => Sys2Proof.Machine.execTrainingTimeout port s
  | .standbyLaneRetest port good => Sys2Proof.Machine.execStandbyLaneRetest port good s
  | .transactionFlit port flit => Sys2Proof.Machine.execTransactionFlit port flit s
  | .idleFlit port flit => Sys2Proof.Machine.execIdleFlit port flit s
  | .nak port flit => Sys2Proof.Machine.execNak port flit s
  | .nakRepeatTimer port => Sys2Proof.Machine.execNakRepeatTimer port s
  | .laneSwap port flit => Sys2Proof.Machine.execLaneSwap port flit s
  | .laneSwapAck port flit => Sys2Proof.Machine.execLaneSwapAck port flit s
  | .laneFecWindow port lane corrected => Sys2Proof.Machine.execLaneFecWindow port lane corrected s
  | .laneLoss port lane ue => Sys2Proof.Machine.execLaneLoss port lane ue s
  | .fastRetrainDone port good => Sys2Proof.Machine.execFastRetrainDone port good s
  | .flitTransmit port => Sys2Proof.Machine.execFlitTransmit port s
  | .mwr port => Sys2Proof.Machine.execMwr port s
  | .mrd port => Sys2Proof.Machine.execMrd port s
  | .cpl port => Sys2Proof.Machine.execCpl port s
  | .cplErr port => Sys2Proof.Machine.execCplErr port s
  | .apCtrAdd port => Sys2Proof.Machine.execApCtrAdd port s
  | .ctrRd port => Sys2Proof.Machine.execCtrRd port s
  | .apFence port => Sys2Proof.Machine.execApFence port s
  | .apPost port => Sys2Proof.Machine.execApPost port s
  | .apPostStart port => Sys2Proof.Machine.execApPostStart port s
  | .apCplTimeout port tag => Sys2Proof.Machine.execApCplTimeout port tag s
  | .partnerPresence port present => Sys2Proof.Machine.execPartnerPresence port present s
  | .ethPortCfgWrite port value => Sys2Proof.Machine.execEthPortCfgWrite port value s
  | .ethLinkUp port => Sys2Proof.Machine.execEthLinkUp port s
  | .ethLinkDown port cause => Sys2Proof.Machine.execEthLinkDown port cause s
  | .preemptVerify port ok => Sys2Proof.Machine.execPreemptVerify port ok s
  | .tsAdjWrite port value => Sys2Proof.Machine.execTsAdjWrite port value s
  | .tsRateWrite port value => Sys2Proof.Machine.execTsRateWrite port value s
  | .tsLatchRead port => Sys2Proof.Machine.execTsLatchRead port s
  | .frameReceive port frame fcsOk => Sys2Proof.Machine.execFrameReceive port frame fcsOk s
  | .emitterBiasCheck engine emitter bias => Sys2Proof.Machine.execEmitterBiasCheck engine emitter bias s
  | .emitterFailure engine emitter => Sys2Proof.Machine.execEmitterFailure engine emitter s
  | .cartRead pair blk => Sys2Proof.Machine.execCartRead pair blk s
  | .cartRelease pair blk => Sys2Proof.Machine.execCartRelease pair blk s
  | .cartReleaseDone engine => Sys2Proof.Machine.execCartReleaseDone engine s
  | .latchOpen engine => Sys2Proof.Machine.execLatchOpen engine s
  | .latchClose engine cart => Sys2Proof.Machine.execLatchClose engine cart s
  | .cartVerifyDone engine refOk => Sys2Proof.Machine.execCartVerifyDone engine refOk s
  | .cartHourlyLog engine => Sys2Proof.Machine.execCartHourlyLog engine s
  | .cartDailySample engine => Sys2Proof.Machine.execCartDailySample engine s
  | .madderParse port => Sys2Proof.Machine.execMadderParse port s
  | .flowLookupResult => Sys2Proof.Machine.execFlowLookupResult s
  | .flowLookupTimeout => Sys2Proof.Machine.execFlowLookupTimeout s
  | .ruleWrite => Sys2Proof.Machine.execRuleWrite s
  | .ruleInvalidate => Sys2Proof.Machine.execRuleInvalidate s
  | .ruleRead => Sys2Proof.Machine.execRuleRead s
  | .ruleCmdDone => Sys2Proof.Machine.execRuleCmdDone s
  | .flowTable pair blk => Sys2Proof.Machine.execFlowTable pair blk s
  | .flowTableSwitch => Sys2Proof.Machine.execFlowTableSwitch s
  | .flowAdd pair blk => Sys2Proof.Machine.execFlowAdd pair blk s
  | .flowDel pair blk => Sys2Proof.Machine.execFlowDel pair blk s
  | .weldEnqueue port => Sys2Proof.Machine.execWeldEnqueue port s
  | .transmitDecision port => Sys2Proof.Machine.execTransmitDecision port s
  | .shaperCommit shaper value => Sys2Proof.Machine.execShaperCommit shaper value s
  | .gateListChange port value => Sys2Proof.Machine.execGateListChange port value s
  | .gateListStart port => Sys2Proof.Machine.execGateListStart port s
  | .gateEntryAdvance port => Sys2Proof.Machine.execGateEntryAdvance port s
  | .queueSample => Sys2Proof.Machine.execQueueSample s
  | .flrInitiate fn => Sys2Proof.Machine.execFlrInitiate fn s
  | .flrDone fn => Sys2Proof.Machine.execFlrDone fn s
  | .bmeClear fn => Sys2Proof.Machine.execBmeClear fn s
  | .bmeSet fn => Sys2Proof.Machine.execBmeSet fn s
  | .vfEnableClear port => Sys2Proof.Machine.execVfEnableClear port s
  | .d3hotEntry fn => Sys2Proof.Machine.execD3hotEntry fn s
  | .d0Return fn => Sys2Proof.Machine.execD0Return fn s
  | .msixMaskChange fn vec addr data mask enable => Sys2Proof.Machine.execMsixMaskChange fn vec addr data mask enable s
  | .hostPortReset port perst => Sys2Proof.Machine.execHostPortReset port perst s
  | .hostCompletion fn tag kind data => Sys2Proof.Machine.execHostCompletion fn tag kind data s
  | .hostCplTimeout fn tag => Sys2Proof.Machine.execHostCplTimeout fn tag s
  | .tagQuarantineEnd fn tag => Sys2Proof.Machine.execTagQuarantineEnd fn tag s
  | .atsInvalidate fn page => Sys2Proof.Machine.execAtsInvalidate fn page s
  | .fnQuota pair blk => Sys2Proof.Machine.execFnQuota pair blk s
  | .fnShare pair blk => Sys2Proof.Machine.execFnShare pair blk s
  | .registerWrite fn space off size value => Sys2Proof.Machine.execRegisterWrite fn space off size value s
  | .safNsCreate pair blk => Sys2Proof.Machine.execSafNsCreate pair blk s
  | .safNsAttach pair blk => Sys2Proof.Machine.execSafNsAttach pair blk s
  | .safNsDetach pair blk => Sys2Proof.Machine.execSafNsDetach pair blk s
  | .safNsDelete pair blk => Sys2Proof.Machine.execSafNsDelete pair blk s
  | .safCtrlReset pair blk => Sys2Proof.Machine.execSafCtrlReset pair blk s
  | .sqFetch queue => Sys2Proof.Machine.execSqFetch queue s
  | .getLogPage queue cid => Sys2Proof.Machine.execGetLogPage queue cid s
  | .identify queue cid => Sys2Proof.Machine.execIdentify queue cid s
  | .abort queue cid => Sys2Proof.Machine.execAbort queue cid s
  | .setFeatures queue cid => Sys2Proof.Machine.execSetFeatures queue cid s
  | .getFeatures queue cid => Sys2Proof.Machine.execGetFeatures queue cid s
  | .asyncEventRequest queue cid => Sys2Proof.Machine.execAsyncEventRequest queue cid s
  | .nvmeFlush queue cid => Sys2Proof.Machine.execNvmeFlush queue cid s
  | .nvmeWrite queue cid => Sys2Proof.Machine.execNvmeWrite queue cid s
  | .nvmeRead queue cid => Sys2Proof.Machine.execNvmeRead queue cid s
  | .writeZeroes queue cid => Sys2Proof.Machine.execWriteZeroes queue cid s
  | .datasetManagement queue cid => Sys2Proof.Machine.execDatasetManagement queue cid s
  | .writeBufferAdmit queue cid => Sys2Proof.Machine.execWriteBufferAdmit queue cid s
  | .destageAck => Sys2Proof.Machine.execDestageAck s
  | .vaultArmChange energy erased flashFault => Sys2Proof.Machine.execVaultArmChange energy erased flashFault s
  | .vaultSaveDone => Sys2Proof.Machine.execVaultSaveDone s
  | .nsReadyTimeout ns => Sys2Proof.Machine.execNsReadyTimeout ns s
  | .sessionReconnectTimer session => Sys2Proof.Machine.execSessionReconnectTimer session s
  | .icResp session => Sys2Proof.Machine.execIcResp session s
  | .capsuleResp session => Sys2Proof.Machine.execCapsuleResp session s
  | .c2hData session => Sys2Proof.Machine.execC2hData session s
  | .readyToTransfer session => Sys2Proof.Machine.execReadyToTransfer session s
  | .c2hTermReq session => Sys2Proof.Machine.execC2hTermReq session s
  | .illegalInstruction core => Sys2Proof.Machine.execIllegalInstruction core s
  | .timedWaitDeadline core => Sys2Proof.Machine.execTimedWaitDeadline core s
  | .add core => Sys2Proof.Machine.execAdd core s
  | .sub core => Sys2Proof.Machine.execSub core s
  | .and core => Sys2Proof.Machine.execAnd core s
  | .or core => Sys2Proof.Machine.execOr core s
  | .xor core => Sys2Proof.Machine.execXor core s
  | .shl core => Sys2Proof.Machine.execShl core s
  | .shr core => Sys2Proof.Machine.execShr core s
  | .sra core => Sys2Proof.Machine.execSra core s
  | .mul core => Sys2Proof.Machine.execMul core s
  | .mulh core => Sys2Proof.Machine.execMulh core s
  | .mulhu core => Sys2Proof.Machine.execMulhu core s
  | .div core => Sys2Proof.Machine.execDiv core s
  | .divu core => Sys2Proof.Machine.execDivu core s
  | .rem core => Sys2Proof.Machine.execRem core s
  | .remu core => Sys2Proof.Machine.execRemu core s
  | .min core => Sys2Proof.Machine.execMin core s
  | .max core => Sys2Proof.Machine.execMax core s
  | .minu core => Sys2Proof.Machine.execMinu core s
  | .maxu core => Sys2Proof.Machine.execMaxu core s
  | .clz core => Sys2Proof.Machine.execClz core s
  | .popc core => Sys2Proof.Machine.execPopc core s
  | .rdp core => Sys2Proof.Machine.execRdp core s
  | .addi core => Sys2Proof.Machine.execAddi core s
  | .andi core => Sys2Proof.Machine.execAndi core s
  | .ori core => Sys2Proof.Machine.execOri core s
  | .xori core => Sys2Proof.Machine.execXori core s
  | .shli core => Sys2Proof.Machine.execShli core s
  | .shri core => Sys2Proof.Machine.execShri core s
  | .srai core => Sys2Proof.Machine.execSrai core s
  | .movz core => Sys2Proof.Machine.execMovz core s
  | .movk0 core => Sys2Proof.Machine.execMovk0 core s
  | .movk1 core => Sys2Proof.Machine.execMovk1 core s
  | .movk2 core => Sys2Proof.Machine.execMovk2 core s
  | .movk3 core => Sys2Proof.Machine.execMovk3 core s
  | .cmpeq core => Sys2Proof.Machine.execCmpeq core s
  | .cmpne core => Sys2Proof.Machine.execCmpne core s
  | .cmplt core => Sys2Proof.Machine.execCmplt core s
  | .cmpge core => Sys2Proof.Machine.execCmpge core s
  | .cmpltu core => Sys2Proof.Machine.execCmpltu core s
  | .cmpgeu core => Sys2Proof.Machine.execCmpgeu core s
  | .cmpeqi core => Sys2Proof.Machine.execCmpeqi core s
  | .cmplti core => Sys2Proof.Machine.execCmplti core s
  | .pand core => Sys2Proof.Machine.execPand core s
  | .por core => Sys2Proof.Machine.execPor core s
  | .pxor core => Sys2Proof.Machine.execPxor core s
  | .pandn core => Sys2Proof.Machine.execPandn core s
  | .fadd core => Sys2Proof.Machine.execFadd core s
  | .fsub core => Sys2Proof.Machine.execFsub core s
  | .fmul core => Sys2Proof.Machine.execFmul core s
  | .fdiv core => Sys2Proof.Machine.execFdiv core s
  | .fsqrt core => Sys2Proof.Machine.execFsqrt core s
  | .fmin core => Sys2Proof.Machine.execFmin core s
  | .fmax core => Sys2Proof.Machine.execFmax core s
  | .fma core => Sys2Proof.Machine.execFma core s
  | .fcvt core => Sys2Proof.Machine.execFcvt core s
  | .fcvti core => Sys2Proof.Machine.execFcvti core s
  | .icvtf core => Sys2Proof.Machine.execIcvtf core s
  | .feq core => Sys2Proof.Machine.execFeq core s
  | .flt core => Sys2Proof.Machine.execFlt core s
  | .fle core => Sys2Proof.Machine.execFle core s
  | .ld8u core => Sys2Proof.Machine.execLd8u core s
  | .ld16u core => Sys2Proof.Machine.execLd16u core s
  | .ld32u core => Sys2Proof.Machine.execLd32u core s
  | .ld64 core => Sys2Proof.Machine.execLd64 core s
  | .ld8s core => Sys2Proof.Machine.execLd8s core s
  | .ld16s core => Sys2Proof.Machine.execLd16s core s
  | .ld32s core => Sys2Proof.Machine.execLd32s core s
  | .st8 core => Sys2Proof.Machine.execSt8 core s
  | .st16 core => Sys2Proof.Machine.execSt16 core s
  | .st32 core => Sys2Proof.Machine.execSt32 core s
  | .st64 core => Sys2Proof.Machine.execSt64 core s
  | .vld core => Sys2Proof.Machine.execVld core s
  | .vst core => Sys2Proof.Machine.execVst core s
  | .amoadd core => Sys2Proof.Machine.execAmoadd core s
  | .amocas core => Sys2Proof.Machine.execAmocas core s
  | .amoswp core => Sys2Proof.Machine.execAmoswp core s
  | .br core => Sys2Proof.Machine.execBr core s
  | .bl core => Sys2Proof.Machine.execBl core s
  | .jr core => Sys2Proof.Machine.execJr core s
  | .jrl core => Sys2Proof.Machine.execJrl core s
  | .vadd core => Sys2Proof.Machine.execVadd core s
  | .vsub core => Sys2Proof.Machine.execVsub core s
  | .vmul core => Sys2Proof.Machine.execVmul core s
  | .vand core => Sys2Proof.Machine.execVand core s
  | .vor core => Sys2Proof.Machine.execVor core s
  | .vxor core => Sys2Proof.Machine.execVxor core s
  | .vshl core => Sys2Proof.Machine.execVshl core s
  | .vshr core => Sys2Proof.Machine.execVshr core s
  | .vsra core => Sys2Proof.Machine.execVsra core s
  | .vmin core => Sys2Proof.Machine.execVmin core s
  | .vmax core => Sys2Proof.Machine.execVmax core s
  | .vadds core => Sys2Proof.Machine.execVadds core s
  | .vsubs core => Sys2Proof.Machine.execVsubs core s
  | .vclmul core => Sys2Proof.Machine.execVclmul core s
  | .vclmulh core => Sys2Proof.Machine.execVclmulh core s
  | .vfadd core => Sys2Proof.Machine.execVfadd core s
  | .vfsub core => Sys2Proof.Machine.execVfsub core s
  | .vfmul core => Sys2Proof.Machine.execVfmul core s
  | .vfdiv core => Sys2Proof.Machine.execVfdiv core s
  | .vfsqrt core => Sys2Proof.Machine.execVfsqrt core s
  | .vfmin core => Sys2Proof.Machine.execVfmin core s
  | .vfmax core => Sys2Proof.Machine.execVfmax core s
  | .vfma core => Sys2Proof.Machine.execVfma core s
  | .vfcvti core => Sys2Proof.Machine.execVfcvti core s
  | .vicvtf core => Sys2Proof.Machine.execVicvtf core s
  | .vfsqd core => Sys2Proof.Machine.execVfsqd core s
  | .vfsumd core => Sys2Proof.Machine.execVfsumd core s
  | .vbcast core => Sys2Proof.Machine.execVbcast core s
  | .vext core => Sys2Proof.Machine.execVext core s
  | .vins core => Sys2Proof.Machine.execVins core s
  | .vmov core => Sys2Proof.Machine.execVmov core s
  | .kld core => Sys2Proof.Machine.execKld core s
  | .kst core => Sys2Proof.Machine.execKst core s
  | .kdec core => Sys2Proof.Machine.execKdec core s
  | .kz core => Sys2Proof.Machine.execKz core s
  | .kadd core => Sys2Proof.Machine.execKadd core s
  | .kacc2f core => Sys2Proof.Machine.execKacc2f core s
  | .ksrd core => Sys2Proof.Machine.execKsrd core s
  | .kmac core => Sys2Proof.Machine.execKmac core s
  | .kenc core => Sys2Proof.Machine.execKenc core s
  | .kencf core => Sys2Proof.Machine.execKencf core s
  | .fence core => Sys2Proof.Machine.execFence core s
  | .icinv core => Sys2Proof.Machine.execIcinv core s
  | .halt core => Sys2Proof.Machine.execHalt core s
  | .wfe core => Sys2Proof.Machine.execWfe core s
  | .evrd core => Sys2Proof.Machine.execEvrd core s
  | .sev core => Sys2Proof.Machine.execSev core s
  | .tdl core => Sys2Proof.Machine.execTdl core s
  | .time core => Sys2Proof.Machine.execTime core s
  | .cadd core => Sys2Proof.Machine.execCadd core s
  | .cset core => Sys2Proof.Machine.execCset core s
  | .crd core => Sys2Proof.Machine.execCrd core s
  | .cwatch core => Sys2Proof.Machine.execCwatch core s
  | .cunwatch core => Sys2Proof.Machine.execCunwatch core s
  | .cwst core => Sys2Proof.Machine.execCwst core s
  | .istart core => Sys2Proof.Machine.execIstart core s
  | .pstart core => Sys2Proof.Machine.execPstart core s
  | .post core => Sys2Proof.Machine.execPost core s
  | .mailboxWrite pair wide value => Sys2Proof.Machine.execMailboxWrite pair wide value s
  | .mailboxRead pair wide => Sys2Proof.Machine.execMailboxRead pair wide s
  | .replyPost pair => Sys2Proof.Machine.execReplyPost pair s
  | .crossedWait pair => Sys2Proof.Machine.execCrossedWait pair s
  | .lockClaim lock agent => Sys2Proof.Machine.execLockClaim lock agent s
  | .lockRelease lock agent => Sys2Proof.Machine.execLockRelease lock agent s
  | .fwHello pair => Sys2Proof.Machine.execFwHello pair s
  | .cmdWindow pair => Sys2Proof.Machine.execCmdWindow pair s
  | .paletteCoreFault core mpu cause xpc xaddr => Sys2Proof.Machine.execPaletteCoreFault core mpu cause xpc xaddr s
  | .heartbeatMiss core => Sys2Proof.Machine.execHeartbeatMiss core s
  | .paletteRestartDone core => Sys2Proof.Machine.execPaletteRestartDone core s
  | .paletteComplexReset => Sys2Proof.Machine.execPaletteComplexReset s
  | .fwLoad pair blk data => Sys2Proof.Machine.execFwLoad pair blk data s
  | .fwActivate pair blk => Sys2Proof.Machine.execFwActivate pair blk s
  | .activationDone => Sys2Proof.Machine.execActivationDone s
  | .deferredActivationStart => Sys2Proof.Machine.execDeferredActivationStart s
  | .spBind pair blk => Sys2Proof.Machine.execSpBind pair blk s
  | .spSend pair blk data => Sys2Proof.Machine.execSpSend pair blk data s
  | .logBind pair blk => Sys2Proof.Machine.execLogBind pair blk s
  | .traceSet pair blk => Sys2Proof.Machine.execTraceSet pair blk s
  | .logCopyInterrupt => Sys2Proof.Machine.execLogCopyInterrupt s
  | .lcQuery pair => Sys2Proof.Machine.execLcQuery pair s
  | .lcNonce pair blk => Sys2Proof.Machine.execLcNonce pair blk s
  | .lcTransit pair blk token => Sys2Proof.Machine.execLcTransit pair blk token s
  | .svnCommit pair => Sys2Proof.Machine.execSvnCommit pair s
  | .attQuote pair blk => Sys2Proof.Machine.execAttQuote pair blk s
  | .attCerts pair blk => Sys2Proof.Machine.execAttCerts pair blk s
  | .aesEnc job => Sys2Proof.Machine.execAesEnc job s
  | .aesDec job => Sys2Proof.Machine.execAesDec job s
  | .sha256 job => Sys2Proof.Machine.execSha256 job s
  | .entropy job => Sys2Proof.Machine.execEntropy job s
  | .cipherJobDone job => Sys2Proof.Machine.execCipherJobDone job s
  | .entropyHealthRetest pass => Sys2Proof.Machine.execEntropyHealthRetest pass s
  | .lidBreak => Sys2Proof.Machine.execLidBreak s
  | .meshFault => Sys2Proof.Machine.execMeshFault s
  | .supplyGlitch => Sys2Proof.Machine.execSupplyGlitch s
  | .tamperTemp => Sys2Proof.Machine.execTamperTemp s
  | .jtagDebugRequest => Sys2Proof.Machine.execJtagDebugRequest s
  | .troubleCheck => Sys2Proof.Machine.execTroubleCheck s
  | .umberMismatch => Sys2Proof.Machine.execUmberMismatch s
  | .marginCheck region rate tj age => Sys2Proof.Machine.execMarginCheck region rate tj age s
  | .regionRetireDone region => Sys2Proof.Machine.execRegionRetireDone region s
  | .retentionMeasure stack die ms tj => Sys2Proof.Machine.execRetentionMeasure stack die ms tj s
  | .swatchPeriodic failed => Sys2Proof.Machine.execSwatchPeriodic failed s
  | .idleClusterTest cluster => Sys2Proof.Machine.execIdleClusterTest cluster s
  | .swatchTestDone pass named sig => Sys2Proof.Machine.execSwatchTestDone pass named sig s
  | .swatRun pair blk => Sys2Proof.Machine.execSwatRun pair blk s
  | .swatCtrlGo value => Sys2Proof.Machine.execSwatCtrlGo value s
  | .unitRetire pair blk => Sys2Proof.Machine.execUnitRetire pair blk s
  | .troubleClear pair blk => Sys2Proof.Machine.execTroubleClear pair blk s
  | .relPolicy pair blk => Sys2Proof.Machine.execRelPolicy pair blk s
  | .rmapRead pair blk => Sys2Proof.Machine.execRmapRead pair blk s
  | .relShutdown pair blk => Sys2Proof.Machine.execRelShutdown pair blk s
  | .rmapJournalWrite okA okB => Sys2Proof.Machine.execRmapJournalWrite okA okB s
  | .rmapRetry okA okB => Sys2Proof.Machine.execRmapRetry okA okB s
  | .sienExport pair blk => Sys2Proof.Machine.execSienExport pair blk s
  | .sienSample pair blk => Sys2Proof.Machine.execSienSample pair blk s
  | .exportInterval slot => Sys2Proof.Machine.execExportInterval slot s
  | .templateRefresh slot => Sys2Proof.Machine.execTemplateRefresh slot s
  | .sampledRecordFlush => Sys2Proof.Machine.execSampledRecordFlush s
  | .fundamentalReset vinCycled failed late bad ms => Sys2Proof.Machine.execFundamentalReset vinCycled failed late bad ms s
  | .regionStartTimeout region bad ms => Sys2Proof.Machine.execRegionStartTimeout region bad ms s
  | .mapRebuildDone failed => Sys2Proof.Machine.execMapRebuildDone failed s
  | .mgmtBusRead offset wide => Sys2Proof.Machine.execMgmtBusRead offset wide s
  | .mgmtNodeWrite pecOk data => Sys2Proof.Machine.execMgmtNodeWrite pecOk data s
  | .mgmtSizeWrite pecOk data => Sys2Proof.Machine.execMgmtSizeWrite pecOk data s
  | .systemSizeApply => Sys2Proof.Machine.execSystemSizeApply s
  | .mgmtWarmWrite pecOk data => Sys2Proof.Machine.execMgmtWarmWrite pecOk data s
  | .mgmtStartWrite pecOk data => Sys2Proof.Machine.execMgmtStartWrite pecOk data s
  | .mainInputLost => Sys2Proof.Machine.execMainInputLost s
  | .standbyLost => Sys2Proof.Machine.execStandbyLost s
  | .junctionOvertemp => Sys2Proof.Machine.execJunctionOvertemp s
  | .junctionShutdownTemp => Sys2Proof.Machine.execJunctionShutdownTemp s
  | .flowLow => Sys2Proof.Machine.execFlowLow s
  | .flowCritical => Sys2Proof.Machine.execFlowCritical s
  | .inletHigh => Sys2Proof.Machine.execInletHigh s
  | .inletCritical => Sys2Proof.Machine.execInletCritical s
  | .vinOutOfRange => Sys2Proof.Machine.execVinOutOfRange s
  | .vinOvervolt => Sys2Proof.Machine.execVinOvervolt s
  | .powerCap => Sys2Proof.Machine.execPowerCap s
  | .emergencyClear => Sys2Proof.Machine.execEmergencyClear s
  | .seedWrite cluster half value => Sys2Proof.Machine.execSeedWrite cluster half value s
  | .factoryJtagSequence cert => Sys2Proof.Machine.execFactoryJtagSequence cert s
  | .hostPortLeavesReset port width gen flit => Sys2Proof.Machine.execHostPortLeavesReset port width gen flit s
  | .continuousHealthTestFailure => Sys2Proof.Machine.execContinuousHealthTestFailure s
  | .plannedMoveHandover engine => Sys2Proof.Machine.execPlannedMoveHandover engine s
  | .umberRestartEnd => Sys2Proof.Machine.execUmberRestartEnd s
  | .queueBecomesEligible port => Sys2Proof.Machine.execQueueBecomesEligible port s
  | .tcpSegmentArrival session => Sys2Proof.Machine.execTcpSegmentArrival session s
  | .tcpRetransmissionTimeout session giveUp => Sys2Proof.Machine.execTcpRetransmissionTimeout session giveUp s
  | .handshakeStallTimeout unit => Sys2Proof.Machine.execHandshakeStallTimeout unit s
  | .firmwareCwndUpdate conn cwnd rate => Sys2Proof.Machine.execFirmwareCwndUpdate conn cwnd rate s
  | .timeAwareSystemSteering port step rate => Sys2Proof.Machine.execTimeAwareSystemSteering port step rate s

end Sys2Proof.Machine
end

