-- ==== Sys2Proof/Machine/Tick.lean ====
section
/-! DEFINITION. The passing of time when no command waits (R36, R38). -/

namespace Sys2Proof.Machine

open Sys2Proof

/-- 10 ns of reference time pass (R36). While the main rails are off no counter runs. Interrupts of the slow-path rings that their 10 µs
held back are sent (R469), and Saffron goes on (log 2). -/
def tick (s : State) : State :=
  if s.umb.phase = 0 then s
  else
    let s1 : State := { s with fab := { s.fab with time := s.fab.time + 10 } }
    safSettle ((s1.pal.spRings.map (·.1)).foldl spIrq s1)

end Sys2Proof.Machine
end

