-- ==== Sys2Proof/Safety.lean ====
section
/-! DEFINITION. What counts as a safe run, in the terms that the statements use. -/

namespace Sys2Proof.Machine

open Sys2Proof

/-- The one-time fuses that a step may only burn (R480, R481, R487): the lifecycle state, SVN_MIN, the owner slots used. -/
def fuses (s : State) : Nat × Nat × Nat := (s.sec.lc, s.sec.svnMin, s.sec.owners.length)

/-! Cores that run (R427 to R439). -/

/-- Core `i` runs; fetching at its PC gives the word `w`, and the fetch leaves `s1` (R145, R427). -/
def Fetches (s : State) (i : Nat) (w : W32) (s1 : State) : Prop :=
  (s.core i).run = .running ∧ ∃ bs, coreFetch s i = .ok s1 bs ∧ w = BitVec.ofNat 32 (leNat bs)

/-- The guard of a word: p[PG] xor PN (R428). -/
def guardHolds (k : Core) (w : W32) : Bool := k.getP (iPG w) != iPN w

/-- Core `i` executes the word `w` of major opcode `op`, in state `s1`, and its guard holds. -/
def Executes (s : State) (i : Nat) (op : Nat) (w : W32) (s1 : State) : Prop :=
  Fetches s i w s1 ∧ iOP w = op ∧ guardHolds (s1.core i) w = true

/-! Commands that firmware takes (R452 to R457). -/

/-- The command that the word in a pair's inbound mailbox becomes (R449, R454). -/
def cmdOf (s : State) (k : MboxId) : Cmd :=
  { id := s.pal.nextCmd, pair := k, word := (s.pair k).inWord, window := (s.pair k).window.getD 0, fn := pairFn s k }

/-- Firmware consumes the word of opcode `op` that waits in the mailbox of pair `k` and starts it: the word is well formed, replies
leave room, no word of the same opcode waits ahead of it, the Palette core of its duty runs, fewer than 64 commands of the pair are
unfinished, and the command block passes its checks. `c` is the command, and `s1` the state in which it takes effect. -/
def Taken (s : State) (k : MboxId) (op : Nat) (hasBlk : Bool) (blk : CmdBlock) (c : Cmd) (s1 : State) (duty : Nat := dutyCore op) : Prop :=
  (s.pair k).inWord ≠ 0#64 ∧ wVersion (s.pair k).inWord = 2 ∧ wOpcode (s.pair k).inWord = op ∧
  mayConsume s k = true ∧ (s.recovery = true → (recoveryOps s).contains op = true) ∧
  s.pal.queue.find? (fun q => decide (q.pair = k) && decide (wOpcode q.word = op)) = none ∧
  pcoreRuns s duty = true ∧ s.consumed k < 64 ∧
  (hasBlk = true → blockCheck s (cmdOf s k) (s.pair k).window.isSome op blk = none) ∧
  c = cmdOf s k ∧
  s1 = { takeWord s k with pal := { (takeWord s k).pal with cmds := s.pal.cmds ++ [c], nextCmd := c.id + 1 } }

/-- Firmware finishes a command: with a block it writes STATUS, DETAIL and RESULT into it (R455); then it holds the reply word (R453). -/
def answers (hasBlk : Bool) (s : State) (c : Cmd) (r : Reply) : State :=
  if hasBlk then finishCmd s c.id r
  else holdReply { s with pal := { s.pal with cmds := s.pal.cmds.filter (fun x => x.id != c.id) } } c.pair c.word r

end Sys2Proof.Machine
end

