-- ==== Sys2Proof/Certificates/Slice0/Obligations.lean ====
section
/-! DEFINITION. The statements for the provers: what every command does, family by family, and what holds of the whole machine. -/

open Sys2Proof Sys2Proof.Machine

namespace Sys2Proof.Machine

/-- A row of R430 whose instruction reads and writes the core's own registers: `c` at a word of opcode `op` that meets `is`
gives core `i` the registers `f w k`; it retires, and PC moves on by 4. -/
def RegisterRow (c : Nat → Instr) (op : Nat) (is : W32 → Bool) (f : W32 → Core → Core) : Prop :=
  ∀ (s s1 : State) (i : Nat) (w : W32), Executes s i op w s1 → is w = true →
    exec (c i) s = .next (retire (s1.setCore i (f w (s1.core i))) i ((s1.core i).pc + 4#64))

/-- gD → gA op gB. -/
def opG (f : W64 → W64 → W64) (w : W32) (k : Core) : Core := k.setG (iD w) (f (k.getG (iA w)) (k.getG (iB w)))

/-- gD → gA op IMM12. -/
def opImm (f : W64 → W64 → W64) (w : W32) (k : Core) : Core := k.setG (iD w) (f (k.getG (iA w)) (BitVec.ofInt 64 (iImm12 w)))

/-- gD → gD op IMM16. -/
def opMov (f : W64 → Nat → W64) (w : W32) (k : Core) : Core := k.setG (iD w) (f (k.getG (iD w)) (iImm16 w))

/-- pD := gA op gB, gA op IMM12, pA op pB. -/
def opCmp (f : W64 → W64 → Bool) (w : W32) (k : Core) : Core := k.setP (iD w) (f (k.getG (iA w)) (k.getG (iB w)))
def opCmpImm (f : W64 → W64 → Bool) (w : W32) (k : Core) : Core := k.setP (iD w) (f (k.getG (iA w)) (BitVec.ofInt 64 (iImm12 w)))
def opPred (f : Bool → Bool → Bool) (w : W32) (k : Core) : Core := k.setP (iD w) (f (k.getP (iA w)) (k.getP (iB w)))

/-- Operands in the precision of FN[6]: gD → gA op gB, and pD := gA op gB (R431). -/
def opFp (f : FFmt → Nat → Nat → Nat) (w : W32) (k : Core) : Core :=
  k.setG (iD w) (BitVec.ofNat 64 (f (fpFmt w) (fpArg (fpFmt w) (k.getG (iA w))) (fpArg (fpFmt w) (k.getG (iB w)))))
def opFcmp (f : FFmt → Nat → Nat → Bool) (w : W32) (k : Core) : Core :=
  k.setP (iD w) (f (fpFmt w) (fpArg (fpFmt w) (k.getG (iA w))) (fpArg (fpFmt w) (k.getG (iB w))))

/-- vD := vA op vB over the lanes of FN[6:5], and over binary32 lanes. -/
def opLanes (f : Nat → Nat → Nat → Nat) (w : W32) (k : Core) : Core :=
  k.setV (iD w) (vmap2 (laneW w) (f (laneW w)) (k.getV (iA w)) (k.getV (iB w)))
def opVf (f : Nat → Nat → Nat) (w : W32) (k : Core) : Core := k.setV (iD w) (vmap2 32 f (k.getV (iA w)) (k.getV (iB w)))

/-- FN[5:0], the operation of a floating-point word. -/
def iFn6 (w : W32) : Nat := bn w 30 25

end Sys2Proof.Machine

/-- R430, OP 0x00: what every two-operand integer instruction writes to gD. -/
def Obligations.IntegerRegisterResults : Prop :=
  RegisterRow .add 0x00 (iFN · == 0) (opG (· + ·)) ∧
  RegisterRow .sub 0x00 (iFN · == 1) (opG (· - ·)) ∧
  RegisterRow .and 0x00 (iFN · == 2) (opG (· &&& ·)) ∧
  RegisterRow .or 0x00 (iFN · == 3) (opG (· ||| ·)) ∧
  RegisterRow .xor 0x00 (iFN · == 4) (opG (· ^^^ ·)) ∧
  RegisterRow .shl 0x00 (iFN · == 5) (opG fun a b => a <<< (b.toNat % 64)) ∧
  RegisterRow .shr 0x00 (iFN · == 6) (opG fun a b => a >>> (b.toNat % 64)) ∧
  RegisterRow .sra 0x00 (iFN · == 7) (opG fun a b => a.sshiftRight (b.toNat % 64)) ∧
  RegisterRow .mul 0x00 (iFN · == 8) (opG (· * ·)) ∧
  RegisterRow .mulh 0x00 (iFN · == 9) (opG fun a b => BitVec.ofInt 64 (a.toInt * b.toInt / 2 ^ 64)) ∧
  RegisterRow .mulhu 0x00 (iFN · == 10) (opG fun a b => BitVec.ofNat 64 (a.toNat * b.toNat / 2 ^ 64)) ∧
  RegisterRow .div 0x00 (iFN · == 11) (opG fun a b => if b = 0#64 then BitVec.allOnes 64 else a.sdiv b) ∧
  RegisterRow .divu 0x00 (iFN · == 12) (opG fun a b => if b = 0#64 then BitVec.allOnes 64 else a / b) ∧
  RegisterRow .rem 0x00 (iFN · == 13) (opG fun a b => if b = 0#64 then a else a.srem b) ∧
  RegisterRow .remu 0x00 (iFN · == 14) (opG fun a b => if b = 0#64 then a else a % b) ∧
  RegisterRow .min 0x00 (iFN · == 15) (opG fun a b => if a.slt b then a else b) ∧
  RegisterRow .max 0x00 (iFN · == 16) (opG fun a b => if a.slt b then b else a) ∧
  RegisterRow .minu 0x00 (iFN · == 17) (opG fun a b => if a.ult b then a else b) ∧
  RegisterRow .maxu 0x00 (iFN · == 18) (opG fun a b => if a.ult b then b else a) ∧
  RegisterRow .clz 0x00 (iFN · == 19) (opG fun a _ => BitVec.ofNat 64 (leadZeros 64 a.toNat)) ∧
  RegisterRow .popc 0x00 (iFN · == 20) (opG fun a _ => BitVec.ofNat 64 (popcount 64 a.toNat)) ∧
  RegisterRow .rdp 0x00 (iFN · == 21) (fun w k => k.setG (iD w) (BitVec.ofNat 64 ((List.range 8).map (fun n => at_ n (b2n (k.getP n)))).sum))

/-- R430, OP 0x01 to 0x0C: immediates and moves. A shift count above 63 is reserved, and so is bit 31 of a move. -/
def Obligations.ImmediateAndMoveResults : Prop :=
  RegisterRow .addi 0x01 (fun _ => true) (opImm (· + ·)) ∧
  RegisterRow .andi 0x02 (fun _ => true) (opImm (· &&& ·)) ∧
  RegisterRow .ori 0x03 (fun _ => true) (opImm (· ||| ·)) ∧
  RegisterRow .xori 0x04 (fun _ => true) (opImm (· ^^^ ·)) ∧
  RegisterRow .shli 0x05 (fun w => bn w 31 20 < 64) (fun w k => k.setG (iD w) (k.getG (iA w) <<< bn w 31 20)) ∧
  RegisterRow .shri 0x06 (fun w => bn w 31 20 < 64) (fun w k => k.setG (iD w) (k.getG (iA w) >>> bn w 31 20)) ∧
  RegisterRow .srai 0x07 (fun w => bn w 31 20 < 64) (fun w k => k.setG (iD w) ((k.getG (iA w)).sshiftRight (bn w 31 20))) ∧
  RegisterRow .movz 0x08 (fun w => !bt w 31) (opMov fun _ x => BitVec.ofNat 64 x) ∧
  RegisterRow .movk0 0x09 (fun w => !bt w 31) (opMov (insert16 0)) ∧
  RegisterRow .movk1 0x0A (fun w => !bt w 31) (opMov (insert16 1)) ∧
  RegisterRow .movk2 0x0B (fun w => !bt w 31) (opMov (insert16 2)) ∧
  RegisterRow .movk3 0x0C (fun w => !bt w 31) (opMov (insert16 3))

/-- R430, OP 0x0D to 0x10 and the comparisons of OP 0x11: what is written to pD; a predicate field above 7 is reserved. -/
def Obligations.PredicateResults : Prop :=
  RegisterRow .cmpeq 0x0D (fun w => iFN w == 0 && predOk (iD w)) (opCmp (· == ·)) ∧
  RegisterRow .cmpne 0x0D (fun w => iFN w == 1 && predOk (iD w)) (opCmp (· != ·)) ∧
  RegisterRow .cmplt 0x0D (fun w => iFN w == 2 && predOk (iD w)) (opCmp fun a b => a.slt b) ∧
  RegisterRow .cmpge 0x0D (fun w => iFN w == 3 && predOk (iD w)) (opCmp fun a b => b.sle a) ∧
  RegisterRow .cmpltu 0x0D (fun w => iFN w == 4 && predOk (iD w)) (opCmp fun a b => a.ult b) ∧
  RegisterRow .cmpgeu 0x0D (fun w => iFN w == 5 && predOk (iD w)) (opCmp fun a b => b.ule a) ∧
  RegisterRow .cmpeqi 0x0E (fun w => predOk (iD w)) (opCmpImm (· == ·)) ∧
  RegisterRow .cmplti 0x0F (fun w => predOk (iD w)) (opCmpImm fun a b => a.slt b) ∧
  RegisterRow .pand 0x10 (fun w => iFN w == 0 && predOk (iD w) && predOk (iA w) && predOk (iB w)) (opPred (· && ·)) ∧
  RegisterRow .por 0x10 (fun w => iFN w == 1 && predOk (iD w) && predOk (iA w) && predOk (iB w)) (opPred (· || ·)) ∧
  RegisterRow .pxor 0x10 (fun w => iFN w == 2 && predOk (iD w) && predOk (iA w) && predOk (iB w)) (opPred (· != ·)) ∧
  RegisterRow .pandn 0x10 (fun w => iFN w == 3 && predOk (iD w) && predOk (iA w) && predOk (iB w)) (opPred fun a b => a && !b) ∧
  RegisterRow .feq 0x11 (fun w => iFn6 w == 11 && predOk (iD w)) (opFcmp fun t => t.eq) ∧
  RegisterRow .flt 0x11 (fun w => iFn6 w == 12 && predOk (iD w)) (opFcmp fun t => t.lt) ∧
  RegisterRow .fle 0x11 (fun w => iFn6 w == 13 && predOk (iD w)) (opFcmp fun t => t.le)

/-- R430, OP 0x11, and R431: FN[6] names the precision, and a binary32 result clears bits [63:32]. -/
def Obligations.FloatingPointResults : Prop :=
  RegisterRow .fadd 0x11 (iFn6 · == 0) (opFp fun t => t.add) ∧
  RegisterRow .fsub 0x11 (iFn6 · == 1) (opFp fun t => t.sub) ∧
  RegisterRow .fmul 0x11 (iFn6 · == 2) (opFp fun t => t.mul) ∧
  RegisterRow .fdiv 0x11 (iFn6 · == 3) (opFp fun t => t.div) ∧
  RegisterRow .fsqrt 0x11 (iFn6 · == 4) (opFp fun t x _ => t.sqrt x) ∧
  RegisterRow .fmin 0x11 (iFn6 · == 5) (opFp fun t => t.min) ∧
  RegisterRow .fmax 0x11 (iFn6 · == 6) (opFp fun t => t.max) ∧
  RegisterRow .fma 0x11 (iFn6 · == 7) (fun w k => k.setG (iD w) (BitVec.ofNat 64 ((fpFmt w).fma
    (fpArg (fpFmt w) (k.getG (iD w))) (fpArg (fpFmt w) (k.getG (iA w))) (fpArg (fpFmt w) (k.getG (iB w)))))) ∧
  RegisterRow .fcvt 0x11 (iFn6 · == 8) (opFp fun t x _ => t.convert (if t = f64 then f32 else f64) x) ∧
  RegisterRow .fcvti 0x11 (iFn6 · == 9) (fun w k => k.setG (iD w) (BitVec.ofInt 64 ((fpFmt w).toSigned 64 (fpArg (fpFmt w) (k.getG (iA w)))))) ∧
  RegisterRow .icvtf 0x11 (iFn6 · == 10) (fun w k => k.setG (iD w) (BitVec.ofNat 64 ((fpFmt w).ofSigned (k.getG (iA w)).toInt)))

/-- R430, OP 0x23 and 0x25: lanes of 8, 16, 32 or 64 bits by FN[6:5], and the moves between g and v registers. -/
def Obligations.VectorIntegerResults : Prop :=
  RegisterRow .vadd 0x23 (iFn5 · == 0) (opLanes fun _ x y => x + y) ∧
  RegisterRow .vsub 0x23 (iFn5 · == 1) (opLanes fun n x y => x + 2 ^ n - y) ∧
  RegisterRow .vmul 0x23 (iFn5 · == 2) (opLanes fun _ x y => x * y) ∧
  RegisterRow .vand 0x23 (iFn5 · == 3) (opLanes fun _ x y => x &&& y) ∧
  RegisterRow .vor 0x23 (iFn5 · == 4) (opLanes fun _ x y => x ||| y) ∧
  RegisterRow .vxor 0x23 (iFn5 · == 5) (opLanes fun _ x y => x ^^^ y) ∧
  RegisterRow .vshl 0x23 (iFn5 · == 6) (opLanes fun n x y => x * 2 ^ (y % n)) ∧
  RegisterRow .vshr 0x23 (iFn5 · == 7) (opLanes fun n x y => x / 2 ^ (y % n)) ∧
  RegisterRow .vsra 0x23 (iFn5 · == 8) (opLanes fun n x y => unsgn n (sgn n x / 2 ^ (y % n))) ∧
  RegisterRow .vmin 0x23 (iFn5 · == 9) (opLanes fun n x y => if sgn n x < sgn n y then x else y) ∧
  RegisterRow .vmax 0x23 (iFn5 · == 10) (opLanes fun n x y => if sgn n x < sgn n y then y else x) ∧
  RegisterRow .vadds 0x23 (iFn5 · == 11) (opLanes fun n x y => unsgn n (holdSigned n (sgn n x + sgn n y))) ∧
  RegisterRow .vsubs 0x23 (iFn5 · == 12) (opLanes fun n x y => unsgn n (holdSigned n (sgn n x - sgn n y))) ∧
  RegisterRow .vclmul 0x23 (fun w => iFn5 w == 13 && iSel w == 3) (fun w k => k.setV (iD w) (clmulHalves 0 (k.getV (iA w)) (k.getV (iB w)))) ∧
  RegisterRow .vclmulh 0x23 (fun w => iFn5 w == 14 && iSel w == 3) (fun w k => k.setV (iD w) (clmulHalves 1 (k.getV (iA w)) (k.getV (iB w)))) ∧
  RegisterRow .vbcast 0x25 (iFn5 · == 0) (fun w k => k.setV (iD w) (vmap2 (laneW w) (fun _ _ => (k.getG (iA w)).toNat) 0#256 0#256)) ∧
  RegisterRow .vext 0x25 (iFn5 · == 1) (fun w k => k.setG (iD w)
    (BitVec.ofNat 64 (lane (k.getV (iA w)) (laneW w) ((k.getG (iB w)).toNat % (256 / laneW w))))) ∧
  RegisterRow .vins 0x25 (iFn5 · == 2) (fun w k => k.setV (iD w) (BitVec.ofNat 256 (ofLanes (laneW w) ((List.range (256 / laneW w)).map
    (fun i => if i = (k.getG (iB w)).toNat % (256 / laneW w) then (k.getG (iA w)).toNat else lane (k.getV (iD w)) (laneW w) i))))) ∧
  RegisterRow .vmov 0x25 (iFn5 · == 3) (fun w k => k.setV (iD w) (k.getV (iA w)))

/-- R430, OP 0x24: eight binary32 lanes, and the binary64 sums into gD. -/
def Obligations.VectorFloatResults : Prop :=
  RegisterRow .vfadd 0x24 (iFN · == 0) (opVf f32.add) ∧
  RegisterRow .vfsub 0x24 (iFN · == 1) (opVf f32.sub) ∧
  RegisterRow .vfmul 0x24 (iFN · == 2) (opVf f32.mul) ∧
  RegisterRow .vfdiv 0x24 (iFN · == 3) (opVf f32.div) ∧
  RegisterRow .vfsqrt 0x24 (iFN · == 4) (opVf fun x _ => f32.sqrt x) ∧
  RegisterRow .vfmin 0x24 (iFN · == 5) (opVf f32.min) ∧
  RegisterRow .vfmax 0x24 (iFN · == 6) (opVf f32.max) ∧
  RegisterRow .vfma 0x24 (iFN · == 7) (fun w k => k.setV (iD w) (BitVec.ofNat 256 (ofLanes 32 ((List.range 8).map (fun j =>
    f32.fma (lane (k.getV (iD w)) 32 j) (lane (k.getV (iA w)) 32 j) (lane (k.getV (iB w)) 32 j)))))) ∧
  RegisterRow .vfcvti 0x24 (iFN · == 8) (opVf fun x _ => unsgn 32 (f32.toSigned 32 x)) ∧
  RegisterRow .vicvtf 0x24 (iFN · == 9) (opVf fun x _ => f32.ofSigned (sgn 32 x)) ∧
  RegisterRow .vfsqd 0x24 (iFN · == 10) (fun w k => k.setG (iD w) (BitVec.ofNat 64 ((List.range 8).foldl
    (fun a j => f64.fma a (f32.convert f64 (lane (k.getV (iA w)) 32 j)) (f32.convert f64 (lane (k.getV (iA w)) 32 j))) (k.getG (iD w)).toNat))) ∧
  RegisterRow .vfsumd 0x24 (iFN · == 11) (fun w k => k.setG (iD w) (BitVec.ofNat 64 ((List.range 8).foldl
    (fun a j => f64.add a (f32.convert f64 (lane (k.getV (iA w)) 32 j))) (k.getG (iD w)).toNat)))

namespace Sys2Proof.Machine

/-- A row of R430 whose instruction reaches beyond the core's registers: where `ok` relates the state after the fetch to the
state that the effect leaves, core `i` retires in that state, and PC moves on by 4. -/
def EffectRow (c : Nat → Instr) (op : Nat) (is : W32 → Bool) (ok : State → Nat → W32 → State → Prop) : Prop :=
  ∀ (s s1 s2 : State) (i : Nat) (w : W32), Executes s i op w s1 → is w = true → ok s1 i w s2 →
    exec (c i) s = .next (retire s2 i ((s2.core i).pc + 4#64))

/-- The address of an M-format access of `size` bytes: gA + IMM12 × size (R430). -/
def accessAt (s : State) (i : Nat) (w : W32) (size : Nat) : Nat :=
  (((s.core i).getG (iA w)) + BitVec.ofInt 64 (iImm12 w * size)).toNat

/-- A load that the memory answers with `bs`: the core takes `f` of them. -/
def loads (size : Nat) (f : W32 → Core → List Byte → Core) (s : State) (i : Nat) (w : W32) (t : State) : Prop :=
  ∃ s1 bs, coreLoad s i (accessAt s i w size) size = .ok s1 bs ∧ t = s1.setCore i (f w (s1.core i) bs)

/-- gD → the number that the bytes spell, zero-extended; or of `n` bits, sign-extended. -/
def zext (w : W32) (k : Core) (bs : List Byte) : Core := k.setG (iD w) (BitVec.ofNat 64 (leNat bs))
def sext (n : Nat) (w : W32) (k : Core) (bs : List Byte) : Core := k.setG (iD w) (BitVec.ofInt 64 (sgn n (leNat bs)))

/-- A store of the low bytes of gD, that the memory takes. -/
def stores (size : Nat) (s : State) (i : Nat) (w : W32) (t : State) : Prop :=
  ∃ bs, coreStore s i (accessAt s i w size) (leBytes size ((s.core i).getG (iD w)).toNat) = .ok t bs

/-- An atomic at gA that the memory performs with `f` of the old value: gD → that value (R149). -/
def atomics (f : W32 → Core → W64 → Option W64) (s : State) (i : Nat) (w : W32) (t : State) : Prop :=
  ∃ s1 bs, coreAtomic s i ((s.core i).getG (iA w)).toNat (f w (s.core i)) = .ok s1 bs ∧
    t = s1.setCore i ((s1.core i).setG (iD w) (BitVec.ofNat 64 (leNat bs)))

/-- A package-scope release of the core, which is complete when nothing of the core is on its way to a window or waits for a
region (R147, R148, R23), and then the effect `f`. -/
def releases (s : State) (i : Nat) (f : State → Prop) : Prop :=
  released (writeBackAll s i) i = true ∧ f (writeBackAll s i)

/-- A counter operation (R437): the owner reaches counter gA; it is set to `f` of its value, and gD → the value before. -/
def counts (f : W32 → Core → W64 → W64) (s : State) (i : Nat) (w : W32) (t : State) : Prop :=
  let c := ((s.core i).getG (iA w)).toNat
  coreReaches s i ((s.core i).getG (iA w)) = true ∧ releases s i (fun s1 =>
    let s2 := s1.putCtr c (f w (s1.core i) (s1.ctr c))
    t = s2.setCore i ((s2.core i).setG (iD w) (s1.ctr c)))

/-- An engine start (R438): descriptor and slot lie in the core's own scratch, the queue has room, the descriptor is readable. -/
def starts (codec : Bool) (s : State) (i : Nat) (w : W32) (t : State) : Prop :=
  ∃ a b, ownScratch s i ((s.core i).getG (iA w)).toNat 64 64 = some a ∧ ownScratch s i ((s.core i).getG (iB w)).toNat 32 32 = some b ∧
    (s.vat.jobs.filter (fun p => p.2.onEngine (coreCluster i) codec && p.2.accepted && p.2.core.isSome)).length < 8 ∧
    releases s i (fun s1 => ∃ s2 bs, scrRead s1 (coreCluster i) a 64 = (s2, bs, false) ∧
      t = startCoreJob s2 i b (BitVec.ofNat 512 (leNat bs)) codec)

/-- POST (R438) of the descriptor at gA to the work ring whose handle is in gB: accepted, and gD → 0. -/
def posts (s : State) (i : Nat) (w : W32) (t : State) : Prop :=
  ∃ a ring, ownScratch s i ((s.core i).getG (iA w)).toNat 64 64 = some a ∧
    checkHandle s (coreReq s i) ((s.core i).getG (iB w)) [1] = .inl ring ∧ mayPost s ring = true ∧
    releases s i (fun s1 => ∃ s2 bs, scrRead s1 (coreCluster i) a 64 = (s2, bs, false) ∧
      let s3 := postDesc s2 ring (BitVec.ofNat 512 (leNat bs))
      t = s3.setCore i ((s3.core i).setG (iD w) 0#64))

/-- A block in code form as KLD leaves it (R432): codes to vD, header and size to gB. -/
def takesBlock (w : W32) (k : Core) (b : Block) : Core := (setCodes k (iD w) b.w b.codes).setG (iB w) (hdrWord b.hdr b.size)

/-- KENC and KENCF (R434): the values encode by FMT, LAYOUT and RMODE of the word; the generator of the cluster moves on. -/
def encodes (src : W32 → Core → List Val × Bool) (s : State) (i : Nat) (w : W32) (t : State) : Prop :=
  let k := s.core i
  let c := coreCluster i
  let width := (kbfWidth (bn w 27 25)).getD 8
  let e := encodeBlock (bn w 27 25) width (iSel w) (RMode.ofCode (bn w 29 28)) (src w k).2 (src w k).1 (s.cl c).rs
  t = (s.setCl c { s.cl c with rs := e.2 }).setCore i
    ((setCodes k (iD w) width e.1.codes).setG (iB w) (hdrWord e.1.hdr (writeBlock e.1).length))

end Sys2Proof.Machine

/-- R430, OP 0x12 to 0x1F, and R149: loads, stores, vector accesses and atomics that the memory answers. -/
def Obligations.MemoryInstructionResults : Prop :=
  EffectRow .ld8u 0x12 (fun _ => true) (loads 1 zext) ∧
  EffectRow .ld16u 0x13 (fun _ => true) (loads 2 zext) ∧
  EffectRow .ld32u 0x14 (fun _ => true) (loads 4 zext) ∧
  EffectRow .ld64 0x15 (fun _ => true) (loads 8 zext) ∧
  EffectRow .ld8s 0x16 (fun _ => true) (loads 1 (sext 8)) ∧
  EffectRow .ld16s 0x17 (fun _ => true) (loads 2 (sext 16)) ∧
  EffectRow .ld32s 0x18 (fun _ => true) (loads 4 (sext 32)) ∧
  EffectRow .st8 0x19 (fun _ => true) (stores 1) ∧
  EffectRow .st16 0x1A (fun _ => true) (stores 2) ∧
  EffectRow .st32 0x1B (fun _ => true) (stores 4) ∧
  EffectRow .st64 0x1C (fun _ => true) (stores 8) ∧
  EffectRow .vld 0x1D (fun _ => true) (loads 32 fun w k bs => k.setV (iD w) (BitVec.ofNat 256 (leNat bs))) ∧
  EffectRow .vst 0x1E (fun _ => true) (fun s i w t =>
    ∃ bs, coreStore s i (accessAt s i w 32) (leBytes 32 ((s.core i).getV (iD w)).toNat) = .ok t bs) ∧
  EffectRow .amoadd 0x1F (iFN · == 0) (atomics fun w k old => some (old + k.getG (iB w))) ∧
  EffectRow .amocas 0x1F (iFN · == 1) (atomics fun w k old => if old = k.getG (iD w) then some (k.getG (iB w)) else none) ∧
  EffectRow .amoswp 0x1F (iFN · == 2) (atomics fun w k _ => some (k.getG (iB w)))

/-- R430, OP 0x20 to 0x22: where branches and jumps go, and the link register they write. A jump to an address that is not a
multiple of 4 is not among them. -/
def Obligations.BranchesAndJumps : Prop :=
  ∀ (s s1 : State) (i : Nat) (w : W32),
    let k := s1.core i
    (Executes s i 0x20 w s1 → exec (.br i) s = .next (retire s1 i (k.pc + BitVec.ofInt 64 (4 * iImm22 w)))) ∧
    (Executes s i 0x21 w s1 → exec (.bl i) s =
      .next (retire (s1.setCore i (k.setG 31 (k.pc + 4#64))) i (k.pc + BitVec.ofInt 64 (4 * iImm22 w)))) ∧
    (Executes s i 0x22 w s1 → iFN w = 0 → (k.getG (iA w)).toNat % 4 = 0 →
      exec (.jr i) s = .next (retire s1 i (k.getG (iA w)))) ∧
    (Executes s i 0x22 w s1 → iFN w = 1 → (k.getG (iA w)).toNat % 4 = 0 →
      exec (.jrl i) s = .next (retire (s1.setCore i (k.setG (iD w) (k.pc + 4#64))) i (k.getG (iA w))))

/-- R432 to R434: what the fraction instructions write. -/
def Obligations.FractionInstructionResults : Prop :=
  EffectRow .kld 0x26 (fun w => iFn5 w == 0 && iSel w == 0) (fun s i w t =>
    ∃ s1 bs, coreLoadBlock s i ((s.core i).getG (iA w)).toNat = .ok s1 bs ∧ t = s1.setCore i (takesBlock w (s1.core i) (readBlock bs))) ∧
  EffectRow .kst 0x26 (fun w => iFn5 w == 1 && iSel w == 0) (fun s i w t =>
    let k := s.core i
    let h := hdrLo (k.getG (iB w))
    (kbfWidth (hFmt h)).isSome = true ∧ ∃ bs, coreStore s i (k.getG (iA w)).toNat (writeBlock (kstBlock h (regCodes k (iD w) h))) = .ok t bs) ∧
  RegisterRow .kdec 0x26 (iFn5 · == 2) (fun w k => k.setV (iD w) (BitVec.ofNat 256 (ofLanes 32
    ((((regVals k (iA w) (hdrLo (k.getG (iB w)))).drop (8 * iSel w)).take 8).map valF32)))) ∧
  RegisterRow .kz 0x26 (fun w => iFn5 w == 3 && iSel w == 0 && accOk (iD w)) (fun w k => k.setAcc (iD w) {}) ∧
  RegisterRow .kadd 0x26 (fun w => iFn5 w == 4 && iSel w == 0 && accOk (iD w)) (fun w k =>
    let h := hdrLo (k.getG (iB w))
    k.setAcc (iD w) (if noTerms h then k.getAcc (iD w) else (k.getAcc (iD w)).add (hScale h (regWidth h)) 16 (regCodes k (iA w) h))) ∧
  RegisterRow .kacc2f 0x26 (fun w => iFn5 w == 5 && accOk (iA w)) (fun w k => k.setV (iD w) (BitVec.ofNat 256 (ofLanes 32
    ((((k.getAcc (iA w)).vals.drop (8 * iSel w)).take 8).map (fun v => (valF32Held v).1))))) ∧
  RegisterRow .ksrd 0x26 (fun w => iFn5 w == 6 && iSel w == 0 && accOk (iA w)) (fun w k =>
    let a := k.getAcc (iA w)
    k.setG (iD w) (BitVec.ofNat 64 (unsgn 10 a.s + at_ 16 (b2n a.empty) + at_ 17 (b2n a.held)))) ∧
  RegisterRow .kmac 0x27 (fun w => iSel w == 0 && accOk (iD w)) (fun w k =>
    let hx := hdrLo (k.getG (iFn5 w))
    let hy := hdrHi (k.getG (iFn5 w))
    k.setAcc (iD w) (if noTerms hx || noTerms hy then k.getAcc (iD w)
      else (k.getAcc (iD w)).add (hScale hx (regWidth hx) + hScale hy (regWidth hy)) 0
        (List.zipWith codeMul (regCodes k (iA w) hx) (regCodes k (iB w) hy)))) ∧
  EffectRow .kenc 0x28 (fun w => encOk w && accOk (iA w)) (encodes fun w k => ((k.getAcc (iA w)).vals, (k.getAcc (iA w)).held)) ∧
  EffectRow .kencf 0x29 (fun w => encOk w && iA w % 4 == 0) (encodes fun w k =>
    ((List.range 32).map (fun j => floatVal f32 (lane (k.getV (iA w + j / 8)) 32 (j % 8))), false))

/-- R435, R436 and R151: fences, the end of a program, events and time. WFE with an event pending or an empty mask goes on, and
with none it waits, RUN reading 2; a deadline that the counter has reached makes TIMER pending and is gone. -/
def Obligations.SynchronisationAndEvents : Prop :=
  EffectRow .fence 0x2A (fun w => decide (4 ≤ iFN w) && decide (iFN w < 16) && iFN w % 4 != 3) (fun s i w t =>
    let after (s1 : State) : Prop := t = if (iFN w).testBit 3 then dropClean s1 i else s1
    if (iFN w).testBit 2 && iFN w % 4 == 2 then releases s i after else after s) ∧
  RegisterRow .icinv 0x2A (iFN · == 0x10) (fun _ k => { k with icache := [] }) ∧
  (∀ (s s1 : State) (i : Nat) (w : W32), Executes s i 0x2A w s1 → iFN w = 0x11 →
    exec (.halt i) s = .next ((endCore s1 i (haltStatus (s1.core i).prog (bn ((s1.core i).getG 1) 7 0)) 0
      ((s1.core i).getG 2).toNat).count (coreInstr i))) ∧
  RegisterRow .wfe 0x2B (fun w => iFN w == 0 && iA w == 0) (fun w k => k.setG (iD w) 0#64) ∧
  (∀ (s s1 : State) (i : Nat) (w : W32) (hit : W32), Executes s i 0x2B w s1 → iFN w = 0 →
    hit = (s1.core i).evt &&& BitVec.ofNat 32 (bn ((s1.core i).getG (iA w)) 31 0) → hit ≠ 0#32 →
    exec (.wfe i) s = .next (retire (s1.setCore i
      ({ s1.core i with evt := (s1.core i).evt &&& ~~~hit }.setG (iD w) (BitVec.ofNat 64 hit.toNat))) i ((s1.core i).pc + 4#64))) ∧
  (∀ (s s1 : State) (i : Nat) (w : W32) (mask : W32), Executes s i 0x2B w s1 → iFN w = 0 →
    mask = BitVec.ofNat 32 (bn ((s1.core i).getG (iA w)) 31 0) → mask ≠ 0#32 → (s1.core i).evt &&& mask = 0#32 →
    exec (.wfe i) s = .next (s1.setCore i { s1.core i with run := .waiting, wfeMask := mask })) ∧
  RegisterRow .evrd 0x2B (iFN · == 1) (fun w k => k.setG (iD w) (BitVec.ofNat 64 k.evt.toNat)) ∧
  EffectRow .sev 0x2B (iFN · == 2) (fun s i w t => releases s i fun s1 =>
    t = sendEvent s1 i ((s1.core i).getG (iA w)).toNat) ∧
  RegisterRow .tdl 0x2B (iFN · == 3) (fun w k => { k with deadline := if k.getG (iA w) = 0#64 then none else some (k.getG (iA w)) }) ∧
  EffectRow .time 0x2B (iFN · == 4) (fun s i w t => t = s.setCore i ((s.core i).setG (iD w) (BitVec.ofNat 64 s.fab.time))) ∧
  (∀ (s : State) (i : Nat) (d : W64), (s.core i).deadline = some d → d.toNat ≤ s.fab.time →
    exec (.timedWaitDeadline i) s =
      .next (s.setCore i { s.core i with deadline := none, evt := (s.core i).evt ||| 0x8000#32 }))

/-- R437 and R438: counter operations, watches, engine starts and POST, each after the release of R148. -/
def Obligations.CounterAndEngineInstructions : Prop :=
  EffectRow .cadd 0x2C (iFn5 · == 0) (counts fun w k old => old + k.getG (iB w)) ∧
  EffectRow .cset 0x2C (iFn5 · == 1) (counts fun w k _ => k.getG (iB w)) ∧
  EffectRow .crd 0x2C (iFn5 · == 2) (fun s i w t =>
    let c := (s.core i).getG (iA w)
    coreReaches s i c = true ∧ releases s i fun s1 => t = s1.setCore i ((s1.core i).setG (iD w) (s1.ctr c.toNat))) ∧
  EffectRow .cwatch 0x2C (iFn5 · == 3) (fun s i w t =>
    let c := (s.core i).getG (iA w)
    coreReaches s i c = true ∧ releases s i fun s1 =>
      let k := s1.core i
      t = s1.setCore i (fireWatches c.toNat (s1.ctr c.toNat) { k with watch := mset k.watch (iSel w) ⟨.armed, c.toNat, k.getG (iB w)⟩ })) ∧
  EffectRow .cunwatch 0x2C (iFn5 · == 4) (fun s i w t => releases s i fun s1 =>
    t = s1.setCore i { s1.core i with watch := mset (s1.core i).watch (iSel w) {} }) ∧
  EffectRow .cwst 0x2C (iFn5 · == 5) (fun s i w t => releases s i fun s1 => t = s1.setCore i ((s1.core i).setG (iD w)
    (BitVec.ofNat 64 ((List.range 4).map (fun j => (mgetD (s1.core i).watch j {}).st.code * 4 ^ j)).sum))) ∧
  EffectRow .istart 0x2D (iFN · == 0) (starts false) ∧
  EffectRow .pstart 0x2D (iFN · == 1) (starts true) ∧
  EffectRow .post 0x2D (iFN · == 2) posts

/-- R428 and R439: a reserved encoding raises the illegal-instruction exception whatever the guard says; a refused or poisoned
fetch, a refused load, a misaligned jump and an atomic that is not aligned raise theirs, and XCPT, XPC and XADDR record it. -/
def Obligations.InstructionsThatTrap : Prop :=
  (∀ (s s1 : State) (i : Nat) (w : W32), Fetches s i w s1 → isaDecode w = none →
    exec (.illegalInstruction i) s = .next (takeXcpt s1 i 1 0 w)) ∧
  (∀ (s s1 : State) (i cause a : Nat), (s.core i).run = .running → coreFetch s i = .xcpt s1 cause a →
    exec (.illegalInstruction i) s = .next (takeXcpt s1 i cause a 0#32)) ∧
  (∀ (s s1 s2 : State) (i cause a : Nat) (w : W32), Executes s i 0x15 w s1 → coreLoad s1 i (accessAt s1 i w 8) 8 = .xcpt s2 cause a →
    exec (.ld64 i) s = .next (takeXcpt s2 i cause a w)) ∧
  (∀ (s s1 : State) (i : Nat) (w : W32), Executes s i 0x22 w s1 → iFN w = 0 → ((s1.core i).getG (iA w)).toNat % 4 ≠ 0 →
    exec (.jr i) s = .next (takeXcpt s1 i 2 ((s1.core i).getG (iA w)).toNat w)) ∧
  (∀ (s s1 : State) (i : Nat) (w : W32), Executes s i 0x1F w s1 → iFN w = 0 → ((s1.core i).getG (iA w)).toNat % 8 ≠ 0 →
    exec (.amoadd i) s = .next (takeXcpt s1 i 2 ((s1.core i).getG (iA w)).toNat w)) ∧
  (∀ (s : State) (i cause a : Nat) (w : W32), (s.core i).prog = none →
    let k := (takeXcpt s i cause a w).core i
    k.xcpt = BitVec.ofNat 32 (cause + 256 * iOP w) ∧ k.xpc = (s.core i).pc ∧
    k.xaddr = BitVec.ofNat 64 (if cause = 1 then 0 else a) ∧ k.run = .idle ∧ k.g = (s.core i).g ∧ k.v = (s.core i).v)

namespace Sys2Proof.Machine

/-- The row of commands that runs an instruction. -/
def Mn.runs : Mn → (Nat → Instr) → Prop
  | .add, c => c = .add
  | .sub, c => c = .sub
  | .and, c => c = .and
  | .or, c => c = .or
  | .xor, c => c = .xor
  | .shl, c => c = .shl
  | .shr, c => c = .shr
  | .sra, c => c = .sra
  | .mul, c => c = .mul
  | .mulh, c => c = .mulh
  | .mulhu, c => c = .mulhu
  | .div, c => c = .div
  | .divu, c => c = .divu
  | .rem, c => c = .rem
  | .remu, c => c = .remu
  | .min, c => c = .min
  | .max, c => c = .max
  | .minu, c => c = .minu
  | .maxu, c => c = .maxu
  | .clz, c => c = .clz
  | .popc, c => c = .popc
  | .rdp, c => c = .rdp
  | .addi, c => c = .addi
  | .andi, c => c = .andi
  | .ori, c => c = .ori
  | .xori, c => c = .xori
  | .shli, c => c = .shli
  | .shri, c => c = .shri
  | .srai, c => c = .srai
  | .movz, c => c = .movz
  | .movk0, c => c = .movk0
  | .movk1, c => c = .movk1
  | .movk2, c => c = .movk2
  | .movk3, c => c = .movk3
  | .cmpeq, c => c = .cmpeq
  | .cmpne, c => c = .cmpne
  | .cmplt, c => c = .cmplt
  | .cmpge, c => c = .cmpge
  | .cmpltu, c => c = .cmpltu
  | .cmpgeu, c => c = .cmpgeu
  | .cmpeqi, c => c = .cmpeqi
  | .cmplti, c => c = .cmplti
  | .pand, c => c = .pand
  | .por, c => c = .por
  | .pxor, c => c = .pxor
  | .pandn, c => c = .pandn
  | .fadd, c => c = .fadd
  | .fsub, c => c = .fsub
  | .fmul, c => c = .fmul
  | .fdiv, c => c = .fdiv
  | .fsqrt, c => c = .fsqrt
  | .fmin, c => c = .fmin
  | .fmax, c => c = .fmax
  | .fma, c => c = .fma
  | .fcvt, c => c = .fcvt
  | .fcvti, c => c = .fcvti
  | .icvtf, c => c = .icvtf
  | .feq, c => c = .feq
  | .flt, c => c = .flt
  | .fle, c => c = .fle
  | .ld8u, c => c = .ld8u
  | .ld16u, c => c = .ld16u
  | .ld32u, c => c = .ld32u
  | .ld64, c => c = .ld64
  | .ld8s, c => c = .ld8s
  | .ld16s, c => c = .ld16s
  | .ld32s, c => c = .ld32s
  | .st8, c => c = .st8
  | .st16, c => c = .st16
  | .st32, c => c = .st32
  | .st64, c => c = .st64
  | .vld, c => c = .vld
  | .vst, c => c = .vst
  | .amoadd, c => c = .amoadd
  | .amocas, c => c = .amocas
  | .amoswp, c => c = .amoswp
  | .br, c => c = .br
  | .bl, c => c = .bl
  | .jr, c => c = .jr
  | .jrl, c => c = .jrl
  | .vadd, c => c = .vadd
  | .vsub, c => c = .vsub
  | .vmul, c => c = .vmul
  | .vand, c => c = .vand
  | .vor, c => c = .vor
  | .vxor, c => c = .vxor
  | .vshl, c => c = .vshl
  | .vshr, c => c = .vshr
  | .vsra, c => c = .vsra
  | .vmin, c => c = .vmin
  | .vmax, c => c = .vmax
  | .vadds, c => c = .vadds
  | .vsubs, c => c = .vsubs
  | .vclmul, c => c = .vclmul
  | .vclmulh, c => c = .vclmulh
  | .vfadd, c => c = .vfadd
  | .vfsub, c => c = .vfsub
  | .vfmul, c => c = .vfmul
  | .vfdiv, c => c = .vfdiv
  | .vfsqrt, c => c = .vfsqrt
  | .vfmin, c => c = .vfmin
  | .vfmax, c => c = .vfmax
  | .vfma, c => c = .vfma
  | .vfcvti, c => c = .vfcvti
  | .vicvtf, c => c = .vicvtf
  | .vfsqd, c => c = .vfsqd
  | .vfsumd, c => c = .vfsumd
  | .vbcast, c => c = .vbcast
  | .vext, c => c = .vext
  | .vins, c => c = .vins
  | .vmov, c => c = .vmov
  | .kld, c => c = .kld
  | .kst, c => c = .kst
  | .kdec, c => c = .kdec
  | .kz, c => c = .kz
  | .kadd, c => c = .kadd
  | .kacc2f, c => c = .kacc2f
  | .ksrd, c => c = .ksrd
  | .kmac, c => c = .kmac
  | .kenc, c => c = .kenc
  | .kencf, c => c = .kencf
  | .fence, c => c = .fence
  | .icinv, c => c = .icinv
  | .halt, c => c = .halt
  | .wfe, c => c = .wfe
  | .evrd, c => c = .evrd
  | .sev, c => c = .sev
  | .tdl, c => c = .tdl
  | .time, c => c = .time
  | .cadd, c => c = .cadd
  | .cset, c => c = .cset
  | .crd, c => c = .crd
  | .cwatch, c => c = .cwatch
  | .cunwatch, c => c = .cunwatch
  | .cwst, c => c = .cwst
  | .istart, c => c = .istart
  | .pstart, c => c = .pstart
  | .post, c => c = .post

/-- One row of the encoding tables. -/
def isaRow (m : Mn) (op : Nat) (is : W32 → Bool) : Mn × Nat × (W32 → Bool) := (m, op, is)

/-- The encodings of R430, R432 to R438: mnemonic, major opcode, and the condition on the other fields. -/
def isaRows : List (Mn × Nat × (W32 → Bool)) :=
  [isaRow .add 0x00 (iFN · == 0),
    isaRow .sub 0x00 (iFN · == 1),
    isaRow .and 0x00 (iFN · == 2),
    isaRow .or 0x00 (iFN · == 3),
    isaRow .xor 0x00 (iFN · == 4),
    isaRow .shl 0x00 (iFN · == 5),
    isaRow .shr 0x00 (iFN · == 6),
    isaRow .sra 0x00 (iFN · == 7),
    isaRow .mul 0x00 (iFN · == 8),
    isaRow .mulh 0x00 (iFN · == 9),
    isaRow .mulhu 0x00 (iFN · == 10),
    isaRow .div 0x00 (iFN · == 11),
    isaRow .divu 0x00 (iFN · == 12),
    isaRow .rem 0x00 (iFN · == 13),
    isaRow .remu 0x00 (iFN · == 14),
    isaRow .min 0x00 (iFN · == 15),
    isaRow .max 0x00 (iFN · == 16),
    isaRow .minu 0x00 (iFN · == 17),
    isaRow .maxu 0x00 (iFN · == 18),
    isaRow .clz 0x00 (iFN · == 19),
    isaRow .popc 0x00 (iFN · == 20),
    isaRow .rdp 0x00 (iFN · == 21),
    isaRow .addi 0x01 (fun _ => true),
    isaRow .andi 0x02 (fun _ => true)] ++
  [isaRow .ori 0x03 (fun _ => true),
    isaRow .xori 0x04 (fun _ => true),
    isaRow .shli 0x05 (fun w => bn w 31 20 < 64),
    isaRow .shri 0x06 (fun w => bn w 31 20 < 64),
    isaRow .srai 0x07 (fun w => bn w 31 20 < 64),
    isaRow .movz 0x08 (fun w => !bt w 31),
    isaRow .movk0 0x09 (fun w => !bt w 31),
    isaRow .movk1 0x0A (fun w => !bt w 31),
    isaRow .movk2 0x0B (fun w => !bt w 31),
    isaRow .movk3 0x0C (fun w => !bt w 31),
    isaRow .cmpeq 0x0D (fun w => iFN w == 0 && predOk (iD w)),
    isaRow .cmpne 0x0D (fun w => iFN w == 1 && predOk (iD w)),
    isaRow .cmplt 0x0D (fun w => iFN w == 2 && predOk (iD w)),
    isaRow .cmpge 0x0D (fun w => iFN w == 3 && predOk (iD w)),
    isaRow .cmpltu 0x0D (fun w => iFN w == 4 && predOk (iD w)),
    isaRow .cmpgeu 0x0D (fun w => iFN w == 5 && predOk (iD w)),
    isaRow .cmpeqi 0x0E (fun w => predOk (iD w)),
    isaRow .cmplti 0x0F (fun w => predOk (iD w)),
    isaRow .pand 0x10 (fun w => iFN w == 0 && predOk (iD w) && predOk (iA w) && predOk (iB w)),
    isaRow .por 0x10 (fun w => iFN w == 1 && predOk (iD w) && predOk (iA w) && predOk (iB w)),
    isaRow .pxor 0x10 (fun w => iFN w == 2 && predOk (iD w) && predOk (iA w) && predOk (iB w)),
    isaRow .pandn 0x10 (fun w => iFN w == 3 && predOk (iD w) && predOk (iA w) && predOk (iB w)),
    isaRow .fadd 0x11 (iFn6 · == 0),
    isaRow .fsub 0x11 (iFn6 · == 1)] ++
  [isaRow .fmul 0x11 (iFn6 · == 2),
    isaRow .fdiv 0x11 (iFn6 · == 3),
    isaRow .fsqrt 0x11 (iFn6 · == 4),
    isaRow .fmin 0x11 (iFn6 · == 5),
    isaRow .fmax 0x11 (iFn6 · == 6),
    isaRow .fma 0x11 (iFn6 · == 7),
    isaRow .fcvt 0x11 (iFn6 · == 8),
    isaRow .fcvti 0x11 (iFn6 · == 9),
    isaRow .icvtf 0x11 (iFn6 · == 10),
    isaRow .feq 0x11 (fun w => iFn6 w == 11 && predOk (iD w)),
    isaRow .flt 0x11 (fun w => iFn6 w == 12 && predOk (iD w)),
    isaRow .fle 0x11 (fun w => iFn6 w == 13 && predOk (iD w)),
    isaRow .ld8u 0x12 (fun _ => true),
    isaRow .ld16u 0x13 (fun _ => true),
    isaRow .ld32u 0x14 (fun _ => true),
    isaRow .ld64 0x15 (fun _ => true),
    isaRow .ld8s 0x16 (fun _ => true),
    isaRow .ld16s 0x17 (fun _ => true),
    isaRow .ld32s 0x18 (fun _ => true),
    isaRow .st8 0x19 (fun _ => true),
    isaRow .st16 0x1A (fun _ => true),
    isaRow .st32 0x1B (fun _ => true),
    isaRow .st64 0x1C (fun _ => true),
    isaRow .vld 0x1D (fun _ => true)] ++
  [isaRow .vst 0x1E (fun _ => true),
    isaRow .amoadd 0x1F (iFN · == 0),
    isaRow .amocas 0x1F (iFN · == 1),
    isaRow .amoswp 0x1F (iFN · == 2),
    isaRow .br 0x20 (fun _ => true),
    isaRow .bl 0x21 (fun _ => true),
    isaRow .jr 0x22 (iFN · == 0),
    isaRow .jrl 0x22 (iFN · == 1),
    isaRow .vadd 0x23 (iFn5 · == 0),
    isaRow .vsub 0x23 (iFn5 · == 1),
    isaRow .vmul 0x23 (iFn5 · == 2),
    isaRow .vand 0x23 (iFn5 · == 3),
    isaRow .vor 0x23 (iFn5 · == 4),
    isaRow .vxor 0x23 (iFn5 · == 5),
    isaRow .vshl 0x23 (iFn5 · == 6),
    isaRow .vshr 0x23 (iFn5 · == 7),
    isaRow .vsra 0x23 (iFn5 · == 8),
    isaRow .vmin 0x23 (iFn5 · == 9),
    isaRow .vmax 0x23 (iFn5 · == 10),
    isaRow .vadds 0x23 (iFn5 · == 11),
    isaRow .vsubs 0x23 (iFn5 · == 12),
    isaRow .vclmul 0x23 (fun w => iFn5 w == 13 && iSel w == 3),
    isaRow .vclmulh 0x23 (fun w => iFn5 w == 14 && iSel w == 3),
    isaRow .vfadd 0x24 (iFN · == 0)] ++
  [isaRow .vfsub 0x24 (iFN · == 1),
    isaRow .vfmul 0x24 (iFN · == 2),
    isaRow .vfdiv 0x24 (iFN · == 3),
    isaRow .vfsqrt 0x24 (iFN · == 4),
    isaRow .vfmin 0x24 (iFN · == 5),
    isaRow .vfmax 0x24 (iFN · == 6),
    isaRow .vfma 0x24 (iFN · == 7),
    isaRow .vfcvti 0x24 (iFN · == 8),
    isaRow .vicvtf 0x24 (iFN · == 9),
    isaRow .vfsqd 0x24 (iFN · == 10),
    isaRow .vfsumd 0x24 (iFN · == 11),
    isaRow .vbcast 0x25 (iFn5 · == 0),
    isaRow .vext 0x25 (iFn5 · == 1),
    isaRow .vins 0x25 (iFn5 · == 2),
    isaRow .vmov 0x25 (iFn5 · == 3),
    isaRow .kld 0x26 (fun w => iFn5 w == 0 && iSel w == 0),
    isaRow .kst 0x26 (fun w => iFn5 w == 1 && iSel w == 0),
    isaRow .kdec 0x26 (iFn5 · == 2),
    isaRow .kz 0x26 (fun w => iFn5 w == 3 && iSel w == 0 && accOk (iD w)),
    isaRow .kadd 0x26 (fun w => iFn5 w == 4 && iSel w == 0 && accOk (iD w)),
    isaRow .kacc2f 0x26 (fun w => iFn5 w == 5 && accOk (iA w)),
    isaRow .ksrd 0x26 (fun w => iFn5 w == 6 && iSel w == 0 && accOk (iA w)),
    isaRow .kmac 0x27 (fun w => iSel w == 0 && accOk (iD w)),
    isaRow .kenc 0x28 (fun w => encOk w && accOk (iA w))] ++
  [isaRow .kencf 0x29 (fun w => encOk w && iA w % 4 == 0),
    isaRow .fence 0x2A (fun w => decide (4 ≤ iFN w) && decide (iFN w < 16) && iFN w % 4 != 3),
    isaRow .icinv 0x2A (iFN · == 0x10),
    isaRow .halt 0x2A (iFN · == 0x11),
    isaRow .wfe 0x2B (iFN · == 0),
    isaRow .evrd 0x2B (iFN · == 1),
    isaRow .sev 0x2B (iFN · == 2),
    isaRow .tdl 0x2B (iFN · == 3),
    isaRow .time 0x2B (iFN · == 4),
    isaRow .cadd 0x2C (iFn5 · == 0),
    isaRow .cset 0x2C (iFn5 · == 1),
    isaRow .crd 0x2C (iFn5 · == 2),
    isaRow .cwatch 0x2C (iFn5 · == 3),
    isaRow .cunwatch 0x2C (iFn5 · == 4),
    isaRow .cwst 0x2C (iFn5 · == 5),
    isaRow .istart 0x2D (iFN · == 0),
    isaRow .pstart 0x2D (iFN · == 1),
    isaRow .post 0x2D (iFN · == 2)]

end Sys2Proof.Machine

/-- R428: an instruction executes when p[PG] xor PN = 1, the predicate read as the previous instruction left it; a guarded-off instruction, whichever it
is, has no effect at all and does not wait; it still occupies one step; and a reserved encoding raises the illegal-instruction exception whatever the
guard says. That the retired-instruction count of R156 takes a guarded-off instruction in is the model's choice (log 27). -/
def Obligations.GuardedOffInstructionOnlyPasses : Prop :=
  (∀ (m : Mn) (c : Nat → Instr) (s s1 : State) (i : Nat) (w : W32), m.runs c → Fetches s i w s1 → isaDecode w = some m →
    guardHolds (s1.core i) w = false → exec (c i) s = .next (retire s1 i ((s1.core i).pc + 4#64))) ∧
  (∀ (s s1 : State) (i : Nat) (w : W32), Fetches s i w s1 → isaDecode w = none → exec (.illegalInstruction i) s = .next (takeXcpt s1 i 1 0 w)) ∧
  (∀ (k : Core) (w : W32), guardHolds k w = true ↔ xor (k.getP (iPG w)) (iPN w) = true)

/-- R427, R428, R430: a word is the instruction of the row whose fields it has, of that row alone, and no instruction where no row
matches or the guard fields are PG = 0 with PN = 1. -/
def Obligations.WordsDecodeByTheTable : Prop :=
  (∀ (w : W32) (m : Mn), isaDecode w = some m ↔
    (iPG w ≠ 0 ∨ iPN w = false) ∧ ∃ r ∈ isaRows, r.1 = m ∧ iOP w = r.2.1 ∧ r.2.2 w = true) ∧
  (isaRows.map (·.1)).Nodup

/-- R156 and R425: what retiring leaves of a core's registers and of everything else; g0 reads 0 and p0 reads 1 whatever is written,
and a write to another register changes that one alone. -/
def Obligations.RetiringAndHardwiredRegisters : Prop :=
  (∀ (s : State) (i : Nat) (pc : W64),
    let t := retire s i pc
    t.core i = { s.core i with pc := pc, run := .running, wfeMask := 0#32 } ∧
    (∀ j, j ≠ i → t.core j = s.core j) ∧
    t.regs = mset s.regs (coreInstr i) (min (2 ^ 64 - 1) (mgetD s.regs (coreInstr i) 0 + 1)) ∧
    t.lake = s.lake ∧ t.vat = s.vat ∧ t.pal = s.pal ∧ t.fab.scratch = s.fab.scratch ∧ t.fab.clusters = s.fab.clusters ∧
    t.ap.ports = s.ap.ports ∧ t.out = s.out ∧ t.pending = s.pending) ∧
  (∀ (k : Core) (n j : Nat) (v : W64), (k.setG n v).getG 0 = 0#64 ∧ (n ≠ 0 → (k.setG n v).getG n = v) ∧
    (j ≠ n → (k.setG n v).getG j = k.getG j) ∧ (k.setG n v).v = k.v ∧ (k.setG n v).p = k.p ∧ (k.setG n v).acc = k.acc) ∧
  (∀ (k : Core) (n j : Nat) (b : Bool), n < 8 → j < 8 → (k.setP n b).getP 0 = true ∧ (n ≠ 0 → (k.setP n b).getP n = b) ∧
    (j ≠ n → (k.setP n b).getP j = k.getP j)) ∧
  (∀ (k : Core) (n j : Nat) (x : BitVec 256), n < 32 → j < 32 → (k.setV n x).getV n = x ∧ (j ≠ n → (k.setV n x).getV j = k.getV j))

namespace Sys2Proof.Machine

/-- A firmware command with a block: where firmware takes it and `ok` holds of the state, the command and the body, it has the effect
`eff` and is answered with `r`. -/
def FwRow (op : Nat) (i : MboxId → CmdBlock → Instr) (ok : State → Cmd → BitVec 32256 → Prop)
    (eff : State → Cmd → BitVec 32256 → State) (r : State → Cmd → BitVec 32256 → Reply) : Prop :=
  ∀ (s s1 : State) (k : MboxId) (blk : CmdBlock) (c : Cmd), Taken s k op true blk c s1 → ok s1 c blk.bits →
    exec (i k blk) s = .next (answers true (eff s1 c blk.bits) c (r s1 c blk.bits))

/-- A firmware command without a block. -/
def FwWordRow (op : Nat) (i : MboxId → Instr) (ok : State → Cmd → Prop) (eff : State → Cmd → State) (r : State → Cmd → Reply) : Prop :=
  ∀ (s s1 : State) (k : MboxId) (c : Cmd), Taken s k op false noBlock c s1 → ok s1 c →
    exec (i k) s = .next (answers false (eff s1 c) c (r s1 c))

/-- A firmware command that goes on after its effect: it is answered later. -/
def FwLaterRow (op : Nat) (i : MboxId → CmdBlock → Instr) (ok : State → Cmd → BitVec 32256 → Prop)
    (eff : State → Cmd → BitVec 32256 → State) : Prop :=
  ∀ (s s1 : State) (k : MboxId) (blk : CmdBlock) (c : Cmd), Taken s k op true blk c s1 → ok s1 c blk.bits →
    exec (i k blk) s = .next (eff s1 c blk.bits)

def success : Reply := { status := .success }

/-- The conditions of R465 on a chunk of FW_LOAD: ADDR, LEN and OFFSET, and no activation that has begun or waits. -/
def chunkFits (s : State) (c : Cmd) (b : BitVec 32256) : Prop :=
  fromPf0 c = true ∧ bodyReserved b [] 129 = true ∧ bn b 11 0 = 0 ∧ bn b 95 64 % 4096 = 0 ∧ bn b 95 64 ≤ 16777216 ∧
  bn b 127 96 < 134217728 ∧ bn b 127 96 + bn b 95 64 ≤ 134217728 ∧ s.pal.act ≠ 4 ∧ s.pal.actCmd = 0 ∧ s.master c.fn = true

/-- The chunk is in the inactive bank; the first chunk takes the verification from the bank, and the last ends the load. -/
def chunkWritten (s : State) (b : BitVec 32256) (data : List Byte) : State :=
  let n := 1 - s.pal.active
  let old := if bn b 127 96 = 0 then { s.bank n with verified := false } else s.bank n
  ({ s with pal := { s.pal with actDeferred := false, act := if bt b 128 then 0 else 1 } } : State).setBank n
    (bankWrite old (bn b 127 96) (slice data 0 (bn b 95 64)))

/-- The image in a bank verifies (R486). -/
def imageArrived (s : State) (n : Nat) : Bool := imageVerifies s (s.bank n)

end Sys2Proof.Machine

/-- R448: a 64-bit non-zero word goes into an empty mailbox (one that names a command stays until firmware takes it) and any other
write is counted; a 64-bit read empties the outbound mailbox, a 32-bit read gives 0 and leaves it. R453: a held reply goes out in
order, and firmware consumes again. R459: a pair that stays full both ways is marked, and the event is logged. An access that does
not reach the pair (R393, R532) writes nothing and reads 0. -/
def Obligations.MailboxOperations : Prop :=
  ∀ (s : State) (k : MboxId) (v : W64),
    (pairReached s k = true → (s.pair k).inWord = 0#64 → v ≠ 0#64 →
      exec (.mailboxWrite k true v) s = .next (fwDrain (s.setPair k { s.pair k with inWord := v }) k)) ∧
    (wVersion v = 2 → fwOpcodes.contains (wOpcode v) = true → s.recovery = false → (s.pair k).inWord = v → fwDrain s k = s) ∧
    (∀ wide, pairReached s k = true → wide = false ∨ (s.pair k).inWord ≠ 0#64 ∨ v = 0#64 →
      exec (.mailboxWrite k wide v) s = .next (s.setPair k { s.pair k with refused := min (2 ^ 32 - 1) ((s.pair k).refused + 1) })) ∧
    (pairReached s k = false → (∀ wide, exec (.mailboxWrite k wide v) s = .next s) ∧
      ∀ wide, exec (.mailboxRead k wide) s = .next (s.emit (.readData 0))) ∧
    (pairReached s k = true → exec (.mailboxRead k true) s = .next ((s.setPair k { s.pair k with outWord := 0#64 }).emit (.readData (s.pair k).outWord.toNat))) ∧
    exec (.mailboxRead k false) s = .next { s with out := .readData 0 :: s.out } ∧
    (∀ w ws, (s.pair k).held = w :: ws → (s.pair k).outWord = 0#64 → mboxRuns s k = true →
      exec (.replyPost k) s = .next (fwDrain (pairVector (s.setPair k { s.pair k with outWord := w, held := ws }) k) k)) ∧
    ((s.pair k).inWord ≠ 0#64 → (s.pair k).outWord ≠ 0#64 → pcoreRuns s (mboxCore k) = true →
      exec (.crossedWait k) s = .next ((pairVector (s.setPair k { s.pair k with crossed := true }) k).event none 5 (pairArg k 0)))

/-- R450: reading a free lock claims it and returns 0, reading a held one returns its owner and changes nothing; a write by the owner
releases it, a write by another agent does nothing, and Umber (agent 0x200) releases any. An agent that does not reach the locks
(R386, R393) reads 0 and changes nothing. -/
def Obligations.LockOperations : Prop :=
  ∀ (s : State) (n a : Nat),
    (lockReached s a = false → exec (.lockClaim n a) s = .next (s.emit (.readData 0)) ∧
      (a ≠ 0x200 → exec (.lockRelease n a) s = .next s)) ∧
    (lockReached s a = true → n < 256 → mget s.pal.locks n = none →
      exec (.lockClaim n a) s = .next { s with pal := { s.pal with locks := mset s.pal.locks n a }, out := .readData 0 :: s.out }) ∧
    (∀ o, lockReached s a = true → mget s.pal.locks n = some o → exec (.lockClaim n a) s = .next { s with out := .readData o :: s.out }) ∧
    (lockReached s a = true → mget s.pal.locks n = some a → a ≠ 0x200 →
      exec (.lockRelease n a) s = .next { s with pal := { s.pal with locks := mdel s.pal.locks n } }) ∧
    (∀ o, mget s.pal.locks n = some o → o ≠ a → a ≠ 0x200 → exec (.lockRelease n a) s = .next s) ∧
    (∀ o, mget s.pal.locks n = some o → exec (.lockRelease n 0x200) s =
      .next { s with pal := { s.pal with locks := mdel s.pal.locks n }, rel := { s.rel with guardOp := 4 } }) ∧
    mget (mdel s.pal.locks n) n = none ∧ (∀ j, j ≠ n → mget (mdel s.pal.locks n) j = mget s.pal.locks j)

/-- R454, R465, R469, R472, R473: what the commands of Palette's own duties do. FW_HELLO reports the message version 2 and the running
release; CMD_WINDOW registers the window; FW_LOAD writes a chunk into the inactive bank and verifies the image after the last; SP_BIND,
LOG_BIND bind and unbind host rings; TRACE_SET sets the trace points; and one interrupt reports the copied log records. -/
def Obligations.PaletteCommands : Prop :=
  FwWordRow 0x001 .fwHello (fun _ c => wArg c.word = 0) (fun s _ => s)
    (fun s _ => { status := .success, arg := 2 + 2 * 2 ^ 8 + ((s.bank s.pal.active).release % 65536) * 2 ^ 16 }) ∧
  FwWordRow 0x002 .cmdWindow (fun _ _ => True) (fun s c => s.setPair c.pair { s.pair c.pair with window := some (wArg c.word) })
    (fun _ _ => success) ∧
  (∀ data : List Byte, FwRow 0x0A0 (fun k b => .fwLoad k b (some data))
    (fun s c b => chunkFits s c b ∧ bt b 128 = false) (fun s _ b => chunkWritten s b data) (fun _ _ _ => success)) ∧
  (∀ data : List Byte, FwRow 0x0A0 (fun k b => .fwLoad k b (some data)) (fun s c b => chunkFits s c b ∧ bt b 128 = true)
    (fun s _ b => markBank (chunkWritten s b data) (1 - s.pal.active) (imageArrived (chunkWritten s b data) (1 - s.pal.active)))
    (fun s _ b => { status := if imageArrived (chunkWritten s b data) (1 - s.pal.active) then .success else .accessDenied })) ∧
  FwRow 0x090 .spBind (fun _ c b => fromPf0 c = true ∧ bodyReserved b [(63, 10), (143, 132)] 155 = true ∧ bt b 8 = true)
    (fun s _ b => { s with pal := { s.pal with spRings := mdel s.pal.spRings (bn b 7 0) } }) (fun _ _ _ => success) ∧
  FwRow 0x090 .spBind (fun _ c b => fromPf0 c = true ∧ bodyReserved b [(63, 10), (143, 132)] 155 = true ∧ bt b 8 = false ∧
      bn b 75 64 = 0 ∧ 4 ≤ bn b 131 128 ∧ bn b 131 128 ≤ 12)
    (fun s _ b =>
      let r : SpRing := { base := bn b 127 64, sizeLog2 := bn b 131 128, vector := bn b 154 144, port := bt b 9 }
      { s with pal := { s.pal with spRings := mset s.pal.spRings (bn b 7 0) r } }) (fun _ _ _ => success) ∧
  FwRow 0x0B0 .logBind (fun _ c b => fromPf0 c = true ∧ bodyReserved b [(79, 69), (95, 91)] 98 = true ∧ bt b 96 = true)
    (fun s _ _ => { s with pal := { s.pal with logRing := none } }) (fun _ _ _ => success) ∧
  FwRow 0x0B0 .logBind (fun _ c b => fromPf0 c = true ∧ bodyReserved b [(79, 69), (95, 91)] 98 = true ∧ bt b 96 = false ∧
      bn b 11 0 = 0 ∧ 10 ≤ bn b 68 64 ∧ bn b 68 64 ≤ 20)
    (fun s _ b =>
      let r : LogRing := { base := bn b 63 0, sizeLog2 := bn b 68 64, vector := bn b 90 80, port := bt b 97, next := s.pal.logTail - 65536 }
      copyLog 65536 { s with pal := { s.pal with logRing := some r } })
    (fun _ _ _ => success) ∧
  FwRow 0x0B1 .traceSet (fun _ c b => fromPf0 c = true ∧ bodyReserved b [] 256 = true)
    (fun s _ b => { s with pal := { s.pal with trace := b.setWidth 256 } }) (fun _ _ _ => success) ∧
  (∀ (s : State) (r : LogRing), s.pal.logRing = some r → r.dirty = true → exec .logCopyInterrupt s =
    .next (({ s with pal := { s.pal with logRing := some { r with dirty := false } } } : State).msix (if r.port then 2048 else 0) r.vector))

namespace Sys2Proof.Machine

/-- A Palette core has stopped (R461 t0, t1): CSTATE reads 2, the restart counts, and the crash is logged. -/
def stopped (s : State) (n lastCause cause xpc xaddr : Nat) : State :=
  let k := s.pcore n
  let k' : PCore := { cstate := 2, lastCause := lastCause, since := if k.cstate = 2 then k.since else s.fab.time, restartTimes := s.fab.time :: k.restartTimes }
  (((s.setPcore n k').count (PAL_CORE_RESTARTS n)).trouble (unitId 16 2 n) .fx).event (some 0x10) 1 (cause + xpc * 2 ^ 64 + xaddr * 2 ^ 128)

/-- The fourth restart of a core within 10 minutes of an activation, with an image that verifies to go back to (R464). -/
def mustRollBack (s : State) (n : Nat) : Bool := decide (restartsAfterActivation s n = 4) && canRollBack s

/-- The image in the other bank may be activated now (R466): no core restarts, and it verifies and reads the running state. -/
def mayActivate (s : State) : Prop :=
  coreRestarting s = false ∧ (s.bank (1 - s.pal.active)).verified = true ∧
  (s.bank (1 - s.pal.active)).stateMin ≤ (s.bank s.pal.active).stateVer ∧ imageVerifies s (s.bank (1 - s.pal.active)) = true

/-- The banks have swapped at t4 (R466), and storage goes on unless the vault is being saved. -/
def swapped (s : State) : State :=
  let p : Palette := { s.pal with active := 1 - s.pal.active, act := 5, actStatus := 0, actCmd := 0, actDeferred := false, activatedAt := some s.fab.time, cores := s.pal.cores.map (fun x => (x.1, { x.2 with restartTimes := [] })) }
  { s with pal := p, saf := { s.saf with stopped := decide (s.saf.vstate = 2) } }

/-- A pair with an unread inbound word loses it in a receiver reset; a pair without one keeps all it has (R460). -/
def keptByReset (s : State) : Prop := ∀ k ∈ pairKeys s, (s.pair k).inWord = 0#64

end Sys2Proof.Machine

/-- R461, R464, R534: a fault or a missed heartbeat stops a Palette core, whose restart releases its locks and lets what waited go on;
the fourth restart within 10 minutes of an activation rolls the image back, and without a rollback a core restarts no sooner than 1 s
after its previous restart; Umber's reset of the complex starts all eight cores. -/
def Obligations.PaletteCoreFaultsAndRestarts : Prop :=
  ∀ (s : State) (n : Nat), n < 8 →
    ((s.pcore n).cstate ≠ 0 → ∀ (mpu : Bool) (cause : Nat) (xpc xaddr : W64) (t : State),
      t = stopped s n (if mpu then 2 else 1) cause xpc.toNat xaddr.toNat →
      (mustRollBack t n = false → exec (.paletteCoreFault n mpu cause xpc xaddr) s = .next t) ∧
      (mustRollBack t n = true → t.pal.actCmd = 0 → exec (.paletteCoreFault n mpu cause xpc xaddr) s =
        let u := t.event (some 0x10) 7 0
        .next { u with pal := { u.pal with act := 4, actCmd := 0, actDeferred := false }, saf := { u.saf with stopped := true } })) ∧
    ((s.pcore n).cstate ≠ 0 → ∀ t : State, t = stopped (s.trouble (unitId 16 2 n) .tmo) n 3 3 0 0 → mustRollBack t n = false →
      exec (.heartbeatMiss n) s = .next t) ∧
    ((s.pcore n).cstate = 2 → restartHeld s n = true → exec (.paletteRestartDone n) s = .next s) ∧
    ((s.pcore n).cstate = 2 → restartHeld s n = false → n ≠ 3 → n ≠ 4 → ∀ t : State,
      t = drainPairs ((releaseLocks (s.setPcore n { s.pcore n with cstate := 1 }) (0x100 + n)).event (some n) 2 (s.fab.time - (s.pcore n).since)) →
      (actWaits t = false → exec (.paletteRestartDone n) s = .next t) ∧ (actWaits t = true → exec (.paletteRestartDone n) s = .next (actGo t))) ∧
    ((s.pcore n).cstate = 2 → keptByReset s → s.pal.queue = [] → exec .paletteComplexReset s = .next (coresBack (restartAll s))) ∧
    ((restartAll s).pcore n).cstate = 1 ∧
    (∀ t : State, actWaits (safSettle (sendCloses t)) = false → coresBack t = safSettle (sendCloses t))

/-- R466 to R468, R533: FW_ACTIVATE waits for t1 while a Palette core restarts, is deferred in an emergency, and in recovery makes the
bank that verifies the active one; t1 refuses an image whose STATE_MIN is above the running state, and stops Saffron otherwise; a deferred
activation starts once the emergency has cleared; t4 swaps the banks, forgets the restarts and answers, or logs a deferred activation.
FW_ACTIVATE with no emergency, no core that restarts and an image in the other bank that verifies completes into the quiescing of Saffron. -/
def Obligations.FirmwareActivation : Prop :=
  (∀ (s s1 : State) (k : MboxId) (blk : CmdBlock) (c : Cmd), Taken s k 0x0A1 true blk c s1 → fromPf0 c = true →
    bodyReserved blk.bits [] 0 = true → s.recovery = false → s1.recovery = false → s1.pal.act ≠ 4 → s1.pal.actCmd = 0 → s1.pal.act ≠ 3 →
    (s1.umb.emerg = true → exec (.fwActivate k blk) s = .next (answers true
      (({ s1 with pal := { s1.pal with act := 3, actDeferred := true } } : State).event none 4 0) c { status := .deferred })) ∧
    (s1.umb.emerg = false → exec (.fwActivate k blk) s =
      .next (actGo { s1 with pal := { s1.pal with actCmd := c.id, actDeferred := false } }))) ∧
  (∀ s : State, coreRestarting s = true → actGo s = s) ∧
  (∀ s : State, coreRestarting s = false → (s.bank (1 - s.pal.active)).verified = true →
    (s.bank (1 - s.pal.active)).stateMin ≤ (s.bank s.pal.active).stateVer → imageVerifies s (s.bank (1 - s.pal.active)) = true →
    actGo s = { s with pal := { s.pal with act := 4 }, saf := { s.saf with stopped := true } }) ∧
  (∀ s : State, coreRestarting s = false → s.pal.actDeferred = false →
    ((s.bank (1 - s.pal.active)).verified = false ∨ (s.bank s.pal.active).stateVer < (s.bank (1 - s.pal.active)).stateMin) →
    actGo s = replyTo { s with pal := { s.pal with actStatus := 0x10, actCmd := 0, actDeferred := false } } s.pal.actCmd { status := .invalidField }) ∧
  (∀ s : State, s.pal.act = 3 → s.umb.emerg = false → coreRestarting s = false → exec .deferredActivationStart s = .next (actGo s)) ∧
  (∀ s : State, s.pal.act = 4 → coreRestarting s = false → safQuiet s = true → s.pal.actDeferred = false → exec .activationDone s =
    let p : Palette := { s.pal with active := 1 - s.pal.active, act := 5, actStatus := 0, actCmd := 0, actDeferred := false, activatedAt := some s.fab.time, cores := s.pal.cores.map (fun x => (x.1, { x.2 with restartTimes := [] })) }
    let t : State := { s with pal := p, saf := { s.saf with stopped := decide (s.saf.vstate = 2) } }
    .next (safSettle (drainPairs (replyTo t s.pal.actCmd { status := .success })))) ∧
  (∀ (s s1 : State) (k : MboxId) (blk : CmdBlock) (c : Cmd), Taken s k 0x0A1 true blk c s1 → fromPf0 c = true →
    bodyReserved blk.bits [] 0 = true → s.recovery = false → s1.recovery = false → s1.pal.act ≠ 4 → s1.pal.act ≠ 3 → s1.pal.actCmd = 0 →
    s1.umb.emerg = false → mayActivate s1 →
    exec (.fwActivate k blk) s = .next { s1 with
      pal := { s1.pal with act := 4, actCmd := c.id, actDeferred := false }, saf := { s1.saf with stopped := true } }) ∧
  (∀ s : State, s.pal.act = 3 → s.umb.emerg = false → mayActivate s → exec .deferredActivationStart s =
    .next { s with pal := { s.pal with act := 4 }, saf := { s.saf with stopped := true } }) ∧
  (∀ s : State, s.pal.act = 4 → coreRestarting s = false → safQuiet s = true → exec .activationDone s =
    .next (safSettle (drainPairs (if s.pal.actDeferred then (swapped s).event none 3 0 else replyTo (swapped s) s.pal.actCmd success)))) ∧
  (∀ s : State, (swapped s).pal.active = 1 - s.pal.active ∧ (swapped s).pal.act = 5 ∧ (swapped s).pal.actStatus = 0 ∧
    (swapped s).pal.banks = s.pal.banks ∧ (swapped s).lake = s.lake ∧ (swapped s).vat = s.vat ∧ (swapped s).sec = s.sec)

/-- R481, R483, R487, R499, R500: what the lifecycle and attestation commands read, draw and burn. LC_QUERY reads the state and SVN_MIN;
LC_NONCE draws the nonce; SVN_COMMIT raises SVN_MIN to the running image's SVN; a token that passes every check moves the lifecycle state
and spends the nonce, and one that does not spends the nonce alone; ATT_CERTS and ATT_QUOTE write certificates and evidence. -/
def Obligations.LifecycleAndAttestation : Prop :=
  FwWordRow 0x0C0 .lcQuery (fun _ _ => True) (fun s _ => { s with rel := { s.rel with guardOp := 9 } })
    (fun s _ => { status := .success, arg := s.sec.lc + s.sec.svnMin * 2 ^ 4 }) ∧
  FwRow 0x0C1 .lcNonce (fun s c _ => fromPf0 c = true ∧ s.sec.entOk = true)
    (fun s c _ => ({ s with freeCtr := s.freeCtr + 1, sec := { s.sec with nonce := some (Config.entropy s.freeCtr) } } : State).hostWrite c.fn
      (c.block + 64) (leBytes 8 (bn (Config.entropy s.freeCtr) 255 192)))
    (fun s _ _ => { status := .success, r0 := bn (Config.entropy s.freeCtr) 63 0, r1 := bn (Config.entropy s.freeCtr) 127 64, r2 := bn (Config.entropy s.freeCtr) 191 128 }) ∧
  FwWordRow 0x0C3 .svnCommit
    (fun s c => fromPf0 c = true ∧ (s.pal.act = 0 ∨ 4 < s.pal.act))
    (fun s _ =>
      let m := max s.sec.svnMin (s.bank s.pal.active).svn
      let t : State := { s with sec := { s.sec with svnMin := m } }
      if (s.bank (1 - s.pal.active)).svn < m then markBank t (1 - s.pal.active) false else t) (fun _ _ => success) ∧
  (∀ token : List Byte, ∀ (s s1 : State) (k : MboxId) (blk : CmdBlock) (c : Cmd), Taken s k 0x0C2 true blk c s1 → fromPf0 c = true →
    s1.pal.act ≠ 4 → s1.pal.actCmd = 0 → bodyReserved blk.bits [] 32 = true → bn blk.bits 31 0 % 64 = 0 → bn blk.bits 31 0 + 7984 ≤ 65536 →
    exec (.lcTransit k blk (some token)) s = .next (safSettle
      (let spent : State := { s1 with sec := { s1.sec with nonce := none } }
       if tokenOk s1 (slice token 0 7984) then
         answers true (transit spent (leAt (slice token 0 7984) 4 1 / 16) (slice (slice token 0 7984) 48 32)) c success
       else answers true spent c { status := .accessDenied }))) ∧
  (∀ (s : State) (pk : List Byte), s.sec.lc = 2 → transit s 3 pk = { s with sec := { s.sec with lc := 3, erasePending := false, owners := s.sec.owners ++ [sha256 pk] } }) ∧
  FwRow 0x0C5 .attCerts (fun _ _ b => bodyReserved b [(5, 0)] 64 = true) (fun s c b => s.hostWrite c.fn (bn b 63 0) (deviceCert s ++ caCert))
    (fun _ _ _ => success) ∧
  (∀ all : State → Cmd → BitVec 32256 → List Byte,
    (∀ s c b, all s c b =
      let es := evEntries s c.fn
      let body := evHeader s c.fn es.length (bn b 319 64) (bn b 575 320) ++ es.flatten
      body ++ slice (Config.slhSign (idSecret s) body) 0 17088) →
    FwRow 0x0C4 .attQuote (fun s _ b => bodyReserved b [(5, 0)] 576 = true ∧ (s.sec.lc = 2 ∨ s.sec.lc = 3 ∨ s.sec.lc = 4) ∧ s.sec.entOk = true)
      (fun s c b => s.hostWrite c.fn (bn b 63 0) (all s c b)) (fun s c b => { status := .success, r0 := (all s c b).length }))

/-- R481, R498: the factory sequence moves BLANK to TEST, and TEST to PROVISIONED with a drawn key and seed; the tamper causes set their
bit and count; a debug request is a tamper cause in PROVISIONED and DEPLOYED alone. -/
def Obligations.FactoryAndTamper : Prop :=
  ∀ (s : State) (cert : List Byte),
    (s.sec.lc = 0 → exec (.factoryJtagSequence cert) s = .next { s with sec := { s.sec with lc := 1 } }) ∧
    (s.sec.lc = 1 → exec (.factoryJtagSequence cert) s = .next { s with
      freeCtr := s.freeCtr + 3,
      sec := { s.sec with lc := 2, cert := some cert, idSeed := some (leBytes 32 (Config.entropy (s.freeCtr + 2)).toNat), idKey := some (slice (leBytes 32 (Config.entropy s.freeCtr).toNat ++ leBytes 32 (Config.entropy (s.freeCtr + 1)).toNat) 0 48) } }) ∧
    (s.sec.lc = 2 ∨ s.sec.lc = 3 → exec .jtagDebugRequest s =
      .next { s with sec := { s.sec with cause := s.sec.cause ||| 0x10#5, tcount := min 65535 (s.sec.tcount + 1) } }) ∧
    (s.sec.lc ≠ 2 → s.sec.lc ≠ 3 → exec .jtagDebugRequest s = .next s) ∧
    exec .lidBreak s = .next (fullResponse s 0) ∧ exec .meshFault s = .next (fullResponse s 1) ∧
    exec .supplyGlitch s = .next (warmReset (zeroSecure (keyErase (noteTamper s 2))) 1 true) ∧
    exec .tamperTemp s = .next (warmReset (zeroSecure (keyErase (noteTamper s 3))) 1 true) ∧
    (∀ cause, s.saf.vstate ≠ 2 → fullResponse s cause =
      let t := zeroSecure (keyErase (noteTamper s cause))
      let t1 : State := { t with sec := { t.sec with salt := none }, saf := { t.saf with images := [], vstate := if t.saf.vstate = 2 then 0 else t.saf.vstate } }
      warmReset t1 1 false) ∧
    (∀ cause, (keyErase (noteTamper s cause)).sec.keys = [])

namespace Sys2Proof.Machine

/-- A cluster is in service or gated. -/
def clusterThere (s : State) (c : Nat) : Prop := (s.cl c).cstate = .inService ∨ (s.cl c).cstate = .gated

/-- The cores that the mask of CL_RUN names start at ENTRY (R142): g1 and g2 from the block, g3 the logical core, g4 how many start. -/
def coresStart (s : State) (c : Cmd) (b : BitVec 32256) : State :=
  let cores := maskCores (bn b 5 0) (bn b 15 8)
  let ctr := if bt b 464 then some (bn b 463 448) else none
  cores.foldl (fun s i => startCore s i (0xFFFF000000000000 + bn b 191 160 + bn b 223 192)
    [(1, BitVec.ofNat 64 (bn b 319 256)), (2, BitVec.ofNat 64 (bn b 383 320)), (3, BitVec.ofNat 64 (i % 8)), (4, BitVec.ofNat 64 cores.length)]
    (.clRun (bn b 447 384) ctr c.fn)) s

end Sys2Proof.Machine

/-- R21, R24, R25, R27, R140: what firmware's operations on a cluster do. A reset stops its work, clears its scratch and leaves it
resetting; a gated cluster comes back in service and its retirements wait no longer; an idle one gates at once and a busy one later; the
end of the grace time stops what runs; a world change is a reclaim that keeps the owner. -/
def Obligations.ClusterOperations : Prop :=
  ∀ (s : State) (c : Nat),
    ((s.rgn (c / 4)).rstate ≠ .resetting → clusterThere s c → ∀ lost, ∃ t, exec (.clusterReset ⟨c, lost⟩) s = .next t ∧ t = resetCluster s c lost ∧
      (t.cl c).cstate = .resetting ∧ (t.eng c false).mism = 0 ∧ ∀ off, off < 2 ^ 22 → mget t.fab.scratch (c * 2 ^ 22 + off) = none) ∧
    ((s.rgn (c / 4)).rstate = .resetting → ∀ lost, exec (.clusterReset ⟨c, lost⟩) s = .next s) ∧
    ((s.cl c).cstate = .resetting → (s.rgn (c / 4)).rstate ≠ .resetting → exec (.clusterResetDone c) s = .next (afterUnit (clusterBack s c))) ∧
    ((s.cl c).cstate = .gated → exec (.clusterPowerUp c) s = .next (s.setCl c { s.cl c with cstate := .inService, gateWanted := false })) ∧
    ((s.cl c).cstate = .inService → clusterBusy s c = false →
      exec (.clusterGate c) s = .next (s.setCl c { s.cl c with cstate := .gated, gateWanted := false })) ∧
    ((s.cl c).cstate = .inService → clusterBusy s c = true → exec (.clusterGate c) s = .next (s.setCl c { s.cl c with gateWanted := true })) ∧
    ((s.cl c).cstate = .resetting → exec (.clusterGate c) s = .next (s.setCl c { s.cl c with gateWanted := true })) ∧
    (∀ w, (s.cl c).cstate = .inService → clusterBusy s c = false → (s.cl c).reclaim = none →
      exec (.worldChange c w) s = .next (reclaimStart s c { newOwner := (s.cl c).owner, cmd := 0, world := w } true)) ∧
    (∀ w, clusterBusy s c = true → exec (.worldChange c w) s = .next s) ∧
    (∀ r, (s.cl c).reclaim = some r → r.stopped = false → underTest s c = false →
      exec (.reclaimGraceEnd c) s = .next (resetCluster (s.setCl c { s.cl c with reclaim := some { r with stopped := true } }) c [])) ∧
    (∀ v, exec (.seedWrite c none v) s = .next (s.setCl c { s.cl c with rs := if v = 0#64 then 0x9E3779B97F4A7C15#64 else v })) ∧
    (∀ v, ∃ x : W64, exec (.seedWrite c (some false) v) s = .next (s.setCl c { s.cl c with rs := if x = 0#64 then 0x9E3779B97F4A7C15#64 else x }) ∧
      x.toNat = bn (s.cl c).rs 63 32 * 2 ^ 32 + bn v 31 0) ∧
    (∀ v, ∃ x : W64, exec (.seedWrite c (some true) v) s = .next (s.setCl c { s.cl c with rs := if x = 0#64 then 0x9E3779B97F4A7C15#64 else x }) ∧
      x.toNat = bn v 31 0 * 2 ^ 32 + bn (s.cl c).rs 31 0)

/-- R141 to R143: CL_ASSIGN to the owner the cluster has is done at once, and to another begins a reclaim; CL_RUN copies the image to
scratch and starts the named cores; CL_STOP stops them as aborted. -/
def Obligations.ClusterCommands : Prop :=
  FwRow 0x0E0 .clAssign
    (fun s c b => fromPf0 c = true ∧ bodyReserved b [(15, 6), (31, 29), (63, 39)] 64 = true ∧ bn b 38 32 ≤ 100 ∧ bt b 28 = false ∧
      s.fnPresent (bn b 27 16) = true ∧ (s.cl (bn b 5 0)).world = false ∧ (s.cl (bn b 5 0)).cstate ≠ .retired ∧
      (s.cl (bn b 5 0)).owner = some (bn b 27 16) ∧ (s.cl (bn b 5 0)).reclaim = none)
    (fun s _ _ => s) (fun _ _ _ => success) ∧
  FwLaterRow 0x0E0 .clAssign
    (fun s c b => fromPf0 c = true ∧ bodyReserved b [(15, 6), (31, 29), (63, 39)] 64 = true ∧ bn b 38 32 ≤ 100 ∧ bt b 28 = false ∧
      s.fnPresent (bn b 27 16) = true ∧ (s.cl (bn b 5 0)).world = false ∧ (s.cl (bn b 5 0)).cstate ≠ .retired ∧
      (s.cl (bn b 5 0)).owner ≠ some (bn b 27 16) ∧ (s.cl (bn b 5 0)).reclaim = none ∧
      ((s.cl (bn b 5 0)).owner = none → 4 ≤ ((fwClusters s).filter (· ≠ bn b 5 0)).length))
    (fun s c b => reclaimStart s (bn b 5 0) { newOwner := some (bn b 27 16), cmd := c.id, world := false } (bn b 38 32 == 0)) ∧
  FwLaterRow 0x0E0 .clAssign
    (fun s c b => fromPf0 c = true ∧ bodyReserved b [(15, 6), (31, 29), (63, 39)] 64 = true ∧ bn b 38 32 ≤ 100 ∧ bt b 28 = true ∧
      bn b 27 16 = 0 ∧ (s.cl (bn b 5 0)).world = false ∧ (s.cl (bn b 5 0)).cstate ≠ .retired ∧ (s.cl (bn b 5 0)).owner ≠ none ∧
      (s.cl (bn b 5 0)).reclaim = none)
    (fun s c b => reclaimStart s (bn b 5 0) { newOwner := none, cmd := c.id, world := false } (bn b 38 32 == 0)) ∧
  (∀ (s s1 s2 s3 s4 : State) (k : MboxId) (blk : CmdBlock) (c : Cmd) (bs : List Byte), Taken s k 0x0E1 true blk c s1 →
    let b := blk.bits
    let cl := bn b 5 0
    imageWaits s blk = false → (s1.cl cl).owner = some c.fn → (s1.cl cl).reclaim = none → clusterThere s1 cl → clRunFieldsOk s1 c b = true →
    (maskCores cl (bn b 15 8)).any (fun i => coreBusy (s1.core i)) = false → runsStep s1 cl = false →
    checkTierN s1 c.req (bn b 127 64) (bn b 159 128) = (s2, none) → checkTierN s2 c.req (bn b 447 384) 128 = (s3, none) →
    agentRead s3 { req := c.req, work := .firmware c.id } (bn b 127 64) (bn b 159 128) = (s4, .ok bs []) →
    exec (.clRun k blk) s = .next (answers true
      (coresStart (flushICaches (scrWrite (powerUp s4 cl) cl (bn b 191 160) bs) cl) c b) c success)) ∧
  FwRow 0x0E2 .clStop (fun s c b => (s.cl (bn b 5 0)).owner = some c.fn ∧ bodyReserved b [(7, 6)] 16 = true)
    (fun s _ b => stopCores s (maskCores (bn b 5 0) (bn b 15 8)) .aborted 2) (fun _ _ _ => success)

/-- R21, R23, R24, R85, R97, R511, R512, R528: resets and retirements of regions and dies, a zeroed page, a system size. A region reset
takes its clusters with it and counts, up to 255; its end opens them again; a second miss of the bound in a row retires the region; a
retired region's pages have moved before its stacks and slices go; a zeroed page leaves the queue without its poison marks. -/
def Obligations.RegionOperations : Prop :=
  ∀ (s : State) (r : Nat), r < 16 →
    (∀ umber lost, (s.rgn r).rstate = .inService → exec (.regionReset r umber lost) s =
      let dirty := (lost.filter (fun i => decide (2 ^ 48 ≤ i))).map (· - 2 ^ 48)
      let s1 := s.setRgn r { s.rgn r with rstate := .resetting, resets := min 255 ((s.rgn r).resets + 1), since := s.fab.time }
      let s2 := [4 * r, 4 * r + 1, 4 * r + 2, 4 * r + 3].foldl (fun s c => if (s.cl c).cstate = .retired then s else resetCluster s c dirty) s1
      let s3 := sliceOff s2 r (lost.filter (fun i => decide (i < 2 ^ 48)))
      .next (afterUnit (if umber then guarded s3 8 else s3))) ∧
    (∀ umber lost, (s.rgn r).rstate = .resetting → (s.rgn r).missed = 0 → exec (.regionReset r umber lost) s = .next s) ∧
    ((s.rgn r).rstate = .resetting → exec (.regionResetDone r) s =
      let m := if s.fab.time - (s.rgn r).since ≤ 5000000 then 0 else (s.rgn r).missed
      let s0 := s.setRgn r { s.rgn r with rstate := .inService, deferred := [], missed := m }
      let s1 := (s.rgn r).deferred.foldl (fun s u => retireUnit s u false [])
        { s0 with lake := { s0.lake with blocked := s0.lake.blocked.filter (fun b => b.1 != r) } }
      let s2 := [4 * r, 4 * r + 1, 4 * r + 2, 4 * r + 3].foldl (fun s c => if (s.cl c).cstate = .resetting then clusterBack s c else s) s1
      let pins := (s2.carm.conns.filter (fun c => c.1 % 16 == r && c.2.tc == 0 && decide (c.2.tier = .near))).map (·.1)
      .next (afterUnit (sendCloses (pins.foldl bringOnDie s2)))) ∧
    (∀ waiting, (s.rgn r).rstate = .resetting → exec (.regionResetTimeout r waiting) s =
      let s0 := dropHeld (s.setRgn r { s.rgn r with missed := (s.rgn r).missed + 1 }) r
      let noted := (s0.lake.blocked.filter (fun b => b.1 == r)).map (·.2)
      let s1 := (waiting.map Work.job ++ noted).foldl failRegion
        { s0 with lake := { s0.lake with blocked := s0.lake.blocked.filter (fun b => b.1 != r) } }
      let s2 := [4 * r, 4 * r + 1, 4 * r + 2, 4 * r + 3].foldl
        (fun s c => failQueued (failQueued s c false .regionUnavailable) c true .regionUnavailable) s1
      .next (afterUnit (if (s.rgn r).missed = 0 then s2 else retireRegion s2 r true))) ∧
    (∀ (t : State) (id : Nat), failRegion t (.job id) = completeJob t id .regionUnavailable 0 0) ∧
    ((s.rgn r).retiring = 1 → (s.rgn r).rstate ≠ .retired → s.lake.moves.any (fun m => decide (m.why = .regionRetire r)) = true →
      exec (.regionRetireDone r) s = .next s) ∧
    ((s.rgn r).retiring = 1 → (s.rgn r).rstate ≠ .retired → s.lake.moves = [] → ∃ t, exec (.regionRetireDone r) s = .next (afterUnit (answerPlanned t)) ∧
      (t.rgn r).rstate = .retired ∧ (mgetD t.rel.verd r {}).vstate = 3) ∧
    (∀ stack die, stack < 32 → die < 14 → exec (.dieRetirement stack die) s = .next (afterUnit (retireUnit s (dieUnit stack die) true []))) ∧
    (s.umb.sizePending = true → s.umb.phase = 7 → ∀ t, applySize s s.umb.sizeLast = some t →
      exec .systemSizeApply s = .next { t with umb := { t.umb with sizePending := false, sizeRefused := false } }) ∧
    (∀ pp rest, s.lake.zeroing = pp :: rest → s.lake.degraded = [] → s.umb.sizeRefused = false → exec .pageZeroingDone s =
      .next { s with lake := { s.lake with zeroing := rest, poison := s.lake.poison.filter (fun p => decide (p.1 / 32768 ≠ pp)), badSym := s.lake.badSym.filter (fun p => decide (p.1 / 32768 ≠ pp)) } })

namespace Sys2Proof.Machine

/-- A doorbell of R115 that R116 does not drop: 64 bits wide, reserved bits 0, on the page that the ring of class `cls` names, by the
function that owns it, with its generation. -/
def Rings (s : State) (fn page cls dbPage : Nat) (v : W64) : Prop :=
  pageReached s fn page = true ∧ bn v 19 17 = 0 ∧ bn v 63 60 = 0 ∧ dbClass v = cls ∧ (s.slot cls (dbIndex v)).live = true ∧
  (s.slot cls (dbIndex v)).gen = dbGen v ∧ (s.slot cls (dbIndex v)).owner = fn ∧ dbPage = page

/-- A job of opcode `op` that has started and not acted. -/
def Started (s : State) (id op : Nat) (j : Job) : Prop := mget s.vat.jobs id = some j ∧ dOpcode j.desc = op ∧ j.phase = .started

/-- The counter set that a descriptor's check found for a counter is the one that stands there now (R109, R120). -/
def setStands (s : State) (j : Job) (ctr : Nat) (found : Option (Nat × Nat)) : Prop := found.isSome = true ∧ ctrSetGen s j.fn ctr = found

/-- A job of opcode `op` that runs. -/
def Running (s : State) (id op : Nat) (j : Job) : Prop := mget s.vat.jobs id = some j ∧ dOpcode j.desc = op ∧ j.phase = .running

/-- The descriptor at the head of a work ring has been read, and it is free of the errors of R120: those checks are made once, and a
descriptor that waits has passed them. `g` is the entry with the counter sets that the checks found. -/
def HeadReady (s : State) (ring : Nat) (w : WorkRing) (f g : Fetched) (rest : List Fetched) (d : Desc) : Prop :=
  mget s.vat.work ring = some w ∧ w.queue = f :: rest ∧ f.desc = some d ∧
  ((f.waiting = true ∧ g = f) ∨ (f.waiting = false ∧ headCheck s (s.slot 1 ring).owner d = none ∧ g = pinSets s (s.slot 1 ring).owner d f))

/-- The descriptor at the head of a ring waits. -/
def headWaits (s : State) (ring : Nat) (w : WorkRing) (g : Fetched) (rest : List Fetched) : State :=
  s.setWork ring { w with queue := { g with waiting := true } :: rest }

end Sys2Proof.Machine

/-- R114 to R116, R132: a work doorbell moves the tail to PTR, counted on from the tail, and is dropped when it would leave more than
size − 1 entries to fetch; a completion doorbell consumes entries, and re-arms; any other write to the pages is dropped and counted. -/
def Obligations.Doorbells : Prop :=
  ∀ (s : State) (fn page : Nat) (v : W64),
    (∀ w, mget s.vat.work (dbIndex v) = some w → Rings s fn page 1 w.dbPage v → dbArm v = false →
      ∃ tail, tail % 2 ^ w.sizeLog2 = dbPtr v % 2 ^ w.sizeLog2 ∧ w.tail ≤ tail ∧ tail < w.tail + 2 ^ w.sizeLog2 ∧
        (tail < nextFetch s (dbIndex v) w + 2 ^ w.sizeLog2 →
          exec (.workDoorbell fn page true v) s = .next (s.setWork (dbIndex v) { w with tail := tail })) ∧
        (nextFetch s (dbIndex v) w + 2 ^ w.sizeLog2 ≤ tail → exec (.workDoorbell fn page true v) s = .next (s.count VAT_DB_DROP))) ∧
    (∀ q, mget s.saf.queues (dbIndex v) = some q → Rings s fn page 4 q.dbPage v → dbArm v = false →
      ∃ tail, tail % 2 ^ q.sizeLog2 = dbPtr v % 2 ^ q.sizeLog2 ∧ q.tail ≤ tail ∧ tail < q.tail + 2 ^ q.sizeLog2 ∧
        (tail < sqNext s (dbIndex v) q + 2 ^ q.sizeLog2 →
          exec (.workDoorbell fn page true v) s = .next (s.setSq (dbIndex v) { q with tail := tail })) ∧
        (sqNext s (dbIndex v) q + 2 ^ q.sizeLog2 ≤ tail → exec (.workDoorbell fn page true v) s = .next (s.count VAT_DB_DROP))) ∧
    (pageReached s fn page = true → exec (.workDoorbell fn page false v) s = .next (s.count VAT_DB_DROP) ∧
      exec (.completionDoorbell fn page false v) s = .next (s.count VAT_DB_DROP)) ∧
    (pageReached s fn page = true → dbArm v = true → exec (.workDoorbell fn page true v) s = .next (s.count VAT_DB_DROP)) ∧
    (∀ q h, mget s.vat.comp (dbIndex v) = some q → Rings s fn page 2 q.dbPage v → dbArm v = false →
      h = q.head + (dbPtr v + 2 ^ q.sizeLog2 - q.head % 2 ^ q.sizeLog2) % 2 ^ q.sizeLog2 →
      (h ≤ q.written - q.held.length → exec (.completionDoorbell fn page true v) s =
        .next (drainLate (dbIndex v) s.vat.late.length (s.setComp (dbIndex v) { q with head := h }))) ∧
      (q.written - q.held.length < h → exec (.completionDoorbell fn page true v) s = .next (s.count VAT_DB_DROP))) ∧
    (∀ q, mget s.vat.comp (dbIndex v) = some q → Rings s fn page 2 q.dbPage v → dbArm v = true → q.held = [] →
      q.head ≤ q.written → q.written < q.head + 2 ^ q.sizeLog2 → dbPtr v = q.written % 2 ^ q.sizeLog2 →
      exec (.completionDoorbell fn page true v) s = .next (drainLate (dbIndex v) s.vat.late.length
        (s.setComp (dbIndex v) { q with head := q.written, armed := true, p := 0, firstAt := none })))

/-- R118, R120 to R122, R127, R131: what happens to the descriptors of a work ring. A fetch reserves a completion slot and reads 64 bytes
of the ring's next entry; a failed read halts the ring; the head is refused, waits on its counter, or starts as a job, and a waiting one
starts when its counter has come; a fired trigger entry starts when it gets a slot. TARGET is checked again as the work starts (log 143,
the model's reading). -/
def Obligations.DescriptorsOfRings : Prop :=
  (∀ (s t : State) (cq ring : Nat) (q : CompRing) (w : WorkRing), mget s.vat.comp cq = some q → fetchTurn s cq = some ring →
    mget s.vat.work ring = some w → q.free ≠ 0 → slotsSpoken s cq = false → w.queue.find? (unmade s ring) = none →
    hostRead s (s.slot 1 ring).owner (.desc ring w.nextSeq) [(w.base + 64 * (w.fetch % 2 ^ w.sizeLog2), 64)] = some t →
    exec (.descriptorFetch cq) s =
      let e : Fetched := { slot := w.fetch % 2 ^ w.sizeLog2, seq := w.nextSeq }
      let t1 := t.setWork ring { w with fetch := w.fetch + 1, nextSeq := w.nextSeq + 1, queue := w.queue ++ [e] }
      .next (t1.setComp cq { q with reserved := q.reserved + 1, lastFetch := ring })) ∧
  (∀ (s : State) (cq ring : Nat) (q : CompRing), mget s.vat.comp cq = some q → fetchTurn s cq = some ring → q.free = 0 →
    exec (.descriptorFetch cq) s = .next s) ∧
  (∀ (s : State) (ring : Nat) (w : WorkRing) (f : Fetched), mget s.vat.work ring = some w → w.queue = [f] → f.failed = true →
    exec (.descriptorReadError ring) s = .next (writeEntry (s.setWork ring { w with queue := [], halted := true }) w.cq
      (mkEntry false .hostDmaError 0 0 0 f.slot ring (s.slot 1 ring).gen 0) false)) ∧
  (∀ (s : State) (ring : Nat) (w : WorkRing) (f : Fetched) (rest : List Fetched) (d : Desc) (st : Status), mget s.vat.work ring = some w →
    w.queue = f :: rest → f.desc = some d → f.waiting = false → headCheck s (s.slot 1 ring).owner d = some st →
    exec (.descriptorStart ring) s = .next (report (popHead s ring) ring (s.slot 1 ring).gen f.slot f.posted d st 0 0)) ∧
  (∀ (s : State) (ring : Nat) (w : WorkRing) (f g : Fetched) (rest : List Fetched) (d : Desc), HeadReady s ring w f g rest d →
    (dFence d = true → earlierOpen s ring g.seq = true → exec (.descriptorStart ring) s = .next (headWaits s ring w g rest)) ∧
    (dFence d = false → dWait d = true → ctrReached (s.ctr (dWaitCtr d)) (dCond d) = false →
      exec (.descriptorStart ring) s = .next (headWaits s ring w g rest)) ∧
    (dFence d = false → dWait d = true → ctrReached (s.ctr (dWaitCtr d)) (dCond d) = true → dTrig d = false → f.waiting = true →
      targetCheck s (s.slot 1 ring).owner d = none →
      exec (.countWaitSatisfied ring) s = .next (startJob (popHead s ring) ring (s.slot 1 ring).gen g d)) ∧
    (dFence d = false → dWait d = false → dTrig d = true →
      exec (.descriptorStart ring) s = .next (parkDesc (popHead s ring) ring (s.slot 1 ring).gen w g d)) ∧
    (dFence d = false → dWait d = false → dTrig d = false → targetCheck s (s.slot 1 ring).owner d = none → ∃ t,
      exec (.descriptorStart ring) s = .next t ∧ t = startJob (popHead s ring) ring (s.slot 1 ring).gen g d ∧
      t.vat.nextJob = s.vat.nextJob + 1 ∧ mget t.vat.work ring = some { w with queue := rest } ∧ t.fab = s.fab ∧ t.lake = s.lake)) ∧
  (∀ (s : State) (cq : Nat) (q : CompRing) (e : Parked) (d : Desc), mget s.vat.comp cq = some q →
    s.vat.fired.find? (fun e => cqOf s e.ring == cq) = some e → q.free ≠ 0 → e.item.desc = some d →
    let s1 := reserve { s with vat := { s.vat with fired := s.vat.fired.erase e } } cq
    (targetCheck s (s.slot 1 e.ring).owner d = none → exec (.triggerEntryRun cq) s = .next (startJob s1 e.ring e.ringGen e.item d)) ∧
    (∀ st, targetCheck s (s.slot 1 e.ring).owner d = some st →
      exec (.triggerEntryRun cq) s = .next (report s1 e.ring e.ringGen e.item.slot e.item.posted d st 0 0))) ∧
  (∀ (s : State) (cq : Nat) (q : CompRing), mget s.vat.comp cq = some q → q.armed = true → 1 ≤ q.p → q.modTime ≠ 0 → q.modCount ≠ 0 →
    exec (.modTimeExpiry cq) s =
      .next ((s.setComp cq { q with armed := false, p := 0, firstAt := none }).msix (cqSlot s cq).owner q.vector))

/-- R120, R128, R133: NOP completes; CTR_ADD and CTR_SET change the counter, and their RESULT is the value before; a codec job waits for
its codec, and its end reports the outcome with the bytes written. R125: the end of a job takes it from the table, counts its INC on
success, and writes an entry. -/
def Obligations.CounterAndCodecJobs : Prop :=
  (∀ (s : State) (id : Nat) (j : Job), Started s id 0x00 j → exec (.nop id) s = .next (completeJob s id .success 0 0)) ∧
  (∀ (s : State) (id : Nat) (j : Job), Started s id 0x01 j → setStands s j (dCtr j.desc) j.bodySet → exec (.ctrAdd id) s =
    let c := bn j.desc 207 192
    .next (completeJob (s.putCtr c (s.ctr c + BitVec.ofNat 64 (bn j.desc 319 256))) id .success 0 (s.ctr c).toNat)) ∧
  (∀ (s : State) (id : Nat) (j : Job), Started s id 0x02 j → setStands s j (dCtr j.desc) j.bodySet → exec (.ctrSet id) s =
    let c := bn j.desc 207 192
    .next (completeJob (s.putCtr c (BitVec.ofNat 64 (bn j.desc 319 256))) id .success 0 (s.ctr c).toNat)) ∧
  (∀ (s : State) (id : Nat) (j : Job), Started s id 0x02 j → (j.bodySet.isSome && ctrSetGen s j.fn (dCtr j.desc) == j.bodySet) = false →
    exec (.ctrSet id) s = .next (completeJob s id .accessDenied 0 0)) ∧
  (∀ (s : State) (id c : Nat) (j : Job), Started s id 0x08 j → codecStart s j.desc (pickEngine s j.fn (cCluster j.desc) true) = .inl c →
    exec (.codec id) s = .next (acceptRing (s.setJob id { j with phase := .queued, unit := some c }) c true)) ∧
  (∀ (s : State) (id : Nat) (j : Job) (st : Status), Started s id 0x08 j →
    codecStart s j.desc (pickEngine s j.fn (cCluster j.desc) true) = .inr st → exec (.codec id) s = .next (completeJob s id st 0 0)) ∧
  (∀ (s : State) (id c : Nat) (j : Job), Running s id 0x08 j → j.unit = some c → (codecRun s id j (s.cl c).rs).wait = none →
    exec (.codecJobDone id) s =
      let r := codecRun s id j (s.cl c).rs
      let t := r.s.setCl c { r.s.cl c with rs := r.rs }
      .next (endEngineJob (if r.malfCount = 0 then t else t.trouble (engUnit c true) .ue r.malfCount) id c true r.outcome.1 r.outcome.2 r.written)) ∧
  (∀ (s : State) (id : Nat) (j : Job) (st : Status) (detail result : Nat), mget s.vat.jobs id = some j → writesOut s (.job id) = false →
    mget s.ap.failed (4 * id) = none → j.core = none → j.unit = none → ∃ s1 : State,
      (dInc j.desc = false ∨ st.ok = false → completeJob s id st detail result = report s1 j.ring j.ringGen j.slot j.posted j.desc st detail result) ∧
      (dInc j.desc = true → st.ok = true → j.firmware = false → setStands s j (dIncCtr j.desc) j.incSet → completeJob s id st detail result =
        report (s1.addCtr (dIncCtr j.desc) 1#64) j.ring j.ringGen j.slot j.posted j.desc st detail result) ∧
      mget s1.vat.jobs id = none ∧ (∀ k, k ≠ id → mget s1.vat.jobs k = mget s.vat.jobs k) ∧ s1.vat.comp = s.vat.comp ∧
      s1.vat.ctr = s.vat.ctr ∧ s1.fab = s.fab ∧ s1.lake.mem = s.lake.mem)

/-- R162, R166, R167, R174, R175, R177, R178: a matrix job that passes its checks waits for the engine it selects, and one that fails
completes with the status and the operand; the queue accepts a waiting job while it has room; the end of a job writes its counts and
reports tiles and skipped blocks; a residue mismatch is counted and remembered with its tile, a second one of the same tile starts the
pattern test, and the row or column that the pattern test names is
replaced by the first spare that is free. -/
def Obligations.MatrixJobsAndRepair : Prop :=
  ∀ (s : State) (id c : Nat) (j : Job),
    (∀ t, Started s id 0x60 j → pickEngine s j.fn (mCluster j.desc) false = .inl c → matCheck s (j.matAgent id c) j.desc c = (t, none) →
      exec (.matmul id) s = .next (acceptRing (t.setJob id { j with phase := .queued, unit := some c }) c false)) ∧
    (∀ t, Started s id 0x61 j → pickEngine s j.fn (mCluster j.desc) false = .inl c → matCheck s (j.matAgent id c) j.desc c = (t, none) →
      exec (.gfMatmul id) s = .next (acceptRing (t.setJob id { j with phase := .queued, unit := some c }) c false)) ∧
    (∀ t st detail, Started s id 0x60 j → pickEngine s j.fn (mCluster j.desc) false = .inl c →
      matCheck s (j.matAgent id c) j.desc c = (t, some (st, detail)) →
      exec (.matmul id) s = .next ((completeJob t id st detail 0).count (IND_JOBS c))) ∧
    (∀ st, Started s id 0x60 j → pickEngine s j.fn (mCluster j.desc) false = .inr st →
      exec (.matmul id) s = .next (completeJob s id st 0 0)) ∧
    (∀ codec rest, engJobs s c codec .queued = (id, j) :: rest → (s.cl c).cstate = .inService → underTest s c = false →
      (s.vat.jobs.filter (fun p => p.2.onEngine c codec && p.2.accepted && p.2.core.isNone)).length < 8 →
      exec (.engineAccept c codec) s = .next (startEngine (s.setJob id { j with phase := .accepted }) c codec)) ∧
    (∀ codec, (engJobs s c codec .running).isEmpty = false → startEngine s c codec = s) ∧
    (mget s.vat.jobs id = some j → j.unit = some c → j.isMatrix = true → j.phase = .running → (s.eng c false).mism < 2 →
      let tcols := tileCols (s.eng c false)
      let r := matRun s (j.matAgent id c) j.desc tcols (s.cl c).rs (matTiles j.desc tcols)
      r.wait = none → exec (.indigoJobDone id) s =
        let s0 := r.s.setCl c { r.s.cl c with rs := r.rs }
        let s1 := if r.malf = 0 then s0 else s0.trouble (engUnit c true) .ue r.malf
        let s2 := (((s1.count (IND_STEPS c) r.steps).count (IND_SKIP c) r.skipped).count (IND_S24_HIT c) r.hits).count (IND_S24_MISS c) r.misses
        .next (endEngineJob s2 id c false r.outcome.1 r.outcome.2 (min (2 ^ 32 - 1) r.tiles + min (2 ^ 32 - 1) r.skipped * 2 ^ 32))) ∧
    (∀ tile, (engJobs s c false .running).isEmpty = false → ∃ m, exec (.residueMismatch ⟨c, tile⟩) s =
      .next (((s.count (IND_RESIDUE c)).trouble (engUnit c false) .ue).setEng c false { s.eng c false with tile := tile, mism := m }) ∧
      ((s.eng c false).mism = 0 → m = 1) ∧ ((s.eng c false).mism = 1 → (s.eng c false).tile = tile → m = 2) ∧
      ((s.eng c false).mism = 1 → (s.eng c false).tile ≠ tile → m = 1) ∧ ((s.eng c false).mism = 2 → m = 2)) ∧
    (∀ index, index < 64 → 2 ≤ (s.eng c false).mism →
      ((s.eng c false).col0 = none → exec (.arrayPatternTestDone c true index) s =
        .next ((s.setEng c false { s.eng c false with mism := 0, col0 := some index }).note (engUnit c false))) ∧
      (∀ a, (s.eng c false).col0 = some a → (s.eng c false).col1 = none → exec (.arrayPatternTestDone c true index) s =
        .next ((s.setEng c false { s.eng c false with mism := 0, col1 := some index }).note (engUnit c false))) ∧
      ((s.eng c false).row0 = none → exec (.arrayPatternTestDone c false index) s =
        .next ((s.setEng c false { s.eng c false with mism := 0, row0 := some index }).note (engUnit c false))) ∧
      (∀ a b, (s.eng c false).row0 = some a → (s.eng c false).row1 = some b → exec (.arrayPatternTestDone c false index) s =
        let t := retireEngine (s.setEng c false { s.eng c false with mism := 0 }) c false
        .next (if t.retired (engUnit c false) && !s.retired (engUnit c false) then t.trouble (engUnit c false) .fx else t)))

/-- R490, R491, R493, R494: a cipher job needs the direction of its key slot, and an empty vector is refused; a job whose data lie in the
device starts at once; its end writes the blocks through the cipher, the compressed state, or drawn entropy, and reports the bytes; a
failed health test ends the jobs that draw entropy, and the retest decides whether the source may be used. -/
def Obligations.CipherHashAndEntropyJobs : Prop :=
  ∀ (s : State) (id : Nat) (j : Job),
    (∀ k, Started s id 0x70 j → mget s.sec.keys (hIndex (dTarget j.desc)) = some k →
      (k.enc = false → exec (.aesEnc id) s = .next (completeJob (s.count MORD_KEY_DENY) id .accessDenied 0 0)) ∧
      (k.enc = true → xBlocks j.desc = 0 → exec (.aesEnc id) s = .next (completeJob s id .emptyVector 0 0)) ∧
      (k.enc = true → xBlocks j.desc ≠ 0 → xSHost j.desc = false → exec (.aesEnc id) s = .next (s.setJob id { j with phase := .running }))) ∧
    (∀ k, Started s id 0x71 j → mget s.sec.keys (hIndex (dTarget j.desc)) = some k →
      (k.dec = false → exec (.aesDec id) s = .next (completeJob (s.count MORD_KEY_DENY) id .accessDenied 0 0)) ∧
      (k.dec = true → xBlocks j.desc ≠ 0 → xSHost j.desc = false → exec (.aesDec id) s = .next (s.setJob id { j with phase := .running }))) ∧
    (Started s id 0x74 j → xBlocks j.desc ≠ 0 → xSHost j.desc = false → xDHost j.desc = false →
      exec (.sha256 id) s = .next (s.setJob id { j with phase := .running })) ∧
    (Started s id 0x76 j → xBlocks j.desc ≠ 0 →
      (s.sec.entOk = true → exec (.entropy id) s = .next (s.setJob id { j with phase := .running })) ∧
      (s.sec.entOk = false → exec (.entropy id) s = .next (completeJob s id .unitFault 0 0))) ∧
    (∀ k s1 s2 bs w, Running s id 0x70 j → mget s.sec.keys (hIndex (dTarget j.desc)) = some k →
      mordantRead s id j (xSHost j.desc) (xSrc j.desc) (16 * xBlocks j.desc) = (s1, some (bs, none)) →
      mordantWrite s1 id j (xDHost j.desc) (xDst j.desc) (cipherBlocks (aesEnc k.key) (bs.take (bs.length / 16 * 16))) = (s2, w, none) →
      exec (.cipherJobDone id) s = .next (completeJob
        (s2.count MORD_AES_BLKS ((cipherBlocks (aesEnc k.key) (bs.take (bs.length / 16 * 16))).length / 16)) id .success 0 w)) ∧
    (∀ k s1 s2 bs w, Running s id 0x71 j → mget s.sec.keys (hIndex (dTarget j.desc)) = some k →
      mordantRead s id j (xSHost j.desc) (xSrc j.desc) (16 * xBlocks j.desc) = (s1, some (bs, none)) →
      mordantWrite s1 id j (xDHost j.desc) (xDst j.desc) (cipherBlocks (aesDec k.key) (bs.take (bs.length / 16 * 16))) = (s2, w, none) →
      exec (.cipherJobDone id) s = .next (completeJob
        (s2.count MORD_AES_BLKS ((cipherBlocks (aesDec k.key) (bs.take (bs.length / 16 * 16))).length / 16)) id .success 0 w)) ∧
    (∀ s1 s2 s3 msg st w, Running s id 0x74 j → xSHost j.desc = false → xDHost j.desc = false →
      mordantRead s id j false (xSrc j.desc) (64 * xBlocks j.desc) = (s1, some (msg, none)) →
      mordantRead s1 id j false (xDst j.desc) 32 = (s2, some (st, none)) →
      mordantWrite s2 id j false (xDst j.desc) (shaBlocks st msg) = (s3, w, none) →
      exec (.cipherJobDone id) s = .next (completeJob (s3.count MORD_SHA_BLKS (xBlocks j.desc)) id .success 0 0)) ∧
    (∀ s2 w, Running s id 0x76 j →
      mordantWrite (drawBlocks (xBlocks j.desc) s).1 id j (xDHost j.desc) (xDst j.desc) (drawBlocks (xBlocks j.desc) s).2 = (s2, w, none) →
      exec (.cipherJobDone id) s = .next (completeJob s2 id .success 0 w)) ∧
    (∀ n, (drawBlocks (n + 1) s).1 = (drawBlocks n { s with freeCtr := s.freeCtr + 1 }).1 ∧
      (drawBlocks (n + 1) s).2 = leBytes 16 (Config.entropy s.freeCtr).toNat ++ (drawBlocks n { s with freeCtr := s.freeCtr + 1 }).2) ∧
    exec (.entropyHealthRetest true) s = .next { s with sec := { s.sec with entOk := true } } ∧
    exec (.entropyHealthRetest false) s = .next (({ s with sec := { s.sec with entOk := false } } : State).count MORD_ENT_FAIL) ∧
    (s.vat.jobs.filter (fun p => decide (dOpcode p.2.desc = 0x76)) = [(id, j)] → exec .continuousHealthTestFailure s =
      .next (completeJob { s.count MORD_ENT_FAIL with sec := { s.sec with entOk := false } } id .unitFault 0 0))

namespace Sys2Proof.Machine

/-- CH_CREATE of class `cls`: firmware takes it, its word names the class, its parameters pass, the preparation gives `x` and a state, the
quota has room, and a slot is found. Then the channel is built in the opened slot, and the reply gives the new handle as RESULT 0. Where
the quota has no room the command ends with out-of-resources. `duty` is the Palette core that runs it (R443). -/
def ChOpen {α : Type} (cls : Nat) (row : MboxId → CmdBlock → Instr) (ok : State → Cmd → BitVec 256 → Prop)
    (pre : State → Cmd → BitVec 256 → α → State → Prop) (place : State → BitVec 256 → α → Nat → Bool) (use : BitVec 256 → Nat)
    (built : State → Cmd → BitVec 256 → α → Nat → State → Reply → Prop) (duty : Nat := dutyCore 0x010) : Prop :=
  ∀ (s s1 s2 : State) (k : MboxId) (blk : CmdBlock) (c : Cmd) (x : α), Taken s k 0x010 true blk c s1 duty → createWord blk.bits cls = true →
    ok s1 c (params blk.bits) → pre s1 c (params blk.bits) x s2 →
    (quotaOk s2 c.req cls (use (params blk.bits)) = false → exec (row k blk) s = .next (answers true s2 c { status := .outOfResources })) ∧
    (quotaOk s2 c.req cls (use (params blk.bits)) = true → ∀ (n : Nat) (t : State) (r : Reply),
      newSlot s2 cls (place s1 (params blk.bits) x) = some n → built (openSlot s2 cls n c.fn) c (params blk.bits) x n t r →
      exec (row k blk) s = .next (answers true t c { r with r0 := handleOf t cls n }))

/-- CH_MODIFY of class `cls`: firmware takes it and its handle names a channel of the class that the sender may change. -/
def ChChange (cls : Nat) (row : MboxId → CmdBlock → Instr) (ok : State → Cmd → BitVec 32256 → Nat → State → Reply → Prop) : Prop :=
  ∀ (s s1 t : State) (k : MboxId) (blk : CmdBlock) (c : Cmd) (n : Nat) (r : Reply), Taken s k 0x012 true blk c s1 →
    bodyHandle s1 c [cls] blk.bits = .inl n → ok s1 c blk.bits n t r → exec (row k blk) s = .next (answers true t c r)

def noPre (s : State) (_ : Cmd) (_ : BitVec 256) (_ : Unit) (t : State) : Prop := t = s
def anySlot {α : Type} (_ : State) (_ : BitVec 256) (_ : α) (_ : Nat) : Bool := true
def oneUnit (_ : BitVec 256) : Nat := 1

end Sys2Proof.Machine

/-- R91, R96, R111 to R113, R129, R130, R183, R205, R228, R252 to R254, R403, R488: CH_CREATE opens a slot and builds the channel of its
class in it: work ring, completion ring (its entries zeroed in host memory), counter set (its counters at 0), trigger list, memory
region, storage queue, dispatch queue, reduction group, optimizer program, key slot, connection. R395: within the quota. -/
def Obligations.ChannelsCreated : Prop :=
  ChOpen 1 .chCreateWorkRing (fun _ c p => ringFieldsOk p c.fn = true ∧ zeroBits p 255 224 = true ∧ bn p 223 160 = 0)
    (fun s c p cq t => t = s ∧ checkHandle s c.req (BitVec.ofNat 64 (bn p 159 96)) [2] = .inl cq) anySlot oneUnit
    (fun s _ p (cq : Nat) n t r => r = success ∧
      t = s.setWork n { base := bn p 63 0, sizeLog2 := bn p 68 64, dbPage := bn p 87 72, cq := cq, tlist := 0#64 }) ∧
  ChOpen 2 .chCreateCompletionRing (fun s c p => compFieldsOk p c.fn = true ∧ s.master c.fn = true) noPre anySlot oneUnit
    (fun s c p _ n t r => r = success ∧ ∃ s1, takeShadow s (32 * 2 ^ bn p 68 64) = some s1 ∧
      let q : CompRing := { base := bn p 63 0, sizeLog2 := bn p 68 64, dbPage := bn p 87 72, vector := bn p 106 96, modCount := bn p 120 112, modTime := bn p 143 128 }
      t = (s1.setComp n q).hostWrite c.fn (bn p 63 0) (List.replicate (32 * 2 ^ bn p 68 64) 0#8)) ∧
  ChOpen 0xA .chCreateCounterSet (fun _ _ p => zeroBits p 11 11 = true ∧ zeroBits p 255 18 = true ∧ 1 ≤ bn p 10 0 ∧ bn p 10 0 ≤ 1024)
    (fun s _ p first t => t = s ∧ placeCtrs s (bn p 17 12) (bn p 10 0) = some first) (fun _ _ (first : Nat) i => i == first) (fun p => bn p 10 0)
    (fun s _ p _ n t r => r = success ∧ t.vat.sets = mset s.vat.sets n (bn p 10 0) ∧ (∀ e, e ∈ t.vat.ctr ↔ e ∈ s.vat.ctr ∧ (e.1 < n ∨ n + bn p 10 0 ≤ e.1)) ∧
      t = { s with vat := { s.vat with sets := mset s.vat.sets n (bn p 10 0), ctr := s.vat.ctr.filter (fun e => decide (e.1 < n) || decide (n + bn p 10 0 ≤ e.1)) } }) ∧
  ChOpen 0xB .chCreateTriggerList (fun s _ p => zeroBits p 31 5 = true ∧ zeroBits p 255 53 = true ∧ 4 ≤ bn p 4 0 ∧ bn p 4 0 ≤ 20 ∧ 1 ≤ bn p 52 32 ∧
      bn p 52 32 ≤ 1048576 ∧ (s.vat.trig.map (fun t => t.2.entries)).sum + bn p 52 32 ≤ 4194304) noPre anySlot oneUnit
    (fun s _ p _ n t r => r = success ∧ ∃ s1, takeFwRegion s (.triggers n) (cdiv (64 * bn p 52 32 + 8 * 2 ^ bn p 4 0) pageBytes) = some s1 ∧
      t = { s1 with vat := { s1.vat with trig := mset s1.vat.trig n { tagsLog2 := bn p 4 0, entries := bn p 52 32 } } }) ∧
  ChOpen 8 .chCreateMemoryRegion (fun s c p => mrFieldsOk p = true ∧ (mrWin p = true → (mrOff p + mrPages p) * pageBytes ≤ winSize) ∧
      (mrWorld p = true → c.req.secure = true) ∧ (mrProt p = true → protOk s p c.fn = true) ∧ anyDegraded s = false) noPre anySlot mrPages
    (fun s c p _ n t r => makeRegion p c.fn s n = .inr (t, r)) ∧
  ChOpen 4 .chCreateStorageQueue (fun s c p => sqFieldsOk p c.fn = true ∧ hasQid s c.fn (bn p 175 160) = false ∧
      (bn p 175 160 ≠ 0 → hasQid s c.fn 0 = true) ∧ s.master c.fn = true) noPre anySlot oneUnit
    (fun s c p _ n t r => r = success ∧ ∃ s1, takeShadow s (16 * 2 ^ bn p 132 128) = some s1 ∧
      let q : CompRing := { base := bn p 127 64, sizeLog2 := bn p 132 128, dbPage := bn p 151 136, vector := bn p 186 176, modCount := bn p 200 192, modTime := bn p 223 208 }
      let w : SQueue := { base := bn p 63 0, sizeLog2 := bn p 132 128, dbPage := bn p 151 136, qid := bn p 175 160 }
      t = ((s1.setComp (cqKey n) q).setSq n w).hostWrite c.fn (bn p 127 64) (List.replicate (16 * 2 ^ bn p 132 128) 0#8)) ∧
  ChOpen 5 .chCreateDispatchQueue (fun _ _ p => zeroBits p 255 64 = true) (fun s c p cfg t => loadWcfg s c.req (bn p 63 0) = (t, .inl cfg)) anySlot oneUnit
    (fun s _ _ cfg n t r => r = success ∧ t = s.setWq n { cfg := cfg }) ∧
  ChOpen 6 .chCreateReductionGroup (fun _ _ p => zeroBits p 255 64 = true) (fun s c p cfg t => loadBcfg s c.req none (bn p 63 0) = (t, .inl cfg)) anySlot oneUnit
    (fun s _ _ cfg n t r => r = success ∧ t = zeroRes (s.setBg n { cfg := cfg }) cfg.rec_ false) ∧
  ChOpen 7 .chCreateOptimizerProgram (fun _ _ p => optParamsOk p = true)
    (fun s c p (len : Nat) t => (bn p 63 0 = 0 ∧ t = s ∧ len = 0) ∨ (bn p 63 0 ≠ 0 ∧ checkTierN s c.req (bn p 63 0) 4 = (t, none) ∧ len = imageLen t (bn p 63 0 % 2 ^ 48)))
    anySlot oneUnit
    (fun s _ p len n t r => r = success ∧ t = { s with par := { s.par with
      progs := mset s.par.progs n { code := bn p 63 0, len := len, lib := bn p 67 64, clmask := BitVec.ofNat 64 (bn p 191 128) } } }) ∧
  (∀ (world : Bool) (data : Option (List Byte)), ChOpen 9 (fun k b => .chCreateKeySlot k b data) (fun s c p => keyFieldsOk p = true ∧ c.req.secure = world ∧
      (world = false → s.sec.lc ≠ 0 ∧ s.sec.lc ≠ 1 ∧ s.sec.lc ≠ 4))
    (fun s c p key t => makeKey s c p data = (t, .inl key)) (fun _ _ _ i => if world then decide (i < 64) else decide (64 ≤ i)) oneUnit
    (fun s _ p key n t r => r = success ∧
      let x : KeySlot := { world := world, ksize := bn p 65 64, enc := bt p 68, dec := bt p 69, unwrap := bt p 70, key := key }
      t = { s with sec := { s.sec with keys := mset s.sec.keys n x } }) 0) ∧
  ChOpen 3 .chCreateConnection (fun s c p => connFieldsOk s c.fn p = true ∧ (bn p 54 52 = 0 → pinnedAll s < 4096)) (fun s _ _ (_ : Unit) t => spillOne s = some t)
    (fun s p _ i => bn p 54 52 != 0 || decide (pinnedOn s (i % 16) < 256)) oneUnit
    (fun s _ p _ n t r => r = success ∧ t = bringOnDie (beginConn s n (connOf p)) n)

/-- R93: what a new memory region holds. R104 to R107: the handle of a new channel is the one that the check accepts for its owner. -/
def Obligations.NewRegionsAndHandles : Prop :=
  (∀ (s t : State) (p : BitVec 256) (owner n : Nat) (r : Reply), makeRegion p owner s n = .inr (t, r) → ∃ d, mget t.lake.regions n = some d ∧
    d.pages = mrPages p ∧ d.owner = owner ∧ d.place = mrPlace p ∧ d.rRd = bt p 2 ∧ d.rWr = bt p 3 ∧ d.rAt = bt p 4 ∧ r.r1 = d.base ∧ r.r2 = d.key.toNat ∧
    r.status = .success ∧ (mrWin p = true → d.base = winBase + mrPort p * winSize + mrOff p * pageBytes)) ∧
  (∀ (s : State) (cls n owner : Nat) (classes : List Nat), classes.contains cls = true → cls < 16 → n < classLimit cls → owner < 4096 → (s.slot cls n).gen < 4096 →
    let t := openSlot s cls n owner
    checkHandle t { fn := owner } (BitVec.ofNat 64 (handleOf t cls n)) classes = .inl n)

/-- R89, R91, R108, R112, R188, R209, R229, R252, R403: CH_MODIFY changes the fields of its class that may change, and no other class has
any. One of a memory region answers at once where no access that was checked before is under way. -/
def Obligations.ChannelsModified : Prop :=
  ChChange 2 .chModifyCompletionRing (fun s _ b n t r => r = success ∧ bodyReserved b [] 320 = true ∧ compFieldsOk (params b) (s.slot 2 n).owner = true ∧
    ∃ q, mget s.vat.comp n = some q ∧ q.base = bn (params b) 63 0 ∧ q.sizeLog2 = bn (params b) 68 64 ∧ q.dbPage = bn (params b) 87 72 ∧
      t = s.setComp n { q with vector := bn (params b) 106 96, modCount := bn (params b) 120 112, modTime := bn (params b) 143 128 }) ∧
  (∀ (s s1 : State) (k : MboxId) (blk : CmdBlock) (c : Cmd) (n : Nat), Taken s k 0x012 true blk c s1 →
    bodyHandle s1 c [1, 9, 0xA, 0xB] blk.bits = .inl n → exec (.chModifyFixedClass k blk) s = .next (answers true s1 c { status := .invalidField })) ∧
  ChChange 8 .chModifyMemoryRegion (fun s _ b n t r => bodyReserved b [] 320 = true ∧ mrFieldsOk (params b) = true ∧ ∃ d, mget s.lake.regions n = some d ∧
    mrWorld (params b) = d.world ∧ mrProt (params b) = d.prot ∧ mrWin (params b) = decide (winBase ≤ d.base) ∧ mrPages (params b) = d.pages ∧
    mrGroup (params b) = d.pgroup ∧ (mrWin (params b) = true → winBase + mrPort (params b) * winSize + mrOff (params b) * pageBytes = d.base) ∧
    mrPlace (params b) = d.place ∧ mrHome (params b) = d.home ∧
    let key := (drawKey s (mrKey (params b)) (mrRemote (params b))).1
    let s2 := (drawKey s (mrKey (params b)) (mrRemote (params b))).2
    let d2 := { d with rRd := bt (params b) 2, rWr := bt (params b) 3, rAt := bt (params b) 4, key := key }
    r = { status := .success, r2 := key.toNat } ∧ regionBusy t d2 = false ∧
    t = { s2 with lake := { s2.lake with regions := mset s2.lake.regions n d2 } }) ∧
  ChChange 4 .chModifyStorageQueue (fun s _ b n t r => r = success ∧ bodyReserved b [] 320 = true ∧ sqFieldsOk (params b) (s.slot 4 n).owner = true ∧
    ∃ q w, mget s.vat.comp (cqKey n) = some q ∧ mget s.saf.queues n = some w ∧ bn (params b) 63 0 = w.base ∧ bn (params b) 127 64 = q.base ∧
      bn (params b) 132 128 = w.sizeLog2 ∧ bn (params b) 151 136 = w.dbPage ∧ bn (params b) 175 160 = w.qid ∧
      t = s.setComp (cqKey n) { q with vector := bn (params b) 186 176, modCount := bn (params b) 200 192, modTime := bn (params b) 223 208 }) ∧
  ChChange 5 .chModifyDispatchQueue (fun s _ b n t r => r = success ∧ bodyReserved b [] 320 = true ∧ zeroBits (params b) 255 64 = true ∧
    ∃ q cfg s1, s.wq n = some q ∧ loadWcfg s { fn := (s.slot 5 n).owner } (bn (params b) 63 0) = (s1, .inl cfg) ∧ t = s1.setWq n { q with cfg := cfg }) ∧
  ChChange 6 .chModifyReductionGroup (fun s _ b n t r => r = success ∧ bodyReserved b [] 320 = true ∧ zeroBits (params b) 255 64 = true ∧
    ∃ g cfg s1, s.bg n = some g ∧ loadBcfg s { fn := (s.slot 6 n).owner } (some n) (bn (params b) 63 0) = (s1, .inl cfg) ∧ g.ops = [] ∧
      bGid cfg.rec_ = bGid g.cfg.rec_ ∧ bGen cfg.rec_ ≠ bGen g.cfg.rec_ ∧ bG cfg.rec_ = bG g.cfg.rec_ ∧ bG1 cfg.rec_ = bG1 g.cfg.rec_ ∧
      bAlgo cfg.rec_ = bAlgo g.cfg.rec_ ∧ t = s1.setBg n { cfg := cfg, bank := g.bank }) ∧
  ChChange 7 .chModifyOptimizerProgram (fun s _ b n t r => r = success ∧ bodyReserved b [] 320 = true ∧ optParamsOk (params b) = true ∧
    ∃ x, mget s.par.progs n = some x ∧ bn (params b) 63 0 = x.code ∧ bn (params b) 67 64 = x.lib ∧
      t = { s with par := { s.par with progs := mset s.par.progs n { x with clmask := BitVec.ofNat 64 (bn (params b) 191 128) } } }) ∧
  ChChange 3 .chModifyConnection (fun s _ b n t r => r = success ∧ bodyReserved b [] 320 = true ∧ connFieldsOk s (s.slot 3 n).owner (params b) = true ∧
    ∃ x, s.conn n = some x ∧ let m := connOf (params b)
      m.tc = x.tc ∧ m.mtu = x.mtu ∧ m.peerNode = x.peerNode ∧ m.peerConn = x.peerConn ∧ m.peerGen = x.peerGen ∧ m.peerIp = x.peerIp ∧ m.ipv4 = x.ipv4 ∧
      m.cookie = x.cookie ∧
      t = s.setConn n { x with paths := m.paths, nextPath := x.nextPath % max 1 m.paths, ccprof := m.ccprof, evtEn := m.evtEn, ectr := m.ectr, prof := if m.ccprof = x.ccprof then x.prof else profOf s m.ccprof })

/-- R109: CH_DESTROY makes the handle stale at once and begins the end of the channel; the end frees its slot and answers the command. -/
def Obligations.ChannelsDestroyed : Prop :=
  (∀ (s s1 : State) (k : MboxId) (blk : CmdBlock) (c : Cmd) (n : Nat), Taken s k 0x011 true blk c s1 →
    bodyHandle s1 c [1, 2, 3, 4, 5, 6, 7, 8, 9, 0xA, 0xB] blk.bits = .inl n → bodyReserved blk.bits [] 64 = true →
    destroyBusy s1 (bn blk.bits 63 60) n = false → (bn blk.bits 63 60 = 4 → isIo s1 n = true) →
    exec (.chDestroy k blk) s = .next (safSettle (settle (destroyStart s1 (bn blk.bits 63 60) n c.id false)))) ∧
  (∀ (s : State) (d : Dying), s.vat.dying.find? (fun x => x.cls == d.cls && x.index == d.index) = some d → d.cls ≠ 1 → d.cls ≠ 3 →
    destroyOver s d.cls d.index = true → exec (.chDestroyDone d.cls d.index) s = .next (settle (destroyEnd s d))) ∧
  (∀ (s : State) (n cmd : Nat), let t := destroyStart s 2 n cmd false
    (t.slot 2 n).gen = ((s.slot 2 n).gen + 1) % 4096 ∧ (t.slot 2 n).live = false ∧ (t.slot 2 n).dying = true ∧ (t.slot 2 n).owner = (s.slot 2 n).owner) ∧
  (∀ (s : State) (d : Dying), d.cls = 9 → let t := destroyEnd s d
    (t.slot 9 d.index).live = false ∧ (t.slot 9 d.index).dying = false ∧ mget t.sec.keys d.index = none)

namespace Sys2Proof.Machine

/-- A record of DISPATCH at t0: no reserved bit, and logits or a router (R189, R194). -/
def dispatchBody (r : BitVec 1024) (d : Desc) : Prop := woadBodyOk d = true ∧ ¬ (bn d 319 256 = 0 ∧ wRouter r = 0)

/-- The addresses that DISPATCH names, in the order in which they are checked: SRC, LOGITS, ROUTE, COUNTS (R195). -/
def dispatchAddrs (r : BitVec 1024) (d : Desc) : List (Nat × Bool × Nat × Nat) :=
  let t := bn d 399 384
  [(0, false, bn d 255 192, if t = 0 then 0 else (t - 1) * rowb (wInFmt r) (wH r) + rowBytes (wInFmt r) (wH r))] ++
    (if bn d 319 256 = 0 then [] else [(1, false, bn d 319 256, 4 * wE r * t)]) ++ [(2, true, bn d 383 320, 8 * wK r * t)] ++
    (if bn d 511 448 = 0 then [] else [(3, true, bn d 511 448, 4 * wE r)])

/-- The job that a DISPATCH becomes (R195). -/
def dispatched (x : WQueue) (job : Nat) (d : Desc) (st : Option Status) : WJob :=
  { n := x.next, cfg := x.cfg, job := some job, tokens := bn d 399 384, route := bn d 383 320, counts := bn d 511 448, logits := bn d 319 256,
    src := bn d 255 192, refused := st, v := 0#64, finished := false }

/-- A COMBINE of a job may run: its counter has reached its target, nothing is to come, or a connection is lost (R199, R201). -/
def combineDue (s : State) (j : WJob) : Bool :=
  j.combine.isSome && !j.combined && j.finished &&
    (j.lost || j.tokens == 0 || ctrReached (s.ctr (wRetCtr j.cfg.rec_ + j.bank)) (j.v + BitVec.ofNat 64 j.awaited))

/-- A job whose returns have not come, with a CTIMEOUT (R200). -/
def combineOverdue (s : State) (j : WJob) : Bool :=
  j.finished && !j.combined && !j.late && !j.lost && j.refused.isNone && wTimeout j.cfg.rec_ != 0 &&
    !ctrReached (s.ctr (wRetCtr j.cfg.rec_ + j.bank)) (j.v + BitVec.ofNat 64 j.awaited)

/-- The state in which RETURN reads its records: the job gathers, under the configuration in force when it was taken (R188). -/
def returnTaken (s : State) (job : Nat) (jb : Job) (cfg : WCfg) : State :=
  let t := s.setJob job { jb with phase := .gathering }
  { t with woad := { t.woad with retCfg := mset t.woad.retCfg job cfg } }

end Sys2Proof.Machine

/-- R190, R195 to R200: DISPATCH takes the next job number and waits; when job J − 2 has retired it is routed and sent; when its records
are visible it completes with the job number and its counts. RETURN sends rows back and completes when they are visible. COMBINE waits
for the return counter, then writes the tile, and ends with peer-lost after a lost connection; CTIMEOUT ends it with remote-timeout. A choice is placed where its expert has room. -/
def Obligations.DispatchAndCombine : Prop :=
  (∀ (s s1 : State) (job : Nat) (jb : Job) (x : WQueue) (bad : Option (Nat × Status)), jobOf s job 0x30 .started = some jb →
    s.wq (hIndex (dTarget jb.desc)) = some x → dispatchBody x.cfg.rec_ jb.desc →
    firstAddr jb.req (dispatchAddrs x.cfg.rec_ jb.desc) s = (s1, bad) → (bn jb.desc 399 384 ≠ 0 ∨ bad.isSome = true) →
    exec (.dispatch job) s = .next ((s1.setJob job { jb with phase := .held, detail := (bad.map (·.1)).getD 0 }).setWq (hIndex (dTarget jb.desc))
      { x with next := x.next + 1, jobs := x.jobs ++ [dispatched x job jb.desc (bad.map (·.2))] })) ∧
  (∀ (s s1 s2 : State) (queue : Nat) (x : WQueue) (j0 : WJob) (toks : List (List Val)) (raw : List (List Byte)) (logits : List (List Nat)) (fl : Flags3)
    (bb : List Byte), s.wq queue = some x → heldJob s x = some j0 → j0.refused = none → j0.tokens ≠ 0 →
    let fn := (s.slot 5 queue).owner
    let j := { j0 with v := s.ctr (wRetCtr j0.cfg.rec_ + j0.n % 2) }
    readBias s fn j = (s1, .ok bb []) → readSources s1 fn j = (s2, .ok toks raw logits fl) →
    exec (.dispatchHoldEnd queue) s = .next (runDispatch s2 queue fn j toks raw logits fl (biasList j0.cfg.rec_ bb))) ∧
  (∀ (s : State) (queue : Nat) (x : WQueue), s.wq queue = some x →
    (∀ j ∈ x.jobs, j.sent = false → ∃ k ∈ x.jobs, k.n + 2 = j.n ∧ wjobGone s k = false) → exec (.dispatchHoldEnd queue) s = .next s) ∧
  (∀ (c : WCfg) (p : Placing) (taken others : List Nat) (e gate : Nat) (x : WExpert), c.experts[e]? = some x →
    (mgetD p.used e 0 < x.cap → placeChoice c p taken others e gate = (p.put e gate, e :: taken) ∧
      (p.put e gate).routes = p.routes ++ [⟨e, 1, mgetD p.used e 0, gate⟩] ∧ mgetD (p.put e gate).used e 0 = mgetD p.used e 0 + 1) ∧
    (x.cap ≤ mgetD p.used e 0 → wPolicy c.rec_ = 0 → placeChoice c p taken others e gate = (p.drop gate, taken)) ∧
    (x.cap ≤ mgetD p.used e 0 → wPolicy c.rec_ = 2 → p.spilled < wSpillMax c.rec_ → (placeChoice c p taken others e gate).1.routes = p.routes ++ [⟨e, 2, p.spilled, gate⟩])) ∧
  (∀ (s s1 s2 : State) (queue id : Nat) (x : WQueue) (j : WJob), s.wq queue = some x → x.jobs.find? (fun j => j.sent && !j.finished) = some j → j.job = some id →
    windowBusy s (.job id) = false → writesOut s (.job id) = false → takeSends Poster.woad j.sends (applyNotes s) = (s1, [], []) → j.failed = none → j.counts = 0 →
    agentWrite s1 { req := { fn := (s.slot 5 queue).owner }, work := .job id } j.route j.routes = (s2, none) →
    exec (.dispatchDone queue) s = .next (putWjob (completeJob s2 id j.status j.rerouted (j.n % 2 ^ 32 + at_ 32 (min 65535 j.unplaced) + at_ 48 (min 65535 j.spilled)))
      queue { j with sends := [], job := none, finished := true })) ∧
  (∀ (s s1 s2 s3 : State) (job c : Nat) (jb : Job) (q : WQueue) (cfg : WCfg) (x : WExpert) (recs : List (Nat × BitVec 512)) (bs : List Byte),
    jobOf s job 0x32 .started = some jb → s.wq (hIndex (dTarget jb.desc)) = some q → cfg = mgetD s.woad.retCfg job q.cfg →
    cfg.experts[bn jb.desc 297 288]? = some x → woadBodyOk jb.desc = true → x.rank = wMyRank cfg.rec_ →
    rowBytes (bn jb.desc 303 300) (wH cfg.rec_) ≤ bn jb.desc 351 320 →
    readRecords (returnTaken s job jb cfg) { req := jb.req, work := .job job } cfg.rec_ x (bn jb.desc 287 256 % 2) (List.range (wRanks cfg.rec_)) = .inl (s1, some recs) →
    let live := (recs.filter (fun p => recordFits (bn jb.desc 287 256) (bn jb.desc 297 288) p.1 p.2)).filter (fun p => bn p.2 15 0 != 0 && !bt p.2 28)
    let n := (live.map (fun p => bn p.2 15 0)).sum
    agentRead s1 { req := jb.req, work := .job job } (bn jb.desc 255 192) (if n = 0 then 0 else (n - 1) * bn jb.desc 351 320 + rowBytes (bn jb.desc 303 300) (wH cfg.rec_)) = (s2, .ok bs []) →
    codecCluster s2 = (s3, some c) →
    ∃ t w old, exec (.returnRows job) s = .next t ∧ t.woad.returns = old ++ [w] ∧ w.job = job ∧ w.rows = n ∧ mget t.vat.jobs job = some { jb with phase := .running }) ∧
  (∀ (s s1 : State) (job : Nat) (w : WReturn), s.woad.returns.find? (fun w => w.job == job) = some w → takeSends Poster.woad w.sends s = (s1, [], []) →
    windowBusy s1 (.job job) = false → writesOut s1 (.job job) = false → exec (.returnDone job) s =
      .next (completeJob { s1 with woad := { s1.woad with returns := s1.woad.returns.filter (fun x => x.job != job) } } job w.status w.detail w.rows)) ∧
  (∀ (s : State) (job : Nat) (jb : Job) (x : WQueue), jobOf s job 0x31 .started = some jb → woadBodyOk jb.desc = true → s.wq (hIndex (dTarget jb.desc)) = some x →
    let hit := x.jobs.find? (fun j => j.n % 2 ^ 32 == bn jb.desc 287 256 && j.refused.isNone && j.combine.isNone && !j.combined)
    (hit = none → exec (.combine job) s = .next (completeJob s job (.cls 0x51) 0 0)) ∧
    (∀ j, hit = some j → ¬ (j.tokens = 0 ∧ j.finished = true) → (j.late && !j.lost) = false → exec (.combine job) s =
      .next (putWjob (s.setJob job { jb with phase := .held }) (hIndex (dTarget jb.desc)) { j with combine := some job }))) ∧
  (∀ (s : State) (queue id : Nat) (x : WQueue) (j : WJob) (jb : Job), s.wq queue = some x → x.jobs.find? (combineDue s) = some j → j.combine = some id →
    mget s.vat.jobs id = some jb →
    (j.lost = true → exec (.combineStart queue) s = .next (endCombine s queue j .peerLost 0)) ∧
    (j.lost = false → j.tokens = 0 → exec (.combineStart queue) s = .next (endCombine s queue j .success 0)) ∧
    (∀ (s1 s2 s4 : State) (bs : List Byte) (c : Nat), j.lost = false → j.tokens ≠ 0 →
      agentRead s { req := jb.req, work := .job id } j.route (8 * wK j.cfg.rec_ * j.tokens) = (s1, .ok bs []) → codecCluster s1 = (s2, some c) →
      let t := (List.range j.tokens).foldl (fun t i => tileToken { req := jb.req, work := .job id } j.cfg.rec_ j.bank
        ((List.range (wK j.cfg.rec_)).map (fun k => leAt bs (8 * (wK j.cfg.rec_ * i + k)) 8)) t) { s := s2, rs := (s2.cl c).rs }
      t.stop = none → t.wait = none → agentWriteN (countOdd (t.s.setCl c { t.s.cl c with rs := t.rs }) c t.fl) { req := jb.req, work := .job id } (bn jb.desc 255 192) t.out = (s4, none, 0) →
      exec (.combineStart queue) s = .next (endCombine s4 queue j t.fl.status t.out.length))) ∧
  (∀ (s : State) (queue : Nat) (x : WQueue) (j : WJob), s.wq queue = some x → x.jobs.find? (combineOverdue s) = some j →
    (j.combine.isSome = true → exec (.combineTimeout queue) s = .next (endCombine s queue j .remoteTimeout 0)) ∧
    (j.combine = none → exec (.combineTimeout queue) s = .next (putWjob s queue { j with late := true })))

namespace Sys2Proof.Machine

/-- A collective of opcode `opc` is posted with valid fields: behind an operation of its group that has still to take its number it
waits; its operation joins the group under the next number and is held, with its source readable and its areas in place; on a broken
group it ends in the class-specific status, or in peer-lost where an abort of that operation has come (R210, R215, R223). -/
def CollectiveRow (opc : Nat) (row : Nat → Instr) : Prop :=
  ∀ (s : State) (job : Nat) (jb : Job) (g : BGroup), jobOf s job opc .started = some jb →
    (collectiveBehind s job jb = true → exec (row job) s = .next s) ∧
    (collectiveBehind s job jb = false → s.bg (hIndex (dTarget jb.desc)) = some g → blendBodyOk jb.desc = true → bn jb.desc 351 320 ≤ bMaxn g.cfg.rec_ →
      (∀ s1 s2 : State, g.broken = false → checkSrc s jb job (srcElems g.cfg.rec_ opc (bn jb.desc 351 320)) = (s1, none, false) →
        firstAddr jb.req ([(1, false, bn jb.desc 319 256, rowBytes (bn jb.desc 359 356) (dstElems g.cfg.rec_ opc (bn jb.desc 351 320)))] ++
          (if bEf g.cfg.rec_ then [(2, true, bRes g.cfg.rec_, 2 * bResb g.cfg.rec_)] else [])) s1 = (s2, none) →
        exec (row job) s = .next (acceptOp s2 (hIndex (dTarget jb.desc)) job opc (bn jb.desc 351 320) jb g) ∧
        (g.early = [] → exec (row job) s = .next ((s2.setJob job { jb with phase := .held }).setBg (hIndex (dTarget jb.desc))
          { g with next := g.next + 1, ops := g.ops ++ [{ j := g.next, job := job, opc := opc, n := bn jb.desc 351 320 }] }))) ∧
      (g.broken = true → mget g.aborts g.next = none → exec (row job) s = .next (turnAway s job (.cls 0x53) 0)) ∧
      (∀ rank, g.broken = true → mget g.aborts g.next = some rank → exec (row job) s =
        .next (turnAway (s.setBg (hIndex (dTarget jb.desc)) { g with next := g.next + 1 }) job .peerLost rank)))

/-- An optimizer job of opcode `op` passes its checks: `i` and `p` its program, `x` the step record, `cs` the clusters, `s1` the state
after the address checks, and nothing that it needs is being reset (R23, R228, R229, R232). -/
def OptReady (s : State) (op job : Nat) (jb : Job) (p : OptProg) (x : BitVec 512) (cs : List Nat) (s1 : State) : Prop :=
  jobOf s job op .started = some jb ∧ mget s.par.progs (hIndex (dTarget jb.desc)) = some p ∧ optBodyOk jb.desc = true ∧
  stepWaits s jb.fn p = false ∧ (optBody jb.desc).n ≠ 0 ∧ optWaits s { req := jb.req, work := .job job } p (optBody jb.desc) = false ∧
  optAddrs s { req := jb.req, work := .job job } p.lib op (optBody jb.desc) = (s1, .inl x) ∧ cs = stepClusters s1 jb.fn p ∧
  srecOk p.lib (optBody jb.desc).n x = true ∧ cs ≠ []

end Sys2Proof.Machine

/-- R210, R215, R223: the three collectives; the start of a held operation, which encodes its contribution and sends its first phase; and
the timeout, which breaks the group and names the lowest rank that is awaited. -/
def Obligations.Collectives : Prop :=
  CollectiveRow 0x40 .allreduce ∧ CollectiveRow 0x41 .reduceScatter ∧ CollectiveRow 0x42 .allgather ∧
  (∀ (s : State) (group : Nat) (g : BGroup) (o : BOp), s.bg group = some g → g.ops.find? (fun o => !o.started) = some o →
    (releasedAll g o.j = false ∨ residualsBusy g o = true ∨ areasWait s g.cfg.rec_ = true → exec (.collectiveHoldEnd group) s = .next s) ∧
    (∀ (s1 : State) (c : Nat) (jb : Job) (run : CodecRun) (blks : List (List Val)), releasedAll g o.j = true → residualsBusy g o = false → areasWait s g.cfg.rec_ = false → mget s.vat.jobs o.job = some jb →
      readInput s (s.slot 6 group).owner o.job jb.desc (srcElems g.cfg.rec_ o.opc o.n) = (run, blks) → run.wait = none → run.stop = none →
      codecCluster run.s = (s1, some c) →
      let op : BOp := { o with started := true, beta := g.bank, pois := o.pois || run.pois.isSome, malf := o.malf || run.malf.isSome }
      let k := contribute (if run.malfCount = 0 then s1 else s1.trouble (engUnit c true) .ue run.malfCount) (s.slot 6 group).owner c g.cfg.rec_ op blks
      (o.opc = 0x42 → exec (.collectiveHoldEnd group) s = .next (blendGo (putOp k.1 group { k.2.1 with own := k.2.2.mapIdx (fun i x => (i, x)) }) group)) ∧
      (o.opc ≠ 0x42 → ∃ t, exec (.collectiveHoldEnd group) s = .next (blendGo (putOp t.1 group t.2) group) ∧
        let ph := if bHier g.cfg.rec_ then 2 else 0
        t = (phTargets g.cfg.rec_ ph).foldl (fun (a : State × BOp) t =>
          let lh := slotRange g.cfg.rec_ (cdiv o.n 32) t ph 0
          giveRange (s.slot 6 group).owner group ph t ((k.2.2.drop lh.1).take (lh.2 - lh.1)) (List.range (segCount g.cfg.rec_ (lh.2 - lh.1))) a) (k.1, k.2.1)))) ∧
  (∀ (s : State) (group : Nat) (g : BGroup) (o : BOp), s.bg group = some g → g.ops.find? (fun o => o.started && !o.written) = some o → bTimeout g.cfg.rec_ ≠ 0 →
    let missing := ((awaitedOf g.cfg.rec_ o).filter (fun x => !o.got.contains x.2)).map (·.1)
    exec (.collectiveTimeout group) s =
      .next (breakGroup s (s.slot 6 group).owner group o.j o.opc o.n .remoteTimeout (missing.foldl min (missing.headD 0)) none)) ∧
  (∀ (s : State) (fn group j opc n rank : Nat) (st : Status) (no : Option Nat) (g : BGroup), s.bg group = some g → g.ops = [] → ∃ s1 : State,
    breakGroup s fn group j opc n st rank no = sendAborts (s1.count BLND_ABORTS 0) fn g j opc n rank no ∧
    s1.bg group = some { g with broken := true, failed := if g.broken then g.failed else rank, aborts := mset g.aborts j rank, early := [] })

/-- R228 to R235: OPT_STEP runs the library's rule on the arrays of the step, or starts the user's program on the cores; WPUSH writes the
weights of the bank out; with no elements nothing is accessed. The library's SGD rule and the two banks. -/
def Obligations.OptimizerSteps : Prop :=
  (∀ (s s1 s2 : State) (job : Nat) (jb : Job) (p : OptProg) (x : BitVec 512) (cs : List Nat) (image : List Byte), OptReady s 0x50 job jb p x cs s1 →
    cs.any (fun c => (coresOf c).any (fun k => coreBusy (s1.core k)) || runsStep s1 c) = false →
    progImage (cs.foldl powerUp s1) jb.req job p = (s2, .inl image) →
    let s3 := cs.foldl (loadProg (hIndex (dTarget jb.desc)) image) s2
    (p.lib = 0 → exec (.optStep job) s = .next (startUser (s3.setJob job { jb with phase := .held }) job (hIndex (dTarget jb.desc)) (optBody jb.desc) cs)) ∧
    (∀ (r : CodecRun) (vals : List (Option Nat)) (zeros : Nat), p.lib ≠ 0 → readGrad s3 { req := jb.req, work := .job job } (optBody jb.desc) = (r, vals, zeros) →
      r.wait = none → r.stop = none → r.pois = none →
      exec (.optStep job) s = .next (runLib (countGrad r cs) job jb cs p.lib x (optBody jb.desc) vals zeros))) ∧
  (∀ (s s1 s2 : State) (job : Nat) (jb : Job) (b : OBody) (cs : List Nat) (x : BitVec 512) (vals : List (Option Nat)) (zeros : Nat) (w m : List Nat), vals.any (·.isNone) = false →
    readArrays { req := jb.req, work := .job job } [(b.state + arrayOff b.n 0 ((b.step - 1) % 2), b.n), (b.state + arrayOff b.n 1 ((b.step - 1) % 2), b.n)] s = (s1, .inl ([w, m], false)) →
    oPush x = 0 →
    let es := List.zipWith (sgdElem ⟨x, 1, b.step⟩) (vals.map (·.getD 0)) ((List.zip w m).map (fun p => ({ w := p.1, m := p.2 } : Elem)))
    writeArrays { req := jb.req, work := .job job } [(b.state + arrayOff b.n 0 (b.step % 2), es.map (·.w)), (b.state + arrayOff b.n 1 (b.step % 2), es.map (·.m))] s1 = (s2, none) →
    runLib s job jb cs 1 x b vals zeros = completeJob s2 job .success 0 (b.step + at_ 32 (min (2 ^ 32 - 1) zeros))) ∧
  (∀ (x : BitVec 512) (t y : Nat) (e : Elem), oNesterov x = false →
    (sgdElem ⟨x, 1, t⟩ y e).m = f32.add (f32.mul (oB1 x) e.m) (f32.mul (oGscale x) y) ∧
    (sgdElem ⟨x, 1, t⟩ y e).w = f32.sub e.w (f32.mul (oLr x) (f32.add (sgdElem ⟨x, 1, t⟩ y e).m (f32.mul (oWd x) e.w)))) ∧
  (∀ (s s1 : State) (job : Nat) (jb : Job) (p : OptProg) (x : BitVec 512) (cs : List Nat), OptReady s 0x51 job jb p x cs s1 →
    (oPush x = 0 → exec (.wpush job) s = .next (completeJob s1 job .success 0 (optBody jb.desc).step)) ∧
    (∀ (s2 s3 s4 : State) (ws : List Nat) (bs : List Byte) (sat : Bool), oPush x ≠ 0 →
      readArray s1 { req := jb.req, work := .job job } ((optBody jb.desc).state + arrayOff (optBody jb.desc).n 0 ((optBody jb.desc).step % 2)) (optBody jb.desc).n = (s2, .inl (ws, false)) →
      preparePush s2 jb.req cs x ws = (s3, .inl (bs, sat)) → agentWrite s3 { req := jb.req, work := .job job } (oPush x) bs = (s4, none) →
      exec (.wpush job) s = .next (completeJob s4 job (if sat then .saturated else .success) 0 (optBody jb.desc).step))) ∧
  (∀ (s : State) (op job : Nat) (jb : Job) (p : OptProg), jobOf s job op .started = some jb → mget s.par.progs (hIndex (dTarget jb.desc)) = some p →
    optBodyOk jb.desc = true → stepWaits s jb.fn p = false → (optBody jb.desc).n = 0 →
    (op = 0x50 → exec (.optStep job) s = .next (optEmpty s op job jb p (optBody jb.desc))) ∧
    (op = 0x51 → exec (.wpush job) s = .next (optEmpty s op job jb p (optBody jb.desc))))

namespace Sys2Proof.Machine

/-- A firmware command with a block: where firmware takes it and the relation gives a state, it is answered there with the reply, or, with
none, goes on and is answered later. -/
def FwEffect (op : Nat) (row : MboxId → CmdBlock → Instr) (R : State → Cmd → BitVec 32256 → State → Option Reply → Prop) : Prop :=
  ∀ (s s1 t : State) (k : MboxId) (blk : CmdBlock) (c : Cmd) (r : Option Reply), Taken s k op true blk c s1 → R s1 c blk.bits t r →
    exec (row k blk) s = .next (match r with
      | none => t
      | some r => answers true t c r)

/-- The lowest free group slot takes the group of a block, with its share zeroed; the command waits (R237). -/
def groupMade (s : State) (c : Cmd) (b : BitVec 32256) (spare : Bool) (t : State) : Prop :=
  ∃ n rs, (List.range 16).find? (fun n => (s.pgroup n).isNone) = some n ∧
    placeShare s (sharePages (pgP b) (pgW b - pgP b) (pgS b)) = some rs ∧
    let g : PGroup := { pgOf b with
      cmd := c.id, since := s.now, share := rs, spare := spare
      state := if spare then .rebuilding else .joining, toRebuild := if spare then pgS b + sharePages (pgP b) (pgW b - pgP b) (pgS b) else 0 }
    t = zeroShare (s.setPg n g) rs

end Sys2Proof.Machine

/-- R236, R237, R242, R243, R246, R248: joining a parity group and the end of the join; leaving; closing an epoch and its commit; rebuild on
a survivor and on the spare, and its end; and a lost member. -/
def Obligations.ParityGroups : Prop :=
  FwEffect 0x020 .pgJoin (fun s c b t r => fromPf0 c = true ∧ pgFieldsOk b = true ∧ parityMin (max 1 s.fab.size) ≤ pgP b ∧ groupOf s (bn b 15 0) = none ∧
    groupMade s c b false t ∧ r = none) ∧
  (∀ (s : State) (group : Nat) (g : PGroup) (peers : List PeerConn), s.pgroup group = some g → g.state = .joining →
    exec (.pgJoinDone group false peers) s = .next (replyTo (s.dropPg group) g.cmd { status := .invalidField }) ∧
    exec (.pgJoinDone group true peers) s = .next (replyTo (openPeers (s.setPg group { g with state := .normal, commit := 0, openE := 1, cmd := 0 }) group
      (peers.filter (fun p => decide (p.member < g.w) && p.member != g.member))) g.cmd { status := .success }) ∧
    exec (.pgJoinTimeout group) s = .next (replyTo (s.dropPg group) g.cmd { status := .remoteTimeout })) ∧
  FwEffect 0x021 (fun k b => .pgLeave k b false) (fun s c b t r => fromPf0 c = true ∧ bodyReserved b [] 16 = true ∧ ∃ n g, groupOf s (bn b 15 0) = some (n, g) ∧
    g.cmd = 0 ∧ s.lake.regions.any (fun r => r.2.prot && r.2.pgroup == g.pgroup) = false ∧ r = some success ∧
    let s1 := (groupConns s n).foldl (fun s k => closePeer s k.1) (endEpoch s n g .aborted)
    t = { s1.dropPg n with par := { (s1.dropPg n).par with deltas := s1.par.deltas.filter (fun d => d.slot != n) } }) ∧
  FwEffect 0x021 (fun k b => .pgLeave k b true) (fun s c b t r => fromPf0 c = true ∧ bodyReserved b [] 16 = true ∧ (groupOf s (bn b 15 0)).isSome = true ∧
    t = s ∧ r = some { status := .busy }) ∧
  (∀ (s : State) (job n : Nat) (jb : Job) (g : PGroup), jobOf s job 0x52 .started = some jb → epochBodyOk jb.desc = true →
    groupOf s (bn jb.desc 207 192) = some (n, g) → g.owner = jb.fn → g.state ≠ .joining →
    (bn jb.desc 319 256 ≠ g.openE → exec (.parEpoch job) s = .next (completeJob s job (.cls 0x55) 0 0)) ∧
    (bn jb.desc 319 256 = g.openE → g.state ≠ .normal → exec (.parEpoch job) s = .next (completeJob s job .peerLost 0 0)) ∧
    (bn jb.desc 319 256 = g.openE → g.state = .normal → g.closing = none → exec (.parEpoch job) s =
      .next ((s.setJob job { jb with phase := .running }).setPg n { g with closing := some job, openE := (g.openE + 1) % 2 ^ 64 }))) ∧
  (∀ (s : State) (group job : Nat) (g : PGroup), (paritySettle s).pgroup group = some g → g.closing = some job → g.state = .normal →
    (paritySettle s).par.deltas.any (fun d => d.slot == group && decide (d.epoch ≤ g.openE - 1)) = false →
    exec (.epochCommit group) s = (let g1 : PGroup := { g with commit := g.openE - 1, closing := none, dirty := g.dirty.filter (fun x => decide (g.openE - 1 < x.2)) }
      .next (completeJob (sendManifest ((paritySettle s).setPg group g1) group g1) job .success 0 0))) ∧
  (∀ peers : List PeerConn,
    FwEffect 0x022 (fun k b => .pgRebuild k ⟨b, peers⟩) (fun s c b t r => fromPf0 c = true ∧ pgFieldsOk b = true ∧ groupOf s (bn b 15 0) = none ∧
      parityMin (max 1 s.fab.size) ≤ pgP b ∧ (pgNodes b).getD (bn b 35 32) 0xFFFF = s.fab.node ∧ r = none ∧ ∃ s1 n g, groupMade s c b true s1 ∧
      groupOf s1 (bn b 15 0) = some (n, g) ∧ t = openPeers s1 n (peers.filter (fun p => decide (p.member < g.w) && p.member != g.member))) ∧
    FwEffect 0x022 (fun k b => .pgRebuild k ⟨b, peers⟩) (fun s c b t r => fromPf0 c = true ∧ pgFieldsOk b = true ∧ ∃ n g g1, groupOf s (bn b 15 0) = some (n, g) ∧
      pgW b = g.w ∧ pgP b = g.p ∧ pgS b = g.size ∧ pgNodes b = g.nodes ∧ bn b 35 32 ≠ g.member ∧ g.cmd = 0 ∧
      (rebuildBegins s n (bn b 35 32) peers).pgroup n = some g1 ∧ g1.state ≠ .lost ∧ r = none ∧
      t = (rebuildBegins s n (bn b 35 32) peers).setPg n { g1 with cmd := c.id, since := (rebuildBegins s n (bn b 35 32) peers).now })) ∧
  (∀ (s : State) (group epoch : Nat) (data parity : List StripeLine) (peers : List PeerConn) (g : PGroup), s.pgroup group = some g → g.state = .rebuilding →
    exec (.pgRebuildDone group false epoch data parity peers) s = .next (groupEnds s group) ∧
    ((if g.spare then !g.reported else s.par.deltas.any (fun d => d.slot == group)) = false →
      let s1 := (rebuildLines g (s.setPg group { g with state := .lost }) data parity).setPg group g
      exec (.pgRebuildDone group true epoch data parity peers) s = .next (endRebuild s1 group g epoch peers) ∧
      ((∀ m < 16, g.lost.getLsbD m = true → m ∈ peers.map (·.member)) → ∃ s2 : State,
        s2.pgroup group = some { g with state := .normal, lost := 0#16, commit := epoch, openE := (epoch + 1) % 2 ^ 64, closing := none, dirty := [], cmd := 0, rebuilt := if g.spare then g.toRebuild else g.rebuilt, spare := false, reported := false } ∧
        endRebuild s1 group g epoch peers = settle (let s3 := releaseHeld (openPeers s2 group (peers.filter (fun p => decide (p.member < g.w) && p.member != g.member &&
          !(groupConns s1 group).any (fun c => c.2.peerNode == g.nodes.getD p.member 0xFFFF && decide (c.2.state ≠ .error)))))
          if g.cmd = 0 then s3 else replyTo s3 g.cmd { status := .success })))) ∧
  (∀ (s : State) (slot m : Nat) (g : PGroup), s.pgroup slot = some g → g.lost.getLsbD m = false → g.state = .normal → g.closing = none → g.cmd = 0 →
    let lost := g.lost ||| BitVec.ofNat 16 (2 ^ m)
    (popcount 16 lost.toNat ≤ g.p → (memberLost s slot m).pgroup slot = some { g with lost := lost, state := .degraded }) ∧
    (g.p < popcount 16 lost.toNat → ∃ s2 : State, memberLost s slot m = releaseHeld s2 ∧ s2.pgroup slot = some { g with lost := lost, state := .lost, cmd := 0 }))

namespace Sys2Proof.Machine

/-- A transport operation of opcode `op` other than RECV: behind an earlier one of its connection that has still to join it waits; on an
established connection whose context is on the device it becomes a message; on a connection that is still connecting it is held; on one in ERROR it ends with the status that ended the connection (R254, R268 to R270). -/
def TransportRow (op : Nat) (row : Nat → Instr) : Prop :=
  (∀ (s : State) (job : Nat) (j : Job), jobOf s job op .started = some j → transportBehind s job j = true → exec (row job) s = .next s) ∧
  ∀ (s s1 : State) (job : Nat) (j : Job) (c : Conn), jobOf s job op .started = some j → transportBehind s job j = false →
    s.conn (hIndex (dTarget j.desc)) = some c → (op = 0x14 ∨ tRaddr j.desc / 2 ^ 48 = c.peerNode) →
    localRange s j (if op = 0x15 ∨ op = 0x16 then (if tLaddr j.desc = 0 then 0 else 8) else tLen j.desc) = (s1, none) → (op = 0x13 → tLen j.desc ≠ 0) →
    (c.state = .established → c.tier ≠ .host → c.waiting = [] → (msgOfJob job j.desc).asks = false ∨ c.outReads < 64 → exec (row job) s =
      .next (addMsg ((s1.setConn (hIndex (dTarget j.desc)) { c with activeAt := s1.now }).setJob job { j with phase := .running }) (hIndex (dTarget j.desc)) (msgOfJob job j.desc))) ∧
    (c.state = .connecting → c.tier ≠ .host → exec (row job) s =
      .next ((s1.setJob job { j with phase := .held }).setConn (hIndex (dTarget j.desc)) { c with waiting := c.waiting ++ [.job job], activeAt := s1.now })) ∧
    (c.state = .error → exec (row job) s = .next (completeJob s1 job (c.lastSt.getD .peerLost) 0 0))

end Sys2Proof.Machine

/-- R265, R268 to R272: the eight transport operations. A message takes the next MSN and as many PSNs as it has packets. RECV adds an entry
to the receive queue, and a READ of no bytes ends at once. -/
def Obligations.TransportOperations : Prop :=
  TransportRow 0x10 .write ∧ TransportRow 0x11 .writeInc ∧ TransportRow 0x12 .writeTrig ∧ TransportRow 0x13 .read ∧ TransportRow 0x14 .send ∧
  TransportRow 0x15 .fetchAdd ∧ TransportRow 0x16 .cmpSwap ∧
  (∀ (s s1 : State) (job : Nat) (j : Job) (c : Conn), jobOf s job 0x13 .started = some j → transportBehind s job j = false → s.conn (hIndex (dTarget j.desc)) = some c →
    tRaddr j.desc / 2 ^ 48 = c.peerNode → tLen j.desc = 0 → localRange s j 0 = (s1, none) → exec (.read job) s = .next (completeJob s1 job .success 0 0)) ∧
  (∀ (s s1 : State) (job : Nat) (j : Job) (c : Conn), jobOf s job 0x17 .started = some j → transportBehind s job j = false → s.conn (hIndex (dTarget j.desc)) = some c →
    localRange s j (tLen j.desc) = (s1, none) → c.state ≠ .error → c.tier ≠ .host →
    (c.recvq.length < 4096 → exec (.recv job) s = .next ((s1.setJob job { j with phase := .running }).setConn (hIndex (dTarget j.desc))
      { c with recvq := c.recvq ++ [{ job := job, laddr := tLaddr j.desc, lhost := tLhost j.desc, len := tLen j.desc }] })) ∧
    (4096 ≤ c.recvq.length → exec (.recv job) s = .next (completeJob s1 job .outOfResources 0 0))) ∧
  (∀ (s : State) (i : Nat) (m : TxMsg) (c : Conn), s.conn i = some c → m.notice = none → ∃ c', (addMsg s i m).conn i = some c' ∧
    c'.msgs = c.msgs ++ [{ m with msn := c.msn, psn := c.psn, count := psnCount c m.kind m.len m.pieces }] ∧ c'.msn = c.msn + 1 ∧
    c'.psn = c.psn + psnCount c m.kind m.len m.pieces ∧ c'.una = c.una ∧ c'.state = c.state ∧ c'.epsn = c.epsn) ∧
  (∀ (c : Conn) (op len : Nat), psnCount c .read len [] = 1 ∧ psnCount c (.atomic op) len [] = 1 ∧ psnCount c .send 0 [] = 1 ∧
    (c.mtu = 0 → psnCount c (.write op) 5120 [] = 5))

/-- R255, R278, R281, R282, R284, R285, R291: the timers of a connection and the settings of Carmine: CONNECT each millisecond; an ACK two
microseconds after a placement, but none while the region of the slice is reset; the end of a context-miss pause; a parked packet dropped; the spill area; a congestion profile, whose
fields with a reserved value stay; and the window that firmware sets. -/
def Obligations.ConnectionTimersAndSettings : Prop :=
  (∀ (s : State) (i : Nat) (c : Conn), s.conn i = some c →
    (c.state = .connecting → pcoreRuns s 3 = true → exec (.connectTimer i) s = .next (sendCtrl s i 1)) ∧
    (c.state ≠ .connecting → exec (.connectTimer i) s = .next s) ∧
    (0 < c.toAck → sliceUp s i = true → exec (.ackTimer i) s = .next (sendAck (s.setConn i { c with lastTs := c.firstTs }) i)) ∧
    (c.toAck = 0 ∨ sliceUp s i = false → exec (.ackTimer i) s = .next s) ∧
    exec (.contextMissBackoffEnd i) s = .next (s.setConn i { c with pauseEnd := none }) ∧
    (∀ cwnd rate, pFw c.prof = true → pcoreRuns s 3 = true → ∃ t, exec (.firmwareCwndUpdate i cwnd rate) s = .next t ∧
      t.conn i = some { c with cwnd := cwnd, rate := rate } ∧ t.carm.ccRing = s.carm.ccRing.filter (fun r => r.1 != i) ∧ (∀ k, k ≠ i → t.conn k = s.conn k)) ∧
    (∀ cwnd rate, pFw c.prof = false → exec (.firmwareCwndUpdate i cwnd rate) s = .next s)) ∧
  (∀ (s : State) (p : ParkedPkt) (rest : List ParkedPkt) (c : Conn), s.carm.parked = p :: rest → s.conn p.conn = some c →
    exec .parkTimeout s = .next (missNack { s with carm := { s.carm with parked := rest } } c p.pkt)) ∧
  (∀ (s : State) (i : Nat) (c : Conn), s.conn i = some c → hasNode s = true → sliceUp s i = true → ∃ x, sendCtrl s i 1 = sendNext s i c (c.hdr s 7) (beBytes 16 x) ∧
    (c.mtu < 4 → (s.slot 3 i).gen < 4096 → i < 2 ^ 24 → c.ipsn < 2 ^ 32 → x / 2 ^ 120 = 1 ∧ x / 2 ^ 88 % 2 ^ 24 = i ∧ x / 2 ^ 32 % 2 ^ 32 = c.ipsn)) ∧
  FwRow 0x030 .carmSpill (fun s c b => fromPf0 c = true ∧ bodyReserved b [] 96 = true ∧ bn b 63 0 % 4096 = 0 ∧ bn b 95 64 ≤ 15728640 ∧ tierCount s .host = 0)
    (fun s c b => { s with carm := { s.carm with spill := some (bn b 63 0, bn b 95 64, c.fn) } }) (fun _ _ _ => success) ∧
  (∀ (s : State) (n : Nat) (v w0 w1 : W64), n < 16 → mget s.carm.prof n = some { w0 := some w0, w1 := some w1 } →
    (4096 ≤ bn w0 63 32 → 1 ≤ bn w1 31 24 → bn w1 63 49 = 0 → 1 ≤ bn v 15 0 → 1 ≤ bn v 31 16 → 1 ≤ bn v 47 32 → 1 ≤ bn v 55 48 → ∃ t, exec (.ccProfCommit n v) s = .next t ∧
      mget t.carm.prof n = some { val := BitVec.ofNat 192 (w0.toNat + w1.toNat * 2 ^ 64 + v.toNat * 2 ^ 128) } ∧ (∀ k, k ≠ n → mget t.carm.prof k = mget s.carm.prof k)) ∧
    (bn w0 63 32 < 4096 → ∃ t p, exec (.ccProfCommit n v) s = .next t ∧ mget t.carm.prof n = some { val := p } ∧ pMin p = 4096))

namespace Sys2Proof.Machine

/-- The oldest packet of a TYPE that has arrived, and of a KIND for CTRL, is `p`; the connection `i` that it names stands on die, live, and
the packet's generation, cookie, source node and source address are the connection's (R273); `par` is what a packet of a parity group carries. `s1` is the state in which it is handled, and
`c1` the connection there. -/
def PacketTaken (s : State) (ty kind i : Nat) (par : Option ParityMsg) (p : RxPkt) (c : Conn) (s1 : State) (c1 : Conn) : Prop :=
  ∃ s0 p0, takePacket s ty kind = some (p0, s0) ∧ p = { p0 with par := par } ∧ hasNode s0 = true ∧ (ty = 7 → kind ≤ 3 → pcoreRuns s 3 = true) ∧ s0.conn i = some c ∧
    (readHdr p.bytes).ty = ty ∧ (readHdr p.bytes).dconn = i ∧ sliceUp s0 i = true ∧ c.tier = .die ∧
    (s0.slot 3 i).live = true ∧ (s0.slot 3 i).gen = (readHdr p.bytes).dgen ∧ c.cookie.toNat = (readHdr p.bytes).cookie ∧ c.peerNode = (readHdr p.bytes).snode ∧
    c.peerIp = p.srcIp ∧ (c.state = .established ∨ ty = 7) ∧
    c1 = { c with
      ceCnt := if p.ce then min 65535 (c.ceCnt + 1) else c.ceCnt, cePort := if p.ce then some p.srcPort else c.cePort
      lastUse := s0.carm.useCtr + 1, activeAt := s0.now } ∧
    s1 = { s0.setConn i c1 with carm := { (s0.setConn i c1).carm with useCtr := s0.carm.useCtr + 1 } }

/-- A packet of a sequenced TYPE at EPSN is placed; one ahead by up to 256 is staged where there is room, and acknowledged; one behind is
acknowledged only (R274, R278). -/
def SequencedRow (ty : Nat) (row : Instr) (par : Option ParityMsg) : Prop :=
  ∀ (s s1 : State) (i d : Nat) (p : RxPkt) (c c1 : Conn), PacketTaken s ty 0 i par p c s1 c1 → d = ((readHdr p.bytes).psn + 2 ^ 32 - c.epsn % 2 ^ 32) % 2 ^ 32 →
    (d = 0 → c.winPkt = none → exec row s = .next (settle (goOn carmHooks (placePacket carmHooks s1 i false p) i))) ∧
    (0 < d → d ≤ 256 → mget c.staged (c.epsn + d) = none → stageRoom s1 c1 p.bytes.length = true →
      exec row s = .next (settle (sendAck (s1.setConn i { c1 with staged := mset c1.staged (c.epsn + d) p, lastTs := (readHdr p.bytes).tstamp }) i))) ∧
    (0 < d → d ≤ 256 → mget c.staged (c.epsn + d) = none → stageRoom s1 c1 p.bytes.length = false → exec row s = .next (settle (s1.count CARM_STAGE_FULL))) ∧
    (256 < d → d < 2 ^ 31 → exec row s = .next (settle (s1.count CARM_OOW))) ∧
    (2 ^ 31 ≤ d → exec row s = .next (settle (sendAck (s1.setConn i { c1 with lastTs := (readHdr p.bytes).tstamp }) i)))

end Sys2Proof.Machine

/-- R254, R255, R271, R273 to R278, R281, R285: what a packet does that arrives for a connection. CONNECT is answered and establishes; CLOSE ends
the connection; PROBE is answered. DATA, requests and responses take their turn by PSN, and a placed one moves EPSN on by 1. ACK and NACK. -/
def Obligations.PacketsThatArrive : Prop :=
  (∀ (s s1 : State) (i : Nat) (p : RxPkt) (c c1 : Conn), PacketTaken s 7 1 i none p c s1 c1 → bn (extOf p.bytes) 127 120 = 1 →
    bn (extOf p.bytes) 111 88 = c.peerConn → bn (extOf p.bytes) 87 76 = c.peerGen → (readHdr p.bytes).tc = c.tc → bn (extOf p.bytes) 75 74 = c.mtu →
    (c.state = .connecting → exec .connect s = .next (settle (establish (sendCtrl s1 i 2) i c1 (bn (extOf p.bytes) 63 32)))) ∧
    (c.state = .established → exec .connect s = .next (settle (sendCtrl s1 i 2))) ∧ (c.state = .error → exec .connect s = .next (settle (s1.count CARM_STALE)))) ∧
  (∀ (s s1 : State) (i : Nat) (p : RxPkt) (c c1 : Conn), PacketTaken s 7 2 i none p c s1 c1 → bn (extOf p.bytes) 127 120 = 2 →
    bn (extOf p.bytes) 111 88 = c.peerConn → bn (extOf p.bytes) 87 76 = c.peerGen → (readHdr p.bytes).tc = c.tc → bn (extOf p.bytes) 75 74 = c.mtu →
    (c.state = .connecting → exec .connectAck s = .next (settle (establish s1 i c1 (bn (extOf p.bytes) 63 32)))) ∧
    (c.state = .established → exec .connectAck s = .next (settle s1))) ∧
  (∀ (s : State) (i n : Nat) (c : Conn), c.waiting = [] → (establish s i c n).conn i =
    some { c with state := .established, epsn := n, progAt := s.now, activeAt := s.now, probes := 0 }) ∧
  (∀ (s s1 : State) (i : Nat) (p : RxPkt) (c c1 : Conn), PacketTaken s 7 3 i none p c s1 c1 → bn (extOf p.bytes) 127 120 = 3 →
    exec .close s = .next (settle (connError s1 i .peerLost))) ∧
  (∀ (s s1 : State) (i : Nat) (p : RxPkt) (c c1 : Conn), PacketTaken s 7 4 i none p c s1 c1 → bn (extOf p.bytes) 127 120 = 4 → c.state = .established →
    exec .probe s = .next (settle (sendCtrl (s1.setConn i { c1 with activeAt := s1.now }) i 5))) ∧
  (∀ (s s1 : State) (i : Nat) (p : RxPkt) (c c1 : Conn), PacketTaken s 7 5 i none p c s1 c1 → bn (extOf p.bytes) 127 120 = 5 →
    exec .probeAck s = .next (settle (s1.setConn i { c1 with probes := 0, activeAt := s1.now }))) ∧
  (∀ par, SequencedRow 0 (.dataPacket par) par) ∧ SequencedRow 3 .readReq none ∧ SequencedRow 4 .readResp none ∧ SequencedRow 5 .atomicReq none ∧
  SequencedRow 6 .atomicResp none ∧
  (∀ (s s1 : State) (i : Nat) (p : RxPkt) (c c1 : Conn), PacketTaken s 1 0 i none p c s1 c1 → exec .ackPacket s = .next (settle (ackIn s1 i c1 p))) ∧
  (∀ (s s1 : State) (i : Nat) (p : RxPkt) (c c1 : Conn), PacketTaken s 2 0 i none p c s1 c1 →
    (bn (extOf p.bytes) 95 88 = 3 → exec .nackPacket s = .next (settle (connError s1 i .peerLost))) ∧
    (bn (extOf p.bytes) 95 88 = 1 → ∃ t, exec .nackPacket s = .next (settle t) ∧ ∃ c2, t.conn i = some c2 ∧ c2.misses = c.misses + 1 ∧
      c2.pauseEnd = some (s1.now + 1000 * min (pBackoff c.prof * 2 ^ c.misses) (32 * pBackoff c.prof)))) ∧
  (∀ (s s1 : State) (i : Nat) (p : RxPkt) (c : Conn), s.conn i = some c → (readHdr p.bytes).ty = 3 →
    placeReadReq s i c (readHdr p.bytes) p = s1 → ∀ k, s1.conn i = some k →
    placePacket carmHooks s i false p = s1.setConn i { k with
      winPkt := none, epsn := k.epsn + 1, toAck := k.toAck + 1, toAckAt := if k.toAck = 0 then s.now else k.toAckAt, lastTs := (readHdr p.bytes).tstamp
      firstTs := if k.toAck = 0 then (readHdr p.bytes).tstamp else k.firstTs, ackDue := k.ackDue || (readHdr p.bytes).ar }) ∧
  (∀ (s s1 : State) (i a : Nat) (c : Conn) (h : Hdr) (p : RxPkt) (old : W64), h.op = 6 → bn (extOf p.bytes) 255 192 % 8 = 0 →
    remoteCheck s .atomic (BitVec.ofNat 32 (bn (extOf p.bytes) 191 160)) (bn (extOf p.bytes) 255 192) 8 = (s, .inl a) → inWindow a 8 = false → atomicWaits s a = false →
    lakeAtomic s a (fun v => some (v + BitVec.ofNat 64 (bn (extOf p.bytes) 127 64))) = (s1, some old) →
    placeAtomicReq s i c h p = (addMsg s1 i { kind := .atomicResp 6 h.msn old, poster := .none, msn := 0, psn := 0, count := 0 }, false))

/-- R254, R255, R279 to R281, R284, R286: what time does to a connection: 10 s in CONNECTING, the keepalive, a PSN's RTO, no progress; a context
that arrives; a node that is lost; and a packet that leaves, with its header; the RETRY-th retransmission of a packet ends the connection. A connection that ends gives every waiting message the status. -/
def Obligations.ConnectionsInTime : Prop :=
  (∀ (s : State) (i : Nat) (c : Conn), s.conn i = some c →
    (c.state = .connecting → hasNode s = true → exec (.connectingTimeout i) s = .next (settle (connError s i .remoteTimeout))) ∧
    (c.state = .established → pKeepalive c.prof ≠ 0 → sliceUp s i = true → 3 ≤ c.probes → exec (.keepaliveTimer i) s = .next (settle (connError s i .peerLost))) ∧
    (c.state = .established → pKeepalive c.prof ≠ 0 → sliceUp s i = true → c.probes < 3 →
      exec (.keepaliveTimer i) s = .next (settle (sendCtrl (s.setConn i { c with probes := c.probes + 1 }) i 4))) ∧
    (∀ psn t, mget c.unacked psn = some t → c.state = .established → t.lost = false → pFw c.prof = false →
      exec (.rtoExpiry i psn) s = .next (settle (losePsn (s.setConn i { c with cwnd := pMin c.prof }) i psn))) ∧
    (∀ psn t, mget c.unacked psn = some t → c.state = .established → t.lost = false → pFw c.prof = true → exec (.rtoExpiry i psn) s = .next (settle (losePsn s i psn))) ∧
    (c.state = .established → c.unacked ≠ [] → exec (.noprogExpiry i) s = .next (settle (connError s i .remoteTimeout))) ∧
    (c.state = .established → c.unacked = [] → exec (.noprogExpiry i) s = .next (settle s)) ∧
    (∀ psn t, mget c.unacked psn = some t → t.lost = false → pFw c.prof = false → (losePsn s i psn).conn i =
      some { holdPath s c t.path with unacked := mset c.unacked psn { t with lost := true } }) ∧
    (c.tier = .near → c.fetching = true → sliceUp s i = true → s.carm.parked = [] →
      exec (.contextArrived i) s = .next (settle (startWaiting i (c.waiting.length + 1) (bringOnDie (dropXfer s (.ctx i)) i)))) ∧
    (c.state = .error → ∀ st, connError s i st = s)) ∧
  (∀ (s s1 : State) (k : MboxId) (blk : CmdBlock) (c : Cmd), Taken s k 0x031 true blk c s1 → fromPf0 c = true → bodyReserved blk.bits [] 16 = true →
    exec (.carmNodeLost k blk) s = .next (settle (answers true
      ((s1.carm.conns.filter (fun k => k.2.peerNode == bn blk.bits 15 0)).foldl (fun s k => connError s k.1 .peerLost) s1) c success))) ∧
  (∀ (s s1 : State) (i psn op : Nat) (again : Bool) (c k : Conn) (m : TxMsg) (bs : List Byte), (paritySettle s).conn i = some c → c.state = .established →
    c.tier = .die → c.pauseEnd = none → hasNode (paritySettle s) = true → sliceUp (paritySettle s) i = true → (ethPorts (paritySettle s)).isEmpty = false →
    nextPsn c = some (psn, again) → c.msgAt psn = some m → m.kind = .write op → m.notice = none → m.pieces = [] → m.failed = none → m.srcFailed = false →
    (again = true ∨ mayStart c (msgSpan c m psn).2 = true) → readSource (paritySettle s) i c m psn = (s1, .data bs) → s1.conn i = some k →
    ∃ path h t k1,
      (let s2 := sendPacket (s1.setConn i k1) i k path h (dataExt m.raddr.toNat m.rkey m.len m.ctr m.tgen m.ttag) bs
       let s3 := touchConn (if again then s2.count CARM_RETX else s2) i
       exec (.packetSend i) s = .next (settle (if again = true ∧ pRetry k.prof ≤ t.retx then connError s3 i .remoteTimeout else s3))) ∧
      h.ty = 0 ∧ h.op = op ∧ h.psn = psn ∧ h.msn = m.msn ∧ h.som = (psn == m.psn) ∧ h.eom = decide (psn + 1 = m.psn + m.count) ∧ h.paylen = bs.length ∧ h.retx = again ∧
      k1.nextSend = (if again then k.nextSend else psn + 1) ∧ k1.unacked = mset k.unacked psn t ∧ t.paylen = bs.length ∧ t.sentAt = s1.now ∧ k1.msgs = k.msgs ∧
      (∀ old, again = true → mget k.unacked psn = some old → old.miss = false → t.retx = old.retx + 1))

namespace Sys2Proof.Machine

/-- A flit that carries traffic arrives well formed on port `p`, and its ACK and credits have been taken (R297 to R299, R302). -/
def FlitTaken (s : State) (p : Nat) (bs : List Byte) (f : FlitIn) (s1 : State) : Prop :=
  p < 8 ∧ (s.port p).up = true ∧ (s.port p).fast = false ∧ readFlit bs = some f ∧ s1 = s.setPort p (applyFlit (s.port p) f)

/-- The first transaction of a type that may take effect on port `p` is `t`; it has left the inbox, and its flits are free (R297, R309). -/
def TxnTaken (s : State) (p ty : Nat) (t : RxTxn) (s1 : State) : Prop :=
  p < 8 ∧ firstTxn ty [] (s.port p).inbox = some t ∧ s1 = s.setPort p (freeFlits { s.port p with inbox := (s.port p).inbox.erase t } t.vc t.frees)

/-- An answer of the partner to the outstanding request `q` of port `p` (R308): the request has ended. -/
def AnswerTaken (s : State) (p ty : Nat) (t : RxTxn) (q : ApReq) (s2 : State) : Prop :=
  ∃ s1, TxnTaken s p ty t s1 ∧ (s1.port p).reqs.find? (fun r => r.tag == t.tag) = some q ∧
    s2 = s1.setPort p { s1.port p with reqs := (s1.port p).reqs.filter (fun r => r.tag != t.tag) }

end Sys2Proof.Machine

/-- R295, R296, R299, R302, R314, R315, R541: the lanes of a port and its state. A partner that comes or goes; training, its tests and its
bounds; a retest, a loss or a correction rate of a lane; CAPS; the commands AP_ASSIGN, AP_RETRAIN and AP_ENABLE; NAKs and lane swaps. -/
def Obligations.AcceleratorLinks : Prop :=
  (∀ (s : State) (p : Nat) (x : ApPort), p < 8 → s.port p = x →
    (∀ b, b = true ∨ x.pstate = .disabled ∨ x.pstate = .retired → exec (.partnerPresence p b) s = .next (afterPort (s.setPort p { x with present := b }))) ∧
    (x.pstate ≠ .disabled → x.pstate ≠ .retired → exec (.partnerPresence p false) s = .next (afterPort (portDown (s.setPort p { x with present := false }) p 2))) ∧
    (x.pstate = .down → x.enabled = true → exec (.trainingRetryTimer p) s = .next (afterPort (trainPort s p))) ∧
    (x.pstate = .training → x.mapped = false → exec (.trainingTimeout p) s = .next (afterPort (portDown s p 1))) ∧
    (x.pstate = .training → x.mapped = true → exec (.trainingTimeout p) s = .next (afterPort (portDown s p 2))) ∧
    (∀ good, x.pstate = .training → x.mapped = false → (goodLanes (s.setPort p { x with good := good }) p).length < 32 →
      exec (.laneTestDone p good) s = .next (afterPort (portDown (s.setPort p { x with good := good }) p 1))) ∧
    (∀ good s1, x.pstate = .training → x.mapped = false → 32 ≤ (goodLanes (s.setPort p { x with good := good }) p).length →
      s1 = failLanes (s.setPort p { x with good := good }) p ((livingLanes s p).filter (fun l => !good.getLsbD l)) →
      exec (.laneTestDone p good) s = .next (afterPort (noteSpares (s1.setPort p { s1.port p with
        lanes := dataLanes s1 p, mapped := true, control := [(5, laneMapBytes (dataLanes s1 p)), (4, capsBytes)] }) p))) ∧
    (∀ good, x.up = true → exec (.standbyLaneRetest p good) s = .next (afterPort (failLanes s p ((standbyLanes s p).filter (fun l => !good.getLsbD l))))) ∧
    (∀ lane ue, x.up = true → lane ∈ x.lanes →
      exec (.laneLoss p lane ue) s = .next (afterPort (fastRetrain (markRetired ((s.trouble (laneUnit p lane) .ue ue).trouble (laneUnit p lane) .fx) (laneUnit p lane)) p))) ∧
    (∀ good s1, x.up = true → x.fast = true → 32 ≤ (goodLanes (s.setPort p { x with good := good }) p).length →
      s1 = failLanes (s.setPort p { x with good := good }) p ((livingLanes s p).filter (fun l => !good.getLsbD l)) → (dataLanes s1 p).length = 64 ∨ (dataLanes s1 p).length = 32 →
      ∃ t, exec (.fastRetrainDone p good) s = .next (afterPort (noteSpares t p)) ∧ (t.port p).lanes = dataLanes s1 p ∧ (t.port p).fast = false ∧
        (t.port p).pstate = (if (dataLanes s1 p).length = 64 then .full else .half) ∧ (t.port p).resend = (s1.port p).replay) ∧
    (∀ lane n, x.up = true → n ≤ 212 → exec (.laneFecWindow p lane n) s = .next (afterPort (s.count (APRT_FEC_CE p) n))) ∧
    (∀ lane n i k ks, x.up = true → 212 < n → x.lanes.findIdx? (· == lane) = some i → standbyLanes s p = k :: ks → x.swap = none → x.fast = false →
      ∃ t, exec (.laneFecWindow p lane n) s = .next (afterPort t) ∧ (t.port p).swap = some (i, k) ∧ (2, swapBytes i k) ∈ (t.port p).control) ∧
    (∀ bs f, x.pstate = .training → x.mapped = true → readFlit bs = some f → f.kind = 2 → ctlOk 4 20 f = true →
      (∀ vc, vc < 4 → apLeast vc ≤ leAt f.payload (8 + 2 * vc) 2) →
      exec (.caps p bs) s = .next (afterPort (s.setPort p { x with
        pstate := if x.lanes.length < 64 then .half else .full, everHalf := x.everHalf || decide (x.lanes.length < 64), winsize := leAt f.payload 16 8
        partner := BitVec.ofNat 32 (leAt f.payload 24 4), credit := (List.range 4).map (fun vc => (vc, leAt f.payload (8 + 2 * vc) 2)) }))) ∧
    (∀ bs f vc, x.pstate = .training → x.mapped = true → readFlit bs = some f → f.kind = 2 → ctlOk 4 20 f = true → vc < 4 → leAt f.payload (8 + 2 * vc) 2 < apLeast vc →
      exec (.caps p bs) s = .next (afterPort (portDown s p 3))) ∧
    (x.up = true → x.fast = false → x.nakSent = 0 → x.swap = none → exec (.nakRepeatTimer p) s = .next (afterPort (s.setPort p x))) ∧
    (x.up = true → x.fast = false → 0 < x.nakSent → x.nakSent < 7 → x.swap = none → x.control = [] →
      exec (.nakRepeatTimer p) s = .next (afterPort (s.setPort p { x with control := [(1, leBytes 2 x.rxSeq)], nakSent := x.nakSent + 1 })))) ∧
  (∀ (s s1 : State) (p : Nat) (bs : List Byte) (f : FlitIn), FlitTaken s p bs f s1 → f.kind = 2 →
    exec (.caps p bs) s = .next (afterPort s1) ∧
    (∀ x, s1.port p = x → ctlOk 1 2 f = true → leAt f.payload 8 2 < 4096 → x.nakGot.1 ≠ leAt f.payload 8 2 → exec (.nak p bs) s = .next (afterPort (s1.setPort p
      { x with nakGot := (leAt f.payload 8 2, 1), resend := x.replay.dropWhile (fun r => r.seq != leAt f.payload 8 2) }))) ∧
    (∀ x, s1.port p = x → ctlOk 1 2 f = true → leAt f.payload 8 2 < 4096 → x.nakGot = (leAt f.payload 8 2, 7) → exec (.nak p bs) s = .next (afterPort (fastRetrain (s1.setPort p
      { x with nakGot := (leAt f.payload 8 2, 8), resend := x.replay.dropWhile (fun r => r.seq != leAt f.payload 8 2) }) p))) ∧
    (∀ x i k, s1.port p = x → ctlOk 2 2 f = true → leAt f.payload 8 1 = i → leAt f.payload 9 1 = k → leAt f.payload 8 2 = i + 256 * k → i < x.lanes.length → i < 64 → k < 66 →
      (x.lanes.contains k = false ∨ x.lanes.getD i k = k) →
      exec (.laneSwap p bs) s = .next (afterPort (noteSpares (s1.setPort p { x with lanes := x.lanes.set i k, control := x.control ++ [(3, swapBytes i k)] }) p))) ∧
    (∀ x i k, s1.port p = x → x.swap = some (i, k) → ctlOk 3 2 f = true → leAt f.payload 8 2 = i + 256 * k →
      exec (.laneSwapAck p bs) s = .next (afterPort (noteSpares (s1.setPort p { x with lanes := x.lanes.set i k, swap := none }) p)))) ∧
  (∀ (s : State) (p : Nat), p < 8 →
    (∀ c, ((portDown s p c).port p).cause = c ∧ ((portDown s p c).port p).reqs = [] ∧ ((portDown s p c).port p).tx = [] ∧ ((portDown s p c).port p).replay = [] ∧
      ((portDown s p c).port p).posts = (s.port p).posts ∧ ((portDown s p c).port p).owner = (s.port p).owner ∧ ((portDown s p c).port p).up = false) ∧
    ((s.port p).pstate ≠ .retired → 32 ≤ (livingLanes s p).length → (s.port p).enabled = true → (s.port p).present = true →
      ((trainPort s p).port p).pstate = .training ∧ ((trainPort s p).port p).t0 = s.now ∧ ((trainPort s p).port p).mapped = false ∧ ((trainPort s p).port p).txSeq = 0) ∧
    ((fastRetrain s p).port p).fast = true ∧ ((fastRetrain s p).port p).replay = (s.port p).replay) ∧
  (∀ (s s1 : State) (k : MboxId) (blk : CmdBlock) (c : Cmd) (p : Nat), fromPf0 c = true → bn blk.bits 2 0 = p →
    (Taken s k 0x040 true blk c s1 → bodyReserved blk.bits [(15, 3)] 29 = true → exec (.apAssign k blk) s =
      .next (afterPort (answers true (s1.setPort p { s1.port p with owner := if bt blk.bits 28 then none else some (bn blk.bits 27 16) }) c success))) ∧
    (Taken s k 0x041 true blk c s1 → bodyReserved blk.bits [] 3 = true → (s1.port p).pstate ≠ .disabled → (s1.port p).pstate ≠ .retired →
      exec (.apRetrain k blk) s = .next (afterPort (answers true (fullRetrain s1 p 5) c success))) ∧
    (Taken s k 0x042 true blk c s1 → bodyReserved blk.bits [(7, 3)] 9 = true → (s1.port p).pstate ≠ .retired →
      (bt blk.bits 8 = true → (s1.port p).enabled = false →
        exec (.apEnable k blk) s = .next (afterPort (answers true (trainPort (s1.setPort p { s1.port p with enabled := true }) p) c success))) ∧
      (bt blk.bits 8 = false → (s1.port p).enabled = true →
        exec (.apEnable k blk) s = .next (afterPort (answers true (portDown (s1.setPort p { s1.port p with enabled := false }) p 5) c success)))))

/-- R297 to R310, R438: flits of transactions and what they do. A flit in order is taken, one out of order calls for a NAK; transactions take
effect in the order of R309, as the owner's work; answers end requests; the next flit leaves in the order of R303. -/
def Obligations.AcceleratorTransactions : Prop :=
  (∀ (s s1 : State) (p : Nat) (bs : List Byte) (f : FlitIn) (x : ApPort), FlitTaken s p bs f s1 → s1.port p = x →
    (f.kind = 0 → exec (.idleFlit p bs) s = .next (afterPort s1)) ∧
    (f.kind = 1 → f.seq = x.rxSeq → x.rxSeq < 4096 → f.vc ≠ 3 → mgetD x.rxHeld f.vc 0 < apCredits f.vc → exec (.transactionFlit p bs) s = .next (afterPort (takePayload
      ((s1.count (APRT_RX_FLITS p)).setPort p { x with rxSeq := (x.rxSeq + 1) % 4096, rxAny := true, nakSent := 0, rxHeld := mset x.rxHeld f.vc (mgetD x.rxHeld f.vc 0 + 1) }) p f))) ∧
    (f.kind = 1 → f.seq = x.rxSeq → x.rxSeq < 4096 → f.vc = 3 → mgetD x.rxHeld f.vc 0 < apCredits f.vc → exec (.transactionFlit p bs) s = .next (afterPort (takePayload (countExpress
      ((s1.count (APRT_RX_FLITS p)).setPort p { x with rxSeq := (x.rxSeq + 1) % 4096, rxAny := true, nakSent := 0, rxHeld := mset x.rxHeld f.vc (mgetD x.rxHeld f.vc 0 + 1) }) p) p f))) ∧
    (f.kind = 1 → f.seq = x.rxSeq → x.rxSeq < 4096 → apCredits f.vc ≤ mgetD x.rxHeld f.vc 0 →
      exec (.transactionFlit p bs) s = .next (afterPort (fullRetrain ((s1.count (APRT_RX_FLITS p)).count (APRT_CREDIT_ERR p)) p 4))) ∧
    (f.kind = 1 → x.rxSeq < f.seq → f.seq < x.rxSeq + 2048 → f.seq < 4096 → x.nakSent = 0 →
      exec (.transactionFlit p bs) s = .next (afterPort (s1.setPort p { x with nakSent := 1, control := x.control ++ [(1, leBytes 2 x.rxSeq)] }))) ∧
    (f.kind = 1 → f.seq < x.rxSeq → x.rxSeq ≤ f.seq + 2048 → x.rxSeq < 4096 → exec (.transactionFlit p bs) s = .next (afterPort s1))) ∧
  (∀ (s : State) (p : Nat) (bs : List Byte), p < 8 → (s.port p).up = true → (s.port p).fast = false → readFlit bs = none →
    exec (.idleFlit p bs) s = .next (afterPort (s.count (APRT_CRC_ERR p))) ∧ exec (.transactionFlit p bs) s = .next (afterPort (s.count (APRT_CRC_ERR p)))) ∧
  (∀ (ty : Nat) (l : List RxTxn) (t : RxTxn), firstTxn ty [] l = some t →
    ∃ as bs, l = as ++ t :: bs ∧ t.ttype = ty ∧ ∀ e ∈ as, e.vc ≠ t.vc ∧ (t.vc < 2 → e.vc ≠ 2)) ∧
  (∀ (s s1 : State) (p f a : Nat) (t : RxTxn), t.addr.toNat = a → (s1.port p).owner = some f →
    (TxnTaken s p 1 t s1 → writeWaits s a t.len = false → inTierN a t.len = true → lakeCheck s1 { fn := f } a t.len = none →
      exec (.mwr p) s = .next (afterPort (lakeWrite s1 a t.data).1)) ∧
    (∀ s2 bs ps, TxnTaken s p 2 t s1 → accessWaits s a t.len = false → inTierN a t.len = true → lakeCheck s1 { fn := f } a t.len = none → lakeRead s1 a t.len = (s2, bs, ps) →
      (ps = [] → exec (.mrd p) s = .next (afterPort (answer s2 p t bs))) ∧ (ps ≠ [] → exec (.mrd p) s = .next (afterPort (answerErr s2 p t .poisonedData)))) ∧
    (∀ st, TxnTaken s p 2 t s1 → accessWaits s a t.len = false → inTierN a t.len = true → lakeCheck s1 { fn := f } a t.len = some st →
      exec (.mrd p) s = .next (afterPort (answerErr ((denied s1 st).count (APRT_DENY p)) p t st))) ∧
    (TxnTaken s p 5 t s1 → ownsCtr s1 f a = true → exec (.apCtrAdd p) s = .next (afterPort (s1.addCtr a (BitVec.ofNat 64 (leNat t.data))))) ∧
    (TxnTaken s p 5 t s1 → ownsCtr s1 f a = false → exec (.apCtrAdd p) s = .next (afterPort (s1.count (APRT_DENY p)))) ∧
    (TxnTaken s p 6 t s1 → ownsCtr s1 f a = true → exec (.ctrRd p) s = .next (afterPort (answer s1 p t (leBytes 8 (s1.ctr a).toNat)))) ∧
    (TxnTaken s p 7 t s1 → exec (.apFence p) s = .next (afterPort (answer s1 p t []))) ∧
    (∀ ring, TxnTaken s p 8 t s1 → checkHandle s1 { fn := f } t.addr [1] = .inl ring →
      ((s1.port p).posts.length < 256 → exec (.apPost p) s = .next (afterPort (s1.setPort p
        { s1.port p with posts := (s1.port p).posts ++ [⟨ring, (s1.slot 1 ring).gen, BitVec.ofNat 512 (leNat t.data)⟩] }))) ∧
      (256 ≤ (s1.port p).posts.length → exec (.apPost p) s = .next (afterPort (s1.count (APRT_POST_DROP p)))))) ∧
  (∀ (s s1 : State) (p : Nat) (t : RxTxn), (s1.port p).owner = none →
    (TxnTaken s p 1 t s1 → writeWaits s t.addr.toNat t.len = false → exec (.mwr p) s = .next (afterPort (s1.count (APRT_DENY p)))) ∧
    (TxnTaken s p 2 t s1 → accessWaits s t.addr.toNat t.len = false → exec (.mrd p) s = .next (afterPort (answerErr (s1.count (APRT_DENY p)) p t .accessDenied))) ∧
    (TxnTaken s p 6 t s1 → exec (.ctrRd p) s = .next (afterPort (answerErr (s1.count (APRT_DENY p)) p t .accessDenied))) ∧
    (TxnTaken s p 8 t s1 → exec (.apPost p) s = .next (afterPort (s1.count (APRT_DENY p))))) ∧
  (∀ (s : State) (p : Nat) (w : PostWait) (k : WorkRing), p < 8 → firstPost s [] (s.port p).posts = some w → mget s.vat.work w.ring = some k → k.halted = false →
    exec (.apPostStart p) s = .next (afterPort (reserve ((s.setPort p { s.port p with posts := (s.port p).posts.erase w }).setWork w.ring
      { k with nextSeq := k.nextSeq + 1, queue := k.queue ++ [{ slot := 0xFFFF, posted := true, desc := some w.desc, seq := k.nextSeq }] }) k.cq))) ∧
  (∀ (s s1 : State) (p key : Nat) (t : RxTxn) (q : ApReq), q.work.key = some key → q.fence = false →
    (AnswerTaken s p 3 t q s1 → t.len = q.len → ∃ u, exec (.cpl p) s = .next (afterPort u) ∧ mget u.ap.got key = some (putBytes (mgetD s1.ap.got key []) q.addr t.data) ∧ u.ap.bad = s1.ap.bad) ∧
    (AnswerTaken s p 3 t q s1 → t.len ≠ q.len → exec (.cpl p) s = .next (afterPort (failWork s1 q.work))) ∧
    (AnswerTaken s p 4 t q s1 → t.status = Status.poisonedData.code → exec (.cplErr p) s = .next (afterPort (gotData s1 q (List.replicate q.len 0#8) true))) ∧
    (AnswerTaken s p 4 t q s1 → t.status ≠ Status.poisonedData.code → exec (.cplErr p) s = .next (afterPort (failWork s1 q.work)))) ∧
  (∀ (s s1 : State) (p until_ : Nat) (t : RxTxn), TxnTaken s p 3 t s1 → (∀ r ∈ (s1.port p).reqs, r.tag ≠ t.tag) → (t.tag, until_) ∈ (s1.port p).lateTags →
    exec (.cpl p) s = .next (afterPort (s1.count (APRT_LATE_CPL p)))) ∧
  (∀ (s : State) (p tag : Nat) (q : ApReq), p < 8 → (s.port p).reqs.find? (fun r => r.tag == tag) = some q → ∃ u, exec (.apCplTimeout p tag) s = .next (afterPort (failWork u q.work)) ∧
    (u.port p).reqs = (s.port p).reqs.filter (fun r => r.tag != tag) ∧ (tag, s.now + 200000) ∈ (u.port p).lateTags) ∧
  (∀ (s : State) (p : Nat) (x : ApPort), p < 8 → s.port p = x → x.up = true → x.fast = false →
    (∀ code bs cs, x.control = (code, bs) :: cs → exec (.flitTransmit p) s = .next (afterPort (putFlit (s.setPort p { x with control := cs }) p 2 0 15 0 (leBytes 8 code ++ bs)))) ∧
    (∀ r rs, x.control = [] → x.resend = r :: rs → exec (.flitTransmit p) s =
      .next (afterPort ((putFlit (s.setPort p { x with resend := rs }) p 1 r.vc r.first r.seq r.payload).count (APRT_REPLAY p)))) ∧
    (∀ vc, x.control = [] → x.resend = [] → x.replay.length < 1024 → nextVc x = some vc → exec (.flitTransmit p) s = .next (afterPort (sendVc s p vc))) ∧
    (x.control = [] → x.resend = [] → nextVc x = none ∨ 1024 ≤ x.replay.length → exec (.flitTransmit p) s = .next (afterPort (putFlit s p 0 0 15 0 []))) ∧
    (∀ vc, nextVc x = some vc → mgetD x.tx vc [] ≠ [] ∧ mgetD x.credit vc 0 ≠ 0 ∧ (∀ v, mgetD x.tx v [] ≠ [] → mgetD x.credit v 0 ≠ 0 → v = 3 → vc = 3)))

/-- R318 to R321, R323, R324, R326, R328 to R333: Ethernet ports and laser cartridges. Modes, links and preemption; the timestamp counter as
registers show it; emitters that age or fail and the move to a spare; a cartridge read, released, taken out, put in, verified and logged. -/
def Obligations.EthernetPortsAndCartridges : Prop :=
  (∀ (s : State) (p : Nat) (x : EthPort), s.eth p = x →
    (∀ v : W32, p < 64 → v.toNat % 4 = ethMode s p → exec (.ethPortCfgWrite p v) s = .next (startVerify (s.setReg (ETH_PORT_CFG p) (v.toNat % 64)) p (ethPreempt s p))) ∧
    (∀ was, (x.up = false ∨ ethPreempt s p = was → startVerify s p was = s) ∧
      (x.up = true → ethPreempt s p = !was → startVerify s p was = s.setEth p { x with pstate := if was then 0 else 1, attempts := 0 })) ∧
    (∀ v : W32, p < 64 → v.toNat % 4 ≠ ethMode s p → exec (.ethPortCfgWrite p v) s = .next (relight (s.setReg (ETH_PORT_CFG p) (v.toNat % 64)) p)) ∧
    (x.lstate ≠ 5 → ethMode s p = 0 → ((relight s p).eth p).lstate = 0 ∧ ((relight s p).eth p).cause = 6) ∧
    (x.lstate ≠ 5 → ethMode s p ≠ 0 → ((relight s p).eth p).lstate =
      if (halfLit s (p / 4) (2 * (p % 4))).isSome ∨ (halfLit s (p / 4) (2 * (p % 4) + 1)).isSome then 2 else 1) ∧
    (x.lstate = 2 ∨ (x.lstate = 1 ∧ portLit s p = true) → ∃ t, exec (.ethLinkUp p) s = .next t ∧ (t.eth p).lstate = (if ethMode s p = 1 ∧ x.degraded = false then 3 else 4) ∧
      (t.eth p).pstate = (if ethPreempt s p then 1 else 0) ∧ (t.eth p).up = true ∧ ∀ q, q ≠ p → t.eth q = s.eth q) ∧
    (∀ c, x.up = true ∨ x.lstate = 2 → ∃ t, exec (.ethLinkDown p c) s = .next t ∧ (t.eth p).lstate = 1 ∧ (t.eth p).cause = c % 16 ∧ (t.eth p).pstate = 0) ∧
    (x.up = true → x.pstate = 1 →
      exec (.preemptVerify p true) s = .next (s.setEth p { x with pstate := 2 }) ∧
      (x.attempts < 2 → exec (.preemptVerify p false) s = .next (s.setEth p { x with attempts := x.attempts + 1, pstate := 1 })) ∧
      (2 ≤ x.attempts → exec (.preemptVerify p false) s = .next (s.setEth p { x with attempts := x.attempts + 1, pstate := 3 }))) ∧
    exec (.tsLatchRead p) s = .next ((s.setEth p { x with latched := portSec s p }).emit (.readData (portSubNs s p))) ∧
    (∀ v : W32, ethTshost s p = false → exec (.tsRateWrite p v) s = .next s) ∧
    (∀ v : W32, ethTshost s p = true → ∃ t, exec (.tsRateWrite p v) s = .next t ∧ portNs t p = portNs s p ∧ t.reg (ETH_TS_RATE p) = v.toNat) ∧
    portSubNs s p < 1000000000 ∧ portNs (stepTs s p 0) p = portNs s p ∧ ∀ d, portNs (stepTs s p d) p = portNs s p + d) ∧
  (∀ (s : State) (e i : Nat) (k : Cart), s.cart e = k →
    (∀ b h, (List.range 8).find? (fun h => halfLit s e h == some i) = some h →
      (1434 ≤ b → exec (.emitterBiasCheck e i b) s = .next (retireEmitter (s.setCart e { k with bias := mset k.bias i b }) e i)) ∧
      (b < 1280 → exec (.emitterBiasCheck e i b) s = .next (s.setCart e { k with bias := mset k.bias i b })) ∧
      (∀ j js, 1280 ≤ b → b < 1434 → k.move = none → k.releasing = false → spareEmitters k = j :: js →
        exec (.emitterBiasCheck e i b) s = .next (s.setCart e { k with bias := mset k.bias i b, move := some (h, j) })) ∧
      (∀ ev s2, 1280 ≤ b → b < 1434 → k.move = none → k.releasing = false → spareEmitters k = [] → (s.setCart e { k with bias := mset k.bias i b }).choose 65536 = (ev, s2) →
        exec (.emitterBiasCheck e i b) s = .next (s2.event none ev (emitterUnit e i)))) ∧
    (∀ h, k.move = some (h, i) → exec (.plannedMoveHandover e) s =
      .next (retireEmitter (lifeLog (takeHalf (s.setCart e { k with move := none }) e h i (mgetD k.assign h 0)) e 5 i h) e (mgetD k.assign h 0))) ∧
    (∀ h old, ((takeHalf s e h i old).cart e).assign = mset k.assign h i ∧ ((takeHalf s e h i old).unit (emitterUnit e i)).standsFor = some (emitterUnit e old) ∧
      ((takeHalf s e h i old).unit (emitterUnit e i)).state = .inService) ∧
    (i < 12 → exec (.emitterFailure e i) s = .next (retireEmitter s e i)) ∧
    (∀ j js h old, spareEmitters k = j :: js → assignSpare s e h old = lifeLog (takeHalf s e h j old) e 4 j h) ∧
    (k.releasing = true → k.cmd = 0 → exec (.cartReleaseDone e) s =
      .next (enginePortsDown ((lifeLog s e 2 0xFF 0xFF).setCart e { (lifeLog s e 2 0xFF 0xFF).cart e with releasing := false, cmd := 0, cstate := 3 }) e 3)) ∧
    (k.releasing = true → k.cmd ≠ 0 → exec (.cartReleaseDone e) s = .next (finishCmd
      (enginePortsDown ((lifeLog s e 2 0xFF 0xFF).setCart e { (lifeLog s e 2 0xFF 0xFF).cart e with releasing := false, cmd := 0, cstate := 3 }) e 3) k.cmd success)) ∧
    (k.cstate = 3 → exec (.latchOpen e) s = .next (s.setCart e { k with latch := false })) ∧
    (∀ d, k.cstate = 2 → k.data = some d → k.cmd = 0 → ∃ t, exec (.latchOpen e) s = .next t ∧ recSerial d ∈ t.net.removed ∧
      t.net.carts = mset s.net.carts e { k with latch := false, cstate := 0, move := none, releasing := false, cmd := 0 }) ∧
    (∀ d, k.latch = false → exec (.latchClose e (some d)) s = .next (s.setCart e { latch := true, cstate := 1, data := some d })) ∧
    (k.latch = false → exec (.latchClose e none) s = .next (s.setCart e { latch := true })) ∧
    (∀ d, k.cstate = 1 → k.data = some d → cartOk d = true → exec (.cartVerifyDone e true) s = .next (cartInService s e d)) ∧
    (∀ d ok, k.cstate = 1 → k.data = some d → cartOk d = false ∨ ok = false → exec (.cartVerifyDone e ok) s =
      .next ((List.range 4).foldl (fun s i => relight s (4 * e + i)) (s.setCart e { k with cstate := 4 }))) ∧
    (∀ d, k.data = some d → ∃ log, exec (.cartHourlyLog e) s =
        .next (s.setCart e { k with chours := min (2 ^ 32 - 1) (k.chours + 1), data := some { d with log := log } }) ∧
      (litEmitters s e = [] → log = d.log) ∧ (∀ j, litEmitters s e = [j] → log = splice d.log (4 * j) (leBytes 4 (min (2 ^ 32 - 1) (logHours d j + 1))))) ∧
    exec (.cartDailySample e) s = .next ((List.range 8).foldl (fun t h => match halfLit s e h with
      | some i => lifeLog t e 8 i h
      | none => t) s)) ∧
  FwRow 0x051 .cartRead (fun s c b => fromPf0 c = true ∧ bodyReserved b [(63, 4), (69, 64)] 128 = true ∧ (s.cart (bn b 3 0)).data ≠ none)
    (fun s c b => s.hostWrite c.fn (bn b 127 64) (match (s.cart (bn b 3 0)).data with
      | some d => slice d.record 0 8112 ++ slice d.log 0 65536
      | none => []))
    (fun _ _ _ => success) ∧
  FwLaterRow 0x050 .cartRelease (fun s c b => fromPf0 c = true ∧ bodyReserved b [] 4 = true ∧ (s.cart (bn b 3 0)).cstate = 2 ∧ (s.cart (bn b 3 0)).releasing = false)
    (fun s c b => (List.range 4).foldl (fun s i => s.setEth (4 * bn b 3 0 + i) { s.eth (4 * bn b 3 0 + i) with closing := true })
      (s.setCart (bn b 3 0) { s.cart (bn b 3 0) with releasing := true, cmd := c.id, move := none }))

/-- R326, R355 to R371, R374 to R377, R469: the scheduler of an Ethernet port. A waiting frame enters its queue, an ACK or a NACK ahead of the data there; at a frame boundary a class and
a queue are chosen and the head frame leaves, a TC0 frame interrupting a preemptable one; shapers and gate lists are committed and begin; the counter is stepped; queues are sampled. -/
def Obligations.WeldScheduling : Prop :=
  (∀ (s : State) (p q : Nat) (w : WaitFrame), nextWaiting s p = some w → q = queueFor s p w.frame.cls w.key →
    w ∈ s.net.waiting ∧ w.port = p ∧ frameFits s w = true ∧ ∃ t, exec (.weldEnqueue p) s = .next t ∧ t.net.waiting = s.net.waiting.erase w ∧
      (t.queue p q).frames = joinFrames (s.queue p q).frames { w.frame with since := s.now } ∧ ∀ p' q', 4096 * p' + q' ≠ 4096 * p + q → t.queue p' q' = s.queue p' q') ∧
  (∀ (s : State) (p : Nat) (row : Instr), row = .transmitDecision p ∨ row = .queueBecomesEligible p →
    ((s.eth p).up = false → exec row s = .next s) ∧
    (∀ s1 c, (s.eth p).up = true → settleClasses (guardBand (tickShapers s p) p) p = s1 → tc0Pick s1 p (candidates s1 p) = some c → 0 ≤ bucketNow s1 p →
      exec row s = .next (sendFrame (preempt (s1.setWport p
        { s1.wport p with x := some (bucketNow s1 p - 256 * (frameCost s1 p 0 c.head : Nat)), xAt := s1.now, lastTc0 := c.q }) p (frameCost s1 p 0 c.head)) p 0 c)) ∧
    (∀ s1, (s.eth p).up = true → settleClasses (guardBand (tickShapers s p) p) p = s1 → tc0Pick s1 p (candidates s1 p) = none → lowPick s1 p (candidates s1 p) = none → exec row s = .next s1) ∧
    (∀ s1, (s.eth p).up = true → settleClasses (guardBand (tickShapers s p) p) p = s1 → tc0Pick s1 p (candidates s1 p) = none →
      exec row s = .next (transmit.low s1 p (candidates s1 p)))) ∧
  (∀ (s : State) (p k slot : Nat) (cs : List Cand) (c : Cand) (d : Map Nat), lowPick s p cs = some (k, c, d, slot, none) →
    transmit.low s p cs = settleClasses (sendFrame (takeOff
      ((putDeficits s p d).setWport p { (putDeficits s p d).wport p with curQueue := mset ((putDeficits s p d).wport p).curQueue slot c.q }) p c) p k c) p) ∧
  (∀ (s : State) (p cost : Nat) (f : Flight), (s.eth p).pstate = 2 → (s.wport p).flight = some f → f.close = none → 200 * s.now < f.stop →
    f.start + wireTime s p (64 * (s.reg (ETH_PORT_CFG p) / 8 % 4 + 1)) ≤ 200 * s.now →
    preempt s p cost = (s.setWport p { s.wport p with flight := some { f with stop := f.stop + wireTime s p cost } }).count (ETH_FRAGS p)) ∧
  (∀ (s : State) (p k : Nat) (c : Cand), c.head.cmd = 0 → c.x.shpEn = false → k = c.cls →
    (sendFrame s p k c).out = .frame p (wireFrame s p k c.head.bytes) :: .frameTime p (portSec s p) (portSubNs s p) :: s.out ∧
    ((sendFrame s p k c).queue p c.q).frames = (s.queue p c.q).frames.drop 1 ∧ (sendFrame s p k c).reg (ETH_TX_FRAMES p) = min (2 ^ 64 - 1) (mgetD s.regs (ETH_TX_FRAMES p) 0 + 1)) ∧
  (∀ (items : List DrrItem) (d : Map Nat) (x : DrrItem) (cur : Nat), items.find? (fun y => some cur == some y.id) = some x → x.cost ≤ mgetD d x.id 0 →
    drr items d (some cur) = some (x.id, mset d x.id (mgetD d x.id 0 - x.cost))) ∧
  (∀ (s : State) (i : Nat) (v : W32), i < 16384 → ∃ t x, exec (.shaperCommit i v) s = .next t ∧ t.shaper i = x ∧ t.reg (WELD_SHP_CTRL i) = v.toNat % 4 ∧
    x.en = v.getLsbD 0 ∧ x.cir = s.reg (WELD_SHP_RATE i) % 2 ^ 24 ∧ x.pir = s.reg (WELD_SHP_RATE i) / 2 ^ 24 % 2 ^ 24 ∧
    x.cbs = s.reg (WELD_SHP_BURST i) % 2 ^ 24 ∧ x.pbs = s.reg (WELD_SHP_BURST i) / 2 ^ 24 % 2 ^ 24 ∧ x.at_ = s.now ∧
    x.c = (if v.getLsbD 1 then 0 else 256 * (x.cbs : Int)) ∧ x.p = (if v.getLsbD 1 then 0 else 256 * (x.pbs : Int))) ∧
  (∀ (s : State) (p : Nat) (v : W32), p < 64 → v.toNat % 512 ≤ 256 →
    (v.getLsbD 16 = false → exec (.gateListChange p v) s = .next (s.setReg (WELD_GATE_CTRL p) (v.toNat % 512))) ∧
    (v.getLsbD 16 = true → ∃ t g, exec (.gateListChange p v) s = .next t ∧ (t.wport p).change = some g ∧ (t.wport p).running = (s.wport p).running ∧
      g.entries.length = v.toNat % 512 ∧ g.start = firstStart g.base g.cycle ((portNs s p).toNat + 10000))) ∧
  (∀ base cycle t, 0 < cycle → base ≤ firstStart base cycle t ∧ t ≤ firstStart base cycle t ∧ (∃ k, firstStart base cycle t = base + k * cycle) ∧
    ∀ k, t ≤ base + k * cycle → firstStart base cycle t ≤ base + k * cycle) ∧
  (∀ (s : State) (p : Nat) (g : GateList), (s.wport p).change = some g →
    (g.start ≤ portNs s p → ∃ t, exec (.gateListStart p) s = .next t ∧ (t.wport p).running = g ∧ (t.wport p).change = none) ∧
    (portNs s p < g.start → exec (.gateListStart p) s = .next s)) ∧
  (∀ (s : State) (p : Nat), exec (.gateEntryAdvance p) s = .next (tickShapers s p)) ∧
  (∀ (s : State) (p : Nat) (v : W64), (ethTshost s p = true → exec (.tsAdjWrite p v) s = .next (startList (stepTs (tickShapers s p) p (sgn 64 v.toNat)) p)) ∧
    (ethTshost s p = false → exec (.tsAdjWrite p v) s = .next s) ∧
    (ethTshost s p = false → (s.eth p).up = true → exec (.timeAwareSystemSteering p v none) s = .next (startList (stepTs (tickShapers s p) p (sgn 64 v.toNat)) p) ∧
      ∀ r : W32, exec (.timeAwareSystemSteering p v (some r)) s = .next (startList ((stepTs (tickShapers s p) p (sgn 64 v.toNat)).setReg (ETH_TS_RATE p) r.toNat) p))) ∧
  (∀ (s : State), (∀ q ∈ s.net.queues, q.2.samp = false) → exec .queueSample s = .next s) ∧
  (∀ (s : State) (k : Nat) (q : EQueue), s.net.queues = [(k, q)] → q.samp = true → s.reg WELD_SAMPLE_CFG % 1024 ≠ 0 →
    exec .queueSample s = .next { s with net := { s.net with queues := [(k, sampleQueue s (k / 4096) (k % 4096) q)] } }) ∧
  (∀ (s s1 : State) (k : MboxId) (blk : CmdBlock) (c : Cmd) (bs : List Byte), Taken s k 0x091 true blk c s1 → fromPf0 c = true →
    bodyReserved blk.bits [(79, 78), (87, 86)] 91 = true → 60 ≤ bn blk.bits 77 64 → bn blk.bits 77 64 ≤ 9212 → s1.master c.fn = true →
    exec (.spSend k blk (some bs)) s = .next (handToWeld s1 (bn blk.bits 85 80) 0 { bytes := slice bs 0 (bn blk.bits 77 64), cls := bn blk.bits 90 88, cmd := c.id }))

namespace Sys2Proof.Machine

/-- The rule that `MADR_RULE_SEL` selects (R347). -/
def selectedRule (s : State) : Rule := mgetD s.madr.rules (ruleSel s) {}

/-- A flow command with its checks (R351): it waits while a table is built, and comes from physical function 0 with a clean body. -/
def FlowTaken (s : State) (k : MboxId) (op n : Nat) (rs : List (Nat × Nat)) (blk : CmdBlock) (c : Cmd) (s1 : State) : Prop :=
  s.madr.building = none ∧ Taken s k op true blk c s1 ∧ fromPf0 c = true ∧ bodyReserved blk.bits rs n = true

end Sys2Proof.Machine

/-- R320, R338, R341, R345 to R347, R350 to R352: frames from a port and what decides them. A good frame waits while its port's buffer has room;
frames with PCP 0 go first; causes, rules, Carmine's own, flows and the slow path decide in that order; the rule and flow commands. -/
def Obligations.FrameClassification : Prop :=
  (∀ (s : State) (p : Nat) (bs : List Byte) (ok : Bool), (s.eth p).up = true →
    (ok = false ∨ bs.length < 60 ∨ 9212 < bs.length → exec (.frameReceive p bs ok) s = .next (s.count (ETH_RX_ERR p))) ∧
    (ok = true → 60 ≤ bs.length → bs.length ≤ 9212 → pcpZero bs = false → ingressBytes s p + bs.length ≤ 262144 → ∃ t, exec (.frameReceive p bs ok) s = .next t ∧
      t.madr.ingress = s.madr.ingress ++ [⟨p, bs, portNs s p⟩] ∧ t.reg (ETH_RX_FRAMES p) = min (2 ^ 64 - 1) (mgetD s.regs (ETH_RX_FRAMES p) 0 + 1)) ∧
    (ok = true → 60 ≤ bs.length → bs.length ≤ 9212 → pcpZero bs = false → 262144 < ingressBytes s p + bs.length →
      exec (.frameReceive p bs ok) s = .next ((s.count (ETH_RX_FRAMES p)).count MADR_RX_OVF))) ∧
  (∀ (s : State) (p : Nat) (f : RxFrame),
    ((s.madr.ingress.filter (fun f => f.port == p)).find? (fun f => pcpZero f.bytes) = some f ∨
      ((s.madr.ingress.filter (fun f => f.port == p)).find? (fun f => pcpZero f.bytes) = none ∧ (s.madr.ingress.filter (fun f => f.port == p)).head? = some f)) →
    exec (.madderParse p) s = .next (decideFrame { s with madr := { s.madr with ingress := s.madr.ingress.erase f } } f)) ∧
  (∀ (cs : List Nat) (m : Nat), leastCause cs = some m ↔ m ∈ cs ∧ ∀ x ∈ cs, m ≤ x) ∧
  (∀ (s : State) (f : RxFrame) (p : Parse) (key : BitVec 448), p = parseFrame s f.bytes → key = p.key f.port →
    (∀ c, leastCause p.causes = some c → decideFrame s f = sampleFrame (slowPath s f c 0) f.port key f.bytes.length f.stamp 1) ∧
    (∀ i r, p.causes = [] → s.madr.rules.find? (fun r => r.2.hits s key) = some (i, r) → decideFrame s f = applyAction (s.count (MADR_RULE_HITS i)) f p r.action) ∧
    (p.causes = [] → s.madr.rules.find? (fun r => r.2.hits s key) = none → p.carm = true → p.own = true →
      decideFrame s f = sampleFrame (toCarmine (s.count MADR_CARM_DEF) p f.bytes) f.port key f.bytes.length f.stamp 2) ∧
    (p.causes = [] → s.madr.rules.find? (fun r => r.2.hits s key) = none → p.carm = false ∨ p.own = false → p.v4 = true ∨ p.v6 = true → s.madr.n ≠ 0 →
      decideFrame s f = { s with madr := { s.madr with lookups := s.madr.lookups ++ [⟨f, key⟩] } }) ∧
    (p.causes = [] → s.madr.rules.find? (fun r => r.2.hits s key) = none → p.carm = false → p.v4 = false → p.v6 = false → decideFrame s f = unmatched s f p)) ∧
  (∀ (s : State) (f : RxFrame) (p : Parse) (a : W64), bn a 2 0 = 0 → applyAction s f p a = sampleFrame s f.port (p.key f.port) f.bytes.length f.stamp 0) ∧
  (∀ (s : State) (l : Lookup) (ls : List Lookup), s.madr.lookups = l :: ls →
    (∀ i e, flowStalls s (flowKey l.key) = false → flowFind s.madr.n s.madr.flows (flowKey l.key) = some (i, e) → exec .flowLookupResult s =
      .next (applyAction (({ s with madr := { s.madr with lookups := ls } } : State).count MADR_FLOW_HIT) l.frame (parseFrame s l.frame.bytes) e.action)) ∧
    (flowStalls s (flowKey l.key) = false → flowFind s.madr.n s.madr.flows (flowKey l.key) = none → exec .flowLookupResult s =
      .next (unmatched (({ s with madr := { s.madr with lookups := ls } } : State).count MADR_FLOW_MISS) l.frame (parseFrame s l.frame.bytes))) ∧
    exec .flowLookupTimeout s = .next (unmatched (({ s with madr := { s.madr with lookups := ls } } : State).count MADR_FLOW_MISS) l.frame (parseFrame s l.frame.bytes))) ∧
  (∀ (s : State), (s.madr.busy = true → ∀ row, row = Instr.ruleWrite ∨ row = Instr.ruleInvalidate ∨ row = Instr.ruleRead →
      exec row s = .next { s with madr := { s.madr with err := 2 } }) ∧
    (s.madr.busy = false → (selectedRule s).valid = true → exec .ruleWrite s = .next { s with madr := { s.madr with busy := false, err := 1 } }) ∧
    (s.madr.busy = false → (selectedRule s).valid = false → ∃ t, exec .ruleWrite s = .next t ∧ t.madr.busy = true ∧ t.reg (MADR_RULE_HITS (ruleSel s)) = 0 ∧
      t.madr.rules = mset s.madr.rules (ruleSel s) (⟨stagedWide s 0, stagedWide s 7, BitVec.ofNat 64 (s.reg (MADR_RULE_DATA 14)), BitVec.ofNat 64 (s.reg (MADR_RULE_DATA 15)), true⟩ : Rule)) ∧
    (s.madr.busy = false → (selectedRule s).valid = true → exec .ruleInvalidate s =
      .next { s with madr := { s.madr with busy := true, err := 0, rules := mset s.madr.rules (ruleSel s) { selectedRule s with valid := false } } }) ∧
    (s.madr.busy = false → ∃ t, exec .ruleRead s = .next t ∧ t.madr = { s.madr with busy := true, err := 0, statValid := (selectedRule s).valid } ∧
      t.reg (MADR_RULE_DATA 14) = (selectedRule s).range.toNat ∧ t.reg (MADR_RULE_DATA 15) = (selectedRule s).action.toNat ∧
      ∀ i, i < 7 → t.reg (MADR_RULE_DATA i) = bn (selectedRule s).value (64 * i + 63) (64 * i) ∧ t.reg (MADR_RULE_DATA (7 + i)) = bn (selectedRule s).mask (64 * i + 63) (64 * i)) ∧
    exec .ruleCmdDone s = .next { s with madr := { s.madr with busy := false } }) ∧
  (∀ (s s1 s2 : State) (k : MboxId) (blk : CmdBlock) (c : Cmd) (n : Nat), FlowTaken s k 0x060 5 [] blk c s1 → bn blk.bits 4 0 = n → 16 ≤ n → n ≤ 26 →
    takeFwRegion s1 .flowTable (flowPages n) = some s2 → exec (.flowTable k blk) s = .next { s2 with madr := { s2.madr with building := some (n, c.id) } }) ∧
  (∀ (s s1 : State) (k : MboxId) (blk : CmdBlock) (c : Cmd) (e : FlowEntry) (m : Map FlowEntry), FlowTaken s k 0x061 448 [(383, 322)] blk c s1 →
    e = { key := BitVec.ofNat 384 (bn blk.bits 383 0), action := BitVec.ofNat 64 (bn blk.bits 447 384) } → actionOk e.action = true → s1.madr.n ≠ 0 →
    (∀ x, flowFind s1.madr.n s1.madr.flows e.key = some x → x.2.fw = false) → flowPut s1.madr.n s1.madr.flows e = some m →
    exec (.flowAdd k blk) s = .next (answers true { s1 with madr := { s1.madr with flows := m } } c success)) ∧
  (∀ (s s1 : State) (k : MboxId) (blk : CmdBlock) (c : Cmd) (i : Nat) (x : FlowEntry), FlowTaken s k 0x062 384 [(383, 322)] blk c s1 → s1.madr.n ≠ 0 →
    flowFind s1.madr.n s1.madr.flows (BitVec.ofNat 384 (bn blk.bits 383 0)) = some (i, x) → x.fw = false →
    exec (.flowDel k blk) s = .next (answers true { s1 with madr := { s1.madr with flows := mdel s1.madr.flows i } } c success)) ∧
  (∀ (n : Nat) (m m' : Map FlowEntry) (e : FlowEntry), flowPut n m e = some m' → ∃ i x, flowFind n m' e.key = some (i, x) ∧ x.key = e.key) ∧
  (∀ (s : State) (n cmd : Nat), s.madr.building = some (n, cmd) → s.madr.n = 0 → s.madr.flows = [] → exec .flowTableSwitch s =
    .next (replyTo { s with madr := { s.madr with building := none, n := n, flows := [] } } cmd success))

/-- R383, R388 to R397, R527: the host interface. Completions of reads and their time; Bus Master Enable and D3hot; the MSI-X table; resets of a
function and of a port, virtual functions, a port that trains; quotas and shares. -/
def Obligations.HostInterface : Prop :=
  (∀ (s : State) (f tag : Nat) (bs : List Byte),
    (∀ k, s.host.quarantine.any (fun q => q.1 == f && q.2.1 == tag) = true → exec (.hostCompletion f tag k bs) s = .next (logAer (s.count HIF_LATE_CPL) f aerUnexpected)) ∧
    (∀ k, s.host.quarantine.any (fun q => q.1 == f && q.2.1 == tag) = false → findPart s f tag = none → exec (.hostCompletion f tag k bs) s = .next (logAer s f aerUnexpected)) ∧
    (∀ i x j, s.host.quarantine.any (fun q => q.1 == f && q.2.1 == tag) = false → findPart s f tag = some (i, x, j) → x.dropped = false →
      exec (.hostCompletion f tag .ok bs) s = .next (resolvePart s f tag (some bs)) ∧
      exec (.hostCompletion f tag .poisoned bs) s = .next (resolvePart (logAer s f aerPoisoned) f tag none) ∧
      exec (.hostCompletion f tag .unsupported bs) s = .next (resolvePart s f tag none) ∧ exec (.hostCompletion f tag .abort bs) s = .next (resolvePart s f tag none)) ∧
    (∀ i x j, s.host.quarantine.any (fun q => q.1 == f && q.2.1 == tag) = false → findPart s f tag = some (i, x, j) → x.dropped = true →
      exec (.hostCompletion f tag .ok bs) s = .next (resolvePart (s.count HIF_DROP_CPL) f tag (some bs))) ∧
    (cplLate s f tag = false → exec (.hostCplTimeout f tag) s = .next s) ∧
    (cplLate s f tag = true → ∃ u, exec (.hostCplTimeout f tag) s = .next (resolvePart u f tag none) ∧
      u.host.quarantine = s.host.quarantine ++ [(f, tag, s.now + quarantineNs)] ∧ ((u.fn f).aer &&& aerTimeout) = aerTimeout) ∧
    (s.host.xfers = [] → ∃ t, exec (.tagQuarantineEnd f tag) s = .next t ∧ t.host.quarantine = s.host.quarantine.filter (fun q => !(q.1 == f && q.2.1 == tag && decide (q.2.2 ≤ s.now))))) ∧
  (∀ (s : State) (f page : Nat), (s.host.xfers.any (fun x => x.fn == f && x.parts.any (fun p => p.out && decide (p.addr / 4096 = page))) = false →
      exec (.atsInvalidate f page) s = .next { s with host := { s.host with ats := s.host.ats.filter (fun e => !(e.fn == f && e.page == page)) } }) ∧
    (s.host.xfers.any (fun x => x.fn == f && x.parts.any (fun p => p.out && decide (p.addr / 4096 = page))) = true → exec (.atsInvalidate f page) s = .next s)) ∧
  (∀ (s : State) (f : Nat) (x : Fn), s.fnPresent f = true → s.fn f = x → x.flr = false →
    (x.bme = true → exec (.bmeClear f) s = .next (dmaKill (s.setFn f { x with bme := false }) f)) ∧
    (x.bme = false → exec (.bmeClear f) s = .next s ∧ exec (.bmeSet f) s = .next (hostGo (s.setFn f { x with bme := true }) f)) ∧
    (x.d3 = false → exec (.d3hotEntry f) s = .next (hostStop (s.setFn f { x with d3 := true }) f)) ∧
    (x.d3 = true → exec (.d0Return f) s = .next (hostGo (s.setFn f { x with d3 := false }) f)) ∧
    (∀ v (a : W64) (d : W32) (m e : Bool), v < fnVectors f → x.d3 = false → exec (.msixMaskChange f (some v) a d m e) s = .next ((s.setFn f { x with
      msix := mset x.msix v { mgetD x.msix v {} with addr := a &&& 0xFFFFFFFFFFFFFFFC#64, data := d, mask := m } }).msixFlush f)) ∧
    (∀ (a : W64) (d : W32) (m e : Bool), exec (.msixMaskChange f none a d m e) s = .next ((s.setFn f { x with msixEn := e, fmask := m }).msixFlush f)) ∧
    (f % 2048 ≠ 1 → exec (.flrInitiate f) s = .next (flrStart s f)) ∧
    (f % 2048 = 1 → exec (.flrInitiate f) s = .next (flrStart (clearVfs s (fnPort f)) f))) ∧
  (∀ (s : State) (f v : Nat),
    (fnVectors f ≤ v → s.msix f v = s.count HIF_BAD_VEC) ∧
    (v < fnVectors f → (s.fn f).flr = true → s.msix f v = s) ∧
    (v < fnVectors f → (s.fn f).flr = false → s.masked f v = true → s.msix f v = s.setFn f { s.fn f with msix := mset (s.fn f).msix v { mgetD (s.fn f).msix v {} with pending := true } }) ∧
    (v < fnVectors f → (s.fn f).flr = false → s.masked f v = false →
      s.msix f v = s.emit (.msix f (mgetD (s.fn f).msix v {}).addr.toNat (mgetD (s.fn f).msix v {}).data.toNat))) ∧
  (∀ (s : State) (f : Nat) (x : Fn), s.fn f = x → x.flr = false → x.bme = false → (pairsOf s f) = [] → s.host.xfers = [] → s.ap.ports = [] →
    ∃ t, flrStart s f = safSettle t ∧ (t.fn f).flr = true ∧ ∀ v, (mgetD (t.fn f).msix v { pending := false }).pending = false) ∧
  (∀ (s s1 : State) (f : Nat), (s.fn f).flr = true → pcoreRuns s 1 = true → pcoreRuns s 3 = true → f % 2048 ≠ 1 →
    s1 = settle (flrMailboxes (flrClusters (sweepFn s f) f) f) → ∃ t : State, exec (.flrDone f) s = .next (safSettle (t.count HIF_FLR)) ∧
      t.fn f = { weight := (s1.fn f).weight, quota := (s1.fn f).quota, aer := (s1.fn f).aer } ∧ ∀ e ∈ t.host.ats, e.fn ≠ f) ∧
  (∀ (s : State) (h : Nat), h < 2 →
    (s.fnPresent (2048 * h + 1) = true → (s.fn (2048 * h + 1)).flr = false → exec (.vfEnableClear h) s = .next (clearVfs s h)) ∧
    ((clearVfs s h).hport h).vfEnable = false ∧
    (∀ b, (s.hport h).up = true → ∃ t, exec (.hostPortReset h b) s = .next t ∧ (t.hport h).up = false ∧ (t.hport h).width = 0 ∧ (t.hport h).perst = ((s.hport h).perst || b)) ∧
    (∀ w g fl, s.umb.phase = 7 → (s.hport h).up = false → w ∈ [1, 2, 4, 8, 16] → 0 < g → g ≤ 6 → exec (.hostPortLeavesReset h w g fl) s =
      .next (s.setHport h { s.hport h with up := true, width := w, gen := g, flit := fl, perst := false }))) ∧
  FwRow 0x070 .fnQuota (fun s c b => fromPf0 c = true ∧ bodyReserved b [(31, 12)] 384 = true ∧ funcNamed s (bn b 11 0) = true)
    (fun s _ b => s.setFn (bn b 11 0) { s.fn (bn b 11 0) with
      quota := (List.range 11).foldl (fun m k => mset m (k + 1) (BitVec.ofNat 32 (bn b (32 * (k + 1) + 31) (32 * (k + 1))))) (s.fn (bn b 11 0)).quota })
    (fun _ _ _ => success) ∧
  FwRow 0x071 .fnShare (fun s c b => fromPf0 c = true ∧ bodyReserved b [(15, 12)] 24 = true ∧ funcNamed s (bn b 11 0) = true)
    (fun s _ b => s.setFn (bn b 11 0) { s.fn (bn b 11 0) with weight := bn b 23 16 }) (fun _ _ _ => success)

namespace Sys2Proof.Machine

/-- The command with a CID of a storage queue has been fetched and may start now (R407, R411, R415, R419, R422). -/
def NvFetched (s : State) (q cid : Nat) (c : NvCmd) : Prop :=
  nvOf s q cid = some c ∧ nvAt s q c.seq = some c ∧ c.phase = .fetched ∧ s.saf.stopped = false ∧ earlierWaits s q c = false ∧
  (isIo s q = true ∨ pcoreRuns s 4 = true)

/-- The state in which a command has started, with the pieces of its data. -/
def started (s : State) (q : Nat) (c : NvCmd) (ps : List (Nat × Nat)) : State :=
  let s1 := setNv s q c.seq (fun c => { c with start := s.saf.nextStart, pieces := ps, listAt := 0, listLeft := 0 })
  { s1 with saf := { s1.saf with nextStart := s.saf.nextStart + 1 } }

/-- The row of an opcode: a command that fails a check is completed with its status; else it starts, and its data, if any, are moved
where its PRP entries are at hand. -/
def NvmeRow (op : Nat) (io : Bool) (row : Nat → Nat → Instr) : Prop :=
  ∀ (s : State) (q cid : Nat) (c : NvCmd), NvFetched s q cid c → isIo s q = io → eOp c = op →
    (nvCheck s q c ≠ 0 → exec (row q cid) s = .next (safSettle (nvEnd s q c (nvCheck s q c) 0))) ∧
    (nvCheck s q c = 0 → prpStart c (moveBytes s q c) = none → exec (row q cid) s = .next (safSettle (nvEnd s q c stField 0))) ∧
    (∀ ps, nvCheck s q c = 0 → prpStart c (moveBytes s q c) = some (ps, 0, 0) → exec (row q cid) s = .next (safSettle (dataReady (started s q c ps) q c.seq)))

/-- A whole PDU of a type stands at the front of a session's stream, its digest holds, and it has been taken (R420). -/
def PduTaken (s : State) (k ty : Nat) (x : Sess) (p : List Byte) (s1 : State) : Prop :=
  ∃ y, s.sess k = some y ∧ headPdu y = some p ∧ leAt p 0 1 = ty ∧ x = { y with rx := y.rx.drop p.length } ∧ s1 = s.setSess k x ∧ hdrDigestOk x p = true

end Sys2Proof.Machine

/-- R404, R406 to R412, R417: the commands of storage queues. An entry is fetched; a command is checked, starts in order and moves its data; what each
admin command answers; writes are admitted to the buffer, and complete at once while the vault is armed; a Flush waits for earlier writes. -/
def Obligations.StorageCommands : Prop :=
  (∀ (s s1 : State) (q : Nat) (w : SQueue) (r : CompRing), mget s.saf.queues q = some w → mget s.vat.comp (cqKey q) = some r → (s.slot 4 q).live = true →
    (s.slot 4 q).dying = false → s.saf.stopped = false → r.free ≠ 0 → w.cmds.find? (fun c => decide (c.phase = .reading) && (xferOf s (.sqe q c.seq)).isNone) = none →
    (w.fetch < w.tail → hostRead s (s.slot 4 q).owner (.sqe q s.saf.nextSeq) [(w.base + 64 * (w.fetch % 2 ^ w.sizeLog2), 64)] = some s1 →
      ∃ t, exec (.sqFetch q) s = .next (reserve t (cqKey q)) ∧ t.saf.nextSeq = s.saf.nextSeq + 1 ∧ mget t.saf.queues q = some { w with
        fetch := w.fetch + 1, cmds := w.cmds ++ [{ cid := 0, sqhd := (w.fetch + 1) % 2 ^ w.sizeLog2, seq := s.saf.nextSeq }] }) ∧
    (w.tail ≤ w.fetch → exec (.sqFetch q) s = .next s)) ∧
  NvmeRow 0x02 false .getLogPage ∧ NvmeRow 0x06 false .identify ∧ NvmeRow 0x08 false .abort ∧ NvmeRow 0x09 false .setFeatures ∧ NvmeRow 0x0A false .getFeatures ∧
  NvmeRow 0x0C false .asyncEventRequest ∧ NvmeRow 0x00 true .nvmeFlush ∧ NvmeRow 0x01 true .nvmeWrite ∧ NvmeRow 0x02 true .nvmeRead ∧ NvmeRow 0x08 true .writeZeroes ∧
  NvmeRow 0x09 true .datasetManagement ∧
  (∀ (s : State) (q : Nat) (c d : NvCmd), nvAt s q c.seq = some c → d = { c with phase := .running } →
    (isIo s q = false → dataReady s q c.seq = runAdmin (setNv s q c.seq (fun _ => d)) q d) ∧
    (isIo s q = true → eOp c = 0x00 → dataReady s q c.seq = runFlush (setNv s q c.seq (fun _ => d)) q d) ∧
    (isIo s q = true → eOp c = 0x02 → dataReady s q c.seq = runRead (setNv s q c.seq (fun _ => d)) q d) ∧
    (isIo s q = true → eOp c = 0x01 ∨ eOp c = 0x09 → hostRead s (sqFn s q) (.nvme q c.seq) c.pieces = none → dataReady s q c.seq = nvEnd s q c stTransfer 0) ∧
    (∀ s1, isIo s q = true → eOp c = 0x01 ∨ eOp c = 0x09 → hostRead s (sqFn s q) (.nvme q c.seq) c.pieces = some s1 →
      dataReady s q c.seq = setNv s1 q c.seq (fun c => { c with phase := .data }))) ∧
  (∀ (s : State) (q : Nat) (c : NvCmd),
    (eOp c = 0x06 → runAdmin s q c = nvDeliver s q c (identifyData s q c)) ∧
    (eOp c = 0x09 → eDw c 10 % 256 = 7 → runAdmin s q c = nvEnd s q c 0 (queueFeature s (sqFn s q))) ∧
    (eOp c = 0x09 → eDw c 10 % 256 = 0x0B → runAdmin s q c = nvEnd { s with saf := { s.saf with aec := mset s.saf.aec (sqFn s q) (eDw c 11) } } q c 0 0) ∧
    (eOp c = 0x0A → eDw c 10 % 256 = 0x0B → runAdmin s q c = nvEnd s q c 0 (mgetD s.saf.aec (sqFn s q) 0x100)) ∧
    (eOp c = 0x0C → (aersOf s (sqFn s q)).length ≤ 4 → runAdmin s q c = reportEvent s (sqFn s q)) ∧
    (eOp c = 0x08 → (∀ p ∈ allNv s, p.2.phase ≠ .fetched) → runAdmin s q c = nvEnd s q c 0 1) ∧
    (s.master (sqFn s q) = true → ∀ bs, nvDeliver s q c bs = nvEnd (writePieces s (sqFn s q) c.pieces bs) q c 0 0)) ∧
  (∀ (s : State) (q : Nat) (c : NvCmd) (x : Ns), s.ns (eNsid c) = some x →
    (totalUnits (nvSpans x c) ≤ c.units → safArmed s = true → finishWrite s q c = nvEnd s q c 0 0) ∧
    (c.units < totalUnits (nvSpans x c) → finishWrite s q c = s) ∧
    (totalUnits (nvSpans x c) ≤ c.units → safArmed s = false → c.waits ≠ [] → c.status = 0 → x.ready = true → finishWrite s q c =
      setNv (endXfer s (.nvme q c.seq)) q c.seq (fun c => { c with phase := .running })) ∧
    (∀ s1 bs fl, c.asked = false → rangeWaits s (eNsid c) (rwRange x c).1 (rwRange x c).2 = false → bufRead s (eNsid c) (rwRange x c).1 (rwRange x c).2 = (s1, bs, fl, false) → fl.all id = true → runRead s q c = nvDeliver (s1.count SAFF_HITS) q c bs) ∧
    (safArmed s = true → (∀ p ∈ allNv s, p.1 = q → c.seq ≤ p.2.seq) → runFlush s q c = nvEnd s q c 0 0)) ∧
  (∀ (s : State) (q cid : Nat) (c : NvCmd), nvOf s q cid = some c → isIo s q = true → isWrite c = true → 0 < c.start →
    exec (.writeBufferAdmit q cid) s = .next (safSettle (advanceNv s q c.seq true))) ∧
  (∀ (s : State), (s.saf.acks = [] → s.carm.posted = [] → exec .destageAck s = .next s) ∧
    (∀ key st rest, s.carm.posted = [] → s.saf.acks = (key, st) :: rest → exec .destageAck s = .next (safSettle (destageEnd { s with saf := { s.saf with acks := rest } } key st))) ∧
    (∀ e er fl, s.saf.vstate ≤ 1 → exec (.vaultArmChange e er fl) s = .next (safSettle { s with saf := { s.saf with
      energy := e, erased := er, flashFault := fl, vstate := if 25 ≤ e ∧ er = true ∧ fl = false then 1 else 0 } })) ∧
    (∀ e er fl, 2 ≤ s.saf.vstate → exec (.vaultArmChange e er fl) s = .next (safSettle { s with saf := { s.saf with energy := e, erased := er, flashFault := fl } }))) ∧
  (∀ (s : State) (key k ver : Nat) (b : Back) (p : BufPage), mget s.saf.backs key = some b → b.why = .destage k ver → mget s.saf.pages k = some p →
    p.sent = some (ver, 1) → p.bad = false → p.ver = ver → s.saf.nss = [] → ∃ t, destageEnd s key (some 0) = t ∧ mget t.saf.pages k = none ∧ mget t.saf.backs key = none ∧
      t.reg SAFF_DESTAGE = min (2 ^ 64 - 1) (mgetD s.regs SAFF_DESTAGE 0 + 1))

/-- R405, R406, R418, R420, R421: namespaces and their backing. A namespace is created over Carmine or TCP, attached, detached and deleted; a
controller is reset; sessions are opened, driven by their PDUs and segments, and fail. -/
def Obligations.StorageNamespacesAndSessions : Prop :=
  (∀ (s s1 : State) (k : MboxId) (blk : CmdBlock) (c : Cmd) (n i : Nat) (x : Ns), Taken s k 0x080 true blk c s1 → fromPf0 c = true → bn blk.bits 14 0 = n →
    bodyReserved blk.bits [(15, 15), (31, 18), (111, 107), (127, 115), (259, 259), (271, 265)] 3904 = true → 0 < n → n ≤ 16384 → s1.ns n = none →
    0 < x.nsze → x.nsze ≤ 2 ^ 48 → 0 < x.bufmax → x.bufmax ≤ 1024 → x.tc ≠ 0 →
    x = { carmine := bt blk.bits 16, lbaf := bt blk.bits 17, nsze := bn blk.bits 95 32, bufmax := bn blk.bits 106 96, tc := bn blk.bits 114 112, addr := BitVec.ofNat 128 (bn blk.bits 255 128)
          ipv4 := bt blk.bits 256, hdgst := bt blk.bits 257, ddgst := bt blk.bits 258, sess := bn blk.bits 264 260, tport := bn blk.bits 287 272, tnsid := bn blk.bits 319 288
          subnqn := leBytes 224 (bn blk.bits 2111 320), hostnqn := leBytes 224 (bn blk.bits 3903 2112) } →
    (x.carmine = true → x.tport = 0 → checkHandle s1 c.req (BitVec.ofNat 64 (bn blk.bits 191 128)) [3] = .inl i → (s1.conn i).map (·.peerNode) = some (bn blk.bits 255 240) →
      exec (.safNsCreate k blk) s = .next (answers true (safSettle (s1.setNs n x)) c success)) ∧
    (x.carmine = false → 0 < x.sess → x.sess ≤ 16 → s1.saf.sessions.length + x.sess < 131072 →
      exec (.safNsCreate k blk) s = .next (answers true (makeSess (s1.setNs n x) n x.sess) c success))) ∧
  (∀ (s s1 : State) (k : MboxId) (blk : CmdBlock) (c : Cmd) (n f : Nat) (x : Ns), Taken s k 0x081 true blk c s1 → blk.readFails = false → fromPf0 c = true →
    bodyReserved blk.bits [(15, 15)] 29 = true → bn blk.bits 14 0 = n → bn blk.bits 27 16 = f → s1.ns n = some x → x.deleting = none →
    (bt blk.body 28 = false → f ∉ x.fns → exec (.safNsAttach k blk) s = .next (answers true (nsChanged (s1.setNs n { x with fns := x.fns ++ [f] }) f n) c success)) ∧
    (bt blk.body 28 = false → f ∈ x.fns → exec (.safNsAttach k blk) s = .next (answers true s1 c success)) ∧
    (bt blk.body 28 = true → f ∈ x.fns → exec (.safNsDetach k blk) s = .next (answers true (nsChanged (s1.setNs n { x with fns := x.fns.erase f }) f n) c success))) ∧
  (∀ (s s1 : State) (k : MboxId) (blk : CmdBlock) (c : Cmd) (n : Nat) (x : Ns), Taken s k 0x082 true blk c s1 → fromPf0 c = true → bodyReserved blk.bits [(15, 15)] 17 = true →
    bn blk.bits 14 0 = n → s1.ns n = some x → x.deleting = none →
    (x.fns ≠ [] → exec (.safNsDelete k blk) s = .next (answers true s1 c { status := .busy })) ∧
    (x.fns = [] → bt blk.bits 16 = true → exec (.safNsDelete k blk) s =
      .next (answers true (deleteNs ((endNsCmds s1 n).count SAFF_DISCARD (pagesOf (endNsCmds s1 n) n).length) n) c success)) ∧
    (x.fns = [] → bt blk.bits 16 = false → exec (.safNsDelete k blk) s = .next (finishDelete ((endNsCmds s1 n).setNs n { x with deleting := some c.id }) n))) ∧
  (∀ (s : State) (n : Nat), (deleteNs s n).ns n = none ∧ pagesOf (deleteNs s n) n = [] ∧ sessOf (deleteNs s n) n = []) ∧
  FwRow 0x083 .safCtrlReset (fun _ c b => (fromPf0 c = true ∨ c.fn = bn b 11 0) ∧ bodyReserved b [] 12 = true) (fun s _ b => ctrlReset s (bn b 11 0)) (fun _ _ _ => success) ∧
  (∀ (s : State) (n : Nat) (x : Ns), s.ns n = some x →
    (nsUp s n = true → exec (.nsReadyTimeout n) s = .next s) ∧
    (nsUp s n = false → s.saf.queues = [] → exec (.nsReadyTimeout n) s = .next (safSettle (s.setNs n { x with ready := false })))) ∧
  (∀ (s : State) (k : Nat) (x : Sess), s.sess k = some x →
    (x.queue = 0 → exec (.sessionReconnectTimer k) s = .next (openSess s k)) ∧
    (x.queue ≠ 0 → (∀ p ∈ sessOf s x.ns, p.2.st ≠ .up) → exec (.sessionReconnectTimer k) s = .next s) ∧
    exec (.tcpSegmentArrival k) s = .next (safSettle (checkFin (nextSeg s k) k)) ∧
    (x.st = .up → 0 < x.sent → exec (.tcpRetransmissionTimeout k true) s = .next (safSettle (failSess s k)) ∧
      exec (.tcpRetransmissionTimeout k false) s = .next (sendSeg s k x x.una 0x18 (sackOpt x) (x.buf.take (min x.mss x.sent)))) ∧
    (x.st = .closed → ∀ b, exec (.tcpRetransmissionTimeout k b) s = .next s) ∧
    (x.st ≠ .closed → x.queue ≠ 0 → failSess s k = downSess s k) ∧
    (x.st = .closed → downSess s k = s)) ∧
  (∀ (s s1 : State) (k : Nat) (x : Sess) (p : List Byte),
    (∀ n, PduTaken s k 1 x p s1 → x.st = .icSent → leAt p 8 2 = 0 → s1.ns x.ns = some n → exec (.icResp k) s = .next (safSettle (checkFin (sendConnect (s1.setSess k { x with
      st := .connecting, cpda := leAt p 10 1, maxh2c := leAt p 12 4, hd := n.hdgst && (leAt p 11 1).testBit 0, dd := n.ddgst && (leAt p 11 1).testBit 1 }) k) k))) ∧
    (PduTaken s k 1 x p s1 → x.st ≠ .icSent → exec (.icResp k) s = .next (safSettle (checkFin (termSess s1 k 2 p) k))) ∧
    (∀ cid key b, PduTaken s k 5 x p s1 → leAt (slice p 8 16) 12 2 = cid → backOf s1 k cid = some (key, b) → b.why.setup = false →
      exec (.capsuleResp k) s = .next (safSettle (checkFin (backEnd s1 key (some (leAt (slice p 8 16) 14 2 / 2))) k))) ∧
    (∀ key b d, PduTaken s k 7 x p s1 → backOf s1 k (leAt p 8 2) = some (key, b) → pduData x p (leAt p 16 4) = (d, true) → leAt p 12 4 + d.length ≤ b.len → leAt p 1 1 / 8 % 2 = 0 →
      exec (.c2hData k) s = .next (safSettle (checkFin { s1 with saf := { s1.saf with backs := mset s1.saf.backs key { b with got := putBytes b.got (leAt p 12 4) d } } } k))) ∧
    (∀ key b s2 bs, PduTaken s k 9 x p s1 → r2tWaits s k = false → backOf s1 k (leAt p 8 2) = some (key, b) → leAt p 12 4 + leAt p 16 4 ≤ b.len → destageBytes s1 b = (s2, bs) →
      exec (.readyToTransfer k) s = .next (safSettle (checkFin (sendBytes s2 k
        (h2cPdus x (leAt p 8 2) (leAt p 10 2) (leAt p 16 4 + 1) (leAt p 12 4) (slice (bs.drop (leAt p 12 4)) 0 (leAt p 16 4)))) k))) ∧
    (PduTaken s k 3 x p s1 → exec (.c2hTermReq k) s = .next (safSettle (checkFin (failSess s1 k) k))))

/-- R26, R79, R80, R97, R98, R505, R506, R508 to R510, R513, R514, R522: what the reliability units do in time. Scrub, refresh rounds and page moves; a detected fault of a unit, which retires it; trouble counters
against their thresholds; a restart of Umber; margins of regions and of the X-dies (log 135) and retention; the daily and idle tests; the retirement map. -/
def Obligations.ReliabilityInTime : Prop :=
  (∀ (s s0 : State) (ups : List (Nat × Nat)), ups.foldl upset s = s0 →
    (scrubs s0 (s0.lake.scrubAt / dieLines) = false → exec (.scrubRead ups) s = .next { s0 with lake := { s0.lake with scrubAt := nextScrub s0 s0.lake.scrubAt } }) ∧
    (∀ s1, scrubs s0 (s0.lake.scrubAt / dieLines) = true → resolveAny s0 s0.lake.scrubAt = s1 →
      exec (.scrubRead ups) s = .next { s1 with lake := { s1.lake with scrubAt := nextScrub s1 s0.lake.scrubAt } })) ∧
  (∀ (s : State) (k d c : Nat), mget (s.stack k).trefNext d = some c → exec (.refreshRound k d) s =
    .next (s.setStack k { s.stack k with tref := mset (s.stack k).tref d c, trefNext := mdel (s.stack k).trefNext d })) ∧
  (∀ (s : State) (k : Nat) (m : Move) (pp : Nat), (s.rgn (k / 2)).rstate ≠ .resetting → s.lake.copies = [] → s.lake.moves = [m] → mget s.lake.pageOf m.page = some pp → ppStack pp = k →
    exec (.pageMigrated k) s = .next (retryDegraded (afterMove (switchPage { s with lake := { s.lake with moves := [], migStack := k } } m) m.why))) ∧
  (∀ (s : State) (k : Nat) (c : DieCopy), (s.rgn (k / 2)).rstate ≠ .resetting → s.lake.copies.find? (fun c => c.stack == k) = some c → exec (.pageMigrated k) s = .next (copyPage s c)) ∧
  (∀ (s : State) (u : Nat), unitValid u = true → exec (.handshakeStallTimeout u) s = .next (s.trouble u .tmo)) ∧
  (∀ (s : State) (u : Nat) (lost : List Nat),
    (unitValid u = true → s.retired u = false → exec (.unitFault u lost) s = .next (afterUnit (startTest 17 (stopTest (retireUnit (s.trouble u .fx) u false lost) u)))) ∧
    (unitValid u = false ∨ s.retired u = true → exec (.unitFault u lost) s = .next s)) ∧
  (∀ (s : State) (u : Nat) (t : Trouble), s.fab.trouble = [(u, t)] → unitValid u = true → s.now < s.rel.ceSpan + 86400000000000 →
    exec .troubleCheck s = .next (afterUnit (checkTrouble s u t))) ∧
  (∀ (s : State) (u : Nat) (t : Trouble) (p : W64), policyOf s (unitKind u) = p → t.ce < 65535 → (bn p 15 0 ≠ 0 → t.ce < bn p 15 0 + t.ceBase) → (bn p 47 32 ≠ 0 → t.tmo < bn p 47 32) →
    (bn p 63 48 ≠ 0 → t.fx < bn p 63 48) →
    ((bn p 31 16 ≠ 0 → t.ue < bn p 31 16) → checkTrouble s u t = s) ∧ (bn p 31 16 ≠ 0 → bn p 31 16 ≤ t.ue → checkTrouble s u t = crossed u s 1 t.ue)) ∧
  (∀ (s : State) (u c v : Nat), (s.retired u = true → crossed u s c v = s) ∧
    (s.retired u = false → endsService s u = true → crossed u s c v = (verdEvent s 3).event none 0x10 (u + at_ 16 c + at_ 32 v + at_ 48 0)) ∧
    (s.retired u = false → endsService s u = false → (∀ p ∈ s.rel.planned, p.1 ≠ u) → crossed u s c v = planRetire ((verdEvent s 3).event none 0x10 (u + at_ 16 c + at_ 32 v + at_ 48 1)) u 0)) ∧
  (∀ (s s1 : State), s1 = { s with umb := { s.umb with restarts := s.umb.restarts + 1, lastMismatch := some s.now, restarting := true } } →
    (s.umb.phase = 7 → s.umb.lastMismatch = none → exec .umberMismatch s = .next (s1.event (some 0x10) 0x11 ((s.umb.restarts + 1) % 65536))) ∧
    (∀ t, s.umb.phase = 7 → s.umb.lastMismatch = some t → s.now < t + 1000000000 → exec .umberMismatch s =
      .next (packageFault (s1.event (some 0x10) 0x11 ((s.umb.restarts + 1) % 65536 + at_ 16 1)))) ∧
    (s.umb.restarting = true → exec .umberRestartEnd s = .next (s.umb.waiting.foldl umberDo { s with umb := { s.umb with restarting := false, waiting := [] } }))) ∧
  (∀ (s : State) (r : Nat) (n tj age : W32) (v : VerdRgn), r < 16 → (s.rgn r).rstate = .inService → (s.rgn r).retiring = 0 → mgetD s.rel.verd r {} = v →
    (marginOk n.toNat tj.toInt v.tmax = true → ∃ t, exec (.marginCheck r n tj age) s = .next t ∧ t.rgn r = { s.rgn r with rate := n, tj := tj } ∧
      (mgetD t.rel.verd r {}).age = age.toNat ∧ (mgetD t.rel.verd r {}).tmax = v.tmax ∧ t.rel.event = s.rel.event) ∧
    (marginOk n.toNat tj.toInt v.tmax = false → (s.rgn r).offset < 60 → ∃ t, exec (.marginCheck r n tj age) s = .next t ∧
      t.rgn r = { s.rgn r with rate := n, tj := tj, offset := (s.rgn r).offset + 5, vset := (s.rgn r).vset + 5 } ∧ t.rel.event = s.rel.event ||| 1#5) ∧
    (marginOk n.toNat tj.toInt v.tmax = false → 60 ≤ (s.rgn r).offset → 85 < v.tmax → ∃ t, exec (.marginCheck r n tj age) s = .next t ∧
      (mgetD t.rel.verd r {}).tmax = ([95, 90, 85].find? (marginOk n.toNat tj.toInt)).getD 85)) ∧
  (∀ (s : State) (x : Nat) (n tj age : W32), x < 2 →
    (marginOk n.toNat tj.toInt 100 = true → exec (.marginCheck (16 + x) n tj age) s = .next s) ∧
    (marginOk n.toNat tj.toInt 100 = false → ∃ t, exec (.marginCheck (16 + x) n tj age) s = .next t ∧ xSetpoint t x = 750 + min 60 (mgetD s.fab.xOffset x 0 + 5) ∧
      ∀ y, y ≠ x → xSetpoint t y = xSetpoint s y)) ∧
  (∀ (s : State) (k d ms : Nat) (tj : W32), k < 32 → d < 14 → s.retired (dieUnit k d) = false →
    (ms < 16 → exec (.retentionMeasure k d ms tj) s = .next (afterUnit (retireUnit (verdEvent s 4) (dieUnit k d) true []))) ∧
    (16 ≤ ms → ∃ t c, exec (.retentionMeasure k d ms tj) s = .next t ∧ c ∈ refreshCodes ms tj.toInt ∧ mget (t.stack k).trefNext d = some c ∧ mget (t.stack k).tj d = some tj)) ∧
  (∀ (s : State), ∃ n, 2 ≤ n ∧ exec (.swatchPeriodic []) s = .next (afterUnit ((s.count SWAT_RUNS n).count SWAT_FAILS 0))) ∧
  (∀ (s : State) (c : Nat), c < 64 → mget s.rel.idleTest c = none → testable s c = true → s.retired (clUnit c 49) = false → testsQueued s ≤ 14 → exec (.idleClusterTest c) s =
    .next (queueTest (queueTest { s with rel := { s.rel with idleTest := mset s.rel.idleTest c s.now } } 1 (clUnit c 49) 0) 2 (clUnit c 49) 0)) ∧
  (∀ (s : State) (a b : Bool), s.fab.journal ≠ [] →
    (a = true ∨ b = true → ∃ t, exec (.rmapJournalWrite a b) s = .next t ∧ t.fab.journal = [] ∧ t.rel.rmap = buildMap s ∧ t.rel.gen = (s.rel.gen + 1) % 2 ^ 32 ∧
      t.rel.copyA = a ∧ t.rel.copyB = b) ∧
    (a = false → b = false → exec (.rmapJournalWrite a b) s = .next { s with rel := { s.rel with copyA := false, copyB := false } })) ∧
  (∀ (s : State) (b : Bool), s.rel.copyA = true → s.rel.copyB = false → s.fab.journal = [] → exec (.rmapRetry true b) s = .next { s with rel := { s.rel with copyA := true, copyB := b } })

/-- R21, R506, R507, R513, R514, R521, R523: Swatch's tests and the commands of the reliability units. A test is refused, queued, run, and ends with an outcome;
UNIT_RETIRE, TROUBLE_CLEAR, REL_POLICY, RMAP_READ and REL_SHUTDOWN. -/
def Obligations.SelfTestsAndReliabilityCommands : Prop :=
  (∀ (s s1 : State) (k : MboxId) (blk : CmdBlock) (c : Cmd) (t u : Nat), Taken s k 0x0D0 true blk c s1 → fromPf0 c = true → bodyReserved blk.bits [(15, 8)] 32 = true →
    bn blk.bits 7 0 = t → bn blk.bits 31 16 = u →
    (∀ st, testRefusal s1 t u = some st → exec (.swatRun k blk) s = .next (answers true s1 c { status := st })) ∧
    (testRefusal s1 t u = none → testsQueued s1 < 16 → exec (.swatRun k blk) s = .next (queueTest s1 t u c.id)) ∧
    (testRefusal s1 t u = none → 16 ≤ testsQueued s1 → exec (.swatRun k blk) s = .next (answers true s1 c { status := .outOfResources }))) ∧
  (∀ (s : State) (t u cmd : Nat), s.rel.running = false → s.rel.tests = [] → testRefusal s t u = none → 3 < t →
    ∃ s1, queueTest s t u cmd = s1 ∧ s1.rel.running = true ∧ s1.rel.tests = [{ test := t, unit := u, cmd := cmd }]) ∧
  (∀ (s : State) (t : SwTest) (ts : List SwTest) (named : Option Nat) (sig : W64), s.rel.tests = t :: ts → s.rel.running = true →
    ∃ s1, exec (.swatchTestDone true named sig) s = .next (afterUnit (startTest 17 (testOver
        (replyTo s1 t.cmd { status := .success, r0 := swatResult s1, r1 := s1.rel.sig.toNat }) t.unit))) ∧
      s1.rel.tests = ts ∧ s1.rel.running = false ∧ swatResult s1 = t.test + at_ 8 1 + at_ 16 t.unit) ∧
  (∀ (s : State) (t : SwTest) (ts : List SwTest) (named : Option Nat) (sig : W64), s.rel.tests = t :: ts → s.rel.running = true →
    ∃ s1, exec (.swatchTestDone false named sig) s = .next (afterUnit (startTest 17 (testOver (replyTo (testFails (s1.count SWAT_FAILS) t.test t.unit named) t.cmd
        { status := .unitFault, r0 := swatResult s1, r1 := s1.rel.sig.toNat }) t.unit))) ∧ swatResult s1 = t.test + at_ 8 2 + at_ 16 t.unit) ∧
  (∀ (s : State) (v : W32) (s1 : State), s1 = s.setReg SWAT_CTRL (v.toNat % 2 ^ 24) → destrOk s = true → bt v 24 = true →
    (testRefusal s1 (bn v 7 0) (bn v 23 8) = none → testsQueued s1 < 16 → exec (.swatCtrlGo v) s = .next (queueTest s1 (bn v 7 0) (bn v 23 8) 0)) ∧
    (testRefusal s1 (bn v 7 0) (bn v 23 8) ≠ none → exec (.swatCtrlGo v) s = .next (testOutcome s1 (bn v 7 0) (bn v 23 8) 3))) ∧
  (∀ (s : State) (v : W32), destrOk s = false → exec (.swatCtrlGo v) s = .next s) ∧
  FwLaterRow 0x0D1 .unitRetire (fun s c b => fromPf0 c = true ∧ bodyReserved b [] 16 = true ∧ unitValid (bn b 15 0) = true ∧ (s.unit (bn b 15 0)).state = .inService ∧
    unitDomain (bn b 15 0) ≠ 18 ∧ endsService s (bn b 15 0) = false) (fun s c b => afterUnit (planRetire s (bn b 15 0) c.id)) ∧
  FwRow 0x0D1 .unitRetire (fun s c b => fromPf0 c = true ∧ bodyReserved b [] 16 = true ∧ unitValid (bn b 15 0) = true ∧ (s.unit (bn b 15 0)).state = .inService ∧
    unitDomain (bn b 15 0) ≠ 18 ∧ endsService s (bn b 15 0) = true) (fun s _ _ => s) (fun _ _ _ => { status := .busy }) ∧
  FwRow 0x0D2 .troubleClear (fun _ c b => fromPf0 c = true ∧ bodyReserved b [] 17 = true ∧ bt b 16 = false ∧ unitValid (bn b 15 0) = true)
    (fun s _ b => clearTrouble s (bn b 15 0)) (fun _ _ _ => success) ∧
  FwRow 0x0D2 .troubleClear (fun _ c b => fromPf0 c = true ∧ bodyReserved b [] 17 = true ∧ bt b 16 = true)
    (fun s _ _ => { s with fab := { s.fab with trouble := mmap s.fab.trouble (fun _ _ => {}) } }) (fun _ _ _ => success) ∧
  (∀ (s : State) (u : Nat), mgetD (clearTrouble s u).fab.trouble u {} = {}) ∧
  FwRow 0x0D3 .relPolicy (fun _ c b => fromPf0 c = true ∧ bodyReserved b [] 256 = true)
    (fun s _ b => { s with rel := { s.rel with policy := (List.range 4).map (fun k => (k, BitVec.ofNat 64 (bn b (64 * k + 63) (64 * k)))) } }) (fun _ _ _ => success) ∧
  FwRow 0x0D4 .rmapRead (fun s c b => fromPf0 c = true ∧ bodyReserved b [(5, 0)] 64 = true ∧ (s.rel.copyA = true ∨ s.rel.copyB = true))
    (fun s c b => s.hostWrite c.fn (bn b 63 0) (rmapBytes s)) (fun s _ _ => { status := .success, r0 := (rmapBytes s).length }) ∧
  FwLaterRow 0x0D5 .relShutdown (fun _ c b => fromPf0 c = true ∧ bodyReserved b [] 32 = true ∧ bn b 31 0 = 0x53485554) (fun s _ _ => umberOp s 7)

namespace Sys2Proof.Machine

/-- A collector that exports: enabled, on a port that is not retired, with an own address of its family (R515, R516, R519). -/
def exporting (s : State) (i : Nat) : Prop := (s.coll i).en = true ∧ (s.eth (s.coll i).port).lstate ≠ 5 ∧ noAddr s (s.coll i) = false

end Sys2Proof.Machine

/-- R515, R516, R518, R519: telemetry. SIEN_EXPORT stops or configures a collector, whose templates go out at once; the rounds, the refreshed templates
and the sampled records go out while core 7 runs; whatever becomes of the records, the Sequence Number counts every one of them. -/
def Obligations.Telemetry : Prop :=
  FwRow 0x0D6 .sienExport (fun _ c b => fromPf0 c = true ∧ bodyReserved b [(7, 4), (15, 14), (31, 19), (63, 48), (263, 261), (287, 264)] 320 = true ∧ bt b 2 = false)
    (fun s _ b => s.setColl (bn b 1 0) { s.coll (bn b 1 0) with en := false, samples := [] }) (fun _ _ _ => success) ∧
  (∀ (s s1 : State) (k : MboxId) (blk : CmdBlock) (c : Cmd) (i : Nat) (y : Collector), Taken s k 0x0D6 true blk c s1 → fromPf0 c = true →
    bodyReserved blk.bits [(7, 4), (15, 14), (31, 19), (63, 48), (263, 261), (287, 264)] 320 = true → bt blk.bits 2 = true → sienFieldsOk s1 blk.bits = true → bn blk.bits 1 0 = i →
    y = { en := true, ipv4 := bt blk.bits 3, port := bn blk.bits 13 8, tc := bn blk.bits 18 16, dport := bn blk.bits 47 32, addr := BitVec.ofNat 128 (bn blk.bits 191 64),
          odid := bn blk.bits 223 192, interval := bn blk.bits 239 224, trefresh := bn blk.bits 255 240, sets := BitVec.ofNat 8 (bn blk.bits 263 256), rate := bn blk.bits 319 288,
          due := true, base := (s1.coll i).base, credit := bn blk.bits 319 288 * 1000 * bn blk.bits 239 224, creditAt := s1.now } →
    exec (.sienExport k blk) s = .next (answers true (exportRecs (s1.setColl i y) i []) c success)) ∧
  FwRow 0x0D7 .sienSample (fun _ c b => fromPf0 c = true ∧ bodyReserved b [(7, 6)] 13 = true ∧ bn b 12 8 ≤ 24)
    (fun s _ b => { s with rel := { s.rel with sampleK := mset s.rel.sampleK (bn b 5 0) (bn b 12 8) } }) (fun _ _ _ => success) ∧
  (∀ (s : State) (i : Nat), pcoreRuns s 7 = true →
    exec (.exportInterval i) s = .next (exportRecs s i (roundRecs s (s.coll i))) ∧
    ((s.coll i).en = true → exec (.templateRefresh i) s = .next (exportRecs (s.setColl i { s.coll i with due := true }) i [])) ∧
    ((∀ j, (s.coll j).samples = []) → exec .sampledRecordFlush s = .next s) ∧
    ((s.coll 0).samples ≠ [] → (∀ j, 0 < j → (s.coll j).samples = []) → exec .sampledRecordFlush s =
      .next (exportRecs (s.setColl 0 { s.coll 0 with samples := [] }) 0 ((s.coll 0).samples.map (fun r => { id := r.1, bytes := r.2 }))))) ∧
  (∀ (s : State) (i : Nat), pcoreRuns s 7 = false → exec (.exportInterval i) s = .next s ∧ exec (.templateRefresh i) s = .next s ∧ exec .sampledRecordFlush s = .next s) ∧
  (∀ (s : State) (i : Nat) (rs : List SRec), exporting s i → ((exportRecs s i rs).coll i).seq = ((s.coll i).seq + rs.length) % 2 ^ 32) ∧
  (∀ (s : State) (i : Nat) (rs : List SRec), (s.coll i).en = false → exportRecs s i rs = s) ∧
  (∀ (s : State) (i : Nat) (rs : List SRec), (s.coll i).en = true → (s.eth (s.coll i).port).lstate = 5 → exportRecs s i rs = s.setColl i { s.coll i with en := false }) ∧
  (∀ (c : Nat) (rs : List SRec), ∃ dropped, rs = (withinRate c rs).1 ++ dropped ∧ 8 * ((withinRate c rs).1.map (·.bytes.length)).sum + (withinRate c rs).2 = c)

/-- R415, R507, R529, R543, R544, R546, R549 to R551: supply, coolant and temperature. Conditions put an emergency in force; past the further
limits Umber shuts down; with the vault armed it saves first, and otherwise the rails go off; the mirror and the writes of the management bus. -/
def Obligations.SupplyAndEmergencies : Prop :=
  (∀ (s : State) (a : W32) (w : Bool), exec (.mgmtBusRead a w) s = .next ((guarded s 6).emit (.readData (mirrorRead s a.toNat (if w then 8 else 4)))) ∧
    (0x100000 ≤ a.toNat → exec (.mgmtBusRead a w) s = .next ((guarded s 6).emit (.readData 0)))) ∧
  (∀ (s : State) (l : Limits), s.umb.lim = l →
    exec .junctionOvertemp s = .next { s with umb := { s.umb with lim := { l with therm := true }, emerg := true } } ∧
    exec .flowLow s = .next { s with umb := { s.umb with lim := { l with flow := true }, emerg := true } } ∧
    exec .inletHigh s = .next { s with umb := { s.umb with lim := { l with inlet := true }, emerg := true } } ∧
    exec .vinOutOfRange s = .next { s with umb := { s.umb with lim := { l with vin := true }, emerg := true } } ∧
    exec .powerCap s = .next { s with umb := { s.umb with lim := { l with pcap := true }, emerg := true } } ∧
    exec .emergencyClear s = .next { s with umb := { s.umb with lim := {}, emerg := false } }) ∧
  (∀ (s : State) (l : Limits), s.umb.lim = l → s.umb.restarting = false →
    exec .junctionShutdownTemp s = .next (shutdown { s with umb := { s.umb with lim := { l with therm := true }, emerg := true } } 1) ∧
    exec .flowCritical s = .next (shutdown { s with umb := { s.umb with lim := { l with flow := true }, emerg := true } } 2) ∧
    exec .inletCritical s = .next (shutdown { s with umb := { s.umb with lim := { l with inlet := true }, emerg := true } } 3) ∧
    exec .vinOvervolt s = .next (shutdown { s with umb := { s.umb with lim := { l with vin := true } } } 4) ∧
    exec .mainInputLost s = .next (shutdown { s with umb := { s.umb with lim := { l with vin := true } } } 5) ∧
    exec .standbyLost s = .next (shutdown s 6)) ∧
  (∀ (s : State), s.umb.restarting = true → s.umb.waiting = [] → exec .standbyLost s = .next { s with umb := { s.umb with waiting := [6] } }) ∧
  (∀ (s : State) (code : Nat), s.umb.phase ≠ 0 → s.umb.shutting = false → s.saf.vstate ≠ 2 →
    (safArmed s = true → ∃ t, shutdown s code = saveStart t ∧ t.umb.shutting = true ∧ t.umb.lastShut = code ∧ t.umb.barred = decide (code ≠ 5) ∧
      t.out = .pin "PWRGD" 0 :: s.out ∧ (∀ f, (t.fn f).bme = false)) ∧
    (safArmed s = false → ∃ t, shutdown s code = t ∧ t.umb.phase = 0 ∧ t.umb.lastShut = code ∧ t.umb.barred = decide (code ≠ 5) ∧ t.fab.journal = [] ∧ t.saf.nss.length = s.saf.nss.length ∧
      t.sec.lc = s.sec.lc ∧ t.lake.mem = [] ∧ t.out = .pin "PWRGD" 0 :: s.out)) ∧
  (∀ (s s1 : State), s.saf.vstate = 2 → writeImage s = s1 →
    (∃ data, data.length = s.saf.pages.length ∧
      mget s1.saf.images ((s.saf.newest + 1) % 8) = some (sealImage (vaultKeys s) (saltHash s) (nextImageSeq s) s.saf.pages data)) ∧
    s1.saf.newest = (s.saf.newest + 1) % 8 ∧ (∀ i ∈ s.saf.images, imageValid s i.2 = true → imageSeq i.2 < nextImageSeq s) ∧ s1.saf.vstate = 0 ∧
    (s.umb.shutting = true → exec .vaultSaveDone s = .next (railsOff (flushJournal s1))) ∧
    (s.umb.shutting = false → s.umb.warming ≠ none → exec .vaultSaveDone s = .next (warmClear s1)) ∧
    (s.umb.shutting = false → s.umb.warming = none → exec .vaultSaveDone s = .next s1)) ∧
  (∀ (s : State) (d : W32), d.toNat < 65536 →
    (s.umb.phase = 7 → s.umb.shutting = false → nodeFree s = true → exec (.mgmtNodeWrite true d) s =
      .next { s with umb := { s.umb with nodeFlash := d.toNat }, fab := { s.fab with node := d.toNat } }) ∧
    (nodeFree s = false → exec (.mgmtNodeWrite true d) s = .next { s with umb := { s.umb with nodeFlash := d.toNat } })) ∧
  (∀ (s : State) (d : W32), d.toNat ≤ 32768 → exec (.mgmtSizeWrite true d) s =
    .next { s with umb := { s.umb with sizeFlash := d.toNat, sizeLast := d.toNat, sizePending := true, sizeRefused := false } }) ∧
  (∀ (s : State) (d : W32), exec (.mgmtNodeWrite false d) s = .next s ∧ exec (.mgmtSizeWrite false d) s = .next s ∧ exec (.mgmtWarmWrite false d) s = .next s ∧
    exec (.mgmtStartWrite false d) s = .next s) ∧
  (∀ (s : State), s.umb.shutting = false → exec (.mgmtStartWrite true 0x53545254#32) s = .next { s with umb := { s.umb with allowed := true } } ∧
    (s.umb.restarting = false → exec (.mgmtWarmWrite true 0x5741524D#32) s = .next (warmReset s 4 true)))

/-- R525, R526, R529, R532, R533, R480: a start. The fuse, the barred START, the retirement map, the banks and the tests decide how far a fundamental reset
goes; a region that misses its bound is retired; the rebuilt map. R6, R7, R385, R386, R393, R401: a host write to a register. -/
def Obligations.StartAndRegisterWrites : Prop :=
  (∀ (s : State) (v : Bool) (fl la bad : List Nat) (ms : Nat) (s1 : State), s.umb.phase = 0 → s.sec.lc ≠ 5 → (s.umb.barred = false ∨ s.umb.allowed = true ∨ v = true) →
    startKeys (startState s) = s1 →
    (s.rel.copyA = true ∨ s.rel.copyB = true → exec (.fundamentalReset v fl la bad ms) s = .next (startFromBanks s1 fl la bad ms)) ∧
    (s.rel.copyA = false → s.rel.copyB = false → exec (.fundamentalReset v fl la bad ms) s = .next (recover s1 2)) ∧
    s1.sec.salt ≠ none ∧ s1.sec.erasePending = false ∧ s1.sec.vaultKeys ≠ none ∧ s1.sec.lc = s.sec.lc ∧ s1.fab.trouble = [] ∧ s1.fab.time = 0 ∧ s1.rel.guardOp = 0 ∧
    s1.sec.cause = 0#5 ∧ ∀ r, (s1.rgn r).resets = 0) ∧
  (∀ (s : State) (v : Bool) (fl la bad : List Nat) (ms : Nat), s.umb.phase = 0 → s.sec.lc = 5 ∨ (s.umb.barred = true ∧ s.umb.allowed = false ∧ v = false) →
    exec (.fundamentalReset v fl la bad ms) s = .next s) ∧
  (∀ (s : State) (v : Bool) (fl la bad : List Nat) (ms : Nat), s.umb.phase = 9 → s.umb.warming = none → s.umb.rcause ≠ 2 →
    (s.sec.lc ≠ 5 → exec (.fundamentalReset v fl la bad ms) s = .next (startFromBanks (startKeys s) fl la bad ms)) ∧
    (s.sec.lc = 5 → exec (.fundamentalReset v fl la bad ms) s = .next s)) ∧
  (∀ (s : State) (fl la bad : List Nat) (ms : Nat), imageVerifies s (s.bank s.pal.active) = false → imageVerifies s (s.bank (otherBank s.pal.active)) = false →
    ∃ t, startFromBanks s fl la bad ms = t ∧ t.umb.phase = 8 ∧ t.umb.rcause = 1) ∧
  (∀ (s : State) (bad : List Nat) (ms : Nat), (∀ r, r < 16 → (s.rgn r).rstate = .retired) →
    (s.umb.retried = true → ∃ t, regionsStarted s bad ms = t ∧ t.umb.phase = 8 ∧ t.umb.rcause = 4) ∧
    (s.umb.retried = false → ∃ t, regionsStarted s bad ms = t ∧ t.umb.phase = 9 ∧ t.umb.lastReset = 3 ∧ t.umb.retried = true ∧ t.umb.warming = none)) ∧
  (∀ (s : State) (r ms : Nat) (bad : List Nat), (s.rgn r).rstate = .starting → s.umb.phase = 5 → exec (.regionStartTimeout r bad ms) s = .next (regionsStarted (dropRegionAtStart s r) bad ms)) ∧
  (∀ (s : State), s.umb.phase = 8 → s.umb.rcause = 2 → s.umb.shutting = false → safArmed s = false →
    ∃ t, exec (.mapRebuildDone []) s = .next t ∧ t.umb.phase = 9 ∧ t.umb.lastReset = 3 ∧ t.umb.rcause = 0 ∧ t.rel.gen = 1 ∧ t.rel.copyA = true ∧ t.rel.copyB = true ∧ t.fab.journal = []) ∧
  (∀ (s : State) (f off size : Nat) (v : W64), f < 4096 →
    (s.fnPresent f = false ∨ (s.fn f).flr = true ∨ (s.fn f).d3 = true → exec (.registerWrite f .bar0 off size v) s = .next s) ∧
    (s.fnPresent f = true → (s.fn f).flr = false → (s.fn f).d3 = false →
      (mboxWords f off = true → exec (.registerWrite f .bar0 off size v) s = .next s) ∧
      (mboxWords f off = false → (size ≠ 4 ∧ size ≠ 8) ∨ off % size ≠ 0 → exec (.registerWrite f .bar0 off size v) s = .next (s.count HIF_BAD_ACCESS)) ∧
      (mboxWords f off = false → (size = 4 ∨ size = 8) → off % size = 0 → fnIsPf0 f = true → s.recovery = false →
        exec (.registerWrite f .bar0 off size v) s = .next (writeRegs s off size v.toNat)) ∧
      (mboxWords f off = false → (size = 4 ∨ size = 8) → off % size = 0 → fnIsPf0 f = false → exec (.registerWrite f .bar0 off size v) s = .next (writePage s f off size v.toNat)))) ∧
  (∀ (s : State) (v : Nat), writeRegs s LAKE_EVENT 4 v = { s with lake := { s.lake with event := s.lake.event &&& ~~~BitVec.ofNat 6 (v % 2 ^ 32) } }) ∧
  (∀ (s : State) (v : Nat), (writeRegs s CARM_UDP_PORT 4 v).reg CARM_UDP_PORT = v % 65536 ∧ ∀ o, o ≠ CARM_UDP_PORT → (writeRegs s CARM_UDP_PORT 4 v).reg o = s.reg o) ∧
  (∀ (s : State) (f : Nat) (v : W64), f < 4096 → s.fnPresent f = true → (s.fn f).flr = false →
    exec (.registerWrite f .cplTimeout 0 4 v) s = .next (s.setFn f { s.fn f with cto := v.toNat % 16 }) ∧
    exec (.registerWrite f .tag10 0 4 v) s = .next (s.setFn f { s.fn f with tag10 := v.toNat.testBit 0 }) ∧
    exec (.registerWrite f .tag14 0 4 v) s = .next (s.setFn f { s.fn f with tag14 := v.toNat.testBit 0 }) ∧
    exec (.registerWrite f .ats 0 4 v) s = .next (s.setFn f { s.fn f with ats := v.toNat.testBit 0 }) ∧
    (f % 2048 = 1 → v.toNat ≤ 2046 → (s.hport (fnPort f)).vfEnable = false → exec (.registerWrite f .numVfs 0 4 v) s =
      .next (s.setHport (fnPort f) { s.hport (fnPort f) with numVfs := v.toNat })) ∧
    (f % 2048 = 1 → v.toNat % 2 = 1 → s.recovery = false → exec (.registerWrite f .vfEnable 0 4 v) s = .next (s.setHport (fnPort f) { s.hport (fnPort f) with vfEnable := true })))

namespace Sys2Proof.Machine

/-- No two privileged queues of a port hold the same gate (R364). -/
def OneQueuePerGate (s : State) (p : Nat) : Prop :=
  ∀ a ∈ portQueues s p, ∀ b ∈ portQueues s p, a.2.gated = true → b.2.gated = true → a.2.gbit = b.2.gbit → a.1 = b.1

/-- The fuses hold legal values: a lifecycle state of R480, and at most the 5 owner slots of R481. -/
def FusesLegal (s : State) : Prop := s.sec.lc ≤ 5 ∧ s.sec.owners.length ≤ 5

/-- A transition of the lifecycle table of R481. -/
def lcMoves (a b : Nat) : Bool := [(0, 1), (1, 2), (2, 3), (3, 4), (4, 2), (0, 5), (1, 5), (2, 5), (3, 5), (4, 5)].contains (a, b)

end Sys2Proof.Machine

/-- R362 and R364. A queue bound to an enabled shaper with a peak rate is committed-eligible when C ≥ 0 and P ≥ 0, and peak-eligible when P ≥ 0 (without a
peak rate P is ignored, R361); an unbound queue, one bound to a disabled shaper, and a queue of TC0 are committed-eligible, and TC0 ignores GATED. A write of WELD_Q_CFG that
gives a second queue a gate already held, or that sets GATED on a queue of TC0, leaves the configuration unchanged; so no gate of a port ever has two queues. -/
def Obligations.GatesAndShapers : Prop :=
  (∀ (s : State) (cls : Nat) (q : EQueue) (x : Shaper), cls ≠ 0 → q.shpEn = true → s.shaper q.shaperNo = x → x.en = true →
    (x.pir ≠ 0 → (shaperCommitted s cls q = true ↔ 0 ≤ x.c ∧ 0 ≤ x.p) ∧ (shaperPeak s cls q = true ↔ 0 ≤ x.p)) ∧
    (x.pir = 0 → (shaperCommitted s cls q = true ↔ 0 ≤ x.c) ∧ shaperPeak s cls q = true)) ∧
  (∀ (s : State) (cls : Nat) (q : EQueue), (cls = 0 ∨ q.shpEn = false ∨ (s.shaper q.shaperNo).en = false) → shaperCommitted s cls q = true) ∧
  (∀ (s : State) (p : Nat) (q : EQueue) (f : EFrame), gateAllows s p 0 q f = true) ∧
  (∀ (s : State) (v : W64), s.fnPresent 0 = true → (s.fn 0).flr = false → (s.fn 0).d3 = false → s.recovery = false →
    exec (.registerWrite 0 .bar0 WELD_Q_CFG 4 v) s = .next (writeQCfg s (withBits (s.queue (s.reg WELD_Q_SEL / 4096 % 64) (s.reg WELD_Q_SEL % 4096)).cfg.toNat 0 32 (v.toNat % 2 ^ 32)))) ∧
  (∀ (s : State) (new p q : Nat) (y : EQueue), s.reg WELD_Q_SEL / 4096 % 64 = p → s.reg WELD_Q_SEL % 4096 = q →
    y.cfg = BitVec.ofNat 64 (mergeFields [⟨4, 0, fun _ => true⟩, ⟨12, 5, fun w => decide (w ≠ 0)⟩, ⟨13, 13, fun _ => true⟩, ⟨27, 14, fun i => decide (i / 8192 = p / 32)⟩] (s.queue p q).cfg.toNat new) →
    y.gated = true → (queueClass s p q = some 0 ∨ ∃ z ∈ portQueues s p, z.1 ≠ q ∧ z.2.gated = true ∧ z.2.gbit = y.gbit) → writeQCfg s new = s) ∧
  (∀ (s : State) (new p : Nat), mkeysRising s.net.queues = true → OneQueuePerGate s p → OneQueuePerGate (writeQCfg s new) p ∧
    ((portQueues s p).filter (fun z => z.2.gated)).length ≤ 8)

/-- The queue of waiting commands is first in, first out: a step takes the command at the front and runs it with the rest of the queue; with none
waiting, 10 ns of reference time pass (R36; the model's choice, log 2). -/
def Obligations.StepTakesTheFrontCommand : Prop :=
  (∀ (c : Instr) (rest : List Instr) (s : State), step { s with pending := c :: rest } = exec c { s with pending := rest }) ∧
  (∀ s : State, s.pending = [] → step s = .next (tick s)) ∧
  (∀ s : State, s.umb.phase = 0 → tick s = s) ∧
  (∀ (s : State) (w n : Nat), s.withFetchWord n w = s)

/-- Every command is answered with a next state, in every state and with every operand, and leaves the queue of waiting commands as it was: no
row ends in a fault or a refusal. -/
def Obligations.EveryCommandAnswered : Prop := ∀ (c : Instr) (s : State), ∃ t, exec c s = .next t ∧ t.pending = s.pending

/-- R480, R481, R487: fuses only burn. Whatever the step, the lifecycle state stays or makes a transition of R481; ENDED is final; SVN_MIN never falls;
used owner slots stay as they are, and a further one is used only in the transition from PROVISIONED to DEPLOYED; legal fuses stay legal. -/
def Obligations.FusesOnlyBurn : Prop :=
  ∀ (s t : State), step s = .next t → FusesLegal s →
    FusesLegal t ∧ (t.sec.lc = s.sec.lc ∨ lcMoves s.sec.lc t.sec.lc = true) ∧ (s.sec.lc = 5 → t.sec.lc = 5) ∧ s.sec.svnMin ≤ t.sec.svnMin ∧ s.sec.owners <+: t.sec.owners ∧
    (t.sec.owners ≠ s.sec.owners → s.sec.lc = 2 ∧ t.sec.lc = 3 ∧ t.sec.owners.length = s.sec.owners.length + 1)

/-- R9: what fundamental reset leaves: registers at their Reset column (some named here), nothing started, no command waiting. That the fuses of a
device as delivered read PROVISIONED with no owner is the model's choice (log 6). -/
def Obligations.StateAfterReset : Prop :=
  State.reset.pending = [] ∧ State.reset.out = [] ∧ State.reset.umb.phase = 0 ∧ State.reset.fab.time = 0 ∧ State.reset.lake.mem = [] ∧ FusesLegal State.reset ∧
  (∀ k : MboxId, (State.reset.pair k).inWord = 0#64 ∧ (State.reset.pair k).outWord = 0#64) ∧ (∀ n, mget State.reset.pal.locks n = none) ∧
  (∀ f, (State.reset.fn f).bme = false) ∧ (∀ i, (State.reset.core i).pc = 0#64 ∧ (State.reset.core i).g = (State.reset.core 0).g) ∧
  (∀ cls i, (State.reset.slot cls i).live = false) ∧
  readReg State.reset 0 CARM_UDP_PORT 4 = 0xD9A1 ∧ readReg State.reset 0 LAKE_EVENT 4 = 0 ∧ readReg State.reset 0 HIF_FN_SEL 4 = 0
end

