-- ==== Sys2Proof/Laws/Maps.lean ====
section
/-! SUPPORT. The laws of finite maps: a read after a write, writes elsewhere, and the canonical form. -/

namespace Sys2Proof.Machine

open Sys2Proof

@[simp] theorem mget_nil {α : Type} (i : Nat) : mget ([] : Map α) i = none := rfl

@[simp] theorem mget_mset_same {α : Type} (m : Map α) (i : Nat) (v : α) : mget (mset m i v) i = some v := by
  induction m with
  | nil => simp [mset, mget]
  | cons p m ih =>
    obtain ⟨k, w⟩ := p
    simp only [mset]
    split
    · simp [mget]
    · split
      · simp [mget]
      · next h1 h2 => simp [mget, h2, ih]

theorem mget_mset_ne {α : Type} (m : Map α) {i j : Nat} (v : α) (h : j ≠ i) : mget (mset m i v) j = mget m j := by
  induction m with
  | nil => simp [mset, mget, h]
  | cons p m ih =>
    obtain ⟨k, w⟩ := p
    simp only [mset]
    split
    · simp [mget, h]
    · split
      · next h1 h2 => subst h2; simp [mget, h]
      · simp [mget, ih]

theorem mget_mset {α : Type} (m : Map α) (i j : Nat) (v : α) :
    mget (mset m i v) j = if j = i then some v else mget m j := by
  split
  · next h => subst h; simp
  · next h => exact mget_mset_ne m v h

@[simp] theorem mset_mset {α : Type} (m : Map α) (i : Nat) (v w : α) : mset (mset m i v) i w = mset m i w := by
  induction m with
  | nil => simp [mset]
  | cons p m ih =>
    obtain ⟨k, u⟩ := p
    simp only [mset]
    split
    · simp [mset]
    · split
      · next h1 h2 => subst h2; simp [mset]
      · next h1 h2 => simp [mset, h1, h2, ih]

@[simp] theorem mgetD_mset_same {α : Type} (m : Map α) (i : Nat) (v d : α) : mgetD (mset m i v) i d = v := by
  simp [mgetD]

theorem mgetD_mset_ne {α : Type} (m : Map α) {i j : Nat} (v d : α) (h : j ≠ i) :
    mgetD (mset m i v) j d = mgetD m j d := by
  simp [mgetD, mget_mset_ne m v h]

@[simp] theorem mget_mdel_same {α : Type} (m : Map α) (i : Nat) : mget (mdel m i) i = none := by
  induction m with
  | nil => rfl
  | cons p m ih =>
    obtain ⟨k, w⟩ := p
    by_cases h : k = i
    · simpa [mdel, h] using ih
    · have h' : i ≠ k := fun e => h e.symm
      simpa [mdel, h, mget, h'] using ih

theorem mget_mdel_ne {α : Type} (m : Map α) {i j : Nat} (h : j ≠ i) : mget (mdel m i) j = mget m j := by
  induction m with
  | nil => rfl
  | cons p m ih =>
    obtain ⟨k, w⟩ := p
    by_cases hk : k = i
    · have hj : j ≠ k := fun e => h (e.trans hk)
      simpa [mdel, hk, mget, hj, h] using ih
    · simp only [mdel] at ih
      simp [mdel, hk, mget, ih]

theorem mgetD_msetC_same {α : Type} [DecidableEq α] (d : α) (m : Map α) (i : Nat) (v : α) :
    mgetD (msetC d m i v) i d = v := by
  unfold msetC; split
  · next h => simp [mgetD, h]
  · simp [mgetD]

theorem mgetD_msetC_ne {α : Type} [DecidableEq α] (d : α) (m : Map α) {i j : Nat} (v : α) (h : j ≠ i) :
    mgetD (msetC d m i v) j d = mgetD m j d := by
  unfold msetC; split
  · simp [mgetD, mget_mdel_ne m h]
  · simp [mgetD, mget_mset_ne m v h]

@[simp] theorem mgetD_mupd_same {α : Type} (m : Map α) (i : Nat) (d : α) (f : α → α) :
    mgetD (mupd m i d f) i d = f (mgetD m i d) := by simp [mupd]

theorem mgetD_mupd_ne {α : Type} (m : Map α) {i j : Nat} (d e : α) (f : α → α) (h : j ≠ i) :
    mgetD (mupd m i d f) j e = mgetD m j e := by simp [mupd, mgetD_mset_ne m _ _ h]

/-- The keys of a map, all above `n`, in rising order. -/
def risingAbove {α : Type} : Nat → Map α → Prop
  | _, [] => True
  | n, (k, _) :: m => n < k ∧ risingAbove k m

theorem mkeysRising_cons {α : Type} (k : Nat) (v : α) (m : Map α) :
    mkeysRising ((k, v) :: m) = true ↔ risingAbove k m := by
  induction m generalizing k v with
  | nil => simp [mkeysRising, risingAbove]
  | cons p m ih => obtain ⟨j, w⟩ := p; simp [mkeysRising, risingAbove, ih]

theorem risingAbove_mono {α : Type} {a b : Nat} (h : a ≤ b) : ∀ {m : Map α}, risingAbove b m → risingAbove a m
  | [], _ => trivial
  | (_, _) :: _, hm => ⟨Nat.lt_of_le_of_lt h hm.1, hm.2⟩

theorem risingAbove_mset {α : Type} {n i : Nat} (v : α) (h : n < i) :
    ∀ {m : Map α}, risingAbove n m → risingAbove n (mset m i v)
  | [], _ => ⟨h, trivial⟩
  | (k, w) :: m, hm => by
    simp only [mset]
    split
    · next hik => exact ⟨h, hik, hm.2⟩
    · split
      · next h1 h2 => subst h2; exact ⟨h, hm.2⟩
      · next h1 h2 => exact ⟨hm.1, risingAbove_mset v (by omega) hm.2⟩

theorem risingAbove_mdel {α : Type} {n i : Nat} : ∀ {m : Map α}, risingAbove n m → risingAbove n (mdel m i)
  | [], _ => trivial
  | (k, w) :: m, hm => by
    by_cases hk : k = i
    · have := risingAbove_mdel (i := i) hm.2
      simpa [mdel, hk] using risingAbove_mono (Nat.le_of_lt hm.1) this
    · have := risingAbove_mdel (i := i) hm.2
      simp only [mdel] at this
      simp [mdel, hk, risingAbove, hm.1, this]

theorem mkeysRising_mset {α : Type} (m : Map α) (i : Nat) (v : α) (h : mkeysRising m = true) :
    mkeysRising (mset m i v) = true := by
  cases m with
  | nil => rfl
  | cons p m =>
    obtain ⟨k, w⟩ := p
    have hr := (mkeysRising_cons k w m).1 h
    simp only [mset]
    split
    · next hik => exact (mkeysRising_cons i v _).2 ⟨hik, hr⟩
    · split
      · next h1 h2 => subst h2; exact (mkeysRising_cons i v m).2 hr
      · next h1 h2 => exact (mkeysRising_cons k w _).2 (risingAbove_mset v (by omega) hr)

theorem mkeysRising_mdel {α : Type} (m : Map α) (i : Nat) (h : mkeysRising m = true) :
    mkeysRising (mdel m i) = true := by
  cases m with
  | nil => rfl
  | cons p m =>
    obtain ⟨k, w⟩ := p
    have hr := risingAbove_mdel (i := i) ((mkeysRising_cons k w m).1 h)
    by_cases hk : k = i
    · have e : mdel ((k, w) :: m) i = mdel m i := by simp [mdel, hk]
      rw [e]
      cases hm : mdel m i with
      | nil => rfl
      | cons q l => obtain ⟨j, u⟩ := q; rw [hm] at hr; exact (mkeysRising_cons j u l).2 hr.2
    · have e : mdel ((k, w) :: m) i = (k, w) :: mdel m i := by simp [mdel, hk]
      rw [e]; exact (mkeysRising_cons k w _).2 hr

theorem all_mset {α : Type} (f : Nat × α → Bool) (m : Map α) (i : Nat) (v : α) (hm : m.all f = true)
    (hv : f (i, v) = true) : (mset m i v).all f = true := by
  induction m with
  | nil => simp [mset, hv]
  | cons p m ih =>
    obtain ⟨k, w⟩ := p
    simp only [List.all_cons, Bool.and_eq_true] at hm
    simp only [mset]
    split
    · simp [hv, hm.1, hm.2]
    · split
      · simp [hv, hm.2]
      · simp [hm.1, ih hm.2]

/-- Every canonical write keeps the canonical form. -/
theorem mcanon_msetC {α : Type} [DecidableEq α] (d : α) (m : Map α) (i : Nat) (v : α) (h : mcanon d m = true) :
    mcanon d (msetC d m i v) = true := by
  simp only [mcanon, Bool.and_eq_true] at h ⊢
  unfold msetC; split
  · refine ⟨mkeysRising_mdel m i h.1, ?_⟩
    have := h.2
    simp only [List.all_eq_true] at this ⊢
    intro p hp
    exact this p (List.mem_of_mem_filter hp)
  · next hv => exact ⟨mkeysRising_mset m i v h.1, all_mset _ m i v h.2 (by simpa using hv)⟩

end Sys2Proof.Machine
end

