-- ==== Sys2Proof/Laws/Fw.lean ====
section
/-! SUPPORT. What firmware does with a command that it takes: one law for the whole protocol of R452 to R457. -/

namespace Sys2Proof.Machine

open Sys2Proof

theorem takeWord_eq (s : State) (k : MboxId) : ∃ r : Rel, takeWord s k = { (s.setPair k { s.pair k with inWord := 0#64 }) with rel := r } := by
  unfold takeWord; dsimp only; split
  · exact ⟨_, rfl⟩
  · exact ⟨s.rel, rfl⟩

@[simp] theorem pair_takeWord (s : State) (k : MboxId) : (takeWord s k).pair k = { s.pair k with inWord := 0#64 } := by
  obtain ⟨r, h⟩ := takeWord_eq s k; simp [h, State.pair, State.setPair]

@[simp] theorem cmds_takeWord (s : State) (k : MboxId) : (takeWord s k).pal.cmds = s.pal.cmds := by
  obtain ⟨r, h⟩ := takeWord_eq s k; simp [h, State.setPair]

@[simp] theorem nextCmd_takeWord (s : State) (k : MboxId) : (takeWord s k).pal.nextCmd = s.pal.nextCmd := by
  obtain ⟨r, h⟩ := takeWord_eq s k; simp [h, State.setPair]

@[simp] theorem pcoreRuns_takeWord (s : State) (k : MboxId) (n : Nat) : pcoreRuns (takeWord s k) n = pcoreRuns s n := by
  obtain ⟨r, h⟩ := takeWord_eq s k; rw [h]; rfl

@[simp] theorem blockCheck_takeWord (s : State) (k : MboxId) (c : Cmd) (b : Bool) (op : Nat) (blk : CmdBlock) :
    blockCheck (takeWord s k) c b op blk = blockCheck s c b op blk := by
  obtain ⟨r, h⟩ := takeWord_eq s k; rw [h]; rfl

@[simp] theorem consumed_takeWord (s : State) (k k' : MboxId) : (takeWord s k).consumed k' = s.consumed k' := by
  obtain ⟨r, h⟩ := takeWord_eq s k; rw [h]; rfl

@[simp] theorem pairFn_takeWord (s : State) (k : MboxId) : pairFn (takeWord s k) k = pairFn s k := by
  cases k <;> simp [pairFn]

/-- A command that firmware takes runs its body, and an answer finishes it. -/
theorem fwCommandOn_taken {s s1 : State} {k : MboxId} {op : Nat} {hasBlk : Bool} {blk : CmdBlock} {c : Cmd} {body : FwBody} {duty : Nat}
    (h : Taken s k op hasBlk blk c s1 duty) :
    fwCommandOn duty op hasBlk k blk body s = match body s1 c blk.bits with
      | (s2, none) => s2
      | (s2, some r) => answers hasBlk s2 c r := by
  obtain ⟨h1, h2, h3, h4, h5, h6, h7, h8, h9, hc, rfl⟩ := h
  have h5' : ¬(s.recovery = true ∧ (recoveryOps s).contains op = false) := by
    rintro ⟨a, b⟩; rw [h5 a] at b; exact absurd b (by decide)
  have h8' : ¬ 64 ≤ s.consumed k := by omega
  have hchk : (if hasBlk then blockCheck s c (s.pair k).window.isSome op blk else none) = none := by
    cases hasBlk
    · rfl
    · rw [hc]; exact h9 rfl
  have e : fwCommandOn duty op hasBlk k blk body s = runCmd (takeWord s k) k (s.pair k).inWord op hasBlk blk body := by
    unfold fwCommandOn; rw [h6]; dsimp only
    rw [if_neg (by simp only [h1, h2, h3, h4, ne_eq, not_true_eq_false, Bool.true_eq_false, false_or]; exact h5'),
      if_pos (by simpa using h7)]
  have hcc : ({ id := s.pal.nextCmd, pair := k, word := (s.pair k).inWord, window := (s.pair k).window.getD 0, fn := pairFn s k } : Cmd) = c := hc.symm
  rw [e]
  unfold runCmd
  simp only [pair_takeWord, cmds_takeWord, nextCmd_takeWord, consumed_takeWord, pairFn_takeWord, blockCheck_takeWord, hcc]
  rw [if_neg h8', hchk]
  dsimp only
  unfold answers
  subst hc
  rfl

/-- The same on the core that the opcode names (R443). -/
theorem fwCommand_taken {s s1 : State} {k : MboxId} {op : Nat} {hasBlk : Bool} {blk : CmdBlock} {c : Cmd} {body : FwBody}
    (h : Taken s k op hasBlk blk c s1) :
    fwCommand op hasBlk k blk body s = match body s1 c blk.bits with
      | (s2, none) => s2
      | (s2, some r) => answers hasBlk s2 c r := fwCommandOn_taken h

end Sys2Proof.Machine
end

