-- ==== Sys2Proof/Laws/Lake.lean ====
section
/-! SUPPORT. What a read of tier N can do: it corrects, poisons and counts, and leaves everything else as it was. -/

namespace Sys2Proof.Machine

open Sys2Proof

/-- `t` differs from `s` only in what resolving lines may change (R77): bad symbols, poison, the Lake's events, counters, the trouble
tally and the draws from the free values. -/
def Resolves (s t : State) : Prop :=
  t = { s with
    freeCtr := t.freeCtr
    regs := t.regs
    lake := { s.lake with badSym := t.lake.badSym, poison := t.lake.poison, event := t.lake.event }
    fab := { s.fab with trouble := t.fab.trouble } }

theorem Resolves.refl (s : State) : Resolves s s := rfl

theorem Resolves.trans {s t u : State} (h : Resolves s t) (g : Resolves t u) : Resolves s u := by
  unfold Resolves at *
  rw [g, h]

theorem resolves_count (s : State) (o n w : Nat) : Resolves s (s.count o n w) := rfl
theorem resolves_trouble (s : State) (u : Nat) (k : TroubleKind) (n : Nat) : Resolves s (s.trouble u k n) := rfl
theorem resolves_event (s : State) (i : Nat) : Resolves s (setEvent s i) := rfl
theorem resolves_bad (s : State) (pl n : Nat) : Resolves s (setBad s pl n) := rfl
theorem resolves_poison (s : State) (pl : Nat) (b : Bool) : Resolves s (setPoison s pl b) := rfl
theorem resolves_choose (s : State) (n : Nat) : Resolves s (s.choose n).2 := rfl

theorem resolves_correctLine (s : State) (pl : Nat) : Resolves s (correctLine s pl) := by
  unfold correctLine
  split
  · exact ((resolves_bad s pl 0).trans (resolves_count _ _ _ _)).trans (resolves_trouble _ _ _ _)
  · exact .refl s

theorem resolves_foldl {α : Type} (f : State → α → State) (h : ∀ s x, Resolves s (f s x)) (l : List α) (s : State) : Resolves s (l.foldl f s) := by
  induction l generalizing s with
  | nil => exact .refl s
  | cons x l ih => exact (h s x).trans (ih _)

theorem resolves_resolveLine (s : State) (pl : Nat) : Resolves s (resolveLine s pl).1 := by
  unfold resolveLine
  dsimp only
  split
  · exact .refl s
  · split
    · exact resolves_correctLine s pl
    · have h1 : ∀ (c : Bool) (l : List Nat) (f : State → Nat → State), (∀ s x, Resolves s (f s x)) → Resolves s (if c = true then l.foldl f s else s) := by
        intro c l f hf
        split
        · exact resolves_foldl f hf l s
        · exact .refl s
      have h2 := (h1 (decide (ppDie (pl / 32768) ≤ 12) && (s.stack (ppStack (pl / 32768))).checkOk) ((List.range 13).filter (fun r => r != ppDie (pl / 32768)))
        (fun t r => if pageOn t (ppStack (pl / 32768)) r (ppPage (pl / 32768)) then
          correctLine t (physLine (physPage (ppStack (pl / 32768)) r (ppPage (pl / 32768))) (pl % 32768)) else t)
        (fun t r => by split
                       · exact resolves_correctLine t _
                       · exact .refl t)).trans
        (resolves_trouble _ (dieUnit (ppStack (pl / 32768)) (carrier (s.stack (ppStack (pl / 32768))) (ppDie (pl / 32768)))) .ue 1)
      split
      · dsimp only
        split
        · exact ((h2.trans (resolves_count _ _ _ _)).trans (resolves_event _ _)).trans (resolves_bad _ _ _)
        · exact (h2.trans (resolves_count _ _ _ _)).trans (resolves_event _ _)
      · exact ((h2.trans (resolves_poison _ _ _)).trans (resolves_count _ _ _ _)).trans (resolves_event _ _)

theorem resolves_resolveAt (s : State) (pl a : Nat) : Resolves s (resolveAt s pl a).1 := by
  have h := resolves_resolveLine s pl
  unfold resolveAt
  split
  · exact .refl s
  · split
    · next g => rw [g] at h; exact h
    · next g =>
      rw [g] at h
      split
      · exact h
      · dsimp only
        split
        · exact ((h.trans (resolves_choose _ 2)).trans (resolves_poison _ _ _)).trans (resolves_bad _ _ _)
        · exact h.trans (resolves_choose _ 2)

theorem resolves_readLine (s : State) (a : Nat) : Resolves s (readLine s a).1 := by
  unfold readLine
  split
  · exact .refl s
  · exact resolves_resolveAt s _ a

theorem resolves_readLines (n : Nat) (s : State) (l : Nat) : Resolves s (readLines n s l).1 := by
  induction n generalizing s l with
  | zero => exact .refl s
  | succ n ih =>
    have h := (resolves_readLine s (64 * l)).trans (ih (readLine s (64 * l)).1 (l + 1))
    exact h

/-- All that a read of tier N does to the state. -/
theorem resolves_lakeRead (s : State) (a len : Nat) : Resolves s (lakeRead s a len).1 := resolves_readLines _ s _

end Sys2Proof.Machine
end

