-- ==== Sys2Proof/Laws/Memory.lean ====
section
/-! SUPPORT. The laws of memory: what a write and a clearing leave at each byte, and that each keeps the canonical form. -/

namespace Sys2Proof.Machine

open Sys2Proof

theorem risingAbove_filter {α : Type} (f : Nat × α → Bool) {n : Nat} : ∀ {m : Map α}, risingAbove n m → risingAbove n (m.filter f)
  | [], _ => trivial
  | p :: m, hm => by
    have h := risingAbove_filter f hm.2
    rw [List.filter_cons]
    split
    · exact ⟨hm.1, h⟩
    · exact risingAbove_mono (Nat.le_of_lt hm.1) h

theorem mkeysRising_filter {α : Type} (f : Nat × α → Bool) (m : Map α) (h : mkeysRising m = true) : mkeysRising (m.filter f) = true := by
  induction m with
  | nil => rfl
  | cons p m ih =>
    obtain ⟨k, v⟩ := p
    have hr := (mkeysRising_cons k v m).1 h
    rw [List.filter_cons]
    split
    · exact (mkeysRising_cons k v _).2 (risingAbove_filter f hr)
    · refine ih ?_
      cases m with
      | nil => rfl
      | cons q l => exact (mkeysRising_cons q.1 q.2 l).2 hr.2

theorem mcanon_filter {α : Type} [DecidableEq α] (d : α) (f : Nat × α → Bool) (m : Map α) (h : mcanon d m = true) : mcanon d (m.filter f) = true := by
  simp only [mcanon, Bool.and_eq_true, List.all_eq_true] at h ⊢
  exact ⟨mkeysRising_filter f m h.1, fun p hp => h.2 p (List.mem_of_mem_filter hp)⟩

/-- A write keeps the canonical form. -/
theorem wf_memWrite (m : Memory) (a : Nat) (bs : List Byte) (h : Memory.wf m = true) : Memory.wf (memWrite m a bs) = true := by
  induction bs generalizing m a with
  | nil => exact h
  | cons b bs ih => exact ih _ _ (mcanon_msetC 0#8 m a b h)

/-- A clearing keeps the canonical form. -/
theorem wf_memClear (m : Memory) (a n : Nat) (h : Memory.wf m = true) : Memory.wf (memClear m a n) = true := mcanon_filter 0#8 _ m h

/-- A byte after a write: the one written, or the one that was there. -/
theorem memByte_memWrite (m : Memory) (a : Nat) (bs : List Byte) (x : Nat) :
    memByte (memWrite m a bs) x = if a ≤ x ∧ x < a + bs.length then bs.getD (x - a) 0#8 else memByte m x := by
  induction bs generalizing m a with
  | nil => rw [if_neg (by rw [List.length_nil]; omega)]; rfl
  | cons b bs ih =>
    rw [memWrite, ih]
    by_cases hx : x = a
    · subst hx
      rw [if_neg (by omega), if_pos (by simp), Nat.sub_self]
      exact mgetD_msetC_same 0#8 m x b
    · have hm : memByte (msetC 0#8 m a b) x = memByte m x := mgetD_msetC_ne 0#8 m b hx
      rw [hm, List.length_cons]
      by_cases h : a ≤ x ∧ x < a + (bs.length + 1)
      · rw [if_pos (by omega), if_pos h, show x - a = (x - (a + 1)) + 1 by omega]; rfl
      · rw [if_neg (by omega), if_neg h]

theorem Resolves.mem {s t : State} (h : Resolves s t) : t.lake.mem = s.lake.mem := by rw [h]

theorem mem_lineDelta (s : State) (a : Nat) (old new : List Byte) : (lineDelta s a old new).lake = s.lake := by
  unfold lineDelta
  split
  · rfl
  · split
    · rfl
    · split
      · rfl
      · unfold sendDelta
        split
        · rfl
        · split <;> rfl

/-- A write within a line keeps the memory's canonical form. -/
theorem wf_writeLine (s : State) (a : Nat) (bs : List Byte) (h : Memory.wf s.lake.mem = true) : Memory.wf (writeLine s a bs).1.lake.mem = true := by
  unfold writeLine
  split
  · exact h
  · have hr := (resolves_readLine s (a / 64 * 64)).mem
    cases hf : decide (a % 64 = 0) && decide (bs.length = 64)
    · dsimp only
      simp only [Bool.false_eq_true, if_false]
      split
      · rw [hr]; exact h
      · rw [mem_lineDelta]
        refine wf_memWrite _ _ _ ?_
        split <;> rw [hr] <;> exact h
    · dsimp only
      simp only [if_true, Bool.false_eq_true, if_false]
      rw [mem_lineDelta]
      refine wf_memWrite _ _ _ ?_
      split <;> exact h

theorem wf_writeLines (n : Nat) (s : State) (a : Nat) (bs : List Byte) (h : Memory.wf s.lake.mem = true) : Memory.wf (writeLines n s a bs).1.lake.mem = true := by
  induction n generalizing s a bs with
  | zero => exact h
  | succ n ih =>
    unfold writeLines
    split
    · exact h
    · exact ih _ _ _ (wf_writeLine s a _ h)

/-- A write of tier N keeps the memory's canonical form, and a read leaves the memory as it is. -/
theorem wf_lakeWrite (s : State) (a : Nat) (bs : List Byte) (h : Memory.wf s.lake.mem = true) : Memory.wf (lakeWrite s a bs).1.lake.mem = true := wf_writeLines _ s a bs h
theorem mem_lakeRead (s : State) (a len : Nat) : (lakeRead s a len).1.lake.mem = s.lake.mem := (resolves_lakeRead s a len).mem

/-- A write of scratch keeps its canonical form. -/
theorem wf_scrWrite (s : State) (c off : Nat) (bs : List Byte) (h : Memory.wf s.fab.scratch = true) : Memory.wf (scrWrite s c off bs).fab.scratch = true := wf_memWrite _ _ _ h

/-- Memory and scratch list nothing at reset. -/
theorem wf_reset : Memory.wf State.reset.lake.mem = true ∧ Memory.wf State.reset.fab.scratch = true := ⟨rfl, rfl⟩

end Sys2Proof.Machine
end

