-- ==== Sys2Proof/Laws/State.lean ====
section
/-! SUPPORT. The laws of the updates of State: each changes one part of it and leaves every other part, and what it wrote is read back. -/

namespace Sys2Proof.Machine

open Sys2Proof

-- emit: out
@[simp] theorem State.emit_pending (s : State) (o : Output) : (s.emit o).pending = s.pending := rfl
@[simp] theorem State.emit_freeCtr (s : State) (o : Output) : (s.emit o).freeCtr = s.freeCtr := rfl
@[simp] theorem State.emit_regs (s : State) (o : Output) : (s.emit o).regs = s.regs := rfl
@[simp] theorem State.emit_lake (s : State) (o : Output) : (s.emit o).lake = s.lake := rfl
@[simp] theorem State.emit_vat (s : State) (o : Output) : (s.emit o).vat = s.vat := rfl
@[simp] theorem State.emit_host (s : State) (o : Output) : (s.emit o).host = s.host := rfl
@[simp] theorem State.emit_pal (s : State) (o : Output) : (s.emit o).pal = s.pal := rfl
@[simp] theorem State.emit_fab (s : State) (o : Output) : (s.emit o).fab = s.fab := rfl
@[simp] theorem State.emit_ap (s : State) (o : Output) : (s.emit o).ap = s.ap := rfl
@[simp] theorem State.emit_carm (s : State) (o : Output) : (s.emit o).carm = s.carm := rfl
@[simp] theorem State.emit_par (s : State) (o : Output) : (s.emit o).par = s.par := rfl
@[simp] theorem State.emit_sec (s : State) (o : Output) : (s.emit o).sec = s.sec := rfl
@[simp] theorem State.emit_umb (s : State) (o : Output) : (s.emit o).umb = s.umb := rfl
@[simp] theorem State.emit_net (s : State) (o : Output) : (s.emit o).net = s.net := rfl
@[simp] theorem State.emit_woad (s : State) (o : Output) : (s.emit o).woad = s.woad := rfl
@[simp] theorem State.emit_blend (s : State) (o : Output) : (s.emit o).blend = s.blend := rfl
@[simp] theorem State.emit_madr (s : State) (o : Output) : (s.emit o).madr = s.madr := rfl
@[simp] theorem State.emit_saf (s : State) (o : Output) : (s.emit o).saf = s.saf := rfl
@[simp] theorem State.emit_rel (s : State) (o : Output) : (s.emit o).rel = s.rel := rfl
@[simp] theorem State.emit_out (s : State) (o : Output) : (s.emit o).out = o :: s.out := rfl

-- setReg: regs
@[simp] theorem State.setReg_pending (s : State) (off v : Nat) : (s.setReg off v).pending = s.pending := rfl
@[simp] theorem State.setReg_freeCtr (s : State) (off v : Nat) : (s.setReg off v).freeCtr = s.freeCtr := rfl
@[simp] theorem State.setReg_out (s : State) (off v : Nat) : (s.setReg off v).out = s.out := rfl
@[simp] theorem State.setReg_lake (s : State) (off v : Nat) : (s.setReg off v).lake = s.lake := rfl
@[simp] theorem State.setReg_vat (s : State) (off v : Nat) : (s.setReg off v).vat = s.vat := rfl
@[simp] theorem State.setReg_host (s : State) (off v : Nat) : (s.setReg off v).host = s.host := rfl
@[simp] theorem State.setReg_pal (s : State) (off v : Nat) : (s.setReg off v).pal = s.pal := rfl
@[simp] theorem State.setReg_fab (s : State) (off v : Nat) : (s.setReg off v).fab = s.fab := rfl
@[simp] theorem State.setReg_ap (s : State) (off v : Nat) : (s.setReg off v).ap = s.ap := rfl
@[simp] theorem State.setReg_carm (s : State) (off v : Nat) : (s.setReg off v).carm = s.carm := rfl
@[simp] theorem State.setReg_par (s : State) (off v : Nat) : (s.setReg off v).par = s.par := rfl
@[simp] theorem State.setReg_sec (s : State) (off v : Nat) : (s.setReg off v).sec = s.sec := rfl
@[simp] theorem State.setReg_umb (s : State) (off v : Nat) : (s.setReg off v).umb = s.umb := rfl
@[simp] theorem State.setReg_net (s : State) (off v : Nat) : (s.setReg off v).net = s.net := rfl
@[simp] theorem State.setReg_woad (s : State) (off v : Nat) : (s.setReg off v).woad = s.woad := rfl
@[simp] theorem State.setReg_blend (s : State) (off v : Nat) : (s.setReg off v).blend = s.blend := rfl
@[simp] theorem State.setReg_madr (s : State) (off v : Nat) : (s.setReg off v).madr = s.madr := rfl
@[simp] theorem State.setReg_saf (s : State) (off v : Nat) : (s.setReg off v).saf = s.saf := rfl
@[simp] theorem State.setReg_rel (s : State) (off v : Nat) : (s.setReg off v).rel = s.rel := rfl
@[simp] theorem State.reg_setReg (s : State) (off v : Nat) : (s.setReg off v).reg off = v := mgetD_mset_same ..

-- setStack: lake
@[simp] theorem State.setStack_pending (s : State) (i : Nat) (x : Stack) : (s.setStack i x).pending = s.pending := rfl
@[simp] theorem State.setStack_freeCtr (s : State) (i : Nat) (x : Stack) : (s.setStack i x).freeCtr = s.freeCtr := rfl
@[simp] theorem State.setStack_out (s : State) (i : Nat) (x : Stack) : (s.setStack i x).out = s.out := rfl
@[simp] theorem State.setStack_regs (s : State) (i : Nat) (x : Stack) : (s.setStack i x).regs = s.regs := rfl
@[simp] theorem State.setStack_vat (s : State) (i : Nat) (x : Stack) : (s.setStack i x).vat = s.vat := rfl
@[simp] theorem State.setStack_host (s : State) (i : Nat) (x : Stack) : (s.setStack i x).host = s.host := rfl
@[simp] theorem State.setStack_pal (s : State) (i : Nat) (x : Stack) : (s.setStack i x).pal = s.pal := rfl
@[simp] theorem State.setStack_fab (s : State) (i : Nat) (x : Stack) : (s.setStack i x).fab = s.fab := rfl
@[simp] theorem State.setStack_ap (s : State) (i : Nat) (x : Stack) : (s.setStack i x).ap = s.ap := rfl
@[simp] theorem State.setStack_carm (s : State) (i : Nat) (x : Stack) : (s.setStack i x).carm = s.carm := rfl
@[simp] theorem State.setStack_par (s : State) (i : Nat) (x : Stack) : (s.setStack i x).par = s.par := rfl
@[simp] theorem State.setStack_sec (s : State) (i : Nat) (x : Stack) : (s.setStack i x).sec = s.sec := rfl
@[simp] theorem State.setStack_umb (s : State) (i : Nat) (x : Stack) : (s.setStack i x).umb = s.umb := rfl
@[simp] theorem State.setStack_net (s : State) (i : Nat) (x : Stack) : (s.setStack i x).net = s.net := rfl
@[simp] theorem State.setStack_woad (s : State) (i : Nat) (x : Stack) : (s.setStack i x).woad = s.woad := rfl
@[simp] theorem State.setStack_blend (s : State) (i : Nat) (x : Stack) : (s.setStack i x).blend = s.blend := rfl
@[simp] theorem State.setStack_madr (s : State) (i : Nat) (x : Stack) : (s.setStack i x).madr = s.madr := rfl
@[simp] theorem State.setStack_saf (s : State) (i : Nat) (x : Stack) : (s.setStack i x).saf = s.saf := rfl
@[simp] theorem State.setStack_rel (s : State) (i : Nat) (x : Stack) : (s.setStack i x).rel = s.rel := rfl
@[simp] theorem State.stack_setStack (s : State) (i : Nat) (x : Stack) : (s.setStack i x).stack i = x := mgetD_mset_same ..

-- setFn: host
@[simp] theorem State.setFn_pending (s : State) (f : Nat) (x : Fn) : (s.setFn f x).pending = s.pending := rfl
@[simp] theorem State.setFn_freeCtr (s : State) (f : Nat) (x : Fn) : (s.setFn f x).freeCtr = s.freeCtr := rfl
@[simp] theorem State.setFn_out (s : State) (f : Nat) (x : Fn) : (s.setFn f x).out = s.out := rfl
@[simp] theorem State.setFn_regs (s : State) (f : Nat) (x : Fn) : (s.setFn f x).regs = s.regs := rfl
@[simp] theorem State.setFn_lake (s : State) (f : Nat) (x : Fn) : (s.setFn f x).lake = s.lake := rfl
@[simp] theorem State.setFn_vat (s : State) (f : Nat) (x : Fn) : (s.setFn f x).vat = s.vat := rfl
@[simp] theorem State.setFn_pal (s : State) (f : Nat) (x : Fn) : (s.setFn f x).pal = s.pal := rfl
@[simp] theorem State.setFn_fab (s : State) (f : Nat) (x : Fn) : (s.setFn f x).fab = s.fab := rfl
@[simp] theorem State.setFn_ap (s : State) (f : Nat) (x : Fn) : (s.setFn f x).ap = s.ap := rfl
@[simp] theorem State.setFn_carm (s : State) (f : Nat) (x : Fn) : (s.setFn f x).carm = s.carm := rfl
@[simp] theorem State.setFn_par (s : State) (f : Nat) (x : Fn) : (s.setFn f x).par = s.par := rfl
@[simp] theorem State.setFn_sec (s : State) (f : Nat) (x : Fn) : (s.setFn f x).sec = s.sec := rfl
@[simp] theorem State.setFn_umb (s : State) (f : Nat) (x : Fn) : (s.setFn f x).umb = s.umb := rfl
@[simp] theorem State.setFn_net (s : State) (f : Nat) (x : Fn) : (s.setFn f x).net = s.net := rfl
@[simp] theorem State.setFn_woad (s : State) (f : Nat) (x : Fn) : (s.setFn f x).woad = s.woad := rfl
@[simp] theorem State.setFn_blend (s : State) (f : Nat) (x : Fn) : (s.setFn f x).blend = s.blend := rfl
@[simp] theorem State.setFn_madr (s : State) (f : Nat) (x : Fn) : (s.setFn f x).madr = s.madr := rfl
@[simp] theorem State.setFn_saf (s : State) (f : Nat) (x : Fn) : (s.setFn f x).saf = s.saf := rfl
@[simp] theorem State.setFn_rel (s : State) (f : Nat) (x : Fn) : (s.setFn f x).rel = s.rel := rfl
@[simp] theorem State.fn_setFn (s : State) (f : Nat) (x : Fn) : (s.setFn f x).fn f = x := mgetD_mset_same ..

-- setHport: host
@[simp] theorem State.setHport_pending (s : State) (h : Nat) (x : HPort) : (s.setHport h x).pending = s.pending := rfl
@[simp] theorem State.setHport_freeCtr (s : State) (h : Nat) (x : HPort) : (s.setHport h x).freeCtr = s.freeCtr := rfl
@[simp] theorem State.setHport_out (s : State) (h : Nat) (x : HPort) : (s.setHport h x).out = s.out := rfl
@[simp] theorem State.setHport_regs (s : State) (h : Nat) (x : HPort) : (s.setHport h x).regs = s.regs := rfl
@[simp] theorem State.setHport_lake (s : State) (h : Nat) (x : HPort) : (s.setHport h x).lake = s.lake := rfl
@[simp] theorem State.setHport_vat (s : State) (h : Nat) (x : HPort) : (s.setHport h x).vat = s.vat := rfl
@[simp] theorem State.setHport_pal (s : State) (h : Nat) (x : HPort) : (s.setHport h x).pal = s.pal := rfl
@[simp] theorem State.setHport_fab (s : State) (h : Nat) (x : HPort) : (s.setHport h x).fab = s.fab := rfl
@[simp] theorem State.setHport_ap (s : State) (h : Nat) (x : HPort) : (s.setHport h x).ap = s.ap := rfl
@[simp] theorem State.setHport_carm (s : State) (h : Nat) (x : HPort) : (s.setHport h x).carm = s.carm := rfl
@[simp] theorem State.setHport_par (s : State) (h : Nat) (x : HPort) : (s.setHport h x).par = s.par := rfl
@[simp] theorem State.setHport_sec (s : State) (h : Nat) (x : HPort) : (s.setHport h x).sec = s.sec := rfl
@[simp] theorem State.setHport_umb (s : State) (h : Nat) (x : HPort) : (s.setHport h x).umb = s.umb := rfl
@[simp] theorem State.setHport_net (s : State) (h : Nat) (x : HPort) : (s.setHport h x).net = s.net := rfl
@[simp] theorem State.setHport_woad (s : State) (h : Nat) (x : HPort) : (s.setHport h x).woad = s.woad := rfl
@[simp] theorem State.setHport_blend (s : State) (h : Nat) (x : HPort) : (s.setHport h x).blend = s.blend := rfl
@[simp] theorem State.setHport_madr (s : State) (h : Nat) (x : HPort) : (s.setHport h x).madr = s.madr := rfl
@[simp] theorem State.setHport_saf (s : State) (h : Nat) (x : HPort) : (s.setHport h x).saf = s.saf := rfl
@[simp] theorem State.setHport_rel (s : State) (h : Nat) (x : HPort) : (s.setHport h x).rel = s.rel := rfl
@[simp] theorem State.hport_setHport (s : State) (h : Nat) (x : HPort) : (s.setHport h x).hport h = x := mgetD_mset_same ..

-- setPair: pal
@[simp] theorem State.setPair_pending (s : State) (k : MboxId) (x : Pair) : (s.setPair k x).pending = s.pending := rfl
@[simp] theorem State.setPair_freeCtr (s : State) (k : MboxId) (x : Pair) : (s.setPair k x).freeCtr = s.freeCtr := rfl
@[simp] theorem State.setPair_out (s : State) (k : MboxId) (x : Pair) : (s.setPair k x).out = s.out := rfl
@[simp] theorem State.setPair_regs (s : State) (k : MboxId) (x : Pair) : (s.setPair k x).regs = s.regs := rfl
@[simp] theorem State.setPair_lake (s : State) (k : MboxId) (x : Pair) : (s.setPair k x).lake = s.lake := rfl
@[simp] theorem State.setPair_vat (s : State) (k : MboxId) (x : Pair) : (s.setPair k x).vat = s.vat := rfl
@[simp] theorem State.setPair_host (s : State) (k : MboxId) (x : Pair) : (s.setPair k x).host = s.host := rfl
@[simp] theorem State.setPair_fab (s : State) (k : MboxId) (x : Pair) : (s.setPair k x).fab = s.fab := rfl
@[simp] theorem State.setPair_ap (s : State) (k : MboxId) (x : Pair) : (s.setPair k x).ap = s.ap := rfl
@[simp] theorem State.setPair_carm (s : State) (k : MboxId) (x : Pair) : (s.setPair k x).carm = s.carm := rfl
@[simp] theorem State.setPair_par (s : State) (k : MboxId) (x : Pair) : (s.setPair k x).par = s.par := rfl
@[simp] theorem State.setPair_sec (s : State) (k : MboxId) (x : Pair) : (s.setPair k x).sec = s.sec := rfl
@[simp] theorem State.setPair_umb (s : State) (k : MboxId) (x : Pair) : (s.setPair k x).umb = s.umb := rfl
@[simp] theorem State.setPair_net (s : State) (k : MboxId) (x : Pair) : (s.setPair k x).net = s.net := rfl
@[simp] theorem State.setPair_woad (s : State) (k : MboxId) (x : Pair) : (s.setPair k x).woad = s.woad := rfl
@[simp] theorem State.setPair_blend (s : State) (k : MboxId) (x : Pair) : (s.setPair k x).blend = s.blend := rfl
@[simp] theorem State.setPair_madr (s : State) (k : MboxId) (x : Pair) : (s.setPair k x).madr = s.madr := rfl
@[simp] theorem State.setPair_saf (s : State) (k : MboxId) (x : Pair) : (s.setPair k x).saf = s.saf := rfl
@[simp] theorem State.setPair_rel (s : State) (k : MboxId) (x : Pair) : (s.setPair k x).rel = s.rel := rfl
@[simp] theorem State.pair_setPair (s : State) (k : MboxId) (x : Pair) : (s.setPair k x).pair k = x := mgetD_mset_same ..

-- setPcore: pal
@[simp] theorem State.setPcore_pending (s : State) (n : Nat) (x : PCore) : (s.setPcore n x).pending = s.pending := rfl
@[simp] theorem State.setPcore_freeCtr (s : State) (n : Nat) (x : PCore) : (s.setPcore n x).freeCtr = s.freeCtr := rfl
@[simp] theorem State.setPcore_out (s : State) (n : Nat) (x : PCore) : (s.setPcore n x).out = s.out := rfl
@[simp] theorem State.setPcore_regs (s : State) (n : Nat) (x : PCore) : (s.setPcore n x).regs = s.regs := rfl
@[simp] theorem State.setPcore_lake (s : State) (n : Nat) (x : PCore) : (s.setPcore n x).lake = s.lake := rfl
@[simp] theorem State.setPcore_vat (s : State) (n : Nat) (x : PCore) : (s.setPcore n x).vat = s.vat := rfl
@[simp] theorem State.setPcore_host (s : State) (n : Nat) (x : PCore) : (s.setPcore n x).host = s.host := rfl
@[simp] theorem State.setPcore_fab (s : State) (n : Nat) (x : PCore) : (s.setPcore n x).fab = s.fab := rfl
@[simp] theorem State.setPcore_ap (s : State) (n : Nat) (x : PCore) : (s.setPcore n x).ap = s.ap := rfl
@[simp] theorem State.setPcore_carm (s : State) (n : Nat) (x : PCore) : (s.setPcore n x).carm = s.carm := rfl
@[simp] theorem State.setPcore_par (s : State) (n : Nat) (x : PCore) : (s.setPcore n x).par = s.par := rfl
@[simp] theorem State.setPcore_sec (s : State) (n : Nat) (x : PCore) : (s.setPcore n x).sec = s.sec := rfl
@[simp] theorem State.setPcore_umb (s : State) (n : Nat) (x : PCore) : (s.setPcore n x).umb = s.umb := rfl
@[simp] theorem State.setPcore_net (s : State) (n : Nat) (x : PCore) : (s.setPcore n x).net = s.net := rfl
@[simp] theorem State.setPcore_woad (s : State) (n : Nat) (x : PCore) : (s.setPcore n x).woad = s.woad := rfl
@[simp] theorem State.setPcore_blend (s : State) (n : Nat) (x : PCore) : (s.setPcore n x).blend = s.blend := rfl
@[simp] theorem State.setPcore_madr (s : State) (n : Nat) (x : PCore) : (s.setPcore n x).madr = s.madr := rfl
@[simp] theorem State.setPcore_saf (s : State) (n : Nat) (x : PCore) : (s.setPcore n x).saf = s.saf := rfl
@[simp] theorem State.setPcore_rel (s : State) (n : Nat) (x : PCore) : (s.setPcore n x).rel = s.rel := rfl
@[simp] theorem State.pcore_setPcore (s : State) (n : Nat) (x : PCore) : (s.setPcore n x).pcore n = x := mgetD_mset_same ..

-- setBank: pal
@[simp] theorem State.setBank_pending (s : State) (b : Nat) (x : Bank) : (s.setBank b x).pending = s.pending := rfl
@[simp] theorem State.setBank_freeCtr (s : State) (b : Nat) (x : Bank) : (s.setBank b x).freeCtr = s.freeCtr := rfl
@[simp] theorem State.setBank_out (s : State) (b : Nat) (x : Bank) : (s.setBank b x).out = s.out := rfl
@[simp] theorem State.setBank_regs (s : State) (b : Nat) (x : Bank) : (s.setBank b x).regs = s.regs := rfl
@[simp] theorem State.setBank_lake (s : State) (b : Nat) (x : Bank) : (s.setBank b x).lake = s.lake := rfl
@[simp] theorem State.setBank_vat (s : State) (b : Nat) (x : Bank) : (s.setBank b x).vat = s.vat := rfl
@[simp] theorem State.setBank_host (s : State) (b : Nat) (x : Bank) : (s.setBank b x).host = s.host := rfl
@[simp] theorem State.setBank_fab (s : State) (b : Nat) (x : Bank) : (s.setBank b x).fab = s.fab := rfl
@[simp] theorem State.setBank_ap (s : State) (b : Nat) (x : Bank) : (s.setBank b x).ap = s.ap := rfl
@[simp] theorem State.setBank_carm (s : State) (b : Nat) (x : Bank) : (s.setBank b x).carm = s.carm := rfl
@[simp] theorem State.setBank_par (s : State) (b : Nat) (x : Bank) : (s.setBank b x).par = s.par := rfl
@[simp] theorem State.setBank_sec (s : State) (b : Nat) (x : Bank) : (s.setBank b x).sec = s.sec := rfl
@[simp] theorem State.setBank_umb (s : State) (b : Nat) (x : Bank) : (s.setBank b x).umb = s.umb := rfl
@[simp] theorem State.setBank_net (s : State) (b : Nat) (x : Bank) : (s.setBank b x).net = s.net := rfl
@[simp] theorem State.setBank_woad (s : State) (b : Nat) (x : Bank) : (s.setBank b x).woad = s.woad := rfl
@[simp] theorem State.setBank_blend (s : State) (b : Nat) (x : Bank) : (s.setBank b x).blend = s.blend := rfl
@[simp] theorem State.setBank_madr (s : State) (b : Nat) (x : Bank) : (s.setBank b x).madr = s.madr := rfl
@[simp] theorem State.setBank_saf (s : State) (b : Nat) (x : Bank) : (s.setBank b x).saf = s.saf := rfl
@[simp] theorem State.setBank_rel (s : State) (b : Nat) (x : Bank) : (s.setBank b x).rel = s.rel := rfl
@[simp] theorem State.bank_setBank (s : State) (b : Nat) (x : Bank) : (s.setBank b x).bank b = x := mgetD_mset_same ..

-- setRgn: fab
@[simp] theorem State.setRgn_pending (s : State) (r : Nat) (x : RegionSt) : (s.setRgn r x).pending = s.pending := rfl
@[simp] theorem State.setRgn_freeCtr (s : State) (r : Nat) (x : RegionSt) : (s.setRgn r x).freeCtr = s.freeCtr := rfl
@[simp] theorem State.setRgn_out (s : State) (r : Nat) (x : RegionSt) : (s.setRgn r x).out = s.out := rfl
@[simp] theorem State.setRgn_regs (s : State) (r : Nat) (x : RegionSt) : (s.setRgn r x).regs = s.regs := rfl
@[simp] theorem State.setRgn_lake (s : State) (r : Nat) (x : RegionSt) : (s.setRgn r x).lake = s.lake := rfl
@[simp] theorem State.setRgn_vat (s : State) (r : Nat) (x : RegionSt) : (s.setRgn r x).vat = s.vat := rfl
@[simp] theorem State.setRgn_host (s : State) (r : Nat) (x : RegionSt) : (s.setRgn r x).host = s.host := rfl
@[simp] theorem State.setRgn_pal (s : State) (r : Nat) (x : RegionSt) : (s.setRgn r x).pal = s.pal := rfl
@[simp] theorem State.setRgn_ap (s : State) (r : Nat) (x : RegionSt) : (s.setRgn r x).ap = s.ap := rfl
@[simp] theorem State.setRgn_carm (s : State) (r : Nat) (x : RegionSt) : (s.setRgn r x).carm = s.carm := rfl
@[simp] theorem State.setRgn_par (s : State) (r : Nat) (x : RegionSt) : (s.setRgn r x).par = s.par := rfl
@[simp] theorem State.setRgn_sec (s : State) (r : Nat) (x : RegionSt) : (s.setRgn r x).sec = s.sec := rfl
@[simp] theorem State.setRgn_umb (s : State) (r : Nat) (x : RegionSt) : (s.setRgn r x).umb = s.umb := rfl
@[simp] theorem State.setRgn_net (s : State) (r : Nat) (x : RegionSt) : (s.setRgn r x).net = s.net := rfl
@[simp] theorem State.setRgn_woad (s : State) (r : Nat) (x : RegionSt) : (s.setRgn r x).woad = s.woad := rfl
@[simp] theorem State.setRgn_blend (s : State) (r : Nat) (x : RegionSt) : (s.setRgn r x).blend = s.blend := rfl
@[simp] theorem State.setRgn_madr (s : State) (r : Nat) (x : RegionSt) : (s.setRgn r x).madr = s.madr := rfl
@[simp] theorem State.setRgn_saf (s : State) (r : Nat) (x : RegionSt) : (s.setRgn r x).saf = s.saf := rfl
@[simp] theorem State.setRgn_rel (s : State) (r : Nat) (x : RegionSt) : (s.setRgn r x).rel = s.rel := rfl
@[simp] theorem State.rgn_setRgn (s : State) (r : Nat) (x : RegionSt) : (s.setRgn r x).rgn r = x := mgetD_mset_same ..

-- setCl: fab
@[simp] theorem State.setCl_pending (s : State) (c : Nat) (x : Cluster) : (s.setCl c x).pending = s.pending := rfl
@[simp] theorem State.setCl_freeCtr (s : State) (c : Nat) (x : Cluster) : (s.setCl c x).freeCtr = s.freeCtr := rfl
@[simp] theorem State.setCl_out (s : State) (c : Nat) (x : Cluster) : (s.setCl c x).out = s.out := rfl
@[simp] theorem State.setCl_regs (s : State) (c : Nat) (x : Cluster) : (s.setCl c x).regs = s.regs := rfl
@[simp] theorem State.setCl_lake (s : State) (c : Nat) (x : Cluster) : (s.setCl c x).lake = s.lake := rfl
@[simp] theorem State.setCl_vat (s : State) (c : Nat) (x : Cluster) : (s.setCl c x).vat = s.vat := rfl
@[simp] theorem State.setCl_host (s : State) (c : Nat) (x : Cluster) : (s.setCl c x).host = s.host := rfl
@[simp] theorem State.setCl_pal (s : State) (c : Nat) (x : Cluster) : (s.setCl c x).pal = s.pal := rfl
@[simp] theorem State.setCl_ap (s : State) (c : Nat) (x : Cluster) : (s.setCl c x).ap = s.ap := rfl
@[simp] theorem State.setCl_carm (s : State) (c : Nat) (x : Cluster) : (s.setCl c x).carm = s.carm := rfl
@[simp] theorem State.setCl_par (s : State) (c : Nat) (x : Cluster) : (s.setCl c x).par = s.par := rfl
@[simp] theorem State.setCl_sec (s : State) (c : Nat) (x : Cluster) : (s.setCl c x).sec = s.sec := rfl
@[simp] theorem State.setCl_umb (s : State) (c : Nat) (x : Cluster) : (s.setCl c x).umb = s.umb := rfl
@[simp] theorem State.setCl_net (s : State) (c : Nat) (x : Cluster) : (s.setCl c x).net = s.net := rfl
@[simp] theorem State.setCl_woad (s : State) (c : Nat) (x : Cluster) : (s.setCl c x).woad = s.woad := rfl
@[simp] theorem State.setCl_blend (s : State) (c : Nat) (x : Cluster) : (s.setCl c x).blend = s.blend := rfl
@[simp] theorem State.setCl_madr (s : State) (c : Nat) (x : Cluster) : (s.setCl c x).madr = s.madr := rfl
@[simp] theorem State.setCl_saf (s : State) (c : Nat) (x : Cluster) : (s.setCl c x).saf = s.saf := rfl
@[simp] theorem State.setCl_rel (s : State) (c : Nat) (x : Cluster) : (s.setCl c x).rel = s.rel := rfl
@[simp] theorem State.cl_setCl (s : State) (c : Nat) (x : Cluster) : (s.setCl c x).cl c = x := mgetD_mset_same ..

-- setCore: fab
@[simp] theorem State.setCore_pending (s : State) (i : Nat) (x : Core) : (s.setCore i x).pending = s.pending := rfl
@[simp] theorem State.setCore_freeCtr (s : State) (i : Nat) (x : Core) : (s.setCore i x).freeCtr = s.freeCtr := rfl
@[simp] theorem State.setCore_out (s : State) (i : Nat) (x : Core) : (s.setCore i x).out = s.out := rfl
@[simp] theorem State.setCore_regs (s : State) (i : Nat) (x : Core) : (s.setCore i x).regs = s.regs := rfl
@[simp] theorem State.setCore_lake (s : State) (i : Nat) (x : Core) : (s.setCore i x).lake = s.lake := rfl
@[simp] theorem State.setCore_vat (s : State) (i : Nat) (x : Core) : (s.setCore i x).vat = s.vat := rfl
@[simp] theorem State.setCore_host (s : State) (i : Nat) (x : Core) : (s.setCore i x).host = s.host := rfl
@[simp] theorem State.setCore_pal (s : State) (i : Nat) (x : Core) : (s.setCore i x).pal = s.pal := rfl
@[simp] theorem State.setCore_ap (s : State) (i : Nat) (x : Core) : (s.setCore i x).ap = s.ap := rfl
@[simp] theorem State.setCore_carm (s : State) (i : Nat) (x : Core) : (s.setCore i x).carm = s.carm := rfl
@[simp] theorem State.setCore_par (s : State) (i : Nat) (x : Core) : (s.setCore i x).par = s.par := rfl
@[simp] theorem State.setCore_sec (s : State) (i : Nat) (x : Core) : (s.setCore i x).sec = s.sec := rfl
@[simp] theorem State.setCore_umb (s : State) (i : Nat) (x : Core) : (s.setCore i x).umb = s.umb := rfl
@[simp] theorem State.setCore_net (s : State) (i : Nat) (x : Core) : (s.setCore i x).net = s.net := rfl
@[simp] theorem State.setCore_woad (s : State) (i : Nat) (x : Core) : (s.setCore i x).woad = s.woad := rfl
@[simp] theorem State.setCore_blend (s : State) (i : Nat) (x : Core) : (s.setCore i x).blend = s.blend := rfl
@[simp] theorem State.setCore_madr (s : State) (i : Nat) (x : Core) : (s.setCore i x).madr = s.madr := rfl
@[simp] theorem State.setCore_saf (s : State) (i : Nat) (x : Core) : (s.setCore i x).saf = s.saf := rfl
@[simp] theorem State.setCore_rel (s : State) (i : Nat) (x : Core) : (s.setCore i x).rel = s.rel := rfl
@[simp] theorem State.core_setCore (s : State) (i : Nat) (x : Core) : (s.setCore i x).core i = x := mgetD_mset_same ..

-- setUnit: fab
@[simp] theorem State.setUnit_pending (s : State) (u : Nat) (x : UnitSt) : (s.setUnit u x).pending = s.pending := rfl
@[simp] theorem State.setUnit_freeCtr (s : State) (u : Nat) (x : UnitSt) : (s.setUnit u x).freeCtr = s.freeCtr := rfl
@[simp] theorem State.setUnit_out (s : State) (u : Nat) (x : UnitSt) : (s.setUnit u x).out = s.out := rfl
@[simp] theorem State.setUnit_regs (s : State) (u : Nat) (x : UnitSt) : (s.setUnit u x).regs = s.regs := rfl
@[simp] theorem State.setUnit_lake (s : State) (u : Nat) (x : UnitSt) : (s.setUnit u x).lake = s.lake := rfl
@[simp] theorem State.setUnit_vat (s : State) (u : Nat) (x : UnitSt) : (s.setUnit u x).vat = s.vat := rfl
@[simp] theorem State.setUnit_host (s : State) (u : Nat) (x : UnitSt) : (s.setUnit u x).host = s.host := rfl
@[simp] theorem State.setUnit_pal (s : State) (u : Nat) (x : UnitSt) : (s.setUnit u x).pal = s.pal := rfl
@[simp] theorem State.setUnit_ap (s : State) (u : Nat) (x : UnitSt) : (s.setUnit u x).ap = s.ap := rfl
@[simp] theorem State.setUnit_carm (s : State) (u : Nat) (x : UnitSt) : (s.setUnit u x).carm = s.carm := rfl
@[simp] theorem State.setUnit_par (s : State) (u : Nat) (x : UnitSt) : (s.setUnit u x).par = s.par := rfl
@[simp] theorem State.setUnit_sec (s : State) (u : Nat) (x : UnitSt) : (s.setUnit u x).sec = s.sec := rfl
@[simp] theorem State.setUnit_umb (s : State) (u : Nat) (x : UnitSt) : (s.setUnit u x).umb = s.umb := rfl
@[simp] theorem State.setUnit_net (s : State) (u : Nat) (x : UnitSt) : (s.setUnit u x).net = s.net := rfl
@[simp] theorem State.setUnit_woad (s : State) (u : Nat) (x : UnitSt) : (s.setUnit u x).woad = s.woad := rfl
@[simp] theorem State.setUnit_blend (s : State) (u : Nat) (x : UnitSt) : (s.setUnit u x).blend = s.blend := rfl
@[simp] theorem State.setUnit_madr (s : State) (u : Nat) (x : UnitSt) : (s.setUnit u x).madr = s.madr := rfl
@[simp] theorem State.setUnit_saf (s : State) (u : Nat) (x : UnitSt) : (s.setUnit u x).saf = s.saf := rfl
@[simp] theorem State.setUnit_rel (s : State) (u : Nat) (x : UnitSt) : (s.setUnit u x).rel = s.rel := rfl
@[simp] theorem State.unit_setUnit (s : State) (u : Nat) (x : UnitSt) : (s.setUnit u x).unit u = x := mgetD_mset_same ..

-- setEng: fab
@[simp] theorem State.setEng_pending (s : State) (c : Nat) (codec : Bool) (x : Eng) : (s.setEng c codec x).pending = s.pending := rfl
@[simp] theorem State.setEng_freeCtr (s : State) (c : Nat) (codec : Bool) (x : Eng) : (s.setEng c codec x).freeCtr = s.freeCtr := rfl
@[simp] theorem State.setEng_out (s : State) (c : Nat) (codec : Bool) (x : Eng) : (s.setEng c codec x).out = s.out := rfl
@[simp] theorem State.setEng_regs (s : State) (c : Nat) (codec : Bool) (x : Eng) : (s.setEng c codec x).regs = s.regs := rfl
@[simp] theorem State.setEng_lake (s : State) (c : Nat) (codec : Bool) (x : Eng) : (s.setEng c codec x).lake = s.lake := rfl
@[simp] theorem State.setEng_vat (s : State) (c : Nat) (codec : Bool) (x : Eng) : (s.setEng c codec x).vat = s.vat := rfl
@[simp] theorem State.setEng_host (s : State) (c : Nat) (codec : Bool) (x : Eng) : (s.setEng c codec x).host = s.host := rfl
@[simp] theorem State.setEng_pal (s : State) (c : Nat) (codec : Bool) (x : Eng) : (s.setEng c codec x).pal = s.pal := rfl
@[simp] theorem State.setEng_ap (s : State) (c : Nat) (codec : Bool) (x : Eng) : (s.setEng c codec x).ap = s.ap := rfl
@[simp] theorem State.setEng_carm (s : State) (c : Nat) (codec : Bool) (x : Eng) : (s.setEng c codec x).carm = s.carm := rfl
@[simp] theorem State.setEng_par (s : State) (c : Nat) (codec : Bool) (x : Eng) : (s.setEng c codec x).par = s.par := rfl
@[simp] theorem State.setEng_sec (s : State) (c : Nat) (codec : Bool) (x : Eng) : (s.setEng c codec x).sec = s.sec := rfl
@[simp] theorem State.setEng_umb (s : State) (c : Nat) (codec : Bool) (x : Eng) : (s.setEng c codec x).umb = s.umb := rfl
@[simp] theorem State.setEng_net (s : State) (c : Nat) (codec : Bool) (x : Eng) : (s.setEng c codec x).net = s.net := rfl
@[simp] theorem State.setEng_woad (s : State) (c : Nat) (codec : Bool) (x : Eng) : (s.setEng c codec x).woad = s.woad := rfl
@[simp] theorem State.setEng_blend (s : State) (c : Nat) (codec : Bool) (x : Eng) : (s.setEng c codec x).blend = s.blend := rfl
@[simp] theorem State.setEng_madr (s : State) (c : Nat) (codec : Bool) (x : Eng) : (s.setEng c codec x).madr = s.madr := rfl
@[simp] theorem State.setEng_saf (s : State) (c : Nat) (codec : Bool) (x : Eng) : (s.setEng c codec x).saf = s.saf := rfl
@[simp] theorem State.setEng_rel (s : State) (c : Nat) (codec : Bool) (x : Eng) : (s.setEng c codec x).rel = s.rel := rfl
@[simp] theorem State.eng_setEng (s : State) (c : Nat) (codec : Bool) (x : Eng) : (s.setEng c codec x).eng c codec = x := mgetD_mset_same ..

-- setPort: ap
@[simp] theorem State.setPort_pending (s : State) (p : Nat) (x : ApPort) : (s.setPort p x).pending = s.pending := rfl
@[simp] theorem State.setPort_freeCtr (s : State) (p : Nat) (x : ApPort) : (s.setPort p x).freeCtr = s.freeCtr := rfl
@[simp] theorem State.setPort_out (s : State) (p : Nat) (x : ApPort) : (s.setPort p x).out = s.out := rfl
@[simp] theorem State.setPort_regs (s : State) (p : Nat) (x : ApPort) : (s.setPort p x).regs = s.regs := rfl
@[simp] theorem State.setPort_lake (s : State) (p : Nat) (x : ApPort) : (s.setPort p x).lake = s.lake := rfl
@[simp] theorem State.setPort_vat (s : State) (p : Nat) (x : ApPort) : (s.setPort p x).vat = s.vat := rfl
@[simp] theorem State.setPort_host (s : State) (p : Nat) (x : ApPort) : (s.setPort p x).host = s.host := rfl
@[simp] theorem State.setPort_pal (s : State) (p : Nat) (x : ApPort) : (s.setPort p x).pal = s.pal := rfl
@[simp] theorem State.setPort_fab (s : State) (p : Nat) (x : ApPort) : (s.setPort p x).fab = s.fab := rfl
@[simp] theorem State.setPort_carm (s : State) (p : Nat) (x : ApPort) : (s.setPort p x).carm = s.carm := rfl
@[simp] theorem State.setPort_par (s : State) (p : Nat) (x : ApPort) : (s.setPort p x).par = s.par := rfl
@[simp] theorem State.setPort_sec (s : State) (p : Nat) (x : ApPort) : (s.setPort p x).sec = s.sec := rfl
@[simp] theorem State.setPort_umb (s : State) (p : Nat) (x : ApPort) : (s.setPort p x).umb = s.umb := rfl
@[simp] theorem State.setPort_net (s : State) (p : Nat) (x : ApPort) : (s.setPort p x).net = s.net := rfl
@[simp] theorem State.setPort_woad (s : State) (p : Nat) (x : ApPort) : (s.setPort p x).woad = s.woad := rfl
@[simp] theorem State.setPort_blend (s : State) (p : Nat) (x : ApPort) : (s.setPort p x).blend = s.blend := rfl
@[simp] theorem State.setPort_madr (s : State) (p : Nat) (x : ApPort) : (s.setPort p x).madr = s.madr := rfl
@[simp] theorem State.setPort_saf (s : State) (p : Nat) (x : ApPort) : (s.setPort p x).saf = s.saf := rfl
@[simp] theorem State.setPort_rel (s : State) (p : Nat) (x : ApPort) : (s.setPort p x).rel = s.rel := rfl
@[simp] theorem State.port_setPort (s : State) (p : Nat) (x : ApPort) : (s.setPort p x).port p = x := mgetD_mset_same ..

-- setSlot: vat
@[simp] theorem State.setSlot_pending (s : State) (cls i : Nat) (x : Slot) : (s.setSlot cls i x).pending = s.pending := rfl
@[simp] theorem State.setSlot_freeCtr (s : State) (cls i : Nat) (x : Slot) : (s.setSlot cls i x).freeCtr = s.freeCtr := rfl
@[simp] theorem State.setSlot_out (s : State) (cls i : Nat) (x : Slot) : (s.setSlot cls i x).out = s.out := rfl
@[simp] theorem State.setSlot_regs (s : State) (cls i : Nat) (x : Slot) : (s.setSlot cls i x).regs = s.regs := rfl
@[simp] theorem State.setSlot_lake (s : State) (cls i : Nat) (x : Slot) : (s.setSlot cls i x).lake = s.lake := rfl
@[simp] theorem State.setSlot_host (s : State) (cls i : Nat) (x : Slot) : (s.setSlot cls i x).host = s.host := rfl
@[simp] theorem State.setSlot_pal (s : State) (cls i : Nat) (x : Slot) : (s.setSlot cls i x).pal = s.pal := rfl
@[simp] theorem State.setSlot_fab (s : State) (cls i : Nat) (x : Slot) : (s.setSlot cls i x).fab = s.fab := rfl
@[simp] theorem State.setSlot_ap (s : State) (cls i : Nat) (x : Slot) : (s.setSlot cls i x).ap = s.ap := rfl
@[simp] theorem State.setSlot_carm (s : State) (cls i : Nat) (x : Slot) : (s.setSlot cls i x).carm = s.carm := rfl
@[simp] theorem State.setSlot_par (s : State) (cls i : Nat) (x : Slot) : (s.setSlot cls i x).par = s.par := rfl
@[simp] theorem State.setSlot_sec (s : State) (cls i : Nat) (x : Slot) : (s.setSlot cls i x).sec = s.sec := rfl
@[simp] theorem State.setSlot_umb (s : State) (cls i : Nat) (x : Slot) : (s.setSlot cls i x).umb = s.umb := rfl
@[simp] theorem State.setSlot_net (s : State) (cls i : Nat) (x : Slot) : (s.setSlot cls i x).net = s.net := rfl
@[simp] theorem State.setSlot_woad (s : State) (cls i : Nat) (x : Slot) : (s.setSlot cls i x).woad = s.woad := rfl
@[simp] theorem State.setSlot_blend (s : State) (cls i : Nat) (x : Slot) : (s.setSlot cls i x).blend = s.blend := rfl
@[simp] theorem State.setSlot_madr (s : State) (cls i : Nat) (x : Slot) : (s.setSlot cls i x).madr = s.madr := rfl
@[simp] theorem State.setSlot_saf (s : State) (cls i : Nat) (x : Slot) : (s.setSlot cls i x).saf = s.saf := rfl
@[simp] theorem State.setSlot_rel (s : State) (cls i : Nat) (x : Slot) : (s.setSlot cls i x).rel = s.rel := rfl
@[simp] theorem State.slot_setSlot (s : State) (cls i : Nat) (x : Slot) : (s.setSlot cls i x).slot cls i = x := mgetD_mset_same ..

-- setJob: vat
@[simp] theorem State.setJob_pending (s : State) (i : Nat) (x : Job) : (s.setJob i x).pending = s.pending := rfl
@[simp] theorem State.setJob_freeCtr (s : State) (i : Nat) (x : Job) : (s.setJob i x).freeCtr = s.freeCtr := rfl
@[simp] theorem State.setJob_out (s : State) (i : Nat) (x : Job) : (s.setJob i x).out = s.out := rfl
@[simp] theorem State.setJob_regs (s : State) (i : Nat) (x : Job) : (s.setJob i x).regs = s.regs := rfl
@[simp] theorem State.setJob_lake (s : State) (i : Nat) (x : Job) : (s.setJob i x).lake = s.lake := rfl
@[simp] theorem State.setJob_host (s : State) (i : Nat) (x : Job) : (s.setJob i x).host = s.host := rfl
@[simp] theorem State.setJob_pal (s : State) (i : Nat) (x : Job) : (s.setJob i x).pal = s.pal := rfl
@[simp] theorem State.setJob_fab (s : State) (i : Nat) (x : Job) : (s.setJob i x).fab = s.fab := rfl
@[simp] theorem State.setJob_ap (s : State) (i : Nat) (x : Job) : (s.setJob i x).ap = s.ap := rfl
@[simp] theorem State.setJob_carm (s : State) (i : Nat) (x : Job) : (s.setJob i x).carm = s.carm := rfl
@[simp] theorem State.setJob_par (s : State) (i : Nat) (x : Job) : (s.setJob i x).par = s.par := rfl
@[simp] theorem State.setJob_sec (s : State) (i : Nat) (x : Job) : (s.setJob i x).sec = s.sec := rfl
@[simp] theorem State.setJob_umb (s : State) (i : Nat) (x : Job) : (s.setJob i x).umb = s.umb := rfl
@[simp] theorem State.setJob_net (s : State) (i : Nat) (x : Job) : (s.setJob i x).net = s.net := rfl
@[simp] theorem State.setJob_woad (s : State) (i : Nat) (x : Job) : (s.setJob i x).woad = s.woad := rfl
@[simp] theorem State.setJob_blend (s : State) (i : Nat) (x : Job) : (s.setJob i x).blend = s.blend := rfl
@[simp] theorem State.setJob_madr (s : State) (i : Nat) (x : Job) : (s.setJob i x).madr = s.madr := rfl
@[simp] theorem State.setJob_saf (s : State) (i : Nat) (x : Job) : (s.setJob i x).saf = s.saf := rfl
@[simp] theorem State.setJob_rel (s : State) (i : Nat) (x : Job) : (s.setJob i x).rel = s.rel := rfl

-- setWork: vat
@[simp] theorem State.setWork_pending (s : State) (i : Nat) (x : WorkRing) : (s.setWork i x).pending = s.pending := rfl
@[simp] theorem State.setWork_freeCtr (s : State) (i : Nat) (x : WorkRing) : (s.setWork i x).freeCtr = s.freeCtr := rfl
@[simp] theorem State.setWork_out (s : State) (i : Nat) (x : WorkRing) : (s.setWork i x).out = s.out := rfl
@[simp] theorem State.setWork_regs (s : State) (i : Nat) (x : WorkRing) : (s.setWork i x).regs = s.regs := rfl
@[simp] theorem State.setWork_lake (s : State) (i : Nat) (x : WorkRing) : (s.setWork i x).lake = s.lake := rfl
@[simp] theorem State.setWork_host (s : State) (i : Nat) (x : WorkRing) : (s.setWork i x).host = s.host := rfl
@[simp] theorem State.setWork_pal (s : State) (i : Nat) (x : WorkRing) : (s.setWork i x).pal = s.pal := rfl
@[simp] theorem State.setWork_fab (s : State) (i : Nat) (x : WorkRing) : (s.setWork i x).fab = s.fab := rfl
@[simp] theorem State.setWork_ap (s : State) (i : Nat) (x : WorkRing) : (s.setWork i x).ap = s.ap := rfl
@[simp] theorem State.setWork_carm (s : State) (i : Nat) (x : WorkRing) : (s.setWork i x).carm = s.carm := rfl
@[simp] theorem State.setWork_par (s : State) (i : Nat) (x : WorkRing) : (s.setWork i x).par = s.par := rfl
@[simp] theorem State.setWork_sec (s : State) (i : Nat) (x : WorkRing) : (s.setWork i x).sec = s.sec := rfl
@[simp] theorem State.setWork_umb (s : State) (i : Nat) (x : WorkRing) : (s.setWork i x).umb = s.umb := rfl
@[simp] theorem State.setWork_net (s : State) (i : Nat) (x : WorkRing) : (s.setWork i x).net = s.net := rfl
@[simp] theorem State.setWork_woad (s : State) (i : Nat) (x : WorkRing) : (s.setWork i x).woad = s.woad := rfl
@[simp] theorem State.setWork_blend (s : State) (i : Nat) (x : WorkRing) : (s.setWork i x).blend = s.blend := rfl
@[simp] theorem State.setWork_madr (s : State) (i : Nat) (x : WorkRing) : (s.setWork i x).madr = s.madr := rfl
@[simp] theorem State.setWork_saf (s : State) (i : Nat) (x : WorkRing) : (s.setWork i x).saf = s.saf := rfl
@[simp] theorem State.setWork_rel (s : State) (i : Nat) (x : WorkRing) : (s.setWork i x).rel = s.rel := rfl

-- setComp: vat
@[simp] theorem State.setComp_pending (s : State) (i : Nat) (x : CompRing) : (s.setComp i x).pending = s.pending := rfl
@[simp] theorem State.setComp_freeCtr (s : State) (i : Nat) (x : CompRing) : (s.setComp i x).freeCtr = s.freeCtr := rfl
@[simp] theorem State.setComp_out (s : State) (i : Nat) (x : CompRing) : (s.setComp i x).out = s.out := rfl
@[simp] theorem State.setComp_regs (s : State) (i : Nat) (x : CompRing) : (s.setComp i x).regs = s.regs := rfl
@[simp] theorem State.setComp_lake (s : State) (i : Nat) (x : CompRing) : (s.setComp i x).lake = s.lake := rfl
@[simp] theorem State.setComp_host (s : State) (i : Nat) (x : CompRing) : (s.setComp i x).host = s.host := rfl
@[simp] theorem State.setComp_pal (s : State) (i : Nat) (x : CompRing) : (s.setComp i x).pal = s.pal := rfl
@[simp] theorem State.setComp_fab (s : State) (i : Nat) (x : CompRing) : (s.setComp i x).fab = s.fab := rfl
@[simp] theorem State.setComp_ap (s : State) (i : Nat) (x : CompRing) : (s.setComp i x).ap = s.ap := rfl
@[simp] theorem State.setComp_carm (s : State) (i : Nat) (x : CompRing) : (s.setComp i x).carm = s.carm := rfl
@[simp] theorem State.setComp_par (s : State) (i : Nat) (x : CompRing) : (s.setComp i x).par = s.par := rfl
@[simp] theorem State.setComp_sec (s : State) (i : Nat) (x : CompRing) : (s.setComp i x).sec = s.sec := rfl
@[simp] theorem State.setComp_umb (s : State) (i : Nat) (x : CompRing) : (s.setComp i x).umb = s.umb := rfl
@[simp] theorem State.setComp_net (s : State) (i : Nat) (x : CompRing) : (s.setComp i x).net = s.net := rfl
@[simp] theorem State.setComp_woad (s : State) (i : Nat) (x : CompRing) : (s.setComp i x).woad = s.woad := rfl
@[simp] theorem State.setComp_blend (s : State) (i : Nat) (x : CompRing) : (s.setComp i x).blend = s.blend := rfl
@[simp] theorem State.setComp_madr (s : State) (i : Nat) (x : CompRing) : (s.setComp i x).madr = s.madr := rfl
@[simp] theorem State.setComp_saf (s : State) (i : Nat) (x : CompRing) : (s.setComp i x).saf = s.saf := rfl
@[simp] theorem State.setComp_rel (s : State) (i : Nat) (x : CompRing) : (s.setComp i x).rel = s.rel := rfl

-- setConn: carm
@[simp] theorem State.setConn_pending (s : State) (i : Nat) (x : Conn) : (s.setConn i x).pending = s.pending := rfl
@[simp] theorem State.setConn_freeCtr (s : State) (i : Nat) (x : Conn) : (s.setConn i x).freeCtr = s.freeCtr := rfl
@[simp] theorem State.setConn_out (s : State) (i : Nat) (x : Conn) : (s.setConn i x).out = s.out := rfl
@[simp] theorem State.setConn_regs (s : State) (i : Nat) (x : Conn) : (s.setConn i x).regs = s.regs := rfl
@[simp] theorem State.setConn_lake (s : State) (i : Nat) (x : Conn) : (s.setConn i x).lake = s.lake := rfl
@[simp] theorem State.setConn_vat (s : State) (i : Nat) (x : Conn) : (s.setConn i x).vat = s.vat := rfl
@[simp] theorem State.setConn_host (s : State) (i : Nat) (x : Conn) : (s.setConn i x).host = s.host := rfl
@[simp] theorem State.setConn_pal (s : State) (i : Nat) (x : Conn) : (s.setConn i x).pal = s.pal := rfl
@[simp] theorem State.setConn_fab (s : State) (i : Nat) (x : Conn) : (s.setConn i x).fab = s.fab := rfl
@[simp] theorem State.setConn_ap (s : State) (i : Nat) (x : Conn) : (s.setConn i x).ap = s.ap := rfl
@[simp] theorem State.setConn_par (s : State) (i : Nat) (x : Conn) : (s.setConn i x).par = s.par := rfl
@[simp] theorem State.setConn_sec (s : State) (i : Nat) (x : Conn) : (s.setConn i x).sec = s.sec := rfl
@[simp] theorem State.setConn_umb (s : State) (i : Nat) (x : Conn) : (s.setConn i x).umb = s.umb := rfl
@[simp] theorem State.setConn_net (s : State) (i : Nat) (x : Conn) : (s.setConn i x).net = s.net := rfl
@[simp] theorem State.setConn_woad (s : State) (i : Nat) (x : Conn) : (s.setConn i x).woad = s.woad := rfl
@[simp] theorem State.setConn_blend (s : State) (i : Nat) (x : Conn) : (s.setConn i x).blend = s.blend := rfl
@[simp] theorem State.setConn_madr (s : State) (i : Nat) (x : Conn) : (s.setConn i x).madr = s.madr := rfl
@[simp] theorem State.setConn_saf (s : State) (i : Nat) (x : Conn) : (s.setConn i x).saf = s.saf := rfl
@[simp] theorem State.setConn_rel (s : State) (i : Nat) (x : Conn) : (s.setConn i x).rel = s.rel := rfl
@[simp] theorem State.conn_setConn (s : State) (i : Nat) (x : Conn) : (s.setConn i x).conn i = some x := mget_mset_same ..

-- setBg: blend
@[simp] theorem State.setBg_pending (s : State) (i : Nat) (x : BGroup) : (s.setBg i x).pending = s.pending := rfl
@[simp] theorem State.setBg_freeCtr (s : State) (i : Nat) (x : BGroup) : (s.setBg i x).freeCtr = s.freeCtr := rfl
@[simp] theorem State.setBg_out (s : State) (i : Nat) (x : BGroup) : (s.setBg i x).out = s.out := rfl
@[simp] theorem State.setBg_regs (s : State) (i : Nat) (x : BGroup) : (s.setBg i x).regs = s.regs := rfl
@[simp] theorem State.setBg_lake (s : State) (i : Nat) (x : BGroup) : (s.setBg i x).lake = s.lake := rfl
@[simp] theorem State.setBg_vat (s : State) (i : Nat) (x : BGroup) : (s.setBg i x).vat = s.vat := rfl
@[simp] theorem State.setBg_host (s : State) (i : Nat) (x : BGroup) : (s.setBg i x).host = s.host := rfl
@[simp] theorem State.setBg_pal (s : State) (i : Nat) (x : BGroup) : (s.setBg i x).pal = s.pal := rfl
@[simp] theorem State.setBg_fab (s : State) (i : Nat) (x : BGroup) : (s.setBg i x).fab = s.fab := rfl
@[simp] theorem State.setBg_ap (s : State) (i : Nat) (x : BGroup) : (s.setBg i x).ap = s.ap := rfl
@[simp] theorem State.setBg_carm (s : State) (i : Nat) (x : BGroup) : (s.setBg i x).carm = s.carm := rfl
@[simp] theorem State.setBg_par (s : State) (i : Nat) (x : BGroup) : (s.setBg i x).par = s.par := rfl
@[simp] theorem State.setBg_sec (s : State) (i : Nat) (x : BGroup) : (s.setBg i x).sec = s.sec := rfl
@[simp] theorem State.setBg_umb (s : State) (i : Nat) (x : BGroup) : (s.setBg i x).umb = s.umb := rfl
@[simp] theorem State.setBg_net (s : State) (i : Nat) (x : BGroup) : (s.setBg i x).net = s.net := rfl
@[simp] theorem State.setBg_woad (s : State) (i : Nat) (x : BGroup) : (s.setBg i x).woad = s.woad := rfl
@[simp] theorem State.setBg_madr (s : State) (i : Nat) (x : BGroup) : (s.setBg i x).madr = s.madr := rfl
@[simp] theorem State.setBg_saf (s : State) (i : Nat) (x : BGroup) : (s.setBg i x).saf = s.saf := rfl
@[simp] theorem State.setBg_rel (s : State) (i : Nat) (x : BGroup) : (s.setBg i x).rel = s.rel := rfl
@[simp] theorem State.bg_setBg (s : State) (i : Nat) (x : BGroup) : (s.setBg i x).bg i = some x := mget_mset_same ..

-- setEth: net
@[simp] theorem State.setEth_pending (s : State) (p : Nat) (x : EthPort) : (s.setEth p x).pending = s.pending := rfl
@[simp] theorem State.setEth_freeCtr (s : State) (p : Nat) (x : EthPort) : (s.setEth p x).freeCtr = s.freeCtr := rfl
@[simp] theorem State.setEth_out (s : State) (p : Nat) (x : EthPort) : (s.setEth p x).out = s.out := rfl
@[simp] theorem State.setEth_regs (s : State) (p : Nat) (x : EthPort) : (s.setEth p x).regs = s.regs := rfl
@[simp] theorem State.setEth_lake (s : State) (p : Nat) (x : EthPort) : (s.setEth p x).lake = s.lake := rfl
@[simp] theorem State.setEth_vat (s : State) (p : Nat) (x : EthPort) : (s.setEth p x).vat = s.vat := rfl
@[simp] theorem State.setEth_host (s : State) (p : Nat) (x : EthPort) : (s.setEth p x).host = s.host := rfl
@[simp] theorem State.setEth_pal (s : State) (p : Nat) (x : EthPort) : (s.setEth p x).pal = s.pal := rfl
@[simp] theorem State.setEth_fab (s : State) (p : Nat) (x : EthPort) : (s.setEth p x).fab = s.fab := rfl
@[simp] theorem State.setEth_ap (s : State) (p : Nat) (x : EthPort) : (s.setEth p x).ap = s.ap := rfl
@[simp] theorem State.setEth_carm (s : State) (p : Nat) (x : EthPort) : (s.setEth p x).carm = s.carm := rfl
@[simp] theorem State.setEth_par (s : State) (p : Nat) (x : EthPort) : (s.setEth p x).par = s.par := rfl
@[simp] theorem State.setEth_sec (s : State) (p : Nat) (x : EthPort) : (s.setEth p x).sec = s.sec := rfl
@[simp] theorem State.setEth_umb (s : State) (p : Nat) (x : EthPort) : (s.setEth p x).umb = s.umb := rfl
@[simp] theorem State.setEth_woad (s : State) (p : Nat) (x : EthPort) : (s.setEth p x).woad = s.woad := rfl
@[simp] theorem State.setEth_blend (s : State) (p : Nat) (x : EthPort) : (s.setEth p x).blend = s.blend := rfl
@[simp] theorem State.setEth_madr (s : State) (p : Nat) (x : EthPort) : (s.setEth p x).madr = s.madr := rfl
@[simp] theorem State.setEth_saf (s : State) (p : Nat) (x : EthPort) : (s.setEth p x).saf = s.saf := rfl
@[simp] theorem State.setEth_rel (s : State) (p : Nat) (x : EthPort) : (s.setEth p x).rel = s.rel := rfl
@[simp] theorem State.eth_setEth (s : State) (p : Nat) (x : EthPort) : (s.setEth p x).eth p = x := mgetD_mset_same ..

-- setCart: net
@[simp] theorem State.setCart_pending (s : State) (e : Nat) (x : Cart) : (s.setCart e x).pending = s.pending := rfl
@[simp] theorem State.setCart_freeCtr (s : State) (e : Nat) (x : Cart) : (s.setCart e x).freeCtr = s.freeCtr := rfl
@[simp] theorem State.setCart_out (s : State) (e : Nat) (x : Cart) : (s.setCart e x).out = s.out := rfl
@[simp] theorem State.setCart_regs (s : State) (e : Nat) (x : Cart) : (s.setCart e x).regs = s.regs := rfl
@[simp] theorem State.setCart_lake (s : State) (e : Nat) (x : Cart) : (s.setCart e x).lake = s.lake := rfl
@[simp] theorem State.setCart_vat (s : State) (e : Nat) (x : Cart) : (s.setCart e x).vat = s.vat := rfl
@[simp] theorem State.setCart_host (s : State) (e : Nat) (x : Cart) : (s.setCart e x).host = s.host := rfl
@[simp] theorem State.setCart_pal (s : State) (e : Nat) (x : Cart) : (s.setCart e x).pal = s.pal := rfl
@[simp] theorem State.setCart_fab (s : State) (e : Nat) (x : Cart) : (s.setCart e x).fab = s.fab := rfl
@[simp] theorem State.setCart_ap (s : State) (e : Nat) (x : Cart) : (s.setCart e x).ap = s.ap := rfl
@[simp] theorem State.setCart_carm (s : State) (e : Nat) (x : Cart) : (s.setCart e x).carm = s.carm := rfl
@[simp] theorem State.setCart_par (s : State) (e : Nat) (x : Cart) : (s.setCart e x).par = s.par := rfl
@[simp] theorem State.setCart_sec (s : State) (e : Nat) (x : Cart) : (s.setCart e x).sec = s.sec := rfl
@[simp] theorem State.setCart_umb (s : State) (e : Nat) (x : Cart) : (s.setCart e x).umb = s.umb := rfl
@[simp] theorem State.setCart_woad (s : State) (e : Nat) (x : Cart) : (s.setCart e x).woad = s.woad := rfl
@[simp] theorem State.setCart_blend (s : State) (e : Nat) (x : Cart) : (s.setCart e x).blend = s.blend := rfl
@[simp] theorem State.setCart_madr (s : State) (e : Nat) (x : Cart) : (s.setCart e x).madr = s.madr := rfl
@[simp] theorem State.setCart_saf (s : State) (e : Nat) (x : Cart) : (s.setCart e x).saf = s.saf := rfl
@[simp] theorem State.setCart_rel (s : State) (e : Nat) (x : Cart) : (s.setCart e x).rel = s.rel := rfl
@[simp] theorem State.cart_setCart (s : State) (e : Nat) (x : Cart) : (s.setCart e x).cart e = x := mgetD_mset_same ..

-- setQueue: net
@[simp] theorem State.setQueue_pending (s : State) (p q : Nat) (x : EQueue) : (s.setQueue p q x).pending = s.pending := rfl
@[simp] theorem State.setQueue_freeCtr (s : State) (p q : Nat) (x : EQueue) : (s.setQueue p q x).freeCtr = s.freeCtr := rfl
@[simp] theorem State.setQueue_out (s : State) (p q : Nat) (x : EQueue) : (s.setQueue p q x).out = s.out := rfl
@[simp] theorem State.setQueue_regs (s : State) (p q : Nat) (x : EQueue) : (s.setQueue p q x).regs = s.regs := rfl
@[simp] theorem State.setQueue_lake (s : State) (p q : Nat) (x : EQueue) : (s.setQueue p q x).lake = s.lake := rfl
@[simp] theorem State.setQueue_vat (s : State) (p q : Nat) (x : EQueue) : (s.setQueue p q x).vat = s.vat := rfl
@[simp] theorem State.setQueue_host (s : State) (p q : Nat) (x : EQueue) : (s.setQueue p q x).host = s.host := rfl
@[simp] theorem State.setQueue_pal (s : State) (p q : Nat) (x : EQueue) : (s.setQueue p q x).pal = s.pal := rfl
@[simp] theorem State.setQueue_fab (s : State) (p q : Nat) (x : EQueue) : (s.setQueue p q x).fab = s.fab := rfl
@[simp] theorem State.setQueue_ap (s : State) (p q : Nat) (x : EQueue) : (s.setQueue p q x).ap = s.ap := rfl
@[simp] theorem State.setQueue_carm (s : State) (p q : Nat) (x : EQueue) : (s.setQueue p q x).carm = s.carm := rfl
@[simp] theorem State.setQueue_par (s : State) (p q : Nat) (x : EQueue) : (s.setQueue p q x).par = s.par := rfl
@[simp] theorem State.setQueue_sec (s : State) (p q : Nat) (x : EQueue) : (s.setQueue p q x).sec = s.sec := rfl
@[simp] theorem State.setQueue_umb (s : State) (p q : Nat) (x : EQueue) : (s.setQueue p q x).umb = s.umb := rfl
@[simp] theorem State.setQueue_woad (s : State) (p q : Nat) (x : EQueue) : (s.setQueue p q x).woad = s.woad := rfl
@[simp] theorem State.setQueue_blend (s : State) (p q : Nat) (x : EQueue) : (s.setQueue p q x).blend = s.blend := rfl
@[simp] theorem State.setQueue_madr (s : State) (p q : Nat) (x : EQueue) : (s.setQueue p q x).madr = s.madr := rfl
@[simp] theorem State.setQueue_saf (s : State) (p q : Nat) (x : EQueue) : (s.setQueue p q x).saf = s.saf := rfl
@[simp] theorem State.setQueue_rel (s : State) (p q : Nat) (x : EQueue) : (s.setQueue p q x).rel = s.rel := rfl
@[simp] theorem State.queue_setQueue (s : State) (p q : Nat) (x : EQueue) : (s.setQueue p q x).queue p q = x := mgetD_mset_same ..

-- setShaper: net
@[simp] theorem State.setShaper_pending (s : State) (i : Nat) (x : Shaper) : (s.setShaper i x).pending = s.pending := rfl
@[simp] theorem State.setShaper_freeCtr (s : State) (i : Nat) (x : Shaper) : (s.setShaper i x).freeCtr = s.freeCtr := rfl
@[simp] theorem State.setShaper_out (s : State) (i : Nat) (x : Shaper) : (s.setShaper i x).out = s.out := rfl
@[simp] theorem State.setShaper_regs (s : State) (i : Nat) (x : Shaper) : (s.setShaper i x).regs = s.regs := rfl
@[simp] theorem State.setShaper_lake (s : State) (i : Nat) (x : Shaper) : (s.setShaper i x).lake = s.lake := rfl
@[simp] theorem State.setShaper_vat (s : State) (i : Nat) (x : Shaper) : (s.setShaper i x).vat = s.vat := rfl
@[simp] theorem State.setShaper_host (s : State) (i : Nat) (x : Shaper) : (s.setShaper i x).host = s.host := rfl
@[simp] theorem State.setShaper_pal (s : State) (i : Nat) (x : Shaper) : (s.setShaper i x).pal = s.pal := rfl
@[simp] theorem State.setShaper_fab (s : State) (i : Nat) (x : Shaper) : (s.setShaper i x).fab = s.fab := rfl
@[simp] theorem State.setShaper_ap (s : State) (i : Nat) (x : Shaper) : (s.setShaper i x).ap = s.ap := rfl
@[simp] theorem State.setShaper_carm (s : State) (i : Nat) (x : Shaper) : (s.setShaper i x).carm = s.carm := rfl
@[simp] theorem State.setShaper_par (s : State) (i : Nat) (x : Shaper) : (s.setShaper i x).par = s.par := rfl
@[simp] theorem State.setShaper_sec (s : State) (i : Nat) (x : Shaper) : (s.setShaper i x).sec = s.sec := rfl
@[simp] theorem State.setShaper_umb (s : State) (i : Nat) (x : Shaper) : (s.setShaper i x).umb = s.umb := rfl
@[simp] theorem State.setShaper_woad (s : State) (i : Nat) (x : Shaper) : (s.setShaper i x).woad = s.woad := rfl
@[simp] theorem State.setShaper_blend (s : State) (i : Nat) (x : Shaper) : (s.setShaper i x).blend = s.blend := rfl
@[simp] theorem State.setShaper_madr (s : State) (i : Nat) (x : Shaper) : (s.setShaper i x).madr = s.madr := rfl
@[simp] theorem State.setShaper_saf (s : State) (i : Nat) (x : Shaper) : (s.setShaper i x).saf = s.saf := rfl
@[simp] theorem State.setShaper_rel (s : State) (i : Nat) (x : Shaper) : (s.setShaper i x).rel = s.rel := rfl
@[simp] theorem State.shaper_setShaper (s : State) (i : Nat) (x : Shaper) : (s.setShaper i x).shaper i = x := mgetD_mset_same ..

-- setWport: net
@[simp] theorem State.setWport_pending (s : State) (p : Nat) (x : WPort) : (s.setWport p x).pending = s.pending := rfl
@[simp] theorem State.setWport_freeCtr (s : State) (p : Nat) (x : WPort) : (s.setWport p x).freeCtr = s.freeCtr := rfl
@[simp] theorem State.setWport_out (s : State) (p : Nat) (x : WPort) : (s.setWport p x).out = s.out := rfl
@[simp] theorem State.setWport_regs (s : State) (p : Nat) (x : WPort) : (s.setWport p x).regs = s.regs := rfl
@[simp] theorem State.setWport_lake (s : State) (p : Nat) (x : WPort) : (s.setWport p x).lake = s.lake := rfl
@[simp] theorem State.setWport_vat (s : State) (p : Nat) (x : WPort) : (s.setWport p x).vat = s.vat := rfl
@[simp] theorem State.setWport_host (s : State) (p : Nat) (x : WPort) : (s.setWport p x).host = s.host := rfl
@[simp] theorem State.setWport_pal (s : State) (p : Nat) (x : WPort) : (s.setWport p x).pal = s.pal := rfl
@[simp] theorem State.setWport_fab (s : State) (p : Nat) (x : WPort) : (s.setWport p x).fab = s.fab := rfl
@[simp] theorem State.setWport_ap (s : State) (p : Nat) (x : WPort) : (s.setWport p x).ap = s.ap := rfl
@[simp] theorem State.setWport_carm (s : State) (p : Nat) (x : WPort) : (s.setWport p x).carm = s.carm := rfl
@[simp] theorem State.setWport_par (s : State) (p : Nat) (x : WPort) : (s.setWport p x).par = s.par := rfl
@[simp] theorem State.setWport_sec (s : State) (p : Nat) (x : WPort) : (s.setWport p x).sec = s.sec := rfl
@[simp] theorem State.setWport_umb (s : State) (p : Nat) (x : WPort) : (s.setWport p x).umb = s.umb := rfl
@[simp] theorem State.setWport_woad (s : State) (p : Nat) (x : WPort) : (s.setWport p x).woad = s.woad := rfl
@[simp] theorem State.setWport_blend (s : State) (p : Nat) (x : WPort) : (s.setWport p x).blend = s.blend := rfl
@[simp] theorem State.setWport_madr (s : State) (p : Nat) (x : WPort) : (s.setWport p x).madr = s.madr := rfl
@[simp] theorem State.setWport_saf (s : State) (p : Nat) (x : WPort) : (s.setWport p x).saf = s.saf := rfl
@[simp] theorem State.setWport_rel (s : State) (p : Nat) (x : WPort) : (s.setWport p x).rel = s.rel := rfl
@[simp] theorem State.wport_setWport (s : State) (p : Nat) (x : WPort) : (s.setWport p x).wport p = x := mgetD_mset_same ..

-- setRule: madr
@[simp] theorem State.setRule_pending (s : State) (i : Nat) (x : Rule) : (s.setRule i x).pending = s.pending := rfl
@[simp] theorem State.setRule_freeCtr (s : State) (i : Nat) (x : Rule) : (s.setRule i x).freeCtr = s.freeCtr := rfl
@[simp] theorem State.setRule_out (s : State) (i : Nat) (x : Rule) : (s.setRule i x).out = s.out := rfl
@[simp] theorem State.setRule_regs (s : State) (i : Nat) (x : Rule) : (s.setRule i x).regs = s.regs := rfl
@[simp] theorem State.setRule_lake (s : State) (i : Nat) (x : Rule) : (s.setRule i x).lake = s.lake := rfl
@[simp] theorem State.setRule_vat (s : State) (i : Nat) (x : Rule) : (s.setRule i x).vat = s.vat := rfl
@[simp] theorem State.setRule_host (s : State) (i : Nat) (x : Rule) : (s.setRule i x).host = s.host := rfl
@[simp] theorem State.setRule_pal (s : State) (i : Nat) (x : Rule) : (s.setRule i x).pal = s.pal := rfl
@[simp] theorem State.setRule_fab (s : State) (i : Nat) (x : Rule) : (s.setRule i x).fab = s.fab := rfl
@[simp] theorem State.setRule_ap (s : State) (i : Nat) (x : Rule) : (s.setRule i x).ap = s.ap := rfl
@[simp] theorem State.setRule_carm (s : State) (i : Nat) (x : Rule) : (s.setRule i x).carm = s.carm := rfl
@[simp] theorem State.setRule_par (s : State) (i : Nat) (x : Rule) : (s.setRule i x).par = s.par := rfl
@[simp] theorem State.setRule_sec (s : State) (i : Nat) (x : Rule) : (s.setRule i x).sec = s.sec := rfl
@[simp] theorem State.setRule_umb (s : State) (i : Nat) (x : Rule) : (s.setRule i x).umb = s.umb := rfl
@[simp] theorem State.setRule_net (s : State) (i : Nat) (x : Rule) : (s.setRule i x).net = s.net := rfl
@[simp] theorem State.setRule_woad (s : State) (i : Nat) (x : Rule) : (s.setRule i x).woad = s.woad := rfl
@[simp] theorem State.setRule_blend (s : State) (i : Nat) (x : Rule) : (s.setRule i x).blend = s.blend := rfl
@[simp] theorem State.setRule_saf (s : State) (i : Nat) (x : Rule) : (s.setRule i x).saf = s.saf := rfl
@[simp] theorem State.setRule_rel (s : State) (i : Nat) (x : Rule) : (s.setRule i x).rel = s.rel := rfl

-- setPg: par
@[simp] theorem State.setPg_pending (s : State) (n : Nat) (x : PGroup) : (s.setPg n x).pending = s.pending := rfl
@[simp] theorem State.setPg_freeCtr (s : State) (n : Nat) (x : PGroup) : (s.setPg n x).freeCtr = s.freeCtr := rfl
@[simp] theorem State.setPg_out (s : State) (n : Nat) (x : PGroup) : (s.setPg n x).out = s.out := rfl
@[simp] theorem State.setPg_regs (s : State) (n : Nat) (x : PGroup) : (s.setPg n x).regs = s.regs := rfl
@[simp] theorem State.setPg_lake (s : State) (n : Nat) (x : PGroup) : (s.setPg n x).lake = s.lake := rfl
@[simp] theorem State.setPg_vat (s : State) (n : Nat) (x : PGroup) : (s.setPg n x).vat = s.vat := rfl
@[simp] theorem State.setPg_host (s : State) (n : Nat) (x : PGroup) : (s.setPg n x).host = s.host := rfl
@[simp] theorem State.setPg_pal (s : State) (n : Nat) (x : PGroup) : (s.setPg n x).pal = s.pal := rfl
@[simp] theorem State.setPg_fab (s : State) (n : Nat) (x : PGroup) : (s.setPg n x).fab = s.fab := rfl
@[simp] theorem State.setPg_ap (s : State) (n : Nat) (x : PGroup) : (s.setPg n x).ap = s.ap := rfl
@[simp] theorem State.setPg_carm (s : State) (n : Nat) (x : PGroup) : (s.setPg n x).carm = s.carm := rfl
@[simp] theorem State.setPg_sec (s : State) (n : Nat) (x : PGroup) : (s.setPg n x).sec = s.sec := rfl
@[simp] theorem State.setPg_umb (s : State) (n : Nat) (x : PGroup) : (s.setPg n x).umb = s.umb := rfl
@[simp] theorem State.setPg_net (s : State) (n : Nat) (x : PGroup) : (s.setPg n x).net = s.net := rfl
@[simp] theorem State.setPg_woad (s : State) (n : Nat) (x : PGroup) : (s.setPg n x).woad = s.woad := rfl
@[simp] theorem State.setPg_blend (s : State) (n : Nat) (x : PGroup) : (s.setPg n x).blend = s.blend := rfl
@[simp] theorem State.setPg_madr (s : State) (n : Nat) (x : PGroup) : (s.setPg n x).madr = s.madr := rfl
@[simp] theorem State.setPg_saf (s : State) (n : Nat) (x : PGroup) : (s.setPg n x).saf = s.saf := rfl
@[simp] theorem State.setPg_rel (s : State) (n : Nat) (x : PGroup) : (s.setPg n x).rel = s.rel := rfl
@[simp] theorem State.pgroup_setPg (s : State) (n : Nat) (x : PGroup) : (s.setPg n x).pgroup n = some x := mget_mset_same ..

-- setSq: saf
@[simp] theorem State.setSq_pending (s : State) (q : Nat) (x : SQueue) : (s.setSq q x).pending = s.pending := rfl
@[simp] theorem State.setSq_freeCtr (s : State) (q : Nat) (x : SQueue) : (s.setSq q x).freeCtr = s.freeCtr := rfl
@[simp] theorem State.setSq_out (s : State) (q : Nat) (x : SQueue) : (s.setSq q x).out = s.out := rfl
@[simp] theorem State.setSq_regs (s : State) (q : Nat) (x : SQueue) : (s.setSq q x).regs = s.regs := rfl
@[simp] theorem State.setSq_lake (s : State) (q : Nat) (x : SQueue) : (s.setSq q x).lake = s.lake := rfl
@[simp] theorem State.setSq_vat (s : State) (q : Nat) (x : SQueue) : (s.setSq q x).vat = s.vat := rfl
@[simp] theorem State.setSq_host (s : State) (q : Nat) (x : SQueue) : (s.setSq q x).host = s.host := rfl
@[simp] theorem State.setSq_pal (s : State) (q : Nat) (x : SQueue) : (s.setSq q x).pal = s.pal := rfl
@[simp] theorem State.setSq_fab (s : State) (q : Nat) (x : SQueue) : (s.setSq q x).fab = s.fab := rfl
@[simp] theorem State.setSq_ap (s : State) (q : Nat) (x : SQueue) : (s.setSq q x).ap = s.ap := rfl
@[simp] theorem State.setSq_carm (s : State) (q : Nat) (x : SQueue) : (s.setSq q x).carm = s.carm := rfl
@[simp] theorem State.setSq_par (s : State) (q : Nat) (x : SQueue) : (s.setSq q x).par = s.par := rfl
@[simp] theorem State.setSq_sec (s : State) (q : Nat) (x : SQueue) : (s.setSq q x).sec = s.sec := rfl
@[simp] theorem State.setSq_umb (s : State) (q : Nat) (x : SQueue) : (s.setSq q x).umb = s.umb := rfl
@[simp] theorem State.setSq_net (s : State) (q : Nat) (x : SQueue) : (s.setSq q x).net = s.net := rfl
@[simp] theorem State.setSq_woad (s : State) (q : Nat) (x : SQueue) : (s.setSq q x).woad = s.woad := rfl
@[simp] theorem State.setSq_blend (s : State) (q : Nat) (x : SQueue) : (s.setSq q x).blend = s.blend := rfl
@[simp] theorem State.setSq_madr (s : State) (q : Nat) (x : SQueue) : (s.setSq q x).madr = s.madr := rfl
@[simp] theorem State.setSq_rel (s : State) (q : Nat) (x : SQueue) : (s.setSq q x).rel = s.rel := rfl

-- setNs: saf
@[simp] theorem State.setNs_pending (s : State) (n : Nat) (x : Ns) : (s.setNs n x).pending = s.pending := rfl
@[simp] theorem State.setNs_freeCtr (s : State) (n : Nat) (x : Ns) : (s.setNs n x).freeCtr = s.freeCtr := rfl
@[simp] theorem State.setNs_out (s : State) (n : Nat) (x : Ns) : (s.setNs n x).out = s.out := rfl
@[simp] theorem State.setNs_regs (s : State) (n : Nat) (x : Ns) : (s.setNs n x).regs = s.regs := rfl
@[simp] theorem State.setNs_lake (s : State) (n : Nat) (x : Ns) : (s.setNs n x).lake = s.lake := rfl
@[simp] theorem State.setNs_vat (s : State) (n : Nat) (x : Ns) : (s.setNs n x).vat = s.vat := rfl
@[simp] theorem State.setNs_host (s : State) (n : Nat) (x : Ns) : (s.setNs n x).host = s.host := rfl
@[simp] theorem State.setNs_pal (s : State) (n : Nat) (x : Ns) : (s.setNs n x).pal = s.pal := rfl
@[simp] theorem State.setNs_fab (s : State) (n : Nat) (x : Ns) : (s.setNs n x).fab = s.fab := rfl
@[simp] theorem State.setNs_ap (s : State) (n : Nat) (x : Ns) : (s.setNs n x).ap = s.ap := rfl
@[simp] theorem State.setNs_carm (s : State) (n : Nat) (x : Ns) : (s.setNs n x).carm = s.carm := rfl
@[simp] theorem State.setNs_par (s : State) (n : Nat) (x : Ns) : (s.setNs n x).par = s.par := rfl
@[simp] theorem State.setNs_sec (s : State) (n : Nat) (x : Ns) : (s.setNs n x).sec = s.sec := rfl
@[simp] theorem State.setNs_umb (s : State) (n : Nat) (x : Ns) : (s.setNs n x).umb = s.umb := rfl
@[simp] theorem State.setNs_net (s : State) (n : Nat) (x : Ns) : (s.setNs n x).net = s.net := rfl
@[simp] theorem State.setNs_woad (s : State) (n : Nat) (x : Ns) : (s.setNs n x).woad = s.woad := rfl
@[simp] theorem State.setNs_blend (s : State) (n : Nat) (x : Ns) : (s.setNs n x).blend = s.blend := rfl
@[simp] theorem State.setNs_madr (s : State) (n : Nat) (x : Ns) : (s.setNs n x).madr = s.madr := rfl
@[simp] theorem State.setNs_rel (s : State) (n : Nat) (x : Ns) : (s.setNs n x).rel = s.rel := rfl
@[simp] theorem State.ns_setNs (s : State) (n : Nat) (x : Ns) : (s.setNs n x).ns n = some x := mget_mset_same ..

-- setPages: saf
@[simp] theorem State.setPages_pending (s : State) (m : Map BufPage) : (s.setPages m).pending = s.pending := rfl
@[simp] theorem State.setPages_freeCtr (s : State) (m : Map BufPage) : (s.setPages m).freeCtr = s.freeCtr := rfl
@[simp] theorem State.setPages_out (s : State) (m : Map BufPage) : (s.setPages m).out = s.out := rfl
@[simp] theorem State.setPages_regs (s : State) (m : Map BufPage) : (s.setPages m).regs = s.regs := rfl
@[simp] theorem State.setPages_lake (s : State) (m : Map BufPage) : (s.setPages m).lake = s.lake := rfl
@[simp] theorem State.setPages_vat (s : State) (m : Map BufPage) : (s.setPages m).vat = s.vat := rfl
@[simp] theorem State.setPages_host (s : State) (m : Map BufPage) : (s.setPages m).host = s.host := rfl
@[simp] theorem State.setPages_pal (s : State) (m : Map BufPage) : (s.setPages m).pal = s.pal := rfl
@[simp] theorem State.setPages_fab (s : State) (m : Map BufPage) : (s.setPages m).fab = s.fab := rfl
@[simp] theorem State.setPages_ap (s : State) (m : Map BufPage) : (s.setPages m).ap = s.ap := rfl
@[simp] theorem State.setPages_carm (s : State) (m : Map BufPage) : (s.setPages m).carm = s.carm := rfl
@[simp] theorem State.setPages_par (s : State) (m : Map BufPage) : (s.setPages m).par = s.par := rfl
@[simp] theorem State.setPages_sec (s : State) (m : Map BufPage) : (s.setPages m).sec = s.sec := rfl
@[simp] theorem State.setPages_umb (s : State) (m : Map BufPage) : (s.setPages m).umb = s.umb := rfl
@[simp] theorem State.setPages_net (s : State) (m : Map BufPage) : (s.setPages m).net = s.net := rfl
@[simp] theorem State.setPages_woad (s : State) (m : Map BufPage) : (s.setPages m).woad = s.woad := rfl
@[simp] theorem State.setPages_blend (s : State) (m : Map BufPage) : (s.setPages m).blend = s.blend := rfl
@[simp] theorem State.setPages_madr (s : State) (m : Map BufPage) : (s.setPages m).madr = s.madr := rfl
@[simp] theorem State.setPages_rel (s : State) (m : Map BufPage) : (s.setPages m).rel = s.rel := rfl

-- setSess: saf
@[simp] theorem State.setSess_pending (s : State) (k : Nat) (x : Sess) : (s.setSess k x).pending = s.pending := rfl
@[simp] theorem State.setSess_freeCtr (s : State) (k : Nat) (x : Sess) : (s.setSess k x).freeCtr = s.freeCtr := rfl
@[simp] theorem State.setSess_out (s : State) (k : Nat) (x : Sess) : (s.setSess k x).out = s.out := rfl
@[simp] theorem State.setSess_regs (s : State) (k : Nat) (x : Sess) : (s.setSess k x).regs = s.regs := rfl
@[simp] theorem State.setSess_lake (s : State) (k : Nat) (x : Sess) : (s.setSess k x).lake = s.lake := rfl
@[simp] theorem State.setSess_vat (s : State) (k : Nat) (x : Sess) : (s.setSess k x).vat = s.vat := rfl
@[simp] theorem State.setSess_host (s : State) (k : Nat) (x : Sess) : (s.setSess k x).host = s.host := rfl
@[simp] theorem State.setSess_pal (s : State) (k : Nat) (x : Sess) : (s.setSess k x).pal = s.pal := rfl
@[simp] theorem State.setSess_fab (s : State) (k : Nat) (x : Sess) : (s.setSess k x).fab = s.fab := rfl
@[simp] theorem State.setSess_ap (s : State) (k : Nat) (x : Sess) : (s.setSess k x).ap = s.ap := rfl
@[simp] theorem State.setSess_carm (s : State) (k : Nat) (x : Sess) : (s.setSess k x).carm = s.carm := rfl
@[simp] theorem State.setSess_par (s : State) (k : Nat) (x : Sess) : (s.setSess k x).par = s.par := rfl
@[simp] theorem State.setSess_sec (s : State) (k : Nat) (x : Sess) : (s.setSess k x).sec = s.sec := rfl
@[simp] theorem State.setSess_umb (s : State) (k : Nat) (x : Sess) : (s.setSess k x).umb = s.umb := rfl
@[simp] theorem State.setSess_net (s : State) (k : Nat) (x : Sess) : (s.setSess k x).net = s.net := rfl
@[simp] theorem State.setSess_woad (s : State) (k : Nat) (x : Sess) : (s.setSess k x).woad = s.woad := rfl
@[simp] theorem State.setSess_blend (s : State) (k : Nat) (x : Sess) : (s.setSess k x).blend = s.blend := rfl
@[simp] theorem State.setSess_madr (s : State) (k : Nat) (x : Sess) : (s.setSess k x).madr = s.madr := rfl
@[simp] theorem State.setSess_rel (s : State) (k : Nat) (x : Sess) : (s.setSess k x).rel = s.rel := rfl
@[simp] theorem State.sess_setSess (s : State) (k : Nat) (x : Sess) : (s.setSess k x).sess k = some x := mget_mset_same ..

-- setColl: rel
@[simp] theorem State.setColl_pending (s : State) (i : Nat) (x : Collector) : (s.setColl i x).pending = s.pending := rfl
@[simp] theorem State.setColl_freeCtr (s : State) (i : Nat) (x : Collector) : (s.setColl i x).freeCtr = s.freeCtr := rfl
@[simp] theorem State.setColl_out (s : State) (i : Nat) (x : Collector) : (s.setColl i x).out = s.out := rfl
@[simp] theorem State.setColl_regs (s : State) (i : Nat) (x : Collector) : (s.setColl i x).regs = s.regs := rfl
@[simp] theorem State.setColl_lake (s : State) (i : Nat) (x : Collector) : (s.setColl i x).lake = s.lake := rfl
@[simp] theorem State.setColl_vat (s : State) (i : Nat) (x : Collector) : (s.setColl i x).vat = s.vat := rfl
@[simp] theorem State.setColl_host (s : State) (i : Nat) (x : Collector) : (s.setColl i x).host = s.host := rfl
@[simp] theorem State.setColl_pal (s : State) (i : Nat) (x : Collector) : (s.setColl i x).pal = s.pal := rfl
@[simp] theorem State.setColl_fab (s : State) (i : Nat) (x : Collector) : (s.setColl i x).fab = s.fab := rfl
@[simp] theorem State.setColl_ap (s : State) (i : Nat) (x : Collector) : (s.setColl i x).ap = s.ap := rfl
@[simp] theorem State.setColl_carm (s : State) (i : Nat) (x : Collector) : (s.setColl i x).carm = s.carm := rfl
@[simp] theorem State.setColl_par (s : State) (i : Nat) (x : Collector) : (s.setColl i x).par = s.par := rfl
@[simp] theorem State.setColl_sec (s : State) (i : Nat) (x : Collector) : (s.setColl i x).sec = s.sec := rfl
@[simp] theorem State.setColl_umb (s : State) (i : Nat) (x : Collector) : (s.setColl i x).umb = s.umb := rfl
@[simp] theorem State.setColl_net (s : State) (i : Nat) (x : Collector) : (s.setColl i x).net = s.net := rfl
@[simp] theorem State.setColl_woad (s : State) (i : Nat) (x : Collector) : (s.setColl i x).woad = s.woad := rfl
@[simp] theorem State.setColl_blend (s : State) (i : Nat) (x : Collector) : (s.setColl i x).blend = s.blend := rfl
@[simp] theorem State.setColl_madr (s : State) (i : Nat) (x : Collector) : (s.setColl i x).madr = s.madr := rfl
@[simp] theorem State.setColl_saf (s : State) (i : Nat) (x : Collector) : (s.setColl i x).saf = s.saf := rfl
@[simp] theorem State.coll_setColl (s : State) (i : Nat) (x : Collector) : (s.setColl i x).coll i = x := mgetD_mset_same ..

-- setWq: woad
@[simp] theorem State.setWq_pending (s : State) (q : Nat) (x : WQueue) : (s.setWq q x).pending = s.pending := rfl
@[simp] theorem State.setWq_freeCtr (s : State) (q : Nat) (x : WQueue) : (s.setWq q x).freeCtr = s.freeCtr := rfl
@[simp] theorem State.setWq_out (s : State) (q : Nat) (x : WQueue) : (s.setWq q x).out = s.out := rfl
@[simp] theorem State.setWq_regs (s : State) (q : Nat) (x : WQueue) : (s.setWq q x).regs = s.regs := rfl
@[simp] theorem State.setWq_lake (s : State) (q : Nat) (x : WQueue) : (s.setWq q x).lake = s.lake := rfl
@[simp] theorem State.setWq_vat (s : State) (q : Nat) (x : WQueue) : (s.setWq q x).vat = s.vat := rfl
@[simp] theorem State.setWq_host (s : State) (q : Nat) (x : WQueue) : (s.setWq q x).host = s.host := rfl
@[simp] theorem State.setWq_pal (s : State) (q : Nat) (x : WQueue) : (s.setWq q x).pal = s.pal := rfl
@[simp] theorem State.setWq_fab (s : State) (q : Nat) (x : WQueue) : (s.setWq q x).fab = s.fab := rfl
@[simp] theorem State.setWq_ap (s : State) (q : Nat) (x : WQueue) : (s.setWq q x).ap = s.ap := rfl
@[simp] theorem State.setWq_carm (s : State) (q : Nat) (x : WQueue) : (s.setWq q x).carm = s.carm := rfl
@[simp] theorem State.setWq_par (s : State) (q : Nat) (x : WQueue) : (s.setWq q x).par = s.par := rfl
@[simp] theorem State.setWq_sec (s : State) (q : Nat) (x : WQueue) : (s.setWq q x).sec = s.sec := rfl
@[simp] theorem State.setWq_umb (s : State) (q : Nat) (x : WQueue) : (s.setWq q x).umb = s.umb := rfl
@[simp] theorem State.setWq_net (s : State) (q : Nat) (x : WQueue) : (s.setWq q x).net = s.net := rfl
@[simp] theorem State.setWq_blend (s : State) (q : Nat) (x : WQueue) : (s.setWq q x).blend = s.blend := rfl
@[simp] theorem State.setWq_madr (s : State) (q : Nat) (x : WQueue) : (s.setWq q x).madr = s.madr := rfl
@[simp] theorem State.setWq_saf (s : State) (q : Nat) (x : WQueue) : (s.setWq q x).saf = s.saf := rfl
@[simp] theorem State.setWq_rel (s : State) (q : Nat) (x : WQueue) : (s.setWq q x).rel = s.rel := rfl
@[simp] theorem State.wq_setWq (s : State) (q : Nat) (x : WQueue) : (s.setWq q x).wq q = some x := mget_mset_same ..

-- count: regs
@[simp] theorem State.count_pending (s : State) (off n width : Nat) : (s.count off n width).pending = s.pending := rfl
@[simp] theorem State.count_freeCtr (s : State) (off n width : Nat) : (s.count off n width).freeCtr = s.freeCtr := rfl
@[simp] theorem State.count_out (s : State) (off n width : Nat) : (s.count off n width).out = s.out := rfl
@[simp] theorem State.count_lake (s : State) (off n width : Nat) : (s.count off n width).lake = s.lake := rfl
@[simp] theorem State.count_vat (s : State) (off n width : Nat) : (s.count off n width).vat = s.vat := rfl
@[simp] theorem State.count_host (s : State) (off n width : Nat) : (s.count off n width).host = s.host := rfl
@[simp] theorem State.count_pal (s : State) (off n width : Nat) : (s.count off n width).pal = s.pal := rfl
@[simp] theorem State.count_fab (s : State) (off n width : Nat) : (s.count off n width).fab = s.fab := rfl
@[simp] theorem State.count_ap (s : State) (off n width : Nat) : (s.count off n width).ap = s.ap := rfl
@[simp] theorem State.count_carm (s : State) (off n width : Nat) : (s.count off n width).carm = s.carm := rfl
@[simp] theorem State.count_par (s : State) (off n width : Nat) : (s.count off n width).par = s.par := rfl
@[simp] theorem State.count_sec (s : State) (off n width : Nat) : (s.count off n width).sec = s.sec := rfl
@[simp] theorem State.count_umb (s : State) (off n width : Nat) : (s.count off n width).umb = s.umb := rfl
@[simp] theorem State.count_net (s : State) (off n width : Nat) : (s.count off n width).net = s.net := rfl
@[simp] theorem State.count_woad (s : State) (off n width : Nat) : (s.count off n width).woad = s.woad := rfl
@[simp] theorem State.count_blend (s : State) (off n width : Nat) : (s.count off n width).blend = s.blend := rfl
@[simp] theorem State.count_madr (s : State) (off n width : Nat) : (s.count off n width).madr = s.madr := rfl
@[simp] theorem State.count_saf (s : State) (off n width : Nat) : (s.count off n width).saf = s.saf := rfl
@[simp] theorem State.count_rel (s : State) (off n width : Nat) : (s.count off n width).rel = s.rel := rfl
@[simp] theorem State.reg_count (s : State) (off n width : Nat) : (s.count off n width).reg off = min (2 ^ width - 1) (mgetD s.regs off 0 + n) := mgetD_mset_same ..

-- choose: freeCtr
@[simp] theorem State.choose_pending (s : State) (n : Nat) : (s.choose n).2.pending = s.pending := rfl
@[simp] theorem State.choose_out (s : State) (n : Nat) : (s.choose n).2.out = s.out := rfl
@[simp] theorem State.choose_regs (s : State) (n : Nat) : (s.choose n).2.regs = s.regs := rfl
@[simp] theorem State.choose_lake (s : State) (n : Nat) : (s.choose n).2.lake = s.lake := rfl
@[simp] theorem State.choose_vat (s : State) (n : Nat) : (s.choose n).2.vat = s.vat := rfl
@[simp] theorem State.choose_host (s : State) (n : Nat) : (s.choose n).2.host = s.host := rfl
@[simp] theorem State.choose_pal (s : State) (n : Nat) : (s.choose n).2.pal = s.pal := rfl
@[simp] theorem State.choose_fab (s : State) (n : Nat) : (s.choose n).2.fab = s.fab := rfl
@[simp] theorem State.choose_ap (s : State) (n : Nat) : (s.choose n).2.ap = s.ap := rfl
@[simp] theorem State.choose_carm (s : State) (n : Nat) : (s.choose n).2.carm = s.carm := rfl
@[simp] theorem State.choose_par (s : State) (n : Nat) : (s.choose n).2.par = s.par := rfl
@[simp] theorem State.choose_sec (s : State) (n : Nat) : (s.choose n).2.sec = s.sec := rfl
@[simp] theorem State.choose_umb (s : State) (n : Nat) : (s.choose n).2.umb = s.umb := rfl
@[simp] theorem State.choose_net (s : State) (n : Nat) : (s.choose n).2.net = s.net := rfl
@[simp] theorem State.choose_woad (s : State) (n : Nat) : (s.choose n).2.woad = s.woad := rfl
@[simp] theorem State.choose_blend (s : State) (n : Nat) : (s.choose n).2.blend = s.blend := rfl
@[simp] theorem State.choose_madr (s : State) (n : Nat) : (s.choose n).2.madr = s.madr := rfl
@[simp] theorem State.choose_saf (s : State) (n : Nat) : (s.choose n).2.saf = s.saf := rfl
@[simp] theorem State.choose_rel (s : State) (n : Nat) : (s.choose n).2.rel = s.rel := rfl

end Sys2Proof.Machine
end

