-- ==== Sys2Proof/WellFormed.lean ====
section
/-! DEFINITION. Well-formed commands: the operands that name a part of the device name one that it has, and what arrives from outside
has its length. A meaning is total all the same; a command whose operand names nothing finds no cause. -/

namespace Sys2Proof

open Sys2Proof.Machine

/-- 512 cores, numbered by R137. -/
def coreOk (i : Nat) : Bool := decide (i < 512)
/-- 64 clusters (R12). -/
def clusterOk (c : Nat) : Bool := decide (c < 64)
/-- 16 regions (R12). -/
def regionOk (r : Nat) : Bool := decide (r < 16)
/-- 8 Palette cores (R443). -/
def palCoreOk (n : Nat) : Bool := decide (n < 8)
/-- 64 Ethernet ports (R318). -/
def ethPortOk (p : Nat) : Bool := decide (p < 64)
/-- 8 accelerator ports (R293). -/
def apOk (p : Nat) : Bool := decide (p < 8)
/-- 2 host ports (R378). -/
def hostPortOk (p : Nat) : Bool := decide (p < 2)
/-- 66 lanes of an accelerator port (R293). -/
def laneOk (l : Nat) : Bool := decide (l < 66)
/-- 16 optical engines, each with 12 emitters (R318). -/
def engineOk (e : Nat) : Bool := decide (e < 16)
def emitterOk (i : Nat) : Bool := decide (i < 12)
/-- 32 stacks of 14 dies (R74). -/
def stackOk (k : Nat) : Bool := decide (k < 32)
def dieOk (d : Nat) : Bool := decide (d < 14)
/-- Function numbers have 12 bits (R378). -/
def fnOk (f : Nat) : Bool := decide (f < 4096)
/-- Vectors of a physical function's table (R384). -/
def vecOk : Option Nat → Bool
  | none => true
  | some v => decide (v < 2048)
/-- 128 pairs of the MBOX block, 32 secure pairs, the pairs of the function pages (R445). -/
def pairOk : MboxId → Bool
  | .block k => decide (k < 128)
  | .page f => decide (f < 4096) && decide (f % 2048 ≠ 0)
  | .sec k => decide (k < 32)
/-- 256 locks (R450). -/
def lockOk (n : Nat) : Bool := decide (n < 256)
/-- 16,384 shapers (R360, R373). -/
def shaperOk (i : Nat) : Bool := decide (i < 16384)
/-- 4 collectors (R515). -/
def slotOk (i : Nat) : Bool := decide (i < 4)
/-- 16 congestion profiles (R290). -/
def profOk (i : Nat) : Bool := decide (i < 16)
/-- Command identifiers of NVMe have 16 bits. -/
def cidOk (c : Nat) : Bool := decide (c < 65536)
/-- A flit is 256 bytes (R297). -/
def flitOk (bs : List Byte) : Bool := decide (bs.length = 256)
/-- A frame carries at least its two addresses and a type. -/
def frameOk (bs : List Byte) : Bool := decide (14 ≤ bs.length)

/-- Well-formed commands. -/
def Instr.wf : Instr → Bool
  | .unitFault unit _ | .handshakeStallTimeout unit => unitValid unit
  | .clusterReset ⟨cluster, _⟩ | .clusterResetDone cluster | .clusterPowerUp cluster | .clusterGate cluster
  | .worldChange cluster _ | .reclaimGraceEnd cluster | .engineAccept cluster _ | .residueMismatch ⟨cluster, _⟩
  | .arrayPatternTestDone cluster _ _ | .idleClusterTest cluster | .seedWrite cluster _ _ => clusterOk cluster
  | .regionReset region _ _ | .regionResetDone region | .regionResetTimeout region _
  | .regionRetireDone region | .regionStartTimeout region _ _ => regionOk region
  | .marginCheck region _ _ _ => decide (region < 18)
  | .scrubRead .. | .pageZeroingDone | .chDestroyDone .. | .descriptorFetch .. | .descriptorReadError ..
  | .descriptorStart .. | .countWaitSatisfied .. | .nop .. | .ctrAdd .. | .ctrSet .. | .codec .. | .codecJobDone ..
  | .modTimeExpiry .. | .triggerEntryRun .. | .matmul .. | .gfMatmul .. | .indigoJobDone .. | .dispatch ..
  | .dispatchHoldEnd .. | .dispatchDone .. | .returnRows .. | .returnDone .. | .combine .. | .combineStart ..
  | .combineTimeout .. | .allreduce .. | .reduceScatter .. | .allgather .. | .collectiveHoldEnd ..
  | .collectiveTimeout .. | .optStep .. | .wpush .. | .parEpoch .. | .epochCommit .. | .pgJoinDone ..
  | .pgJoinTimeout .. | .pgRebuildDone .. | .connectTimer .. | .connectingTimeout .. | .connect | .connectAck
  | .close | .probe | .probeAck | .keepaliveTimer .. | .write .. | .writeInc .. | .writeTrig .. | .read .. | .send ..
  | .fetchAdd .. | .cmpSwap .. | .recv .. | .packetSend .. | .dataPacket .. | .ackPacket | .nackPacket | .readReq
  | .readResp | .atomicReq | .atomicResp | .ackTimer .. | .rtoExpiry .. | .noprogExpiry ..
  | .contextMissBackoffEnd .. | .parkTimeout | .contextArrived .. | .flowLookupResult | .flowLookupTimeout
  | .ruleWrite | .ruleInvalidate | .ruleRead | .ruleCmdDone | .flowTableSwitch | .queueSample | .sqFetch ..
  | .destageAck | .vaultArmChange .. | .vaultSaveDone | .nsReadyTimeout .. | .sessionReconnectTimer .. | .icResp ..
  | .capsuleResp .. | .c2hData .. | .readyToTransfer .. | .c2hTermReq .. | .paletteComplexReset | .activationDone
  | .deferredActivationStart | .logCopyInterrupt | .aesEnc .. | .aesDec .. | .sha256 .. | .entropy ..
  | .cipherJobDone .. | .entropyHealthRetest .. | .lidBreak | .meshFault | .supplyGlitch | .tamperTemp
  | .jtagDebugRequest | .troubleCheck | .umberMismatch | .swatchPeriodic .. | .swatchTestDone .. | .swatCtrlGo ..
  | .rmapJournalWrite .. | .rmapRetry .. | .sampledRecordFlush | .fundamentalReset .. | .mapRebuildDone ..
  | .mgmtBusRead .. | .mgmtNodeWrite .. | .mgmtSizeWrite .. | .systemSizeApply | .mgmtWarmWrite ..
  | .mgmtStartWrite .. | .mainInputLost | .standbyLost | .junctionOvertemp | .junctionShutdownTemp | .flowLow
  | .flowCritical | .inletHigh | .inletCritical | .vinOutOfRange | .vinOvervolt | .powerCap | .emergencyClear
  | .factoryJtagSequence .. | .continuousHealthTestFailure | .umberRestartEnd | .tcpSegmentArrival ..
  | .tcpRetransmissionTimeout .. | .firmwareCwndUpdate .. => true
  | .refreshRound stack die | .dieRetirement stack die | .retentionMeasure stack die _ _ => stackOk stack && dieOk die
  | .pageMigrated stack => stackOk stack
  | .chCreateWorkRing pair _ | .chCreateCompletionRing pair _ | .chCreateConnection pair _
  | .chCreateStorageQueue pair _ | .chCreateDispatchQueue pair _ | .chCreateReductionGroup pair _
  | .chCreateOptimizerProgram pair _ | .chCreateMemoryRegion pair _ | .chCreateKeySlot pair _ _
  | .chCreateCounterSet pair _ | .chCreateTriggerList pair _ | .chModifyCompletionRing pair _
  | .chModifyMemoryRegion pair _ | .chModifyDispatchQueue pair _ | .chModifyReductionGroup pair _
  | .chModifyOptimizerProgram pair _ | .chModifyConnection pair _ | .chModifyStorageQueue pair _
  | .chModifyFixedClass pair _ | .chDestroy pair _ | .clAssign pair _ | .clRun pair _ | .clStop pair _
  | .pgJoin pair _ | .pgLeave pair _ _ | .pgRebuild pair _ | .carmSpill pair _ | .carmNodeLost pair _
  | .apAssign pair _ | .apRetrain pair _ | .apEnable pair _ | .cartRead pair _ | .cartRelease pair _
  | .flowTable pair _ | .flowAdd pair _ | .flowDel pair _ | .fnQuota pair _ | .fnShare pair _ | .safNsCreate pair _
  | .safNsAttach pair _ | .safNsDetach pair _ | .safNsDelete pair _ | .safCtrlReset pair _ | .mailboxWrite pair _ _
  | .mailboxRead pair _ | .replyPost pair | .crossedWait pair | .fwHello pair | .cmdWindow pair | .fwLoad pair _ _
  | .fwActivate pair _ | .spBind pair _ | .spSend pair _ _ | .logBind pair _ | .traceSet pair _ | .lcQuery pair
  | .lcNonce pair _ | .lcTransit pair _ _ | .svnCommit pair | .attQuote pair _ | .attCerts pair _ | .swatRun pair _
  | .unitRetire pair _ | .troubleClear pair _ | .relPolicy pair _ | .rmapRead pair _ | .relShutdown pair _
  | .sienExport pair _ | .sienSample pair _ => pairOk pair
  | .workDoorbell fn _ _ _ | .completionDoorbell fn _ _ _ | .flrInitiate fn | .flrDone fn | .bmeClear fn | .bmeSet fn
  | .d3hotEntry fn | .d0Return fn | .hostCompletion fn _ _ _ | .hostCplTimeout fn _ | .tagQuarantineEnd fn _
  | .atsInvalidate fn _ | .registerWrite fn _ _ _ _ => fnOk fn
  | .ccProfCommit prof _ => profOk prof
  | .trainingRetryTimer port | .laneTestDone port _ | .trainingTimeout port | .standbyLaneRetest port _
  | .nakRepeatTimer port | .fastRetrainDone port _ | .flitTransmit port | .mwr port | .mrd port | .cpl port
  | .cplErr port | .apCtrAdd port | .ctrRd port | .apFence port | .apPost port | .apPostStart port
  | .apCplTimeout port _ | .partnerPresence port _ => apOk port
  | .caps port flit | .transactionFlit port flit | .idleFlit port flit | .nak port flit | .laneSwap port flit
  | .laneSwapAck port flit => apOk port && flitOk flit
  | .laneFecWindow port lane _ | .laneLoss port lane _ => apOk port && laneOk lane
  | .ethPortCfgWrite port _ | .ethLinkUp port | .ethLinkDown port _ | .preemptVerify port _ | .tsAdjWrite port _
  | .tsRateWrite port _ | .tsLatchRead port | .madderParse port | .weldEnqueue port | .transmitDecision port
  | .gateListChange port _ | .gateListStart port | .gateEntryAdvance port | .queueBecomesEligible port
  | .timeAwareSystemSteering port _ _ => ethPortOk port
  | .frameReceive port frame _ => ethPortOk port && frameOk frame
  | .emitterBiasCheck engine emitter _ | .emitterFailure engine emitter => engineOk engine && emitterOk emitter
  | .cartReleaseDone engine | .latchOpen engine | .latchClose engine _ | .cartVerifyDone engine _
  | .cartHourlyLog engine | .cartDailySample engine | .plannedMoveHandover engine => engineOk engine
  | .shaperCommit shaper _ => shaperOk shaper
  | .vfEnableClear port | .hostPortReset port _ | .hostPortLeavesReset port _ _ _ => hostPortOk port
  | .msixMaskChange fn vec _ _ _ _ => fnOk fn && vecOk vec
  | .getLogPage _ cid | .identify _ cid | .abort _ cid | .setFeatures _ cid | .getFeatures _ cid
  | .asyncEventRequest _ cid | .nvmeFlush _ cid | .nvmeWrite _ cid | .nvmeRead _ cid | .writeZeroes _ cid
  | .datasetManagement _ cid | .writeBufferAdmit _ cid => cidOk cid
  | .illegalInstruction core | .timedWaitDeadline core | .add core | .sub core | .and core | .or core | .xor core
  | .shl core | .shr core | .sra core | .mul core | .mulh core | .mulhu core | .div core | .divu core | .rem core
  | .remu core | .min core | .max core | .minu core | .maxu core | .clz core | .popc core | .rdp core | .addi core
  | .andi core | .ori core | .xori core | .shli core | .shri core | .srai core | .movz core | .movk0 core
  | .movk1 core | .movk2 core | .movk3 core | .cmpeq core | .cmpne core | .cmplt core | .cmpge core | .cmpltu core
  | .cmpgeu core | .cmpeqi core | .cmplti core | .pand core | .por core | .pxor core | .pandn core | .fadd core
  | .fsub core | .fmul core | .fdiv core | .fsqrt core | .fmin core | .fmax core | .fma core | .fcvt core
  | .fcvti core | .icvtf core | .feq core | .flt core | .fle core | .ld8u core | .ld16u core | .ld32u core
  | .ld64 core | .ld8s core | .ld16s core | .ld32s core | .st8 core | .st16 core | .st32 core | .st64 core
  | .vld core | .vst core | .amoadd core | .amocas core | .amoswp core | .br core | .bl core | .jr core | .jrl core
  | .vadd core | .vsub core | .vmul core | .vand core | .vor core | .vxor core | .vshl core | .vshr core | .vsra core
  | .vmin core | .vmax core | .vadds core | .vsubs core | .vclmul core | .vclmulh core | .vfadd core | .vfsub core
  | .vfmul core | .vfdiv core | .vfsqrt core | .vfmin core | .vfmax core | .vfma core | .vfcvti core | .vicvtf core
  | .vfsqd core | .vfsumd core | .vbcast core | .vext core | .vins core | .vmov core | .kld core | .kst core
  | .kdec core | .kz core | .kadd core | .kacc2f core | .ksrd core | .kmac core | .kenc core | .kencf core
  | .fence core | .icinv core | .halt core | .wfe core | .evrd core | .sev core | .tdl core | .time core | .cadd core
  | .cset core | .crd core | .cwatch core | .cunwatch core | .cwst core | .istart core | .pstart core | .post core => coreOk core
  | .lockClaim lock _ | .lockRelease lock _ => lockOk lock
  | .paletteCoreFault core _ _ _ _ | .heartbeatMiss core | .paletteRestartDone core => palCoreOk core
  | .exportInterval slot | .templateRefresh slot => slotOk slot

end Sys2Proof
end

