-- ==== Sys2Proof/Tests/Slice0.lean ====
section
/-! SUPPORT. The model's own tests: well-formed commands, words of Mboripor, and small states that meet the hypotheses of the statements. -/

namespace Sys2Proof.Machine

open Sys2Proof

set_option Elab.async false


theorem test_reset_queue_empty : State.reset.pending = [] := rfl
/-! Well-formed commands: for each check a command that it refuses, and one at the edge that it takes. -/

theorem test_wf_core : (Instr.add 512).wf = false ∧ (Instr.add 511).wf = true := by decide
theorem test_wf_cluster : (Instr.clusterReset ⟨64, []⟩).wf = false ∧ (Instr.clusterReset ⟨63, []⟩).wf = true := by decide
theorem test_wf_region : (Instr.regionResetDone 16).wf = false ∧ (Instr.regionResetDone 15).wf = true := by decide
theorem test_wf_palette_core : (Instr.heartbeatMiss 8).wf = false ∧ (Instr.heartbeatMiss 7).wf = true := by decide
theorem test_wf_eth_port : (Instr.weldEnqueue 64).wf = false ∧ (Instr.weldEnqueue 63).wf = true := by decide
theorem test_wf_ap : (Instr.flitTransmit 8).wf = false ∧ (Instr.flitTransmit 7).wf = true := by decide
theorem test_wf_host_port : (Instr.vfEnableClear 2).wf = false ∧ (Instr.vfEnableClear 1).wf = true := by decide
theorem test_wf_lane : (Instr.laneLoss 0 66 0).wf = false ∧ (Instr.laneLoss 0 65 0).wf = true := by decide
theorem test_wf_engine : (Instr.latchOpen 16).wf = false ∧ (Instr.latchOpen 15).wf = true := by decide
theorem test_wf_emitter : (Instr.emitterFailure 0 12).wf = false ∧ (Instr.emitterFailure 0 11).wf = true := by decide
theorem test_wf_stack : (Instr.pageMigrated 32).wf = false ∧ (Instr.pageMigrated 31).wf = true := by decide
theorem test_wf_die : (Instr.dieRetirement 0 14).wf = false ∧ (Instr.dieRetirement 0 13).wf = true := by decide
theorem test_wf_function : (Instr.bmeClear 4096).wf = false ∧ (Instr.bmeClear 4095).wf = true := by decide
theorem test_wf_vector : (Instr.msixMaskChange 0 (some 2048) 0#64 0#32 true true).wf = false ∧
    (Instr.msixMaskChange 0 (some 2047) 0#64 0#32 true true).wf = true := by decide
theorem test_wf_pair : (Instr.replyPost (.block 128)).wf = false ∧ (Instr.replyPost (.block 127)).wf = true := by decide
theorem test_wf_page_pair : (Instr.replyPost (.page 2048)).wf = false ∧ (Instr.replyPost (.page 4095)).wf = true := by decide
theorem test_wf_secure_pair : (Instr.replyPost (.sec 32)).wf = false ∧ (Instr.replyPost (.sec 31)).wf = true := by decide
theorem test_wf_lock : (Instr.lockClaim 256 0).wf = false ∧ (Instr.lockClaim 255 0).wf = true := by decide
theorem test_wf_shaper : (Instr.shaperCommit 16384 0#32).wf = false ∧ (Instr.shaperCommit 16383 0#32).wf = true := by decide
theorem test_wf_collector : (Instr.exportInterval 4).wf = false ∧ (Instr.exportInterval 3).wf = true := by decide
theorem test_wf_profile : (Instr.ccProfCommit 16 0#64).wf = false ∧ (Instr.ccProfCommit 15 0#64).wf = true := by decide
theorem test_wf_cid : (Instr.identify 1 65536).wf = false ∧ (Instr.identify 1 65535).wf = true := by decide
theorem test_wf_flit_short : (Instr.idleFlit 0 [0#8]).wf = false := by decide
theorem test_wf_flit : (Instr.idleFlit 0 (List.replicate 256 0#8)).wf = true := by
  show (true && decide ((List.replicate 256 0#8).length = 256)) = true
  rw [List.length_replicate]; rfl
theorem test_wf_frame : (Instr.frameReceive 0 (List.replicate 13 0#8) true).wf = false ∧
    (Instr.frameReceive 0 (List.replicate 14 0#8) true).wf = true := by decide
theorem test_wf_unit : (Instr.handshakeStallTimeout (unitId 31 0 0)).wf = false := by decide

/-! Words of Mboripor, written out from R427 and the tables of R430 to R438: FN, B, A, D, OP, PN, PG. -/

theorem test_add_word : isaDecode 0b0000000_00011_00010_00001_000000_0_000#32 = some .add := by decide
theorem test_divu_word : isaDecode 0b0001100_11111_11110_11101_000000_1_111#32 = some .divu := by decide
theorem test_addi_word : isaDecode 0b111111111111_00001_00001_000001_0_000#32 = some .addi := by decide
theorem test_movk3_word : isaDecode 0b0_1111111111111111_00001_001100_0_000#32 = some .movk3 := by decide
theorem test_movk_reserved : isaDecode 0b1_1111111111111111_00001_001100_0_000#32 = none := by decide
theorem test_shift_reserved : isaDecode 0b000001000000_00001_00001_000101_0_000#32 = none := by decide
theorem test_cmplt_word : isaDecode 0b0000010_00011_00010_00111_001101_0_000#32 = some .cmplt := by decide
theorem test_cmp_reserved : isaDecode 0b0000010_00011_00010_01000_001101_0_000#32 = none := by decide
theorem test_fma_word : isaDecode 0b1000111_00011_00010_00001_010001_0_000#32 = some .fma := by decide
theorem test_ld64_word : isaDecode 0b000000000001_00010_00001_010101_0_000#32 = some .ld64 := by decide
theorem test_amocas_word : isaDecode 0b0000001_00011_00010_00001_011111_0_000#32 = some .amocas := by decide
theorem test_br_word : isaDecode 0b1111111111111111111111_100000_1_011#32 = some .br := by decide
theorem test_vclmulh_word : isaDecode 0b1101110_00011_00010_00001_100011_0_000#32 = some .vclmulh := by decide
theorem test_kenc_word : isaDecode 0b0110101_00011_00011_00001_101000_0_000#32 = some .kenc := by decide
theorem test_fence_word : isaDecode 0b0001110_00000_00000_00000_101010_0_000#32 = some .fence := by decide
theorem test_cwst_word : isaDecode 0b0000101_00000_00000_00001_101100_0_000#32 = some .cwst := by decide
theorem test_post_word : isaDecode 0b0000010_00011_00010_00001_101101_0_000#32 = some .post := by decide
theorem test_never_guard_reserved : isaDecode 0b0000000_00011_00010_00001_000000_1_000#32 = none := by decide
theorem test_opcode_reserved : isaDecode 0b0000000_00011_00010_00001_111111_0_000#32 = none := by decide


/-! Small states in which the hypotheses of the statements hold together. -/

/-- A device in service whose physical function 0 of host port 0 may issue requests. -/
def wit : State :=
  { umb := { phase := 7 }, host := { fns := [(0, { bme := true })], ports := [(0, { up := true })] } }

/-- A word of opcode `op` waits in mailbox pair 0, whose window is registered. -/
def mailWord (op : Nat) : W64 := BitVec.ofNat 64 (2 * 2 ^ 60 + op * 2 ^ 48)
def mail (s : State) (op : Nat) : State :=
  { s with pal := { s.pal with pairs := [(0, { inWord := mailWord op, window := some 0 })] } }

/-- Its command block. -/
def mailBlk (op body : Nat) : CmdBlock := ⟨false, BitVec.ofNat 512 (4032 + 2 ^ 16 + op * 2 ^ 32), BitVec.ofNat 32256 body⟩
def mailCmd (op : Nat) : Cmd := { id := 1, pair := .block 0, word := mailWord op, window := 0, fn := 0 }

/-- The state in which the command takes effect. -/
def mailed (s : State) (op : Nat) : State :=
  { s with pal := { s.pal with pairs := [(0, { inWord := 0#64, window := some 0 })], cmds := [mailCmd op], nextCmd := 2 } }

/-- The word and the header spell the opcode. -/
def opSpelled (op : Nat) : Bool :=
  decide (mailWord op ≠ 0#64) && wVersion (mailWord op) == 2 && wOpcode (mailWord op) == op &&
  decide (wArg (mailWord op) = 0) &&
  decide (bn (mailBlk op 0).hdr 15 0 = 4032 ∧ bn (mailBlk op 0).hdr 23 16 = 1 ∧ bn (mailBlk op 0).hdr 43 32 = op) &&
  reservedZero (mailBlk op 0).hdr [(31, 24), (63, 44), (95, 72), (511, 320)]

/-- A state in which firmware takes a command at once. -/
structure Serves (s : State) : Prop where
  phase : s.umb.phase = 7
  cores : s.pal.cores = []
  queue : s.pal.queue = []
  cmds : s.pal.cmds = []
  next : s.pal.nextCmd = 1
  master : s.master 0 = true

theorem takes (s : State) (op body : Nat) (b : Bool) (h : Serves s) (ho : opSpelled op = true) (duty : Nat := dutyCore op) :
    Taken (mail s op) (.block 0) op b (mailBlk op body) (mailCmd op) (mailed s op) duty := by
  have hr : s.recovery = false := by simp [State.recovery, h.phase]
  have hr' : (mail s op).recovery = false := hr
  have hm : (mail s op).master 0 = true := h.master
  have hp : (mail s op).pair (.block 0) = { inWord := mailWord op, window := some 0 } := rfl
  have hb : (mailBlk op body).hdr = (mailBlk op 0).hdr := rfl
  have hf : (mailBlk op body).readFails = false := rfl
  have hc : cmdOf (mail s op) (.block 0) = mailCmd op := by
    simp only [cmdOf, hp, mailCmd]
    show Cmd.mk s.pal.nextCmd _ _ _ _ _ = _
    rw [h.next]; rfl
  simp only [opSpelled, Bool.and_eq_true, beq_iff_eq, decide_eq_true_eq] at ho
  obtain ⟨⟨⟨⟨⟨h1, h2⟩, h3⟩, h4⟩, h5, h6, h7⟩, h8⟩ := ho
  have hcore : ∀ n, (mail s op).pcore n = {} := fun n => by
    show mgetD s.pal.cores n {} = {}
    rw [h.cores]; rfl
  refine ⟨by rw [hp]; exact h1, by rw [hp]; exact h2, by rw [hp]; exact h3, ?_, ?_, ?_, ?_, ?_, ?_, hc.symm, ?_⟩
  · simp [mayConsume, hp, mboxRuns, pcoreRuns, hcore, hr']
  · simp [hr']
  · show s.pal.queue.find? _ = none
    rw [h.queue]; rfl
  · simp [pcoreRuns, hcore]
  · show (s.pal.cmds.filter _).length + (s.pal.queue.filter _).length < 64
    rw [h.cmds, h.queue]; decide
  · intro _
    simp only [blockCheck, hc, hp, hb, hf, h5, h6, h7, h8]

    simp [h4, mailCmd, hm]
  · show mailed s op = { takeWord (mail s op) (.block 0) with pal := { (takeWord (mail s op) (.block 0)).pal with cmds := s.pal.cmds ++ [mailCmd op], nextCmd := 1 + 1 } }
    rw [h.cmds]; rfl

theorem wit_serves : Serves wit := ⟨rfl, rfl, rfl, rfl, rfl, rfl⟩

theorem test_firmware_takes : Taken (mail wit 0x0A0) (.block 0) 0x0A0 true (mailBlk 0x0A0 0) (mailCmd 0x0A0) (mailed wit 0x0A0) :=
  takes wit 0x0A0 0 true wit_serves (by decide +kernel)

/-- Core 0 runs in its scratch, and its instruction cache holds the line of its PC, whose first word is `w`. -/
def ranCore (w : W32) : Core :=
  let x : Map W64 := [(2, 0xFFFF000000000040#64), (3, 0xFFFF000000000080#64)]
  { run := .running, pc := 0xFFFF000000000000#64, g := x, icache := [⟨0xFFFF000000000000, leBytes 4 w.toNat⟩] }
def ran (w : W32) : State := { fab := { cores := [(0, ranCore w)] } }

/-- Whatever the word, core 0 of that state fetches it. -/
theorem ran_fetches (w : W32) : Fetches (ran w) 0 w (ran w) := by
  have ht : coreTarget (ran w) 0 0xFFFF000000000000 4 = (ran w, some (.scratch 0 0)) := by
    have hs : scratchSize ((ran w).cl (coreCluster 0)) = 0x400000 := by
      show scratchSize {} = _
      decide +kernel
    simp only [coreTarget, scratchAddr, hs]
    rfl
  refine ⟨rfl, slice (leBytes 4 w.toNat) 0 4, ?_, ?_⟩
  · have hp : ((ran w).core 0).pc.toNat = 0xFFFF000000000000 := rfl
    simp only [coreFetch, hp, ht]
    rfl
  have hl : slice (leBytes 4 w.toNat) 0 4 = leBytes 4 w.toNat := rfl
  rw [hl]
  simp only [leBytes, leNat]
  apply BitVec.eq_of_toNat_eq
  simp only [BitVec.toNat_ofNat]
  have := w.isLt
  omega

theorem ran_executes (w : W32) (h : xor (iPG w == 0) (iPN w) = true ∧ iPG w = 0) : Executes (ran w) 0 (iOP w) w (ran w) := by
  refine ⟨ran_fetches w, rfl, ?_⟩
  obtain ⟨h1, h2⟩ := h
  have hk : ((ran w).core 0).getP 0 = true := rfl
  simp only [guardHolds, h2, hk]
  simpa [h2] using h1

/-- A word of the fields FN, B, A, D, OP with an always true guard. -/
def word (op fn b a d : Nat) : W32 := BitVec.ofNat 32 (fn * 2 ^ 25 + b * 2 ^ 20 + a * 2 ^ 15 + d * 2 ^ 10 + op * 2 ^ 4)

/-- A word for every row of the encoding tables, in their order. -/
def rowWords : List W32 :=
  (List.range 22).map (fun n => word 0x00 n 3 2 1) ++
  [1, 2, 3, 4, 5, 6, 7, 8, 9, 10, 11, 12].map (fun op => word op 0 3 2 1) ++
  (List.range 6).map (fun n => word 0x0D n 3 2 7) ++ [word 0x0E 0 3 2 7, word 0x0F 0 3 2 7] ++
  (List.range 4).map (fun n => word 0x10 n 7 7 7) ++
  (List.range 14).map (fun n => word 0x11 (64 + n) 3 2 7) ++
  (List.range 13).map (fun n => word (0x12 + n) 0 3 2 1) ++
  (List.range 3).map (fun n => word 0x1F n 3 2 1) ++
  [word 0x20 127 31 31 31, word 0x21 0 0 0 1, word 0x22 0 0 2 0, word 0x22 1 0 2 31] ++
  (List.range 15).map (fun n => word 0x23 (96 + n) 3 2 1) ++
  (List.range 12).map (fun n => word 0x24 n 3 2 1) ++
  (List.range 4).map (fun n => word 0x25 (32 + n) 3 2 1) ++
  [word 0x26 0 3 2 1, word 0x26 1 3 2 1, word 0x26 98 3 2 1, word 0x26 3 3 2 3, word 0x26 4 3 2 3, word 0x26 101 3 3 1, word 0x26 6 3 3 1,
   word 0x27 31 3 2 3, word 0x28 69 3 3 1, word 0x29 1 3 28 1, word 0x2A 14 0 0 0, word 0x2A 16 0 0 0, word 0x2A 17 0 0 0] ++
  (List.range 5).map (fun n => word 0x2B n 3 2 1) ++ (List.range 6).map (fun n => word 0x2C (96 + n) 3 2 1) ++
  (List.range 3).map (fun n => word 0x2D n 3 2 1)

/-- Every row of the table has a word that meets its condition, and the decoder reads that row's instruction from it. -/
theorem test_row_words : (List.zip isaRows rowWords).all (fun x =>
    iPG x.2 == 0 && !iPN x.2 && iOP x.2 == x.1.2.1 && x.1.2.2 x.2 && decide (isaDecode x.2 = some x.1.1)) = true := by decide +kernel

theorem test_row_words_length : isaRows.length = rowWords.length := by decide +kernel

/-- The hypotheses of the statements about rows of Mboripor: for every row, core 0 executes such a word. -/
theorem test_executes_rows : ∀ x ∈ List.zip isaRows rowWords, Executes (ran x.2) 0 x.1.2.1 x.2 (ran x.2) ∧ x.1.2.2 x.2 = true := by
  intro x hx
  have h := List.all_eq_true.mp test_row_words x hx
  simp only [Bool.and_eq_true, beq_iff_eq, Bool.not_eq_true', decide_eq_true_eq] at h
  obtain ⟨⟨⟨⟨h1, h2⟩, h3⟩, h4⟩, h5⟩ := h
  exact ⟨h3 ▸ ran_executes x.2 ⟨by simp [h1, h2], h1⟩, h4⟩

/-- A reserved encoding, a guarded-off word, a refused fetch. -/
theorem test_reserved_word : ∃ s i w s1, Fetches s i w s1 ∧ isaDecode w = none := ⟨_, _, _, _, ran_fetches 0xFFFFFFFF#32, by decide⟩
theorem test_guarded_off : ∃ s i w s1, Fetches s i w s1 ∧ isaDecode w = some .add ∧ guardHolds (s1.core i) w = false ∧ Mn.runs .add Instr.add :=
  ⟨_, _, _, _, ran_fetches 0x00000007#32, by decide, by decide, rfl⟩
theorem test_fetch_refused : ∃ s i s1 cause a, (s.core i).run = .running ∧ coreFetch s i = .xcpt s1 cause a :=
  ⟨{ fab := { cores := [(0, { run := .running, pc := 0xFFFFFFFFFFFFFFFC#64 })] } }, 0, _, _, _, rfl, rfl⟩

def MemRes.isOk : MemRes → Bool
  | .ok _ _ => true
  | _ => false
theorem isOk_some {r : MemRes} (h : r.isOk = true) : ∃ s bs, r = .ok s bs := by
  cases r <;> simp_all [MemRes.isOk]

/-- A load, a store, an atomic and a fraction block at the scratch address in g2, and what they leave. -/
theorem test_loads : ∃ t, loads 8 zext (ran (word 0x15 0 0 2 1)) 0 (word 0x15 0 0 2 1) t := by
  obtain ⟨s, bs, h⟩ := isOk_some (show (coreLoad (ran (word 0x15 0 0 2 1)) 0 (accessAt (ran (word 0x15 0 0 2 1)) 0 (word 0x15 0 0 2 1) 8) 8).isOk = true by decide +kernel)
  exact ⟨_, s, bs, h, rfl⟩
theorem test_stores : ∃ t, stores 8 (ran (word 0x1C 0 0 2 1)) 0 (word 0x1C 0 0 2 1) t := by
  obtain ⟨s, bs, h⟩ := isOk_some (show (coreStore (ran (word 0x1C 0 0 2 1)) 0 (accessAt (ran (word 0x1C 0 0 2 1)) 0 (word 0x1C 0 0 2 1) 8) (leBytes 8 0)).isOk = true by decide +kernel)
  exact ⟨s, bs, h⟩
theorem test_atomics : ∃ t, atomics (fun w k old => some (old + k.getG (iB w))) (ran (word 0x1F 0 3 2 1)) 0 (word 0x1F 0 3 2 1) t := by
  obtain ⟨s, bs, h⟩ := isOk_some (show (coreAtomic (ran (word 0x1F 0 3 2 1)) 0 (((ran (word 0x1F 0 3 2 1)).core 0).getG (iA (word 0x1F 0 3 2 1))).toNat
    (fun old => some (old + ((ran (word 0x1F 0 3 2 1)).core 0).getG (iB (word 0x1F 0 3 2 1))))).isOk = true by decide +kernel)
  exact ⟨_, s, bs, h, rfl⟩
theorem test_loads_block : ∃ s1 bs, coreLoadBlock (ran (word 0x26 0 3 2 1)) 0 (((ran (word 0x26 0 3 2 1)).core 0).getG 2).toNat = .ok s1 bs :=
  isOk_some (by decide +kernel)
theorem test_load_refused : ∃ s1 a, coreLoad (ran (word 0x15 0 0 5 1)) 0 (accessAt (ran (word 0x15 0 0 5 1)) 0 (word 0x15 0 0 5 1) 8) 8 = .xcpt s1 2 a := by
  match h : coreLoad (ran (word 0x15 0 0 5 1)) 0 (accessAt (ran (word 0x15 0 0 5 1)) 0 (word 0x15 0 0 5 1) 8) 8 with
  | .xcpt s1 2 a => exact ⟨s1, a, rfl⟩
  | .xcpt _ 0 _ | .xcpt _ 1 _ | .xcpt _ (n + 3) _ | .ok _ _ | .wait _ =>
    exact absurd (show (match coreLoad (ran (word 0x15 0 0 5 1)) 0 (accessAt (ran (word 0x15 0 0 5 1)) 0 (word 0x15 0 0 5 1) 8) 8 with
      | .xcpt _ 2 _ => true
      | _ => false) = true by decide +kernel) (by rw [h]; simp)

/-- A counter operation on counter 0, and a start of each engine with the descriptor at g2 and the slot at g3. -/
theorem test_counts : ∃ t, counts (fun w k old => old + k.getG (iB w)) (ran (word 0x2C 0 3 0 1)) 0 (word 0x2C 0 3 0 1) t :=
  ⟨_, by decide +kernel, by decide +kernel, rfl⟩
theorem test_starts (codec : Bool) : ∃ t, starts codec (ran (word 0x2D 0 3 2 1)) 0 (word 0x2D 0 3 2 1) t := by
  refine ⟨startCoreJob (scrRead (writeBackAll (ran (word 0x2D 0 3 2 1)) 0) (coreCluster 0) 0x40 64).1 0 0x80
      (BitVec.ofNat 512 (leNat (scrRead (writeBackAll (ran (word 0x2D 0 3 2 1)) 0) (coreCluster 0) 0x40 64).2.1)) codec,
    0x40, 0x80, by decide +kernel, by decide +kernel, by cases codec <;> decide +kernel, by decide +kernel, _, _, Prod.ext rfl (Prod.ext rfl ?_), rfl⟩
  show (scrRead (writeBackAll (ran (word 0x2D 0 3 2 1)) 0) (coreCluster 0) 0x40 64).2.2 = false
  decide +kernel
/-- A jump to an address that is not a multiple of 4. -/
def ranOdd (w : W32) : State := { fab := { cores := [(0, { ranCore w with g := [(2, 2#64)] })] } }
theorem test_misaligned : ∃ w s1, Fetches (ranOdd w) 0 w s1 ∧ iOP w = 0x22 ∧ iFN w = 0 ∧ ((s1.core 0).getG (iA w)).toNat % 4 ≠ 0 := by
  refine ⟨word 0x22 0 0 2 0, ranOdd (word 0x22 0 0 2 0), ⟨rfl, slice (leBytes 4 (word 0x22 0 0 2 0).toNat) 0 4, ?_, by decide⟩, by decide, by decide, by decide⟩
  have ht : coreTarget (ranOdd (word 0x22 0 0 2 0)) 0 0xFFFF000000000000 4 = (ranOdd (word 0x22 0 0 2 0), some (.scratch 0 0)) := by
    have hs : scratchSize ((ranOdd (word 0x22 0 0 2 0)).cl (coreCluster 0)) = 0x400000 := by
      show scratchSize {} = _
      decide +kernel
    simp only [coreTarget, scratchAddr, hs]
    rfl
  have hp : ((ranOdd (word 0x22 0 0 2 0)).core 0).pc.toNat = 0xFFFF000000000000 := rfl
  simp only [coreFetch, hp, ht]
  rfl

/-- Firmware takes a command of an opcode with a body `b`, as `c`, and it takes effect in `s1`. -/
def FwHas (op : Nat) (s1 : State) (c : Cmd) (b : BitVec 32256) (duty : Nat := dutyCore op) : Prop :=
  ∃ s k blk, Taken s k op true blk c s1 duty ∧ blk.bits = b ∧ blk.readFails = false

theorem fwHas (s : State) (op body : Nat) (h : Serves s) (ho : opSpelled op = true) (duty : Nat := dutyCore op) :
    FwHas op (mailed s op) (mailCmd op) (mailBlk op body).bits duty :=
  ⟨_, _, _, takes s op body true h ho duty, rfl, rfl⟩

theorem serves_wit {s : State} (h : (s.umb, s.pal, s.host) = (wit.umb, wit.pal, wit.host)) : Serves s := by
  simp only [Prod.mk.injEq] at h
  obtain ⟨h1, h2, h3⟩ := h
  refine ⟨by rw [h1]; rfl, by rw [h2]; rfl, by rw [h2]; rfl, by rw [h2]; rfl, by rw [h2]; rfl, ?_⟩
  simp only [State.master, State.fn, h3]
  decide

/-! MailboxOperations, LockOperations, PaletteCommands. -/

theorem test_mailbox : ((mail wit 0x001).pair (.block 0)).inWord ≠ 0#64 ∧ (wit.pair (.block 127)).inWord = 0#64 ∧ mboxRuns wit (.block 0) = true ∧
    fwOpcodes.contains (wOpcode (mailWord 0x001)) = true ∧ wVersion (mailWord 0x001) = 2 := by decide +kernel
theorem test_pair_reached : pairReached wit (.block 0) = true ∧ pairReached wit (.page 9) = false := by decide +kernel
theorem test_lock_reached : lockReached wit 0x1000 = true ∧ lockReached wit 0x1FF = true ∧ lockReached wit 0x1001 = false := by decide +kernel
theorem test_reply_held : ∃ (s : State) (k : MboxId) (w : W64) (ws : List W64),
    (s.pair k).held = w :: ws ∧ (s.pair k).outWord = 0#64 ∧ mboxRuns s k = true :=
  ⟨{ pal := { pairs := [(0, { held := [5#64] })] } }, .block 0, 5#64, [], rfl, rfl, rfl⟩
theorem test_crossed : ∃ (s : State) (k : MboxId), (s.pair k).inWord ≠ 0#64 ∧ (s.pair k).outWord ≠ 0#64 ∧ pcoreRuns s (mboxCore k) = true :=
  ⟨{ pal := { pairs := [(0, { inWord := 5#64, outWord := 5#64 })] } }, .block 0, by decide, by decide, rfl⟩
theorem test_locks : ∃ s : State, mget s.pal.locks 255 = none ∧ mget s.pal.locks 0 = some 7 := ⟨{ pal := { locks := [(0, 7)] } }, rfl, rfl⟩
theorem test_fw_hello : ∃ s s1 c, Taken s (.block 0) 0x001 false noBlock c s1 ∧ wArg c.word = 0 := by
  have h := takes wit 0x001 0 false wit_serves (by decide +kernel)
  exact ⟨_, mailed wit 0x001, mailCmd 0x001, ⟨h.1, h.2.1, h.2.2.1, h.2.2.2.1, h.2.2.2.2.1, h.2.2.2.2.2.1, h.2.2.2.2.2.2.1, h.2.2.2.2.2.2.2.1, nofun,
    h.2.2.2.2.2.2.2.2.2.1, h.2.2.2.2.2.2.2.2.2.2⟩, by decide +kernel⟩
theorem test_fw_load : ∃ s c b, FwHas 0x0A0 s c b ∧ chunkFits s c b ∧ bt b 128 = false :=
  ⟨_, _, _, fwHas wit 0x0A0 (4096 * 2 ^ 64) wit_serves (by decide +kernel), by unfold chunkFits; decide +kernel, by decide +kernel⟩
theorem test_fw_load_last : ∃ s c b, FwHas 0x0A0 s c b ∧ chunkFits s c b ∧ bt b 128 = true :=
  ⟨_, _, _, fwHas wit 0x0A0 (4096 * 2 ^ 64 + 134213632 * 2 ^ 96 + 2 ^ 128) wit_serves (by decide +kernel), by unfold chunkFits; decide +kernel, by decide +kernel⟩
theorem test_sp_bind : ∃ s c b, FwHas 0x090 s c b ∧ fromPf0 c = true ∧ bodyReserved b [(63, 10), (143, 132)] 155 = true ∧ bt b 8 = false ∧ bn b 75 64 = 0 ∧
    4 ≤ bn b 131 128 ∧ bn b 131 128 ≤ 12 :=
  ⟨_, _, _, fwHas wit 0x090 (4 * 2 ^ 128) wit_serves (by decide +kernel), by decide +kernel⟩
theorem test_sp_unbind : ∃ s c b, FwHas 0x090 s c b ∧ fromPf0 c = true ∧ bodyReserved b [(63, 10), (143, 132)] 155 = true ∧ bt b 8 = true :=
  ⟨_, _, _, fwHas wit 0x090 256 wit_serves (by decide +kernel), by decide +kernel⟩
theorem test_log_bind : ∃ s c b, FwHas 0x0B0 s c b ∧ fromPf0 c = true ∧ bodyReserved b [(79, 69), (95, 91)] 98 = true ∧ bt b 96 = false ∧ bn b 11 0 = 0 ∧
    10 ≤ bn b 68 64 ∧ bn b 68 64 ≤ 20 :=
  ⟨_, _, _, fwHas wit 0x0B0 (20 * 2 ^ 64) wit_serves (by decide +kernel), by decide +kernel⟩
theorem test_log_unbind : ∃ s c b, FwHas 0x0B0 s c b ∧ fromPf0 c = true ∧ bodyReserved b [(79, 69), (95, 91)] 98 = true ∧ bt b 96 = true :=
  ⟨_, _, _, fwHas wit 0x0B0 (2 ^ 96) wit_serves (by decide +kernel), by decide +kernel⟩
theorem test_trace_set : ∃ s c b, FwHas 0x0B1 s c b ∧ fromPf0 c = true ∧ bodyReserved b [] 256 = true :=
  ⟨_, _, _, fwHas wit 0x0B1 (2 ^ 255) wit_serves (by decide +kernel), by decide +kernel⟩

/-! ClusterCommands: cluster 63 belongs to function 0. -/

/-- A cluster 63 of function 0 in service, with two cores, and all others firmware's. -/
def witCl : State :=
  let k : Core := { run := .idle }
  { wit with fab := { clusters := [(63, { cstate := .inService, owner := some 0 })], cores := [(504, k), (505, k)] } }

/-- Clusters 0 to 4 are firmware's and in service. -/
def witCl4 : State := { wit with fab := { clusters := (List.range 5).map (fun i => (i, { cstate := .inService })) } }

theorem test_cl_assign_same : ∃ s c b, FwHas 0x0E0 s c b ∧ fromPf0 c = true ∧ bodyReserved b [(15, 6), (31, 29), (63, 39)] 64 = true ∧ bn b 38 32 ≤ 100 ∧
    bt b 28 = false ∧ s.fnPresent (bn b 27 16) = true ∧ (s.cl (bn b 5 0)).world = false ∧ (s.cl (bn b 5 0)).cstate ≠ .retired ∧
    (s.cl (bn b 5 0)).owner = some (bn b 27 16) ∧ (s.cl (bn b 5 0)).reclaim = none :=
  ⟨_, _, _, fwHas witCl 0x0E0 (63 + 100 * 2 ^ 32) (serves_wit rfl) (by decide +kernel), by decide +kernel⟩
theorem test_cl_assign : ∃ s c b, FwHas 0x0E0 s c b ∧ fromPf0 c = true ∧ bodyReserved b [(15, 6), (31, 29), (63, 39)] 64 = true ∧ bn b 38 32 ≤ 100 ∧
    bt b 28 = false ∧ s.fnPresent (bn b 27 16) = true ∧ (s.cl (bn b 5 0)).world = false ∧ (s.cl (bn b 5 0)).cstate ≠ .retired ∧
    (s.cl (bn b 5 0)).owner ≠ some (bn b 27 16) ∧ (s.cl (bn b 5 0)).reclaim = none ∧
    ((s.cl (bn b 5 0)).owner = none → 4 ≤ ((fwClusters s).filter (· ≠ bn b 5 0)).length) :=
  ⟨_, _, _, fwHas witCl4 0x0E0 0 (serves_wit rfl) (by decide +kernel), by decide +kernel⟩
theorem test_cl_assign_firmware : ∃ s c b, FwHas 0x0E0 s c b ∧ fromPf0 c = true ∧ bodyReserved b [(15, 6), (31, 29), (63, 39)] 64 = true ∧ bn b 38 32 ≤ 100 ∧
    bt b 28 = true ∧ bn b 27 16 = 0 ∧ (s.cl (bn b 5 0)).world = false ∧ (s.cl (bn b 5 0)).cstate ≠ .retired ∧ (s.cl (bn b 5 0)).owner ≠ none ∧
    (s.cl (bn b 5 0)).reclaim = none :=
  ⟨_, _, _, fwHas witCl 0x0E0 (63 + 2 ^ 28) (serves_wit rfl) (by decide +kernel), by decide +kernel⟩
theorem test_cl_stop : ∃ s c b, FwHas 0x0E2 s c b ∧ (s.cl (bn b 5 0)).owner = some c.fn ∧ bodyReserved b [(7, 6)] 16 = true :=
  ⟨_, _, _, fwHas witCl 0x0E2 (63 + 3 * 256) (serves_wit rfl) (by decide +kernel), by decide +kernel⟩

/-! PaletteCoreFaultsAndRestarts, FirmwareActivation, LifecycleAndAttestation, FactoryAndTamper. -/

theorem test_core_stops : ∃ (s t : State) (n : Nat), n < 8 ∧ (s.pcore n).cstate ≠ 0 ∧ t = stopped s n 1 0 0 0 ∧ mustRollBack t n = false :=
  ⟨wit, _, 7, by decide, by decide, rfl, by decide +kernel⟩
/-- The fourth restart of core 7 since an activation at time 0, with a delivered image to go back to. -/
theorem test_core_rolls_back : ∃ (s t : State) (n : Nat), n < 8 ∧ (s.pcore n).cstate ≠ 0 ∧ t = stopped s n 1 0 0 0 ∧ mustRollBack t n = true ∧ t.pal.actCmd = 0 := by
  refine ⟨{ wit with pal := { activatedAt := some 0, cores := [(7, { restartTimes := [0, 0, 0] })], banks := [(1, { delivered := some 1, verified := true })] } }, _, 7,
    by decide, by decide, rfl, ?_, rfl⟩
  decide +kernel
theorem test_core_restarts : ∃ s : State, (s.pcore 7).cstate = 2 ∧ restartHeld s 7 = false ∧ keptByReset s ∧ s.pal.queue = [] :=
  ⟨{ wit with pal := { cores := [(7, { cstate := 2 })] } }, rfl, by decide +kernel, nofun, rfl⟩
theorem test_fw_activate (e : Bool) : ∃ s c b, FwHas 0x0A1 s c b ∧ fromPf0 c = true ∧ bodyReserved b [] 0 = true ∧ s.recovery = false ∧ s.pal.act ≠ 4 ∧ s.pal.actCmd = 0 ∧
    s.pal.act ≠ 3 ∧ s.umb.emerg = e := by
  refine ⟨mailed { wit with umb := { phase := 7, emerg := e } } 0x0A1, _, _, fwHas { wit with umb := { phase := 7, emerg := e } } 0x0A1 0 ⟨rfl, rfl, rfl, rfl, rfl, rfl⟩
    (by decide +kernel), ?_⟩
  cases e <;> decide +kernel
theorem test_fw_activate_completes : ∃ s c b, FwHas 0x0A1 s c b ∧ fromPf0 c = true ∧ bodyReserved b [] 0 = true ∧ s.recovery = false ∧ s.pal.act ≠ 4 ∧ s.pal.act ≠ 3 ∧ s.pal.actCmd = 0 ∧
    s.umb.emerg = false ∧ mayActivate s := by
  have h : Serves { wit with pal := { wit.pal with banks := [(1, { delivered := some 1, verified := true })] } } := ⟨rfl, rfl, rfl, rfl, rfl, rfl⟩
  exact ⟨_, _, _, fwHas _ 0x0A1 0 h (by decide +kernel), by decide +kernel, by decide +kernel, by decide +kernel, by decide +kernel, by decide +kernel, by decide +kernel, by decide +kernel,
    by unfold mayActivate; decide +kernel⟩
theorem test_deferred_completes : ∃ s : State, s.pal.act = 3 ∧ s.umb.emerg = false ∧ mayActivate s :=
  ⟨{ wit with pal := { act := 3, banks := [(1, { delivered := some 1, verified := true })] } }, by unfold mayActivate; decide +kernel⟩
theorem test_activation_logged : ∃ s : State, s.pal.act = 4 ∧ coreRestarting s = false ∧ safQuiet s = true ∧ s.pal.actDeferred = true :=
  ⟨{ wit with pal := { act := 4, actDeferred := true } }, by decide +kernel⟩
theorem test_activation_goes : ∃ s : State, coreRestarting s = false ∧ (s.bank (1 - s.pal.active)).verified = true ∧
    (s.bank (1 - s.pal.active)).stateMin ≤ (s.bank s.pal.active).stateVer ∧ imageVerifies s (s.bank (1 - s.pal.active)) = true :=
  ⟨{ wit with pal := { banks := [(1, { delivered := some 1, verified := true })] } }, by decide +kernel⟩
theorem test_activation_refused : ∃ s : State, coreRestarting s = false ∧ s.pal.actDeferred = false ∧ (s.bank s.pal.active).stateVer < (s.bank (1 - s.pal.active)).stateMin :=
  ⟨{ wit with pal := { banks := [(1, { stateMin := 1 })] } }, by decide +kernel⟩
theorem test_activation_waits : ∃ s : State, coreRestarting s = true := ⟨{ wit with pal := { cores := [(7, { cstate := 2 })] } }, by decide +kernel⟩
theorem test_activation_deferred : ∃ s : State, s.pal.act = 3 ∧ s.umb.emerg = false ∧ coreRestarting s = false := ⟨{ wit with pal := { act := 3 } }, by decide +kernel⟩
theorem test_activation_done : ∃ s : State, s.pal.act = 4 ∧ coreRestarting s = false ∧ safQuiet s = true ∧ s.pal.actDeferred = false :=
  ⟨{ wit with pal := { act := 4 } }, by decide +kernel⟩
/-- A device whose entropy source has passed its test. -/
def witEnt : State := { wit with sec := { wit.sec with entOk := true } }
theorem test_lc_nonce : ∃ s c b, FwHas 0x0C1 s c b ∧ fromPf0 c = true ∧ s.sec.entOk = true := ⟨_, _, _, fwHas witEnt 0x0C1 0 (serves_wit rfl) (by decide +kernel), by decide +kernel⟩
theorem test_svn_commit : ∃ s s1 c, Taken s (.block 0) 0x0C3 false noBlock c s1 ∧ fromPf0 c = true ∧ (s1.pal.act = 0 ∨ 4 < s1.pal.act) := by
  have h := takes wit 0x0C3 0 false wit_serves (by decide +kernel)
  exact ⟨_, mailed wit 0x0C3, mailCmd 0x0C3, ⟨h.1, h.2.1, h.2.2.1, h.2.2.2.1, h.2.2.2.2.1, h.2.2.2.2.2.1, h.2.2.2.2.2.2.1, h.2.2.2.2.2.2.2.1, nofun,
    h.2.2.2.2.2.2.2.2.2.1, h.2.2.2.2.2.2.2.2.2.2⟩, by decide +kernel⟩
theorem test_lc_transit : ∃ s c b, FwHas 0x0C2 s c b ∧ fromPf0 c = true ∧ s.pal.act ≠ 4 ∧ s.pal.actCmd = 0 ∧ bodyReserved b [] 32 = true ∧ bn b 31 0 % 64 = 0 ∧
    bn b 31 0 + 7984 ≤ 65536 :=
  ⟨_, _, _, fwHas wit 0x0C2 57536 wit_serves (by decide +kernel), by decide +kernel⟩
theorem test_att_certs : ∃ s c b, FwHas 0x0C5 s c b ∧ bodyReserved b [(5, 0)] 64 = true := ⟨_, _, _, fwHas wit 0x0C5 64 wit_serves (by decide +kernel), by decide +kernel⟩
theorem test_att_quote : ∃ s c b, FwHas 0x0C4 s c b ∧ bodyReserved b [(5, 0)] 576 = true ∧ (s.sec.lc = 2 ∨ s.sec.lc = 3 ∨ s.sec.lc = 4) ∧ s.sec.entOk = true :=
  ⟨_, _, _, fwHas witEnt 0x0C4 (2 ^ 575) (serves_wit rfl) (by decide +kernel), by decide +kernel⟩
theorem test_factory : ∀ n ≤ 5, ∃ s : State, s.sec.lc = n ∧ s.saf.vstate ≠ 2 := fun n _ => ⟨{ sec := { lc := n } }, rfl, by show (0 : Nat) ≠ 2; decide⟩

/-! ClusterOperations, RegionOperations. -/

theorem test_cluster_states : ∀ st : CState, ∃ s : State, (s.cl 63).cstate = st ∧ (s.rgn 15).rstate ≠ .resetting ∧ clusterBusy s 63 = false ∧ (s.cl 63).reclaim = none ∧
    underTest s 63 = false := by
  intro st
  refine ⟨{ fab := { clusters := [(63, { cstate := st })] } }, ?_⟩
  cases st <;> decide +kernel
theorem test_cluster_busy : ∃ s : State, (s.cl 63).cstate = .inService ∧ clusterBusy s 63 = true :=
  ⟨{ fab := { clusters := [(63, { cstate := .inService })], cores := [(504, { run := .running })] } }, by decide +kernel⟩
theorem test_reclaim : ∃ (s : State) (r : Reclaim), (s.cl 63).reclaim = some r ∧ r.stopped = false ∧ underTest s 63 = false :=
  ⟨{ fab := { clusters := [(63, { reclaim := some { newOwner := none, cmd := 0 } })] } }, _, rfl, rfl, by decide +kernel⟩
theorem test_region_states : ∀ st : RState, ∃ s : State, (s.rgn 15).rstate = st ∧ (s.rgn 15).missed = 0 := by
  intro st
  exact ⟨{ fab := { regions := [(15, { rstate := st })] } }, rfl, rfl⟩
theorem test_region_retires : ∃ s : State, (s.rgn 15).retiring = 1 ∧ (s.rgn 15).rstate ≠ .retired ∧ s.lake.moves = [] :=
  ⟨{ fab := { regions := [(15, { retiring := 1 })] } }, by decide +kernel⟩
theorem test_region_retiring_moves : ∃ s : State, (s.rgn 15).retiring = 1 ∧ (s.rgn 15).rstate ≠ .retired ∧
    s.lake.moves.any (fun m => decide (m.why = .regionRetire 15)) = true :=
  ⟨{ fab := { regions := [(15, { retiring := 1 })] }, lake := { moves := [⟨0, 0, .regionRetire 15⟩] } }, by decide +kernel⟩
theorem test_size_applies : ∃ s : State, s.umb.sizePending = true ∧ s.umb.phase = 7 ∧ ∃ t, applySize s s.umb.sizeLast = some t :=
  ⟨{ umb := { phase := 7, sizePending := true }, lake := { fw := [{ kind := .reserve, base := 0, pages := 1000000 }] } }, rfl, rfl,
    Option.isSome_iff_exists.mp (by decide +kernel)⟩
theorem test_page_zeroed : ∃ (s : State) (pp : Nat) (rest : List Nat), s.lake.zeroing = pp :: rest ∧ s.lake.degraded = [] ∧ s.umb.sizeRefused = false :=
  ⟨{ lake := { zeroing := [5] } }, 5, [], rfl, rfl, rfl⟩

/-! Channels: a device where function 0 owns channel 1 of every class; its work ring posts to its completion ring. -/

/-- A handle of generation 1 to index 1 of a class, owner 0. -/
def han (cls : Nat) : Nat := cls * 2 ^ 60 + 2 ^ 48 + 1
def hanOf (cls : Nat) : W64 := BitVec.ofNat 64 (han cls)
def witSlots : Map Slot := [1, 2, 3, 4, 5, 6, 7, 8, 9, 10, 11].map (fun c => (c * 2 ^ 24 + 1, { gen := 1, live := true, used := true }))
def witCq : CompRing := { base := 0x2000, sizeLog2 := 4, dbPage := 1, vector := 0, modCount := 2, modTime := 1 }
def witRing : WorkRing := { base := 0x1000, sizeLog2 := 4, dbPage := 1, cq := 1, tlist := 0#64 }
def witVat (w : WorkRing) (q : CompRing) : Vat := { slots := witSlots, work := [(1, w)], comp := [(1, q)] }
def witCh (w : WorkRing) (q : CompRing) : State := { wit with vat := witVat w q }
def witDev : State := witCh witRing witCq

/-- A doorbell word: CLASS, GEN 1, INDEX 1, PTR. -/
def bell (cls ptr : Nat) (arm : Bool) : W64 := BitVec.ofNat 64 (cls * 2 ^ 56 + 2 ^ 32 + 2 ^ 20 + (if arm then 2 ^ 16 else 0) + ptr)

theorem test_rings_work : mget witDev.vat.work (dbIndex (bell 1 15 false)) = some witRing ∧ Rings witDev 0 1 1 witRing.dbPage (bell 1 15 false) ∧
    dbArm (bell 1 15 false) = false := by unfold Rings; decide +kernel
theorem test_rings_storage : ∃ (s : State) (q : SQueue), mget s.saf.queues (dbIndex (bell 4 15 false)) = some q ∧ Rings s 0 1 4 q.dbPage (bell 4 15 false) ∧
    dbArm (bell 4 15 false) = false :=
  ⟨{ witDev with saf := { queues := [(1, { base := 0, sizeLog2 := 4, dbPage := 1, qid := 0 })] } }, _, rfl, by unfold Rings; decide +kernel⟩
theorem test_rings_completion : ∃ (s : State) (q : CompRing), mget s.vat.comp (dbIndex (bell 2 15 false)) = some q ∧ Rings s 0 1 2 q.dbPage (bell 2 15 false) ∧
    dbArm (bell 2 15 false) = false ∧ (0 + (dbPtr (bell 2 15 false) + 2 ^ q.sizeLog2 - 0 % 2 ^ q.sizeLog2) % 2 ^ q.sizeLog2) ≤ q.written - q.held.length :=
  ⟨witCh witRing { witCq with written := 15 }, _, rfl, by unfold Rings; decide +kernel⟩
theorem test_rings_completion_beyond : ∃ (s : State) (q : CompRing), mget s.vat.comp (dbIndex (bell 2 15 false)) = some q ∧ Rings s 0 1 2 q.dbPage (bell 2 15 false) ∧
    q.written - q.held.length < (0 + (dbPtr (bell 2 15 false) + 2 ^ q.sizeLog2 - 0 % 2 ^ q.sizeLog2) % 2 ^ q.sizeLog2) :=
  ⟨witDev, _, rfl, by unfold Rings; decide +kernel⟩
theorem test_rings_arm : ∃ (s : State) (q : CompRing), mget s.vat.comp (dbIndex (bell 2 15 true)) = some q ∧ Rings s 0 1 2 q.dbPage (bell 2 15 true) ∧
    dbArm (bell 2 15 true) = true ∧ q.held = [] ∧ q.head ≤ q.written ∧ q.written < q.head + 2 ^ q.sizeLog2 ∧ dbPtr (bell 2 15 true) = q.written % 2 ^ q.sizeLog2 :=
  ⟨witCh witRing { witCq with written := 15 }, _, rfl, by unfold Rings; decide +kernel⟩
theorem test_page_reached : pageReached wit 0 0 = true := by decide +kernel

/-! DescriptorsOfRings. -/

theorem test_fetch : ∃ (s t : State) (q : CompRing) (w : WorkRing), mget s.vat.comp 1 = some q ∧ fetchTurn s 1 = some 1 ∧ mget s.vat.work 1 = some w ∧ q.free ≠ 0 ∧
    slotsSpoken s 1 = false ∧ w.queue.find? (unmade s 1) = none ∧ hostRead s (s.slot 1 1).owner (.desc 1 w.nextSeq) [(w.base + 64 * (w.fetch % 2 ^ w.sizeLog2), 64)] = some t :=
  ⟨witCh { witRing with tail := 1 } witCq, _, _, _, rfl, by decide +kernel, rfl, by decide +kernel, by decide +kernel, by decide +kernel,
    if_neg (by decide +kernel)⟩
theorem test_fetch_no_slot : ∃ (s : State) (q : CompRing), mget s.vat.comp 1 = some q ∧ fetchTurn s 1 = some 1 ∧ q.free = 0 :=
  ⟨witCh { witRing with tail := 1 } { witCq with reserved := 15 }, _, rfl, by decide +kernel, by decide +kernel⟩
theorem test_fetch_failed : ∃ (s : State) (w : WorkRing) (f : Fetched), mget s.vat.work 1 = some w ∧ w.queue = [f] ∧ f.failed = true :=
  ⟨witCh { witRing with queue := [{ slot := 0, failed := true }] } witCq, _, _, rfl, rfl, rfl⟩

/-- A ring whose head is a descriptor. -/
def witHead (d : Desc) : State := witCh { witRing with queue := [{ slot := 0, desc := some d }] } witCq
def witHeadSet (d : Desc) : State := { witHead d with vat := { (witHead d).vat with sets := [(1, 1024)] } }

theorem test_head_refused : ∃ (s : State) (w : WorkRing) (f : Fetched) (d : Desc), mget s.vat.work 1 = some w ∧ w.queue = [f] ∧ f.desc = some d ∧
    headCheck s (s.slot 1 1).owner d = some .invalidOpcode :=
  ⟨witHead 3#512, _, _, _, rfl, rfl, rfl, by decide +kernel⟩
theorem test_head_ready : ∃ (s : State) (w : WorkRing) (f g : Fetched) (d : Desc), HeadReady s 1 w f g [] d ∧ dFence d = false ∧ dWait d = false ∧ dTrig d = false ∧
    targetCheck s (s.slot 1 1).owner d = none :=
  ⟨witHead 0#512, _, _, _, _, ⟨rfl, rfl, rfl, .inr ⟨rfl, by decide +kernel, rfl⟩⟩, by decide +kernel⟩
theorem test_head_trigger : ∃ (s : State) (w : WorkRing) (f g : Fetched) (d : Desc), HeadReady s 1 w f g [] d ∧ dFence d = false ∧ dWait d = false ∧ dTrig d = true := by
  let d : Desc := BitVec.ofNat 512 (2 ^ 11 + 2 ^ 160)
  exact ⟨witCh { witRing with queue := [{ slot := 0, desc := some d }], tlist := hanOf 11 } witCq, _, _, _, d, ⟨rfl, rfl, rfl, .inr ⟨rfl, by decide +kernel, rfl⟩⟩, by decide +kernel⟩
theorem test_head_waits : ∃ (s : State) (w : WorkRing) (f g : Fetched) (d : Desc), HeadReady s 1 w f g [] d ∧ dFence d = false ∧ dWait d = true ∧
    ctrReached (s.ctr (dWaitCtr d)) (dCond d) = false :=
  ⟨witHeadSet (BitVec.ofNat 512 (2 ^ 10 + 1 * 2 ^ 32 + 2 ^ 128)), _, _, _, _, ⟨rfl, rfl, rfl, .inr ⟨rfl, by decide +kernel, rfl⟩⟩, by decide +kernel⟩
theorem test_head_counted : ∃ (s : State) (w : WorkRing) (f g : Fetched) (d : Desc), HeadReady s 1 w f g [] d ∧ dFence d = false ∧ dWait d = true ∧
    ctrReached (s.ctr (dWaitCtr d)) (dCond d) = true ∧ dTrig d = false ∧ f.waiting = true ∧ targetCheck s (s.slot 1 1).owner d = none := by
  refine ⟨{ witHeadSet 0#512 with vat := { (witHeadSet 0#512).vat with work := [(1, { witRing with queue := [{ slot := 0, desc := some (BitVec.ofNat 512 (2 ^ 10 + 1 * 2 ^ 32)), waiting := true }] })] } },
    _, _, _, _, ⟨rfl, rfl, rfl, .inl ⟨rfl, rfl⟩⟩, by decide +kernel⟩
theorem test_head_fence : ∃ (s : State) (w : WorkRing) (f g : Fetched) (d : Desc), HeadReady s 1 w f g [] d ∧ dFence d = true ∧ earlierOpen s 1 g.seq = true := by
  let w : WorkRing := { witRing with queue := [{ slot := 0, desc := some 512#512, seq := 1 }] }
  let j : Job := { ring := 1, ringGen := 1, fn := 0, slot := 0, posted := false, seq := 0, desc := 0#512 }
  exact ⟨{ witDev with vat := { witVat w witCq with jobs := [(1, j)] } }, _, _, _, _, ⟨rfl, rfl, rfl, .inr ⟨rfl, by decide +kernel, rfl⟩⟩, by decide +kernel⟩
/-- A fired entry whose TARGET still stands, and one whose TARGET is gone. -/
theorem test_trigger_runs : ∃ (s : State) (q : CompRing) (e : Parked) (d : Desc), mget s.vat.comp 1 = some q ∧ s.vat.fired.find? (fun e => cqOf s e.ring == 1) = some e ∧
    q.free ≠ 0 ∧ e.item.desc = some d := by
  refine ⟨{ witDev with vat := { witDev.vat with fired := [{ ring := 1, ringGen := 1, item := { slot := 0, desc := some 0#512 }, trigTag := 0, trigCount := 1 }] } }, _, _, _, rfl, rfl,
    by decide +kernel, rfl⟩
theorem test_target_stands : targetCheck witDev 0 (BitVec.ofNat 512 (0x30 + han 5 * 2 ^ 64)) = none ∧ targetCheck witDev 0 (BitVec.ofNat 512 (0x30 + (han 5 + 2 ^ 48) * 2 ^ 64)) = some .staleHandle := by
  decide +kernel
theorem test_mod_time : ∃ (s : State) (q : CompRing), mget s.vat.comp 1 = some q ∧ q.armed = true ∧ 1 ≤ q.p ∧ q.modTime ≠ 0 ∧ q.modCount ≠ 0 :=
  ⟨witCh witRing { witCq with p := 1 }, _, rfl, by decide +kernel⟩

/-! CounterAndCodecJobs, MatrixJobsAndRepair, CipherHashAndEntropyJobs. -/

def jobDesc (op tgt body : Nat) : Desc := BitVec.ofNat 512 (op + tgt * 2 ^ 64 + body * 2 ^ 192)
def witJob (d : Desc) (ph : JPhase) : Job := { ring := 1, ringGen := 1, fn := 0, slot := 0, posted := false, seq := 0, desc := d, phase := ph }
def jobIn (s : State) (j : Job) : State := { s with vat := { s.vat with jobs := [(1, j)] } }

/-- Every opcode has a job that has started, and one that runs. -/
theorem test_jobs : ∀ op ∈ [0x00, 0x01, 0x02, 0x08, 0x10, 0x17, 0x30, 0x40, 0x50, 0x52, 0x60, 0x61, 0x70, 0x71, 0x74, 0x76],
    (∃ s j, Started s 1 op j) ∧ ∃ s j, Running s 1 op j := fun op h =>
  ⟨⟨jobIn witDev (witJob (jobDesc op 0 0) .started), _, rfl, by
      show dOpcode (jobDesc op 0 0) = op
      revert op; decide +kernel, rfl⟩,
    ⟨jobIn witDev (witJob (jobDesc op 0 0) .running), _, rfl, by
      show dOpcode (jobDesc op 0 0) = op
      revert op; decide +kernel, rfl⟩⟩
/-- A codec job of 32 elements from binary32 to an 8-bit fraction, on cluster 63 of function 0, and one without such a cluster. -/
def codecDesc : Desc := jobDesc 0x08 0 (32 * 2 ^ 128 + 8 * 2 ^ 160 + 4 * 2 ^ 164 + 63 * 2 ^ 173)
def witClDev : State := { witDev with fab := { witCl.fab with node := 0 } }
/-- The counter sets that a descriptor's checks found stand, for counter 1 and for INC_CTR 1; and the set of counter 1 is gone. -/
theorem test_set_stands : ∃ s j, Started s 1 0x01 j ∧ setStands s j (dCtr j.desc) j.bodySet := by
  let j : Job := { witJob (jobDesc 1 0 1) .started with bodySet := some (1, 1) }
  exact ⟨{ jobIn witDev j with vat := { (jobIn witDev j).vat with sets := [(1, 1024)] } }, j, ⟨rfl, by decide +kernel, rfl⟩, by unfold setStands; decide +kernel⟩
theorem test_set_gone : ∃ s j, Started s 1 0x01 j ∧ (j.bodySet.isSome && ctrSetGen s j.fn (dCtr j.desc) == j.bodySet) = false :=
  ⟨jobIn witDev (witJob (jobDesc 1 0 1) .started), _, ⟨rfl, by decide +kernel, rfl⟩, by decide +kernel⟩
theorem test_codec_start : codecStart (jobIn witClDev (witJob codecDesc .started)) codecDesc (pickEngine witClDev 0 (cCluster codecDesc) true) = .inl 63 := by decide +kernel
theorem test_codec_refused : codecStart witClDev codecDesc (pickEngine witClDev 1 (cCluster codecDesc) true) = .inr .accessDenied := by decide +kernel
theorem test_codec_run : ∃ (s : State) (j : Job), Running s 1 0x08 j ∧ j.unit = some 63 ∧ (codecRun s 1 j 0#64).wait = none ∧ (codecRun s 1 j 0#64).malfCount = 0 := by
  refine ⟨jobIn witClDev { witJob 8#512 .running with unit := some 63 }, _, ⟨rfl, by decide +kernel, rfl⟩, rfl, ?_, ?_⟩ <;> decide +kernel
theorem test_job_ends : ∃ (s : State) (j : Job), mget s.vat.jobs 1 = some j ∧ writesOut s (.job 1) = false ∧ mget s.ap.failed 4 = none ∧ j.core = none ∧ j.unit = none ∧ dInc j.desc = false :=
  ⟨jobIn witDev (witJob 0#512 .running), _, rfl, by decide +kernel⟩
theorem test_job_counts : ∃ (s : State) (j : Job), mget s.vat.jobs 1 = some j ∧ writesOut s (.job 1) = false ∧ mget s.ap.failed 4 = none ∧ j.core = none ∧ j.unit = none ∧
    dInc j.desc = true ∧ j.firmware = false ∧ setStands s j (dIncCtr j.desc) j.incSet := by
  let j : Job := { witJob (BitVec.ofNat 512 (2 ^ 12 + 2 ^ 48)) .running with incSet := some (1, 1) }
  exact ⟨{ jobIn witDev j with vat := { (jobIn witDev j).vat with sets := [(1, 1024)] } }, j, rfl, by decide +kernel, by decide +kernel, rfl, rfl, by decide +kernel, rfl,
    by unfold setStands; decide +kernel⟩
/-- A matrix job of one block, A, B and C in the scratch of cluster 63. -/
def matDesc (op m : Nat) : Desc := jobDesc op 0 (0xFFFF000000000000 + 0xFFFF000000001000 * 2 ^ 64 + 0xFFFF000000002000 * 2 ^ 128 + m * 2 ^ 192 + 2 ^ 209 + 32 * 2 ^ 226 +
  4 * 2 ^ 246 + 4 * 2 ^ 250 + 4 * 2 ^ 254 + 63 * 2 ^ 262)
theorem noneOf {α : Type} (r : State × Option α) (h : r.2.isNone = true) : ∃ t, r = (t, none) :=
  ⟨r.1, Prod.ext rfl (Option.isNone_iff_eq_none.mp h)⟩
def matJob (op : Nat) : Job := witJob (matDesc op 1) .started
theorem test_matrix_job : ∃ t, Started (jobIn witClDev (matJob 0x60)) 1 0x60 (matJob 0x60) ∧
    pickEngine (jobIn witClDev (matJob 0x60)) (matJob 0x60).fn (mCluster (matJob 0x60).desc) false = .inl 63 ∧
    matCheck (jobIn witClDev (matJob 0x60)) ((matJob 0x60).matAgent 1 63) (matJob 0x60).desc 63 = (t, none) := by
  obtain ⟨t, ht⟩ := noneOf (matCheck (jobIn witClDev (matJob 0x60)) ((matJob 0x60).matAgent 1 63) (matJob 0x60).desc 63) (by decide +kernel)
  exact ⟨t, ⟨rfl, by decide +kernel, rfl⟩, by decide +kernel, ht⟩
theorem test_matrix_done : ∃ (s : State) (j : Job), mget s.vat.jobs 1 = some j ∧ j.unit = some 63 ∧ j.isMatrix = true ∧ j.phase = .running ∧ (s.eng 63 false).mism < 2 ∧
    (engJobs s 63 false .running).isEmpty = false ∧
    (matRun s (j.matAgent 1 63) j.desc (tileCols (s.eng 63 false)) (s.cl 63).rs (matTiles j.desc (tileCols (s.eng 63 false)))).wait = none :=
  ⟨jobIn witClDev { witJob (matDesc 0x60 1) .running with unit := some 63 }, { witJob (matDesc 0x60 1) .running with unit := some 63 }, rfl, rfl, by decide +kernel, rfl, by decide +kernel,
    by decide +kernel, by decide +kernel⟩
theorem test_matrix_accept : ∃ (s : State) (j : Job), engJobs s 63 false .queued = [(1, j)] ∧ (s.cl 63).cstate = .inService ∧ underTest s 63 = false ∧
    (s.vat.jobs.filter (fun p => p.2.onEngine 63 false && p.2.accepted && p.2.core.isNone)).length < 8 :=
  ⟨jobIn witClDev { witJob (matDesc 0x60 1) .queued with unit := some 63 }, { witJob (matDesc 0x60 1) .queued with unit := some 63 }, by decide +kernel⟩
theorem test_repair : ∃ s : State, 2 ≤ (s.eng 63 false).mism ∧ (s.eng 63 false).row0 = none ∧ (s.eng 63 false).col0 = some 0 ∧ (s.eng 63 false).col1 = none :=
  ⟨{ fab := { engines := [(126, { mism := 2, col0 := some 0 })] } }, by decide +kernel⟩
theorem test_repair_last : ∃ s : State, 2 ≤ (s.eng 63 false).mism ∧ (s.eng 63 false).row0 = some 0 ∧ (s.eng 63 false).row1 = some 63 :=
  ⟨{ fab := { engines := [(126, { mism := 2, row0 := some 0, row1 := some 63 })] } }, by decide +kernel⟩
theorem test_cipher : ∀ e : Bool, ∃ (s : State) (j : Job) (k : KeySlot), Started s 1 0x70 j ∧ mget s.sec.keys (hIndex (dTarget j.desc)) = some k ∧ k.enc = e ∧
    xBlocks j.desc ≠ 0 ∧ xSHost j.desc = false := fun e =>
  ⟨{ jobIn witDev (witJob (jobDesc 0x70 (han 9) (2 ^ 128)) .started) with sec := { keys := [(1, { enc := e })] } }, _, { enc := e }, ⟨rfl, by decide +kernel, rfl⟩, by
    show mget [(1, ({ enc := e } : KeySlot))] (hIndex (dTarget (jobDesc 0x70 (han 9) (2 ^ 128)))) = _
    have h : hIndex (dTarget (jobDesc 0x70 (han 9) (2 ^ 128))) = 1 := by decide +kernel
    rw [h]; rfl, rfl, by decide +kernel, by decide +kernel⟩
theorem test_entropy_job : ∃ (s : State) (j : Job), s.vat.jobs.filter (fun p => decide (dOpcode p.2.desc = 0x76)) = [(1, j)] ∧ Started s 1 0x76 j ∧ xBlocks j.desc ≠ 0 :=
  ⟨jobIn witDev (witJob (jobDesc 0x76 0 (2 ^ 128)) .started), _, by decide +kernel, ⟨rfl, by decide +kernel, rfl⟩, by decide +kernel⟩

/-! ChannelsCreated: parameters of each class that pass, with room in the quota and a free slot. -/

/-- A body of CH_CREATE: the class, and the parameters from bit 64 on. -/
def chBody (cls p : Nat) : Nat := cls + p * 2 ^ 64
/-- A device with the channels of `witDev` and a page of shadow. -/
def witShadow : State := { witDev with lake := { fw := [{ kind := .shadow, base := 0, pages := 1 }] } }
theorem shadow_serves : Serves witShadow := serves_wit rfl

/-- What a CH_CREATE of class `cls` on the state `s` asks for: it is taken, its word names the class, the quota has room, and a slot is found. -/
def Creates (cls n : Nat) (s1 : State) (c : Cmd) (p : BitVec 256) : Prop :=
  ∃ b, FwHas 0x010 s1 c b ∧ p = params b ∧ createWord b cls = true ∧ quotaOk s1 c.req cls 1 = true ∧ newSlot s1 cls (fun _ => true) = some n

theorem creates (s : State) (cls p n : Nat) (h : Serves s) (h1 : createWord (mailBlk 0x010 (chBody cls p)).bits cls = true)
    (h2 : quotaOk (mailed s 0x010) (mailCmd 0x010).req cls 1 = true) (h3 : newSlot (mailed s 0x010) cls (fun _ => true) = some n) :
    Creates cls n (mailed s 0x010) (mailCmd 0x010) (params (mailBlk 0x010 (chBody cls p)).bits) :=
  ⟨_, fwHas s 0x010 (chBody cls p) h (by decide +kernel), rfl, h1, h2, h3⟩

def isInl {α β : Type} : α ⊕ β → Bool
  | .inl _ => true
  | .inr _ => false

theorem inl_some {α β γ : Type} {r : γ × (α ⊕ β)} (h : isInl r.2 = true) : ∃ t a, r = (t, .inl a) := by
  obtain ⟨t, x⟩ := r
  cases x <;> simp_all [isInl]

theorem test_create_work_ring : ∃ s c p cq, Creates 1 0 s c p ∧ ringFieldsOk p c.fn = true ∧ zeroBits p 255 224 = true ∧ bn p 223 160 = 0 ∧
    checkHandle s c.req (BitVec.ofNat 64 (bn p 159 96)) [2] = .inl cq :=
  ⟨_, _, _, 1, creates witShadow 1 (16 * 2 ^ 64 + han 2 * 2 ^ 96) 0 shadow_serves (by decide +kernel) (by decide +kernel) (by decide +kernel), by decide +kernel⟩
theorem test_create_completion_ring : ∃ s c p, Creates 2 0 s c p ∧ compFieldsOk p c.fn = true ∧ s.master c.fn = true ∧ ∃ s1, takeShadow s (32 * 2 ^ bn p 68 64) = some s1 :=
  ⟨_, _, _, creates witShadow 2 (4 * 2 ^ 64) 0 shadow_serves (by decide +kernel) (by decide +kernel) (by decide +kernel), by decide +kernel, by decide +kernel,
    Option.isSome_iff_exists.mp (by decide +kernel)⟩
theorem test_create_counter_set : ∃ s c p first, Creates 0xA 0 s c p ∧ zeroBits p 11 11 = true ∧ zeroBits p 255 18 = true ∧ bn p 10 0 = 1024 ∧
    placeCtrs s (bn p 17 12) (bn p 10 0) = some first :=
  ⟨_, _, _, 64512, creates witShadow 0xA (1024 + 63 * 2 ^ 12) 0 shadow_serves (by decide +kernel) (by decide +kernel) (by decide +kernel), by decide +kernel⟩
theorem test_create_trigger_list : ∃ s c p, Creates 0xB 0 s c p ∧ zeroBits p 31 5 = true ∧ zeroBits p 255 53 = true ∧ bn p 4 0 = 4 ∧ bn p 52 32 = 1 ∧
    (s.vat.trig.map (fun t => t.2.entries)).sum + bn p 52 32 ≤ 4194304 ∧
    ∃ s1, takeFwRegion (openSlot s 0xB 0 c.fn) (.triggers 0) (cdiv (64 * bn p 52 32 + 8 * 2 ^ bn p 4 0) pageBytes) = some s1 :=
  ⟨_, _, _, creates witShadow 0xB (4 + 2 ^ 32) 0 shadow_serves (by decide +kernel) (by decide +kernel) (by decide +kernel), by decide +kernel, by decide +kernel, by decide +kernel,
    by decide +kernel, by decide +kernel, Option.isSome_iff_exists.mp (by decide +kernel)⟩
/-- A window region of one page, whose key is drawn. -/
theorem test_create_region : ∃ s c p, Creates 8 0 s c p ∧ mrFieldsOk p = true ∧ mrWin p = true ∧ (mrOff p + mrPages p) * pageBytes ≤ winSize ∧ mrWorld p = false ∧
    mrProt p = false ∧ anyDegraded s = false :=
  ⟨_, _, _, creates witShadow 8 (0x80 + 2 ^ 64) 0 shadow_serves (by decide +kernel) (by decide +kernel) (by decide +kernel), by decide +kernel⟩
theorem test_create_storage_queue : ∃ s c p, Creates 4 0 s c p ∧ sqFieldsOk p c.fn = true ∧ hasQid s c.fn (bn p 175 160) = false ∧ bn p 175 160 = 0 ∧ s.master c.fn = true ∧
    ∃ s1, takeShadow s (16 * 2 ^ bn p 132 128) = some s1 :=
  ⟨_, _, _, creates witShadow 4 (4 * 2 ^ 128) 0 shadow_serves (by decide +kernel) (by decide +kernel) (by decide +kernel), by decide +kernel, by decide +kernel, by decide +kernel,
    by decide +kernel, Option.isSome_iff_exists.mp (by decide +kernel)⟩
theorem test_create_program : ∃ s c p, Creates 7 0 s c p ∧ optParamsOk p = true ∧ bn p 63 0 = 0 :=
  ⟨_, _, _, creates witShadow 7 (2 ^ 64 + 2 ^ 191) 0 shadow_serves (by decide +kernel) (by decide +kernel) (by decide +kernel), by decide +kernel⟩
theorem test_create_key : ∃ s c b, FwHas 0x010 s c b 0 ∧ createWord b 9 = true ∧ quotaOk s c.req 9 1 = true ∧ newSlot s 9 (fun _ => true) = some 0 ∧ keyFieldsOk (params b) = true ∧
    c.req.secure = false ∧ s.sec.lc ≠ 0 ∧ s.sec.lc ≠ 1 ∧ s.sec.lc ≠ 4 ∧ ∃ t key, makeKey s c (params b) none = (t, .inl key) :=
  ⟨_, _, _, fwHas { witShadow with sec := { entOk := true } } 0x010 (chBody 9 (2 * 2 ^ 66 + 2 ^ 68)) (serves_wit rfl) (by decide +kernel) 0, by decide +kernel, by decide +kernel, by decide +kernel,
    by decide +kernel, by decide +kernel, by decide +kernel, by decide +kernel, by decide +kernel, inl_some (by decide +kernel)⟩
theorem test_create_connection : ∃ s c p, Creates 3 0 s c p ∧ connFieldsOk s c.fn p = true ∧ bn p 54 52 = 0 ∧ pinnedAll s < 4096 ∧ ∃ t, spillOne s = some t :=
  ⟨_, _, _, creates witShadow 3 (2 ^ 192 + 2 ^ 208) 0 shadow_serves (by decide +kernel) (by decide +kernel) (by decide +kernel), by decide +kernel, by decide +kernel, by decide +kernel,
    Option.isSome_iff_exists.mp (by decide +kernel)⟩

/-! ChannelsModified, ChannelsDestroyed. -/

/-- What a CH_MODIFY of a channel of class `cls` asks for. -/
def Changes (cls : Nat) (s1 : State) (c : Cmd) (b : BitVec 32256) : Prop := FwHas 0x012 s1 c b ∧ bodyHandle s1 c [cls] b = .inl 1 ∧ bodyReserved b [] 320 = true

theorem changes (s : State) (cls p : Nat) (h : Serves s) (h1 : bodyHandle (mailed s 0x012) (mailCmd 0x012) [cls] (mailBlk 0x012 (han cls + p * 2 ^ 64)).bits = .inl 1)
    (h2 : bodyReserved (mailBlk 0x012 (han cls + p * 2 ^ 64)).bits [] 320 = true) :
    Changes cls (mailed s 0x012) (mailCmd 0x012) (mailBlk 0x012 (han cls + p * 2 ^ 64)).bits :=
  ⟨fwHas s 0x012 _ h (by decide +kernel), h1, h2⟩

theorem test_modify_ring : ∃ s c b q, Changes 2 s c b ∧ compFieldsOk (params b) (s.slot 2 1).owner = true ∧ mget s.vat.comp 1 = some q ∧ q.base = bn (params b) 63 0 ∧
    q.sizeLog2 = bn (params b) 68 64 ∧ q.dbPage = bn (params b) 87 72 :=
  ⟨_, _, _, witCq, changes witShadow 2 (0x2000 + 4 * 2 ^ 64 + 2 ^ 72 + 5 * 2 ^ 96) shadow_serves (by decide +kernel) (by decide +kernel), by decide +kernel, rfl, by decide +kernel⟩
theorem test_modify_fixed : ∃ s c b, FwHas 0x012 s c b ∧ bodyHandle s c [1, 9, 0xA, 0xB] b = .inl 1 :=
  ⟨_, _, _, fwHas witShadow 0x012 (han 1) shadow_serves (by decide +kernel), by decide +kernel⟩
theorem test_modify_region : ∃ s c b d, Changes 8 s c b ∧ mrFieldsOk (params b) = true ∧ mget s.lake.regions 1 = some d ∧ mrWorld (params b) = d.world ∧ mrProt (params b) = d.prot ∧
    mrWin (params b) = decide (winBase ≤ d.base) ∧ mrPages (params b) = d.pages ∧ mrGroup (params b) = d.pgroup ∧ mrPlace (params b) = d.place ∧ mrHome (params b) = d.home :=
  ⟨_, _, _, { pages := 1 }, changes { witDev with lake := { regions := [(1, { pages := 1 })] } } 8 (2 ^ 64) (serves_wit rfl) (by decide +kernel) (by decide +kernel), by decide +kernel, rfl,
    by decide +kernel⟩
theorem test_modify_program : ∃ s c b x, Changes 7 s c b ∧ optParamsOk (params b) = true ∧ mget s.par.progs 1 = some x ∧ bn (params b) 63 0 = x.code ∧ bn (params b) 67 64 = x.lib :=
  ⟨_, _, _, { code := 0, len := 0, lib := 1, clmask := 1#64 }, changes { witDev with par := { progs := [(1, { code := 0, len := 0, lib := 1, clmask := 1#64 })] } } 7 (2 ^ 64 + 2 ^ 191)
    (serves_wit rfl) (by decide +kernel) (by decide +kernel), by decide +kernel, rfl, by decide +kernel⟩
theorem test_modify_connection : ∃ s c b x, Changes 3 s c b ∧ connFieldsOk s (s.slot 3 1).owner (params b) = true ∧ s.conn 1 = some x ∧ (connOf (params b)).tc = x.tc ∧
    (connOf (params b)).mtu = x.mtu ∧ (connOf (params b)).cookie = x.cookie ∧ (connOf (params b)).peerNode = x.peerNode ∧ (connOf (params b)).peerIp = x.peerIp ∧
    (connOf (params b)).ipv4 = x.ipv4 ∧ (connOf (params b)).peerConn = x.peerConn ∧ (connOf (params b)).peerGen = x.peerGen := by
  let x : Conn := connOf (BitVec.ofNat 256 (2 ^ 192 + 2 ^ 208))
  exact ⟨_, _, _, x, changes { witDev with carm := { conns := [(1, x)] } } 3 (2 ^ 193 + 2 ^ 208)
    (serves_wit rfl) (by decide +kernel) (by decide +kernel), by decide +kernel, rfl, by decide +kernel⟩
theorem test_destroy : ∃ s c b, FwHas 0x011 s c b ∧ bodyHandle s c [1, 2, 3, 4, 5, 6, 7, 8, 9, 0xA, 0xB] b = .inl 1 ∧ bodyReserved b [] 64 = true ∧
    destroyBusy s (bn b 63 60) 1 = false ∧ (bn b 63 60 = 4 → isIo s 1 = true) :=
  ⟨_, _, _, fwHas witShadow 0x011 (han 1) shadow_serves (by decide +kernel), by decide +kernel⟩
theorem test_destroy_done : ∃ (s : State) (d : Dying), s.vat.dying.find? (fun x => x.cls == d.cls && x.index == d.index) = some d ∧ d.cls = 9 :=
  ⟨{ vat := { dying := [{ cls := 9, index := 1, owner := 0, cmd := 1 }] } }, { cls := 9, index := 1, owner := 0, cmd := 1 }, by decide⟩

/-! DispatchAndCombine: a queue of one expert, one choice and rows of 32 bfloat16 elements; its areas lie in a page of function 0. -/

@[irreducible] def witRec : BitVec 1024 := BitVec.ofNat 1024 (2 ^ 384 + 2 ^ 400 + 32 * 2 ^ 408 + 2 ^ 424 + 2 ^ 456 + 9 * 2 ^ 484 + 9 * 2 ^ 488 + 9 * 2 ^ 492 + 9 * 2 ^ 496 + 5 * 2 ^ 528)
def witWcfg : WCfg := ⟨witRec, [⟨0, 0, 1, 0, 0, 0, 0⟩], [⟨0#64, 0#64, 0#32, 0⟩]⟩
def witWjob : WJob := { n := 1, cfg := witWcfg, job := some 1, tokens := 1, route := 4096, counts := 0, logits := 64, src := 0 }
/-- Node 0 with a page of function 0, one cluster of firmware, a dispatch queue with some jobs, and job 1. -/
def witNear : State :=
  let c : Map Cluster := [(62, { cstate := .inService })]
  { witDev with fab := { clusters := c, node := 0 }, lake := { regions := [(1, { pages := 1 })] } }
def witWq (js : List WJob) (j : Job) : State := { jobIn witNear j with woad := { queues := [(1, { cfg := witWcfg, next := 2, jobs := js })] } }
def dispatchDesc : Desc := jobDesc 0x30 (han 5) (64 * 2 ^ 64 + 4096 * 2 ^ 128 + 2 ^ 192)

theorem test_dispatch : ∃ s job jb x s1, jobOf s job 0x30 .started = some jb ∧ s.wq (hIndex (dTarget jb.desc)) = some x ∧ dispatchBody x.cfg.rec_ jb.desc ∧
    firstAddr jb.req (dispatchAddrs x.cfg.rec_ jb.desc) s = (s1, none) ∧ bn jb.desc 399 384 ≠ 0 := by
  let j : Job := witJob dispatchDesc .started
  obtain ⟨s1, h⟩ := noneOf (firstAddr j.req (dispatchAddrs witRec j.desc) (witWq [] j)) (by decide +kernel)
  exact ⟨witWq [] j, 1, j, { cfg := witWcfg, next := 2, jobs := [] }, s1, by decide +kernel, by decide +kernel, by unfold dispatchBody; decide +kernel, h, by decide +kernel⟩

def ReadRes.clean : ReadRes → Bool
  | .ok _ [] => true
  | _ => false
theorem cleanOk {r : State × ReadRes} (h : r.2.clean = true) : ∃ s bs, r = (s, .ok bs []) := by
  obtain ⟨s, x⟩ := r
  match x, h with
  | .ok bs [], _ => exact ⟨s, bs, rfl⟩
def WSrc.isOk : WSrc → Bool
  | .ok _ _ _ _ => true
  | _ => false
theorem srcOk {r : State × WSrc} (h : r.2.isOk = true) : ∃ s t w l f, r = (s, .ok t w l f) := by
  obtain ⟨s, x⟩ := r
  cases x <;> simp_all [WSrc.isOk]
theorem test_dispatch_held : ∃ s queue x j0 s1 s2 toks raw logits fl bb, s.wq queue = some x ∧ heldJob s x = some j0 ∧ j0.refused = none ∧ j0.tokens ≠ 0 ∧
    readBias s (s.slot 5 queue).owner { j0 with v := s.ctr (wRetCtr j0.cfg.rec_ + j0.n % 2) } = (s1, .ok bb []) ∧
    readSources s1 (s.slot 5 queue).owner { j0 with v := s.ctr (wRetCtr j0.cfg.rec_ + j0.n % 2) } = (s2, .ok toks raw logits fl) := by
  let s := witWq [witWjob] (witJob dispatchDesc .held)
  let j : WJob := { witWjob with v := s.ctr (wRetCtr witWjob.cfg.rec_ + witWjob.n % 2) }
  obtain ⟨s1, bb, hb⟩ := cleanOk (r := readBias s (s.slot 5 1).owner j) (by decide +kernel)
  obtain ⟨s2, t, w, l, f, h⟩ := srcOk (r := readSources (readBias s (s.slot 5 1).owner j).1 (s.slot 5 1).owner j) (by decide +kernel)
  refine ⟨s, 1, { cfg := witWcfg, next := 2, jobs := [witWjob] }, witWjob, s1, s2, t, w, l, f, bb, rfl, by decide +kernel, rfl, by decide, hb, ?_⟩
  rw [hb] at h
  exact h
theorem test_dispatch_waits : ∃ (s : State) (queue : Nat) (x : WQueue), s.wq queue = some x ∧ x.jobs ≠ [] ∧
    ∀ j ∈ x.jobs, j.sent = false → ∃ k ∈ x.jobs, k.n + 2 = j.n ∧ wjobGone s k = false :=
  ⟨witWq [{ witWjob with n := 0, sent := true }, { witWjob with n := 2 }] (witJob dispatchDesc .held), 1, _, rfl, by decide, by decide +kernel⟩
theorem test_place : ∃ (c : WCfg) (p p' : Placing) (x : WExpert), c.experts[0]? = some x ∧ mgetD p.used 0 0 < x.cap ∧ x.cap ≤ mgetD p'.used 0 0 ∧ wPolicy c.rec_ = 0 :=
  ⟨witWcfg, {}, { used := [(0, 1)] }, _, rfl, by decide, by decide, by decide +kernel⟩
theorem test_dispatch_done : ∃ s queue id x j s1 s2, s.wq queue = some x ∧ x.jobs.find? (fun j => j.sent && !j.finished) = some j ∧ j.job = some id ∧ windowBusy s (.job id) = false ∧ writesOut s (.job id) = false ∧
    takeSends Poster.woad j.sends (applyNotes s) = (s1, [], []) ∧ j.failed = none ∧ j.counts = 0 ∧
    agentWrite s1 { req := { fn := (s.slot 5 queue).owner }, work := .job id } j.route j.routes = (s2, none) := by
  let s := witWq [{ witWjob with sent := true, routes := leBytes 8 1 }] (witJob dispatchDesc .held)
  obtain ⟨s2, h⟩ := noneOf (agentWrite s { req := { fn := 0 }, work := .job 1 } 4096 (leBytes 8 1)) (by decide +kernel)
  exact ⟨s, 1, 1, _, { witWjob with sent := true, routes := leBytes 8 1 }, s, s2, rfl, rfl, rfl, rfl, by decide +kernel, rfl, rfl, rfl, h⟩

def recsOk : (State × Option (List (Nat × BitVec 512)) ⊕ Status) → Bool
  | .inl (_, some _) => true
  | _ => false
theorem someOf {α : Type} (r : State × Option α) (h : r.2.isSome = true) : ∃ s a, r = (s, some a) := by
  obtain ⟨s, x⟩ := r
  obtain ⟨a, rfl⟩ := Option.isSome_iff_exists.mp h
  exact ⟨s, a, rfl⟩
def returnDesc : Desc := jobDesc 0x32 (han 5) (9 * 2 ^ 108 + 64 * 2 ^ 128)
theorem test_return : ∃ s job c jb q cfg x recs s1 s2 s3, jobOf s job 0x32 .started = some jb ∧ s.wq (hIndex (dTarget jb.desc)) = some q ∧ cfg = mgetD s.woad.retCfg job q.cfg ∧
    cfg.experts[bn jb.desc 297 288]? = some x ∧ woadBodyOk jb.desc = true ∧ x.rank = wMyRank cfg.rec_ ∧ rowBytes (bn jb.desc 303 300) (wH cfg.rec_) ≤ bn jb.desc 351 320 ∧
    readRecords (returnTaken s job jb cfg) { req := jb.req, work := .job job } cfg.rec_ x (bn jb.desc 287 256 % 2) (List.range (wRanks cfg.rec_)) = .inl (s1, some recs) ∧
    agentRead s1 { req := jb.req, work := .job job } (bn jb.desc 255 192) 0 = (s2, .ok [] []) ∧ codecCluster s2 = (s3, some c) ∧
    ((recs.filter (fun p => recordFits (bn jb.desc 287 256) (bn jb.desc 297 288) p.1 p.2)).filter (fun p => bn p.2 15 0 != 0 && !bt p.2 28)) = [] := by
  let j : Job := witJob returnDesc .started
  let r := readRecords (returnTaken (witWq [] j) 1 j witWcfg) { req := j.req, work := .job 1 } witRec ⟨0, 0, 1, 0, 0, 0, 0⟩ (bn j.desc 287 256 % 2) (List.range (wRanks witRec))
  have h : (match r with
    | .inl (s1, some recs) => (codecCluster s1).2.isSome && ((recs.filter (fun p => recordFits (bn j.desc 287 256) (bn j.desc 297 288) p.1 p.2)).filter (fun p => bn p.2 15 0 != 0 && !bt p.2 28)).isEmpty
    | _ => false) = true := by decide +kernel
  match hr : r, h with
  | .inl (s1, some recs), h =>
    obtain ⟨h1, h2⟩ := Bool.and_eq_true_iff.mp h
    obtain ⟨s3, c, h3⟩ := someOf (codecCluster s1) h1
    exact ⟨witWq [] j, 1, c, j, { cfg := witWcfg, next := 2, jobs := [] }, witWcfg, ⟨0, 0, 1, 0, 0, 0, 0⟩, recs, s1, s1, s3, by decide +kernel, by decide +kernel, rfl, by decide +kernel, by decide +kernel,
      by decide +kernel, by decide +kernel, hr, if_pos rfl, h3, List.isEmpty_iff.mp h2⟩
theorem test_return_done : ∃ (s s1 : State) (job : Nat) (w : WReturn), s.woad.returns.find? (fun w => w.job == job) = some w ∧ takeSends Poster.woad w.sends s = (s1, [], []) ∧
    windowBusy s1 (.job job) = false ∧ writesOut s1 (.job job) = false :=
  ⟨{ witNear with woad := { returns := [⟨1, [], 0, .success, 0⟩] } }, _, 1, _, rfl, rfl, rfl, by decide +kernel⟩
theorem test_combine : ∃ s job jb x j, jobOf s job 0x31 .started = some jb ∧ woadBodyOk jb.desc = true ∧ s.wq (hIndex (dTarget jb.desc)) = some x ∧
    x.jobs.find? (fun j => j.n % 2 ^ 32 == bn jb.desc 287 256 && j.refused.isNone && j.combine.isNone && !j.combined) = some j ∧ ¬ (j.tokens = 0 ∧ j.finished = true) ∧ (j.late && !j.lost) = false := by
  let j : Job := witJob (jobDesc 0x31 (han 5) (2 ^ 64)) .started
  exact ⟨witWq [witWjob] j, 1, j, { cfg := witWcfg, next := 2, jobs := [witWjob] }, witWjob, by decide +kernel, by decide +kernel, by decide +kernel, by decide +kernel, by decide, rfl⟩
def combineRuns (s : State) (g : Agent) (j : WJob) (dst : Nat) : Bool :=
  match agentRead s g j.route (8 * wK j.cfg.rec_ * j.tokens) with
  | (s1, .ok bs []) => match codecCluster s1 with
    | (s2, some c) =>
      let t := (List.range j.tokens).foldl (fun t i => tileToken g j.cfg.rec_ j.bank ((List.range (wK j.cfg.rec_)).map (fun k => leAt bs (8 * (wK j.cfg.rec_ * i + k)) 8)) t)
        { s := s2, rs := (s2.cl c).rs }
      t.stop.isNone && t.wait.isNone && decide ((agentWriteN (countOdd (t.s.setCl c { t.s.cl c with rs := t.rs }) c t.fl) g dst t.out).2 = (none, 0))
    | _ => false
  | _ => false
theorem combineRuns_some {s : State} {g : Agent} {j : WJob} {dst : Nat} (h : combineRuns s g j dst = true) : ∃ s1 bs s2 c s4,
    agentRead s g j.route (8 * wK j.cfg.rec_ * j.tokens) = (s1, .ok bs []) ∧ codecCluster s1 = (s2, some c) ∧
    let t := (List.range j.tokens).foldl (fun t i => tileToken g j.cfg.rec_ j.bank ((List.range (wK j.cfg.rec_)).map (fun k => leAt bs (8 * (wK j.cfg.rec_ * i + k)) 8)) t)
      { s := s2, rs := (s2.cl c).rs }
    t.stop = none ∧ t.wait = none ∧ agentWriteN (countOdd (t.s.setCl c { t.s.cl c with rs := t.rs }) c t.fl) g dst t.out = (s4, none, 0) := by
  unfold combineRuns at h
  split at h
  · rename_i s1 bs h1
    split at h
    · rename_i s2 c h2
      simp only [Bool.and_eq_true, Option.isNone_iff_eq_none, decide_eq_true_eq] at h
      exact ⟨s1, bs, s2, c, _, h1, h2, h.1.1, h.1.2, Prod.ext rfl h.2⟩
    · simp at h
  · simp at h
theorem test_combine_starts : ∃ s queue x j id jb, s.wq queue = some x ∧ x.jobs.find? (combineDue s) = some j ∧ j.combine = some id ∧ mget s.vat.jobs id = some jb ∧ j.lost = false ∧
    j.tokens ≠ 0 ∧ combineRuns s { req := jb.req, work := .job id } j (bn jb.desc 255 192) = true := by
  let j : WJob := { witWjob with finished := true, combine := some 1 }
  let jb : Job := witJob (jobDesc 0x31 (han 5) 8192) .held
  exact ⟨witWq [j] jb, 1, { cfg := witWcfg, next := 2, jobs := [j] }, j, 1, jb, by decide +kernel, by decide +kernel, rfl, rfl, rfl, by decide, by decide +kernel⟩
theorem test_combine_late : ∃ (s : State) (queue : Nat) (x : WQueue) (j : WJob), s.wq queue = some x ∧ x.jobs.find? (combineOverdue s) = some j ∧ j.combine = none :=
  by
  let j : WJob := { witWjob with finished := true, awaited := 1 }
  exact ⟨witWq [j] (witJob dispatchDesc .held), 1, { cfg := witWcfg, next := 2, jobs := [j] }, j, rfl, by decide +kernel, rfl⟩

/-! Collectives: a group of one member; the areas lie in the page of function 0. OptimizerSteps: a program of library 1 on cluster 63. -/

@[irreducible] def witBrec : BitVec 1024 := BitVec.ofNat 1024 (32768 * 2 ^ 64 + 2 ^ 192 + 3 * 2 ^ 240 + 3 * 2 ^ 244 + 3 * 2 ^ 248 + 2 ^ 272 + 64 * 2 ^ 288)
def witBop : BOp := { j := 0, job := 1, opc := 0x40, n := 32 }
def witGroup (ops : List BOp) : BGroup := { cfg := ⟨witBrec, [⟨0#64, 0#64, 0, 0#32, 0⟩]⟩, next := 1, ops := ops }
def witBg (g : BGroup) (j : Job) : State := { jobIn witNear j with blend := { groups := [(1, g)] } }
def collDesc (opc : Nat) : Desc := jobDesc opc (han 6) (4096 * 2 ^ 64 + 32 * 2 ^ 128 + 8 * 2 ^ 160 + 8 * 2 ^ 164)

def collJob (opc : Nat) : Job := witJob (collDesc opc) .started
def collAreas (r : BitVec 1024) (opc : Nat) : List (Nat × Bool × Nat × Nat) :=
  [(1, false, bn (collJob opc).desc 319 256, rowBytes (bn (collJob opc).desc 359 356) (dstElems r opc (bn (collJob opc).desc 351 320)))] ++
    (if bEf r then [(2, true, bRes r, 2 * bResb r)] else [])
def srcFits (s : State) (j : Job) (n : Nat) (l : List (Nat × Bool × Nat × Nat)) : Bool :=
  (checkSrc s j 1 n).2 == (none, false) && (firstAddr j.req l (checkSrc s j 1 n).1).2.isNone
theorem srcFits_some {s : State} {j : Job} {n : Nat} {l : List (Nat × Bool × Nat × Nat)} (h : srcFits s j n l = true) :
    ∃ s1 s2, checkSrc s j 1 n = (s1, none, false) ∧ firstAddr j.req l s1 = (s2, none) := by
  obtain ⟨h1, h2⟩ := Bool.and_eq_true_iff.mp h
  exact ⟨_, _, Prod.ext rfl (eq_of_beq h1), Prod.ext rfl (Option.isNone_iff_eq_none.mp h2)⟩
theorem collFits_all : ∀ opc ∈ [0x40, 0x41, 0x42], srcFits (witBg (witGroup []) (collJob opc)) (collJob opc) (srcElems (witGroup []).cfg.rec_ opc (bn (collJob opc).desc 351 320))
    (collAreas (witGroup []).cfg.rec_ opc) = true := by decide +kernel
theorem collJobs_all : ∀ opc ∈ [0x40, 0x41, 0x42], jobOf (witBg (witGroup []) (collJob opc)) 1 opc .started = some (collJob opc) ∧
    collectiveBehind (witBg (witGroup []) (collJob opc)) 1 (collJob opc) = false ∧ (witBg (witGroup []) (collJob opc)).bg (hIndex (dTarget (collJob opc).desc)) = some (witGroup []) ∧
    blendBodyOk (collJob opc).desc = true ∧ bn (collJob opc).desc 351 320 ≤ bMaxn (witGroup []).cfg.rec_ ∧ (witGroup []).broken = false ∧ (witGroup []).early = [] := by decide +kernel
theorem test_collectives : ∀ opc ∈ [0x40, 0x41, 0x42], ∃ s job jb g s1 s2, jobOf s job opc .started = some jb ∧ collectiveBehind s job jb = false ∧ s.bg (hIndex (dTarget jb.desc)) = some g ∧
    blendBodyOk jb.desc = true ∧ bn jb.desc 351 320 ≤ bMaxn g.cfg.rec_ ∧ g.broken = false ∧ g.early = [] ∧
    checkSrc s jb job (srcElems g.cfg.rec_ opc (bn jb.desc 351 320)) = (s1, none, false) ∧
    firstAddr jb.req ([(1, false, bn jb.desc 319 256, rowBytes (bn jb.desc 359 356) (dstElems g.cfg.rec_ opc (bn jb.desc 351 320)))] ++
      (if bEf g.cfg.rec_ then [(2, true, bRes g.cfg.rec_, 2 * bResb g.cfg.rec_)] else [])) s1 = (s2, none) := by
  intro opc h
  obtain ⟨s1, s2, h1, h2⟩ := srcFits_some (collFits_all opc h)
  obtain ⟨k1, k2, k3, k4, k5, k6, k7⟩ := collJobs_all opc h
  unfold collAreas at h2
  generalize collJob opc = jb at *
  generalize witGroup [] = g at *
  exact ⟨_, 1, jb, g, s1, s2, k1, k2, k3, k4, k5, k6, k7, h1, h2⟩
theorem test_collective_behind : ∃ s job jb, jobOf s job 0x40 .started = some jb ∧ collectiveBehind s job jb = true := by
  let j : Job := witJob (collDesc 0x40) .started
  exact ⟨{ witBg (witGroup []) j with vat := { (witBg (witGroup []) j).vat with jobs := [(1, j), (2, j)] } }, 2, j, by decide +kernel⟩
theorem test_collective_broken : ∀ a ∈ ([[], [(1, 5)]] : List (Map Nat)), ∃ s job jb g, jobOf s job 0x40 .started = some jb ∧ collectiveBehind s job jb = false ∧
    s.bg (hIndex (dTarget jb.desc)) = some g ∧ blendBodyOk jb.desc = true ∧ bn jb.desc 351 320 ≤ bMaxn g.cfg.rec_ ∧ g.broken = true ∧ mget g.aborts g.next = mget a 1 := by
  intro a h
  refine ⟨witBg { witGroup [] with broken := true, aborts := a } (collJob 0x40), 1, collJob 0x40, { witGroup [] with broken := true, aborts := a }, ?_⟩
  revert a
  decide +kernel
theorem test_collective_starts : ∀ opc ∈ [0x40, 0x42], ∃ (s : State) (group : Nat) (g : BGroup) (o : BOp) (jb : Job), s.bg group = some g ∧ g.ops.find? (fun o => !o.started) = some o ∧
    o.opc = opc ∧ releasedAll g o.j = true ∧ residualsBusy g o = false ∧ areasWait s g.cfg.rec_ = false ∧ mget s.vat.jobs o.job = some jb ∧
    (readInput s (s.slot 6 group).owner o.job jb.desc (srcElems g.cfg.rec_ o.opc o.n)).1.wait = none ∧
    (readInput s (s.slot 6 group).owner o.job jb.desc (srcElems g.cfg.rec_ o.opc o.n)).1.stop = none ∧
    (codecCluster (readInput s (s.slot 6 group).owner o.job jb.desc (srcElems g.cfg.rec_ o.opc o.n)).1.s).2.isSome = true := by
  intro opc h
  let j : Job := witJob (collDesc opc) .held
  let o : BOp := { witBop with opc := opc }
  refine ⟨witBg (witGroup [o]) j, 1, witGroup [o], o, j, ?_⟩
  revert opc
  decide +kernel
theorem test_collective_held : ∃ (s : State) (group : Nat) (g : BGroup) (o : BOp), s.bg group = some g ∧ g.ops.find? (fun o => !o.started) = some o ∧ releasedAll g o.j = false := by
  let o : BOp := { witBop with j := 2 }
  let g : BGroup := { witGroup [o] with cfg := ⟨BitVec.ofNat 1024 (2 * 2 ^ 192), []⟩ }
  exact ⟨witBg g (witJob 0#512 .held), 1, g, o, by decide +kernel⟩
theorem test_collective_timeout : ∃ (s : State) (group : Nat) (g : BGroup) (o : BOp), s.bg group = some g ∧ g.ops.find? (fun o => o.started && !o.written) = some o ∧ bTimeout g.cfg.rec_ ≠ 0 := by
  let o : BOp := { witBop with started := true }
  exact ⟨witBg (witGroup [o]) (witJob 0#512 .held), 1, witGroup [o], o, by decide +kernel⟩
theorem test_group_breaks : ∃ (s : State) (g : BGroup), s.bg 1 = some g ∧ g.ops = [] := ⟨witBg (witGroup []) (witJob 0#512 .held), _, rfl, rfl⟩

def optDesc (op : Nat) : Desc := if op = 0x50 then jobDesc 0x50 (han 7) (4096 * 2 ^ 64 + 8192 * 2 ^ 128 + 32 * 2 ^ 192 + 2 ^ 224 + 8 * 2 ^ 256)
  else jobDesc 0x51 (han 7) (4096 + 8192 * 2 ^ 64 + 32 * 2 ^ 128 + 2 ^ 160)
def witProg (lib : Nat) : OptProg := { code := 16384, len := 64, lib := lib, clmask := 0xFFFFFFFFFFFFFFFF#64 }
def witOpt (lib : Nat) (j : Job) : State :=
  { jobIn witNear j with fab := { witCl.fab with node := 0 }, par := { progs := [(1, witProg lib)] } }
theorem optReady {s : State} {op job : Nat} {jb : Job} {p : OptProg} (h1 : jobOf s job op .started = some jb) (h2 : mget s.par.progs (hIndex (dTarget jb.desc)) = some p)
    (h3 : optBodyOk jb.desc = true) (h5 : stepWaits s jb.fn p = false ∧ (optBody jb.desc).n ≠ 0 ∧ optWaits s { req := jb.req, work := .job job } p (optBody jb.desc) = false)
    (h4 : (match (optAddrs s { req := jb.req, work := .job job } p.lib op (optBody jb.desc)) with
      | (s1, .inl x) => srecOk p.lib (optBody jb.desc).n x && !(stepClusters s1 jb.fn p).isEmpty
      | _ => false) = true) : ∃ x cs s1, OptReady s op job jb p x cs s1 := by
  split at h4
  · rename_i s1 x h
    simp only [Bool.and_eq_true, Bool.not_eq_true', List.isEmpty_eq_false_iff] at h4
    exact ⟨x, _, s1, h1, h2, h3, h5.1, h5.2.1, h5.2.2, h, rfl, h4.1, h4.2⟩
  · simp at h4
theorem test_opt_ready : ∀ op ∈ [0x50, 0x51], ∀ lib ∈ [0, 1], ∃ s jb x cs s1, OptReady s op 1 jb (witProg lib) x cs s1 := by
  intro op h lib h'
  let j : Job := witJob (optDesc op) .started
  refine ⟨witOpt lib j, j, optReady ?_ ?_ ?_ ?_ ?_⟩ <;> revert op lib <;> decide +kernel

/-- The step of library 1 goes on: its clusters are free, its gradient is read; and the user's program has its image. -/
theorem progImage_some {s : State} {r : Req} {job : Nat} {p : OptProg} (h : isInl (progImage s r job p).2 = true) : ∃ t image, progImage s r job p = (t, .inl image) := inl_some h
theorem test_opt_runs : ∀ lib ∈ [0, 1], ∃ (s1 s2 : State) (jb : Job) (cs : List Nat) (image : List Byte), cs ≠ [] ∧ cs.any (fun c => (coresOf c).any (fun k => coreBusy (s1.core k)) || runsStep s1 c) = false ∧
    progImage (cs.foldl powerUp s1) jb.req 1 (witProg lib) = (s2, .inl image) := by
  intro lib h
  have h1 : isInl (progImage ([63].foldl powerUp (witOpt lib (witJob (optDesc 0x50) .started))) (witJob (optDesc 0x50) .started).req 1 (witProg lib)).2 = true := by revert lib; decide +kernel
  have h2 : [63].any (fun c => (coresOf c).any (fun k => coreBusy ((witOpt lib (witJob (optDesc 0x50) .started)).core k)) || runsStep (witOpt lib (witJob (optDesc 0x50) .started)) c) = false := by
    revert lib; decide +kernel
  obtain ⟨t, i, h3⟩ := progImage_some h1
  exact ⟨_, t, _, [63], i, by decide, h2, h3⟩
theorem test_opt_reads : ∃ (s : State) (jb : Job), (readGrad s { req := jb.req, work := .job 1 } (optBody jb.desc)).1.wait = none ∧
    (readGrad s { req := jb.req, work := .job 1 } (optBody jb.desc)).1.stop = none ∧ (readGrad s { req := jb.req, work := .job 1 } (optBody jb.desc)).1.pois = none ∧ (optBody jb.desc).n = 32 := by
  refine ⟨witOpt 1 (witJob (optDesc 0x50) .started), witJob (optDesc 0x50) .started, ?_⟩
  decide +kernel
def sgdGoes (s : State) (jb : Job) (b : OBody) (x : BitVec 512) (vals : List (Option Nat)) : Bool :=
  let g : Agent := { req := jb.req, work := .job 1 }
  match readArrays g [(b.state + arrayOff b.n 0 ((b.step - 1) % 2), b.n), (b.state + arrayOff b.n 1 ((b.step - 1) % 2), b.n)] s with
  | (s1, .inl ([w, m], false)) =>
    let es := List.zipWith (sgdElem ⟨x, 1, b.step⟩) (vals.map (·.getD 0)) ((List.zip w m).map (fun p => ({ w := p.1, m := p.2 } : Elem)))
    (writeArrays g [(b.state + arrayOff b.n 0 (b.step % 2), es.map (·.w)), (b.state + arrayOff b.n 1 (b.step % 2), es.map (·.m))] s1).2.isNone
  | _ => false
/-- The arrays of a step of SGD are read and written. -/
theorem test_sgd_goes : ∃ (s : State) (jb : Job) (b : OBody) (x : BitVec 512) (vals : List (Option Nat)), vals.any (·.isNone) = false ∧ vals.length = b.n ∧ oPush x = 0 ∧ b.n ≠ 0 ∧ sgdGoes s jb b x vals = true :=
  ⟨witOpt 1 (witJob (optDesc 0x50) .started), witJob (optDesc 0x50) .started, optBody (optDesc 0x50), 0#512, List.replicate 32 (some 0x3F800000), by decide +kernel⟩
theorem test_opt_empty : ∀ op ∈ [0x50, 0x51], ∃ (s : State) (jb : Job) (p : OptProg), jobOf s 1 op .started = some jb ∧ mget s.par.progs (hIndex (dTarget jb.desc)) = some p ∧ optBodyOk jb.desc = true ∧
    stepWaits s jb.fn p = false ∧ (optBody jb.desc).n = 0 := by
  intro op h
  let d : Desc := if op = 0x50 then jobDesc 0x50 (han 7) (4096 * 2 ^ 64 + 8192 * 2 ^ 128 + 2 ^ 224 + 8 * 2 ^ 256) else jobDesc 0x51 (han 7) (4096 + 8192 * 2 ^ 64 + 2 ^ 160)
  refine ⟨witOpt 1 (witJob d .started), witJob d .started, witProg 1, ?_⟩
  revert op
  decide +kernel
/-- A push of eight-bit fractions or of binary32 words to the page of function 0. -/
def pushGoes (s : State) (r : Req) (x : BitVec 512) (ws : List Nat) : Bool :=
  match preparePush s r [63] x ws with
  | (s3, .inl (bs, _)) => (agentWrite s3 { req := r, work := .job 1 } (oPush x) bs).2.isNone
  | _ => false
theorem test_pushes : ∃ (s : State) (r : Req) (x : BitVec 512) (ws : List Nat), oPush x ≠ 0 ∧ ws.length = 32 ∧ pushGoes s r x ws = true := by
  refine ⟨witOpt 1 (witJob (optDesc 0x51) .started), { fn := 0 }, BitVec.ofNat 512 (64 * 2 ^ 256 + 8 * 2 ^ 320), List.replicate 32 0x3F800000, ?_⟩
  decide +kernel

/-! ParityGroups: group 1 of four members with one parity share, on node 0. -/

def pgBody : Nat := 1 + 4 * 2 ^ 16 + 2 ^ 24 + 2 ^ 64 + 2 ^ 144 + 2 * 2 ^ 160 + 3 * 2 ^ 176
def witPg : PGroup := { pgroup := 1, w := 4, p := 1, member := 0, owner := 0, size := 1, nodes := [0, 1, 2, 3] }
def witPar (g : PGroup) : State := { wit with fab := { node := 0 }, lake := { fw := [{ kind := .reserve, base := 0, pages := 4 }] }, par := { groups := [(0, g)] } }
theorem test_pg_join : ∃ s c b, FwHas 0x020 s c b ∧ fromPf0 c = true ∧ pgFieldsOk b = true ∧ parityMin (max 1 s.fab.size) ≤ pgP b ∧ groupOf s (bn b 15 0) = none ∧
    (List.range 16).find? (fun n => (s.pgroup n).isNone) = some 0 ∧ (placeShare s (sharePages (pgP b) (pgW b - pgP b) (pgS b))).isSome = true :=
  ⟨_, _, _, fwHas { witPar witPg with par := {} } 0x020 pgBody (serves_wit rfl) (by decide +kernel), by decide +kernel⟩
theorem test_pg_joins : ∃ (s : State) (g : PGroup), s.pgroup 0 = some g ∧ g.state = .joining := ⟨witPar witPg, witPg, rfl, rfl⟩
theorem test_pg_leave : ∃ s c b n g, FwHas 0x021 s c b ∧ fromPf0 c = true ∧ bodyReserved b [] 16 = true ∧ groupOf s (bn b 15 0) = some (n, g) ∧ g.cmd = 0 ∧
    s.lake.regions.any (fun r => r.2.prot && r.2.pgroup == g.pgroup) = false :=
  ⟨_, _, _, 0, { witPg with state := .normal }, fwHas (witPar { witPg with state := .normal }) 0x021 1 (serves_wit rfl) (by decide +kernel), by decide +kernel⟩
theorem test_par_epoch : ∀ st ∈ [PgState.normal, .degraded], ∀ e ∈ [1, 2], ∃ (s : State) (jb : Job) (g : PGroup), jobOf s 1 0x52 .started = some jb ∧ epochBodyOk jb.desc = true ∧
    groupOf s (bn jb.desc 207 192) = some (0, g) ∧ g.owner = jb.fn ∧ g.state = st ∧ bn jb.desc 319 256 = e ∧ g.openE = 1 ∧ g.closing = none := by
  intro st h e h'
  let j : Job := witJob (jobDesc 0x52 0 (1 + e * 2 ^ 64)) .started
  refine ⟨{ jobIn witDev j with par := { groups := [(0, { witPg with state := st })] } }, j, { witPg with state := st }, ?_⟩
  revert st e
  decide +kernel
theorem test_epoch_commit : ∃ (s : State) (g : PGroup) (job : Nat), (paritySettle s).pgroup 0 = some g ∧ g.closing = some job ∧ g.state = .normal ∧
    (paritySettle s).par.deltas.any (fun d => d.slot == 0 && decide (d.epoch ≤ g.openE - 1)) = false :=
  ⟨witPar { witPg with state := .normal, closing := some 1, openE := 2 }, { witPg with state := .normal, closing := some 1, openE := 2 }, 1, by decide +kernel⟩
theorem test_pg_spare : ∃ s c b, FwHas 0x022 s c b ∧ fromPf0 c = true ∧ pgFieldsOk b = true ∧ groupOf s (bn b 15 0) = none ∧ parityMin (max 1 s.fab.size) ≤ pgP b ∧
    (pgNodes b).getD (bn b 35 32) 0xFFFF = s.fab.node ∧ (placeShare s (sharePages (pgP b) (pgW b - pgP b) (pgS b))).isSome = true :=
  ⟨_, _, _, fwHas { witPar witPg with par := {} } 0x022 pgBody (serves_wit rfl) (by decide +kernel), by decide +kernel⟩
theorem test_pg_survivor : ∃ s c b g g1, FwHas 0x022 s c b ∧ fromPf0 c = true ∧ pgFieldsOk b = true ∧ groupOf s (bn b 15 0) = some (0, g) ∧ pgW b = g.w ∧ pgP b = g.p ∧ pgS b = g.size ∧
    pgNodes b = g.nodes ∧ bn b 35 32 ≠ g.member ∧ g.cmd = 0 ∧ (rebuildBegins s 0 (bn b 35 32) []).pgroup 0 = some g1 ∧ g1.state ≠ .lost := by
  let g : PGroup := { witPg with state := .normal }
  have h : ((rebuildBegins (mailed (witPar g) 0x022) 0 (bn (mailBlk 0x022 (pgBody + 2 * 2 ^ 32)).bits 35 32) []).pgroup 0).any (fun x => decide (x.state ≠ .lost)) = true := by decide +kernel
  obtain ⟨g1, h1, h2⟩ := Option.any_eq_true .. |>.mp h
  exact ⟨_, _, _, g, g1, fwHas (witPar g) 0x022 (pgBody + 2 * 2 ^ 32) (serves_wit rfl) (by decide +kernel), by decide +kernel, by decide +kernel, by decide +kernel, by decide +kernel, by decide +kernel,
    by decide +kernel, by decide +kernel, by decide +kernel, rfl, h1, of_decide_eq_true h2⟩
def witRb (spare : Bool) : PGroup := { witPg with state := .rebuilding, spare := spare, reported := true, lost := 4#16 }
theorem rebuilds_all : ∀ spare : Bool, (witPar (witRb spare)).pgroup 0 = some (witRb spare) ∧ (witRb spare).state = .rebuilding ∧ (witRb spare).spare = spare ∧
    (if (witRb spare).spare then !(witRb spare).reported else (witPar (witRb spare)).par.deltas.any (fun d => d.slot == 0)) = false := by decide +kernel
theorem test_rebuild_done (spare : Bool) : ∃ (s : State) (g : PGroup), s.pgroup 0 = some g ∧ g.state = .rebuilding ∧ g.spare = spare ∧
    (if g.spare then !g.reported else s.par.deltas.any (fun d => d.slot == 0)) = false := ⟨_, _, rebuilds_all spare⟩
def witLost (two : Bool) : PGroup := { witPg with state := .normal, lost := if two then 4#16 else 0#16 }
theorem lost_all : ∀ two : Bool, (witPar (witLost two)).pgroup 0 = some (witLost two) ∧ (witLost two).lost.getLsbD 1 = false ∧ (witLost two).state = .normal ∧
    (witLost two).closing = none ∧ (witLost two).cmd = 0 ∧ (witLost two).p = 1 ∧ (popcount 16 (witLost two).lost.toNat = if two then 1 else 0) := by decide +kernel
theorem test_member_lost (two : Bool) : ∃ (s : State) (g : PGroup), s.pgroup 0 = some g ∧ g.lost.getLsbD 1 = false ∧ g.state = .normal ∧ g.closing = none ∧ g.cmd = 0 ∧ g.p = 1 ∧
    popcount 16 g.lost.toNat = if two then 1 else 0 := ⟨_, _, lost_all two⟩

/-! TransportOperations, ConnectionTimersAndSettings, PacketsThatArrive, ConnectionsInTime: connection 1 to node 1, its context on die. -/

def witConn : Conn := { connOf (BitVec.ofNat 256 (1 + 2 ^ 55 + 2 ^ 192 + 5 * 2 ^ 208)) with state := .established }
def witCn (c : Conn) (s : State) : State := { s with fab := { s.fab with node := 0 }, carm := { conns := [(1, c)] }, lake := { regions := [(1, { pages := 1 })] } }
def sendJob (op : Nat) : Job := witJob (jobDesc op (han 3) (64 + 2 ^ 48 * 2 ^ 64 + 8 * 2 ^ 160)) .started
def witSend (op : Nat) (c : Conn) : State := witCn c (jobIn witDev (sendJob op))

theorem sends_all : ∀ op ∈ [0x10, 0x11, 0x12, 0x13, 0x14, 0x15, 0x16, 0x17], ∀ st ∈ [CnState.connecting, .established, .error],
    jobOf (witSend op { witConn with state := st }) 1 op .started = some (sendJob op) ∧ transportBehind (witSend op { witConn with state := st }) 1 (sendJob op) = false ∧
    (witSend op { witConn with state := st }).conn (hIndex (dTarget (sendJob op).desc)) = some { witConn with state := st } ∧
    tRaddr (sendJob op).desc / 2 ^ 48 = ({ witConn with state := st } : Conn).peerNode ∧ tLen (sendJob op).desc ≠ 0 ∧
    (localRange (witSend op { witConn with state := st }) (sendJob op) (if op = 0x15 ∨ op = 0x16 then (if tLaddr (sendJob op).desc = 0 then 0 else 8) else tLen (sendJob op).desc)).2 = none ∧
    ({ witConn with state := st } : Conn).state = st ∧ ({ witConn with state := st } : Conn).tier ≠ .host ∧ ({ witConn with state := st } : Conn).waiting = [] ∧
    ({ witConn with state := st } : Conn).outReads < 64 ∧ ({ witConn with state := st } : Conn).recvq.length < 4096 := by decide +kernel
theorem test_transport : ∀ op ∈ [0x10, 0x11, 0x12, 0x13, 0x14, 0x15, 0x16, 0x17], ∀ st ∈ [CnState.connecting, .established, .error], ∃ s s1 j c,
    jobOf s 1 op .started = some j ∧ transportBehind s 1 j = false ∧ s.conn (hIndex (dTarget j.desc)) = some c ∧ tRaddr j.desc / 2 ^ 48 = c.peerNode ∧ tLen j.desc ≠ 0 ∧
    localRange s j (if op = 0x15 ∨ op = 0x16 then (if tLaddr j.desc = 0 then 0 else 8) else tLen j.desc) = (s1, none) ∧ c.state = st ∧ c.tier ≠ .host ∧ c.waiting = [] ∧ c.outReads < 64 ∧
    c.recvq.length < 4096 := by
  intro op h st h'
  obtain ⟨h1, h2, h3, h4, h5, h6, h7⟩ := sends_all op h st h'
  obtain ⟨s1, h8⟩ := noneOf _ (Option.isNone_iff_eq_none.mpr h6)
  exact ⟨_, s1, _, _, h1, h2, h3, h4, h5, h8, h7⟩
theorem test_transport_behind : ∃ s j, jobOf s 2 0x10 .started = some j ∧ transportBehind s 2 j = true := by
  refine ⟨{ witSend 0x10 witConn with vat := { (witSend 0x10 witConn).vat with jobs := [(1, sendJob 0x13), (2, sendJob 0x10)] } }, sendJob 0x10, ?_⟩
  decide +kernel
theorem test_read_nothing : ∃ s s1 j c, jobOf s 1 0x13 .started = some j ∧ transportBehind s 1 j = false ∧ s.conn (hIndex (dTarget j.desc)) = some c ∧ tRaddr j.desc / 2 ^ 48 = c.peerNode ∧
    tLen j.desc = 0 ∧ localRange s j 0 = (s1, none) := by
  let j : Job := witJob (jobDesc 0x13 (han 3) (64 + 2 ^ 48 * 2 ^ 64)) .started
  obtain ⟨s1, h⟩ := noneOf (localRange (witCn witConn (jobIn witDev j)) j 0) (by decide +kernel)
  exact ⟨witCn witConn (jobIn witDev j), s1, j, witConn, by decide +kernel, by decide +kernel, by decide +kernel, by decide +kernel, by decide +kernel, h⟩

theorem test_connection : ∀ st ∈ [CnState.connecting, .established, .error], ∃ (s : State) (c : Conn), s.conn 1 = some c ∧ c.state = st ∧ pcoreRuns s 3 = true ∧ hasNode s = true ∧ sliceUp s 1 = true ∧
    0 < c.toAck ∧ c.unacked ≠ [] ∧ pKeepalive c.prof ≠ 0 ∧ pFw c.prof = false := by
  intro st h
  refine ⟨witCn { witConn with state := st, toAck := 1, unacked := [(0, { paylen := 8, sentAt := 0, path := 0 })], prof := ({} : CcProf).val + BitVec.ofNat 192 (2 ^ 184) } wit,
    { witConn with state := st, toAck := 1, unacked := [(0, { paylen := 8, sentAt := 0, path := 0 })], prof := ({} : CcProf).val + BitVec.ofNat 192 (2 ^ 184) }, ?_⟩
  revert st
  decide +kernel
theorem test_slice_down : ∃ (s : State) (c : Conn), s.conn 1 = some c ∧ sliceUp s 1 = false := by
  refine ⟨{ witCn witConn wit with fab := { node := 0, regions := (List.range 16).map (fun r => (r, { rstate := .resetting })) } }, witConn, ?_⟩
  decide +kernel
theorem test_parked : ∃ (s : State) (p : ParkedPkt) (c : Conn), s.carm.parked = [p] ∧ s.conn p.conn = some c :=
  ⟨{ witCn witConn wit with carm := { conns := [(1, witConn)], parked := [⟨1, ⟨0, 0, false, [], none⟩, 0⟩] } }, _, witConn, rfl, by decide +kernel⟩
theorem test_carm_spill : ∃ s c b, FwHas 0x030 s c b ∧ fromPf0 c = true ∧ bodyReserved b [] 96 = true ∧ bn b 63 0 % 4096 = 0 ∧ bn b 95 64 ≤ 15728640 ∧ tierCount s .host = 0 :=
  ⟨_, _, _, fwHas wit 0x030 (4096 + 15728640 * 2 ^ 64) wit_serves (by decide +kernel), by decide +kernel⟩
theorem test_cc_prof : ∃ (s : State) (v w0 w1 : W64), mget s.carm.prof 15 = some { w0 := some w0, w1 := some w1 } ∧ 4096 ≤ bn w0 63 32 ∧ 1 ≤ bn w1 31 24 ∧ bn w1 63 49 = 0 ∧ 1 ≤ bn v 15 0 ∧
    1 ≤ bn v 31 16 ∧ 1 ≤ bn v 47 32 ∧ 1 ≤ bn v 55 48 :=
  ⟨{ carm := { prof := [(15, { w0 := some (BitVec.ofNat 64 (4096 * 2 ^ 32)), w1 := some (BitVec.ofNat 64 (2 ^ 24)) })] } }, BitVec.ofNat 64 (1 + 2 ^ 16 + 2 ^ 32 + 2 ^ 48),
    BitVec.ofNat 64 (4096 * 2 ^ 32), BitVec.ofNat 64 (2 ^ 24), by decide +kernel⟩
theorem test_cc_prof_low : ∃ (s : State) (w0 w1 : W64), mget s.carm.prof 15 = some { w0 := some w0, w1 := some w1 } ∧ bn w0 63 32 < 4096 :=
  ⟨{ carm := { prof := [(15, { w0 := some 0#64, w1 := some 0#64 })] } }, 0#64, 0#64, by decide +kernel⟩

/-- A packet of connection 1 from node 1: a header of its TYPE with PSN `psn`, an extension with KIND `kind` that names the peer's end, and no payload. -/
def witPkt (ty kind psn : Nat) : RxPkt :=
  let h : Hdr := { ty := ty, tc := 0, dconn := 1, dgen := 1, psn := psn, cookie := 5, snode := 1, tstamp := 9 }
  ⟨0, 49152, false, beBytes 32 h.bits ++ beBytes (extLen ty) (if ty = 7 then kind * 2 ^ 120 + 2 ^ 74 else if ty = 2 then kind * 2 ^ 88 else 0), none⟩
def witRx (ty kind psn : Nat) (c : Conn) : State := { witCn c witDev with carm := { conns := [(1, c)], rx := [witPkt ty kind psn] } }
theorem taken_all : ∀ x ∈ [(0, 0), (1, 0), (2, 0), (3, 0), (4, 0), (5, 0), (6, 0), (7, 1), (7, 2), (7, 3), (7, 4), (7, 5)],
    takePacket (witRx x.1 x.2 0 witConn) x.1 x.2 = some (witPkt x.1 x.2 0, { witRx x.1 x.2 0 witConn with carm := { (witRx x.1 x.2 0 witConn).carm with rx := [] } }) ∧
    hasNode (witRx x.1 x.2 0 witConn) = true ∧ pcoreRuns (witRx x.1 x.2 0 witConn) 3 = true ∧ (witRx x.1 x.2 0 witConn).conn 1 = some witConn ∧
    (readHdr (witPkt x.1 x.2 0).bytes).ty = x.1 ∧ (readHdr (witPkt x.1 x.2 0).bytes).dconn = 1 ∧ sliceUp (witRx x.1 x.2 0 witConn) 1 = true ∧ witConn.tier = .die ∧
    ((witRx x.1 x.2 0 witConn).slot 3 1).live = true ∧ ((witRx x.1 x.2 0 witConn).slot 3 1).gen = (readHdr (witPkt x.1 x.2 0).bytes).dgen ∧
    witConn.cookie.toNat = (readHdr (witPkt x.1 x.2 0).bytes).cookie ∧ witConn.peerNode = (readHdr (witPkt x.1 x.2 0).bytes).snode ∧ witConn.peerIp = (witPkt x.1 x.2 0).srcIp ∧
    witConn.state = .established ∧ (x.1 = 7 → bn (extOf (witPkt x.1 x.2 0).bytes) 127 120 = x.2 ∧ bn (extOf (witPkt x.1 x.2 0).bytes) 111 88 = witConn.peerConn ∧
      bn (extOf (witPkt x.1 x.2 0).bytes) 87 76 = witConn.peerGen ∧ (readHdr (witPkt x.1 x.2 0).bytes).tc = witConn.tc ∧ bn (extOf (witPkt x.1 x.2 0).bytes) 75 74 = witConn.mtu) := by decide +kernel
/-- A packet of every TYPE, and of every KIND, is taken. -/
theorem test_packets_taken : ∀ x ∈ [(0, 0), (1, 0), (2, 0), (3, 0), (4, 0), (5, 0), (6, 0), (7, 1), (7, 2), (7, 3), (7, 4), (7, 5)], ∃ s p c s1 c1, PacketTaken s x.1 x.2 1 none p c s1 c1 ∧
    (x.1 = 7 → bn (extOf p.bytes) 127 120 = x.2 ∧ bn (extOf p.bytes) 111 88 = c.peerConn ∧ bn (extOf p.bytes) 87 76 = c.peerGen ∧ (readHdr p.bytes).tc = c.tc ∧ bn (extOf p.bytes) 75 74 = c.mtu) := by
  intro x h
  obtain ⟨h1, h2, h3, h4, h5, h6, h7, h8, h9, h10, h11, h12, h13, h14, h15⟩ := taken_all x h
  exact ⟨_, _, _, _, _, ⟨_, _, h1, rfl, h2, fun _ _ => h3, h4, h5, h6, h7, h8, h9, h10, h11, h12, h13, .inl h14, rfl, rfl⟩, h15⟩
/-- PSNs at EPSN, ahead within reach, ahead out of reach, and behind. -/
theorem test_psn_distances : ∀ x ∈ [(0, 0), (1, 1), (256, 256), (257, 257), (2 ^ 31 - 1, 2 ^ 31 - 1), (2 ^ 31, 2 ^ 31), (2 ^ 32 - 1, 2 ^ 32 - 1)],
    ((readHdr (witPkt 0 0 x.1).bytes).psn + 2 ^ 32 - witConn.epsn % 2 ^ 32) % 2 ^ 32 = x.2 := by decide +kernel
theorem test_stage_room : ∃ s c, stageRoom s c 56 = true ∧ mget c.staged (c.epsn + 256) = none := ⟨witCn witConn wit, witConn, by decide +kernel⟩
theorem test_nack_reasons : bn (extOf (witPkt 2 3 0).bytes) 95 88 = 3 ∧ bn (extOf (witPkt 2 1 0).bytes) 95 88 = 1 := by decide +kernel
theorem test_context_arrives : ∃ (s : State) (c : Conn), s.conn 1 = some c ∧ c.tier = .near ∧ c.fetching = true ∧ sliceUp s 1 = true ∧ s.carm.parked = [] := by
  refine ⟨witCn { witConn with tier := .near, fetching := true } wit, { witConn with tier := .near, fetching := true }, ?_⟩
  decide +kernel
theorem test_carm_node_lost : ∃ s c b, FwHas 0x031 s c b ∧ fromPf0 c = true ∧ bodyReserved b [] 16 = true := ⟨_, _, _, fwHas wit 0x031 1 wit_serves (by decide +kernel), by decide +kernel⟩

/-! AcceleratorLinks, AcceleratorTransactions: port 7, its lanes good. -/

theorem crcStep64_lt (poly : Nat) (hp : poly < 2 ^ 64) : ∀ n c, c < 2 ^ 64 → crcStep64 poly n c < 2 ^ 64
  | 0, _, h => h
  | n + 1, c, h => by
    unfold crcStep64
    apply crcStep64_lt poly hp n
    split
    · exact Nat.xor_lt_two_pow (Nat.mod_lt _ (by decide)) hp
    · next hb => rw [Nat.testBit_eq_decide_div_mod_eq, decide_eq_true_eq] at hb; omega

theorem crc64_lt (bs : List Byte) : crc64 bs < 2 ^ 64 := by
  refine Nat.xor_lt_two_pow ?_ (by decide)
  suffices ∀ c, c < 2 ^ 64 → crc64Go bs c < 2 ^ 64 from this _ (by decide)
  induction bs with
  | nil => exact fun c h => h
  | cons b bs ih => exact fun c h => ih _ (crcStep64_lt _ (by decide) 8 _ (Nat.xor_lt_two_pow h (by have := b.isLt; omega)))

theorem leBytes_length (n x : Nat) : (leBytes n x).length = n := by
  induction n generalizing x with
  | zero => rfl
  | succ n ih => simp [leBytes, ih]

theorem leNat_leBytes (n x : Nat) (h : x < 256 ^ n) : leNat (leBytes n x) = x := by
  induction n generalizing x with
  | zero => simp at h; subst h; rfl
  | succ n ih =>
    rw [leBytes, leNat, ih _ (by rw [Nat.pow_succ] at h; omega), BitVec.toNat_ofNat]
    omega

theorem slice_append (b t : List Byte) (lo n : Nat) (h : lo + n ≤ b.length) : slice (b ++ t) lo n = slice b lo n := by
  have h1 : ((b ++ t).drop lo).take n = (b.drop lo).take n := by
    rw [List.drop_append_of_le_length (by omega), List.take_append_of_le_length (by rw [List.length_drop]; omega)]
  rw [slice, slice, h1]

/-- What the first 248 bytes of a flit say. -/
def bodyRead (b : List Byte) : Option FlitIn :=
  let h : W64 := BitVec.ofNat 64 (leAt b 0 8)
  let kind := bn h 3 0
  if !zeroBits h 19 18 || !zeroBits h 63 44 || decide (2 < kind) || (kind != 1 && (bn h 5 4 != 0 || bn h 43 32 != 0)) then none
  else some ⟨kind, bn h 5 4, bn h 9 6, bn h 15 10, bn h 17 16, bn h 31 20, bn h 43 32, slice b 8 240⟩

theorem readFlit_crc (b : List Byte) (h : b.length = 248) : readFlit (b ++ leBytes 8 (crc64 b)) = bodyRead b := by
  have hs : slice (b ++ leBytes 8 (crc64 b)) 248 8 = leBytes 8 (crc64 b) := by
    rw [slice, List.drop_left' h, List.take_of_length_le (by rw [leBytes_length]), leBytes_length]
    simp
  unfold readFlit bodyRead leAt
  rw [hs, leNat_leBytes 8 _ (crc64_lt b), List.take_left' h, List.length_append, h, leBytes_length, slice_append b _ 0 8 (by omega), slice_append b _ 8 240 (by omega)]
  simp

def bodyOf (kind vc seq : Nat) (payload : List Byte) : List Byte :=
  leBytes 8 (kind + vc * 2 ^ 4 + 15 * 2 ^ 6 + 0xFFF * 2 ^ 20 + seq * 2 ^ 32) ++ slice payload 0 240
def flitOf (kind vc seq : Nat) (payload : List Byte) : List Byte := bodyOf kind vc seq payload ++ leBytes 8 (crc64 (bodyOf kind vc seq payload))

theorem readFlit_flitOf (kind vc seq : Nat) (payload : List Byte) : readFlit (flitOf kind vc seq payload) = bodyRead (bodyOf kind vc seq payload) := by
  refine readFlit_crc _ ?_
  rw [bodyOf, List.length_append, leBytes_length, slice, List.length_append, List.length_replicate, List.length_take]
  omega

theorem flitOf_any {kind vc seq : Nat} {payload : List Byte} {q : FlitIn → Bool} (h : (bodyRead (bodyOf kind vc seq payload)).any q = true) :
    ∃ f, readFlit (flitOf kind vc seq payload) = some f ∧ q f = true := by
  rw [readFlit_flitOf]
  exact Option.any_eq_true .. |>.mp h

def witAp (x : ApPort) : State := { witDev with fab := { node := 0 }, ap := { ports := [(7, x)] }, lake := { regions := [(1, { pages := 1 })] } }
def upPort : ApPort := { pstate := .half, enabled := true, present := true, lanes := List.range 32, mapped := true, good := BitVec.ofNat 66 (2 ^ 66 - 1), credit := [(0, 4), (1, 4), (2, 4), (3, 4)], owner := some 0 }
def trainingPort : ApPort := { upPort with pstate := .training, lanes := List.range 64 }
theorem test_link_states : (witAp upPort).port 7 = upPort ∧ upPort.up = true ∧ upPort.fast = false ∧ trainingPort.pstate = .training ∧
    (goodLanes ((witAp upPort).setPort 7 { upPort with good := 0#66 }) 7).length < 32 ∧
    32 ≤ (goodLanes ((witAp upPort).setPort 7 { upPort with good := BitVec.ofNat 66 (2 ^ 64 - 1) }) 7).length ∧ 5 ∈ upPort.lanes ∧ upPort.lanes.findIdx? (· == 5) = some 5 ∧
    standbyLanes (witAp upPort) 7 ≠ [] := by decide +kernel
theorem test_lane_data : (dataLanes (witAp { trainingPort with mapped := false }) 7).length = 64 ∧ (dataLanes (witAp { upPort with everHalf := true }) 7).length = 32 := by decide +kernel
theorem test_fast_retrain : ∃ (s : State) (x : ApPort), s.port 7 = x ∧ x.up = true ∧ x.fast = true ∧ 32 ≤ (goodLanes s 7).length := ⟨witAp { upPort with fast := true }, { upPort with fast := true }, by decide +kernel⟩
/-- CAPS with the least credits on each VC, and with too few on VC 3. -/
def capsData (c3 : Nat) : List Byte := leBytes 8 4 ++ leBytes 8 (apLeast 0 + apLeast 1 * 2 ^ 16 + apLeast 2 * 2 ^ 32 + c3 * 2 ^ 48) ++ List.replicate 12 0#8
theorem test_caps : ∃ f, readFlit (flitOf 2 0 0 (capsData (apLeast 3))) = some f ∧ f.kind = 2 ∧ ctlOk 4 20 f = true ∧ ∀ vc, vc < 4 → apLeast vc ≤ leAt f.payload (8 + 2 * vc) 2 := by
  have h : (bodyRead (bodyOf 2 0 0 (capsData (apLeast 3)))).any (fun f => decide (f.kind = 2) && ctlOk 4 20 f && (List.range 4).all (fun vc => decide (apLeast vc ≤ leAt f.payload (8 + 2 * vc) 2))) = true := by decide +kernel
  obtain ⟨f, h1, h2⟩ := flitOf_any h
  simp only [Bool.and_eq_true, decide_eq_true_eq, List.all_eq_true, List.mem_range] at h2
  exact ⟨f, h1, h2.1.1, h2.1.2, h2.2⟩
theorem test_caps_low : ∃ f, readFlit (flitOf 2 0 0 (capsData 0)) = some f ∧ f.kind = 2 ∧ ctlOk 4 20 f = true ∧ leAt f.payload 14 2 < apLeast 3 := by
  have h : (bodyRead (bodyOf 2 0 0 (capsData 0))).any (fun f => decide (f.kind = 2) && ctlOk 4 20 f && decide (leAt f.payload 14 2 < apLeast 3)) = true := by decide +kernel
  obtain ⟨f, h1, h2⟩ := flitOf_any h
  simp only [Bool.and_eq_true, decide_eq_true_eq] at h2
  exact ⟨f, h1, h2.1.1, h2.1.2, h2.2⟩
theorem taken_some {s : State} {kind vc seq : Nat} {payload : List Byte} {q : FlitIn → Bool} (h : (s.port 7).up = true ∧ (s.port 7).fast = false) (hq : (bodyRead (bodyOf kind vc seq payload)).any q = true) :
    ∃ f s1, FlitTaken s 7 (flitOf kind vc seq payload) f s1 ∧ q f = true := by
  obtain ⟨f, h1, h2⟩ := flitOf_any hq
  exact ⟨f, _, ⟨by decide, h.1, h.2, h1, rfl⟩, h2⟩
/-- NAK of SEQ 9, the eighth of one SEQ, LANE_SWAP of lane 5 to lane 40 and its answer. -/
theorem test_naks : ∃ s f s1, FlitTaken s 7 (flitOf 2 0 0 (leBytes 8 1 ++ leBytes 2 9)) f s1 ∧ f.kind = 2 ∧ ctlOk 1 2 f = true ∧ leAt f.payload 8 2 < 4096 ∧ (s1.port 7).nakGot.1 ≠ leAt f.payload 8 2 := by
  obtain ⟨f, s1, h, h2⟩ := taken_some (s := witAp upPort) (kind := 2) (vc := 0) (seq := 0) (payload := leBytes 8 1 ++ leBytes 2 9)
    (q := fun f => decide (f.kind = 2) && ctlOk 1 2 f && decide (leAt f.payload 8 2 = 9) && decide ((applyFlit ((witAp upPort).port 7) f).nakGot.1 ≠ 9)) (by decide +kernel) (by decide +kernel)
  simp only [Bool.and_eq_true, decide_eq_true_eq] at h2
  obtain ⟨⟨⟨h3, h4⟩, h5⟩, h6⟩ := h2
  refine ⟨_, f, s1, h, h3, h4, by omega, ?_⟩
  rw [h.2.2.2.2, h5]
  rwa [show (((witAp upPort).setPort 7 (applyFlit ((witAp upPort).port 7) f)).port 7) = applyFlit ((witAp upPort).port 7) f from mgetD_mset_same ..]
theorem test_swaps : ∀ code ∈ [2, 3], ∃ f, readFlit (flitOf 2 0 0 (leBytes 8 code ++ leBytes 2 (5 + 256 * 40))) = some f ∧ f.kind = 2 ∧ ctlOk code 2 f = true ∧ leAt f.payload 8 1 = 5 ∧
    leAt f.payload 9 1 = 40 ∧ leAt f.payload 8 2 = 5 + 256 * 40 := by
  have h : ∀ code ∈ [2, 3], (bodyRead (bodyOf 2 0 0 (leBytes 8 code ++ leBytes 2 (5 + 256 * 40)))).any (fun f => decide (f.kind = 2) && ctlOk code 2 f && decide (leAt f.payload 8 1 = 5) &&
    decide (leAt f.payload 9 1 = 40) && decide (leAt f.payload 8 2 = 5 + 256 * 40)) = true := by decide +kernel
  intro code hc
  obtain ⟨f, h1, h2⟩ := flitOf_any (h code hc)
  simp only [Bool.and_eq_true, decide_eq_true_eq] at h2
  exact ⟨f, h1, h2.1.1.1.1, h2.1.1.1.2, h2.1.1.2, h2.1.2, h2.2⟩
theorem test_ap_commands : ∃ s c b, FwHas 0x040 s c b ∧ fromPf0 c = true ∧ bodyReserved b [(15, 3)] 29 = true ∧ bn b 2 0 = 7 :=
  ⟨_, _, _, fwHas wit 0x040 (7 + 2 ^ 16) wit_serves (by decide +kernel), by decide +kernel⟩
theorem test_ap_retrain : ∃ s c b, FwHas 0x041 s c b ∧ fromPf0 c = true ∧ bodyReserved b [] 3 = true ∧ (s.port (bn b 2 0)).pstate ≠ .disabled ∧ (s.port (bn b 2 0)).pstate ≠ .retired :=
  ⟨_, _, _, fwHas (witAp upPort) 0x041 7 (serves_wit rfl) (by decide +kernel), by decide +kernel⟩
theorem test_ap_enable : ∀ on ∈ [0, 1], ∃ s c b, FwHas 0x042 s c b ∧ fromPf0 c = true ∧ bodyReserved b [(7, 3)] 9 = true ∧ (s.port (bn b 2 0)).pstate ≠ .retired ∧
    bt b 8 = decide (on = 1) ∧ (s.port (bn b 2 0)).enabled = decide (on = 0) := by
  intro on h
  refine ⟨mailed (witAp { upPort with enabled := decide (on = 0) }) 0x042, _, _, fwHas (witAp { upPort with enabled := decide (on = 0) }) 0x042 (7 + on * 256) (serves_wit rfl) (by decide +kernel), ?_⟩
  revert on
  decide +kernel

/-- Transaction flits in order, out of order and behind, on VC 0 and on VC 3, and one with a wrong CRC. -/
theorem test_flits : ∀ x ∈ [(0, 0), (3, 0), (0, 1), (0, 2047), (0, 4095)], ∃ f, readFlit (flitOf 1 x.1 x.2 []) = some f ∧ f.kind = 1 ∧ f.vc = x.1 ∧ f.seq = x.2 := by
  have h : ∀ x ∈ [(0, 0), (3, 0), (0, 1), (0, 2047), (0, 4095)], (bodyRead (bodyOf 1 x.1 x.2 [])).any (fun f => decide (f.kind = 1) && decide (f.vc = x.1) && decide (f.seq = x.2)) = true := by decide +kernel
  intro x hx
  obtain ⟨f, h1, h2⟩ := flitOf_any (h x hx)
  simp only [Bool.and_eq_true, decide_eq_true_eq] at h2
  exact ⟨f, h1, h2.1.1, h2.1.2, h2.2⟩
theorem test_flit_bad : readFlit [] = none := by decide
/-- A transaction of each type waits on port 7, and is taken. -/
def rxOf (ty addr len : Nat) : RxTxn := { vc := 0, seq := 0, ttype := ty, tag := 3, len := len, status := 1, addr := BitVec.ofNat 64 addr, data := List.replicate len 0#8 }
def witTxn (t : RxTxn) (o : Option Nat) : State := witAp { upPort with inbox := [t], owner := o }
theorem test_txns_taken : ∀ ty ∈ [1, 2, 3, 4, 5, 6, 7, 8], ∃ s1, TxnTaken (witTxn (rxOf ty 64 8) (some 0)) 7 ty (rxOf ty 64 8) s1 := by
  have h : ∀ ty ∈ [1, 2, 3, 4, 5, 6, 7, 8], firstTxn ty [] ((witTxn (rxOf ty 64 8) (some 0)).port 7).inbox = some (rxOf ty 64 8) := by decide +kernel
  exact fun ty ht => ⟨_, by decide, h ty ht, rfl⟩
theorem test_txn_access : writeWaits (witTxn (rxOf 1 64 8) (some 0)) 64 8 = false ∧ accessWaits (witTxn (rxOf 2 64 8) (some 0)) 64 8 = false ∧ inTierN 64 8 = true ∧
    lakeCheck (witTxn (rxOf 2 64 8) (some 0)) { fn := 0 } 64 8 = none ∧ lakeCheck (witTxn (rxOf 2 64 8) (some 0)) { fn := 9 } 64 8 = some .accessDenied ∧
    lakeCheck (witTxn (rxOf 2 64 8) (some 0)) { fn := 0 } (2 ^ 40) 8 = some .bounds := by decide +kernel
theorem test_txn_counter : ∀ b : Bool, ∃ s : State, ownsCtr s 0 64 = b := by
  intro b
  refine ⟨{ witTxn (rxOf 5 64 8) (some 0) with vat := { witDev.vat with sets := if b then [(1, 1024)] else [] } }, ?_⟩
  revert b
  decide +kernel
theorem test_txn_post : ∃ (s : State) (a : W64), checkHandle s { fn := 0 } a [1] = .inl 1 := ⟨witAp upPort, hanOf 1, by decide +kernel⟩
theorem test_post_starts : ∃ (s : State) (w : PostWait) (k : WorkRing), firstPost s [] (s.port 7).posts = some w ∧ mget s.vat.work w.ring = some k ∧ k.halted = false :=
  ⟨witAp { upPort with posts := [⟨1, 1, 0#512⟩] }, ⟨1, 1, 0#512⟩, witRing, by decide +kernel⟩
theorem test_answers : ∀ ty ∈ [3, 4], ∃ s q s2, AnswerTaken s 7 ty (rxOf ty 64 8) q s2 ∧ q.work.key = some 4 ∧ q.fence = false ∧ q.len = 8 := by
  have h : ∀ ty ∈ [3, 4], firstTxn ty [] ((witAp { upPort with inbox := [rxOf ty 64 8], reqs := [{ tag := 3, work := .job 1, addr := 64, len := 8 }] }).port 7).inbox = some (rxOf ty 64 8) ∧
      (((witAp { upPort with inbox := [rxOf ty 64 8], reqs := [{ tag := 3, work := .job 1, addr := 64, len := 8 }] }).setPort 7 (freeFlits
        { (witAp { upPort with inbox := [rxOf ty 64 8], reqs := [{ tag := 3, work := .job 1, addr := 64, len := 8 }] }).port 7 with
          inbox := ((witAp { upPort with inbox := [rxOf ty 64 8], reqs := [{ tag := 3, work := .job 1, addr := 64, len := 8 }] }).port 7).inbox.erase (rxOf ty 64 8) } (rxOf ty 64 8).vc (rxOf ty 64 8).frees)).port 7).reqs.find?
        (fun r => r.tag == (rxOf ty 64 8).tag) = some { tag := 3, work := .job 1, addr := 64, len := 8 } := by decide +kernel
  intro ty ht
  obtain ⟨h1, h2⟩ := h ty ht
  exact ⟨_, _, _, ⟨_, ⟨by decide, h1, rfl⟩, h2, rfl⟩, by decide, rfl, rfl⟩
theorem test_late_answer : ∃ (s : State), ∀ r ∈ (s.port 7).reqs, r.tag ≠ 3 ∧ (3, 100) ∈ (s.port 7).lateTags := ⟨witAp { upPort with lateTags := [(3, 100)] }, by decide +kernel⟩
theorem test_transmits : nextVc { upPort with tx := [(3, [{ bytes := [0#8] }])] } = some 3 ∧ nextVc upPort = none := by decide +kernel

/-! EthernetPortsAndCartridges, WeldScheduling, FrameClassification: port 0 with half-ports lit by emitters 0 to 7 of the cartridge of engine 0. -/

def litCart : Cart := { cstate := 2, latch := true, data := some ⟨[], []⟩, assign := (List.range 8).map (fun i => (i, i)) }
def witEth (x : EthPort) (k : Cart) : State := { witDev with net := { eth := [(0, x)], carts := [(0, k)] } }

theorem test_port_cfg : ∀ v ∈ [0, 1, 2], ∃ (s : State) (w : W32), w.toNat % 4 = ethMode s 0 ∧ ethMode s 0 = v ∧ (s.eth 0).lstate ≠ 5 ∧ ∃ u : W32, u.toNat % 4 ≠ ethMode s 0 := by
  intro v h
  refine ⟨(witEth { lstate := 4 } litCart).setReg (ETH_PORT_CFG 0) v, BitVec.ofNat 32 v, ?_, ?_, ?_, BitVec.ofNat 32 (v + 1), ?_⟩ <;> revert v <;> decide +kernel
theorem test_ports_up : ∀ x ∈ [(3, 0), (4, 1), (4, 2), (4, 3)], ({ lstate := x.1, pstate := x.2 } : EthPort).up = true := by decide
theorem test_preempt_changes : ∀ b : Bool, ethPreempt ((witEth { lstate := 4 } litCart).setReg (ETH_PORT_CFG 0) (if b then 4 else 0)) 0 = b := by decide +kernel
theorem test_relight : (halfLit ((witEth { lstate := 4 } litCart).setReg (ETH_PORT_CFG 0) 1) 0 0).isSome = true ∧ portLit ((witEth { lstate := 1 } litCart).setReg (ETH_PORT_CFG 0) 1) 0 = true ∧
    halfLit ((witEth { lstate := 4 } {}).setReg (ETH_PORT_CFG 0) 1) 0 0 = none := by decide +kernel
theorem test_link_down : ∃ x : EthPort, x.up = false ∧ x.lstate = 2 := ⟨{ lstate := 2 }, by decide⟩
theorem test_ts_host : ∀ b : Bool, ethTshost ((witEth { lstate := 4 } litCart).setReg (ETH_PORT_CFG 0) (if b then 32 else 0)) 0 = b := by decide +kernel

def lit : State := (witEth { lstate := 4 } litCart).setReg (ETH_PORT_CFG 0) 1
theorem test_bias : (List.range 8).find? (fun h => halfLit lit 0 h == some 0) = some 0 ∧ (litCart).move = none ∧ litCart.releasing = false ∧ spareEmitters litCart = [8, 9, 10, 11] ∧
    spareEmitters { litCart with retired := 0xF00#12 } = [] ∧ lit.cart 0 = litCart := by decide +kernel
theorem test_no_spare : (List.range 8).find? (fun h => halfLit (lit.setCart 0 { litCart with retired := 0xF00#12 }) 0 h == some 0) = some 0 := by decide +kernel
theorem test_carts : ∃ k1 k2 k3 k4 k5 k6 : Cart, k1.move = some (0, 8) ∧ (k2.releasing = true ∧ k2.cmd = 0) ∧ (k3.releasing = true ∧ k3.cmd ≠ 0) ∧ k4.cstate = 3 ∧
    (k5.latch = false) ∧ k6.cstate = 1 ∧ k6.data = some ⟨[], []⟩ ∧ cartOk ⟨[], []⟩ = false :=
  ⟨{ litCart with move := some (0, 8) }, { litCart with releasing := true }, { litCart with releasing := true, cmd := 1 }, { litCart with cstate := 3 }, {},
    { cstate := 1, data := some ⟨[], []⟩ }, by decide +kernel⟩
theorem test_cart_pulled : litCart.cstate = 2 ∧ litCart.data = some ⟨[], []⟩ ∧ litCart.cmd = 0 ∧ litEmitters (witEth {} {}) 0 = [] ∧
    litEmitters (lit.setCart 0 { litCart with assign := [(1, 1)] }) 0 = [1] := by decide +kernel
theorem test_cart_read : ∃ s c b, FwHas 0x051 s c b ∧ fromPf0 c = true ∧ bodyReserved b [(63, 4), (69, 64)] 128 = true ∧ (s.cart (bn b 3 0)).data ≠ none :=
  ⟨_, _, _, fwHas { wit with net := lit.net } 0x051 (2 ^ 70) (serves_wit rfl) (by decide +kernel), by decide +kernel⟩
theorem test_cart_release : ∃ s c b, FwHas 0x050 s c b ∧ fromPf0 c = true ∧ bodyReserved b [] 4 = true ∧ (s.cart (bn b 3 0)).cstate = 2 ∧ (s.cart (bn b 3 0)).releasing = false :=
  ⟨_, _, _, fwHas { wit with net := lit.net } 0x050 0 (serves_wit rfl) (by decide +kernel), by decide +kernel⟩

/-- Port 0 with a frame at the head of the queue of a class, its preemption active, and a frame that waits. -/
def fr (cls : Nat) : EFrame := { bytes := List.replicate 60 0#8, cls := cls }
def witQ (cls : Nat) : State :=
  { witDev with net := { eth := [(0, { lstate := 4, pstate := 2 })], waiting := [⟨0, 0, fr cls⟩], queues := if cls = 8 then [] else [(cls, { frames := [fr cls], cfg := 0x21#64 })]
                         wports := [(0, { flight := some ⟨0, 10 ^ 9, none, false⟩, change := some {} })] } }
def settled (s : State) : State := settleClasses (guardBand (tickShapers s 0) 0) 0

theorem test_enqueue : ∀ k ∈ [0, 1], nextWaiting (witQ k) 0 = some ⟨0, 0, fr k⟩ := by decide +kernel
theorem test_tc0 : ∃ c, ((witQ 0).eth 0).up = true ∧ tc0Pick (settled (witQ 0)) 0 (candidates (settled (witQ 0)) 0) = some c ∧ 0 ≤ bucketNow (settled (witQ 0)) 0 :=
  have h : (tc0Pick (settled (witQ 0)) 0 (candidates (settled (witQ 0)) 0)).isSome = true := by decide +kernel
  ⟨_, by decide +kernel, (Option.some_get h).symm, by decide +kernel⟩
theorem test_no_tc0 : tc0Pick (settled (witQ 1)) 0 (candidates (settled (witQ 1)) 0) = none ∧ (lowPick (settled (witQ 1)) 0 (candidates (settled (witQ 1)) 0)).isSome = true ∧
    (lowPick (settled (witQ 8)) 0 (candidates (settled (witQ 8)) 0)).isNone = true ∧ tc0Pick (settled (witQ 8)) 0 (candidates (settled (witQ 8)) 0) = none ∧
    (({ lstate := 1 } : EthPort).up = false) := by decide +kernel
/-- Class 1 is strict, and a frame of it waits. -/
theorem test_strict : ∃ k c d slot, lowPick ((witQ 1).setReg (WELD_CLASS 0 1) (1 + 2 ^ 12 + 2 ^ 25 + 2 ^ 33)) 0 (candidates ((witQ 1).setReg (WELD_CLASS 0 1) (1 + 2 ^ 12 + 2 ^ 25 + 2 ^ 33)) 0) =
    some (k, c, d, slot, none) := by
  have h : (lowPick ((witQ 1).setReg (WELD_CLASS 0 1) (1 + 2 ^ 12 + 2 ^ 25 + 2 ^ 33)) 0 (candidates ((witQ 1).setReg (WELD_CLASS 0 1) (1 + 2 ^ 12 + 2 ^ 25 + 2 ^ 33)) 0)).any (fun r => r.2.2.2.2.isNone) = true := by decide +kernel
  obtain ⟨⟨k, c, d, slot, x⟩, h1, h2⟩ := Option.any_eq_true .. |>.mp h
  cases x with
  | none => exact ⟨k, c, d, slot, h1⟩
  | some m => cases h2
theorem test_interrupted : ∃ (s : State) (f : Flight), (s.eth 0).pstate = 2 ∧ (s.wport 0).flight = some f ∧ f.close = none ∧ 200 * s.now < f.stop ∧
    f.start + wireTime s 0 (64 * (s.reg (ETH_PORT_CFG 0) / 8 % 4 + 1)) ≤ 200 * s.now := by
  refine ⟨{ witQ 1 with fab := { (witQ 1).fab with time := 10 ^ 4 } }, ⟨0, 10 ^ 9, none, false⟩, ?_⟩
  decide +kernel
theorem test_sent : ∃ c : Cand, c.head.cmd = 0 ∧ c.x.shpEn = false ∧ c.cls = 1 := ⟨⟨1, { frames := [fr 1] }, 1, fr 1⟩, by decide⟩
theorem test_drr : ∃ (items : List DrrItem) (d : Map Nat) (x : DrrItem), items.find? (fun y => some 5 == some y.id) = some x ∧ x.cost ≤ mgetD d x.id 0 := ⟨[⟨5, 64, 64⟩], [(5, 64)], ⟨5, 64, 64⟩, rfl, by decide⟩
theorem test_gate_change : ∀ b : Bool, ∃ v : W32, v.toNat % 512 ≤ 256 ∧ v.getLsbD 16 = b := fun b => ⟨if b then 65792#32 else 256#32, by revert b; decide⟩
theorem test_gate_start : ((witQ 1).wport 0).change = some {} ∧ ((({} : GateList).start : Nat) : Int) ≤ portNs (witQ 1) 0 ∧ portNs (witQ 1) 0 < (({ start := 5 } : GateList).start : Nat) := by decide +kernel
theorem test_samples : (∀ q ∈ (witEth {} {}).net.queues, q.2.samp = false) ∧ (witQ 1).net.queues = [(1, { frames := [fr 1], cfg := 0x21#64 })] ∧ ({ frames := [fr 1], cfg := 0x21#64 } : EQueue).samp = true ∧
    ((witQ 1).setReg WELD_SAMPLE_CFG 1).reg WELD_SAMPLE_CFG % 1024 ≠ 0 := by decide +kernel
theorem test_sp_send : ∀ n ∈ [60, 9212], ∃ s c b, FwHas 0x091 s c b ∧ fromPf0 c = true ∧ bodyReserved b [(79, 78), (87, 86)] 91 = true ∧ bn b 77 64 = n ∧ s.master c.fn = true := by
  intro n h
  refine ⟨_, _, _, fwHas wit 0x091 (n * 2 ^ 64) wit_serves (by decide +kernel), ?_⟩
  revert n
  decide +kernel

/-- Frames of 60 bytes: IPv4 and UDP to port `dport`, with a good checksum; no IP; too short; with the tag of PCP 0. -/
def ipFrame (dport : Nat) : List Byte :=
  List.replicate 12 0#8 ++ beBytes 2 0x0800 ++ beBytes 2 0x4500 ++ beBytes 2 46 ++ List.replicate 4 0#8 ++ beBytes 1 64 ++ beBytes 1 17 ++ beBytes 2 0x7AC0 ++ List.replicate 8 0#8 ++
    beBytes 2 0 ++ beBytes 2 dport ++ beBytes 2 26 ++ List.replicate 20 0#8
def ethFrame (etype : Nat) : List Byte := List.replicate 12 0#8 ++ beBytes 2 etype ++ List.replicate 46 0#8
def rxf (bs : List Byte) : RxFrame := ⟨0, bs, 0⟩
def witMadr (m : Madder) : State := { lit with madr := m }

theorem test_frames : (lit.eth 0).up = true ∧ pcpZero (ethFrame 0x1234) = false ∧ (ethFrame 0x1234).length = 60 ∧ ingressBytes lit 0 + 60 ≤ 262144 ∧ pcpZero (ethFrame 0x8100) = true := by decide +kernel
theorem test_buffer_full : ∃ s : State, 262144 < ingressBytes s 0 + 60 := ⟨{ madr := { ingress := List.replicate 30 ⟨0, List.replicate 9212 0#8, 0⟩ } }, by decide +kernel⟩
theorem test_frame_waits : ∀ f ∈ [rxf (ethFrame 0x1234), rxf (ethFrame 0x8100)], ∃ s : State, (s.madr.ingress.filter (fun f => f.port == 0)).find? (fun f => pcpZero f.bytes) = some f ∨
    ((s.madr.ingress.filter (fun f => f.port == 0)).find? (fun f => pcpZero f.bytes) = none ∧ (s.madr.ingress.filter (fun f => f.port == 0)).head? = some f) := by
  intro f h
  refine ⟨witMadr { ingress := [f] }, ?_⟩
  revert f
  decide +kernel
theorem test_parses : (parseFrame lit (ethFrame 0x88F7)).causes = [6] ∧ (parseFrame lit (ipFrame 55713)).causes = [] ∧ (parseFrame lit (ipFrame 55713)).carm = true ∧ (parseFrame lit (ipFrame 55713)).own = true ∧
    (parseFrame lit (ipFrame 9)).carm = false ∧ (parseFrame lit (ipFrame 9)).causes = [] ∧ (parseFrame lit (ipFrame 9)).v4 = true ∧ (parseFrame lit (ethFrame 0x1234)).causes = [] ∧
    (parseFrame lit (ethFrame 0x1234)).v4 = false ∧ (parseFrame lit (ethFrame 0x1234)).v6 = false := by decide +kernel
theorem test_rule_hits : ∃ i r, (witMadr { rules := [(3, { valid := true })] }).madr.rules.find? (fun r => r.2.hits (witMadr { rules := [(3, { valid := true })] }) ((parseFrame lit (ipFrame 9)).key 0)) = some (i, r) :=
  ⟨3, { valid := true }, by decide +kernel⟩
theorem test_no_rule : lit.madr.rules = [] ∧ (witMadr { n := 16 }).madr.n ≠ 0 ∧ bn (0#64) 2 0 = 0 := by decide +kernel
def flowOf : FlowEntry := { key := 0#384, action := 0#64 }
def witFlows : State := witMadr { n := 16, flows := [((flowSlots 16 0#384).1, flowOf)], lookups := [⟨rxf (ipFrame 9), 0#448⟩] }
theorem test_flow_found : flowStalls witFlows (flowKey 0#448) = false ∧ flowFind witFlows.madr.n witFlows.madr.flows (flowKey 0#448) = some ((flowSlots 16 0#384).1, flowOf) ∧
    flowFind 16 [] (flowKey 0#448) = none ∧ flowStalls (witMadr { n := 16 }) (flowKey 0#448) = false := by decide +kernel
theorem test_rules_ready : ∀ b : Bool, ∃ s : State, s.madr.busy = false ∧ (selectedRule s).valid = b :=
  fun b => ⟨{ madr := { rules := [(0, { valid := b })] } }, by revert b; decide +kernel⟩
theorem test_flow_table : ∀ n ∈ [16, 26], ∃ s c b, FwHas 0x060 s c b ∧ s.madr.building = none ∧ fromPf0 c = true ∧ bodyReserved b [] 5 = true ∧ bn b 4 0 = n := by
  intro n h
  refine ⟨_, _, _, fwHas wit 0x060 n wit_serves (by decide +kernel), ?_⟩
  revert n
  decide +kernel
theorem test_flow_pages : ∃ s s2 : State, takeFwRegion s .flowTable (flowPages 16) = some s2 :=
  have h : (takeFwRegion {} .flowTable (flowPages 16)).isSome = true := by decide +kernel
  ⟨_, _, (Option.some_get h).symm⟩
theorem test_flow_add : ∃ s c b, FwHas 0x061 s c b ∧ s.madr.building = none ∧ fromPf0 c = true ∧ bodyReserved b [(383, 322)] 448 = true ∧ actionOk (BitVec.ofNat 64 (bn b 447 384)) = true ∧ s.madr.n ≠ 0 ∧
    flowFind s.madr.n s.madr.flows (BitVec.ofNat 384 (bn b 383 0)) = none ∧ (flowPut s.madr.n s.madr.flows { key := BitVec.ofNat 384 (bn b 383 0), action := 0#64 }).isSome = true :=
  ⟨_, _, _, fwHas { wit with madr := { n := 16 } } 0x061 5 (serves_wit rfl) (by decide +kernel), by decide +kernel⟩
theorem test_flow_del : ∃ s c b i x, FwHas 0x062 s c b ∧ s.madr.building = none ∧ fromPf0 c = true ∧ bodyReserved b [(383, 322)] 384 = true ∧ s.madr.n ≠ 0 ∧
    flowFind s.madr.n s.madr.flows (BitVec.ofNat 384 (bn b 383 0)) = some (i, x) ∧ x.fw = false :=
  ⟨_, _, _, (flowSlots 16 0#384).1, flowOf, fwHas { wit with madr := { n := 16, flows := [((flowSlots 16 0#384).1, flowOf)] } } 0x062 0 (serves_wit rfl) (by decide +kernel), by decide +kernel⟩
theorem test_flow_switch : ∃ s : State, s.madr.building = some (16, 1) ∧ s.madr.n = 0 ∧ s.madr.flows = [] := ⟨{ madr := { building := some (16, 1) } }, rfl, rfl, rfl⟩

/-! HostInterface: function 0 of a trained port, with a read that is out. -/

def witXfer (dropped : Bool) : State :=
  { wit with host := { wit.host with xfers := [{ fn := 0, work := .job 1, parts := [{ off := 0, addr := 4096, len := 8, tag := some 3 }], dropped := dropped }] } }
def witFn (x : Fn) : State := { wit with host := { wit.host with fns := [(0, x), (1, x)] } }

theorem test_completions : (({ wit with host := { wit.host with quarantine := [(0, 3, 10)] } } : State).host.quarantine.any (fun q => q.1 == 0 && q.2.1 == 3) = true) ∧ wit.host.quarantine = [] ∧
    findPart wit 0 3 = none ∧ wit.host.xfers = [] := by decide +kernel
theorem test_read_out : ∀ b : Bool, ∃ i x j, findPart (witXfer b) 0 3 = some (i, x, j) ∧ x.dropped = b := by
  intro b
  have h : (findPart (witXfer b) 0 3).any (fun r => r.2.1.dropped == b) = true := by revert b; decide +kernel
  obtain ⟨⟨i, x, j⟩, h1, h2⟩ := Option.any_eq_true .. |>.mp h
  exact ⟨i, x, j, h1, by simpa using h2⟩
theorem test_cpl_late : cplLate (witXfer false) 0 3 = false ∧ cplLate { witXfer false with fab := { time := 10 ^ 11 } } 0 3 = true := by decide +kernel
theorem test_ats : (witXfer false).host.xfers.any (fun x => x.fn == 0 && x.parts.any (fun p => p.out && decide (p.addr / 4096 = 1))) = true ∧
    (witXfer false).host.xfers.any (fun x => x.fn == 0 && x.parts.any (fun p => p.out && decide (p.addr / 4096 = 2))) = false := by decide +kernel
theorem test_functions : ∀ b d : Bool, ∀ f ∈ [0, 1], (witFn { bme := b, d3 := d }).fnPresent f = true ∧ ((witFn { bme := b, d3 := d }).fn f).flr = false ∧
    ((witFn { bme := b, d3 := d }).fn f).bme = b ∧ ((witFn { bme := b, d3 := d }).fn f).d3 = d ∧ 0 < fnVectors f := by decide +kernel
theorem test_msix : fnVectors 0 ≤ 2048 ∧ ((witFn { flr := true }).fn 0).flr = true ∧ wit.masked 0 5 = true ∧
    (witFn { bme := true, msixEn := true, msix := [(5, { mask := false })] }).masked 0 5 = false := by decide +kernel
theorem test_flr_start : ∃ s : State, (s.fn 0).flr = false ∧ (s.fn 0).bme = false ∧ pairsOf s 0 = [] ∧ s.host.xfers = [] ∧ s.ap.ports = [] := ⟨{}, by decide +kernel⟩
theorem test_flr_done : ∃ s : State, (s.fn 0).flr = true ∧ pcoreRuns s 1 = true ∧ pcoreRuns s 3 = true := ⟨witFn { flr := true }, by decide +kernel⟩
theorem test_ports : (wit.hport 0).up = true ∧ (({ umb := { phase := 7 } } : State).hport 0).up = false ∧ ({ umb := { phase := 7 } } : State).umb.phase = 7 := by decide +kernel
theorem test_fn_quota : ∃ s c b, FwHas 0x070 s c b ∧ fromPf0 c = true ∧ bodyReserved b [(31, 12)] 384 = true ∧ funcNamed s (bn b 11 0) = true :=
  ⟨_, _, _, fwHas wit 0x070 (2 ^ 383) wit_serves (by decide +kernel), by decide +kernel⟩
theorem test_fn_share : ∃ s c b, FwHas 0x071 s c b ∧ fromPf0 c = true ∧ bodyReserved b [(15, 12)] 24 = true ∧ funcNamed s (bn b 11 0) = true :=
  ⟨_, _, _, fwHas wit 0x071 (2 ^ 23) wit_serves (by decide +kernel), by decide +kernel⟩

/-! StorageCommands: queue 1 of function 0, its admin queue or an I/O queue, and namespace 1 attached to the function, ready, its sessions closed. -/

def witNs : Ns := { carmine := false, lbaf := false, nsze := 64, bufmax := 1, tc := 1, addr := 0#128, ipv4 := true, hdgst := false, ddgst := false, sess := 1, tport := 4420, tnsid := 1, subnqn := [], hostnqn := [], fns := [0], ready := true }
def nvc (sqe : Nat) (ph : NvPhase) : NvCmd := { cid := 3, sqhd := 1, sqe := BitVec.ofNat 512 sqe, phase := ph, seq := 1 }
def witSq (io : Bool) (cs : List NvCmd) : SQueue := { base := 0, sizeLog2 := 4, dbPage := 1, qid := if io then 1 else 0, cmds := cs }
def witNv (io : Bool) (cs : List NvCmd) : State :=
  { wit with vat := { witDev.vat with comp := [(cqKey 1, witCq)] }, saf := { queues := [(1, witSq io cs)], nss := [(1, witNs)] } }
/-- An entry: opcode, namespace 1, PRP1 4096, and dword 10. -/
def sqeOf (op dw10 prp : Nat) : Nat := op + 3 * 2 ^ 16 + 2 ^ 32 + prp * 2 ^ 192 + dw10 * 2 ^ 320

theorem test_sq_fetch : ∃ s1, mget (witNv true []).saf.queues 1 = some (witSq true []) ∧ mget (witNv true []).vat.comp (cqKey 1) = some witCq ∧ ((witNv true []).slot 4 1).live = true ∧
    ((witNv true []).slot 4 1).dying = false ∧ (witNv true []).saf.stopped = false ∧ witCq.free ≠ 0 ∧ hostRead (witNv true []) ((witNv true []).slot 4 1).owner (.sqe 1 1) [(0, 64)] = some s1 :=
  ⟨_, rfl, rfl, by decide +kernel, by decide +kernel, rfl, by decide +kernel, if_neg (by decide +kernel)⟩
theorem fetched_all : ∀ x ∈ [(0x02, false, 1), (0x06, false, 1), (0x08, false, 0), (0x09, false, 7), (0x0A, false, 7), (0x0C, false, 0), (0x00, true, 0), (0x01, true, 0), (0x02, true, 0), (0x08, true, 0), (0x09, true, 0)],
    let c := nvc (sqeOf x.1 x.2.2 4096) .fetched
    let s := witNv x.2.1 [c]
    nvOf s 1 3 = some c ∧ nvAt s 1 c.seq = some c ∧ c.phase = .fetched ∧ s.saf.stopped = false ∧ earlierWaits s 1 c = false ∧ pcoreRuns s 4 = true ∧ isIo s 1 = x.2.1 ∧ eOp c = x.1 ∧
      nvCheck s 1 c = 0 ∧ (prpStart c (moveBytes s 1 c)).any (fun r => r.2 == (0, 0)) = true ∧ nvCheck s 1 (nvc (sqeOf x.1 x.2.2 4096 + 2 ^ 8) .fetched) ≠ 0 := by decide +kernel
/-- Every opcode has a command that starts. -/
theorem test_commands_start : ∀ x ∈ [(0x02, false, 1), (0x06, false, 1), (0x08, false, 0), (0x09, false, 7), (0x0A, false, 7), (0x0C, false, 0), (0x00, true, 0), (0x01, true, 0), (0x02, true, 0), (0x08, true, 0), (0x09, true, 0)],
    ∃ s c ps, NvFetched s 1 3 c ∧ isIo s 1 = x.2.1 ∧ eOp c = x.1 ∧ nvCheck s 1 c = 0 ∧ prpStart c (moveBytes s 1 c) = some (ps, 0, 0) := by
  intro x h
  obtain ⟨h1, h2, h3, h4, h5, h6, h7, h8, h9, h10, -⟩ := fetched_all x h
  obtain ⟨⟨ps, r⟩, h11, h12⟩ := Option.any_eq_true .. |>.mp h10
  exact ⟨_, _, ps, ⟨h1, h2, h3, h4, h5, .inr h6⟩, h7, h8, h9, by rw [h11]; simpa using h12⟩
theorem test_bad_prp : prpStart (nvc (sqeOf 1 0 4097) .fetched) 512 = none := by decide +kernel
theorem test_admin : ∀ x ∈ [(0x06, 1), (0x09, 7), (0x09, 0x0B), (0x0A, 0x0B), (0x0C, 0), (0x08, 0)], eOp (nvc (sqeOf x.1 x.2 0) .running) = x.1 ∧ eDw (nvc (sqeOf x.1 x.2 0) .running) 10 % 256 = x.2 ∧
    (aersOf (witNv false [nvc (sqeOf x.1 x.2 0) .running]) 0).length ≤ 4 ∧ (∀ p ∈ allNv (witNv false [nvc (sqeOf x.1 x.2 0) .running]), p.2.phase ≠ .fetched) ∧
    (witNv false []).master (sqFn (witNv false []) 1) = true := by decide +kernel
theorem test_finish_write : (witNv true []).ns 1 = some witNs ∧ totalUnits (nvSpans witNs (nvc (sqeOf 1 0 4096) .running)) = 1 ∧ safArmed { witNv true [] with saf := { (witNv true []).saf with vstate := 1 } } = true ∧
    safArmed (witNv true []) = false ∧ witNs.ready = true ∧ isWrite (nvc (sqeOf 1 0 4096) .running) = true := by decide +kernel
theorem test_read_hit : let s : State := { witNv true [] with saf := { (witNv true []).saf with pages := [(pageKey 1 0, { slot := 0, mask := 0xFF#8, ver := 1 })] } }
    rangeWaits s 1 0 512 = false ∧ (bufRead s 1 0 512).2.2.1.all id = true ∧ (bufRead s 1 0 512).2.2.2 = false ∧ rwRange witNs (nvc (sqeOf 2 0 4096) .running) = (0, 512) := by decide +kernel
theorem test_admits : ∃ c, nvOf (witNv true [c]) 1 3 = some c ∧ isIo (witNv true [c]) 1 = true ∧ isWrite c = true ∧ 0 < c.start := ⟨{ nvc (sqeOf 1 0 4096) .running with start := 1 }, by decide +kernel⟩
theorem test_destaged : ∃ (b : Back) (p : BufPage), b.why = .destage (pageKey 1 0) 5 ∧ p.sent = some (5, 1) ∧ p.bad = false ∧ p.ver = 5 :=
  ⟨{ ns := 1, why := .destage (pageKey 1 0) 5 }, { slot := 0, mask := 0xFF#8, ver := 5, sent := some (5, 1) }, by decide⟩

/-! StorageNamespacesAndSessions. -/

def nsBody (carm : Bool) : Nat := 1 + (if carm then 2 ^ 16 else 0) + 64 * 2 ^ 32 + 2 ^ 96 + 2 ^ 112 + (if carm then (han 3 + 2 ^ 112) * 2 ^ 128 else 2 ^ 260 + 4420 * 2 ^ 272)
def witConnState : State := { wit with vat := witDev.vat, carm := { conns := [(1, witConn)] } }
theorem test_ns_create : ∀ b : Bool, ∃ s c w, FwHas 0x080 s c w ∧ fromPf0 c = true ∧ bodyReserved w [(15, 15), (31, 18), (111, 107), (127, 115), (259, 259), (271, 265)] 3904 = true ∧ bn w 14 0 = 1 ∧ s.ns 1 = none ∧
    bn w 95 32 = 64 ∧ bn w 106 96 = 1 ∧ bn w 114 112 = 1 ∧ bt w 16 = b ∧ (b = true → bn w 287 272 = 0 ∧ isInl (checkHandle s c.req (BitVec.ofNat 64 (bn w 191 128)) [3]) = true ∧
      (s.conn 1).map (·.peerNode) = some (bn w 255 240)) ∧ (b = false → bn w 264 260 = 1 ∧ s.saf.sessions.length + 1 < 131072) := by
  intro b
  refine ⟨_, _, _, fwHas witConnState 0x080 (nsBody b) (serves_wit rfl) (by decide +kernel), ?_⟩
  revert b
  decide +kernel
def witNsState (x : Ns) : State := { wit with saf := { nss := [(1, x)] } }
theorem test_ns_attach : ∀ d : Bool, ∃ s c w, FwHas 0x081 s c w ∧ fromPf0 c = true ∧ bodyReserved w [(15, 15)] 29 = true ∧ bn w 14 0 = 1 ∧ s.ns 1 = some witNs ∧ witNs.deleting = none ∧ bt w 28 = d ∧
    bn w 27 16 ∈ witNs.fns := by
  intro d
  refine ⟨_, _, _, fwHas (witNsState witNs) 0x081 (1 + if d then 2 ^ 28 else 0) (serves_wit rfl) (by decide +kernel), ?_⟩
  revert d
  decide +kernel
theorem test_ns_attach_new : 5 ∉ witNs.fns := by decide
theorem test_ns_delete : ∀ d : Bool, ∃ s c w, FwHas 0x082 s c w ∧ fromPf0 c = true ∧ bodyReserved w [(15, 15)] 17 = true ∧ bn w 14 0 = 1 ∧ s.ns 1 = some { witNs with fns := [] } ∧ bt w 16 = d := by
  intro d
  refine ⟨_, _, _, fwHas (witNsState { witNs with fns := [] }) 0x082 (1 + if d then 2 ^ 16 else 0) (serves_wit rfl) (by decide +kernel), ?_⟩
  revert d
  decide +kernel
theorem test_ctrl_reset : ∃ s c b, FwHas 0x083 s c b ∧ (fromPf0 c = true ∨ c.fn = bn b 11 0) ∧ bodyReserved b [] 12 = true := ⟨_, _, _, fwHas wit 0x083 2048 wit_serves (by decide +kernel), by decide +kernel⟩
def upSess : Sess := { ns := 1, queue := 1, st := .up, sent := 8, buf := List.replicate 8 0#8 }
theorem test_ns_up : nsUp (witNsState witNs) 1 = false ∧ nsUp { witNsState witNs with saf := { (witNsState witNs).saf with sessions := [(2, upSess)] } } 1 = true := by decide +kernel
theorem test_sessions : ∃ x y : Sess, (x.queue = 0 ∧ x.st = .closed) ∧ y.queue ≠ 0 ∧ y.st = .up ∧ 0 < y.sent ∧ y.st ≠ .closed := ⟨{ ns := 1, queue := 0 }, upSess, by decide⟩
/-- A PDU of a type at the front of a session, with a backing command out. -/
def pdu (ty : Nat) : List Byte := [BitVec.ofNat 8 ty, 0#8, 24#8, 24#8] ++ leBytes 4 32 ++ leBytes 2 7 ++ leBytes 2 0 ++ leBytes 4 0 ++ leBytes 4 8 ++ List.replicate 12 0#8
def witPdu (ty : Nat) (st : SessSt) : State :=
  { witNsState witNs with saf := { (witNsState witNs).saf with sessions := [(2, { upSess with st := st, rx := pdu ty })], backs := [(1, { ns := 1, why := .read 1 1 0, len := 512, issued := true, sess := 2, cid := if ty = 5 then 0 else 7 })] } }
theorem test_pdus : ∀ ty ∈ [1, 3, 5, 7, 9], ∀ st ∈ [SessSt.icSent, .up], ∃ s1 x, PduTaken (witPdu ty st) 2 ty x (pdu ty) s1 ∧ x.st = st := by
  have h : ∀ ty ∈ [1, 3, 5, 7, 9], ∀ st ∈ [SessSt.icSent, .up], headPdu { upSess with st := st, rx := pdu ty } = some (pdu ty) ∧ leAt (pdu ty) 0 1 = ty ∧
      hdrDigestOk { upSess with st := st, rx := (pdu ty).drop (pdu ty).length } (pdu ty) = true := by decide +kernel
  intro ty ht st hs
  obtain ⟨h1, h2, h3⟩ := h ty ht st hs
  exact ⟨_, _, ⟨_, rfl, h1, h2, rfl, rfl, h3⟩, rfl⟩
theorem test_pdu_fields : leAt (pdu 1) 8 2 = 7 ∧ (backOf (witPdu 7 .up) 2 (leAt (pdu 7) 8 2)).isSome = true ∧ (backOf (witPdu 5 .up) 2 (leAt (slice (pdu 5) 8 16) 12 2)).isSome = true ∧
    (pduData upSess (pdu 7) (leAt (pdu 7) 16 4)).2 = true ∧ leAt (pdu 7) 12 4 + 8 ≤ 512 ∧ leAt (pdu 7) 1 1 / 8 % 2 = 0 ∧ r2tWaits (witPdu 9 .up) 2 = false ∧ leAt (pdu 9) 12 4 + leAt (pdu 9) 16 4 ≤ 512 ∧
    leAt ((pdu 1).set 8 0#8) 8 2 = 0 := by decide +kernel

/-! ReliabilityInTime. -/

theorem test_scrub : scrubs {} (({} : State).lake.scrubAt / dieLines) = true ∧ scrubs { lake := { scrubAt := 14 * dieLines } } 14 = false := by decide +kernel
theorem test_refresh_round : ∃ s : State, mget (s.stack 0).trefNext 3 = some 2 := ⟨{ lake := { stk := [(0, { trefNext := [(3, 2)] })] } }, rfl⟩
theorem test_page_move : ∃ (s : State) (m : Move) (pp : Nat), (s.rgn 0).rstate ≠ .resetting ∧ s.lake.copies = [] ∧ s.lake.moves = [m] ∧ mget s.lake.pageOf m.page = some pp ∧ ppStack pp = 0 :=
  ⟨{ lake := { pageOf := [(5, 7)], moves := [⟨5, 9, .dieLoss 0⟩] } }, ⟨5, 9, .dieLoss 0⟩, 7, by decide +kernel⟩
theorem test_die_copy : ∃ (s : State) (c : DieCopy), s.lake.copies.find? (fun c => c.stack == 0) = some c := ⟨{ lake := { copies := [⟨0, 3, 0⟩] } }, ⟨0, 3, 0⟩, by decide⟩
theorem test_unit_faults : unitValid (clUnit 63 49) = true ∧ (({} : State).retired (clUnit 63 49)) = false ∧ unitValid 0xFFFF = false ∧ ((markRetired {} (clUnit 63 49)).retired (clUnit 63 49)) = true := by decide +kernel
theorem test_trouble : ∃ s : State, s.fab.trouble = [(clUnit 63 49, {})] ∧ s.now < s.rel.ceSpan + 86400000000000 := ⟨{ fab := { trouble := [(clUnit 63 49, {})] } }, rfl, by decide +kernel⟩
theorem test_thresholds : let p := policyOf {} (unitKind (clUnit 63 49))
    bn p 15 0 ≠ 0 ∧ 0 < bn p 15 0 + 0 ∧ bn p 47 32 ≠ 0 ∧ 0 < bn p 47 32 ∧ bn p 63 48 ≠ 0 ∧ bn p 31 16 ≠ 0 ∧ bn p 31 16 ≤ 64 ∧ 3 < bn p 31 16 := by decide +kernel
theorem test_crossed_units : ∃ u, endsService {} u = true ∧ ∃ v, endsService {} v = false ∧ ({} : State).retired u = false ∧ ({} : State).retired v = false :=
  ⟨unitId 16 0 0, by decide +kernel, clUnit 63 49, by decide +kernel⟩
theorem test_mismatch : ∃ s : State, s.umb.phase = 7 ∧ s.umb.lastMismatch = some 5 ∧ s.now < 5 + 1000000000 := ⟨{ umb := { phase := 7, lastMismatch := some 5 } }, by decide +kernel⟩
theorem test_margins : marginOk 1400 0 100 = false ∧ marginOk 2000 0 100 = true ∧ marginOk 1400 800 100 = true ∧ ((({} : RegionSt).retiring) = 0) ∧ ({ rstate := .inService, offset := 60 } : RegionSt).offset = 60 := by decide +kernel
theorem test_retention : ({} : State).retired (dieUnit 31 13) = false := by decide +kernel
theorem test_idle_test : ∃ s : State, mget s.rel.idleTest 63 = none ∧ testable s 63 = true ∧ s.retired (clUnit 63 49) = false ∧ testsQueued s ≤ 14 := ⟨{ fab := { clusters := [(63, { cstate := .inService })] } }, by decide +kernel⟩
theorem test_journal : ∃ s : State, s.fab.journal ≠ [] ∧ s.rel.copyA = true := ⟨{ fab := { journal := [clUnit 63 49] } }, by decide⟩

/-! SelfTestsAndReliabilityCommands. -/

theorem test_swat_run : ∃ s c b, FwHas 0x0D0 s c b ∧ fromPf0 c = true ∧ bodyReserved b [(15, 8)] 32 = true ∧ testRefusal s (bn b 7 0) (bn b 31 16) = none ∧ testsQueued s < 16 :=
  ⟨_, _, _, fwHas { wit with fab := { clusters := [(63, { cstate := .inService })] } } 0x0D0 (1 + clUnit 63 49 * 2 ^ 16) (serves_wit rfl) (by decide +kernel), by decide +kernel⟩
theorem test_swat_refused : testRefusal {} 0 0 = some .invalidField := by decide +kernel
theorem test_swat_full : ∃ s : State, testRefusal s 1 (clUnit 63 49) = none ∧ 16 ≤ testsQueued s :=
  ⟨{ fab := { clusters := [(63, { cstate := .inService })] }, rel := { tests := List.replicate 16 { test := 4, unit := 0 } } }, by decide +kernel⟩
theorem test_tests_run : ∃ (s : State) (t : SwTest), s.rel.tests = [t] ∧ s.rel.running = true := ⟨{ rel := { tests := [{ test := 4, unit := 0 }], running := true } }, _, rfl, rfl⟩
theorem test_swat_ctrl : destrOk { sec := { lc := 1 } } = true ∨ destrOk {} = true := by decide +kernel
theorem test_unit_retire : ∃ s c b, FwHas 0x0D1 s c b ∧ fromPf0 c = true ∧ bodyReserved b [] 16 = true ∧ unitValid (bn b 15 0) = true ∧ (s.unit (bn b 15 0)).state = .inService ∧ unitDomain (bn b 15 0) ≠ 18 ∧
    endsService s (bn b 15 0) = false :=
  ⟨_, _, _, fwHas { wit with fab := { units := [(clUnit 63 49, { state := .inService })] } } 0x0D1 (clUnit 63 49) (serves_wit rfl) (by decide +kernel), by decide +kernel⟩
theorem test_trouble_clear : ∀ b : Bool, ∃ s c w, FwHas 0x0D2 s c w ∧ fromPf0 c = true ∧ bodyReserved w [] 17 = true ∧ bt w 16 = b ∧ unitValid (bn w 15 0) = true := by
  intro b
  refine ⟨_, _, _, fwHas wit 0x0D2 (clUnit 63 49 + if b then 2 ^ 16 else 0) wit_serves (by decide +kernel), ?_⟩
  revert b
  decide +kernel
theorem test_rel_policy : ∃ s c b, FwHas 0x0D3 s c b ∧ fromPf0 c = true ∧ bodyReserved b [] 256 = true := ⟨_, _, _, fwHas wit 0x0D3 (2 ^ 255) wit_serves (by decide +kernel), by decide +kernel⟩
theorem test_rmap_read : ∃ s c b, FwHas 0x0D4 s c b ∧ fromPf0 c = true ∧ bodyReserved b [(5, 0)] 64 = true ∧ s.rel.copyA = true := ⟨_, _, _, fwHas wit 0x0D4 64 wit_serves (by decide +kernel), by decide +kernel⟩
theorem test_rel_shutdown : ∃ s c b, FwHas 0x0D5 s c b ∧ fromPf0 c = true ∧ bodyReserved b [] 32 = true ∧ bn b 31 0 = 0x53485554 := ⟨_, _, _, fwHas wit 0x0D5 0x53485554 wit_serves (by decide +kernel), by decide +kernel⟩

/-! Telemetry. -/

theorem test_sien_stop : ∃ s c b, FwHas 0x0D6 s c b ∧ fromPf0 c = true ∧ bodyReserved b [(7, 4), (15, 14), (31, 19), (63, 48), (263, 261), (287, 264)] 320 = true ∧ bt b 2 = false :=
  ⟨_, _, _, fwHas wit 0x0D6 3 wit_serves (by decide +kernel), by decide +kernel⟩
theorem test_sien_export : ∃ s c b, FwHas 0x0D6 s c b ∧ fromPf0 c = true ∧ bodyReserved b [(7, 4), (15, 14), (31, 19), (63, 48), (263, 261), (287, 264)] 320 = true ∧ bt b 2 = true ∧ sienFieldsOk s b = true :=
  ⟨_, _, _, fwHas { wit with net := lit.net } 0x0D6 (4 + 8 + 2 ^ 16 + 4739 * 2 ^ 32 + 5 * 2 ^ 64 + 1000 * 2 ^ 224 + 600 * 2 ^ 240 + 2 ^ 256 + 1000 * 2 ^ 288) (serves_wit rfl) (by decide +kernel), by decide +kernel⟩
theorem test_sien_sample : ∃ s c b, FwHas 0x0D7 s c b ∧ fromPf0 c = true ∧ bodyReserved b [(7, 6)] 13 = true ∧ bn b 12 8 = 24 := ⟨_, _, _, fwHas wit 0x0D7 (24 * 2 ^ 8) wit_serves (by decide +kernel), by decide +kernel⟩
def witColl (x : EthPort) : State :=
  { wit with net := { eth := [(0, x)] }, carm := { ip4 := 1#32 }, rel := { collectors := [(0, { en := true, ipv4 := true, dport := 9, samples := [(5, [0#8])] })] } }
theorem test_core7 : pcoreRuns (witColl {}) 7 = true ∧ pcoreRuns { pal := { cores := [(7, { cstate := 2 })] } } 7 = false ∧ ((witColl {}).coll 0).samples ≠ [] ∧ (∀ j, j < 4 → (wit.coll j).samples = []) := by decide +kernel
theorem test_exporting : exporting (witColl { lstate := 4 }) 0 ∧ ((witColl { lstate := 5 }).eth ((witColl { lstate := 5 }).coll 0).port).lstate = 5 ∧ (wit.coll 0).en = false := by unfold exporting; decide +kernel

/-! SupplyAndEmergencies, StartAndRegisterWrites, GatesAndShapers. -/

theorem test_supply : ∃ s : State, s.umb.phase ≠ 0 ∧ s.umb.shutting = false ∧ s.saf.vstate ≠ 2 ∧ s.umb.restarting = false ∧ safArmed s = true ∧ safArmed wit = false ∧ nodeFree wit = true ∧ wit.umb.phase = 7 :=
  ⟨{ wit with saf := { vstate := 1 } }, by decide +kernel⟩
theorem test_node_taken : nodeFree { wit with fab := { node := 1 } } = false ∨ nodeFree { wit with carm := { conns := [(1, witConn)] } } = false := by decide +kernel
theorem test_restarting : ∃ s : State, s.umb.restarting = true ∧ s.umb.waiting = [] := ⟨{ umb := { restarting := true } }, rfl, rfl⟩
theorem test_save_done : ∀ n ≤ 2, ∃ s : State, s.saf.vstate = 2 ∧ s.umb.shutting = decide (n = 0) ∧ (s.umb.warming ≠ none ↔ n = 1) :=
  fun n _ => ⟨{ saf := { vstate := 2 }, umb := { shutting := decide (n = 0), warming := if n = 1 then some 4 else none } }, rfl, rfl, by dsimp only; split <;> simp_all⟩
theorem test_start : ({} : State).umb.phase = 0 ∧ ({} : State).sec.lc ≠ 5 ∧ ({} : State).umb.barred = false ∧ ({} : State).rel.copyA = true := by decide
theorem test_start_barred : ∃ s : State, s.umb.phase = 0 ∧ s.umb.barred = true ∧ s.umb.allowed = false := ⟨{ umb := { barred := true } }, rfl, rfl, rfl⟩
theorem test_phase9 : ∃ s : State, s.umb.phase = 9 ∧ s.umb.warming = none ∧ s.umb.rcause ≠ 2 ∧ s.sec.lc ≠ 5 := ⟨{ umb := { phase := 9 } }, by decide⟩
theorem test_no_region : ∃ s : State, ∀ r, r < 16 → (s.rgn r).rstate = .retired := ⟨{ fab := { regions := (List.range 16).map (fun r => (r, { rstate := .retired })) } }, by decide +kernel⟩
theorem test_start_late : ∃ s : State, (s.rgn 3).rstate = .starting ∧ s.umb.phase = 5 := ⟨{ umb := { phase := 5 }, fab := { regions := [(3, { rstate := .starting })] } }, rfl, rfl⟩
theorem test_recovering : ∃ s : State, s.umb.phase = 8 ∧ s.umb.rcause = 2 ∧ s.umb.shutting = false ∧ safArmed s = false := ⟨{ umb := { phase := 8, rcause := 2 } }, by decide⟩
theorem test_writes : wit.fnPresent 0 = true ∧ (wit.fn 0).flr = false ∧ (wit.fn 0).d3 = false ∧ mboxWords 0 LAKE_EVENT = false ∧ LAKE_EVENT % 4 = 0 ∧ fnIsPf0 0 = true ∧ wit.recovery = false ∧
    fnIsPf0 1 = false ∧ wit.fnPresent 1 = true ∧ (wit.hport (fnPort 1)).vfEnable = false ∧ wit.fnPresent 2048 = false := by decide +kernel
theorem test_mbox_words : ∃ f off, mboxWords f off = true := ⟨0, 0xE00000, by decide +kernel⟩
theorem test_shapers : ∀ n ∈ [0, 5], ∃ (s : State) (q : EQueue) (x : Shaper), q.shpEn = true ∧ s.shaper q.shaperNo = x ∧ x.en = true ∧ x.pir = n ∧ 0 ≤ x.c ∧ 0 ≤ x.p :=
  fun n _ => ⟨{ net := { shapers := [(0, { en := true, pir := n })] } }, { cfg := 0x2020#64 }, { en := true, pir := n }, by decide, rfl, rfl, rfl, Int.le_refl 0, Int.le_refl 0⟩
theorem test_gate_held : ∃ (s : State) (y : EQueue), y.gated = true ∧ queueClass s 0 0 = some 0 ∧ mkeysRising s.net.queues = true ∧ OneQueuePerGate s 0 := by
  refine ⟨{ net := { queues := [(3, { cfg := 0x26#64 })] } }, { cfg := 0x26#64 }, by decide, by decide +kernel, by decide, ?_⟩
  unfold OneQueuePerGate
  decide +kernel
theorem test_gate_twice : ∃ z ∈ portQueues ({ net := { queues := [(3, { cfg := 0x26#64 })] } } : State) 0, z.1 ≠ 4 ∧ z.2.gated = true ∧ z.2.gbit = ({ cfg := 0x26#64 } : EQueue).gbit := by decide +kernel

/-! CL_RUN, and the creation of a dispatch queue and of a reduction group. -/

def witRun : State := { witCl with vat := witDev.vat, fab := { witCl.fab with node := 0 }, lake := { regions := [(1, { pages := 1 })] } }
def runBody : Nat := 63 + 3 * 2 ^ 8 + 4096 * 2 ^ 64 + 4 * 2 ^ 128 + 8192 * 2 ^ 384
theorem run_serves : Serves witRun := serves_wit rfl
theorem test_cl_run : ∃ s s1 s2 s3 s4 k blk c bs, Taken s k 0x0E1 true blk c s1 ∧ imageWaits s blk = false ∧ (s1.cl 63).owner = some c.fn ∧ (s1.cl 63).reclaim = none ∧ clusterThere s1 63 ∧
    bn blk.bits 5 0 = 63 ∧ clRunFieldsOk s1 c blk.bits = true ∧ (maskCores 63 (bn blk.bits 15 8)).any (fun i => coreBusy (s1.core i)) = false ∧ runsStep s1 63 = false ∧
    checkTierN s1 c.req (bn blk.bits 127 64) (bn blk.bits 159 128) = (s2, none) ∧ checkTierN s2 c.req (bn blk.bits 447 384) 128 = (s3, none) ∧
    agentRead s3 { req := c.req, work := .firmware c.id } (bn blk.bits 127 64) (bn blk.bits 159 128) = (s4, .ok bs []) := by
  have h := takes witRun 0x0E1 runBody true run_serves (by decide +kernel)
  obtain ⟨s2, h2⟩ := noneOf (checkTierN (mailed witRun 0x0E1) (mailCmd 0x0E1).req (bn (mailBlk 0x0E1 runBody).bits 127 64) (bn (mailBlk 0x0E1 runBody).bits 159 128)) (by decide +kernel)
  have e2 : s2 = (checkTierN (mailed witRun 0x0E1) (mailCmd 0x0E1).req (bn (mailBlk 0x0E1 runBody).bits 127 64) (bn (mailBlk 0x0E1 runBody).bits 159 128)).1 := by rw [h2]
  obtain ⟨s3, h3⟩ := noneOf (checkTierN s2 (mailCmd 0x0E1).req (bn (mailBlk 0x0E1 runBody).bits 447 384) 128) (by rw [e2]; decide +kernel)
  have e3 : s3 = (checkTierN s2 (mailCmd 0x0E1).req (bn (mailBlk 0x0E1 runBody).bits 447 384) 128).1 := by rw [h3]
  obtain ⟨s4, bs, h4⟩ := cleanOk (r := agentRead s3 { req := (mailCmd 0x0E1).req, work := .firmware (mailCmd 0x0E1).id } (bn (mailBlk 0x0E1 runBody).bits 127 64) (bn (mailBlk 0x0E1 runBody).bits 159 128))
    (by rw [e3, e2]; decide +kernel)
  exact ⟨_, _, s2, s3, s4, _, _, _, bs, h, by decide +kernel, by decide +kernel, by decide +kernel, by unfold clusterThere; decide +kernel, by decide +kernel, by decide +kernel, by decide +kernel,
    by decide +kernel, h2, h3, h4⟩

/-- A dispatch queue of one expert and one rank, this one: its record at 4096, the expert map at 8192 and the rank table at 8256; its counters are 1 and 2. -/
def cfgMem (rec_ : BitVec 1024) (tables : List Byte) : State :=
  let s : State := { witNear with lake := { witNear.lake with fw := [{ kind := .shadow, base := 2 ^ 30, pages := 1 }] }, vat := { witNear.vat with sets := [(1, 1024)] } }
  (lakeWrite (lakeWrite s 4096 (leBytes 128 rec_.toNat)).1 8192 tables).1
def dqRec : BitVec 1024 := witRec ||| BitVec.ofNat 1024 (8192 + 8256 * 2 ^ 64 + 2 ^ 512)
theorem test_create_dispatch : ∃ s c p cfg t, Creates 5 0 s c p ∧ zeroBits p 255 64 = true ∧ loadWcfg s c.req (bn p 63 0) = (t, .inl cfg) := by
  obtain ⟨t, cfg, h⟩ := inl_some (r := loadWcfg (mailed (cfgMem dqRec (List.replicate 96 0#8)) 0x010) (mailCmd 0x010).req (bn (params (mailBlk 0x010 (chBody 5 4096)).bits) 63 0)) (by decide +kernel)
  exact ⟨_, _, _, cfg, t, creates (cfgMem dqRec (List.replicate 96 0#8)) 5 4096 0 (serves_wit (by decide +kernel)) (by decide +kernel) (by decide +kernel) (by decide +kernel), by decide +kernel, h⟩
def bgRec : BitVec 1024 := BitVec.ofNat 1024 (8192 + 32768 * 2 ^ 64 + 2 ^ 192 + 3 * 2 ^ 240 + 3 * 2 ^ 248 + 64 * 2 ^ 288 + 2 ^ 320)
theorem test_create_group : ∃ s c p cfg t, Creates 6 0 s c p ∧ zeroBits p 255 64 = true ∧ loadBcfg s c.req none (bn p 63 0) = (t, .inl cfg) := by
  obtain ⟨t, cfg, h⟩ := inl_some (r := loadBcfg (mailed (cfgMem bgRec (List.replicate 96 0#8)) 0x010) (mailCmd 0x010).req none (bn (params (mailBlk 0x010 (chBody 6 4096)).bits) 63 0)) (by decide +kernel)
  exact ⟨_, _, _, cfg, t, creates (cfgMem bgRec (List.replicate 96 0#8)) 6 4096 0 (serves_wit (by decide +kernel)) (by decide +kernel) (by decide +kernel) (by decide +kernel), by decide +kernel, h⟩

end Sys2Proof.Machine
end

section
/-! PROOFS. The shaper conditions of a queue (R361, R362), and the gates of a port under writes of WELD_Q_CFG (R364). -/

namespace Sys2Proof.Machine

open Sys2Proof

/-! The shaper's part in eligibility. -/

theorem shaperCommitted_unshaped {s : State} {cls : Nat} {q : EQueue} (h : cls = 0 ∨ q.shpEn = false ∨ (s.shaper q.shaperNo).en = false) :
    shaperCommitted s cls q = true := by
  unfold shaperCommitted
  split
  · rfl
  · next hb =>
    have hen : (s.shaper q.shaperNo).en = false := by tauto
    simp [hen]

theorem shaperCommitted_bound {s : State} {cls : Nat} {q : EQueue} (hc : cls ≠ 0) (hq : q.shpEn = true) (hx : (s.shaper q.shaperNo).en = true) :
    shaperCommitted s cls q = true ↔ 0 ≤ (s.shaper q.shaperNo).c ∧ ((s.shaper q.shaperNo).pir = 0 ∨ 0 ≤ (s.shaper q.shaperNo).p) := by
  simp [shaperCommitted, hc, hq, hx]

theorem shaperPeak_bound {s : State} {cls : Nat} {q : EQueue} (hc : cls ≠ 0) (hq : q.shpEn = true) (hx : (s.shaper q.shaperNo).en = true) :
    shaperPeak s cls q = true ↔ (s.shaper q.shaperNo).pir = 0 ∨ 0 ≤ (s.shaper q.shaperNo).p := by
  simp [shaperPeak, hc, hq, hx]

theorem gateAllows_tc0 (s : State) (p : Nat) (q : EQueue) (f : EFrame) : gateAllows s p 0 q f = true := rfl

/-! A 4-byte write at WELD_Q_CFG reaches `writeQCfg`. -/

theorem regAt_weldQCfg : (regAt WELD_Q_CFG).map (fun x => (x.1, x.2.acc)) = some (WELD_Q_CFG, .RW) := by decide +kernel

theorem writeRow_weldQCfg (s : State) {r : RegRow} (hr : r.acc = .RW) (lo n v : Nat) : writeRow s WELD_Q_CFG r lo n v = writeRw s WELD_Q_CFG lo n v := by
  have hown : ownRow WELD_Q_CFG v = false := rfl
  simp only [writeRow, hr, hown]
  simp [WELD_Q_CFG]

theorem writeRegs_weldQCfg (s : State) (v : Nat) :
    writeRegs s WELD_Q_CFG 4 v =
      writeQCfg s (withBits (s.queue (s.reg WELD_Q_SEL / 4096 % 64) (s.reg WELD_Q_SEL % 4096)).cfg.toNat 0 32 (v % 2 ^ 32)) := by
  obtain ⟨⟨a, r⟩, hat, har⟩ := Option.map_eq_some_iff.1 regAt_weldQCfg
  obtain ⟨rfl, hr⟩ := Prod.mk.inj har
  simp only [writeRegs, hat, writeRow_weldQCfg s hr, Nat.sub_self, Nat.mul_zero]
  rfl

/-- Where BAR0 of PF0 takes writes, an aligned one of 4 bytes outside the mailbox words goes to the register map. -/
theorem writeBar0_pf0 {s : State} {off v : Nat} (hp : s.fnPresent 0 = true) (hf : (s.fn 0).flr = false) (hd : (s.fn 0).d3 = false) (hr : s.recovery = false)
    (hm : mboxWords 0 off = false) (ho : off % 4 = 0) : writeBar0 s 0 off 4 v = writeRegs s off 4 v := by
  have h0 : fnIsPf0 0 = true := rfl
  simp [writeBar0, hp, hf, hd, hr, hm, ho, h0]

/-! What a write of WELD_Q_CFG does. -/

/-- Queue `q` of port `p` with the configuration that `new` asks for (R374). -/
def configuredQueue (s : State) (p q new : Nat) : EQueue :=
  { s.queue p q with cfg := BitVec.ofNat 64 (mergeFields [⟨4, 0, fun _ => true⟩, ⟨12, 5, fun w => decide (w ≠ 0)⟩, ⟨13, 13, fun _ => true⟩,
    ⟨27, 14, fun i => decide (i / 8192 = p / 32)⟩] (s.queue p q).cfg.toNat new) }

/-- R364 refuses `y` as the configuration of queue `q` of port `p`: it is gated, and another queue holds the gate or the queue is one of TC0. -/
def gateRefused (s : State) (p q : Nat) (y : EQueue) : Bool :=
  y.gated && ((portQueues s p).any (fun z => z.1 != q && z.2.gated && z.2.gbit == y.gbit) || queueClass s p q == some 0)

theorem gateRefused_iff {s : State} {p q : Nat} {y : EQueue} : gateRefused s p q y = true ↔
    y.gated = true ∧ (queueClass s p q = some 0 ∨ ∃ z ∈ portQueues s p, z.1 ≠ q ∧ z.2.gated = true ∧ z.2.gbit = y.gbit) := by
  simp [gateRefused, and_assoc, or_comm]

/-- Only the configuration of a queue counts. -/
theorem gateRefused_congr {s : State} {p q : Nat} {x y : EQueue} (h : x.cfg = y.cfg) : gateRefused s p q x = gateRefused s p q y := by
  simp only [gateRefused, EQueue.gated, EQueue.gbit, h]

/-- A queue whose configuration R364 takes shares a gate with no other queue of the port. -/
theorem eq_of_not_gateRefused {s : State} {p q : Nat} {y : EQueue} {z : Nat × EQueue} (h : gateRefused s p q y = false) (hy : y.gated = true)
    (hz : z ∈ portQueues s p) (hg : z.2.gated = true) (hb : z.2.gbit = y.gbit) : z.1 = q := by
  by_contra hne
  exact absurd (gateRefused_iff.2 ⟨hy, .inr ⟨z, hz, hne, hg, hb⟩⟩) (by simp [h])

theorem tickShapers_queues (s : State) (p : Nat) : (tickShapers s p).net.queues = s.net.queues :=
  List.foldlRecOn (motive := fun t : State => t.net.queues = s.net.queues) _ _ rfl (fun _ h _ _ => h)

theorem writeQCfg_refused {s : State} {new p q : Nat} (hp : s.reg WELD_Q_SEL / 4096 % 64 = p) (hq : s.reg WELD_Q_SEL % 4096 = q)
    (h : gateRefused s p q (configuredQueue s p q new) = true) : writeQCfg s new = s := by
  subst hp hq
  exact if_pos h

/-- A write that R364 takes gives the queue its configuration; the shapers it brings up to date leave the queues as they were. -/
theorem writeQCfg_taken_queues {s : State} {new p q : Nat} (hp : s.reg WELD_Q_SEL / 4096 % 64 = p) (hq : s.reg WELD_Q_SEL % 4096 = q)
    (h : gateRefused s p q (configuredQueue s p q new) = false) :
    (writeQCfg s new).net.queues = (s.setQueue p q (configuredQueue s p q new)).net.queues := by
  subst hp hq
  have hw : writeQCfg s new = State.setQueue _ _ _ _ := if_neg (Bool.eq_false_iff.1 h)
  rw [hw]
  simp only [State.setQueue]
  congr 1
  split <;> exact tickShapers_queues ..

/-! The queues of a port. -/

theorem mem_of_mem_mset {α : Type} {m : Map α} {i : Nat} {v : α} {x : Nat × α} (h : x ∈ mset m i v) : x = (i, v) ∨ x ∈ m := by
  induction m with
  | nil => simpa [mset] using h
  | cons p m ih =>
    obtain ⟨k, w⟩ := p
    simp only [mset] at h
    split at h
    · simpa using h
    · split at h <;> simp only [List.mem_cons] at h ⊢ <;> tauto

/-- After a write of queue `q` of port `p` a port holds what it held, and `p` the queue written. -/
theorem mem_portQueues_setQueue {s : State} {p q p' : Nat} {y : EQueue} {z : Nat × EQueue} (hq : q < 4096)
    (h : z ∈ portQueues (s.setQueue p q y) p') : (p' = p ∧ z = (q, y)) ∨ z ∈ portQueues s p' := by
  obtain ⟨x, hx, rfl⟩ := List.mem_map.1 h
  obtain ⟨hx, hp⟩ := List.mem_filter.1 hx
  rcases mem_of_mem_mset hx with rfl | hx
  · have hdiv : (4096 * p + q) / 4096 = p := by omega
    have hmod : (4096 * p + q) % 4096 = q := by omega
    exact .inl ⟨(by simpa [hdiv] using hp : p = p').symm, by simp only [hmod]⟩
  · exact .inr (List.mem_map.2 ⟨x, List.mem_filter.2 ⟨hx, hp⟩, rfl⟩)

theorem pairwise_of_risingAbove {α : Type} {k : Nat} {v : α} {m : Map α} (h : risingAbove k m) : ((k, v) :: m).Pairwise (fun a b => a.1 < b.1) := by
  induction m generalizing k v with
  | nil => exact List.pairwise_singleton ..
  | cons p m ih =>
    obtain ⟨j, w⟩ := p
    obtain ⟨hkj, hm⟩ := h
    have hjm := ih (v := w) hm
    refine List.pairwise_cons.2 ⟨fun x hx => ?_, hjm⟩
    rcases List.mem_cons.1 hx with rfl | hx
    · exact hkj
    · exact hkj.trans (List.rel_of_pairwise_cons hjm hx)

theorem pairwise_of_mkeysRising {α : Type} : ∀ {m : Map α}, mkeysRising m = true → m.Pairwise (fun a b => a.1 < b.1)
  | [], _ => .nil
  | (k, v) :: m, h => pairwise_of_risingAbove ((mkeysRising_cons k v m).1 h)

theorem portQueues_pairwise {s : State} (h : mkeysRising s.net.queues = true) (p : Nat) : (portQueues s p).Pairwise (fun a b => a.1 < b.1) := by
  refine List.pairwise_map.2 (List.pairwise_filter.2 ((pairwise_of_mkeysRising h).imp ?_))
  intro a b hlt ha hb
  simp only [beq_iff_eq] at ha hb
  omega

/-! One queue per gate (R364). -/

theorem EQueue.gbit_lt (q : EQueue) : q.gbit < 8 := Nat.mod_lt _ (by decide)

theorem oneQueuePerGate_congr {s t : State} (h : t.net.queues = s.net.queues) (p : Nat) : OneQueuePerGate t p ↔ OneQueuePerGate s p := by
  simp only [OneQueuePerGate, portQueues, h]

theorem oneQueuePerGate_setQueue {s : State} {p q p' : Nat} {y : EQueue} (hq : q < 4096) (hy : gateRefused s p q y = false)
    (h : OneQueuePerGate s p') : OneQueuePerGate (s.setQueue p q y) p' := by
  intro a ha b hb ga gb hab
  rcases mem_portQueues_setQueue hq ha with ⟨rfl, rfl⟩ | ha' <;> rcases mem_portQueues_setQueue hq hb with ⟨hp, rfl⟩ | hb'
  · rfl
  · exact (eq_of_not_gateRefused hy ga hb' gb hab.symm).symm
  · subst hp
    exact eq_of_not_gateRefused hy gb ha' ga hab
  · exact h a ha' b hb' ga gb hab

theorem oneQueuePerGate_writeQCfg {s : State} {p : Nat} (new : Nat) (h : OneQueuePerGate s p) : OneQueuePerGate (writeQCfg s new) p := by
  cases hr : gateRefused s _ _ (configuredQueue s (s.reg WELD_Q_SEL / 4096 % 64) (s.reg WELD_Q_SEL % 4096) new) with
  | true => rwa [writeQCfg_refused rfl rfl hr]
  | false =>
    have hset := oneQueuePerGate_setQueue (Nat.mod_lt _ (by decide)) hr h
    exact (oneQueuePerGate_congr (writeQCfg_taken_queues rfl rfl hr) p).2 hset

/-- Each gated queue has a gate of its own, and there are 8 gates. -/
theorem gatedQueues_length_le {s : State} {p : Nat} (hk : mkeysRising s.net.queues = true) (h : OneQueuePerGate s p) :
    ((portQueues s p).filter (fun z => z.2.gated)).length ≤ 8 := by
  have hnodup : (((portQueues s p).filter (fun z => z.2.gated)).map (fun z => z.2.gbit)).Nodup := by
    refine List.pairwise_map.2 (((portQueues_pairwise hk p).filter _).imp_of_mem ?_)
    intro a b ha hb hlt hab
    obtain ⟨ha, ga⟩ := List.mem_filter.1 ha
    obtain ⟨hb, gb⟩ := List.mem_filter.1 hb
    exact Nat.ne_of_lt hlt (h a ha b hb ga gb hab)
  have hsub : ((portQueues s p).filter (fun z => z.2.gated)).map (fun z => z.2.gbit) ⊆ List.range 8 := by
    intro g hg
    obtain ⟨z, -, rfl⟩ := List.mem_map.1 hg
    exact List.mem_range.2 z.2.gbit_lt
  simpa using (hnodup.subperm hsub).length_le

/-- Settles O56: the shaper conditions by their definitions, the write by the test of R364 that it makes, and the 8 gates by counting. -/
theorem gatesAndShapers : Obligations.GatesAndShapers := by
  unfold Obligations.GatesAndShapers
  refine ⟨?_, fun s cls q => shaperCommitted_unshaped, gateAllows_tc0, ?_, ?_, fun s new p hk h => ⟨oneQueuePerGate_writeQCfg new h, gatedQueues_length_le hk h⟩⟩
  · rintro s cls q x hc hq rfl hx
    rw [shaperCommitted_bound hc hq hx, shaperPeak_bound hc hq hx]
    exact ⟨fun h => by simp [h], fun h => by simp [h]⟩
  · intro s v hp hf hd hr
    have hw := writeBar0_pf0 (v := v.toNat) hp hf hd hr (off := WELD_Q_CFG) rfl rfl
    exact congrArg Host.Outcome.next (hw.trans (writeRegs_weldQCfg s v.toNat))
  · intro s new p q y hp hq hy hg hheld
    have hr := gateRefused_iff.2 ⟨hg, hheld⟩
    exact writeQCfg_refused hp hq ((gateRefused_congr hy).symm.trans hr)

end Sys2Proof.Machine
end

section
/-! PROOFS. The guard of an instruction (R428): a word whose guard does not hold, and a reserved encoding. -/

namespace Sys2Proof.Machine

open Sys2Proof

theorem guardHolds_iff (k : Core) (w : W32) : guardHolds k w = true ↔ xor (k.getP (iPG w)) (iPN w) = true := Iff.rfl

theorem coreActive_of_running {k : Core} (m : Mn) (h : k.run = .running) : coreActive k m = true := by
  simp [coreActive, h]

theorem exec_illegalInstruction_reserved {s s1 : State} {i : Nat} {w : W32} (hf : Fetches s i w s1) (hd : isaDecode w = none) :
    exec (.illegalInstruction i) s = .next (takeXcpt s1 i 1 0 w) := by
  obtain ⟨hrun, bs, hfetch, rfl⟩ := hf
  have harm : exec (.illegalInstruction i) s = execIllegalInstruction i s := rfl
  simp [harm, execIllegalInstruction, hrun, hfetch, hd]

section GuardedOff

/-! Core `i` has fetched a word of instruction `m` whose guard does not hold. -/

variable {m : Mn} {i : Nat} {w : W32} {s s1 : State} (hf : Fetches s i w s1) (hd : isaDecode w = some m) (hg : guardHolds (s1.core i) w = false)
include hf hd hg

/-- `isa` tests the guard before the effect `f`, which is therefore never asked (R428). -/
theorem isa_guardedOff (f : W32 → State → Exec) : isa m i f s = retire s1 i ((s1.core i).pc + 4#64) := by
  obtain ⟨hrun, bs, hfetch, rfl⟩ := hf
  rw [guardHolds] at hg
  simp [isa, coreActive_of_running m hrun, hfetch, hd, hg, runExec]

theorem isaG_guardedOff (f : W32 → Core → W64) : isaG m i f s = retire s1 i ((s1.core i).pc + 4#64) := isa_guardedOff hf hd hg _

theorem isaP_guardedOff (f : W32 → Core → Bool) : isaP m i f s = retire s1 i ((s1.core i).pc + 4#64) := isa_guardedOff hf hd hg _

theorem isaV_guardedOff (f : W32 → Core → BitVec 256) : isaV m i f s = retire s1 i ((s1.core i).pc + 4#64) := isa_guardedOff hf hd hg _

theorem isaLoad_guardedOff (n : Nat) (f : W32 → Core → List Byte → Core) : isaLoad m i n f s = retire s1 i ((s1.core i).pc + 4#64) :=
  isa_guardedOff hf hd hg _

theorem isaStore_guardedOff (n : Nat) (f : W32 → Core → List Byte) : isaStore m i n f s = retire s1 i ((s1.core i).pc + 4#64) :=
  isa_guardedOff hf hd hg _

/-- Every row of the instruction set runs through `isa`, by way of the operation it shares with the rows of its kind; what is left is
`retire`, which advances the PC and counts the instruction (log 27). -/
theorem exec_guardedOff {c : Nat → Instr} (hc : m.runs c) : exec (c i) s = .next (retire s1 i ((s1.core i).pc + 4#64)) := by
  cases m with
  | add | sub | and | or | xor | shl | shr | sra | mul | mulh | mulhu | div | divu | rem | remu | min | max | minu | maxu | clz | popc | rdp
  | addi | andi | ori | xori | shli | shri | srai | movz | movk0 | movk1 | movk2 | movk3
  | fadd | fsub | fmul | fdiv | fsqrt | fmin | fmax | fma | fcvt | fcvti | icvtf | vfsqd | vfsumd | vext | ksrd | evrd =>
    cases hc
    exact congrArg Host.Outcome.next (isaG_guardedOff hf hd hg _)
  | cmpeq | cmpne | cmplt | cmpge | cmpltu | cmpgeu | cmpeqi | cmplti | pand | por | pxor | pandn | feq | flt | fle =>
    cases hc
    exact congrArg Host.Outcome.next (isaP_guardedOff hf hd hg _)
  | vadd | vsub | vmul | vand | vor | vxor | vshl | vshr | vsra | vmin | vmax | vadds | vsubs | vclmul | vclmulh
  | vfadd | vfsub | vfmul | vfdiv | vfsqrt | vfmin | vfmax | vfma | vfcvti | vicvtf | vbcast | vins | vmov | kdec | kacc2f =>
    cases hc
    exact congrArg Host.Outcome.next (isaV_guardedOff hf hd hg _)
  | ld8u | ld16u | ld32u | ld64 | ld8s | ld16s | ld32s | vld =>
    cases hc
    exact congrArg Host.Outcome.next (isaLoad_guardedOff hf hd hg _ _)
  | st8 | st16 | st32 | st64 | vst =>
    cases hc
    exact congrArg Host.Outcome.next (isaStore_guardedOff hf hd hg _ _)
  | amoadd | amocas | amoswp | br | bl | jr | jrl | kld | kst | kz | kadd | kmac | kenc | kencf | fence | icinv | halt | wfe | sev | tdl | time
  | cadd | cset | crd | cwatch | cunwatch | cwst | istart | pstart | post =>
    cases hc
    exact congrArg Host.Outcome.next (isa_guardedOff hf hd hg _)

end GuardedOff

/-- Settles O13: a guarded-off word passes through the one way in which instructions run, and a reserved encoding traps before any guard is read. -/
theorem guardedOffInstructionOnlyPasses : Obligations.GuardedOffInstructionOnlyPasses := by
  unfold Obligations.GuardedOffInstructionOnlyPasses
  exact ⟨fun _ _ _ _ _ _ hc hf hd hg => exec_guardedOff hf hd hg hc, fun _ _ _ _ => exec_illegalInstruction_reserved, guardHolds_iff⟩

end Sys2Proof.Machine
end

section
/-! PROOFS. The decoding of instruction words: a word is the instruction of the row of R430 whose fields it has (R427, R428). -/

namespace Sys2Proof.Machine

open Sys2Proof

theorem guardM_eq_some {b : Bool} {o : Option Mn} {m : Mn} : guardM b o = some m ↔ b = true ∧ o = some m := by
  cases b <;> simp [guardM]

/-- The rows of one major opcode. -/
def isaRowsOf (op : Nat) : List (Mn × Nat × (W32 → Bool)) := isaRows.filter (fun r => r.2.1 == op)

/-- `o` is the instruction of the row among `rows` whose condition `w` meets, and none where `w` meets no row's. -/
structure PicksRow (rows : List (Mn × Nat × (W32 → Bool))) (o : Option Mn) (w : W32) : Prop where
  eq_some_iff : ∀ m, o = some m ↔ ∃ r ∈ rows, r.1 = m ∧ r.2.2 w = true

theorem picksRow_none (w : W32) : PicksRow [] none w := ⟨by simp⟩

theorem picksRow_single (m : Mn) (op : Nat) (is : W32 → Bool) (w : W32) : PicksRow [isaRow m op is] (guardM (is w) (some m)) w :=
  ⟨fun n => by cases h : is w <;> simp [guardM, isaRow, h]⟩

theorem picksRow_always (m : Mn) (op : Nat) (w : W32) : PicksRow [isaRow m op fun _ => true] (some m) w := picksRow_single m op (fun _ => true) w

/-- Mnemonics that a field `f` numbers, number `n` under the condition `g n`. -/
theorem picksRow_numberedIf (f : W32 → Nat) (g : Nat → W32 → Bool) (is : Nat → W32 → Bool) (op : Nat) (w : W32) {l : List Mn}
    {rows : List (Mn × Nat × (W32 → Bool))} (hrows : rows = l.mapIdx fun n m => isaRow m op (is n))
    (his : ∀ n, is n w = (f w == n && g n w)) : PicksRow rows (guardM (g (f w) w) l[f w]?) w := by
  subst hrows
  refine ⟨fun m => ?_⟩
  simp only [guardM_eq_some, List.getElem?_eq_some_iff, List.mem_mapIdx, isaRow]
  constructor
  · rintro ⟨hg, hn, rfl⟩
    exact ⟨_, ⟨f w, hn, rfl⟩, rfl, by simp [his, hg]⟩
  · rintro ⟨r, ⟨n, hn, rfl⟩, hm, hw⟩
    obtain ⟨rfl, hg⟩ : f w = n ∧ g n w = true := by simpa [his] using hw
    exact ⟨hg, hn, hm⟩

theorem picksRow_guarded (f : W32 → Nat) (g : W32 → Bool) (op : Nat) (w : W32) {l : List Mn} {rows : List (Mn × Nat × (W32 → Bool))}
    (hrows : rows = l.mapIdx fun n m => isaRow m op fun w => f w == n && g w) : PicksRow rows (guardM (g w) l[f w]?) w :=
  picksRow_numberedIf f (fun _ => g) _ op w hrows (by simp)

theorem picksRow_numbered (f : W32 → Nat) (op : Nat) (w : W32) {l : List Mn} {rows : List (Mn × Nat × (W32 → Bool))}
    (hrows : rows = l.mapIdx fun n m => isaRow m op (f · == n)) : PicksRow rows l[f w]? w :=
  picksRow_numberedIf f (fun _ _ => true) _ op w hrows (by simp)

/-! The opcodes whose rows differ in their conditions. -/

theorem picksRow_predicate (w : W32) :
    PicksRow (isaRowsOf 0x10) (guardM (predOk (iD w) && predOk (iA w) && predOk (iB w)) [Mn.pand, .por, .pxor, .pandn][iFN w]?) w :=
  picksRow_numberedIf iFN (fun _ w => predOk (iD w) && predOk (iA w) && predOk (iB w))
    (fun n w => iFN w == n && predOk (iD w) && predOk (iA w) && predOk (iB w)) 0x10 w rfl (by simp [Bool.and_assoc])

/-- The comparisons, from number 11 on, write a predicate. -/
theorem picksRow_decFp (w : W32) : PicksRow (isaRowsOf 0x11) (decFp w) w :=
  picksRow_numberedIf iFn6 (fun n w => decide (n < 11) || predOk (iD w))
    (fun n => if n < 11 then (iFn6 · == n) else fun w => iFn6 w == n && predOk (iD w)) 0x11 w rfl (fun n => by split <;> simp [*])

/-- The carry-less products, from number 13 on, have lanes of 64 bits. -/
theorem picksRow_vector (w : W32) : PicksRow (isaRowsOf 0x23) (guardM (decide (iFn5 w < 13) || iSel w == 3)
    ([Mn.vadd, .vsub, .vmul, .vand, .vor, .vxor, .vshl, .vshr, .vsra, .vmin, .vmax, .vadds, .vsubs, .vclmul, .vclmulh][iFn5 w]?)) w :=
  picksRow_numberedIf iFn5 (fun n w => decide (n < 13) || iSel w == 3)
    (fun n => if n < 13 then (iFn5 · == n) else fun w => iFn5 w == n && iSel w == 3) 0x23 w rfl (fun n => by split <;> simp [*])

theorem picksRow_decKblk (w : W32) : PicksRow (isaRowsOf 0x26) (decKblk w) w := by
  refine ⟨fun m => ?_⟩
  change _ ↔ ∃ r ∈ [_, _, _, _, _, _, _], _
  simp only [decKblk, isaRow, List.mem_cons, exists_eq_or_imp, List.not_mem_nil]
  split
  case h_8 => simp; tauto
  all_goals simp [*, guardM_eq_some, and_comm]

theorem picksRow_decSync (w : W32) : PicksRow (isaRowsOf 0x2A) (decSync (iFN w)) w := by
  refine ⟨fun m => ?_⟩
  change _ ↔ ∃ r ∈ [_, _, _], _
  simp only [decSync, isaRow, List.mem_cons, exists_eq_or_imp, List.not_mem_nil]
  split
  · simp [*]
  split
  · simp [*]
  · simp [*, guardM_eq_some, and_comm]

theorem iOP_lt (w : W32) : iOP w < 64 := Nat.mod_lt _ (by decide)

theorem isaDecode_iff_rowOf (w : W32) (m : Mn) :
    isaDecode w = some m ↔ (iPG w ≠ 0 ∨ iPN w = false) ∧ ∃ r ∈ isaRowsOf (iOP w), r.1 = m ∧ r.2.2 w = true := by
  have hlt := iOP_lt w
  rw [isaDecode, guardM_eq_some]
  refine and_congr (by simp) ?_
  refine PicksRow.eq_some_iff ?_ m
  generalize iOP w = op at hlt ⊢
  interval_cases op
  exacts [picksRow_numbered iFN 0x00 w rfl, picksRow_always .., picksRow_always .., picksRow_always .., picksRow_always .., picksRow_single ..,
    picksRow_single .., picksRow_single .., picksRow_single .., picksRow_single .., picksRow_single .., picksRow_single .., picksRow_single ..,
    picksRow_guarded iFN (fun w => predOk (iD w)) 0x0D w rfl, picksRow_single .., picksRow_single .., picksRow_predicate w, picksRow_decFp w,
    picksRow_always .., picksRow_always .., picksRow_always .., picksRow_always .., picksRow_always .., picksRow_always .., picksRow_always ..,
    picksRow_always .., picksRow_always .., picksRow_always .., picksRow_always .., picksRow_always .., picksRow_always ..,
    picksRow_numbered iFN 0x1F w rfl, picksRow_always .., picksRow_always .., picksRow_numbered iFN 0x22 w rfl, picksRow_vector w,
    picksRow_numbered iFN 0x24 w rfl, picksRow_numbered iFn5 0x25 w rfl, picksRow_decKblk w, picksRow_single .., picksRow_single ..,
    picksRow_single .., picksRow_decSync w, picksRow_numbered iFN 0x2B w rfl, picksRow_numbered iFn5 0x2C w rfl, picksRow_numbered iFN 0x2D w rfl,
    picksRow_none w, picksRow_none w, picksRow_none w, picksRow_none w, picksRow_none w, picksRow_none w, picksRow_none w, picksRow_none w,
    picksRow_none w, picksRow_none w, picksRow_none w, picksRow_none w, picksRow_none w, picksRow_none w, picksRow_none w, picksRow_none w,
    picksRow_none w, picksRow_none w]

theorem exists_isaRowsOf_iff {op : Nat} {m : Mn} {w : W32} :
    (∃ r ∈ isaRowsOf op, r.1 = m ∧ r.2.2 w = true) ↔ ∃ r ∈ isaRows, r.1 = m ∧ op = r.2.1 ∧ r.2.2 w = true := by
  simp only [isaRowsOf, List.mem_filter, beq_iff_eq]
  exact ⟨fun ⟨r, ⟨hr, ho⟩, hm, hw⟩ => ⟨r, hr, hm, ho.symm, hw⟩, fun ⟨r, hr, hm, ho, hw⟩ => ⟨r, ⟨hr, ho.symm⟩, hm, hw⟩⟩

theorem isaDecode_iff_row (w : W32) (m : Mn) :
    isaDecode w = some m ↔ (iPG w ≠ 0 ∨ iPN w = false) ∧ ∃ r ∈ isaRows, r.1 = m ∧ iOP w = r.2.1 ∧ r.2.2 w = true := by
  rw [isaDecode_iff_rowOf, exists_isaRowsOf_iff]

/-- The rows stand in the order of the mnemonics, so each mnemonic has one row. -/
theorem isaRows_ctorIdx : isaRows.map (fun r => r.1.ctorIdx) = List.range 138 := by decide +kernel

theorem isaRows_nodup : (isaRows.map (·.1)).Nodup := by
  refine List.Nodup.of_map Mn.ctorIdx ?_
  rw [List.map_map]
  exact isaRows_ctorIdx ▸ List.nodup_range

/-- Settles O14: each opcode's part of the decoder picks the row whose fields the word has. -/
theorem wordsDecodeByTheTable : Obligations.WordsDecodeByTheTable := by
  unfold Obligations.WordsDecodeByTheTable
  exact ⟨isaDecode_iff_row, isaRows_nodup⟩

end Sys2Proof.Machine
end

section
/-! PROOFS. How an instruction runs whose word stands at the PC of a running core and whose guard holds (R427, R428, R430). -/

namespace Sys2Proof.Machine

open Sys2Proof

theorem iPG_of_guardHolds {k : Core} {w : W32} (h : guardHolds k w = true) : iPG w ≠ 0 ∨ iPN w = false := by
  by_cases hp : iPG w = 0
  · simpa [guardHolds, Core.getP, hp] using h
  · exact .inl hp

/-- The word of a row, where its guard may hold, decodes to the mnemonic of the row. -/
theorem isaDecode_of_row {m : Mn} {op : Nat} {is : W32 → Bool} {k : Core} {w : W32} (hr : isaRows[m.ctorIdx]? = some (isaRow m op is))
    (hop : iOP w = op) (hw : is w = true) (hg : guardHolds k w = true) : isaDecode w = some m :=
  (isaDecode_iff_row w m).2 ⟨iPG_of_guardHolds hg, _, List.mem_of_getElem? hr, rfl, hop, hw⟩

/-- An instruction whose word is fetched and whose guard holds takes its effect. -/
theorem isa_executes {m : Mn} {op : Nat} {is : W32 → Bool} {s s1 : State} {i : Nat} {w : W32} (hr : isaRows[m.ctorIdx]? = some (isaRow m op is))
    (hx : Executes s i op w s1) (hw : is w = true) (f : W32 → State → Exec) : isa m i f s = runExec i w (f w s1) := by
  obtain ⟨⟨hrun, bs, hfetch, rfl⟩, hop, hg⟩ := hx
  have hd := isaDecode_of_row hr hop hw hg
  rw [guardHolds] at hg
  simp [isa, coreActive_of_running m hrun, hfetch, hd, hg]

@[simp] theorem Core.setG_pc (k : Core) (n : Nat) (v : W64) : (k.setG n v).pc = k.pc := by unfold Core.setG; split <;> rfl
@[simp] theorem Core.setP_pc (k : Core) (n : Nat) (b : Bool) : (k.setP n b).pc = k.pc := by unfold Core.setP; split <;> rfl
@[simp] theorem Core.setV_pc (k : Core) (n : Nat) (v : BitVec 256) : (k.setV n v).pc = k.pc := rfl
@[simp] theorem Core.setAcc_pc (k : Core) (n : Nat) (a : Acc) : (k.setAcc n a).pc = k.pc := rfl

/-- A row of `RegisterRow`, from the one way in which instructions run: what the command does to the core's registers, where the word's fields
are the row's, is `f`. -/
theorem registerRow_of_isa {c : Nat → Instr} {op : Nat} {is : W32 → Bool} {f g : W32 → Core → Core} (m : Mn)
    (hr : isaRows[m.ctorIdx]? = some (isaRow m op is))
    (hc : ∀ i s, exec (c i) s = .next (isa m i (fun w s => .done (s.setCore i (g w (s.core i)))) s))
    (hgf : ∀ w k, is w = true → g w k = f w k) (hpc : ∀ w k, (f w k).pc = k.pc) : RegisterRow c op is f := by
  intro s s1 i w hx hw
  rw [hc, isa_executes hr hx hw, hgf w _ hw, runExec, State.core_setCore, hpc]

section RegisterRows

variable {c : Nat → Instr} {op : Nat} {is : W32 → Bool} (m : Mn) (hr : isaRows[m.ctorIdx]? = some (isaRow m op is))
include hr

theorem registerRow_g {v : W32 → Core → W64} (hc : ∀ i s, exec (c i) s = .next (isaG m i v s)) : RegisterRow c op is fun w k => k.setG (iD w) (v w k) :=
  registerRow_of_isa (g := fun w k => k.setG (iD w) (v w k)) m hr hc (fun _ _ _ => rfl) (fun _ _ => Core.setG_pc ..)

theorem registerRow_p {v : W32 → Core → Bool} (hc : ∀ i s, exec (c i) s = .next (isaP m i v s)) : RegisterRow c op is fun w k => k.setP (iD w) (v w k) :=
  registerRow_of_isa (g := fun w k => k.setP (iD w) (v w k)) m hr hc (fun _ _ _ => rfl) (fun _ _ => Core.setP_pc ..)

theorem registerRow_v {v : W32 → Core → BitVec 256} (hc : ∀ i s, exec (c i) s = .next (isaV m i v s)) :
    RegisterRow c op is fun w k => k.setV (iD w) (v w k) :=
  registerRow_of_isa (g := fun w k => k.setV (iD w) (v w k)) m hr hc (fun _ _ _ => rfl) (fun _ _ => Core.setV_pc ..)

theorem registerRow_acc {v : W32 → Core → Acc} (hc : ∀ i s, exec (c i) s = .next (isaAcc m i v s)) :
    RegisterRow c op is fun w k => k.setAcc (iD w) (v w k) :=
  registerRow_of_isa (g := fun w k => k.setAcc (iD w) (v w k)) m hr hc (fun _ _ _ => rfl) (fun _ _ => Core.setAcc_pc ..)

end RegisterRows

/-- Settles O1, each row by the operation that gives its result. -/
theorem integerRegisterResults : Obligations.IntegerRegisterResults := by
  unfold Obligations.IntegerRegisterResults
  exact ⟨registerRow_g .add rfl fun _ _ => rfl, registerRow_g .sub rfl fun _ _ => rfl, registerRow_g .and rfl fun _ _ => rfl,
    registerRow_g .or rfl fun _ _ => rfl, registerRow_g .xor rfl fun _ _ => rfl, registerRow_g .shl rfl fun _ _ => rfl,
    registerRow_g .shr rfl fun _ _ => rfl, registerRow_g .sra rfl fun _ _ => rfl, registerRow_g .mul rfl fun _ _ => rfl,
    registerRow_g .mulh rfl fun _ _ => rfl, registerRow_g .mulhu rfl fun _ _ => rfl, registerRow_g .div rfl fun _ _ => rfl,
    registerRow_g .divu rfl fun _ _ => rfl, registerRow_g .rem rfl fun _ _ => rfl, registerRow_g .remu rfl fun _ _ => rfl,
    registerRow_g .min rfl fun _ _ => rfl, registerRow_g .max rfl fun _ _ => rfl, registerRow_g .minu rfl fun _ _ => rfl,
    registerRow_g .maxu rfl fun _ _ => rfl, registerRow_g .clz rfl fun _ _ => rfl, registerRow_g .popc rfl fun _ _ => rfl,
    registerRow_g .rdp rfl fun _ _ => rfl⟩

end Sys2Proof.Machine
end

section
/-! PROOFS. The results of the instructions that read and write the core's own registers (R430, R431). -/

namespace Sys2Proof.Machine

open Sys2Proof

theorem registerRow_g_of_eq {c : Nat → Instr} {op : Nat} {is : W32 → Bool} (m : Mn) (hr : isaRows[m.ctorIdx]? = some (isaRow m op is))
    {v v' : W32 → Core → W64} (hc : ∀ i s, exec (c i) s = .next (isaG m i v s)) (hv : ∀ w k, is w = true → v w k = v' w k) :
    RegisterRow c op is fun w k => k.setG (iD w) (v' w k) :=
  registerRow_of_isa (g := fun w k => k.setG (iD w) (v w k)) m hr hc (fun w k h => by rw [hv w k h]) (fun _ _ => Core.setG_pc ..)

/-- A shift count that is not reserved: its sign bit is 0, and it is below 64. -/
theorem shiftCount_eq {w : W32} (h : bn w 31 20 < 64) : (BitVec.ofInt 64 (iImm12 w)).toNat % 64 = bn w 31 20 := by
  have hs : iImm12 w = (bn w 31 20 : Int) := by
    unfold iImm12 sgn
    rw [if_pos (by omega)]
    congr 1
    omega
  rw [hs, BitVec.ofInt_natCast, BitVec.toNat_ofNat]
  omega

/-- Settles O2, each row by the operation that gives its result. -/
theorem immediateAndMoveResults : Obligations.ImmediateAndMoveResults := by
  unfold Obligations.ImmediateAndMoveResults
  exact ⟨registerRow_g .addi rfl fun _ _ => rfl, registerRow_g .andi rfl fun _ _ => rfl, registerRow_g .ori rfl fun _ _ => rfl,
    registerRow_g .xori rfl fun _ _ => rfl,
    registerRow_g_of_eq .shli rfl (fun _ _ => rfl) fun w k h => congrArg (k.getG (iA w) <<< ·) (shiftCount_eq (of_decide_eq_true h)),
    registerRow_g_of_eq .shri rfl (fun _ _ => rfl) fun w k h => congrArg (k.getG (iA w) >>> ·) (shiftCount_eq (of_decide_eq_true h)),
    registerRow_g_of_eq .srai rfl (fun _ _ => rfl) fun w k h => congrArg (k.getG (iA w)).sshiftRight (shiftCount_eq (of_decide_eq_true h)),
    registerRow_g .movz rfl fun _ _ => rfl, registerRow_g .movk0 rfl fun _ _ => rfl, registerRow_g .movk1 rfl fun _ _ => rfl,
    registerRow_g .movk2 rfl fun _ _ => rfl, registerRow_g .movk3 rfl fun _ _ => rfl⟩

theorem registerRow_p_of_eq {c : Nat → Instr} {op : Nat} {is : W32 → Bool} (m : Mn) (hr : isaRows[m.ctorIdx]? = some (isaRow m op is))
    {v v' : W32 → Core → Bool} (hc : ∀ i s, exec (c i) s = .next (isaP m i v s)) (hv : ∀ w k, v w k = v' w k) :
    RegisterRow c op is fun w k => k.setP (iD w) (v' w k) :=
  registerRow_of_isa (g := fun w k => k.setP (iD w) (v w k)) m hr hc (fun w k _ => by rw [hv w k]) (fun _ _ => Core.setP_pc ..)

/-- Settles O3, each row by the comparison that gives its result. -/
theorem predicateResults : Obligations.PredicateResults := by
  unfold Obligations.PredicateResults
  exact ⟨registerRow_p .cmpeq rfl fun _ _ => rfl, registerRow_p .cmpne rfl fun _ _ => rfl, registerRow_p .cmplt rfl fun _ _ => rfl,
    registerRow_p_of_eq .cmpge rfl (fun _ _ => rfl) fun _ _ => BitVec.sle_eq_not_slt.symm,
    registerRow_p .cmpltu rfl fun _ _ => rfl,
    registerRow_p_of_eq .cmpgeu rfl (fun _ _ => rfl) fun _ _ => (BitVec.ule_eq_not_ult _ _).symm,
    registerRow_p .cmpeqi rfl fun _ _ => rfl, registerRow_p .cmplti rfl fun _ _ => rfl, registerRow_p .pand rfl fun _ _ => rfl,
    registerRow_p .por rfl fun _ _ => rfl, registerRow_p .pxor rfl fun _ _ => rfl, registerRow_p .pandn rfl fun _ _ => rfl,
    registerRow_p .feq rfl fun _ _ => rfl, registerRow_p .flt rfl fun _ _ => rfl, registerRow_p .fle rfl fun _ _ => rfl⟩

/-- The precision that FN[6] does not name. -/
theorem fpOther_eq (w : W32) : fpOther w = if fpFmt w = f64 then f32 else f64 := by
  unfold fpOther fpFmt
  split <;> decide

/-- Settles O4, each row by the operation that gives its result. -/
theorem floatingPointResults : Obligations.FloatingPointResults := by
  unfold Obligations.FloatingPointResults
  exact ⟨registerRow_g .fadd rfl fun _ _ => rfl, registerRow_g .fsub rfl fun _ _ => rfl, registerRow_g .fmul rfl fun _ _ => rfl,
    registerRow_g .fdiv rfl fun _ _ => rfl, registerRow_g .fsqrt rfl fun _ _ => rfl, registerRow_g .fmin rfl fun _ _ => rfl,
    registerRow_g .fmax rfl fun _ _ => rfl, registerRow_g .fma rfl fun _ _ => rfl,
    registerRow_g_of_eq .fcvt rfl (fun _ _ => rfl) fun w k _ => by rw [fpOther_eq w],
    registerRow_g .fcvti rfl fun _ _ => rfl, registerRow_g .icvtf rfl fun _ _ => rfl⟩

/-- Settles O5, each row by the operation that gives its result. -/
theorem vectorIntegerResults : Obligations.VectorIntegerResults := by
  unfold Obligations.VectorIntegerResults
  exact ⟨registerRow_v .vadd rfl fun _ _ => rfl, registerRow_v .vsub rfl fun _ _ => rfl, registerRow_v .vmul rfl fun _ _ => rfl,
    registerRow_v .vand rfl fun _ _ => rfl, registerRow_v .vor rfl fun _ _ => rfl, registerRow_v .vxor rfl fun _ _ => rfl,
    registerRow_v .vshl rfl fun _ _ => rfl, registerRow_v .vshr rfl fun _ _ => rfl, registerRow_v .vsra rfl fun _ _ => rfl,
    registerRow_v .vmin rfl fun _ _ => rfl, registerRow_v .vmax rfl fun _ _ => rfl, registerRow_v .vadds rfl fun _ _ => rfl,
    registerRow_v .vsubs rfl fun _ _ => rfl, registerRow_v .vclmul rfl fun _ _ => rfl, registerRow_v .vclmulh rfl fun _ _ => rfl,
    registerRow_v .vbcast rfl fun _ _ => rfl, registerRow_g .vext rfl fun _ _ => rfl, registerRow_v .vins rfl fun _ _ => rfl,
    registerRow_v .vmov rfl fun _ _ => rfl⟩

/-- Settles O6, each row by the operation that gives its result. -/
theorem vectorFloatResults : Obligations.VectorFloatResults := by
  unfold Obligations.VectorFloatResults
  exact ⟨registerRow_v .vfadd rfl fun _ _ => rfl, registerRow_v .vfsub rfl fun _ _ => rfl, registerRow_v .vfmul rfl fun _ _ => rfl,
    registerRow_v .vfdiv rfl fun _ _ => rfl, registerRow_v .vfsqrt rfl fun _ _ => rfl, registerRow_v .vfmin rfl fun _ _ => rfl,
    registerRow_v .vfmax rfl fun _ _ => rfl, registerRow_v .vfma rfl fun _ _ => rfl, registerRow_v .vfcvti rfl fun _ _ => rfl,
    registerRow_v .vicvtf rfl fun _ _ => rfl, registerRow_g .vfsqd rfl fun _ _ => rfl, registerRow_g .vfsumd rfl fun _ _ => rfl⟩

end Sys2Proof.Machine
end

section
/-! PROOFS. The instructions that reach beyond the core's registers: memory, branches, fractions, synchronisation, counters, engines, and
exceptions (R430, R432 to R439). -/

namespace Sys2Proof.Machine

open Sys2Proof

/-- A row of `EffectRow`, from the one way in which instructions run: where `ok` holds, the command is done in the state that `ok` gives. -/
theorem effectRow_of_isa {c : Nat → Instr} {op : Nat} {is : W32 → Bool} {ok : State → Nat → W32 → State → Prop} {f : Nat → W32 → State → Exec} (m : Mn)
    (hr : isaRows[m.ctorIdx]? = some (isaRow m op is)) (hc : ∀ i s, exec (c i) s = .next (isa m i (f i) s))
    (hf : ∀ s i w t, is w = true → ok s i w t → f i w s = .done t) : EffectRow c op is ok := by
  intro s s1 s2 i w hx hw hok
  rw [hc, isa_executes hr hx hw, hf _ _ _ _ hw hok]
  rfl

section EffectRows

variable {c : Nat → Instr} {op : Nat} {is : W32 → Bool} (m : Mn) (hr : isaRows[m.ctorIdx]? = some (isaRow m op is))
include hr

theorem effectRow_load {size : Nat} {f : W32 → Core → List Byte → Core} (hc : ∀ i s, exec (c i) s = .next (isaLoad m i size f s)) :
    EffectRow c op is (loads size f) := by
  refine effectRow_of_isa m hr hc ?_
  rintro s i w t - ⟨s1, bs, hload, rfl⟩
  rw [accessAt] at hload
  simp only [mAddr, hload]

theorem effectRow_store {size : Nat} {f : W32 → Core → List Byte} (hc : ∀ i s, exec (c i) s = .next (isaStore m i size f s)) :
    EffectRow c op is fun s i w t => ∃ bs, coreStore s i (accessAt s i w size) (f w (s.core i)) = .ok t bs := by
  refine effectRow_of_isa m hr hc ?_
  rintro s i w t - ⟨bs, hstore⟩
  rw [accessAt] at hstore
  simp only [mAddr, hstore]

theorem effectRow_st {size : Nat} (hc : ∀ i s, exec (c i) s = .next (isaSt m i size s)) : EffectRow c op is (stores size) :=
  effectRow_store (size := size) (f := fun w k => leBytes size (k.getG (iD w)).toNat) m hr hc

theorem effectRow_atomic {f : W32 → Core → W64 → Option W64} (hc : ∀ i s, exec (c i) s = .next (isaAmo m i f s)) : EffectRow c op is (atomics f) := by
  refine effectRow_of_isa m hr hc ?_
  rintro s i w t - ⟨s1, bs, hatomic, rfl⟩
  simp only [hatomic]

end EffectRows

/-- Settles O7, each row by the access of the memory that it makes. -/
theorem memoryInstructionResults : Obligations.MemoryInstructionResults := by
  unfold Obligations.MemoryInstructionResults
  exact ⟨effectRow_load .ld8u rfl fun _ _ => rfl, effectRow_load .ld16u rfl fun _ _ => rfl, effectRow_load .ld32u rfl fun _ _ => rfl,
    effectRow_load .ld64 rfl fun _ _ => rfl, effectRow_load .ld8s rfl fun _ _ => rfl, effectRow_load .ld16s rfl fun _ _ => rfl,
    effectRow_load .ld32s rfl fun _ _ => rfl, effectRow_st .st8 rfl fun _ _ => rfl, effectRow_st .st16 rfl fun _ _ => rfl,
    effectRow_st .st32 rfl fun _ _ => rfl, effectRow_st .st64 rfl fun _ _ => rfl, effectRow_load .vld rfl fun _ _ => rfl, effectRow_store (f := fun w k => leBytes 32 (k.getV (iD w)).toNat) .vst rfl fun _ _ => rfl,
    effectRow_atomic .amoadd rfl fun _ _ => rfl, effectRow_atomic .amocas rfl fun _ _ => rfl, effectRow_atomic .amoswp rfl fun _ _ => rfl⟩

/-- Settles O8: each runs through `isa`, and jumps. -/
theorem branchesAndJumps : Obligations.BranchesAndJumps := by
  unfold Obligations.BranchesAndJumps
  intro s s1 i w
  refine ⟨fun hx => ?_, fun hx => ?_, fun hx hfn ht => ?_, fun hx hfn ht => ?_⟩
  · exact congrArg Host.Outcome.next (isa_executes (m := .br) rfl hx rfl _)
  · exact congrArg Host.Outcome.next (isa_executes (m := .bl) rfl hx rfl _)
  · refine congrArg Host.Outcome.next ((isa_executes (m := .jr) rfl hx (by simp [hfn]) _).trans ?_)
    simp only [ht, if_true, runExec]
  · refine congrArg Host.Outcome.next ((isa_executes (m := .jrl) rfl hx (by simp [hfn]) _).trans ?_)
    simp only [ht, if_true, runExec]


/-! Fractions. -/

theorem effectRow_kld : EffectRow .kld 0x26 (fun w => iFn5 w == 0 && iSel w == 0) (fun s i w t =>
    ∃ s1 bs, coreLoadBlock s i ((s.core i).getG (iA w)).toNat = .ok s1 bs ∧ t = s1.setCore i (takesBlock w (s1.core i) (readBlock bs))) := by
  refine effectRow_of_isa .kld rfl (fun _ _ => rfl) ?_
  rintro s i w t - ⟨s1, bs, hload, rfl⟩
  simp only [hload]
  rfl

theorem effectRow_kst : EffectRow .kst 0x26 (fun w => iFn5 w == 1 && iSel w == 0) (fun s i w t =>
    let k := s.core i
    let h := hdrLo (k.getG (iB w))
    (kbfWidth (hFmt h)).isSome = true ∧ ∃ bs, coreStore s i (k.getG (iA w)).toNat (writeBlock (kstBlock h (regCodes k (iD w) h))) = .ok t bs) := by
  refine effectRow_of_isa .kst rfl (fun _ _ => rfl) ?_
  rintro s i w t - ⟨hfmt, bs, hstore⟩
  have hnone : (kbfWidth (hFmt (hdrLo ((s.core i).getG (iB w))))).isNone = false := by simpa using hfmt
  simp only [hnone, hstore, Bool.false_eq_true, if_false]

theorem effectRow_enc {c : Nat → Instr} {op : Nat} {is : W32 → Bool} {src : W32 → Core → List Val × Bool} (m : Mn)
    (hr : isaRows[m.ctorIdx]? = some (isaRow m op is)) (hc : ∀ i s, exec (c i) s = .next (isaEnc m i src s)) : EffectRow c op is (encodes src) := by
  refine effectRow_of_isa m hr hc ?_
  rintro s i w t - rfl
  rfl

/-- Settles O9, each row by the operation that gives its result. -/
theorem fractionInstructionResults : Obligations.FractionInstructionResults := by
  unfold Obligations.FractionInstructionResults
  exact ⟨effectRow_kld, effectRow_kst, registerRow_v .kdec rfl fun _ _ => rfl, registerRow_acc .kz rfl fun _ _ => rfl,
    registerRow_acc .kadd rfl fun _ _ => rfl, registerRow_v .kacc2f rfl fun _ _ => rfl, registerRow_g .ksrd rfl fun _ _ => rfl,
    registerRow_acc .kmac rfl fun _ _ => rfl, effectRow_enc .kenc rfl fun _ _ => rfl, effectRow_enc .kencf rfl fun _ _ => rfl⟩

/-! Releases (R147, R148), fences, events and time. -/

/-- After a release that has completed the instruction goes on. -/
theorem afterRelease_of_releases {s : State} {i : Nat} {P : State → Prop} {f : State → Exec} {e : Exec} (h : releases s i P)
    (hf : ∀ s1, P s1 → f s1 = e) : afterRelease i s f = e := by
  obtain ⟨hrel, hP⟩ := h
  simp only [afterRelease, hrel, if_true, hf _ hP]

theorem effectRow_fence : EffectRow .fence 0x2A (fun w => decide (4 ≤ iFN w) && decide (iFN w < 16) && iFN w % 4 != 3) (fun s i w t =>
    let after (s1 : State) : Prop := t = if (iFN w).testBit 3 then dropClean s1 i else s1
    if (iFN w).testBit 2 && iFN w % 4 == 2 then releases s i after else after s) := by
  refine effectRow_of_isa .fence rfl (fun _ _ => rfl) ?_
  intro s i w t _ h
  dsimp only at h ⊢
  split at h
  · next hr =>
    rw [if_pos hr]
    exact afterRelease_of_releases h (fun s1 h1 => by rw [h1])
  · next hr => rw [if_neg hr, h]

theorem exec_halt {s s1 : State} {i : Nat} {w : W32} (hx : Executes s i 0x2A w s1) (hfn : iFN w = 0x11) :
    exec (.halt i) s = .next ((endCore s1 i (haltStatus (s1.core i).prog (bn ((s1.core i).getG 1) 7 0)) 0 ((s1.core i).getG 2).toNat).count (coreInstr i)) :=
  congrArg Host.Outcome.next (isa_executes (m := .halt) rfl hx (by simp [hfn]) _)

/-- WFE by its enabled events: with one pending, or none enabled, it goes on, and else it waits. -/
theorem exec_wfe {s s1 : State} {i : Nat} {w mask : W32} (hx : Executes s i 0x2B w s1) (hfn : iFN w = 0)
    (hm : mask = BitVec.ofNat 32 (bn ((s1.core i).getG (iA w)) 31 0)) :
    exec (.wfe i) s = .next (if mask = 0#32 ∨ (s1.core i).evt &&& mask ≠ 0#32 then
      retire (s1.setCore i ({ s1.core i with evt := (s1.core i).evt &&& ~~~((s1.core i).evt &&& mask) }.setG (iD w)
        (BitVec.ofNat 64 ((s1.core i).evt &&& mask).toNat))) i ((s1.core i).pc + 4#64)
    else s1.setCore i { s1.core i with run := .waiting, wfeMask := mask }) := by
  subst hm
  refine congrArg Host.Outcome.next ((isa_executes (m := .wfe) rfl hx (by simp [hfn]) _).trans ?_)
  dsimp only
  split
  · simp only [runExec, State.core_setCore, Core.setG_pc]
  · rfl

/-- A WFE whose register names no event writes 0 and goes on. -/
theorem registerRow_wfe : RegisterRow .wfe 0x2B (fun w => iFN w == 0 && iA w == 0) (fun w k => k.setG (iD w) 0#64) := by
  intro s s1 i w hx hw
  obtain ⟨hfn, ha⟩ : iFN w = 0 ∧ iA w = 0 := by simpa using hw
  have hmask : 0#32 = BitVec.ofNat 32 (bn ((s1.core i).getG (iA w)) 31 0) := by simp [ha, Core.getG, bn]
  have hall : (s1.core i).evt &&& ~~~((s1.core i).evt &&& 0#32) = (s1.core i).evt := by
    simp only [BitVec.and_zero, BitVec.not_zero, BitVec.and_allOnes]
  rw [exec_wfe hx hfn hmask, if_pos (.inl rfl), hall]
  simp

theorem exec_timedWaitDeadline_reached {s : State} {i : Nat} {d : W64} (hd : (s.core i).deadline = some d) (ht : d.toNat ≤ s.fab.time) :
    exec (.timedWaitDeadline i) s = .next (s.setCore i { s.core i with deadline := none, evt := (s.core i).evt ||| 0x8000#32 }) := by
  have harm : exec (.timedWaitDeadline i) s = execTimedWaitDeadline i s := rfl
  simp only [harm, execTimedWaitDeadline, hd, State.now, ht, if_true, setEvt, State.core_setCore]
  simp [State.setCore]

/-- Settles O10: the release of R148, what WFE makes of the pending events, and the deadline. -/
theorem synchronisationAndEvents : Obligations.SynchronisationAndEvents := by
  unfold Obligations.SynchronisationAndEvents
  refine ⟨effectRow_fence, ?_, fun s s1 i w => exec_halt, registerRow_wfe, ?_, ?_, registerRow_g .evrd rfl fun _ _ => rfl, ?_, ?_, ?_, fun s i d => exec_timedWaitDeadline_reached⟩
  · exact registerRow_of_isa (g := fun _ k => { k with icache := [] }) .icinv rfl (fun _ _ => rfl) (fun _ _ _ => rfl) (fun _ _ => rfl)
  · rintro s s1 i w hit hx hfn rfl hne
    rw [exec_wfe hx hfn rfl, if_pos (.inr hne)]
  · rintro s s1 i w mask hx hfn rfl hm hne
    rw [exec_wfe hx hfn rfl, if_neg (by simpa [hne] using hm)]
  · exact effectRow_of_isa .sev rfl (fun _ _ => rfl) (fun s i w t _ h => afterRelease_of_releases h (fun s1 h1 => by rw [h1]))
  · exact registerRow_of_isa (g := fun w k => { k with deadline := if k.getG (iA w) = 0#64 then none else some (k.getG (iA w)) }) .tdl rfl (fun _ _ => rfl) (fun _ _ _ => rfl) (fun _ _ => rfl)
  · exact effectRow_of_isa .time rfl (fun _ _ => rfl) (fun s i w t _ h => by rw [h]; rfl)


/-! Counters and engines. -/

section CounterRows

variable {c : Nat → Instr} {op : Nat} {is : W32 → Bool} (m : Mn) (hr : isaRows[m.ctorIdx]? = some (isaRow m op is))
include hr

theorem effectRow_counts {f : W32 → Core → W64 → W64} (hc : ∀ i s, exec (c i) s = .next (isaCtr m i (fun w k old => some (f w k old)) s)) :
    EffectRow c op is (counts f) := by
  refine effectRow_of_isa m hr hc ?_
  rintro s i w t - ⟨hreach, hrel⟩
  simp only [hreach, Bool.not_true, Bool.false_eq_true, if_false]
  exact afterRelease_of_releases hrel (fun s1 h1 => by rw [h1])

theorem effectRow_starts {codec : Bool} (hc : ∀ i s, exec (c i) s = .next (isaStart m i codec s)) : EffectRow c op is (starts codec) := by
  refine effectRow_of_isa m hr hc ?_
  rintro s i w t - ⟨a, b, ha, hb, hroom, hrel⟩
  simp only [ha, hb, Nat.not_le.2 hroom, if_false]
  refine afterRelease_of_releases hrel ?_
  rintro s1 ⟨s2, bs, hread, rfl⟩
  simp only [hread, Bool.false_eq_true, if_false]

end CounterRows

theorem effectRow_post : EffectRow .post 0x2D (iFN · == 2) posts := by
  refine effectRow_of_isa .post rfl (fun _ _ => rfl) ?_
  rintro s i w t - ⟨a, ring, ha, hring, hpost, hrel⟩
  simp only [ha, hring, hpost, Bool.not_true, Bool.false_eq_true, if_false]
  refine afterRelease_of_releases hrel ?_
  rintro s1 ⟨s2, bs, hread, rfl⟩
  simp only [hread, Bool.false_eq_true, if_false]

/-- Settles O11: each takes its effect after the release of R148. -/
theorem counterAndEngineInstructions : Obligations.CounterAndEngineInstructions := by
  unfold Obligations.CounterAndEngineInstructions
  refine ⟨effectRow_counts .cadd rfl fun _ _ => rfl, effectRow_counts .cset rfl fun _ _ => rfl, ?_, ?_, ?_, ?_, effectRow_starts .istart rfl fun _ _ => rfl,
    effectRow_starts .pstart rfl fun _ _ => rfl, effectRow_post⟩
  · refine effectRow_of_isa .crd rfl (fun _ _ => rfl) ?_
    rintro s i w t - ⟨hreach, hrel⟩
    simp only [hreach, Bool.not_true, Bool.false_eq_true, if_false]
    exact afterRelease_of_releases hrel (fun s1 h1 => by rw [h1])
  · refine effectRow_of_isa .cwatch rfl (fun _ _ => rfl) ?_
    rintro s i w t - ⟨hreach, hrel⟩
    simp only [hreach, Bool.not_true, Bool.false_eq_true, if_false]
    exact afterRelease_of_releases hrel (fun s1 h1 => by rw [h1]; rfl)
  · exact effectRow_of_isa .cunwatch rfl (fun _ _ => rfl) (fun s i w t _ h => afterRelease_of_releases h (fun s1 h1 => by rw [h1]; rfl))
  · refine effectRow_of_isa .cwst rfl (fun _ _ => rfl) (fun s i w t _ h => afterRelease_of_releases h (fun s1 h1 => ?_))
    simp only [at_, pow_mul, h1, show 2 ^ 2 = 4 from rfl]


/-! Exceptions (R439) and retiring (R156). -/

@[simp] theorem dropGot_fab (s : State) (w : Work) : (dropGot s w).fab = s.fab := by unfold dropGot; split <;> rfl

theorem core_congr {s t : State} (h : t.fab = s.fab) (i : Nat) : t.core i = s.core i := by simp only [State.core, h]

theorem core_setCore_ne (s : State) {i j : Nat} (x : Core) (h : j ≠ i) : (s.setCore i x).core j = s.core j := mgetD_mset_ne _ x _ h

@[simp] theorem core_setCl (s : State) (c i : Nat) (x : Cluster) : (s.setCl c x).core i = s.core i := rfl

@[simp] theorem core_gateIdle (s : State) (c i : Nat) : (gateIdle s c).core i = s.core i := by
  unfold gateIdle
  dsimp only
  split <;> simp

/-- What is left of a core whose program is at its end: with no program to report for, it stops. -/
theorem core_endCore_of_prog_none {s : State} {i : Nat} (h : (s.core i).prog = none) (status cause g2 : Nat) :
    (endCore s i status cause g2).core i = { s.core i with run := .idle, prog := none, wfeMask := 0#32 } := by
  simp only [endCore, core_gateIdle, endProg, h, core_congr (dropGot_fab _ _), State.core_setCore]

theorem core_takeXcpt_of_prog_none {s : State} {i : Nat} (h : (s.core i).prog = none) (cause a : Nat) (w : W32) :
    (takeXcpt s i cause a w).core i = { s.core i with
      xcpt := BitVec.ofNat 32 (cause + at_ 8 (iOP w)), xpc := (s.core i).pc, xaddr := BitVec.ofNat 64 (if cause = 1 then 0 else a),
      run := .idle, prog := none, wfeMask := 0#32 } := by
  rw [takeXcpt, core_endCore_of_prog_none (by rw [State.core_setCore]; exact h), State.core_setCore]

/-- Settles O12, each exception by the way of `isa` or of the fetch that raises it. -/
theorem instructionsThatTrap : Obligations.InstructionsThatTrap := by
  unfold Obligations.InstructionsThatTrap
  refine ⟨fun s s1 i w => exec_illegalInstruction_reserved, ?_, ?_, ?_, ?_, ?_⟩
  · intro s s1 i cause a hrun hfetch
    have harm : exec (.illegalInstruction i) s = execIllegalInstruction i s := rfl
    simp [harm, execIllegalInstruction, hrun, hfetch]
  · intro s s1 s2 i cause a w hx hload
    have harm : exec (.ld64 i) s = .next (isaLd .ld64 i 8 false s) := rfl
    rw [accessAt] at hload
    rw [harm, isaLd, isaLoad, isa_executes rfl hx rfl]
    simp only [mAddr, hload, runExec]
  · intro s s1 i w hx hfn hodd
    refine congrArg Host.Outcome.next ((isa_executes (m := .jr) rfl hx (by simp [hfn]) _).trans ?_)
    simp only [hodd, if_false, runExec]
  · intro s s1 i w hx hfn hodd
    refine congrArg Host.Outcome.next ((isa_executes (m := .amoadd) rfl hx (by simp [hfn]) _).trans ?_)
    simp only [coreAtomic, hodd, ne_eq, not_false_eq_true, if_true, runExec]
  · intro s i cause a w hprog
    dsimp only
    rw [core_takeXcpt_of_prog_none hprog]
    simp [at_, Nat.mul_comm]

/-- What retiring leaves of the cores: the one that retires goes on at `pc`, and the others stay. -/
theorem core_retire (s : State) (i j : Nat) (pc : W64) :
    (retire s i pc).core j = if j = i then { s.core i with pc := pc, run := .running, wfeMask := 0#32 } else s.core j := by
  have h : (retire s i pc).fab = (s.setCore i { s.core i with pc := pc, run := .running, wfeMask := 0#32 }).fab := dropGot_fab ..
  rw [core_congr h]
  split
  · next hj => rw [hj, State.core_setCore]
  · next hj => exact core_setCore_ne s _ hj

/-- What dropping the answers that a core has waited for changes: the accelerator ports' record of them. -/
theorem dropGot_eq (s : State) (w : Work) : ∃ a : Aps, dropGot s w = { s with ap := a } ∧ a.ports = s.ap.ports := by
  unfold dropGot
  split
  · exact ⟨_, rfl, rfl⟩
  · exact ⟨s.ap, rfl, rfl⟩

theorem getG_setG (k : Core) (n j : Nat) (v : W64) : (k.setG n v).getG j = if j = 0 then 0#64 else if j = n then v else k.getG j := by
  unfold Core.setG Core.getG
  by_cases hj : j = 0
  · simp [hj]
  · by_cases hn : n = 0
    · simp [hj, hn]
    · by_cases h : j = n
      · subst h
        simp [hn, mgetD_msetC_same]
      · simp [hj, hn, h, mgetD_msetC_ne]

theorem setG_frame (k : Core) (n : Nat) (v : W64) : (k.setG n v).v = k.v ∧ (k.setG n v).p = k.p ∧ (k.setG n v).acc = k.acc := by
  unfold Core.setG
  split <;> exact ⟨rfl, rfl, rfl⟩

theorem getV_setV (k : Core) {n j : Nat} (hn : n < 32) (hj : j < 32) (x : BitVec 256) : (k.setV n x).getV j = if j = n then x else k.getV j := by
  simp only [Core.setV, Core.getV, Nat.mod_eq_of_lt hn, Nat.mod_eq_of_lt hj]
  split
  · next h => rw [h, mgetD_msetC_same]
  · next h => exact mgetD_msetC_ne _ _ _ h

theorem getLsbD_bit {n j : Nat} (hj : j < 8) : (BitVec.ofNat 8 (2 ^ n)).getLsbD j = decide (j = n) := by
  rw [BitVec.getLsbD_ofNat, Nat.testBit_two_pow]
  simp [hj, eq_comm]

theorem getP_setP (k : Core) {n j : Nat} (hj : j < 8) (b : Bool) : (k.setP n b).getP j = if j = 0 then true else if j = n then b else k.getP j := by
  have hbit := getLsbD_bit (n := n) hj
  unfold Core.setP Core.getP
  by_cases hj0 : j = 0
  · simp [hj0]
  · by_cases hn : n = 0
    · simp [hj0, hn]
    · have hj0' : (j == 0) = false := by simpa using hj0
      simp only [hn, hj0, hj0', if_false, Bool.false_or]
      generalize BitVec.ofNat 8 (2 ^ n) = bit at hbit
      cases b with
      | false =>
        simp only [Bool.false_eq_true, if_false, BitVec.getLsbD_and, BitVec.getLsbD_not, hbit, hj, decide_true, Bool.true_and]
        split <;> simp [*]
      | true =>
        simp only [if_true, BitVec.getLsbD_or, hbit]
        split <;> simp [*]

/-- Settles O15: retiring by its parts, and a read of each register file after a write. -/
theorem retiringAndHardwiredRegisters : Obligations.RetiringAndHardwiredRegisters := by
  unfold Obligations.RetiringAndHardwiredRegisters
  refine ⟨fun s i pc => ?_, fun k n j v => ?_, fun k n j b hn hj => ?_, fun k n j x hn hj => ?_⟩
  · refine ⟨by rw [core_retire, if_pos rfl], fun j hj => by rw [core_retire, if_neg hj], ?_⟩
    obtain ⟨a, ha, hports⟩ := dropGot_eq (s.setCore i { s.core i with pc := pc, run := .running, wfeMask := 0#32 }) (.core i)
    have hret : retire s i pc = State.count { s.setCore i { s.core i with pc := pc, run := .running, wfeMask := 0#32 } with ap := a } (coreInstr i) := by
      rw [← ha]; rfl
    rw [hret]
    exact ⟨rfl, rfl, rfl, rfl, rfl, rfl, hports, rfl, rfl⟩
  · simp only [getG_setG]
    exact ⟨rfl, fun h => by simp [h], fun h => by by_cases hj : j = 0 <;> simp [h, hj, Core.getG], setG_frame k n v⟩
  · simp only [getP_setP k hj, getP_setP k hn, getP_setP k (show 0 < 8 by decide)]
    exact ⟨rfl, fun h => by simp [h], fun h => by simp +contextual [h, Core.getP]⟩
  · rw [getV_setV k hn hn, getV_setV k hn hj]
    exact ⟨if_pos rfl, fun h => if_neg h⟩

end Sys2Proof.Machine
end

section
/-! PROOFS. Firmware commands by their bodies (R452 to R457), and the commands of Palette's own duties (R454, R465, R469, R472, R473). -/

namespace Sys2Proof.Machine

open Sys2Proof

/-- A firmware command with a block, from its body: where `ok` holds the body has the effect `eff` and the reply `r`. -/
theorem fwRow_of_body {op : Nat} {row : MboxId → CmdBlock → Instr} {ok : State → Cmd → BitVec 32256 → Prop} {eff : State → Cmd → BitVec 32256 → State}
    {r : State → Cmd → BitVec 32256 → Reply} {body : FwBody} (hrow : ∀ k blk s, exec (row k blk) s = .next (fwCommand op true k blk body s))
    (hbody : ∀ s c b, ok s c b → body s c b = (eff s c b, some (r s c b))) : FwRow op row ok eff r := by
  intro s s1 k blk c ht hok
  rw [hrow, fwCommand_taken ht, hbody _ _ _ hok]

theorem fwWordRow_of_body {op : Nat} {row : MboxId → Instr} {ok : State → Cmd → Prop} {eff : State → Cmd → State} {r : State → Cmd → Reply} {body : FwBody}
    (hrow : ∀ k s, exec (row k) s = .next (fwCommand op false k noBlock body s))
    (hbody : ∀ s c b, ok s c → body s c b = (eff s c, some (r s c))) : FwWordRow op row ok eff r := by
  intro s s1 k c ht hok
  rw [hrow, fwCommand_taken ht, hbody _ _ _ hok]

theorem fwLaterRow_of_body {op : Nat} {row : MboxId → CmdBlock → Instr} {ok : State → Cmd → BitVec 32256 → Prop} {eff : State → Cmd → BitVec 32256 → State}
    {body : FwBody} (hrow : ∀ k blk s, exec (row k blk) s = .next (fwCommand op true k blk body s))
    (hbody : ∀ s c b, ok s c b → body s c b = (eff s c b, none)) : FwLaterRow op row ok eff := by
  intro s s1 k blk c ht hok
  rw [hrow, fwCommand_taken ht, hbody _ _ _ hok]

theorem fwEffect_of_body {op : Nat} {row : MboxId → CmdBlock → Instr} {R : State → Cmd → BitVec 32256 → State → Option Reply → Prop}
    {body : FwBody} (hrow : ∀ k blk s, exec (row k blk) s = .next (fwCommand op true k blk body s))
    (hbody : ∀ s c b t r, R s c b t r → body s c b = (t, r)) : FwEffect op row R := by
  intro s s1 t k blk c r ht hR
  rw [hrow, fwCommand_taken ht, hbody _ _ _ _ _ hR]
  cases r <;> rfl

theorem zeroBits_eq_true {w : Nat} (b : BitVec w) (hi lo : Nat) : zeroBits b hi lo = true ↔ bn b hi lo = 0 := by simp [zeroBits]

/-- A chunk that fits passes the checks that FW_LOAD makes before it looks at the bytes. -/
theorem chunkFits_checks {s : State} {c : Cmd} {b : BitVec 32256} (h : chunkFits s c b) :
    fromPf0 c = true ∧ (!bodyReserved b [] 129 || !zeroBits b 11 0 || bn b 95 64 % 4096 != 0 || decide (16777216 < bn b 95 64) ||
      decide (134217728 ≤ bn b 127 96) || decide (134217728 < bn b 127 96 + bn b 95 64)) = false ∧
    ¬ (s.pal.act = 4 ∨ s.pal.actCmd ≠ 0) ∧ s.master c.fn = true := by
  obtain ⟨hpf0, hres, haddr, hlen, hmax, hoff, hend, hact, hcmd, hmaster⟩ := h
  refine ⟨hpf0, ?_, by simp [hact, hcmd], hmaster⟩
  simp [hres, zeroBits, haddr, hlen, hmax, Nat.not_le.2 hoff, hend]

theorem fwLoad_row (data : List Byte) : FwRow 0x0A0 (fun k b => .fwLoad k b (some data))
    (fun s c b => chunkFits s c b ∧ bt b 128 = false) (fun s _ b => chunkWritten s b data) (fun _ _ _ => success) := by
  refine fwRow_of_body (fun _ _ _ => rfl) ?_
  rintro s c b ⟨hfits, hlast⟩
  obtain ⟨hpf0, hfields, hact, hmaster⟩ := chunkFits_checks hfits
  simp [hpf0, hfields, hact, hmaster, hlast, chunkWritten, accept, success, otherBank]

theorem fwLoad_last_row (data : List Byte) : FwRow 0x0A0 (fun k b => .fwLoad k b (some data)) (fun s c b => chunkFits s c b ∧ bt b 128 = true)
    (fun s _ b => markBank (chunkWritten s b data) (1 - s.pal.active) (imageArrived (chunkWritten s b data) (1 - s.pal.active)))
    (fun s _ b => { status := if imageArrived (chunkWritten s b data) (1 - s.pal.active) then .success else .accessDenied }) := by
  refine fwRow_of_body (fun _ _ _ => rfl) ?_
  rintro s c b ⟨hfits, hlast⟩
  obtain ⟨hpf0, hfields, hact, hmaster⟩ := chunkFits_checks hfits
  simp [hpf0, hfields, hact, hmaster, hlast, chunkWritten, imageArrived, otherBank]

/-- Settles O18, each command by its body. -/
theorem paletteCommands : Obligations.PaletteCommands := by
  unfold Obligations.PaletteCommands
  refine ⟨?_, ?_, fwLoad_row, fwLoad_last_row, ?_, ?_, ?_, ?_, ?_, ?_⟩
  · refine fwWordRow_of_body (fun _ _ => rfl) fun s c b h => ?_
    simp only [h, ne_eq, not_true_eq_false, if_false]
    rfl
  · exact fwWordRow_of_body (fun _ _ => rfl) fun _ _ _ _ => rfl
  · refine fwRow_of_body (fun _ _ _ => rfl) ?_
    rintro s c b ⟨hpf0, hres, hunbind⟩
    simp [hpf0, hres, hunbind, accept, success]
  · refine fwRow_of_body (fun _ _ _ => rfl) ?_
    rintro s c b ⟨hpf0, hres, hunbind, haddr, hmin, hmax⟩
    simp [hpf0, hres, hunbind, zeroBits, haddr, Nat.not_lt.2 hmin, Nat.not_lt.2 hmax, accept, success]
  · refine fwRow_of_body (fun _ _ _ => rfl) ?_
    rintro s c b ⟨hpf0, hres, hunbind⟩
    simp [hpf0, hres, hunbind, accept, success]
  · refine fwRow_of_body (fun _ _ _ => rfl) ?_
    rintro s c b ⟨hpf0, hres, hunbind, haddr, hmin, hmax⟩
    simp [hpf0, hres, hunbind, zeroBits, haddr, Nat.not_lt.2 hmin, Nat.not_lt.2 hmax, accept, success]
  · refine fwRow_of_body (fun _ _ _ => rfl) ?_
    rintro s c b ⟨hpf0, hres⟩
    simp [hpf0, hres, accept, success]
  · intro s r hring hdirty
    have harm : exec .logCopyInterrupt s = execLogCopyInterrupt s := rfl
    simp only [harm, execLogCopyInterrupt, hring, hdirty, if_true, next]

/-! Mailboxes (R448, R453, R459). -/

/-- A word that names a command stays in the mailbox until firmware takes it. -/
theorem fwDrain_of_names {s : State} {k : MboxId} {v : W64} (hver : wVersion v = 2) (hop : fwOpcodes.contains (wOpcode v) = true) (hrec : s.recovery = false)
    (hv : (s.pair k).inWord = v) : fwDrain s k = s := by
  have hmem : wOpcode v ∈ fwOpcodes := by simpa using hop
  unfold fwDrain
  simp [hv, hver, hmem, hrec]

theorem exec_mailboxWrite (k : MboxId) (wide : Bool) (v : W64) (s : State) : exec (.mailboxWrite k wide v) s = execMailboxWrite k wide v s := rfl
theorem exec_mailboxRead (k : MboxId) (wide : Bool) (s : State) : exec (.mailboxRead k wide) s = execMailboxRead k wide s := rfl

/-- Settles O16, each access by its tests. -/
theorem mailboxOperations : Obligations.MailboxOperations := by
  unfold Obligations.MailboxOperations
  intro s k v
  refine ⟨?_, fwDrain_of_names, ?_, ?_, ?_, ?_, ?_, ?_⟩
  · intro hreach hempty hv
    simp [exec_mailboxWrite, execMailboxWrite, hreach, hempty, hv]
  · intro wide hreach hbad
    have hrefused : (wide && (s.pair k).inWord == 0#64 && v != 0#64) = false := by
      rcases hbad with h | h | h <;> simp [h]
    simp [exec_mailboxWrite, execMailboxWrite, hreach, hrefused]
  · intro hreach
    exact ⟨fun wide => by simp [exec_mailboxWrite, execMailboxWrite, hreach], fun wide => by simp [exec_mailboxRead, execMailboxRead, hreach]⟩
  · intro hreach
    simp [exec_mailboxRead, execMailboxRead, hreach]
  · rfl
  · intro w ws hheld hout hruns
    have harm : exec (.replyPost k) s = .next (postReply s k) := rfl
    simp [harm, postReply, hheld, hout, hruns]
  · intro hin hout hruns
    have harm : exec (.crossedWait k) s = execCrossedWait k s := rfl
    simp [harm, execCrossedWait, hin, hout, hruns]

/-- Settles O17: the reads and writes of a lock by its owner, and the locks left by the laws of finite maps. -/
theorem lockOperations : Obligations.LockOperations := by
  unfold Obligations.LockOperations
  intro s n a
  have hclaim : exec (.lockClaim n a) s = execLockClaim n a s := rfl
  have hrelease : ∀ a, exec (.lockRelease n a) s = execLockRelease n a s := fun _ => rfl
  refine ⟨fun hreach => ⟨?_, fun ha => ?_⟩, ?_, ?_, ?_, ?_, ?_, mget_mdel_same .., fun j hj => mget_mdel_ne _ hj⟩
  · simp [hclaim, execLockClaim, hreach]
  · rw [hrelease, execLockRelease]
    split
    · rfl
    · simp [ha, hreach]
  · intro hreach hn hfree
    simp [hclaim, execLockClaim, hreach, hn, hfree, State.emit]
  · intro o hreach hheld
    simp [hclaim, execLockClaim, hreach, hheld, State.emit]
  · intro hreach hheld ha
    simp [hrelease, execLockRelease, hheld, ha, hreach]
  · intro o hheld hne ha
    simp [hrelease, execLockRelease, hheld, ha, hne]
  · intro o hheld
    simp [hrelease, execLockRelease, hheld]

end Sys2Proof.Machine
end

section
/-! PROOFS. Faults and restarts of Palette cores (R461, R464, R534), the activation of firmware (R466 to R468), and lifecycle,
attestation and tamper responses (R481 to R483, R487, R498 to R500). -/

namespace Sys2Proof.Machine

open Sys2Proof

/-! Faults and restarts. -/

/-- A core that stops without a rollback is stopped, and nothing else happens (R461). -/
theorem coreStops_of_not_mustRollBack {s : State} {n lastCause cause xpc xaddr : Nat}
    (h : mustRollBack (stopped s n lastCause cause xpc xaddr) n = false) :
    coreStops s n lastCause cause xpc xaddr = stopped s n lastCause cause xpc xaddr := by
  refine if_neg fun hroll => ?_
  have : mustRollBack (stopped s n lastCause cause xpc xaddr) n = true := by
    rw [mustRollBack, Bool.and_eq_true, decide_eq_true_eq]
    exact hroll
  exact absurd this (by simp [h])

/-- A core that stops with a rollback starts one, the command slot of the activation being free (R464). -/
theorem coreStops_of_mustRollBack {s t : State} {n lastCause cause xpc xaddr : Nat} (ht : t = stopped s n lastCause cause xpc xaddr)
    (h : mustRollBack t n = true) (hcmd : t.pal.actCmd = 0) :
    coreStops s n lastCause cause xpc xaddr =
      let u := t.event (some 0x10) 7 0
      { u with pal := { u.pal with act := 4, actCmd := 0, actDeferred := false }, saf := { u.saf with stopped := true } } := by
  rw [mustRollBack, Bool.and_eq_true, decide_eq_true_eq] at h
  have hstops : coreStops s n lastCause cause xpc xaddr =
      let u := (if t.pal.actCmd = 0 then t else finishCmd t t.pal.actCmd { status := .busy }).event (some 0x10) 7 0
      { u with pal := { u.pal with act := 4, actCmd := 0, actDeferred := false }, saf := { u.saf with stopped := true } } := by
    subst ht
    exact if_pos h
  rw [hstops, if_pos hcmd]

theorem foldl_eq_self_of_mem {α β : Type} {f : β → α → β} {b : β} (xs : List α) (h : ∀ x ∈ xs, f b x = b) : xs.foldl f b = b := by
  induction xs with
  | nil => rfl
  | cons x xs ih =>
    rw [List.foldl_cons, h x (List.mem_cons_self ..)]
    exact ih fun y hy => h y (List.mem_cons_of_mem _ hy)

/-- A receiver reset leaves pairs without an unread word as they are (R460). -/
theorem clearInbound_of_empty {s : State} {k : MboxId} (h : (s.pair k).inWord = 0#64) : clearInbound s k = s := if_pos h

/-- One step of `restartAll`: a core starts, and its locks are free. -/
def restartOne (s : State) (n : Nat) : State :=
  (releaseLocks (s.setPcore n { s.pcore n with cstate := 1, since := s.now }) (0x100 + n)).count (PAL_CORE_RESTARTS n)

theorem pcore_restartOne_same (s : State) (n : Nat) : ((restartOne s n).pcore n).cstate = 1 := by
  have h : (restartOne s n).pcore n = { s.pcore n with cstate := 1, since := s.now } := mgetD_mset_same ..
  rw [h]

theorem pcore_restartOne_ne {n m : Nat} (s : State) (h : n ≠ m) : (restartOne s m).pcore n = s.pcore n := mgetD_mset_ne _ _ _ h

/-- A core that some restart started is started after the rest of them. -/
theorem cstate_foldl_restartOne {n : Nat} (ns : List Nat) (s : State) (h : (s.pcore n).cstate = 1 ∨ n ∈ ns) :
    ((ns.foldl restartOne s).pcore n).cstate = 1 := by
  induction ns generalizing s with
  | nil => simpa using h
  | cons m ms ih =>
    refine ih (restartOne s m) ?_
    by_cases hm : n = m
    · subst hm
      exact .inl (pcore_restartOne_same s n)
    · rw [pcore_restartOne_ne s hm]
      simpa [hm] using h

theorem cstate_restartAll (s : State) {n : Nat} (hn : n < 8) : ((restartAll s).pcore n).cstate = 1 :=
  cstate_foldl_restartOne (List.range 8) s (.inr (List.mem_range.2 hn))

theorem coreRestarting_of_cstate {s : State} {n : Nat} (hn : n < 8) (h : (s.pcore n).cstate = 2) :
    (List.range 8).any (fun n => decide ((s.pcore n).cstate = 2)) = true := by
  rw [List.any_eq_true]
  exact ⟨n, List.mem_range.2 hn, decide_eq_true h⟩

/-- Settles O19: a core that stops, with a rollback and without one; its restart; and the reset of the complex. -/
theorem paletteCoreFaultsAndRestarts : Obligations.PaletteCoreFaultsAndRestarts := by
  unfold Obligations.PaletteCoreFaultsAndRestarts
  intro s n hn
  have hfault : ∀ mpu cause xpc xaddr, exec (.paletteCoreFault n mpu cause xpc xaddr) s = execPaletteCoreFault n mpu cause xpc xaddr s :=
    fun _ _ _ _ => rfl
  have hmiss : exec (.heartbeatMiss n) s = execHeartbeatMiss n s := rfl
  have hdone : exec (.paletteRestartDone n) s = execPaletteRestartDone n s := rfl
  have hreset : exec .paletteComplexReset s = execPaletteComplexReset s := rfl
  have hlt : ¬ 8 ≤ n := Nat.not_le.2 hn
  refine ⟨?_, ?_, ?_, ?_, ?_, cstate_restartAll s hn, ?_⟩
  · intro hruns mpu cause xpc xaddr t ht
    have hstops : execPaletteCoreFault n mpu cause xpc xaddr s = .next (coreStops s n (if mpu then 2 else 1) cause xpc.toNat xaddr.toNat) :=
      if_neg (by simp [hlt, hruns])
    rw [hfault, hstops]
    refine ⟨fun hroll => ?_, fun hroll hcmd => ?_⟩
    · rw [ht] at hroll
      rw [coreStops_of_not_mustRollBack hroll, ht]
    · rw [coreStops_of_mustRollBack ht hroll hcmd]
  · intro hruns t ht hroll
    have hstops : execHeartbeatMiss n s = .next (coreStops (s.trouble (unitId 16 2 n) .tmo) n 3 3 0 0) := if_neg (by simp [hlt, hruns])
    rw [ht] at hroll
    rw [hmiss, hstops, coreStops_of_not_mustRollBack hroll, ht]
  · intro hstate hheld
    simp [hdone, execPaletteRestartDone, hheld]
  · intro hstate hheld h3 h4 t ht
    have hgoes : execPaletteRestartDone n s = .next (if actWaits t then actGo t else t) := by
      simp [execPaletteRestartDone, hlt, hstate, hheld, h3, h4, ht, State.now]
    rw [hdone, hgoes]
    exact ⟨fun hw => by simp [hw], fun hw => by simp [hw]⟩
  · intro hstate hkept hqueue
    have hclear : (pairKeys s).foldl clearInbound s = s :=
      foldl_eq_self_of_mem _ fun k hk => clearInbound_of_empty (hkept k hk)
    have hsame : ({ s with pal := { s.pal with queue := [] } } : State) = s := by rw [← hqueue]
    simp only [hreset, execPaletteComplexReset, coreRestarting_of_cstate hn hstate, hclear, hqueue, List.foldl_nil, hsame]
    simp
  · intro t hwaits
    simp [coresBack, hwaits]

/-! Activation. -/

/-- FW_ACTIVATE outside recovery is the command alone. -/
theorem exec_fwActivate {s s1 : State} {k : MboxId} {blk : CmdBlock} {c : Cmd} (ht : Taken s k 0x0A1 true blk c s1) (hpf0 : fromPf0 c = true)
    (hres : bodyReserved blk.bits [] 0 = true) (hrec : s.recovery = false) (hrec1 : s1.recovery = false) (hact : s1.pal.act ≠ 4)
    (hcmd : s1.pal.actCmd = 0) (hact3 : s1.pal.act ≠ 3) :
    exec (.fwActivate k blk) s = .next (if s1.umb.emerg
      then answers true (({ s1 with pal := { s1.pal with act := 3, actDeferred := true } } : State).event none 4 0) c { status := .deferred }
      else actGo { s1 with pal := { s1.pal with actCmd := c.id, actDeferred := false } }) := by
  have harm : exec (.fwActivate k blk) s = execFwActivate k blk s := rfl
  rw [harm, execFwActivate, fwCommand_taken ht]
  cases s1.umb.emerg <;> simp [hpf0, hres, hrec, hrec1, hact, hcmd, hact3, refuse]

/-- An activation that passes every check quiesces Saffron (R466). -/
theorem actGo_of_mayActivate {s : State} (h : mayActivate s) :
    actGo s = { s with pal := { s.pal with act := 4 }, saf := { s.saf with stopped := true } } := by
  obtain ⟨hrestart, hverified, hstate, himage⟩ := h
  simp [actGo, hrestart, otherBank, hverified, Nat.not_lt.2 hstate, himage]

/-- t4 of R466, for a deferred activation and for one that is answered. -/
theorem exec_activationDone {s : State} (hact : s.pal.act = 4) (hrestart : coreRestarting s = false) (hquiet : safQuiet s = true) :
    exec .activationDone s = .next (safSettle (drainPairs
      (if s.pal.actDeferred then (swapped s).event none 3 0 else replyTo (swapped s) s.pal.actCmd success))) := by
  have harm : exec .activationDone s = execActivationDone s := rfl
  simp only [harm, execActivationDone, hact, hrestart, hquiet, ne_eq, not_true_eq_false, Bool.false_eq_true, Bool.true_eq_false, or_false, if_false]
  rfl

theorem exec_deferredActivationStart {s : State} (hact : s.pal.act = 3) (hemerg : s.umb.emerg = false) (hrestart : coreRestarting s = false) :
    exec .deferredActivationStart s = .next (actGo s) := by
  have harm : exec .deferredActivationStart s = execDeferredActivationStart s := rfl
  simp [harm, execDeferredActivationStart, hact, hemerg, hrestart]

/-- Settles O20: the command, t1, and t4. -/
theorem firmwareActivation : Obligations.FirmwareActivation := by
  unfold Obligations.FirmwareActivation
  refine ⟨?_, ?_, ?_, ?_, fun s => exec_deferredActivationStart, ?_, ?_, ?_, fun s => exec_activationDone, fun s => ⟨rfl, rfl, rfl, rfl, rfl, rfl, rfl⟩⟩
  · intro s s1 k blk c ht hpf0 hres hrec hrec1 hact hcmd hact3
    rw [exec_fwActivate ht hpf0 hres hrec hrec1 hact hcmd hact3]
    exact ⟨fun h => by simp [h], fun h => by simp [h]⟩
  · intro s h
    simp [actGo, h]
  · exact fun s hrestart hverified hstate himage => actGo_of_mayActivate ⟨hrestart, hverified, hstate, himage⟩
  · intro s hrestart hnow hfails
    have hbad : (!(s.bank (1 - s.pal.active)).verified || decide ((s.bank s.pal.active).stateVer < (s.bank (1 - s.pal.active)).stateMin)) = true := by
      rcases hfails with h | h <;> simp [h]
    simp only [actGo, hrestart, otherBank, actFail, hnow, Bool.false_eq_true, if_false]
    exact if_pos hbad
  · intro s hact hrestart hquiet hnow
    simp only [exec_activationDone hact hrestart hquiet, hnow]
    rfl
  · intro s s1 k blk c ht hpf0 hres hrec hrec1 hact hact3 hcmd hemerg hmay
    rw [exec_fwActivate ht hpf0 hres hrec hrec1 hact hcmd hact3, hemerg]
    exact congrArg _ (actGo_of_mayActivate hmay)
  · intro s hact hemerg hmay
    rw [exec_deferredActivationStart hact hemerg hmay.1, actGo_of_mayActivate hmay]

/-! Lifecycle and attestation. -/

/-- A token is checked when the command passes its own checks (R483). -/
theorem exec_lcTransit {s s1 : State} {k : MboxId} {blk : CmdBlock} {c : Cmd} (token : List Byte) (ht : Taken s k 0x0C2 true blk c s1)
    (hpf0 : fromPf0 c = true) (hact : s1.pal.act ≠ 4) (hcmd : s1.pal.actCmd = 0) (hres : bodyReserved blk.bits [] 32 = true)
    (halign : bn blk.bits 31 0 % 64 = 0) (hfits : bn blk.bits 31 0 + 7984 ≤ 65536) :
    exec (.lcTransit k blk (some token)) s = .next (safSettle
      (let spent : State := { s1 with sec := { s1.sec with nonce := none } }
       if tokenOk s1 (slice token 0 7984) then
         answers true (transit spent (leAt (slice token 0 7984) 4 1 / 16) (slice (slice token 0 7984) 48 32)) c success
       else answers true spent c { status := .accessDenied })) := by
  have harm : exec (.lcTransit k blk (some token)) s = execLcTransit k blk (some token) s := rfl
  rw [harm, execLcTransit, fwCommand_taken ht]
  cases htok : tokenOk s1 (slice token 0 7984) <;>
    simp [hpf0, hact, hcmd, hres, halign, Nat.not_lt.2 hfits, htok, refuse, accept, success]

/-- Settles O21, each command by its body. -/
theorem lifecycleAndAttestation : Obligations.LifecycleAndAttestation := by
  unfold Obligations.LifecycleAndAttestation
  refine ⟨?_, ?_, ?_, fun token s s1 k blk c => exec_lcTransit token, ?_, ?_, ?_⟩
  · exact fwWordRow_of_body (fun _ _ => rfl) fun _ _ _ _ => rfl
  · refine fwRow_of_body (fun _ _ _ => rfl) ?_
    rintro s c b ⟨hpf0, hent⟩
    simp [hpf0, hent, State.entropy]
  · refine fwWordRow_of_body (fun _ _ => rfl) ?_
    rintro s c b ⟨hpf0, hact⟩
    have hidle : ¬ (1 ≤ s.pal.act ∧ s.pal.act ≤ 4) := by omega
    simp only [hpf0, hidle]
    rfl
  · intro s pk hlc
    simp [transit]
  · refine fwRow_of_body (fun _ _ _ => rfl) fun s c b hres => ?_
    simp [hres, accept, success]
  · intro all hall
    refine fwRow_of_body (fun _ _ _ => rfl) ?_
    rintro s c b ⟨hres, hlc, hent⟩
    have hstate : ¬ (s.sec.lc = 0 ∨ s.sec.lc = 1 ∨ s.sec.lc = 5) := by omega
    simp only [hres, hstate, hent, hall]
    rfl

/-! The factory and tamper. -/

/-- The full response without a save under way is a warm reset (R498). -/
theorem fullResponse_of_not_saving {s : State} (cause : Nat) (h : s.saf.vstate ≠ 2) :
    fullResponse s cause =
      let t := zeroSecure (keyErase (noteTamper s cause))
      let t1 : State := { t with sec := { t.sec with salt := none }, saf := { t.saf with images := [], vstate := if t.saf.vstate = 2 then 0 else t.saf.vstate } }
      warmReset t1 1 false := by
  simp [fullResponse, h]

/-- Settles O22, by the state of the lifecycle. -/
theorem factoryAndTamper : Obligations.FactoryAndTamper := by
  unfold Obligations.FactoryAndTamper
  intro s cert
  have hfactory : exec (.factoryJtagSequence cert) s = execFactoryJtagSequence cert s := rfl
  have hdebug : exec .jtagDebugRequest s = execJtagDebugRequest s := rfl
  refine ⟨?_, ?_, ?_, ?_, rfl, rfl, rfl, rfl, fun _ => fullResponse_of_not_saving _, fun _ => rfl⟩
  · intro hlc
    simp [hfactory, execFactoryJtagSequence, hlc]
  · intro hlc
    simp [hfactory, execFactoryJtagSequence, hlc, State.entropy]
  · intro hlc
    rw [hdebug, execJtagDebugRequest, if_pos hlc]
    rfl
  · intro h2 h3
    rw [hdebug, execJtagDebugRequest, if_neg (by simp [h2, h3])]

end Sys2Proof.Machine
end

section
/-! PROOFS. Steps and reset (R9, R36), and operations and commands on clusters and regions (R21 to R27, R140 to R143, R511, R512). -/

namespace Sys2Proof.Machine

open Sys2Proof

/-- Settles O57. No command of this module is spelled by a fetched word. -/
theorem stepTakesTheFrontCommand : Obligations.StepTakesTheFrontCommand := by
  unfold Obligations.StepTakesTheFrontCommand
  refine ⟨fun _ _ _ => rfl, fun s h => ?_, fun s h => if_pos h, fun _ _ _ => rfl⟩
  rw [step, h]

/-- Settles O60: every table is empty, and the named registers read as the register map has them. -/
theorem stateAfterReset : Obligations.StateAfterReset := by
  unfold Obligations.StateAfterReset
  refine ⟨rfl, rfl, rfl, rfl, rfl, ⟨by decide, by decide⟩, fun _ => ⟨rfl, rfl⟩, fun _ => rfl, fun _ => rfl, fun _ => ⟨rfl, rfl⟩, fun _ _ => rfl, ?_⟩
  decide +kernel

/-! Clusters. -/

/-- A filter that drops every entry of a key leaves nothing there. -/
theorem mget_filter_none {α : Type} {p : Nat × α → Bool} {i : Nat} (m : Map α) (h : ∀ v, p (i, v) = false) : mget (m.filter p) i = none := by
  induction m with
  | nil => rfl
  | cons q m ih =>
    obtain ⟨k, v⟩ := q
    cases hp : p (k, v) with
    | false => simpa [List.filter_cons, hp] using ih
    | true =>
      have hne : i ≠ k := by
        rintro rfl
        simp [h v] at hp
      simpa [List.filter_cons, hp, mget, hne] using ih

/-- The state that the fields of a reset's last steps are read from: work stopped, cores and scratch cleared (R21). -/
def resetCleared (s : State) (c : Nat) (lost : List Nat) : State :=
  clearScratch ((coresOf c).foldl (fun s i => clearCore s i lost) (stopCluster s c .aborted 2)) c

theorem resetCluster_eq (s : State) (c : Nat) (lost : List Nat) :
    resetCluster s c lost =
      let fresh (s : State) (codec : Bool) : State := s.setEng c codec { s.eng c codec with lastCore := false, tile := 0, mism := 0 }
      let t := fresh (fresh (resetCleared s c lost) false) true
      t.setCl c { t.cl c with cstate := .resetting, gateWanted := (s.cl c).gateWanted } := rfl

theorem cstate_resetCluster (s : State) (c : Nat) (lost : List Nat) : ((resetCluster s c lost).cl c).cstate = .resetting := by
  rw [resetCluster_eq, State.cl_setCl]

theorem mism_resetCluster (s : State) (c : Nat) (lost : List Nat) : ((resetCluster s c lost).eng c false).mism = 0 := by
  have hne : 2 * c + b2n false ≠ 2 * c + b2n true := by simp [b2n]
  have hcodec : ∀ (t : State) (x : Eng) (y : Cluster), ((t.setEng c true x).setCl c y).eng c false = t.eng c false :=
    fun t x y => mgetD_mset_ne _ _ _ hne
  have hengine : ∀ (t : State) (x : Eng), (t.setEng c false x).eng c false = x := fun t x => mgetD_mset_same ..
  rw [resetCluster_eq]
  simp only [hcodec, hengine]

theorem scratch_resetCluster (s : State) (c : Nat) (lost : List Nat) {off : Nat} (h : off < 2 ^ 22) :
    mget (resetCluster s c lost).fab.scratch (c * 2 ^ 22 + off) = none := by
  have hdrop : (c * 2 ^ 22 + off) / 2 ^ 22 = c := by omega
  have hcl : ∀ (t : State) (x : Cluster), (t.setCl c x).fab.scratch = t.fab.scratch := fun _ _ => rfl
  have heng : ∀ (t : State) (codec : Bool) (x : Eng), (t.setEng c codec x).fab.scratch = t.fab.scratch := fun _ _ _ => rfl
  simp only [resetCluster_eq, hcl, heng, resetCleared, clearScratch]
  exact mget_filter_none _ fun v => by simp only [hdrop, ne_eq, not_true_eq_false, decide_false]

theorem exec_seedWrite (c : Nat) (half : Option Bool) (v : W64) (s : State) : exec (.seedWrite c half v) s = execSeedWrite c half v s := rfl

/-- Two halves of 32 bits fill a word of 64. -/
theorem toNat_halves {hi lo : Nat} (hhi : hi < 2 ^ 32) (hlo : lo < 2 ^ 32) : (BitVec.ofNat 64 (at_ 32 hi + lo)).toNat = hi * 2 ^ 32 + lo := by
  rw [BitVec.toNat_ofNat, at_]
  omega

theorem bn_lt {w : Nat} (x : BitVec w) (hi lo : Nat) : bn x hi lo < 2 ^ (hi + 1 - lo) := Nat.mod_lt _ (Nat.two_pow_pos _)

/-- Settles O23, by the state of the cluster. -/
theorem clusterOperations : Obligations.ClusterOperations := by
  unfold Obligations.ClusterOperations
  intro s c
  have hreset : ∀ w, exec (.clusterReset w) s = execClusterReset w s := fun _ => rfl
  have hdone : exec (.clusterResetDone c) s = execClusterResetDone c s := rfl
  have hup : exec (.clusterPowerUp c) s = .next (powerUp s c) := rfl
  have hgate : exec (.clusterGate c) s = execClusterGate c s := rfl
  have hworld : ∀ w, exec (.worldChange c w) s = execWorldChange c w s := fun _ => rfl
  have hgrace : exec (.reclaimGraceEnd c) s = execReclaimGraceEnd c s := rfl
  refine ⟨?_, ?_, ?_, ?_, ?_, ?_, ?_, ?_, ?_, ?_, fun _ => rfl, ?_, ?_⟩
  · intro hregion hthere lost
    refine ⟨resetCluster s c lost, ?_, rfl, cstate_resetCluster .., mism_resetCluster .., fun off => scratch_resetCluster s c lost⟩
    have hregion' : ¬ (s.rgn (clRegion c)).rstate = .resetting := hregion
    have hthere' : (s.cl c).cstate = .inService ∨ (s.cl c).cstate = .gated := hthere
    simp only [hreset, execClusterReset, hregion', hthere', if_true, if_false]
  · intro hregion lost
    have hregion' : (s.rgn (clRegion c)).rstate = .resetting := hregion
    simp only [hreset, execClusterReset, hregion', if_true]
  · intro hstate hregion
    have hregion' : ¬ (s.rgn (clRegion c)).rstate = .resetting := hregion
    simp [hdone, execClusterResetDone, hstate, hregion']
  · intro hstate
    rw [hup, powerUp, if_pos hstate]
  · intro hstate hidle
    simp [hgate, execClusterGate, hstate, hidle]
  · intro hstate hbusy
    simp [hgate, execClusterGate, hstate, hbusy]
  · intro hstate
    simp [hgate, execClusterGate, hstate]
  · intro w hstate hidle hreclaim
    simp [hworld, execWorldChange, hstate, hidle, hreclaim]
  · intro w hbusy
    simp [hworld, execWorldChange, hbusy]
  · intro r hr hstopped htest
    simp [hgrace, execReclaimGraceEnd, hr, hstopped, htest, reclaimStop]
  · exact fun v => ⟨_, rfl, toNat_halves (bn_lt ..) (bn_lt ..)⟩
  · exact fun v => ⟨_, rfl, toNat_halves (bn_lt ..) (bn_lt ..)⟩

/-- The checks of CL_RUN before it looks at memory (R142). -/
theorem exec_clRun {s s1 s2 s3 s4 : State} {k : MboxId} {blk : CmdBlock} {c : Cmd} {bs : List Byte} (ht : Taken s k 0x0E1 true blk c s1)
    (hwaits : imageWaits s blk = false) (howner : (s1.cl (bn blk.bits 5 0)).owner = some c.fn) (hreclaim : (s1.cl (bn blk.bits 5 0)).reclaim = none)
    (hthere : clusterThere s1 (bn blk.bits 5 0)) (hfields : clRunFieldsOk s1 c blk.bits = true)
    (hidle : (maskCores (bn blk.bits 5 0) (bn blk.bits 15 8)).any (fun i => coreBusy (s1.core i)) = false)
    (hstep : runsStep s1 (bn blk.bits 5 0) = false) (himage : checkTierN s1 c.req (bn blk.bits 127 64) (bn blk.bits 159 128) = (s2, none))
    (hdone : checkTierN s2 c.req (bn blk.bits 447 384) 128 = (s3, none))
    (hread : agentRead s3 { req := c.req, work := .firmware c.id } (bn blk.bits 127 64) (bn blk.bits 159 128) = (s4, .ok bs [])) :
    exec (.clRun k blk) s = .next (answers true
      (coresStart (flushICaches (scrWrite (powerUp s4 (bn blk.bits 5 0)) (bn blk.bits 5 0) (bn blk.bits 191 160) bs) (bn blk.bits 5 0)) c blk.bits) c success) := by
  have harm : exec (.clRun k blk) s = execClRun k blk s := rfl
  have hstate : (s1.cl (bn blk.bits 5 0)).cstate ≠ .retired ∧
      (decide ((s1.cl (bn blk.bits 5 0)).cstate = .inService) || decide ((s1.cl (bn blk.bits 5 0)).cstate = .gated)) = true := by
    rcases hthere with h | h <;> simp [h]
  rw [harm, execClRun, hwaits, fwCommand_taken ht]
  simp only [howner, hreclaim, hstate.1, hstate.2, hfields, hidle, hstep, himage, hdone, hread, ne_eq, not_true_eq_false, Option.isSome_none,
    List.isEmpty_nil, Bool.not_true, Bool.or_self, Bool.false_eq_true, or_self, if_false]
  rfl

/-- Settles O24, each command by its body. -/
theorem clusterCommands : Obligations.ClusterCommands := by
  unfold Obligations.ClusterCommands
  refine ⟨?_, ?_, ?_, ?_, ?_⟩
  · refine fwRow_of_body (fun _ _ _ => rfl) ?_
    rintro s c b ⟨hpf0, hres, hgrace, hfw, hfn, hworld, hstate, howner, hreclaim⟩
    simp [hpf0, hres, Nat.not_lt.2 hgrace, hfw, hfn, hworld, hstate, howner, hreclaim, accept, success]
  · refine fwLaterRow_of_body (fun _ _ _ => rfl) ?_
    rintro s c b ⟨hpf0, hres, hgrace, hfw, hfn, hworld, hstate, howner, hreclaim, hleft⟩
    have hleft' : ¬ ((s.cl (bn b 5 0)).owner = none ∧ ((fwClusters s).filter (· ≠ bn b 5 0)).length < 4) := fun h => absurd h.2 (Nat.not_lt.2 (hleft h.1))
    simp only [hpf0, hres, Nat.not_lt.2 hgrace, hfw, hfn, hworld, hstate, hreclaim, howner, Option.isNone_iff_eq_none, hleft', Bool.false_eq_true,
      if_false, false_and]
    rfl
  · refine fwLaterRow_of_body (fun _ _ _ => rfl) ?_
    rintro s c b ⟨hpf0, hres, hgrace, hfw, hfn, hworld, hstate, howner, hreclaim⟩
    simp [hpf0, hres, Nat.not_lt.2 hgrace, hfw, hfn, hworld, hstate, howner, hreclaim]
  · intro s s1 s2 s3 s4 k blk c bs ht
    exact exec_clRun ht
  · refine fwRow_of_body (fun _ _ _ => rfl) ?_
    rintro s c b ⟨howner, hres⟩
    simp [howner, hres, accept, success]

/-! Regions. -/

/-- A region that has no page left to move retires (R512). -/
theorem exec_regionRetireDone {s : State} {r : Nat} (hretiring : (s.rgn r).retiring = 1) (hstate : (s.rgn r).rstate ≠ .retired) (hmoves : s.lake.moves = []) :
    ∃ t, exec (.regionRetireDone r) s = .next (afterUnit (answerPlanned t)) ∧ (t.rgn r).rstate = .retired ∧ (mgetD t.rel.verd r {}).vstate = 3 := by
  have harm : exec (.regionRetireDone r) s = execRegionRetireDone r s := rfl
  rw [harm, execRegionRetireDone]
  simp only [hretiring, hstate, hmoves]
  exact ⟨_, rfl, by simp [State.rgn, State.setRgn], by simp [State.setRgn]⟩

/-- Settles O25, by the state of the region. -/
theorem regionOperations : Obligations.RegionOperations := by
  unfold Obligations.RegionOperations
  intro s r hr
  have hreset : ∀ umber lost, exec (.regionReset r umber lost) s = execRegionReset r umber lost s := fun _ _ => rfl
  have hdone : exec (.regionResetDone r) s = execRegionResetDone r s := rfl
  have hmiss : ∀ waiting, exec (.regionResetTimeout r waiting) s = execRegionResetTimeout r waiting s := fun _ => rfl
  have hretire : exec (.regionRetireDone r) s = execRegionRetireDone r s := rfl
  have hdie : ∀ stack die, exec (.dieRetirement stack die) s = execDieRetirement stack die s := fun _ _ => rfl
  have hlt : ¬ 16 ≤ r := Nat.not_le.2 hr
  refine ⟨?_, ?_, ?_, ?_, fun _ _ => rfl, ?_, exec_regionRetireDone, ?_, ?_, ?_⟩
  · intro umber lost hstate
    rw [hreset, execRegionReset]
    rw [if_neg (by simp [hlt, hstate])]
    simp only [State.now]
  · intro umber lost hstate hmissed
    rw [hreset, execRegionReset]
    exact if_pos (by simp [hstate, hmissed])
  · intro hstate
    rw [hdone, execRegionResetDone]
    have hnow : s.now = s.fab.time := rfl
    rw [if_neg (by simp [hstate]), hnow]
  · intro waiting hstate
    have honce : ((s.rgn r).missed + 1 < 2) = ((s.rgn r).missed = 0) := by
      rw [eq_iff_iff]
      omega
    rw [hmiss, execRegionResetTimeout, if_neg (by simp [hstate])]
    simp only [honce]
  · intro hretiring hstate hmoves
    rw [hretire, execRegionRetireDone]
    simp [hretiring, hmoves]
  · intro stack die hstack hdie'
    rw [hdie, execDieRetirement, if_neg (by omega)]
  · intro hpending hphase t ht
    have harm : exec .systemSizeApply s = execSystemSizeApply s := rfl
    simp only [harm, execSystemSizeApply, hpending, hphase, trySize, ht]
    rfl
  · intro pp rest hzeroing hdegraded hsize
    have harm : exec .pageZeroingDone s = execPageZeroingDone s := rfl
    simp [harm, execPageZeroingDone, hzeroing, retryDegraded, hdegraded, hsize]

end Sys2Proof.Machine
end

section
/-! PROOFS. Doorbells (R114 to R116, R132) and the descriptors of work rings (R118, R120 to R122, R127, R131). -/

namespace Sys2Proof.Machine

open Sys2Proof

/-! Doorbells. -/

/-- The offset at which a ring that stands at `a` reaches the residue `p`. -/
theorem add_offset_mod {n : Nat} (hn : 0 < n) (a p : Nat) : (a + (p % n + n - a % n) % n) % n = p % n := by
  have ha := Nat.mod_lt a hn
  have hp := Nat.mod_lt p hn
  have hsplit : a = n * (a / n) + a % n := (Nat.div_add_mod a n).symm
  rw [Nat.add_mod_mod]
  have hsum : a + (p % n + n - a % n) = p % n + n * (a / n + 1) := by
    rw [Nat.mul_add]
    omega
  rw [hsum, Nat.add_mul_mod_self_left, Nat.mod_mod]

theorem newTail_mod {n : Nat} (hn : 0 < n) (tail ptr : Nat) : newTail n tail ptr % n = ptr % n := add_offset_mod hn tail ptr

theorem le_newTail (n tail ptr : Nat) : tail ≤ newTail n tail ptr := Nat.le_add_right ..

theorem newTail_lt {n : Nat} (hn : 0 < n) (tail ptr : Nat) : newTail n tail ptr < tail + n := Nat.add_lt_add_left (Nat.mod_lt _ hn) _

/-- A pointer to the entry that is `b`, less than the size ahead of `a`, counts on from `a` to `b` (R115). -/
theorem offset_to {n a b : Nat} (hab : a ≤ b) (hb : b < a + n) : a + (b % n + n - a % n) % n = b := by
  have hn : 0 < n := by omega
  have ha := Nat.mod_lt a hn
  obtain ⟨d, rfl⟩ := Nat.exists_eq_add_of_le hab
  have hd : d < n := by omega
  rw [Nat.add_mod, Nat.mod_eq_of_lt hd]
  by_cases hwrap : a % n + d < n
  · rw [Nat.mod_eq_of_lt hwrap, show a % n + d + n - a % n = d + n by omega, Nat.add_mod_right, Nat.mod_eq_of_lt hd]
  · have hmod : (a % n + d) % n = a % n + d - n := by rw [Nat.mod_eq_sub_mod (by omega), Nat.mod_eq_of_lt (by omega)]
    rw [hmod, show a % n + d - n + n - a % n = d by omega, Nat.mod_eq_of_lt hd]

/-- A doorbell that R116 does not drop names its channel, which is on the page. -/
theorem dbSlot_of_rings {s : State} {fn page cls dbPage : Nat} {v : W64} {pageOf : Nat → Nat → Option Nat} (h : Rings s fn page cls dbPage v)
    (hpage : pageOf cls (dbIndex v) = some dbPage) : dbSlot s fn page pageOf v = true := by
  obtain ⟨-, hlow, hhigh, hcls, hlive, hgen, howner, hdb⟩ := h
  simp [dbSlot, zeroBits, hlow, hhigh, hcls, hlive, hgen, howner, hpage, hdb]

/-- A work doorbell on a work ring moves its tail, or is dropped (R116). -/
theorem exec_workDoorbell_ring {s : State} {fn page : Nat} {v : W64} {w : WorkRing} (hw : mget s.vat.work (dbIndex v) = some w)
    (hr : Rings s fn page 1 w.dbPage v) (harm : dbArm v = false) :
    exec (.workDoorbell fn page true v) s = .next (if nextFetch s (dbIndex v) w + 2 ^ w.sizeLog2 ≤ newTail (2 ^ w.sizeLog2) w.tail (dbPtr v)
      then s.count VAT_DB_DROP else s.setWork (dbIndex v) { w with tail := newTail (2 ^ w.sizeLog2) w.tail (dbPtr v) }) := by
  have hexec : exec (.workDoorbell fn page true v) s = execWorkDoorbell fn page true v s := rfl
  have hslot := dbSlot_of_rings (pageOf := fun cls i => if cls = 1 then (mget s.vat.work i).map (·.dbPage) else
    if cls = 4 then (mget s.saf.queues i).map (·.dbPage) else none) hr (by simp [hw])
  simp [hexec, execWorkDoorbell, hr.1, harm, hslot, hr.2.2.2.1, hw]

/-- A work doorbell on a storage queue moves its tail, or is dropped (R116). -/
theorem exec_workDoorbell_queue {s : State} {fn page : Nat} {v : W64} {q : SQueue} (hq : mget s.saf.queues (dbIndex v) = some q)
    (hr : Rings s fn page 4 q.dbPage v) (harm : dbArm v = false) :
    exec (.workDoorbell fn page true v) s = .next (if sqNext s (dbIndex v) q + 2 ^ q.sizeLog2 ≤ newTail (2 ^ q.sizeLog2) q.tail (dbPtr v)
      then s.count VAT_DB_DROP else s.setSq (dbIndex v) { q with tail := newTail (2 ^ q.sizeLog2) q.tail (dbPtr v) }) := by
  have hexec : exec (.workDoorbell fn page true v) s = execWorkDoorbell fn page true v s := rfl
  have hslot := dbSlot_of_rings (pageOf := fun cls i => if cls = 1 then (mget s.vat.work i).map (·.dbPage) else
    if cls = 4 then (mget s.saf.queues i).map (·.dbPage) else none) hr (by simp [hq])
  simp [hexec, execWorkDoorbell, hr.1, harm, hslot, hr.2.2.2.1, hq]

theorem exec_workDoorbell_dropped {s : State} {fn page : Nat} {wide : Bool} {v : W64} (hreach : pageReached s fn page = true)
    (hbad : wide = false ∨ dbArm v = true) : exec (.workDoorbell fn page wide v) s = .next (s.count VAT_DB_DROP) := by
  have hexec : exec (.workDoorbell fn page wide v) s = execWorkDoorbell fn page wide v s := rfl
  rw [hexec]
  rcases hbad with h | h <;> simp [execWorkDoorbell, hreach, h]

/-- A completion doorbell on a completion ring, up to what it does with the ring (R115, R132). -/
theorem exec_completionDoorbell_ring {s : State} {fn page : Nat} {v : W64} {q : CompRing} (hq : mget s.vat.comp (dbIndex v) = some q)
    (hr : Rings s fn page 2 q.dbPage v) :
    exec (.completionDoorbell fn page true v) s =
      let h := q.head + (dbPtr v + 2 ^ q.sizeLog2 - q.head % 2 ^ q.sizeLog2) % 2 ^ q.sizeLog2
      if q.written - q.held.length < h then .next (s.count VAT_DB_DROP)
      else
        let q2 := if dbArm v then { q with head := h, armed := true, p := 0, firstAt := none } else { q with head := h }
        let s1 := s.setComp (dbIndex v) q2
        let s2 := if dbArm v && decide (h < q.written - q.held.length) && decide (q.modCount ≠ 0) then interrupt s1 (dbIndex v) else s1
        .next (drainLate (dbIndex v) s2.vat.late.length s2) := by
  have hexec : exec (.completionDoorbell fn page true v) s = execCompletionDoorbell fn page true v s := rfl
  have hslot := dbSlot_of_rings (pageOf := fun cls _ => if cls = 2 ∨ cls = 4 then (some q).map (·.dbPage) else none) hr (by simp)
  simp only [hexec, execCompletionDoorbell, hr.1, hr.2.2.2.1, hslot, hq, if_true, Bool.not_true, Bool.or_self, Bool.false_eq_true, if_false]

/-- Settles O26: the work doorbells by the new tail, the completion doorbells by the new head. -/
theorem doorbells : Obligations.Doorbells := by
  unfold Obligations.Doorbells
  intro s fn page v
  refine ⟨?_, ?_, ?_, fun hreach harm => exec_workDoorbell_dropped hreach (.inr harm), ?_, ?_⟩
  · intro w hw hr harm
    have hsize := Nat.two_pow_pos w.sizeLog2
    refine ⟨newTail (2 ^ w.sizeLog2) w.tail (dbPtr v), newTail_mod hsize .., le_newTail .., newTail_lt hsize .., fun hroom => ?_, fun hfull => ?_⟩
    · rw [exec_workDoorbell_ring hw hr harm, if_neg (Nat.not_le.2 hroom)]
    · rw [exec_workDoorbell_ring hw hr harm, if_pos hfull]
  · intro q hq hr harm
    have hsize := Nat.two_pow_pos q.sizeLog2
    refine ⟨newTail (2 ^ q.sizeLog2) q.tail (dbPtr v), newTail_mod hsize .., le_newTail .., newTail_lt hsize .., fun hroom => ?_, fun hfull => ?_⟩
    · rw [exec_workDoorbell_queue hq hr harm, if_neg (Nat.not_le.2 hroom)]
    · rw [exec_workDoorbell_queue hq hr harm, if_pos hfull]
  · intro hreach
    refine ⟨exec_workDoorbell_dropped hreach (.inl rfl), ?_⟩
    have hexec : exec (.completionDoorbell fn page false v) s = execCompletionDoorbell fn page false v s := rfl
    simp [hexec, execCompletionDoorbell, hreach]
  · intro q h hq hr harm hh
    subst hh
    refine ⟨fun hin => ?_, fun hpast => ?_⟩
    · simp only [exec_completionDoorbell_ring hq hr, harm, Nat.not_lt.2 hin, if_false, Bool.false_eq_true, Bool.false_and]
      rfl
    · simp only [exec_completionDoorbell_ring hq hr, hpast, if_true]
  · intro q hq hr harm hheld hle hlt hptr
    have hhead : q.head + (dbPtr v + 2 ^ q.sizeLog2 - q.head % 2 ^ q.sizeLog2) % 2 ^ q.sizeLog2 = q.written := by
      rw [hptr]
      exact offset_to hle hlt
    simp only [exec_completionDoorbell_ring hq hr, harm, hhead, hheld, List.length_nil, Nat.sub_zero, Nat.lt_irrefl, if_false, if_true,
      decide_false, Bool.and_false, Bool.false_and, Bool.false_eq_true]
    rfl

/-! Descriptors. -/

/-- The head of a ring that has passed its checks goes to `startChecked`: as it stands when it waited, with its counter sets otherwise (R120). -/
theorem startHead_of_headReady {s : State} {ring : Nat} {w : WorkRing} {f g : Fetched} {rest : List Fetched} {d : Desc} (h : HeadReady s ring w f g rest d) :
    startHead s ring = startChecked s ring w g rest d := by
  obtain ⟨hw, hqueue, hdesc, ⟨hwaits, rfl⟩ | ⟨hnew, hok, rfl⟩⟩ := h
  · simp [startHead, hw, hqueue, hdesc, hwaits]
  · simp [startHead, hw, hqueue, hdesc, hnew, hok]

theorem exec_descriptorStart (ring : Nat) (s : State) : exec (.descriptorStart ring) s = .next (startHead s ring) := rfl

theorem work_popHead {s : State} {ring : Nat} {w : WorkRing} {f : Fetched} {rest : List Fetched} (hw : mget s.vat.work ring = some w)
    (hqueue : w.queue = f :: rest) : mget (popHead s ring).vat.work ring = some { w with queue := rest } := by
  simp [popHead, mmod, hw, hqueue]

/-- The oldest fired entry of a completion ring with a free slot: its TARGET is checked again, and it runs (R131, log 143). -/
theorem exec_triggerEntryRun {s : State} {cq : Nat} {q : CompRing} {e : Parked} {d : Desc} (hq : mget s.vat.comp cq = some q)
    (hfired : s.vat.fired.find? (fun e => cqOf s e.ring == cq) = some e) (hfree : q.free ≠ 0) (hdesc : e.item.desc = some d) :
    exec (.triggerEntryRun cq) s =
      let s1 := reserve { s with vat := { s.vat with fired := s.vat.fired.erase e } } cq
      .next (match targetCheck s (s.slot 1 e.ring).owner d with
        | some st => report s1 e.ring e.ringGen e.item.slot e.item.posted d st 0 0
        | none => startJob s1 e.ring e.ringGen e.item d) := by
  have harm : exec (.triggerEntryRun cq) s = execTriggerEntryRun cq s := rfl
  simp only [harm, execTriggerEntryRun, hq, hfired, hfree, hdesc, if_false] <;> rfl

/-- Settles O27, by what stands at the head of the ring. -/
theorem descriptorsOfRings : Obligations.DescriptorsOfRings := by
  unfold Obligations.DescriptorsOfRings
  have hfetch : ∀ cq s, exec (.descriptorFetch cq) s = execDescriptorFetch cq s := fun _ _ => rfl
  refine ⟨?_, ?_, ?_, ?_, ?_, ?_, ?_⟩
  · intro s t cq ring q w hq hturn hw hfree hspoken hmade hread
    simp only [hfetch, execDescriptorFetch, hq, hturn, hw, hfree, hspoken, hmade, hread, Bool.false_eq_true, or_self, if_false]
  · intro s cq ring q hq hturn hfree
    simp only [hfetch, execDescriptorFetch, hq, hturn, hfree, true_or, if_true]
    split <;> rfl
  · intro s ring w f hw hqueue hfailed
    have harm : exec (.descriptorReadError ring) s = execDescriptorReadError ring s := rfl
    simp [harm, execDescriptorReadError, hw, hqueue, hfailed]
  · intro s ring w f rest d st hw hqueue hdesc hnew hfails
    simp [exec_descriptorStart, startHead, hw, hqueue, hdesc, hnew, hfails]
  · intro s ring w f g rest d hready
    rw [exec_descriptorStart, startHead_of_headReady hready]
    obtain ⟨hw, hqueue, hdesc, hhead⟩ := id hready
    refine ⟨?_, ?_, ?_, ?_, ?_⟩
    · intro hfence hearlier
      simp [startChecked, hfence, hearlier, headWaits]
    · intro hfence hwait hreached
      simp [startChecked, hfence, hwait, hreached, headWaits]
    · intro hfence hwait hreached htrig hwaits htarget
      have harm : exec (.countWaitSatisfied ring) s = .next (startHead s ring) := by
        have harm : exec (.countWaitSatisfied ring) s = execCountWaitSatisfied ring s := rfl
        simp [harm, execCountWaitSatisfied, hw, hqueue, hwaits]
      rw [harm, startHead_of_headReady hready]
      simp [startChecked, hfence, hwait, hreached, htrig, htarget]
    · intro hfence hwait htrig
      simp [startChecked, hfence, hwait, htrig]
    · intro hfence hwait htrig htarget
      refine ⟨_, by simp [startChecked, hfence, hwait, htrig, htarget], rfl, rfl, work_popHead hw hqueue, rfl, rfl⟩
  · intro s cq q e d hq hfired hfree hdesc
    refine ⟨fun htarget => ?_, fun st htarget => ?_⟩ <;> simp only [exec_triggerEntryRun hq hfired hfree hdesc, htarget]
  · intro s cq q hq harmed hp htime hcount
    have harm : exec (.modTimeExpiry cq) s = execModTimeExpiry cq s := rfl
    simp [harm, execModTimeExpiry, hq, harmed, hp, htime, hcount, interrupt]

end Sys2Proof.Machine
end

section
/-! PROOFS. Jobs: counters and codecs (R120, R125, R128, R133), matrices and array repair (R162 to R178), ciphers, hashes and
entropy (R490 to R494). -/

namespace Sys2Proof.Machine

open Sys2Proof

theorem jobOf_of_started {s : State} {id op : Nat} {j : Job} (h : Started s id op j) : jobOf s id op .started = some j := by
  obtain ⟨hjob, hop, hphase⟩ := h
  simp [jobOf, hjob, hop, hphase]

theorem jobOf_of_running {s : State} {id op : Nat} {j : Job} (h : Running s id op j) : jobOf s id op .running = some j := by
  obtain ⟨hjob, hop, hphase⟩ := h
  simp [jobOf, hjob, hop, hphase]

/-! The end of a job (R125). -/

/-- A job is taken from the table with what was gathered for it, and its transfers go on as nobody's. -/
def jobTaken (s : State) (id : Nat) : State :=
  orphan (dropGot { s with vat := { s.vat with jobs := mdel s.vat.jobs id } } (.job id)) (fun w => decide (w = .job id))

theorem dropGot_vat (s : State) (w : Work) : (dropGot s w).vat = s.vat := by
  obtain ⟨a, ha, -⟩ := dropGot_eq s w
  rw [ha]

theorem dropGot_lake (s : State) (w : Work) : (dropGot s w).lake = s.lake := by
  obtain ⟨a, ha, -⟩ := dropGot_eq s w
  rw [ha]

theorem jobTaken_vat (s : State) (id : Nat) : (jobTaken s id).vat = { s.vat with jobs := mdel s.vat.jobs id } := dropGot_vat ..
theorem jobTaken_fab (s : State) (id : Nat) : (jobTaken s id).fab = s.fab := dropGot_fab ..
theorem jobTaken_lake (s : State) (id : Nat) : (jobTaken s id).lake = s.lake := dropGot_lake ..

/-- The set of a counter stands on the slots and sets alone. -/
theorem ctrSetGen_congr {s t : State} (hslots : t.vat.slots = s.vat.slots) (hsets : t.vat.sets = s.vat.sets) (f c : Nat) :
    ctrSetGen t f c = ctrSetGen s f c := by
  simp only [ctrSetGen, ctrSetOf, State.slot, hslots, hsets]
  rfl

theorem ctrSetGen_jobTaken (s : State) (id f c : Nat) : ctrSetGen (jobTaken s id) f c = ctrSetGen s f c :=
  ctrSetGen_congr (by rw [jobTaken_vat]) (by rw [jobTaken_vat]) f c

/-- A ring's job on no engine ends in the report of its ring, after its INC where it has one (R125). -/
theorem completeJob_of_ring {s : State} {id : Nat} {j : Job} (st : Status) (detail result : Nat) (hjob : mget s.vat.jobs id = some j)
    (hwrites : writesOut s (.job id) = false) (hfailed : mget s.ap.failed (4 * id) = none) (hcore : j.core = none) (hunit : j.unit = none) :
    completeJob s id st detail result =
      if st.ok && dInc j.desc then
        if j.firmware || (j.incSet.isSome && ctrSetGen s j.fn (dIncCtr j.desc) == j.incSet) then
          report ((jobTaken s id).addCtr (dIncCtr j.desc) 1#64) j.ring j.ringGen j.slot j.posted j.desc st detail result
        else report (jobTaken s id) j.ring j.ringGen j.slot j.posted j.desc .accessDenied detail result
      else report (jobTaken s id) j.ring j.ringGen j.slot j.posted j.desc st detail result := by
  rw [← ctrSetGen_jobTaken s id]
  simp only [completeJob, hjob, hwrites, hfailed, endJob, hunit, reportJob, hcore, Bool.false_eq_true, if_false]
  rfl

/-- Settles O28: each job by its steps, and the end of a job by what it reports. -/
theorem counterAndCodecJobs : Obligations.CounterAndCodecJobs := by
  unfold Obligations.CounterAndCodecJobs
  have hadd : ∀ id s, exec (.ctrAdd id) s = .next (counterJob s 0x01 id (fun old v => old + v)) := fun _ _ => rfl
  have hset : ∀ id s, exec (.ctrSet id) s = .next (counterJob s 0x02 id (fun _ v => v)) := fun _ _ => rfl
  have hcodec : ∀ id s, exec (.codec id) s = execCodec id s := fun _ _ => rfl
  refine ⟨?_, ?_, ?_, ?_, ?_, ?_, ?_, ?_⟩
  · intro s id j hj
    have harm : exec (.nop id) s = execNop id s := rfl
    simp only [harm, execNop, jobOf_of_started hj, finish]
  · rintro s id j hj ⟨hsome, hstands⟩
    simp only [hadd, counterJob, jobOf_of_started hj, hsome, hstands, beq_self_eq_true, Bool.and_self, if_true]
    rfl
  · rintro s id j hj ⟨hsome, hstands⟩
    simp only [hset, counterJob, jobOf_of_started hj, hsome, hstands, beq_self_eq_true, Bool.and_self, if_true]
    rfl
  · intro s id j hj hgone
    simp only [hset, counterJob, jobOf_of_started hj, hgone, Bool.false_eq_true, if_false, finish]
  · intro s id c j hj hstart
    simp only [hcodec, execCodec, jobOf_of_started hj, hstart]
  · intro s id j st hj hstart
    simp only [hcodec, execCodec, jobOf_of_started hj, hstart, finish]
  · intro s id c j hj hunit hwait
    have harm : exec (.codecJobDone id) s = execCodecJobDone id s := rfl
    simp only [harm, execCodecJobDone, jobOf_of_running hj, hunit, hwait, codecApply]
  · intro s id j st detail result hjob hwrites hfailed hcore hunit
    have hend := completeJob_of_ring st detail result hjob hwrites hfailed hcore hunit
    refine ⟨jobTaken s id, fun hnoinc => ?_, fun hinc hok hfirm hstands => ?_, ?_, ?_, ?_, ?_, jobTaken_fab s id, ?_⟩
    · rw [hend, if_neg (by rcases hnoinc with h | h <;> simp [h])]
    · rw [hend, if_pos (by simp [hinc, hok]), if_pos (by simp [hfirm, hstands.1, hstands.2])]
    · rw [jobTaken_vat]
      exact mget_mdel_same ..
    · intro k hk
      rw [jobTaken_vat]
      exact mget_mdel_ne _ hk
    · rw [jobTaken_vat]
    · rw [jobTaken_vat]
    · rw [jobTaken_lake]

/-! Matrix jobs and repair. -/

/-- A unit keeps its state when it is noted in the journal. -/
theorem retired_note (s : State) (u v : Nat) : (s.note v).retired u = s.retired u := by
  unfold State.note
  split <;> rfl

theorem retired_setEng (s : State) (c u : Nat) (codec : Bool) (e : Eng) : (s.setEng c codec e).retired u = s.retired u := rfl

/-- A spare that is swapped in retires nothing, so the pattern test ends with the repair (R178). -/
theorem exec_arrayPatternTestDone_kept {s : State} {c index : Nat} {column : Bool} {e : Eng} (hindex : index < 64) (hmism : 2 ≤ (s.eng c false).mism)
    (hrepair : arrayRepair s c column index = (s.setEng c false e).note (engUnit c false)) :
    exec (.arrayPatternTestDone c column index) s = .next ((s.setEng c false e).note (engUnit c false)) := by
  have harm : exec (.arrayPatternTestDone c column index) s = execArrayPatternTestDone c column index s := rfl
  rw [harm, execArrayPatternTestDone, if_neg (by omega), hrepair]
  simp [retired_note, retired_setEng]

/-- A matrix job that passes its checks waits for its engine, whichever of the two it is. -/
theorem matrixStart_of_ok {s t : State} {id c : Nat} {j : Job} (h : matCheck s (j.matAgent id c) j.desc c = (t, none)) :
    matrixStart s id j (.inl c) = acceptRing (t.setJob id { j with phase := .queued, unit := some c }) c false := by
  simp only [matrixStart, h]

/-- Settles O29: starts, the queue, the end of a job, and the repair by the spares that are free. -/
theorem matrixJobsAndRepair : Obligations.MatrixJobsAndRepair := by
  unfold Obligations.MatrixJobsAndRepair
  intro s id c j
  have hmat : exec (.matmul id) s = execMatmul id s := rfl
  have hgf : exec (.gfMatmul id) s = execGfMatmul id s := rfl
  refine ⟨?_, ?_, ?_, ?_, ?_, ?_, ?_, ?_, ?_⟩
  · intro t hj hpick hcheck
    simp only [hmat, execMatmul, jobOf_of_started hj, hpick, matrixStart_of_ok hcheck]
  · intro t hj hpick hcheck
    simp only [hgf, execGfMatmul, jobOf_of_started hj, hpick, matrixStart_of_ok hcheck]
  · intro t st detail hj hpick hcheck
    simp only [hmat, execMatmul, jobOf_of_started hj, hpick, matrixStart, hcheck]
  · intro st hj hpick
    simp only [hmat, execMatmul, jobOf_of_started hj, hpick, matrixStart, finish]
  · intro codec rest hqueued hstate htest hroom
    have harm : exec (.engineAccept c codec) s = .next (acceptRing s c codec) := rfl
    simp only [harm, acceptRing, hqueued, hstate, htest, hroom, and_self, if_true]
  · intro codec hruns
    simp [startEngine, hruns]
  · intro hjob hunit hmatrix hphase hmism tcols r hwait
    have harm : exec (.indigoJobDone id) s = execIndigoJobDone id s := rfl
    have hgo : (!j.isMatrix || decide (j.phase ≠ .running) || decide (2 ≤ (s.eng c false).mism)) = false := by
      simp [hmatrix, hphase, hmism]
    have hwait' : (matRun s (j.matAgent id c) j.desc (tileCols (s.eng c false)) (s.cl c).rs (matTiles j.desc (tileCols (s.eng c false)))).wait = none := hwait
    simp only [harm, execIndigoJobDone, hjob, hunit, hgo, hwait', Bool.false_eq_true, if_false]
    rfl
  · intro tile hruns
    have harm : exec (.residueMismatch ⟨c, tile⟩) s = execResidueMismatch ⟨c, tile⟩ s := rfl
    refine ⟨if (s.eng c false).mism = 2 ∨ ((s.eng c false).mism = 1 ∧ (s.eng c false).tile = tile) then 2 else 1, ?_, ?_, ?_, ?_, ?_⟩
    · rw [harm, execResidueMismatch, if_neg (by simp [hruns])]
    · intro h
      simp [h]
    · intro h htile
      simp [h, htile]
    · intro h htile
      simp [h, htile]
    · intro h
      simp [h]
  · intro index hindex hmism
    refine ⟨fun hcol0 => ?_, fun a hcol0 hcol1 => ?_, fun hrow0 => ?_, fun a b hrow0 hrow1 => ?_⟩
    · exact exec_arrayPatternTestDone_kept hindex hmism (by simp [arrayRepair, hcol0])
    · exact exec_arrayPatternTestDone_kept hindex hmism (by simp [arrayRepair, hcol0, hcol1])
    · exact exec_arrayPatternTestDone_kept hindex hmism (by simp [arrayRepair, hrow0])
    · have harm : exec (.arrayPatternTestDone c false index) s = execArrayPatternTestDone c false index s := rfl
      have hgone : arrayRepair s c false index = retireEngine (s.setEng c false { s.eng c false with mism := 0 }) c false := by
        simp [arrayRepair, hrow0, hrow1]
      rw [harm, execArrayPatternTestDone, if_neg (by omega), hgone]

/-! Ciphers, hashes and entropy. -/

theorem exec_aesEnc (id : Nat) (s : State) : exec (.aesEnc id) s = .next (cipherStart s 0x70 id) := rfl
theorem exec_aesDec (id : Nat) (s : State) : exec (.aesDec id) s = .next (cipherStart s 0x71 id) := rfl

/-- The checks of a cipher job by its key slot (R490, R491): `use` tells whether the key has the job's direction. -/
theorem cipherStart_of_key {s : State} {id op : Nat} {j : Job} {k : KeySlot} (use : Bool) (hj : Started s id op j)
    (hkey : mget s.sec.keys (hIndex (dTarget j.desc)) = some k) (huse : (if op = 0x70 then k.enc else k.dec) = use) :
    (use = false → cipherStart s op id = completeJob (s.count MORD_KEY_DENY) id .accessDenied 0 0) ∧
    (use = true → xBlocks j.desc = 0 → cipherStart s op id = completeJob s id .emptyVector 0 0) ∧
    (use = true → xBlocks j.desc ≠ 0 → xSHost j.desc = false → cipherStart s op id = s.setJob id { j with phase := .running }) := by
  have hslot : keyOfJob s j = some k := hkey
  refine ⟨fun h => ?_, fun h hempty => ?_, fun h hblocks hhost => ?_⟩
  · simp [cipherStart, jobOf_of_started hj, hslot, huse, h, finish]
  · simp [cipherStart, jobOf_of_started hj, hslot, huse, h, hempty, finish]
  · simp [cipherStart, jobOf_of_started hj, hslot, huse, h, hblocks, hhost, startMordant]

/-- A cipher job whose data are read and written whole ends with success (R491). -/
theorem cipherDone_of_io {s s1 s2 : State} {id w : Nat} {j : Job} {k : KeySlot} {bs : List Byte} (enc : Bool)
    (hkey : mget s.sec.keys (hIndex (dTarget j.desc)) = some k)
    (hread : mordantRead s id j (xSHost j.desc) (xSrc j.desc) (16 * xBlocks j.desc) = (s1, some (bs, none)))
    (hwrite : mordantWrite s1 id j (xDHost j.desc) (xDst j.desc)
      (cipherBlocks (if enc then aesEnc k.key else aesDec k.key) (bs.take (bs.length / 16 * 16))) = (s2, w, none)) :
    cipherDone s id j enc = completeJob
      (s2.count MORD_AES_BLKS ((cipherBlocks (if enc then aesEnc k.key else aesDec k.key) (bs.take (bs.length / 16 * 16))).length / 16)) id .success 0 w := by
  have hslot : keyOfJob s j = some k := hkey
  simp only [cipherDone, hslot, hread, hwrite]

/-- What the end of a Mordant job does, by its opcode. -/
theorem exec_cipherJobDone {s : State} {id op : Nat} {j : Job} (hj : Running s id op j) :
    (op = 0x70 → exec (.cipherJobDone id) s = .next (cipherDone s id j true)) ∧
    (op = 0x71 → exec (.cipherJobDone id) s = .next (cipherDone s id j false)) ∧
    (op = 0x74 → exec (.cipherJobDone id) s = .next (shaDone s id j)) := by
  obtain ⟨hjob, hop, hphase⟩ := hj
  have harm : exec (.cipherJobDone id) s = execCipherJobDone id s := rfl
  refine ⟨?_, ?_, ?_⟩ <;>
    · rintro rfl
      simp [harm, execCipherJobDone, hjob, hop, hphase]

/-- Settles O30: starts by the key, ends by what is read and written. -/
theorem cipherHashAndEntropyJobs : Obligations.CipherHashAndEntropyJobs := by
  unfold Obligations.CipherHashAndEntropyJobs
  intro s id j
  refine ⟨?_, ?_, ?_, ?_, ?_, ?_, ?_, ?_, fun _ => ⟨rfl, rfl⟩, rfl, rfl, ?_⟩
  · intro k hj hkey
    rw [exec_aesEnc]
    obtain ⟨hdeny, hempty, hstart⟩ := cipherStart_of_key k.enc hj hkey (if_pos rfl)
    exact ⟨fun h => by rw [hdeny h], fun h hb => by rw [hempty h hb], fun h hb hh => by rw [hstart h hb hh]⟩
  · intro k hj hkey
    rw [exec_aesDec]
    obtain ⟨hdeny, -, hstart⟩ := cipherStart_of_key k.dec hj hkey (if_neg (by decide))
    exact ⟨fun h => by rw [hdeny h], fun h hb hh => by rw [hstart h hb hh]⟩
  · intro hj hblocks hsrc hdst
    have harm : exec (.sha256 id) s = execSha256 id s := rfl
    simp [harm, execSha256, jobOf_of_started hj, hblocks, hsrc, hdst, startMordant]
  · intro hj hblocks
    have harm : exec (.entropy id) s = execEntropy id s := rfl
    refine ⟨fun hok => ?_, fun hbad => ?_⟩
    · simp [harm, execEntropy, jobOf_of_started hj, hblocks, hok, startMordant]
    · simp [harm, execEntropy, jobOf_of_started hj, hblocks, hbad, finish]
  · intro k s1 s2 bs w hj hkey hread hwrite
    rw [(exec_cipherJobDone hj).1 rfl, cipherDone_of_io true hkey hread hwrite]
    rfl
  · intro k s1 s2 bs w hj hkey hread hwrite
    rw [(exec_cipherJobDone hj).2.1 rfl, cipherDone_of_io false hkey hread hwrite]
    rfl
  · intro s1 s2 s3 msg st w hj hsrc hdst hmsg hst hwrite
    rw [(exec_cipherJobDone hj).2.2 rfl]
    simp [shaDone, hsrc, hdst, hmsg, hst, hwrite]
  · intro s2 w hj hwrite
    obtain ⟨hjob, hop, hphase⟩ := hj
    have harm : exec (.cipherJobDone id) s = execCipherJobDone id s := rfl
    simp [harm, execCipherJobDone, hjob, hop, hphase, hwrite]
  · intro honly
    have harm : exec .continuousHealthTestFailure s = execContinuousHealthTestFailure s := rfl
    simp [harm, execContinuousHealthTestFailure, honly, finish]

end Sys2Proof.Machine
end

section
/-! PROOFS. Channels: created, modified and destroyed (R91 to R113, R129, R130, R183, R205, R228, R252 to R256, R403, R488). -/

namespace Sys2Proof.Machine

open Sys2Proof

/-! The class that a channel command names. -/

/-- The body up to LEN as a number (R455). -/
theorem toNat_bits (blk : CmdBlock) : blk.bits.toNat = blk.body.toNat % 2 ^ (8 * bn blk.hdr 15 0) := by
  rw [CmdBlock.bits, BitVec.toNat_ofNat]
  exact Nat.mod_eq_of_lt (Nat.lt_of_le_of_lt (Nat.mod_le ..) blk.body.isLt)

/-- A field within one byte that is not zero up to LEN lies within LEN, so the whole body has it too. -/
theorem bn_body_of_bits {blk : CmdBlock} {hi lo : Nat} (hbyte : hi / 8 = lo / 8) (h : bn blk.bits hi lo ≠ 0) : bn blk.body hi lo = bn blk.bits hi lo := by
  simp only [bn, toNat_bits, Nat.shiftRight_eq_div_pow] at h ⊢
  generalize (blk.hdr.toNat / 2 ^ 0) % 2 ^ (15 + 1 - 0) = len at h ⊢
  have hin : hi + 1 ≤ 8 * len := by
    by_contra hout
    have hbeyond : 2 ^ (8 * len) ≤ 2 ^ lo := Nat.pow_le_pow_right (by decide) (by omega)
    refine h ?_
    rw [Nat.div_eq_of_lt (Nat.lt_of_lt_of_le (Nat.mod_lt _ (Nat.two_pow_pos _)) hbeyond), Nat.zero_mod]
  obtain ⟨m, hm⟩ : ∃ m, 8 * len = lo + m := ⟨8 * len - lo, by omega⟩
  rw [hm, Nat.pow_add, Nat.mod_mul_right_div_self, Nat.mod_mod_of_dvd _ (Nat.pow_dvd_pow 2 (by omega))]

theorem blkClass_of_createWord {blk : CmdBlock} {cls : Nat} (hcls : cls ≠ 0) (h : createWord blk.bits cls = true) : blkClass 0x010 blk = cls := by
  obtain ⟨hword, -⟩ : bn blk.bits 3 0 = cls ∧ bodyReserved blk.bits [(63, 4)] 320 = true := by simpa [createWord] using h
  have hbody : bn blk.body 3 0 = bn blk.bits 3 0 := bn_body_of_bits rfl (by rwa [hword])
  simp [blkClass, hbody, hword]

/-- The class of a handle that a check for `classes` accepts. -/
theorem hClass_of_checkHandle {s : State} {r : Req} {h : W64} {classes : List Nat} {n : Nat} (hok : checkHandle s r h classes = .inl n) :
    classes.contains (hClass h) = true := by
  cases hbad : classes.contains (hClass h) with
  | true => rfl
  | false =>
    simp only [checkHandle, hbad, Bool.not_false, if_true] at hok
    cases hok

theorem hClass_bodyWord {w : Nat} (b : BitVec w) : hClass (BitVec.ofNat 64 (bn b 63 0)) = bn b 63 60 := by
  simp only [hClass, bn, BitVec.toNat_ofNat, Nat.shiftRight_eq_div_pow]
  omega

/-- A handle that the check accepts names its class in the whole body too, class 0 being none. -/
theorem blkClass_of_bodyHandle {s : State} {c : Cmd} {blk : CmdBlock} {classes : List Nat} {n op : Nat} (hop : op ≠ 0x010) (h0 : 0 ∉ classes)
    (h : bodyHandle s c classes blk.bits = .inl n) : classes.contains (blkClass op blk) = true := by
  have hmem := hClass_of_checkHandle h
  rw [hClass_bodyWord] at hmem
  have hne : bn blk.bits 63 60 ≠ 0 := fun h => h0 (by simpa [h] using hmem)
  rwa [blkClass, if_neg hop, bn_body_of_bits (hi := 63) (lo := 60) rfl hne]

/-- A channel command of the row's class, taken (R108). -/
theorem chCommand_taken {s s1 : State} {k : MboxId} {op : Nat} {blk : CmdBlock} {c : Cmd} {classes : List Nat} {body : FwBody} {duty : Nat}
    (ht : Taken s k op true blk c s1 duty) (hcls : classes.contains (blkClass op blk) = true) :
    chCommand op classes k blk body s duty = match body s1 c blk.bits with
      | (s2, none) => s2
      | (s2, some r) => answers true s2 c r := by
  simp only [chCommand, hcls, if_true, Bool.not_true, Bool.and_false, Bool.false_eq_true, if_false, fwCommandOn_taken ht] <;> rfl

/-! Channels created. -/

/-- CH_CREATE by the body of its row: what it checks before `createIn`, and what it makes of the opened slot. -/
theorem chOpen_of_body {α : Type} {cls : Nat} {row : MboxId → CmdBlock → Instr} {ok : State → Cmd → BitVec 256 → Prop}
    {pre : State → Cmd → BitVec 256 → α → State → Prop} {place : State → BitVec 256 → α → Nat → Bool} {use : BitVec 256 → Nat}
    {built : State → Cmd → BitVec 256 → α → Nat → State → Reply → Prop} {duty : Nat} {body : FwBody}
    {mk : Cmd → BitVec 32256 → α → State → Nat → Status ⊕ (State × Reply)} (hcls : cls ≠ 0)
    (hrow : ∀ k blk s, exec (row k blk) s = .next (chCommand 0x010 [cls] k blk body s duty))
    (hbody : ∀ s c b x t, createWord b cls = true → ok s c (params b) → pre s c (params b) x t →
      body s c b = createIn t c cls (place s (params b) x) (use (params b)) (mk c b x))
    (hmk : ∀ s1 s2 s c b x n t r, ok s1 c (params b) → pre s1 c (params b) x s2 → built s c (params b) x n t r → mk c b x s n = .inr (t, r)) :
    ChOpen cls row ok pre place use built duty := by
  intro s s1 s2 k blk c x ht hword hok hpre
  have hclass : [cls].contains (blkClass 0x010 blk) = true := by simp [blkClass_of_createWord hcls hword]
  rw [hrow, chCommand_taken ht hclass, hbody _ _ _ _ _ hword hok hpre]
  refine ⟨fun hquota => ?_, fun hquota n t r hslot hbuilt => ?_⟩
  · simp [createIn, hquota, refuse]
  · simp [createIn, hquota, hslot, hmk _ _ _ _ _ _ _ _ _ hok hpre hbuilt]

theorem created_workRing : ChOpen 1 .chCreateWorkRing (fun _ c p => ringFieldsOk p c.fn = true ∧ zeroBits p 255 224 = true ∧ bn p 223 160 = 0)
    (fun s c p cq t => t = s ∧ checkHandle s c.req (BitVec.ofNat 64 (bn p 159 96)) [2] = .inl cq) anySlot oneUnit
    (fun s _ p (cq : Nat) n t r => r = success ∧
      t = s.setWork n { base := bn p 63 0, sizeLog2 := bn p 68 64, dbPage := bn p 87 72, cq := cq, tlist := 0#64 }) := by
  apply chOpen_of_body (by decide) (fun _ _ _ => rfl)
  · rintro s c b cq t hword ⟨hring, hres, hlist⟩ ⟨rfl, hcq⟩
    simp only [hword, hring, hres, hlist, hcq,
      Bool.not_true, Bool.or_self, Bool.false_eq_true, if_false]
    rfl
  · rintro - - s c p cq n t r - - ⟨rfl, rfl⟩
    rfl

theorem created_completionRing : ChOpen 2 .chCreateCompletionRing (fun s c p => compFieldsOk p c.fn = true ∧ s.master c.fn = true) noPre anySlot oneUnit
    (fun s c p _ n t r => r = success ∧ ∃ s1, takeShadow s (32 * 2 ^ bn p 68 64) = some s1 ∧
      let q : CompRing := { base := bn p 63 0, sizeLog2 := bn p 68 64, dbPage := bn p 87 72, vector := bn p 106 96, modCount := bn p 120 112, modTime := bn p 143 128 }
      t = (s1.setComp n q).hostWrite c.fn (bn p 63 0) (List.replicate (32 * 2 ^ bn p 68 64) 0#8)) := by
  apply chOpen_of_body (by decide) (fun _ _ _ => rfl)
  · rintro s c b x t hword ⟨hfields, hmaster⟩ rfl
    exact (if_neg (by simp [hword, hfields])).trans (if_neg (by simp [hmaster]))
  · rintro - - s c p - n t r - - ⟨rfl, s1, hshadow, rfl⟩
    simp only [hshadow]
    rfl

theorem created_counterSet :
    ChOpen 0xA .chCreateCounterSet (fun _ _ p => zeroBits p 11 11 = true ∧ zeroBits p 255 18 = true ∧ 1 ≤ bn p 10 0 ∧ bn p 10 0 ≤ 1024)
    (fun s _ p first t => t = s ∧ placeCtrs s (bn p 17 12) (bn p 10 0) = some first) (fun _ _ (first : Nat) i => i == first) (fun p => bn p 10 0)
    (fun s _ p _ n t r => r = success ∧ t.vat.sets = mset s.vat.sets n (bn p 10 0) ∧ (∀ e, e ∈ t.vat.ctr ↔ e ∈ s.vat.ctr ∧ (e.1 < n ∨ n + bn p 10 0 ≤ e.1)) ∧
      t = { s with vat := { s.vat with sets := mset s.vat.sets n (bn p 10 0), ctr := s.vat.ctr.filter (fun e => decide (e.1 < n) || decide (n + bn p 10 0 ≤ e.1)) } }) := by
  apply chOpen_of_body (by decide) (fun _ _ _ => rfl)
  · rintro s c b first t hword ⟨h11, hres, hmin, hmax⟩ ⟨rfl, hplace⟩
    have hsome : bn (params b) 10 0 ≠ 0 := by omega
    simp only [hword, h11, hres, hplace, beq_eq_false_iff_ne.2 hsome, Nat.not_lt.2 hmax,
      Bool.not_true, Bool.or_self, decide_false, Bool.false_eq_true, if_false]
    rfl
  · rintro - - s c p - n t r - - ⟨rfl, -, -, rfl⟩
    rfl

theorem created_triggerList :
    ChOpen 0xB .chCreateTriggerList (fun s _ p => zeroBits p 31 5 = true ∧ zeroBits p 255 53 = true ∧ 4 ≤ bn p 4 0 ∧ bn p 4 0 ≤ 20 ∧ 1 ≤ bn p 52 32 ∧
      bn p 52 32 ≤ 1048576 ∧ (s.vat.trig.map (fun t => t.2.entries)).sum + bn p 52 32 ≤ 4194304) noPre anySlot oneUnit
    (fun s _ p _ n t r => r = success ∧ ∃ s1, takeFwRegion s (.triggers n) (cdiv (64 * bn p 52 32 + 8 * 2 ^ bn p 4 0) pageBytes) = some s1 ∧
      t = { s1 with vat := { s1.vat with trig := mset s1.vat.trig n { tagsLog2 := bn p 4 0, entries := bn p 52 32 } } }) := by
  apply chOpen_of_body (by decide) (fun _ _ _ => rfl)
  · rintro s c b x t hword ⟨h5, h53, htmin, htmax, hmin, hmax, hroom⟩ rfl
    have hsome : bn (params b) 52 32 ≠ 0 := by omega
    exact (if_neg (by simp [hword, h5, h53, Nat.not_lt.2 htmin, Nat.not_lt.2 htmax, hsome, hmax])).trans (if_neg (Nat.not_lt.2 hroom))
  · rintro - - s c p - n t r - - ⟨rfl, s1, hregion, rfl⟩
    simp only [hregion]
    rfl

theorem created_memoryRegion :
    ChOpen 8 .chCreateMemoryRegion (fun s c p => mrFieldsOk p = true ∧ (mrWin p = true → (mrOff p + mrPages p) * pageBytes ≤ winSize) ∧
      (mrWorld p = true → c.req.secure = true) ∧ (mrProt p = true → protOk s p c.fn = true) ∧ anyDegraded s = false) noPre anySlot mrPages
    (fun s c p _ n t r => makeRegion p c.fn s n = .inr (t, r)) := by
  refine chOpen_of_body (mk := fun c b _ => makeRegion (params b) c.fn) (by decide) (fun _ _ _ => rfl) ?_ (fun _ _ _ _ _ _ _ _ _ _ _ h => h)
  rintro s c b - t hword ⟨hfields, hwin, hworld, hprot, hdegraded⟩ rfl
  have hbounds : (mrWin (params b) && decide (winSize < (mrOff (params b) + mrPages (params b)) * pageBytes)) = false := by
    cases h : mrWin (params b) with
    | false => rfl
    | true => simpa using hwin h
  have hsecure : (mrWorld (params b) && !c.req.secure) = false := by
    cases h : mrWorld (params b) with
    | false => rfl
    | true => simpa using hworld h
  have hgroup : (mrProt (params b) && !protOk t (params b) c.fn) = false := by
    cases h : mrProt (params b) with
    | false => rfl
    | true => simpa using hprot h
  simp only [hword, hfields, hbounds, hsecure, hgroup, hdegraded,
      Bool.not_true, Bool.or_self, Bool.false_eq_true, if_false]
  rfl

theorem created_storageQueue :
    ChOpen 4 .chCreateStorageQueue (fun s c p => sqFieldsOk p c.fn = true ∧ hasQid s c.fn (bn p 175 160) = false ∧
      (bn p 175 160 ≠ 0 → hasQid s c.fn 0 = true) ∧ s.master c.fn = true) noPre anySlot oneUnit
    (fun s c p _ n t r => r = success ∧ ∃ s1, takeShadow s (16 * 2 ^ bn p 132 128) = some s1 ∧
      let q : CompRing := { base := bn p 127 64, sizeLog2 := bn p 132 128, dbPage := bn p 151 136, vector := bn p 186 176, modCount := bn p 200 192, modTime := bn p 223 208 }
      let w : SQueue := { base := bn p 63 0, sizeLog2 := bn p 132 128, dbPage := bn p 151 136, qid := bn p 175 160 }
      t = ((s1.setComp (cqKey n) q).setSq n w).hostWrite c.fn (bn p 127 64) (List.replicate (16 * 2 ^ bn p 132 128) 0#8)) := by
  apply chOpen_of_body (by decide) (fun _ _ _ => rfl)
  · rintro s c b x t hword ⟨hfields, hqid, hadmin, hmaster⟩ rfl
    have hadmin' : (bn (params b) 175 160 != 0 && !hasQid t c.fn 0) = false := by
      by_cases h : bn (params b) 175 160 = 0
      · simp [h]
      · simp [hadmin h]
    exact (if_neg (by simp [hword, hfields, hqid, hadmin'])).trans (if_neg (by simp [hmaster]))
  · rintro - - s c p - n t r - - ⟨rfl, s1, hshadow, rfl⟩
    simp only [hshadow]
    rfl

theorem created_dispatchQueue :
    ChOpen 5 .chCreateDispatchQueue (fun _ _ p => zeroBits p 255 64 = true) (fun s c p cfg t => loadWcfg s c.req (bn p 63 0) = (t, .inl cfg)) anySlot oneUnit
    (fun s _ _ cfg n t r => r = success ∧ t = s.setWq n { cfg := cfg }) := by
  apply chOpen_of_body (by decide) (fun _ _ _ => rfl)
  · intro s c b cfg t hword hres hload
    simp only [hword, hres, hload,
      Bool.not_true, Bool.or_self, Bool.false_eq_true, if_false]
    rfl
  · rintro - - s c p cfg n t r - - ⟨rfl, rfl⟩
    rfl

theorem created_reductionGroup :
    ChOpen 6 .chCreateReductionGroup (fun _ _ p => zeroBits p 255 64 = true) (fun s c p cfg t => loadBcfg s c.req none (bn p 63 0) = (t, .inl cfg)) anySlot oneUnit
    (fun s _ _ cfg n t r => r = success ∧ t = zeroRes (s.setBg n { cfg := cfg }) cfg.rec_ false) := by
  apply chOpen_of_body (by decide) (fun _ _ _ => rfl)
  · intro s c b cfg t hword hres hload
    simp only [hword, hres, hload,
      Bool.not_true, Bool.or_self, Bool.false_eq_true, if_false]
    rfl
  · rintro - - s c p cfg n t r - - ⟨rfl, rfl⟩
    rfl

theorem created_optimizerProgram :
    ChOpen 7 .chCreateOptimizerProgram (fun _ _ p => optParamsOk p = true)
    (fun s c p (len : Nat) t => (bn p 63 0 = 0 ∧ t = s ∧ len = 0) ∨ (bn p 63 0 ≠ 0 ∧ checkTierN s c.req (bn p 63 0) 4 = (t, none) ∧ len = imageLen t (bn p 63 0 % 2 ^ 48)))
    anySlot oneUnit
    (fun s _ p len n t r => r = success ∧ t = { s with par := { s.par with
      progs := mset s.par.progs n { code := bn p 63 0, len := len, lib := bn p 67 64, clmask := BitVec.ofNat 64 (bn p 191 128) } } }) := by
  refine chOpen_of_body (mk := fun _ b len s i => .inr ({ s with par := { s.par with
      progs := mset s.par.progs i { code := bn (params b) 63 0, len := len, lib := bn (params b) 67 64, clmask := BitVec.ofNat 64 (bn (params b) 191 128) } } }, success))
    (by decide) (fun _ _ _ => rfl) ?_ ?_
  · rintro s c b len t hword hparams (⟨hcode, rfl, rfl⟩ | ⟨hcode, hcheck, rfl⟩)
    · simp only [hword, hparams, hcode]
      rfl
    · simp only [hword, hparams, hcode, hcheck]
      rfl
  · rintro - - s c p len n t r - - ⟨rfl, rfl⟩
    rfl

theorem created_keySlot (world : Bool) (data : Option (List Byte)) :
    ChOpen 9 (fun k b => .chCreateKeySlot k b data) (fun s c p => keyFieldsOk p = true ∧ c.req.secure = world ∧
      (world = false → s.sec.lc ≠ 0 ∧ s.sec.lc ≠ 1 ∧ s.sec.lc ≠ 4))
    (fun s c p key t => makeKey s c p data = (t, .inl key)) (fun _ _ _ i => if world then decide (i < 64) else decide (64 ≤ i)) oneUnit
    (fun s _ p key n t r => r = success ∧
      let x : KeySlot := { world := world, ksize := bn p 65 64, enc := bt p 68, dec := bt p 69, unwrap := bt p 70, key := key }
      t = { s with sec := { s.sec with keys := mset s.sec.keys n x } }) 0 := by
  refine chOpen_of_body (mk := fun c b key s i =>
      let x : KeySlot := { world := c.req.secure, ksize := bn (params b) 65 64, enc := bt (params b) 68, dec := bt (params b) 69, unwrap := bt (params b) 70, key := key }
      .inr ({ s with sec := { s.sec with keys := mset s.sec.keys i x } }, success))
    (by decide) (fun _ _ _ => rfl) ?_ ?_
  · rintro s c b key t hword ⟨hfields, rfl, hstate⟩ hkey
    have hopen : (!c.req.secure && (s.sec.lc == 0 || s.sec.lc == 1 || s.sec.lc == 4)) = false := by
      cases h : c.req.secure with
      | true => rfl
      | false => simpa [and_assoc] using hstate h
    simp only [hword, hfields, hopen, hkey,
      Bool.not_true, Bool.or_self, Bool.false_eq_true, if_false]
    rfl
  · rintro - - s c p key n t r ⟨-, rfl, -⟩ - ⟨rfl, rfl⟩
    rfl

theorem created_connection :
    ChOpen 3 .chCreateConnection (fun s c p => connFieldsOk s c.fn p = true ∧ (bn p 54 52 = 0 → pinnedAll s < 4096)) (fun s _ _ (_ : Unit) t => spillOne s = some t)
    (fun s p _ i => bn p 54 52 != 0 || decide (pinnedOn s (i % 16) < 256)) oneUnit
    (fun s _ p _ n t r => r = success ∧ t = bringOnDie (beginConn s n (connOf p)) n) := by
  apply chOpen_of_body (by decide) (fun _ _ _ => rfl)
  · rintro s c b x t hword ⟨hfields, hpinned⟩ hspill
    have hroom : ¬ ((connOf (params b)).tc = 0 ∧ 4096 ≤ pinnedAll s) := fun h => absurd h.2 (Nat.not_le.2 (hpinned h.1))
    simp only [hword, hfields, hroom, hspill,
      Bool.not_true, Bool.or_self, Bool.false_eq_true, if_false]
    rfl
  · rintro - - s c p - n t r - - ⟨rfl, rfl⟩
    rfl

/-- Settles O31, class by class. -/
theorem channelsCreated : Obligations.ChannelsCreated := by
  unfold Obligations.ChannelsCreated
  exact ⟨created_workRing, created_completionRing, created_counterSet, created_triggerList, created_memoryRegion, created_storageQueue,
    created_dispatchQueue, created_reductionGroup, created_optimizerProgram, created_keySlot, created_connection⟩

/-! New regions and handles. -/

/-- What `makeRegion` puts into its slot: a region of these fields, at a base that the reply names. -/
theorem makeRegion_eq_some {p : BitVec 256} {owner n : Nat} {s t : State} {r : Reply} (h : makeRegion p owner s n = .inr (t, r)) :
    ∃ (u : State) (base : Nat) (d : Region), d = {
        world := mrWorld p, prot := mrProt p, rRd := bt p 2, rWr := bt p 3, rAt := bt p 4, place := mrPlace p, home := mrHome p,
        pgroup := mrGroup p, owner := owner, gen := (s.slot 8 n).gen, pages := mrPages p, key := (drawKey s (mrKey p) (mrRemote p)).1, base := base } ∧
      t = { u with lake := { u.lake with regions := mset u.lake.regions n d } } ∧ r = { status := .success, r1 := base, r2 := d.key.toNat } ∧
      (mrWin p = true → base = winBase + mrPort p * winSize + mrOff p * pageBytes) := by
  simp only [makeRegion] at h
  split at h
  · split at h
    · cases h
    · obtain ⟨rfl, rfl⟩ := Prod.mk.inj (Sum.inr.inj h)
      exact ⟨_, _, _, rfl, rfl, rfl, fun _ => rfl⟩
  · next hwin =>
    split at h
    · cases h
    · split at h
      · cases h
      · next s2 _ =>
        split at h
        · split at h
          · cases h
          · split at h
            · cases h
            · next first _ =>
              obtain ⟨rfl, rfl⟩ := Prod.mk.inj (Sum.inr.inj h)
              exact ⟨{ s2 with par := { s2.par with rprot := mset s2.par.rprot n first } }, _, _, rfl, rfl, rfl, fun h => absurd h hwin⟩
        · obtain ⟨rfl, rfl⟩ := Prod.mk.inj (Sum.inr.inj h)
          exact ⟨s2, _, _, rfl, rfl, rfl, fun h => absurd h hwin⟩

theorem classLimit_le (cls : Nat) : classLimit cls ≤ 2 ^ 24 := by
  unfold classLimit
  split_ifs <;> decide

/-- The fields of a handle whose parts lie in range (R105). -/
theorem mkHandle_fields {cls gen owner n : Nat} (hcls : cls < 16) (hgen : gen < 4096) (howner : owner < 4096) (hn : n < 2 ^ 24) :
    hClass (BitVec.ofNat 64 (mkHandle cls gen owner n)) = cls ∧ hGen (BitVec.ofNat 64 (mkHandle cls gen owner n)) = gen ∧
    hOwner (BitVec.ofNat 64 (mkHandle cls gen owner n)) = owner ∧ hIndex (BitVec.ofNat 64 (mkHandle cls gen owner n)) = n ∧
    bn (BitVec.ofNat 64 (mkHandle cls gen owner n)) 35 24 = 0 := by
  simp only [hClass, hGen, hOwner, hIndex, mkHandle, at_, bn, BitVec.toNat_ofNat, Nat.shiftRight_eq_div_pow]
  refine ⟨?_, ?_, ?_, ?_, ?_⟩ <;> omega

/-- Settles O32. -/
theorem newRegionsAndHandles : Obligations.NewRegionsAndHandles := by
  unfold Obligations.NewRegionsAndHandles
  refine ⟨?_, ?_⟩
  · intro s t p owner n r h
    obtain ⟨u, base, d, rfl, rfl, rfl, hbase⟩ := makeRegion_eq_some h
    exact ⟨_, mget_mset_same .., rfl, rfl, rfl, rfl, rfl, rfl, rfl, rfl, rfl, hbase⟩
  · intro s cls n owner classes hmem hcls hn howner hgen t
    have hslot : t.slot cls n = { s.slot cls n with owner := owner, live := true, used := true, dying := false } := mgetD_mset_same ..
    obtain ⟨hC, hG, hO, hI, hz⟩ := mkHandle_fields hcls hgen howner (Nat.lt_of_lt_of_le hn (classLimit_le cls))
    have hhandle : handleOf t cls n = mkHandle cls (s.slot cls n).gen owner n := by simp only [handleOf, hslot]
    simp only [hhandle, checkHandle, hC, hI, hG, hO, hz, hslot, hmem, Nat.not_le.2 hn]
    simp

/-! Channels modified. -/

/-- CH_MODIFY by the body of its row. -/
theorem chChange_of_body {cls : Nat} {row : MboxId → CmdBlock → Instr} {ok : State → Cmd → BitVec 32256 → Nat → State → Reply → Prop} {body : FwBody}
    (hcls : cls ≠ 0) (hrow : ∀ k blk s, exec (row k blk) s = .next (chCommand 0x012 [cls] k blk body s))
    (hbody : ∀ s c b n t r, bodyHandle s c [cls] b = .inl n → ok s c b n t r → body s c b = (t, some r)) : ChChange cls row ok := by
  intro s s1 t k blk c n r ht hhandle hok
  rw [hrow, chCommand_taken ht (blkClass_of_bodyHandle (by decide) (by simpa using hcls.symm) hhandle), hbody _ _ _ _ _ _ hhandle hok]

/-- Settles O33, class by class. -/
theorem channelsModified : Obligations.ChannelsModified := by
  unfold Obligations.ChannelsModified
  refine ⟨?_, ?_, ?_, ?_, ?_, ?_, ?_, ?_⟩
  · refine chChange_of_body (by decide) (fun _ _ _ => rfl) ?_
    rintro s c b n t r hh ⟨rfl, hres, hfields, q, hq, hbase, hsize, hpage, rfl⟩
    simp [hh, hq, hres, hfields, hbase, hsize, hpage, accept, success]
  · intro s s1 k blk c n ht hh
    have harm : ∀ (body : FwBody), chCommand 0x012 [1, 9, 0xA, 0xB] k blk body s = match body s1 c blk.bits with
        | (s2, none) => s2
        | (s2, some r) => answers true s2 c r := fun body => chCommand_taken ht (blkClass_of_bodyHandle (by decide) (by decide) hh)
    have hexec : exec (.chModifyFixedClass k blk) s = execChModifyFixedClass k blk s := rfl
    rw [hexec, execChModifyFixedClass, harm, hh]
    rfl
  · refine chChange_of_body (by decide) (fun _ _ _ => rfl) ?_
    rintro s c b n t r hh ⟨hres, hfields, d, hd, hworld, hprot, hwin, hpages, hgroup, hbase, hplace, hhome, rfl, hbusy, rfl⟩
    have hbase' : (!decide (winBase ≤ d.base) || winBase + mrPort (params b) * winSize + mrOff (params b) * pageBytes == d.base) = true := by
      rw [← hwin]
      cases h : mrWin (params b) with
      | false => rfl
      | true => simp [hbase h]
    simp [hh, hd, hres, hfields, hworld, hprot, hwin, hpages, hgroup, hbase', hplace, hhome, hbusy]
  · refine chChange_of_body (by decide) (fun _ _ _ => rfl) ?_
    rintro s c b n t r hh ⟨rfl, hres, hfields, q, w, hq, hw, hbase, hcbase, hsize, hpage, hqid, rfl⟩
    simp [hh, hq, hw, hres, hfields, hbase, hcbase, hsize, hpage, hqid, accept, success]
  · refine chChange_of_body (by decide) (fun _ _ _ => rfl) ?_
    rintro s c b n t r hh ⟨rfl, hres, hzero, q, cfg, s1, hq, hload, rfl⟩
    simp [hh, hq, hres, hzero, hload, accept, success]
  · refine chChange_of_body (by decide) (fun _ _ _ => rfl) ?_
    rintro s c b n t r hh ⟨rfl, hres, hzero, g, cfg, s1, hg, hload, hops, hgid, hgen, hG, hG1, halgo, rfl⟩
    simp [hh, hg, hres, hzero, hload, hops, hgid, hgen, hG, hG1, halgo, accept, success]
  · refine chChange_of_body (by decide) (fun _ _ _ => rfl) ?_
    rintro s c b n t r hh ⟨rfl, hres, hparams, x, hx, hcode, hlib, rfl⟩
    simp [hh, hx, hres, hparams, hcode, hlib, accept, success]
  · refine chChange_of_body (by decide) (fun _ _ _ => rfl) ?_
    rintro s c b n t r hh ⟨rfl, hres, hfields, x, hx, htc, hmtu, hnode, hconn, hgen, hip, hv4, hcookie, rfl⟩
    simp [hh, hx, hres, hfields, htc, hmtu, hnode, hconn, hgen, hip, hv4, hcookie, accept, success]

/-! Channels destroyed. -/

theorem hostWrite_vat (s : State) (f a : Nat) (bs : List Byte) : (s.hostWrite f a bs).vat = s.vat := by
  unfold State.hostWrite
  split <;> rfl

theorem hostWrite_sec (s : State) (f a : Nat) (bs : List Byte) : (s.hostWrite f a bs).sec = s.sec := by
  unfold State.hostWrite
  split <;> rfl

/-- An answer to a command changes neither channels nor keys (R453, R455). -/
theorem finishCmd_vat (s : State) (id : Nat) (r : Reply) : (finishCmd s id r).vat = s.vat := by
  unfold finishCmd
  split
  · rfl
  · dsimp only
    split
    · rfl
    · exact (hostWrite_vat ..).trans ((hostWrite_vat ..).trans (hostWrite_vat ..))

theorem finishCmd_sec (s : State) (id : Nat) (r : Reply) : (finishCmd s id r).sec = s.sec := by
  unfold finishCmd
  split
  · rfl
  · dsimp only
    split
    · rfl
    · exact (hostWrite_sec ..).trans ((hostWrite_sec ..).trans (hostWrite_sec ..))

theorem replyTo_vat (s : State) (cmd : Nat) (r : Reply) : (replyTo s cmd r).vat = s.vat := by
  unfold replyTo
  split
  · rfl
  · exact finishCmd_vat ..

theorem replyTo_sec (s : State) (cmd : Nat) (r : Reply) : (replyTo s cmd r).sec = s.sec := by
  unfold replyTo
  split
  · rfl
  · exact finishCmd_sec ..

theorem slot_freeSlot (s : State) (cls i : Nat) : (freeSlot s cls i).slot cls i = { s.slot cls i with live := false, dying := false } := mgetD_mset_same ..

/-- The end of a key slot: its slot is free and its key is gone (R109). -/
theorem destroyEnd_keySlot {s : State} {d : Dying} (hcls : d.cls = 9) :
    ((destroyEnd s d).slot 9 d.index).live = false ∧ ((destroyEnd s d).slot 9 d.index).dying = false ∧ mget (destroyEnd s d).sec.keys d.index = none := by
  have hslot : ∀ (t : State) (cmd : Nat) (r : Reply), (replyTo t cmd r).slot 9 d.index = t.slot 9 d.index := by
    intro t cmd r
    simp only [State.slot, replyTo_vat]
  simp only [destroyEnd, hcls, hslot, slot_freeSlot, replyTo_sec, true_and]
  exact mget_mdel_same ..

/-- CH_DESTROY of a channel whose state allows it begins its end (R109). -/
theorem exec_chDestroy {s s1 : State} {k : MboxId} {blk : CmdBlock} {c : Cmd} {n : Nat} (ht : Taken s k 0x011 true blk c s1)
    (hh : bodyHandle s1 c [1, 2, 3, 4, 5, 6, 7, 8, 9, 0xA, 0xB] blk.bits = .inl n) (hres : bodyReserved blk.bits [] 64 = true)
    (hbusy : destroyBusy s1 (bn blk.bits 63 60) n = false) (hio : bn blk.bits 63 60 = 4 → isIo s1 n = true) :
    exec (.chDestroy k blk) s = .next (safSettle (settle (destroyStart s1 (bn blk.bits 63 60) n c.id false))) := by
  have harm : exec (.chDestroy k blk) s = execChDestroy k blk s := rfl
  have hadmin : ¬ (bn blk.bits 63 60 = 4 ∧ isIo s1 n = false) := fun h => by simp [hio h.1] at h
  rw [harm, execChDestroy, fwCommand_taken ht]
  simp only [hh, hres, hbusy, hadmin, Bool.not_true, Bool.false_eq_true, if_false]

/-- Settles O34: the command, the end, and the slots of a completion ring and of a key. -/
theorem channelsDestroyed : Obligations.ChannelsDestroyed := by
  unfold Obligations.ChannelsDestroyed
  refine ⟨fun s s1 k blk c n => exec_chDestroy, ?_, ?_, fun s d => destroyEnd_keySlot⟩
  · intro s d hfind h1 h3 hover
    have harm : exec (.chDestroyDone d.cls d.index) s = execChDestroyDone d.cls d.index s := rfl
    have hstop : destroyStop s d.cls d.index = s := if_neg h1
    simp only [harm, execChDestroyDone, hfind, hstop, h3, if_false, hover, if_true]
  · intro s n cmd t
    have hslot : t.slot 2 n = { s.slot 2 n with gen := ((s.slot 2 n).gen + 1) % 4096, live := false, dying := true } := mgetD_mset_same ..
    simp only [hslot, and_self]

end Sys2Proof.Machine
end

section
/-! PROOFS. DISPATCH, RETURN and COMBINE (R190, R195 to R200). -/

namespace Sys2Proof.Machine

open Sys2Proof

/-- What a job that `jobOf` finds looks like. -/
theorem of_jobOf {s : State} {id op : Nat} {ph : JPhase} {j : Job} (h : jobOf s id op ph = some j) :
    mget s.vat.jobs id = some j ∧ dOpcode j.desc = op ∧ j.phase = ph := by
  unfold jobOf at h
  split at h
  · cases h
  · next k hk =>
    split at h
    · next hfits =>
      obtain rfl := Option.some.inj h
      exact ⟨hk, hfits⟩
    · cases h

/-! Dispatch. -/

theorem exec_dispatch {s s1 : State} {job : Nat} {jb : Job} {x : WQueue} {bad : Option (Nat × Status)} (hjob : jobOf s job 0x30 .started = some jb)
    (hq : s.wq (hIndex (dTarget jb.desc)) = some x) (hbody : dispatchBody x.cfg.rec_ jb.desc)
    (haddrs : firstAddr jb.req (dispatchAddrs x.cfg.rec_ jb.desc) s = (s1, bad)) (hsome : bn jb.desc 399 384 ≠ 0 ∨ bad.isSome = true) :
    exec (.dispatch job) s = .next ((s1.setJob job { jb with phase := .held, detail := (bad.map (·.1)).getD 0 }).setWq (hIndex (dTarget jb.desc))
      { x with next := x.next + 1, jobs := x.jobs ++ [dispatched x job jb.desc (bad.map (·.2))] }) := by
  have harm : exec (.dispatch job) s = execDispatch job s := rfl
  obtain ⟨hok, hlogits⟩ := hbody
  have hfields : ¬ (woadBodyOk jb.desc = false ∨ (bn jb.desc 319 256 = 0 ∧ wRouter x.cfg.rec_ = 0)) := by simp [hok, hlogits]
  have hwaits : ¬ (bn jb.desc 399 384 = 0 ∧ bad.isNone = true) := by
    rintro ⟨h0, hnone⟩
    rcases hsome with h | h
    · exact h h0
    · simp [Option.isNone_iff_eq_none.1 hnone] at h
  unfold dispatchAddrs at haddrs
  simp only [harm, execDispatch, hjob, hq, hfields, haddrs, hwaits, if_false, dispatched]

/-- No job goes on from its hold while each that has not been sent waits for the one two before it (R195). -/
theorem heldJob_eq_none {s : State} {x : WQueue} (h : ∀ j ∈ x.jobs, j.sent = false → ∃ k ∈ x.jobs, k.n + 2 = j.n ∧ wjobGone s k = false) : heldJob s x = none := by
  refine List.find?_eq_none.2 fun j hj => ?_
  cases hsent : j.sent with
  | true => simp
  | false =>
    obtain ⟨k, hk, hn, hgone⟩ := h j hj hsent
    have hany : x.jobs.any (fun k => k.n + 2 == j.n && !wjobGone s k) = true := List.any_eq_true.2 ⟨k, hk, by simp [hn, hgone]⟩
    simp [hany]

theorem exec_dispatchHoldEnd {s s1 s2 : State} {queue : Nat} {x : WQueue} {j0 : WJob} {toks : List (List Val)} {raw : List (List Byte)}
    {logits : List (List Nat)} {fl : Flags3} {bb : List Byte} (hq : s.wq queue = some x) (hheld : heldJob s x = some j0) (hrefused : j0.refused = none)
    (htokens : j0.tokens ≠ 0) (hbias : readBias s (s.slot 5 queue).owner { j0 with v := s.ctr (wRetCtr j0.cfg.rec_ + j0.n % 2) } = (s1, .ok bb []))
    (hsrc : readSources s1 (s.slot 5 queue).owner { j0 with v := s.ctr (wRetCtr j0.cfg.rec_ + j0.n % 2) } = (s2, .ok toks raw logits fl)) :
    exec (.dispatchHoldEnd queue) s = .next (runDispatch s2 queue (s.slot 5 queue).owner { j0 with v := s.ctr (wRetCtr j0.cfg.rec_ + j0.n % 2) } toks raw logits fl
      (biasList j0.cfg.rec_ bb)) := by
  have harm : exec (.dispatchHoldEnd queue) s = execDispatchHoldEnd queue s := rfl
  simp only [hrefused] at hbias hsrc
  simp only [harm, execDispatchHoldEnd, hq, hheld, WJob.bank, hrefused, htokens, if_false, hbias, hsrc, List.isEmpty_nil, Bool.not_true, Bool.false_eq_true]

/-- A choice whose expert has room takes the next position there (R190). -/
theorem placeChoice_of_room {c : WCfg} {p : Placing} {taken others : List Nat} {e gate : Nat} {x : WExpert} (hx : c.experts[e]? = some x)
    (hroom : mgetD p.used e 0 < x.cap) : placeChoice c p taken others e gate = (p.put e gate, e :: taken) := by
  simp [placeChoice, hx, hroom]

theorem placeChoice_of_drop {c : WCfg} {p : Placing} {taken others : List Nat} {e gate : Nat} {x : WExpert} (hx : c.experts[e]? = some x)
    (hfull : x.cap ≤ mgetD p.used e 0) (hpolicy : wPolicy c.rec_ = 0) : placeChoice c p taken others e gate = (p.drop gate, taken) := by
  simp [placeChoice, hx, Nat.not_lt.2 hfull, hpolicy]

theorem placeChoice_of_spill {c : WCfg} {p : Placing} {taken others : List Nat} {e gate : Nat} {x : WExpert} (hx : c.experts[e]? = some x)
    (hfull : x.cap ≤ mgetD p.used e 0) (hpolicy : wPolicy c.rec_ = 2) (hspill : p.spilled < wSpillMax c.rec_) :
    (placeChoice c p taken others e gate).1.routes = p.routes ++ [⟨e, 2, p.spilled, gate⟩] := by
  simp [placeChoice, hx, Nat.not_lt.2 hfull, hpolicy, hspill]

theorem exec_dispatchDone {s s1 s2 : State} {queue id : Nat} {x : WQueue} {j : WJob} (hq : s.wq queue = some x)
    (hfind : x.jobs.find? (fun j => j.sent && !j.finished) = some j) (hjob : j.job = some id) (hwindow : windowBusy s (.job id) = false)
    (hwrites : writesOut s (.job id) = false) (hsends : takeSends Poster.woad j.sends (applyNotes s) = (s1, [], [])) (hfailed : j.failed = none)
    (hcounts : j.counts = 0) (hwrite : agentWrite s1 { req := { fn := (s.slot 5 queue).owner }, work := .job id } j.route j.routes = (s2, none)) :
    exec (.dispatchDone queue) s =
      .next (putWjob (completeJob s2 id j.status j.rerouted (j.n % 2 ^ 32 + at_ 32 (min 65535 j.unplaced) + at_ 48 (min 65535 j.spilled)))
        queue { j with sends := [], job := none, finished := true }) := by
  have harm : exec (.dispatchDone queue) s = execDispatchDone queue s := rfl
  simp [harm, execDispatchDone, hq, hfind, hjob, hwindow, hwrites, hsends, hfailed, hcounts, hwrite]

/-! Return. -/

/-- A source's rows that are sent leave the job and the count of rows of the RETURN. -/
theorem sendReturn_same (s : State) (fn job : Nat) (c : WCfg) (src : Nat) (x : BitVec 512) (rows : List Byte) (w : WReturn) :
    (sendReturn s fn job c src x rows w).2.job = w.job ∧ (sendReturn s fn job c src x rows w).2.rows = w.rows := by
  unfold sendReturn
  dsimp only
  split
  · split <;> exact ⟨rfl, rfl⟩
  · split
    · exact ⟨rfl, rfl⟩
    · split <;> exact ⟨rfl, rfl⟩

/-- The fold over the sources keeps them too. -/
theorem foldl_sendReturn_same (fn job : Nat) (c : WCfg) (enc : List (List Byte)) (xs : List (Nat × BitVec 512)) (a : State × WReturn × Nat) :
    let b := xs.foldl (fun (a : State × WReturn × Nat) p =>
      let k := bn p.2 15 0
      let (s', w') := sendReturn a.1 fn job c p.1 p.2 ((enc.drop a.2.2).take k).flatten a.2.1
      (s', w', a.2.2 + k)) a
    b.2.1.job = a.2.1.job ∧ b.2.1.rows = a.2.1.rows := by
  induction xs generalizing a with
  | nil => exact ⟨rfl, rfl⟩
  | cons p xs ih =>
    obtain ⟨hjob, hrows⟩ := ih (let k := bn p.2 15 0
      let (s', w') := sendReturn a.1 fn job c p.1 p.2 ((enc.drop a.2.2).take k).flatten a.2.1
      (s', w', a.2.2 + k))
    obtain ⟨hjob1, hrows1⟩ := sendReturn_same a.1 fn job c p.1 p.2 ((enc.drop a.2.2).take (bn p.2 15 0)).flatten a.2.1
    exact ⟨hjob.trans hjob1, hrows.trans hrows1⟩

theorem exec_returnRows {s s1 s2 s3 : State} {job c : Nat} {jb : Job} {q : WQueue} {cfg : WCfg} {x : WExpert} {recs : List (Nat × BitVec 512)} {bs : List Byte}
    (hjob : jobOf s job 0x32 .started = some jb) (hq : s.wq (hIndex (dTarget jb.desc)) = some q) (hcfg : cfg = mgetD s.woad.retCfg job q.cfg)
    (hx : cfg.experts[bn jb.desc 297 288]? = some x) (hbody : woadBodyOk jb.desc = true) (hrank : x.rank = wMyRank cfg.rec_)
    (hstride : rowBytes (bn jb.desc 303 300) (wH cfg.rec_) ≤ bn jb.desc 351 320)
    (hrecs : readRecords (returnTaken s job jb cfg) { req := jb.req, work := .job job } cfg.rec_ x (bn jb.desc 287 256 % 2) (List.range (wRanks cfg.rec_)) = .inl (s1, some recs))
    (live : List (Nat × BitVec 512)) (hlive : live = (recs.filter (fun p => recordFits (bn jb.desc 287 256) (bn jb.desc 297 288) p.1 p.2)).filter (fun p => bn p.2 15 0 != 0 && !bt p.2 28))
    (n : Nat) (hn : n = (live.map (fun p => bn p.2 15 0)).sum)
    (hread : agentRead s1 { req := jb.req, work := .job job } (bn jb.desc 255 192) (if n = 0 then 0 else (n - 1) * bn jb.desc 351 320 + rowBytes (bn jb.desc 303 300) (wH cfg.rec_)) = (s2, .ok bs []))
    (hcodec : codecCluster s2 = (s3, some c)) :
    ∃ t w old, exec (.returnRows job) s = .next t ∧ t.woad.returns = old ++ [w] ∧ w.job = job ∧ w.rows = n ∧ mget t.vat.jobs job = some { jb with phase := .running } := by
  obtain ⟨hget, hop, hphase⟩ := of_jobOf hjob
  have harm : exec (.returnRows job) s = execReturnRows job s := rfl
  have hkind : ¬ (dOpcode jb.desc ≠ 0x32 ∨ (jb.phase ≠ .started ∧ jb.phase ≠ .gathering)) := by simp [hop, hphase]
  have hfields : ¬ (woadBodyOk jb.desc = false ∨ x.rank ≠ wMyRank cfg.rec_ ∨ bn jb.desc 351 320 < rowBytes (bn jb.desc 303 300) (wH cfg.rec_)) := by
    simp [hbody, hrank, hstride]
  unfold returnTaken at hrecs
  subst hn hlive
  simp only [harm, execReturnRows, hget, hkind, if_false, hq, ← hcfg, hx, hfields, hrecs, hread, hcodec, List.isEmpty_nil, Bool.not_true, Bool.and_false,
    Bool.false_eq_true]
  refine ⟨_, _, _, rfl, rfl, ?_, ?_, mget_mset_same ..⟩
  · refine (foldl_sendReturn_same ..).1.trans ?_
    dsimp only
    split <;> rfl
  · refine (foldl_sendReturn_same ..).2.trans ?_
    dsimp only
    split <;> rfl

theorem exec_returnDone {s s1 : State} {job : Nat} {w : WReturn} (hfind : s.woad.returns.find? (fun w => w.job == job) = some w)
    (hsends : takeSends Poster.woad w.sends s = (s1, [], [])) (hwindow : windowBusy s1 (.job job) = false) (hwrites : writesOut s1 (.job job) = false) :
    exec (.returnDone job) s = .next (completeJob { s1 with woad := { s1.woad with returns := s1.woad.returns.filter (fun x => x.job != job) } } job w.status w.detail w.rows) := by
  have harm : exec (.returnDone job) s = execReturnDone job s := rfl
  simp [harm, execReturnDone, hfind, hsends, hwindow, hwrites]

/-! Combine. -/

theorem exec_combineStart {s : State} {queue id : Nat} {x : WQueue} {j : WJob} {jb : Job} (hq : s.wq queue = some x)
    (hfind : x.jobs.find? (combineDue s) = some j) (hcombine : j.combine = some id) (hjob : mget s.vat.jobs id = some jb) :
    (j.lost = true → exec (.combineStart queue) s = .next (endCombine s queue j .peerLost 0)) ∧
    (j.lost = false → j.tokens = 0 → exec (.combineStart queue) s = .next (endCombine s queue j .success 0)) ∧
    (∀ (s1 s2 s4 : State) (bs : List Byte) (c : Nat), j.lost = false → j.tokens ≠ 0 →
      agentRead s { req := jb.req, work := .job id } j.route (8 * wK j.cfg.rec_ * j.tokens) = (s1, .ok bs []) → codecCluster s1 = (s2, some c) →
      let t := (List.range j.tokens).foldl (fun t i => tileToken { req := jb.req, work := .job id } j.cfg.rec_ j.bank
        ((List.range (wK j.cfg.rec_)).map (fun k => leAt bs (8 * (wK j.cfg.rec_ * i + k)) 8)) t) { s := s2, rs := (s2.cl c).rs }
      t.stop = none → t.wait = none → agentWriteN (countOdd (t.s.setCl c { t.s.cl c with rs := t.rs }) c t.fl) { req := jb.req, work := .job id } (bn jb.desc 255 192) t.out = (s4, none, 0) →
      exec (.combineStart queue) s = .next (endCombine s4 queue j t.fl.status t.out.length)) := by
  have harm : exec (.combineStart queue) s = execCombineStart queue s := rfl
  have hjb : j.combine.bind (fun id => (mget s.vat.jobs id).map (fun jb => (id, jb))) = some (id, jb) := by simp [hcombine, hjob]
  have hfind' : x.jobs.find? (fun j => j.combine.isSome && !j.combined && j.finished &&
      (j.lost || j.tokens == 0 || ctrReached (s.ctr (wRetCtr j.cfg.rec_ + j.bank)) (j.v + BitVec.ofNat 64 j.awaited))) = some j := hfind
  simp only [harm, execCombineStart, hq, hfind', hjb]
  refine ⟨fun hlost => ?_, fun hlost htokens => ?_, fun s1 s2 s4 bs c hlost htokens hread hcodec hstop hwait hwrite => ?_⟩
  · simp only [hlost, if_true]
  · simp only [hlost, Bool.false_eq_true, if_false, htokens, if_true]
  · simp only [hlost, Bool.false_eq_true, if_false, htokens, hread, hcodec, hstop, hwait, hwrite, if_true, Nat.sub_zero]

theorem exec_combineTimeout {s : State} {queue : Nat} {x : WQueue} {j : WJob} (hq : s.wq queue = some x) (hfind : x.jobs.find? (combineOverdue s) = some j) :
    (j.combine.isSome = true → exec (.combineTimeout queue) s = .next (endCombine s queue j .remoteTimeout 0)) ∧
    (j.combine = none → exec (.combineTimeout queue) s = .next (putWjob s queue { j with late := true })) := by
  have harm : exec (.combineTimeout queue) s = execCombineTimeout queue s := rfl
  have hfind' : x.jobs.find? (fun j => j.finished && !j.combined && !j.late && !j.lost && j.refused.isNone && wTimeout j.cfg.rec_ != 0 &&
      !ctrReached (s.ctr (wRetCtr j.cfg.rec_ + j.bank)) (j.v + BitVec.ofNat 64 j.awaited)) = some j := hfind
  simp only [harm, execCombineTimeout, hq, hfind']
  refine ⟨fun h => ?_, fun h => ?_⟩
  · obtain ⟨id, hid⟩ := Option.isSome_iff_exists.1 h
    simp only [hid]
  · simp only [h]

/-- Settles O35, operation by operation. -/
theorem dispatchAndCombine : Obligations.DispatchAndCombine := by
  unfold Obligations.DispatchAndCombine
  refine ⟨fun s s1 job jb x bad => exec_dispatch, fun s s1 s2 queue x j0 toks raw logits fl bb hq hheld hrefused htokens => exec_dispatchHoldEnd hq hheld hrefused htokens,
    ?_, ?_, fun s s1 s2 queue id x j => exec_dispatchDone, ?_, fun s s1 job w => exec_returnDone, ?_, fun s queue id x j jb => exec_combineStart,
    fun s queue x j => exec_combineTimeout⟩
  · intro s queue x hq hholds
    have harm : exec (.dispatchHoldEnd queue) s = execDispatchHoldEnd queue s := rfl
    simp only [harm, execDispatchHoldEnd, hq, heldJob_eq_none hholds]
  · intro c p taken others e gate x hx
    refine ⟨fun hroom => ⟨placeChoice_of_room hx hroom, rfl, ?_⟩, fun hfull hpolicy => placeChoice_of_drop hx hfull hpolicy,
      fun hfull hpolicy hspill => placeChoice_of_spill hx hfull hpolicy hspill⟩
    simp [Placing.put]
  · intro s s1 s2 s3 job c jb q cfg x recs bs hjob hq hcfg hx hbody hrank hstride hrecs live n hread hcodec
    exact exec_returnRows hjob hq hcfg hx hbody hrank hstride hrecs live rfl n rfl hread hcodec
  · intro s job jb x hjob hbody hq hit
    have harm : exec (.combine job) s = execCombine job s := rfl
    refine ⟨fun hnone => ?_, fun j hsome hgo hlate => ?_⟩
    · simp only [hit] at hnone
      simp only [harm, execCombine, hjob, hbody, hq, Option.bind_some, hnone, finish, Bool.not_true, Bool.false_eq_true, if_false]
    · simp only [hit] at hsome
      simp only [harm, execCombine, hjob, hbody, hq, Option.bind_some, hsome, hgo, hlate, Bool.not_true, Bool.false_eq_true, if_false]

end Sys2Proof.Machine
end

section
/-! PROOFS. Collectives (R210, R215, R223). -/

namespace Sys2Proof.Machine

open Sys2Proof

/-- What a collective that is posted does, whichever of the three it is. -/
theorem collective_posted {s : State} {opc job : Nat} {jb : Job} {g : BGroup} (hjob : jobOf s job opc .started = some jb) :
    (collectiveBehind s job jb = true → collective s opc job = s) ∧
    (collectiveBehind s job jb = false → s.bg (hIndex (dTarget jb.desc)) = some g → blendBodyOk jb.desc = true → bn jb.desc 351 320 ≤ bMaxn g.cfg.rec_ →
      (∀ s1 s2 : State, g.broken = false → checkSrc s jb job (srcElems g.cfg.rec_ opc (bn jb.desc 351 320)) = (s1, none, false) →
        firstAddr jb.req ([(1, false, bn jb.desc 319 256, rowBytes (bn jb.desc 359 356) (dstElems g.cfg.rec_ opc (bn jb.desc 351 320)))] ++
          (if bEf g.cfg.rec_ then [(2, true, bRes g.cfg.rec_, 2 * bResb g.cfg.rec_)] else [])) s1 = (s2, none) →
        collective s opc job = acceptOp s2 (hIndex (dTarget jb.desc)) job opc (bn jb.desc 351 320) jb g) ∧
      (g.broken = true → mget g.aborts g.next = none → collective s opc job = turnAway s job (.cls 0x53) 0) ∧
      (∀ rank, g.broken = true → mget g.aborts g.next = some rank → collective s opc job =
        turnAway (s.setBg (hIndex (dTarget jb.desc)) { g with next := g.next + 1 }) job .peerLost rank)) := by
  unfold collective
  refine ⟨fun hbehind => by simp only [hjob, hbehind, if_true], fun hbehind hg hbody hmax => ?_⟩
  have hfields : (!blendBodyOk jb.desc || decide (bMaxn g.cfg.rec_ < bn jb.desc 351 320)) = false := by simp [hbody, hmax]
  simp only [hjob, hbehind, hg, hfields, Bool.false_eq_true, if_false]
  refine ⟨fun s1 s2 hbroken hsrc haddr => ?_, fun hbroken habort => ?_, fun rank hbroken habort => ?_⟩
  · simp only [hbroken, hsrc, haddr, Bool.false_eq_true, if_false]
  · simp only [hbroken, habort, if_true]
  · simp only [hbroken, habort, if_true]

/-- With no notice that came early, an accepted operation is held and nothing else changes. -/
theorem acceptOp_of_no_early {s : State} {gi job opc n : Nat} {jb : Job} {g : BGroup} (h : g.early = []) :
    acceptOp s gi job opc n jb g = (s.setJob job { jb with phase := .held }).setBg gi
      { g with next := g.next + 1, ops := g.ops ++ [{ j := g.next, job := job, opc := opc, n := n }] } := by
  simp only [acceptOp, h, List.filter_nil, List.foldl_nil]

/-- The row of a collective follows from what `collective` does. -/
theorem collectiveRow_of_exec {opc : Nat} {row : Nat → Instr} (hrow : ∀ job s, exec (row job) s = .next (collective s opc job)) : CollectiveRow opc row := by
  intro s job jb g hjob
  obtain ⟨hbehind, hposted⟩ := collective_posted (g := g) hjob
  simp only [hrow]
  refine ⟨fun h => by rw [hbehind h], fun h hg hbody hmax => ?_⟩
  obtain ⟨haccept, hbroken, habort⟩ := hposted h hg hbody hmax
  refine ⟨fun s1 s2 hwhole hsrc haddr => ?_, fun hb ha => by rw [hbroken hb ha], fun rank hb ha => by rw [habort rank hb ha]⟩
  rw [haccept s1 s2 hwhole hsrc haddr]
  exact ⟨rfl, fun hearly => by rw [acceptOp_of_no_early hearly]⟩

/-- A held operation goes on waiting for its partners, for the residuals of the one before, or for its areas. -/
theorem exec_collectiveHoldEnd_waits {s : State} {group : Nat} {g : BGroup} {o : BOp} (hg : s.bg group = some g) (hfind : g.ops.find? (fun o => !o.started) = some o)
    (h : releasedAll g o.j = false ∨ residualsBusy g o = true ∨ areasWait s g.cfg.rec_ = true) : exec (.collectiveHoldEnd group) s = .next s := by
  have harm : exec (.collectiveHoldEnd group) s = execCollectiveHoldEnd group s := rfl
  have hwaits : (!releasedAll g o.j || residualsBusy g o || areasWait s g.cfg.rec_) = true := by
    rcases h with h | h | h <;> simp [h]
  simp only [harm, execCollectiveHoldEnd, hg, hfind, hwaits, if_true]

/-- A broken group without operations keeps what `breakGroup` notes of it; only aborts go out. -/
theorem breakGroup_of_empty {s : State} {fn group j opc n rank : Nat} {st : Status} {no : Option Nat} {g : BGroup} (hg : s.bg group = some g) (hops : g.ops = []) :
    breakGroup s fn group j opc n st rank no =
      sendAborts ((s.setBg group { g with broken := true, failed := if g.broken then g.failed else rank, aborts := mset g.aborts j rank, early := [] }).count BLND_ABORTS 0)
        fn g j opc n rank no := by
  simp only [breakGroup, hg, hops, List.filter_nil, List.foldl_nil, List.length_nil]

/-- Settles O36, from what a posted collective does and the steps of a held and a late operation. -/
theorem collectives : Obligations.Collectives := by
  unfold Obligations.Collectives
  refine ⟨collectiveRow_of_exec fun _ _ => rfl, collectiveRow_of_exec fun _ _ => rfl, collectiveRow_of_exec fun _ _ => rfl, ?_, ?_, ?_⟩
  · intro s group g o hg hfind
    refine ⟨exec_collectiveHoldEnd_waits hg hfind, fun s1 c jb run blks hreleased hbusy hareas hjob hread hwait hstop hcodec => ?_⟩
    have harm : exec (.collectiveHoldEnd group) s = execCollectiveHoldEnd group s := rfl
    have hgo : (!releasedAll g o.j || residualsBusy g o || areasWait s g.cfg.rec_) = false := by simp [hreleased, hbusy, hareas]
    simp only [harm, execCollectiveHoldEnd, hg, hfind, hgo, hjob, hread, hwait, hstop, hcodec, Bool.false_eq_true, if_false]
    refine ⟨fun hop => ?_, fun hop => ⟨_, ?_, rfl⟩⟩
    · rw [if_pos hop]
    · rw [if_neg hop]
  · intro s group g o hg hfind htimeout
    have harm : exec (.collectiveTimeout group) s = execCollectiveTimeout group s := rfl
    simp only [harm, execCollectiveTimeout, hg, hfind, htimeout, if_false]
  · intro s fn group j opc n rank st no g hg hops
    exact ⟨_, breakGroup_of_empty hg hops, mget_mset_same ..⟩

end Sys2Proof.Machine
end

section
/-! PROOFS. Optimizer steps (R228 to R235). -/

namespace Sys2Proof.Machine

open Sys2Proof

/-- A job that passes its checks goes on to its run. -/
theorem optStart_of_ready {s s1 : State} {op job : Nat} {jb : Job} {p : OptProg} {x : BitVec 512} {cs : List Nat} (h : OptReady s op job jb p x cs s1)
    (run : State → Job → Nat → OptProg → OBody → BitVec 512 → List Nat → State) :
    optStart s op job run = run s1 jb (hIndex (dTarget jb.desc)) p (optBody jb.desc) x cs := by
  obtain ⟨hjob, hprog, hbody, hstep, hn, hopt, haddrs, rfl, hsrec, hcs⟩ := h
  have hsome : (stepClusters s1 jb.fn p).isEmpty = false := by simpa using hcs
  simp only [optStart, hjob, hprog, hbody, hstep, hn, hopt, haddrs, hsrec, hsome, Bool.not_true, Bool.false_eq_true, if_false]

/-- With no elements nothing is accessed. -/
theorem optStart_of_no_elements {s : State} {op job : Nat} {jb : Job} {p : OptProg} (hjob : jobOf s job op .started = some jb)
    (hprog : mget s.par.progs (hIndex (dTarget jb.desc)) = some p) (hbody : optBodyOk jb.desc = true) (hstep : stepWaits s jb.fn p = false)
    (hn : (optBody jb.desc).n = 0) (run : State → Job → Nat → OptProg → OBody → BitVec 512 → List Nat → State) :
    optStart s op job run = optEmpty s op job jb p (optBody jb.desc) := by
  simp only [optStart, hjob, hprog, hbody, hstep, hn, Bool.not_true, Bool.false_eq_true, if_false, if_true]

/-- A push of no bytes writes nothing. -/
theorem endPush_of_nil {s : State} {job : Nat} {g : Agent} {x : BitVec 512} {sat : Bool} {result : Nat} :
    endPush s job g x [] sat result = completeJob s job (if sat then .saturated else .success) 0 result := by
  simp [endPush, agentWrite, agentWriteN]

/-- The library's SGD step takes its elements in pairs (R233, R234). -/
theorem libStep_sgd {x : BitVec 512} {b : OBody} {ys w m : List Nat} {s : State} :
    let es := List.zipWith (sgdElem ⟨x, 1, b.step⟩) ys ((List.zip w m).map (fun p => ({ w := p.1, m := p.2 } : Elem)))
    libStep ⟨x, 1, b.step⟩ b ys [w, m] s =
      (s, [(b.state + arrayOff b.n 0 (b.step % 2), es.map (·.w)), (b.state + arrayOff b.n 1 (b.step % 2), es.map (·.m))], es.map (·.w)) := by
  have hpairs : (List.zip w m).mapIdx (fun i (p : Nat × Nat) => ({ w := p.1, m := p.2, v := ([] : List Nat).getD i 0 } : Elem)) =
      (List.zip w m).map (fun p => ({ w := p.1, m := p.2 } : Elem)) := List.ext_getElem (by simp) (fun i h1 h2 => by simp)
  simp only [libStep, List.getD_cons_zero, List.getD_cons_succ, List.getD_nil, if_true]
  simp only [List.getD_nil] at hpairs
  simp only [hpairs]

theorem runLib_sgd {s s1 s2 : State} {job : Nat} {jb : Job} {b : OBody} {cs : List Nat} {x : BitVec 512} {vals : List (Option Nat)} {zeros : Nat} {w m : List Nat}
    (hfinite : vals.any (·.isNone) = false)
    (hread : readArrays { req := jb.req, work := .job job } [(b.state + arrayOff b.n 0 ((b.step - 1) % 2), b.n), (b.state + arrayOff b.n 1 ((b.step - 1) % 2), b.n)] s =
      (s1, .inl ([w, m], false))) (hpush : oPush x = 0) (es : List Elem)
    (hes : es = List.zipWith (sgdElem ⟨x, 1, b.step⟩) (vals.map (·.getD 0)) ((List.zip w m).map (fun p => ({ w := p.1, m := p.2 } : Elem))))
    (hwrite : writeArrays { req := jb.req, work := .job job } [(b.state + arrayOff b.n 0 (b.step % 2), es.map (·.w)), (b.state + arrayOff b.n 1 (b.step % 2), es.map (·.m))] s1 = (s2, none)) :
    runLib s job jb cs 1 x b vals zeros = completeJob s2 job .success 0 (b.step + at_ 32 (min (2 ^ 32 - 1) zeros)) := by
  have hreads : libReads 1 x b = [(b.state + arrayOff b.n 0 ((b.step - 1) % 2), b.n), (b.state + arrayOff b.n 1 ((b.step - 1) % 2), b.n)] := rfl
  subst hes
  simp only [runLib, hfinite, hreads, hread, libStep_sgd, hpush, hwrite, endPush_of_nil, Bool.false_eq_true, if_false, if_true, stepResult]

/-- Settles O37, step by step. -/
theorem optimizerSteps : Obligations.OptimizerSteps := by
  unfold Obligations.OptimizerSteps
  refine ⟨?_, ?_, ?_, ?_, ?_⟩
  · intro s s1 s2 job jb p x cs image hready hfree himage
    have harm : exec (.optStep job) s = execOptStep job s := rfl
    simp only [harm, execOptStep, optStart_of_ready hready, hfree, himage, Bool.false_eq_true, if_false]
    refine ⟨fun huser => by simp only [huser, if_true], fun r vals zeros hlib hread hwait hstop hpois => ?_⟩
    simp only [hlib, hread, hwait, hstop, hpois, Option.isSome_none, Bool.false_eq_true, if_false]
  · intro s s1 s2 job jb b cs x vals zeros w m hfinite hread hpush es hwrite
    exact runLib_sgd hfinite hread hpush es rfl hwrite
  · intro x t y e hplain
    simp [sgdElem, hplain, Hyper.g]
  · intro s s1 job jb p x cs hready
    have harm : exec (.wpush job) s = execWpush job s := rfl
    simp only [harm, execWpush, optStart_of_ready hready]
    refine ⟨fun hpush => by simp only [hpush, if_true], fun s2 s3 s4 ws bs sat hpush hread hprep hwrite => ?_⟩
    simp only [hpush, hread, hprep, endPush, hwrite, if_false]
  · intro s op job jb p hjob hprog hbody hstep hn
    refine ⟨fun hop => ?_, fun hop => ?_⟩
    · have harm : exec (.optStep job) s = execOptStep job s := rfl
      subst hop
      rw [harm, execOptStep, optStart_of_no_elements hjob hprog hbody hstep hn]
    · have harm : exec (.wpush job) s = execWpush job s := rfl
      subst hop
      rw [harm, execWpush, optStart_of_no_elements hjob hprog hbody hstep hn]

end Sys2Proof.Machine
end

section
/-! PROOFS. Parity groups (R236, R237, R242, R243, R246, R248). -/

namespace Sys2Proof.Machine

open Sys2Proof

/-- The group of a block is made in the lowest free slot. -/
theorem makeGroup_of_made {s t : State} {c : Cmd} {b : BitVec 32256} {spare : Bool} (h : groupMade s c b spare t) : makeGroup s c b spare = (t, none) := by
  obtain ⟨n, rs, hslot, hshare, rfl⟩ := h
  simp only [makeGroup, hslot]
  have hneed : placeShare s (sharePages (pgOf b).p ((pgOf b).w - (pgOf b).p) (pgOf b).size) = some rs := hshare
  simp only [hneed]
  rfl

/-- The mask of the members that stay lost is empty when each of them is back. -/
theorem foldl_mask_eq_zero {p : Nat → Bool} {xs : List Nat} (h : ∀ m ∈ xs, p m = false) :
    xs.foldl (fun (v : BitVec 16) m => if p m then v ||| BitVec.ofNat 16 (2 ^ m) else v) 0#16 = 0#16 := by
  induction xs with
  | nil => rfl
  | cons x xs ih =>
    simp only [List.foldl_cons, h x (List.mem_cons_self ..), Bool.false_eq_true, if_false]
    exact ih fun m hm => h m (List.mem_cons_of_mem _ hm)

theorem pgroup_setPg_same (s : State) (n : Nat) (g : PGroup) : (s.setPg n g).pgroup n = some g := mget_mset_same ..

/-- The end of a rebuild with every lost member back. -/
theorem endRebuild_of_all_back {s : State} {slot epoch : Nat} {g : PGroup} {peers : List PeerConn}
    (h : ∀ m < 16, g.lost.getLsbD m = true → m ∈ peers.map (·.member)) : ∃ s2 : State,
    s2.pgroup slot = some { g with state := .normal, lost := 0#16, commit := epoch, openE := (epoch + 1) % 2 ^ 64, closing := none, dirty := [], cmd := 0, rebuilt := if g.spare then g.toRebuild else g.rebuilt, spare := false, reported := false } ∧
    endRebuild s slot g epoch peers = settle (let s3 := releaseHeld (openPeers s2 slot (peers.filter (fun p => decide (p.member < g.w) && p.member != g.member &&
      !(groupConns s slot).any (fun c => c.2.peerNode == g.nodes.getD p.member 0xFFFF && decide (c.2.state ≠ .error)))))
      if g.cmd = 0 then s3 else replyTo s3 g.cmd { status := .success }) := by
  have hmask := foldl_mask_eq_zero (p := fun m => g.lost.getLsbD m && !(peers.map (·.member)).contains m) (xs := List.range 16) (by
    intro m hm
    cases hbit : g.lost.getLsbD m with
    | false => rfl
    | true =>
      have hin := h m (List.mem_range.1 hm) hbit
      simpa using hin)
  refine ⟨_, pgroup_setPg_same s .., ?_⟩
  simp only [endRebuild, hmask, if_true]

/-- A member lost within the number of parities degrades the group; beyond it the group is lost (R248). -/
theorem memberLost_of_normal {s : State} {slot m : Nat} {g : PGroup} (hg : s.pgroup slot = some g) (hbit : g.lost.getLsbD m = false) (hstate : g.state = .normal)
    (hclosing : g.closing = none) (hcmd : g.cmd = 0) (lost : BitVec 16) (hlost : lost = g.lost ||| BitVec.ofNat 16 (2 ^ m)) :
    (popcount 16 lost.toNat ≤ g.p → (memberLost s slot m).pgroup slot = some { g with lost := lost, state := .degraded }) ∧
    (g.p < popcount 16 lost.toNat → ∃ s2 : State, memberLost s slot m = releaseHeld s2 ∧ s2.pgroup slot = some { g with lost := lost, state := .lost, cmd := 0 }) := by
  subst hlost
  have hgoes : ¬ (g.lost.getLsbD m = true ∨ g.state = .joining) := by simp [hbit, hstate]
  refine ⟨fun hfew => ?_, fun hmany => ?_⟩
  · have hstays : ¬ (g.p < popcount 16 (g.lost ||| BitVec.ofNat 16 (2 ^ m)).toNat ∧ g.state ≠ .lost) := fun h => Nat.not_lt.2 hfew h.1
    simp only [memberLost, hg, hgoes, if_false, if_neg hstays, endEpoch, hclosing]
    rw [hstate, if_pos rfl]
    exact mget_mset_same ..
  · have hends : g.p < popcount 16 (g.lost ||| BitVec.ofNat 16 (2 ^ m)).toNat ∧ g.state ≠ .lost := ⟨hmany, by simp [hstate]⟩
    simp only [memberLost, hg, hgoes, if_false, if_pos hends, endEpoch, hclosing]
    have hget : ∀ (t : State) (x : PGroup) (ds : List Delta), State.pgroup { t.setPg slot x with par := { (t.setPg slot x).par with deltas := ds } } slot = some x :=
      fun t x ds => mget_mset_same ..
    rw [groupEnds, hget]
    simp only [hcmd, if_true]
    exact ⟨_, rfl, mget_mset_same ..⟩

/-- Settles O38, operation by operation. -/
theorem parityGroups : Obligations.ParityGroups := by
  unfold Obligations.ParityGroups
  refine ⟨?_, ?_, ?_, ?_, ?_, ?_, ?_, ?_, ?_⟩
  · refine fwEffect_of_body (fun _ _ _ => rfl) ?_
    rintro s c b t r ⟨hfn, hfields, hmin, hgroup, hmade, rfl⟩
    simp [hfn, hfields, Nat.not_lt.2 hmin, hgroup, makeGroup_of_made hmade]
  · intro s group g peers hg hstate
    have hdone : ∀ same, exec (.pgJoinDone group same peers) s = execPgJoinDone group same peers s := fun _ => rfl
    have htimeout : exec (.pgJoinTimeout group) s = execPgJoinTimeout group s := rfl
    simp [hdone, htimeout, execPgJoinDone, execPgJoinTimeout, hg, hstate]
  · refine fwEffect_of_body (fun _ _ _ => rfl) ?_
    rintro s c b t r ⟨hfn, hbody, n, g, hgroup, hcmd, hregions, rfl, rfl⟩
    simp only [hfn, hbody, hgroup, hcmd, hregions, Bool.not_true, Bool.false_eq_true, if_false, accept, success, bne_self_eq_false, Bool.or_false]
  · refine fwEffect_of_body (fun _ _ _ => rfl) ?_
    rintro s c b t r ⟨hfn, hbody, hgroup, rfl, rfl⟩
    obtain ⟨⟨n, g⟩, hsome⟩ := Option.isSome_iff_exists.1 hgroup
    simp [hfn, hbody, hsome, refuse]
  · intro s job n jb g hjob hbody hgroup howner hstate
    have harm : exec (.parEpoch job) s = execParEpoch job s := rfl
    simp only [harm, execParEpoch, hjob, hbody, hgroup, howner, hstate, Bool.not_true, Bool.false_eq_true, ne_eq, not_true_eq_false, or_false, if_false]
    refine ⟨fun hepoch => ?_, fun hepoch hlost => ?_, fun hepoch hnormal hclosing => ?_⟩
    · simp only [hepoch, not_false_eq_true, if_true, finish]
    · simp only [hepoch, hlost, not_true_eq_false, not_false_eq_true, if_true, if_false, finish]
    · simp only [hepoch, hnormal, hclosing, not_true_eq_false, Option.isSome_none, Bool.false_eq_true, if_false]
  · intro s group job g hg hclosing hstate hdeltas
    have harm : exec (.epochCommit group) s = execEpochCommit group s := rfl
    have hgo : ¬ (g.state ≠ .normal ∨ (paritySettle s).par.deltas.any (fun d => d.slot == group && decide (d.epoch ≤ g.openE - 1)) = true) := by
      simp only [hstate, hdeltas]; simp
    simp only [harm, execEpochCommit, hg, hclosing, hgo, if_false, finish]
  · intro peers
    refine ⟨fwEffect_of_body (body := pgRebuildBody peers) (fun _ _ _ => rfl) ?_, fwEffect_of_body (body := pgRebuildBody peers) (fun _ _ _ => rfl) ?_⟩
    · rintro s c b t r ⟨hfn, hfields, hgroup, hmin, hnode, rfl, s1, n, g, hmade, hgroup1, rfl⟩
      have hgo : ¬ (pgP b < parityMin (max 1 s.fab.size) ∨ (pgNodes b).getD (bn b 35 32) 0xFFFF ≠ s.fab.node) := not_or.2 ⟨Nat.not_lt.2 hmin, not_not.2 hnode⟩
      simp only [pgRebuildBody, hfn, hfields, hgroup, hgo, makeGroup_of_made hmade, hgroup1, Bool.not_true, Bool.false_eq_true, if_false]
    · rintro s c b t r ⟨hfn, hfields, n, g, g1, hgroup, hw, hp, hsize, hnodes, hmember, hcmd, hg1, hstate, rfl, rfl⟩
      have hsame : ¬ ((pgOf b).w ≠ g.w ∨ (pgOf b).p ≠ g.p ∨ (pgOf b).size ≠ g.size ∨ (pgOf b).nodes ≠ g.nodes ∨ (pgOf b).member = g.member) := by
        simp [pgOf, hw, hp, hsize, hnodes, hmember]
      have hbegins : (rebuildBegins s n (pgOf b).member peers).pgroup n = some g1 := hg1
      simp only [pgRebuildBody, hfn, hfields, hgroup, hsame, hcmd, hbegins, hstate, Bool.not_true, Bool.false_eq_true, ne_eq, not_true_eq_false, if_false]
      rfl
  · intro s group epoch data parity peers g hg hstate
    have harm : ∀ ok, exec (.pgRebuildDone group ok epoch data parity peers) s = execPgRebuildDone group ok epoch data parity peers s := fun _ => rfl
    simp only [harm, execPgRebuildDone, hg, hstate, ne_eq, not_true_eq_false, if_false, Bool.not_true, Bool.not_false, if_true, Bool.false_eq_true]
    refine ⟨trivial, fun hready => ?_⟩
    rw [hready]
    exact ⟨rfl, fun hback => endRebuild_of_all_back hback⟩
  · intro s slot m g hg hbit hstate hclosing hcmd lost
    exact memberLost_of_normal hg hbit hstate hclosing hcmd lost rfl

end Sys2Proof.Machine
end

section
/-! PROOFS. Transport operations (R265, R268 to R272). -/

namespace Sys2Proof.Machine

open Sys2Proof

theorem conn_setConn_same (s : State) (i : Nat) (c : Conn) : (s.setConn i c).conn i = some c := mget_mset_same ..

/-- One step of `startWaiting`: the first waiting job becomes a message (R254, R270). -/
theorem startWaiting_job {s : State} {i job : Nat} {c : Conn} {j : Job} {rest : List Waiting} (hc : s.conn i = some c) (hestablished : c.state = .established)
    (htier : c.tier ≠ .host) (hwaiting : c.waiting = .job job :: rest) (hj : mget s.vat.jobs job = some j) (hroom : (msgOfJob job j.desc).asks = false ∨ c.outReads < 64) :
    startWaiting i 1 s = addMsg ((s.setConn i { c with waiting := rest }).setJob job { j with phase := .running }) i (msgOfJob job j.desc) := by
  have hstarts : ((msgOfJob job j.desc).asks && decide (64 ≤ c.outReads)) = false := by
    rcases hroom with h | h
    · simp [h]
    · simp [Nat.not_le.2 h]
  simp only [startWaiting, hc, hestablished, htier, hwaiting, hj, hstarts, ne_eq, not_true_eq_false, or_false, if_false, Bool.false_eq_true]

/-- On an established connection with nothing before it, work whose job is held becomes a message at once (R254, R270). -/
theorem joinWaiting_of_established {s : State} {i job : Nat} {c : Conn} {j : Job} (hestablished : c.state = .established) (htier : c.tier ≠ .host) (hempty : c.waiting = [])
    (hroom : (msgOfJob job j.desc).asks = false ∨ c.outReads < 64) :
    joinWaiting (s.setJob job { j with phase := .held }) i c (.job job) =
      addMsg ((s.setConn i { c with activeAt := s.now }).setJob job { j with phase := .running }) i (msgOfJob job j.desc) := by
  have hstarts := startWaiting_job (rest := []) (conn_setConn_same (s.setJob job { j with phase := .held }) i { c with waiting := [.job job], activeAt := s.now })
    hestablished htier rfl (mget_mset_same ..) hroom
  simp only [joinWaiting, hempty, List.length_nil, List.nil_append, Nat.zero_add, if_neg htier]
  refine hstarts.trans ?_
  simp only [State.setConn, State.setJob, mset_mset]

/-- On a connection that is still connecting, work waits (R254). -/
theorem joinWaiting_of_connecting {s : State} {i : Nat} {c : Conn} {w : Waiting} (hconnecting : c.state = .connecting) (htier : c.tier ≠ .host) :
    joinWaiting s i c w = s.setConn i { c with waiting := c.waiting ++ [w], activeAt := s.now } := by
  simp only [joinWaiting, startWaiting, conn_setConn_same, hconnecting, htier, ne_eq, reduceCtorEq, not_false_eq_true, true_or, if_true, if_false]

/-- The row of a transport operation other than RECV follows from what `transport` does. -/
theorem transportRow_of_exec {op : Nat} {row : Nat → Instr} (hop : op ≠ 0x17) (hrow : ∀ job s, exec (row job) s = .next (transport s op job)) : TransportRow op row := by
  refine ⟨fun s job j hjob hbehind => ?_, fun s s1 job j c hjob hbehind hc hpeer hlocal hread => ?_⟩
  · simp only [hrow, transport, hjob, hbehind, if_true]
  have hbounds : ¬ (op ≠ 0x14 ∧ op ≠ 0x17 ∧ tRaddr j.desc / 2 ^ 48 ≠ c.peerNode) := by
    rintro ⟨h14, -, hne⟩
    exact hpeer.elim h14 hne
  have hlen : (if (decide (op = 0x15) || decide (op = 0x16)) = true then (if tLaddr j.desc = 0 then 0 else 8) else tLen j.desc) =
      if op = 0x15 ∨ op = 0x16 then (if tLaddr j.desc = 0 then 0 else 8) else tLen j.desc := by simp
  have hmoves : ¬ (op = 0x13 ∧ (if op = 0x15 ∨ op = 0x16 then (if tLaddr j.desc = 0 then 0 else 8) else tLen j.desc) = 0) := by
    rintro ⟨rfl, h⟩
    exact hread rfl (by simpa using h)
  simp only [hrow, transport, hjob, hbehind, hc, hbounds, hlen, hlocal, hmoves, hop, Bool.false_eq_true, if_false, finish]
  refine ⟨fun hstate htier hempty hroom => ?_, fun hstate htier => ?_, fun hstate => by rw [if_pos hstate]⟩
  · rw [if_neg (by simp [hstate]), joinWaiting_of_established hstate htier hempty hroom]
  · rw [if_neg (by simp [hstate]), joinWaiting_of_connecting hstate htier]
    rfl

/-- Settles O39: the seven rows by `transportRow_of_exec`, then RECV and the numbering of messages. -/
theorem transportOperations : Obligations.TransportOperations := by
  unfold Obligations.TransportOperations
  refine ⟨transportRow_of_exec (by decide) fun _ _ => rfl, transportRow_of_exec (by decide) fun _ _ => rfl, transportRow_of_exec (by decide) fun _ _ => rfl,
    transportRow_of_exec (by decide) fun _ _ => rfl, transportRow_of_exec (by decide) fun _ _ => rfl, transportRow_of_exec (by decide) fun _ _ => rfl,
    transportRow_of_exec (by decide) fun _ _ => rfl, ?_, ?_, ?_, ?_⟩
  · intro s s1 job j c hjob hbehind hc hpeer hlen hlocal
    have harm : exec (.read job) s = .next (transport s 0x13 job) := rfl
    have hbounds : ¬ ((0x13 : Nat) ≠ 0x14 ∧ (0x13 : Nat) ≠ 0x17 ∧ tRaddr j.desc / 2 ^ 48 ≠ c.peerNode) := fun h => h.2.2 hpeer
    have hatomic : (decide ((0x13 : Nat) = 0x15) || decide ((0x13 : Nat) = 0x16)) = false := rfl
    simp only [harm, transport, hjob, hbehind, hc, hbounds, hatomic, hlen, hlocal, finish, Bool.false_eq_true, if_false, and_self, if_true]
  · intro s s1 job j c hjob hbehind hc hlocal hstate htier
    have harm : exec (.recv job) s = .next (transport s 0x17 job) := rfl
    refine ⟨fun hroom => ?_, fun hfull => ?_⟩
    · simp [harm, transport, hjob, hbehind, hc, hlocal, hstate, Nat.not_le.2 hroom, htier]
    · simp [harm, transport, hjob, hbehind, hc, hlocal, hstate, hfull, finish]
  · intro s i m c hc hplain
    simp only [addMsg, hc, hplain, Option.isSome_none, Bool.false_eq_true, false_and, if_false, Nat.add_zero]
    exact ⟨_, conn_setConn_same .., rfl, rfl, rfl, rfl, rfl, rfl⟩
  · intro c op len
    refine ⟨rfl, rfl, ?_, fun hmtu => ?_⟩
    · simp [psnCount, cdiv, Nat.div_eq_of_lt, Conn.mtuBytes]
    · simp [psnCount, Conn.mtuBytes, hmtu, cdiv]

end Sys2Proof.Machine
end

section
/-! PROOFS. Timers and settings of connections (R255, R278, R281, R282, R284, R285, R291). -/

namespace Sys2Proof.Machine

open Sys2Proof

/-- The fields of a number add up, from the lowest on. -/
theorem mod_add_field (n lo hi : Nat) (h : lo ≤ hi) : n % 2 ^ lo + at_ lo ((n >>> lo) % 2 ^ (hi + 1 - lo)) = n % 2 ^ (hi + 1) := by
  rw [at_, Nat.shiftRight_eq_div_pow, show hi + 1 = lo + (hi + 1 - lo) by omega, Nat.pow_add 2 lo, Nat.mod_mul, Nat.add_sub_cancel_left, Nat.mul_comm]

/-- A field of a profile whose value is not reserved takes the new value (R5). -/
theorem profField_new {new old : BitVec 192} {hi lo least : Nat} (h : least ≤ bn new hi lo) : profField new old (hi, lo, least) = at_ lo (bn new hi lo) := by
  simp only [profField, h, if_true]

/-- The sum over the fields of R291. -/
theorem sum_map_profFields (f : Nat × Nat × Nat → Nat) : (profFields.map f).sum = f (31, 0, 0) + (f (63, 32, 4096) + (f (79, 64, 0) + (f (87, 80, 0) + (f (95, 88, 1) +
    (f (111, 96, 0) + (f (112, 112, 0) + (f (143, 128, 1) + (f (159, 144, 1) + (f (175, 160, 1) + (f (183, 176, 1) + f (191, 184, 0))))))))))) := by
  simp only [profFields, List.map_cons, List.map_nil, List.sum_cons, List.sum_nil, add_zero]

/-- The fields of R291 cover a profile but for its reserved bits. -/
theorem sum_profFields {new old : BitVec 192} (hmin : 4096 ≤ bn new 63 32) (hdup : 1 ≤ bn new 95 88) (hrto : 1 ≤ bn new 143 128) (hbackoff : 1 ≤ bn new 159 144)
    (hnoprog : 1 ≤ bn new 175 160) (hretry : 1 ≤ bn new 183 176) (hreserved : bn new 127 113 = 0) : (profFields.map (profField new old)).sum = new.toNat := by
  have hfields : (profFields.map (profField new old)).sum = at_ 0 (bn new 31 0) + (at_ 32 (bn new 63 32) + (at_ 64 (bn new 79 64) + (at_ 80 (bn new 87 80) + (at_ 88 (bn new 95 88) +
      (at_ 96 (bn new 111 96) + (at_ 112 (bn new 112 112) + (at_ 128 (bn new 143 128) + (at_ 144 (bn new 159 144) + (at_ 160 (bn new 175 160) + (at_ 176 (bn new 183 176) +
      at_ 184 (bn new 191 184))))))))))) := by
    rw [sum_map_profFields]
    simp only [profField_new (Nat.zero_le _), profField_new hmin, profField_new hdup, profField_new hrto, profField_new hbackoff, profField_new hnoprog, profField_new hretry]
  have hgap : at_ 113 (bn new 127 113) = 0 := by rw [hreserved, at_, Nat.zero_mul]
  have hfull : new.toNat % 2 ^ 192 = new.toNat := Nat.mod_eq_of_lt new.isLt
  simp only [bn] at hgap
  have h0 : at_ 0 (new.toNat >>> 0 % 2 ^ (31 + 1 - 0)) = new.toNat % 2 ^ 32 := by simp [at_]
  rw [hfields, ← hfull]
  simp only [bn]
  rw [h0, ← mod_add_field _ 184 191 (by decide), ← mod_add_field _ 176 183 (by decide), ← mod_add_field _ 160 175 (by decide), ← mod_add_field _ 144 159 (by decide),
    ← mod_add_field _ 128 143 (by decide), ← mod_add_field _ 113 127 (by decide), hgap, ← mod_add_field _ 112 112 (by decide), ← mod_add_field _ 96 111 (by decide),
    ← mod_add_field _ 88 95 (by decide), ← mod_add_field _ 80 87 (by decide), ← mod_add_field _ 64 79 (by decide), ← mod_add_field _ 32 63 (by decide)]
  ring

/-- The three words of a profile as one number. -/
theorem toNat_words (w0 w1 v : W64) : (BitVec.ofNat 192 (w0.toNat + at_ 64 w1.toNat + at_ 128 v.toNat)).toNat = w0.toNat + w1.toNat * 2 ^ 64 + v.toNat * 2 ^ 128 := by
  have h0 := w0.isLt
  have h1 := w1.isLt
  have h2 := v.isLt
  rw [BitVec.toNat_ofNat, at_, at_]
  omega

/-- The fields of three words are those of the word they lie in. -/
theorem bn_words (w0 w1 v : W64) : let new := BitVec.ofNat 192 (w0.toNat + at_ 64 w1.toNat + at_ 128 v.toNat)
    bn new 63 32 = bn w0 63 32 ∧ bn new 95 88 = bn w1 31 24 ∧ bn new 127 113 = bn w1 63 49 ∧ bn new 143 128 = bn v 15 0 ∧ bn new 159 144 = bn v 31 16 ∧
    bn new 175 160 = bn v 47 32 ∧ bn new 183 176 = bn v 55 48 := by
  have h0 := w0.isLt
  have h1 := w1.isLt
  simp only [bn, toNat_words, Nat.shiftRight_eq_div_pow]
  refine ⟨?_, ?_, ?_, ?_, ?_, ?_, ?_⟩ <;> omega

/-- A minimum that is not changed stays 4096 (R291), the least that it may be. -/
theorem pMin_of_small {new old : BitVec 192} (hold : bn old 63 32 = 4096) (hnew : bn new 63 32 < 4096) :
    pMin (BitVec.ofNat 192 ((profFields.map (profField new old)).sum)) = 4096 := by
  have hmin : profField new old (63, 32, 4096) = at_ 32 4096 := by simp only [profField, Nat.not_le.2 hnew, if_false, hold]
  have hlow : profField new old (31, 0, 0) = at_ 0 (bn new 31 0) := profField_new (Nat.zero_le _)
  have hlt : bn new 31 0 < 2 ^ 32 := bn_lt new 31 0
  have hhigh : ∀ hi lo least, profField new old (hi, 64 + lo, least) % 2 ^ 64 = 0 := fun hi lo least => by
    simp only [profField, at_, Nat.pow_add]
    rw [Nat.mul_left_comm, Nat.mul_mod_right]
  rw [sum_map_profFields, hmin, hlow]
  have h64 := hhigh 79 0 0
  have h80 := hhigh 87 16 0
  have h88 := hhigh 95 24 1
  have h96 := hhigh 111 32 0
  have h112 := hhigh 112 48 0
  have h128 := hhigh 143 64 1
  have h144 := hhigh 159 80 1
  have h160 := hhigh 175 96 1
  have h176 := hhigh 183 112 1
  have h184 := hhigh 191 120 0
  simp only [Nat.reduceAdd] at h64 h80 h88 h96 h112 h128 h144 h160 h176 h184
  have hrest : (profField new old (79, 64, 0) + (profField new old (87, 80, 0) + (profField new old (95, 88, 1) + (profField new old (111, 96, 0) +
      (profField new old (112, 112, 0) + (profField new old (143, 128, 1) + (profField new old (159, 144, 1) + (profField new old (175, 160, 1) +
      (profField new old (183, 176, 1) + profField new old (191, 184, 0)))))))))) % 2 ^ 64 = 0 := by omega
  generalize (profField new old (79, 64, 0) + _) = rest at hrest ⊢
  generalize bn new 31 0 = x at hlt ⊢
  rw [pMin, bn, BitVec.toNat_ofNat, Nat.shiftRight_eq_div_pow, at_, at_]
  omega

/-- The extension of a CONNECT packet says what it is, its connection and its initial PSN (R255, R265). -/
theorem connect_fields {i gen mtu ipsn : Nat} (hmtu : mtu < 4) (hgen : gen < 4096) (hi : i < 2 ^ 24) (hipsn : ipsn < 2 ^ 32) :
    let x := at_ 120 1 + at_ 88 i + at_ 76 gen + at_ 74 mtu + at_ 32 ipsn
    x / 2 ^ 120 = 1 ∧ x / 2 ^ 88 % 2 ^ 24 = i ∧ x / 2 ^ 32 % 2 ^ 32 = ipsn := by
  simp only [at_]
  refine ⟨?_, ?_, ?_⟩ <;> omega

/-- Settles O40, timer by timer. -/
theorem connectionTimersAndSettings : Obligations.ConnectionTimersAndSettings := by
  unfold Obligations.ConnectionTimersAndSettings
  refine ⟨?_, ?_, ?_, ?_, ?_⟩
  · intro s i c hc
    have hconnect : exec (.connectTimer i) s = execConnectTimer i s := rfl
    have hack : exec (.ackTimer i) s = execAckTimer i s := rfl
    have hbackoff : exec (.contextMissBackoffEnd i) s = execContextMissBackoffEnd i s := rfl
    have hcwnd : ∀ cwnd rate, exec (.firmwareCwndUpdate i cwnd rate) s = execFirmwareCwndUpdate i cwnd rate s := fun _ _ => rfl
    simp only [hconnect, hack, hbackoff, hcwnd, execConnectTimer, execAckTimer, execContextMissBackoffEnd, execFirmwareCwndUpdate, hc]
    refine ⟨fun hstate hruns => ?_, fun hstate => ?_, fun hdue hup => ?_, fun hnot => ?_, trivial, fun cwnd rate hfw hruns => ?_, fun cwnd rate hfw => ?_⟩
    · rw [if_pos ⟨hstate, hruns⟩]
    · rw [if_neg fun h => hstate h.1]
    · rw [if_pos ⟨hdue, hup⟩]
    · have hstays : ¬ (0 < c.toAck ∧ sliceUp s i = true) := by
        rintro ⟨hdue, hup⟩
        rcases hnot with h | h
        · omega
        · simp [h] at hup
      rw [if_neg hstays]
    · rw [if_neg (by simp [hfw, hruns])]
      exact ⟨_, rfl, mget_mset_same .., rfl, fun k hk => mget_mset_ne _ _ hk⟩
    · rw [if_pos (Or.inl hfw)]
  · intro s p rest c hparked hc
    have harm : exec .parkTimeout s = execParkTimeout s := rfl
    have hconn : State.conn { s with carm := { s.carm with parked := rest } } p.conn = some c := hc
    simp only [harm, execParkTimeout, hparked, hconn]
  · intro s i c hc hnode hup
    simp only [sendCtrl, hc, hnode, hup, Bool.not_true, Bool.or_self, Bool.false_eq_true, if_false]
    exact ⟨_, rfl, fun hmtu hgen hi hipsn => connect_fields hmtu hgen hi hipsn⟩
  · refine fwRow_of_body (fun _ _ _ => rfl) ?_
    rintro s c b ⟨hfn, hbody, haligned, hsize, hhost⟩
    simp [hfn, hbody, haligned, Nat.not_lt.2 hsize, hhost, accept, success]
  · intro s n v w0 w1 hn hprof
    have harm : exec (.ccProfCommit n v) s = execCcProfCommit n v s := rfl
    obtain ⟨hmin, hdup, hreserved, hrto, hbackoff, hnoprog, hretry⟩ := bn_words w0 w1 v
    have hget : mgetD s.carm.prof n {} = { w0 := some w0, w1 := some w1 } := by simp [mgetD, hprof]
    simp only [harm, execCcProfCommit, Nat.not_le.2 hn, if_false, hget, Option.map_some, Option.getD_some]
    refine ⟨fun h1 h2 h3 h4 h5 h6 h7 => ⟨_, rfl, ?_, fun k hk => mget_mset_ne _ _ hk⟩, fun hsmall => ⟨_, _, rfl, mget_mset_same .., ?_⟩⟩
    · rw [sum_profFields (by omega) (by omega) (by omega) (by omega) (by omega) (by omega) (by omega), toNat_words]
      exact mget_mset_same ..
    · exact pMin_of_small (by decide) (by omega)

end Sys2Proof.Machine
end

section
/-! PROOFS. Packets that arrive for a connection (R254, R255, R271, R273 to R278, R281, R285). -/

namespace Sys2Proof.Machine

open Sys2Proof

theorem setConn_setConn (s : State) (i : Nat) (a b : Conn) : (s.setConn i a).setConn i b = s.setConn i b := by
  simp only [State.setConn, mset_mset]

/-- Steps 4 to 8 of R273 on a packet that is taken: its TYPE decides what it does. -/
theorem onPacket_taken {s s1 : State} {ty kind i : Nat} {par : Option ParityMsg} {p : RxPkt} {c c1 : Conn} (h : PacketTaken s ty kind i par p c s1 c1) :
    onPacket carmHooks s ty kind par = (if ty = 1 then ackIn s1 i c1 p else if ty = 2 then nackIn s1 i c1 p else if ty = 7 then ctrlIn s1 i c1 (readHdr p.bytes) p
      else sequenced carmHooks s1 i c1 (readHdr p.bytes) p) := by
  obtain ⟨s0, p0, htake, hp, hnode, hruns, hc, hty, hi, hup, htier, hlive, hgen, hcookie, hpeer, hip, hstate, hc1, hs1⟩ := h
  have hwaits : ¬ (ty = 7 ∧ kind ≤ 3 ∧ pcoreRuns s 3 = false) := by
    rintro ⟨h7, hk, hstops⟩
    simp [hruns h7 hk] at hstops
  have hknown : (!(s0.slot 3 i).live || (s0.slot 3 i).gen != (readHdr p.bytes).dgen) = false := by simp [hlive, hgen]
  have hcookies : ¬ (c.cookie.toNat ≠ (readHdr p.bytes).cookie ∨ c.peerNode ≠ (readHdr p.bytes).snode ∨ c.peerIp ≠ p.srcIp) := by
    rintro (hne | hne | hne)
    · exact hne hcookie
    · exact hne hpeer
    · exact hne hip
  have hopen : ¬ (c.state ≠ .established ∧ ty ≠ 7) := fun hne => hstate.elim hne.1 hne.2
  have htouch : touchConn (s0.setConn i c1) i = s1 := by
    rw [hs1, hc1]
    simp only [touchConn, conn_setConn_same, setConn_setConn]
    rfl
  have hreceive : onPacket carmHooks s ty kind par = receive carmHooks s0 p := by
    rw [hp]
    simp only [onPacket, hwaits, htake, if_false]
  have hhandle : receive carmHooks s0 p = handlePacket carmHooks s0 p := by
    simp only [receive, hnode, hi, hc, hup, htier, if_true, Bool.not_true, Bool.false_eq_true, if_false]
  rw [hreceive, hhandle]
  simp only [handlePacket, hi, hc, hknown, hcookies, hty, hopen, if_false, Bool.false_eq_true, ← hc1, htouch]

theorem conn_of_taken {s s1 : State} {ty kind i : Nat} {par : Option ParityMsg} {p : RxPkt} {c c1 : Conn} (h : PacketTaken s ty kind i par p c s1 c1) : s1.conn i = some c1 := by
  obtain ⟨s0, p0, -, -, -, -, -, -, -, -, -, -, -, -, -, -, -, -, rfl⟩ := h
  exact mget_mset_same ..

/-- What a connection keeps when a packet has come for it. -/
theorem conn_kept_of_taken {s s1 : State} {ty kind i : Nat} {par : Option ParityMsg} {p : RxPkt} {c c1 : Conn} (h : PacketTaken s ty kind i par p c s1 c1) :
    c1.state = c.state ∧ c1.peerConn = c.peerConn ∧ c1.peerGen = c.peerGen ∧ c1.tc = c.tc ∧ c1.mtu = c.mtu ∧ c1.epsn = c.epsn ∧ c1.winPkt = c.winPkt ∧ c1.staged = c.staged ∧
    c1.misses = c.misses ∧ c1.prof = c.prof := by
  obtain ⟨s0, p0, -, -, -, -, -, -, -, -, -, -, -, -, -, -, -, rfl, -⟩ := h
  exact ⟨rfl, rfl, rfl, rfl, rfl, rfl, rfl, rfl, rfl, rfl⟩

/-- A control packet that is taken. -/
theorem packetIn_ctrl {s s1 : State} {kind i : Nat} {p : RxPkt} {c c1 : Conn} (h : PacketTaken s 7 kind i none p c s1 c1) :
    packetIn s 7 kind none = settle (ctrlIn s1 i c1 (readHdr p.bytes) p) := by
  rw [packetIn, onPacket_taken h, if_neg (by decide), if_neg (by decide), if_pos rfl]

/-- CONNECT and CONNECT_ACK that fit their connection (R255). -/
theorem ctrlIn_connect {s : State} {i kind : Nat} {c : Conn} {h : Hdr} {p : RxPkt} (hkind : bn (extOf p.bytes) 127 120 = kind) (hle : kind ≤ 2)
    (hconn : bn (extOf p.bytes) 111 88 = c.peerConn) (hgen : bn (extOf p.bytes) 87 76 = c.peerGen) (htc : h.tc = c.tc) (hmtu : bn (extOf p.bytes) 75 74 = c.mtu) :
    (c.state = .connecting → ctrlIn s i c h p = establish (if kind = 1 then sendCtrl s i 2 else s) i c (bn (extOf p.bytes) 63 32)) ∧
    (c.state = .established → ctrlIn s i c h p = if kind = 1 then sendCtrl s i 2 else s) ∧ (c.state = .error → ctrlIn s i c h p = s.count CARM_STALE) := by
  have hfits : (bn (extOf p.bytes) 111 88 == c.peerConn && bn (extOf p.bytes) 87 76 == c.peerGen && h.tc == c.tc && bn (extOf p.bytes) 75 74 == c.mtu) = true := by
    simp [hconn, hgen, htc, hmtu]
  simp only [ctrlIn, hkind, hle, hfits, if_true]
  refine ⟨fun hstate => ?_, fun hstate => ?_, fun hstate => ?_⟩ <;> simp [hstate]

theorem conn_establish {s : State} {i n : Nat} {c : Conn} (hwaiting : c.waiting = []) :
    (establish s i c n).conn i = some { c with state := .established, epsn := n, progAt := s.now, activeAt := s.now, probes := 0 } := by
  have hstays : ∀ (k : Nat) (t : State) (c : Conn), t.conn i = some c → c.waiting = [] → startWaiting i k t = t := by
    intro k t c hc hempty
    cases k with
    | zero => rfl
    | succ k =>
      simp only [startWaiting, hc, hempty, ite_self]
  have hconn := conn_setConn_same s i { c with state := .established, epsn := n, progAt := s.now, activeAt := s.now, probes := 0 }
  rw [establish]
  exact (congrArg (State.conn · i) (hstays (c.waiting.length + 1) _ _ hconn hwaiting)).trans hconn

/-- An ACK for a packet that is not placed (R263, R278). -/
theorem ackFor_of_conn {s : State} {i : Nat} {h : Hdr} {c : Conn} (hc : s.conn i = some c) : ackFor s i h = sendAck (s.setConn i { c with lastTs := h.tstamp }) i := by
  simp only [ackFor, hc]

theorem ackFor_setConn {s : State} {i : Nat} {h : Hdr} {c : Conn} : ackFor (s.setConn i c) i h = sendAck (s.setConn i { c with lastTs := h.tstamp }) i := by
  rw [ackFor_of_conn (conn_setConn_same ..), setConn_setConn]

/-- The row of a sequenced TYPE follows from what `sequenced` does. -/
theorem sequencedRow_of_exec {ty : Nat} {row : Instr} {par : Option ParityMsg} (hty : ty ≠ 1 ∧ ty ≠ 2 ∧ ty ≠ 7) (hrow : ∀ s, exec row s = .next (packetIn s ty 0 par)) :
    SequencedRow ty row par := by
  intro s s1 i d p c c1 htaken hd
  obtain ⟨hty1, hty2, hty7⟩ := hty
  obtain ⟨-, -, -, -, -, hepsn, hwin, hstaged, -, -⟩ := conn_kept_of_taken htaken
  have hc1 := conn_of_taken htaken
  have hexec : exec row s = .next (settle (sequenced carmHooks s1 i c1 (readHdr p.bytes) p)) := by
    rw [hrow, packetIn, onPacket_taken htaken, if_neg hty1, if_neg hty2, if_neg hty7]
  rw [← hepsn] at hd
  simp only [hexec, sequenced, ← hepsn, ← hwin, ← hstaged, ← hd]
  refine ⟨fun h0 hnone => ?_, fun h0 h256 hfree hroom => ?_, fun h0 h256 hfree hroom => ?_, fun h256 hlt => ?_, fun hge => ?_⟩
  · simp only [h0, hnone, Option.isSome_none, Bool.false_eq_true, if_true, if_false]
  · rw [if_neg (by omega), if_pos h256, hfree, if_neg (by simp), if_pos hroom, ackFor_setConn]
  · rw [if_neg (by omega), if_pos h256, hfree, if_neg (by simp), if_neg (by simp [hroom])]
  · rw [if_neg (by omega), if_neg (by omega), if_pos hlt]
  · rw [if_neg (by omega), if_neg (by omega), if_neg (by omega), ackFor_of_conn hc1]

/-- Settles O41, by the TYPE of the packet. -/
theorem packetsThatArrive : Obligations.PacketsThatArrive := by
  unfold Obligations.PacketsThatArrive
  refine ⟨?_, ?_, fun s i n c => conn_establish, ?_, ?_, ?_, fun par => sequencedRow_of_exec (by decide) fun _ => rfl, sequencedRow_of_exec (by decide) fun _ => rfl,
    sequencedRow_of_exec (by decide) fun _ => rfl, sequencedRow_of_exec (by decide) fun _ => rfl, sequencedRow_of_exec (by decide) fun _ => rfl, ?_, ?_, ?_, ?_⟩
  · intro s s1 i p c c1 htaken hkind hconn hgen htc hmtu
    obtain ⟨hstate, hpeer, hpgen, htc1, hmtu1, -⟩ := conn_kept_of_taken htaken
    have harm : exec .connect s = .next (packetIn s 7 1 none) := rfl
    obtain ⟨hconnecting, hestablished, herror⟩ := ctrlIn_connect (s := s1) (i := i) hkind (by decide) (hconn.trans hpeer.symm) (hgen.trans hpgen.symm) (htc.trans htc1.symm)
      (hmtu.trans hmtu1.symm)
    rw [hstate] at hconnecting hestablished herror
    simp only [harm, packetIn_ctrl htaken]
    exact ⟨fun h => by rw [hconnecting h, if_pos rfl], fun h => by rw [hestablished h, if_pos rfl], fun h => by rw [herror h]⟩
  · intro s s1 i p c c1 htaken hkind hconn hgen htc hmtu
    obtain ⟨hstate, hpeer, hpgen, htc1, hmtu1, -⟩ := conn_kept_of_taken htaken
    have harm : exec .connectAck s = .next (packetIn s 7 2 none) := rfl
    obtain ⟨hconnecting, hestablished, -⟩ := ctrlIn_connect (s := s1) (i := i) hkind (by decide) (hconn.trans hpeer.symm) (hgen.trans hpgen.symm) (htc.trans htc1.symm)
      (hmtu.trans hmtu1.symm)
    rw [hstate] at hconnecting hestablished
    simp only [harm, packetIn_ctrl htaken]
    exact ⟨fun h => by rw [hconnecting h, if_neg (by decide)], fun h => by rw [hestablished h, if_neg (by decide)]⟩
  · intro s s1 i p c c1 htaken hkind
    have harm : exec .close s = .next (packetIn s 7 3 none) := rfl
    simp only [harm, packetIn_ctrl htaken, ctrlIn, hkind]
    rw [if_neg (by decide), if_pos trivial]
  · intro s s1 i p c c1 htaken hkind hstate
    obtain ⟨hstate1, -⟩ := conn_kept_of_taken htaken
    have harm : exec .probe s = .next (packetIn s 7 4 none) := rfl
    simp only [harm, packetIn_ctrl htaken, ctrlIn, hkind]
    rw [if_neg (by decide), if_neg (by decide), if_pos trivial, if_pos (hstate1.trans hstate)]
  · intro s s1 i p c c1 htaken hkind
    have harm : exec .probeAck s = .next (packetIn s 7 5 none) := rfl
    simp only [harm, packetIn_ctrl htaken, ctrlIn, hkind]
    rw [if_neg (by decide), if_neg (by decide), if_neg (by decide)]
  · intro s s1 i p c c1 htaken
    have harm : exec .ackPacket s = .next (packetIn s 1 0 none) := rfl
    rw [harm, packetIn, onPacket_taken htaken, if_pos rfl]
  · intro s s1 i p c c1 htaken
    obtain ⟨-, -, -, -, -, -, -, -, hmisses, hprof⟩ := conn_kept_of_taken htaken
    have harm : exec .nackPacket s = .next (packetIn s 2 0 none) := rfl
    have hnack : packetIn s 2 0 none = settle (nackIn s1 i c1 p) := by
      rw [packetIn, onPacket_taken htaken, if_neg (by decide), if_pos rfl]
    simp only [harm, hnack, nackIn]
    refine ⟨fun h3 => by rw [if_pos h3], fun h1 => ⟨_, rfl, ?_⟩⟩
    rw [if_neg (by omega), if_pos h1]
    refine ⟨_, conn_setConn_same .., ?_, ?_⟩
    · simp only [hmisses]
    · simp only [hmisses, hprof, Nat.add_sub_cancel]
  · intro s s1 i p c hc hty hplace k hk
    simp only [placePacket, hc, hty, OfNat.ofNat_ne_zero, and_false, hplace, if_false, if_true, hk, Bool.false_eq_true]
  · intro s s1 i a c h p old hop haddr hcheck hwindow hwaits hatomic
    simp only [placeAtomicReq, haddr, hcheck, hwindow, hwaits, hop, hatomic, ne_eq, not_true_eq_false, if_false, if_true, Bool.false_eq_true]

end Sys2Proof.Machine
end

section
/-! PROOFS. Connections in time (R254, R255, R279 to R281, R284, R286). -/

namespace Sys2Proof.Machine

open Sys2Proof

/-! Parked packets stay where they are while a context moves and work starts. -/

theorem parked_leaveDie (s : State) (n : Nat) : (leaveDie s n).carm.parked = s.carm.parked := by
  unfold leaveDie
  dsimp only
  split
  · rfl
  · split <;> rfl

theorem parked_bringOnDie (s : State) (i : Nat) : (bringOnDie s i).carm.parked = s.carm.parked := by
  unfold bringOnDie
  dsimp only
  split
  · exact parked_leaveDie ..
  · exact parked_leaveDie ..

theorem parked_addMsg (s : State) (i : Nat) (m : TxMsg) : (addMsg s i m).carm.parked = s.carm.parked := by
  unfold addMsg
  split <;> rfl

theorem parked_startWaiting (i n : Nat) (s : State) : (startWaiting i n s).carm.parked = s.carm.parked := by
  induction n generalizing s with
  | zero => rfl
  | succ n ih =>
    unfold startWaiting
    split
    · rfl
    split
    · rfl
    split
    · rfl
    · split
      · rfl
      · exact (ih _).trans (parked_addMsg ..)
    · split
      · exact ih _
      · dsimp only
        split
        · rfl
        · exact (ih _).trans (parked_addMsg ..)

/-- A context in near memory arrives, with no packet parked (R284). -/
theorem contextArrives_of_near {s : State} {i : Nat} {c : Conn} (hc : s.conn i = some c) (htier : c.tier = .near) (hfetching : c.fetching = true) (hup : sliceUp s i = true)
    (hparked : s.carm.parked = []) : contextArrives carmHooks s i = startWaiting i (c.waiting.length + 1) (bringOnDie (dropXfer s (.ctx i)) i) := by
  have hempty : (startWaiting i (c.waiting.length + 1) (bringOnDie (dropXfer s (.ctx i)) i)).carm.parked = [] :=
    (parked_startWaiting ..).trans ((parked_bringOnDie ..).trans hparked)
  simp only [contextArrives, hc, htier, hfetching, hup, unspill, reduceCtorEq, ne_eq, not_false_eq_true, if_true, Bool.true_eq_false, or_self, false_and, if_false, decide_false,
    Bool.false_and, Bool.false_eq_true, hempty, List.filter_nil, List.foldl_nil]
  generalize startWaiting i (c.waiting.length + 1) (bringOnDie (dropXfer s (.ctx i)) i) = t at hempty ⊢
  rw [← hempty]

theorem conn_losePsn {s : State} {i psn : Nat} {c : Conn} {t : TxPsn} (hc : s.conn i = some c) (ht : mget c.unacked psn = some t) (hlost : t.lost = false)
    (hown : pFw c.prof = false) : (losePsn s i psn).conn i = some { holdPath s c t.path with unacked := mset c.unacked psn { t with lost := true } } := by
  simp only [losePsn, hc, ht, hlost, hown, Bool.false_eq_true, if_false]
  exact conn_setConn_same ..

/-- What time does to a connection, timer by timer. -/
theorem conn_timers {s : State} {i : Nat} {c : Conn} (hc : s.conn i = some c) :
    (c.state = .connecting → hasNode s = true → connectingTimeout i s = connError s i .remoteTimeout) ∧
    (c.state = .established → pKeepalive c.prof ≠ 0 → sliceUp s i = true → 3 ≤ c.probes → keepaliveTimer i s = connError s i .peerLost) ∧
    (c.state = .established → pKeepalive c.prof ≠ 0 → sliceUp s i = true → c.probes < 3 →
      keepaliveTimer i s = sendCtrl (s.setConn i { c with probes := c.probes + 1 }) i 4) ∧
    (∀ psn t, mget c.unacked psn = some t → c.state = .established → t.lost = false → rtoExpiry i psn s =
      losePsn (if pFw c.prof then s else s.setConn i { c with cwnd := pMin c.prof }) i psn) ∧
    (c.state = .established → noprogExpiry i s = if c.unacked.isEmpty = false then connError s i .remoteTimeout else s) := by
  simp only [connectingTimeout, keepaliveTimer, rtoExpiry, noprogExpiry, hc]
  refine ⟨fun hstate hnode => ?_, fun hstate halive hup hprobes => ?_, fun hstate halive hup hprobes => ?_, fun psn t ht hstate hlost => ?_, fun hstate => ?_⟩
  · rw [if_pos ⟨hstate, hnode⟩]
  · rw [if_neg (by simp [hstate, halive, hup]), if_pos hprobes]
  · rw [if_neg (by simp [hstate, halive, hup]), if_neg (by omega)]
  · simp only [ht]
    rw [if_neg (by simp [hstate, hlost])]
  · simp only [hstate, true_and]

/-- What a connection notes of a packet of `n` bytes that leaves (R279, R280). -/
def txPsnOf (s : State) (k : Conn) (again : Bool) (psn n : Nat) : TxPsn :=
  { sentAt := s.now
    path := pickPath s k (if again then (mget k.unacked psn).map (·.path) else none)
    paylen := n
    retx := ((mget k.unacked psn).map (fun o => o.retx + b2n (again && !o.miss))).getD 0 }

/-- The packet of a write that leaves, with its header (R259 to R262, R270, R279). -/
theorem packetSend_of_write {s s1 : State} {i psn op : Nat} {again : Bool} {c k : Conn} {m : TxMsg} {bs : List Byte} (hc : s.conn i = some c) (hstate : c.state = .established)
    (htier : c.tier = .die) (hpause : c.pauseEnd = none) (hnode : hasNode s = true) (hup : sliceUp s i = true) (hports : (ethPorts s).isEmpty = false)
    (hnext : nextPsn c = some (psn, again)) (hmsg : c.msgAt psn = some m) (hkind : m.kind = .write op) (hnotice : m.notice = none) (hpieces : m.pieces = [])
    (hfailed : m.failed = none) (hsrc : m.srcFailed = false) (hstart : again = true ∨ mayStart c (msgSpan c m psn).2 = true)
    (hread : readSource s i c m psn = (s1, .data bs)) (hk : s1.conn i = some k) :
    ∃ path h t k1,
      (let s2 := sendPacket (s1.setConn i k1) i k path h (dataExt m.raddr.toNat m.rkey m.len m.ctr m.tgen m.ttag) bs
       let s3 := touchConn (if again then s2.count CARM_RETX else s2) i
       packetSend s i = if again = true ∧ pRetry k.prof ≤ t.retx then connError s3 i .remoteTimeout else s3) ∧
      h.ty = 0 ∧ h.op = op ∧ h.psn = psn ∧ h.msn = m.msn ∧ h.som = (psn == m.psn) ∧ h.eom = decide (psn + 1 = m.psn + m.count) ∧ h.paylen = bs.length ∧ h.retx = again ∧
      k1.nextSend = (if again then k.nextSend else psn + 1) ∧ k1.unacked = mset k.unacked psn t ∧ t.paylen = bs.length ∧ t.sentAt = s1.now ∧ k1.msgs = k.msgs ∧
      (∀ old, again = true → mget k.unacked psn = some old → old.miss = false → t.retx = old.retx + 1) := by
  have hgo : ¬ (c.state ≠ .established ∨ c.pauseEnd.isSome = true ∨ hasNode s = false ∨ sliceUp s i = false ∨ (ethPorts s).isEmpty = true) := by
    simp [hstate, hpause, hnode, hup, hports]
  have hdie : ¬ (c.state = .established ∧ c.tier ≠ .die) := by simp [htier]
  have hmay : ¬ (!again && !mayStart c (msgSpan c m psn).2) = true := by
    rcases hstart with h | h <;> simp [h]
  have hext : msgExt m none = (0, op, dataExt m.raddr.toNat m.rkey m.len m.ctr m.tgen m.ttag) := by simp only [msgExt, hkind]
  have hpiece : m.pieces[psn - m.psn]? = none := by rw [hpieces]; rfl
  unfold packetSend
  simp only [hc, if_neg hgo, if_neg hdie, hnext, hmsg, hfailed, hsrc, hnotice, ite_self, hpiece, hkind, Option.isSome_none, Bool.or_self, Bool.false_eq_true, false_and, if_false, if_true,
    if_neg hmay, hread, hk, hext]
  simp only [Bool.and_eq_true, decide_eq_true_eq]
  refine ⟨_, _, txPsnOf s1 k again psn bs.length, _, rfl, rfl, rfl, rfl, rfl, rfl, ?_, rfl, rfl, rfl, rfl, rfl, rfl, rfl, fun old hagain hold hmiss => ?_⟩
  · simp only [Bool.not_false, Bool.and_true]
  · simp [txPsnOf, hold, hagain, hmiss, b2n]

/-- Settles O42, timer by timer. -/
theorem connectionsInTime : Obligations.ConnectionsInTime := by
  unfold Obligations.ConnectionsInTime
  refine ⟨?_, ?_, ?_⟩
  · intro s i c hc
    obtain ⟨hconnecting, hlost, hprobe, hrto, hnoprog⟩ := conn_timers hc
    have hexec1 : exec (.connectingTimeout i) s = .next (settle (connectingTimeout i s)) := rfl
    have hexec2 : exec (.keepaliveTimer i) s = .next (settle (keepaliveTimer i s)) := rfl
    have hexec3 : ∀ psn, exec (.rtoExpiry i psn) s = .next (settle (rtoExpiry i psn s)) := fun _ => rfl
    have hexec4 : exec (.noprogExpiry i) s = .next (settle (noprogExpiry i s)) := rfl
    have hexec5 : exec (.contextArrived i) s = .next (settle (contextArrives carmHooks s i)) := rfl
    simp only [hexec1, hexec2, hexec3, hexec4, hexec5]
    refine ⟨fun hstate hnode => by rw [hconnecting hstate hnode], fun hstate halive hup hprobes => by rw [hlost hstate halive hup hprobes],
      fun hstate halive hup hprobes => by rw [hprobe hstate halive hup hprobes], fun psn t ht hstate hsent hown => ?_, fun psn t ht hstate hsent hfw => ?_,
      fun hstate hsome => ?_, fun hstate hnone => ?_, fun psn t => conn_losePsn hc, fun htier hfetching hup hparked => by rw [contextArrives_of_near hc htier hfetching hup hparked],
      fun hstate st => ?_⟩
    · rw [hrto psn t ht hstate hsent, if_neg (by simp [hown])]
    · rw [hrto psn t ht hstate hsent, if_pos hfw]
    · rw [hnoprog hstate, if_pos (by simpa using hsome)]
    · rw [hnoprog hstate, if_neg (by simp [hnone])]
    · simp only [connError, hc, hstate, if_true]
  · intro s s1 k blk c htaken hfn hbody
    have harm : exec (.carmNodeLost k blk) s = .next (settle (carmNodeLost k blk s)) := rfl
    rw [harm, carmNodeLost, fwCommand_taken htaken]
    simp [hfn, hbody, accept, success]
  · intro s s1 i psn op again c k m bs hc hstate htier hpause hnode hup hports hnext hmsg hkind hnotice hpieces hfailed hsrc hstart hread hk
    have harm : exec (.packetSend i) s = .next (settle (packetSend (paritySettle s) i)) := rfl
    obtain ⟨path, h, t, k1, hsend, hfields⟩ := packetSend_of_write hc hstate htier hpause hnode hup hports hnext hmsg hkind hnotice hpieces hfailed hsrc hstart hread hk
    exact ⟨path, h, t, k1, by rw [harm, hsend], hfields⟩

end Sys2Proof.Machine
end

section
/-! PROOFS. Accelerator links (R295, R296, R299, R302, R314, R315, R541). -/

namespace Sys2Proof.Machine

open Sys2Proof

/-- A command on a port that exists. -/
theorem onPort_of_lt {p : Nat} (hp : p < 8) (f : ApPort → State → State) (s : State) : onPort p f s = .next (afterPort (f (s.port p) s)) := by
  simp only [onPort, hp, if_true]

theorem training_not_up {x : ApPort} (h : x.pstate = .training) : x.up = false := by simp [ApPort.up, h]

theorem up_not_training {x : ApPort} (h : x.up = true) : x.pstate ≠ .training := fun ht => by simp [training_not_up ht] at h

/-- A flit of the kind awaited that is taken (R297 to R299). -/
theorem onFlit_taken {s s1 : State} {p kind : Nat} {bs : List Byte} {f : FlitIn} (h : FlitTaken s p bs f s1) (hkind : f.kind = kind) (g : FlitIn → State → State) :
    onFlit p kind bs g s = .next (afterPort (g f s1)) := by
  obtain ⟨hp, hup, hfast, hread, rfl⟩ := h
  have hlistens : (s.port p).listens = true := by simp [ApPort.listens, hup, hfast]
  simp only [onFlit, onPort_of_lt hp, hlistens, hread, hkind, hup, Bool.not_true, Bool.false_eq_true, ne_eq, not_true_eq_false, Bool.true_eq_false, or_self, if_false]

/-! Work that fails, and the port that goes down (R315). -/

/-- Work that fails is noted at most. -/
theorem failWork_eq (s : State) (w : Work) : failWork s w = s ∨ ∃ k, failWork s w = { s with ap := { s.ap with failed := mset s.ap.failed k .portError } } := by
  unfold failWork
  dsimp only
  cases w.key with
  | none => exact .inl rfl
  | some k =>
    dsimp only
    split_ifs
    · exact .inr ⟨k, rfl⟩
    · exact .inl rfl

theorem ports_failWork (s : State) (w : Work) : (failWork s w).ap.ports = s.ap.ports := by
  rcases failWork_eq s w with h | ⟨k, h⟩ <;> rw [h]

theorem fab_failWork (s : State) (w : Work) : (failWork s w).fab = s.fab := by
  rcases failWork_eq s w with h | ⟨k, h⟩ <;> rw [h]

theorem ports_foldl_failWork (ws : List Work) (s : State) : (ws.foldl failWork s).ap.ports = s.ap.ports := by
  induction ws generalizing s with
  | nil => rfl
  | cons w ws ih => exact (ih _).trans (ports_failWork ..)

theorem fab_foldl_failWork (ws : List Work) (s : State) : (ws.foldl failWork s).fab = s.fab := by
  induction ws generalizing s with
  | nil => rfl
  | cons w ws ih => exact (ih _).trans (fab_failWork ..)

theorem fab_dropLink (s : State) (p : Nat) : (dropLink s p).fab = s.fab := fab_foldl_failWork ..

/-- What clearing the link leaves of a port. -/
theorem port_dropLink (s : State) (p : Nat) : ∃ inbox, (dropLink s p).port p =
    { pstate := (s.port p).pstate, enabled := (s.port p).enabled, present := (s.port p).present, cause := (s.port p).cause, owner := (s.port p).owner,
      partner := (s.port p).partner, everHalf := (s.port p).everHalf, lateTags := (s.port p).lateTags, posts := (s.port p).posts, nextTxn := (s.port p).nextTxn,
      expTimes := (s.port p).expTimes, inbox := inbox } := by
  rw [State.port, dropLink, ports_foldl_failWork]
  exact ⟨_, mgetD_mset_same ..⟩

/-- A port that goes down keeps its owner and its posts, and nothing of its traffic (R315). -/
theorem portDown_leaves (s : State) (p c : Nat) : ((portDown s p c).port p).cause = c ∧ ((portDown s p c).port p).reqs = [] ∧ ((portDown s p c).port p).tx = [] ∧
    ((portDown s p c).port p).replay = [] ∧ ((portDown s p c).port p).posts = (s.port p).posts ∧ ((portDown s p c).port p).owner = (s.port p).owner ∧
    ((portDown s p c).port p).up = false := by
  obtain ⟨inbox, hport⟩ := port_dropLink s p
  simp only [portDown, State.port_setPort, hport]
  refine ⟨trivial, trivial, trivial, trivial, trivial, trivial, ?_⟩
  split
  · rfl
  · split <;> rfl

/-- Training begins on an enabled port with a partner and lanes enough (R295, R541). -/
theorem trainPort_begins {s : State} {p : Nat} (hstate : (s.port p).pstate ≠ .retired) (hlanes : 32 ≤ (livingLanes s p).length) (henabled : (s.port p).enabled = true)
    (hpresent : (s.port p).present = true) : ((trainPort s p).port p).pstate = .training ∧ ((trainPort s p).port p).t0 = s.now ∧ ((trainPort s p).port p).mapped = false ∧
    ((trainPort s p).port p).txSeq = 0 := by
  obtain ⟨inbox, hport⟩ := port_dropLink s p
  have hgo : ¬ ((s.port p).pstate = .retired ∨ (livingLanes s p).length < 32) := by
    rintro (h | h)
    · exact hstate h
    · omega
  simp only [trainPort, hgo, henabled, hpresent, Bool.not_true, Bool.false_eq_true, if_false, State.port_setPort, hport]
  exact ⟨trivial, trivial, trivial, trivial⟩

/-! The timers and tests of a port. -/

theorem exec_laneTestDone {s : State} {p : Nat} (hp : p < 8) (good : BitVec 66) (hstate : (s.port p).pstate = .training) (hmapped : (s.port p).mapped = false) :
    exec (.laneTestDone p good) s = .next (afterPort (if (goodLanes (s.setPort p { s.port p with good := good }) p).length < 32 then
        portDown (s.setPort p { s.port p with good := good }) p 1
      else
        let s1 := failLanes (s.setPort p { s.port p with good := good }) p ((livingLanes s p).filter (fun l => !good.getLsbD l))
        noteSpares (s1.setPort p { s1.port p with lanes := dataLanes s1 p, mapped := true, control := [(5, laneMapBytes (dataLanes s1 p)), (4, capsBytes)] }) p)) := by
  have harm : exec (.laneTestDone p good) s = execLaneTestDone p good s := rfl
  rw [harm, execLaneTestDone, onPort_of_lt hp, if_neg (by simp [hstate, hmapped])]
  rfl

theorem exec_caps_training {s : State} {p : Nat} (hp : p < 8) {bs : List Byte} {f : FlitIn} (hstate : (s.port p).pstate = .training) (hmapped : (s.port p).mapped = true)
    (hread : readFlit bs = some f) (hkind : f.kind = 2) (hctl : ctlOk 4 20 f = true) :
    exec (.caps p bs) s = .next (afterPort (if (List.range 4).any (fun vc => decide (leAt f.payload (8 + 2 * vc) 2 < apLeast vc)) then portDown s p 3
      else s.setPort p { s.port p with
        pstate := if (s.port p).lanes.length < 64 then .half else .full, everHalf := (s.port p).everHalf || decide ((s.port p).lanes.length < 64), winsize := leAt f.payload 16 8
        partner := BitVec.ofNat 32 (leAt f.payload 24 4), credit := (List.range 4).map (fun vc => (vc, leAt f.payload (8 + 2 * vc) 2)) })) := by
  have harm : exec (.caps p bs) s = execCaps p bs s := rfl
  have hlistens : (s.port p).listens = true := by simp [ApPort.listens, hstate, hmapped]
  rw [harm, execCaps, if_neg (by simp [training_not_up hstate]), onPort_of_lt hp]
  simp only [hlistens, hread, hkind, hctl, Bool.not_true, Bool.false_eq_true, ne_eq, not_true_eq_false, Bool.true_eq_false, or_self, if_false, decide_eq_true_eq]

theorem exec_fastRetrainDone {s : State} {p : Nat} (hp : p < 8) (good : BitVec 66) (hup : (s.port p).up = true) (hfast : (s.port p).fast = true)
    (hlanes : 32 ≤ (goodLanes (s.setPort p { s.port p with good := good }) p).length) (s1 : State)
    (hs1 : s1 = failLanes (s.setPort p { s.port p with good := good }) p ((livingLanes s p).filter (fun l => !good.getLsbD l))) :
    ∃ t, exec (.fastRetrainDone p good) s = .next (afterPort (noteSpares t p)) ∧ (t.port p).lanes = dataLanes s1 p ∧ (t.port p).fast = false ∧
      (t.port p).pstate = (if (dataLanes s1 p).length = 64 then .full else .half) ∧ (t.port p).resend = (s1.port p).replay := by
  have harm : exec (.fastRetrainDone p good) s = execFastRetrainDone p good s := rfl
  rw [harm, execFastRetrainDone, onPort_of_lt hp, if_neg (by simp [hup, hfast])]
  have hliving : livingLanes (s.setPort p { s.port p with good := good }) p = livingLanes s p := rfl
  dsimp only at hs1 hliving ⊢
  rw [if_neg (Nat.not_lt.2 hlanes), hliving, ← hs1]
  refine ⟨_, rfl, ?_⟩
  simp only [State.port_setPort, and_self]

theorem exec_laneFecWindow {s : State} {p lane n : Nat} (hp : p < 8) (hup : (s.port p).up = true) :
    (n ≤ 212 → exec (.laneFecWindow p lane n) s = .next (afterPort (s.count (APRT_FEC_CE p) n))) ∧
    (∀ i k ks, 212 < n → (s.port p).lanes.findIdx? (· == lane) = some i → standbyLanes s p = k :: ks → (s.port p).swap = none → (s.port p).fast = false →
      ∃ t, exec (.laneFecWindow p lane n) s = .next (afterPort t) ∧ (t.port p).swap = some (i, k) ∧ (2, swapBytes i k) ∈ (t.port p).control) := by
  have harm : exec (.laneFecWindow p lane n) s = execLaneFecWindow p lane n s := rfl
  simp only [harm, execLaneFecWindow, onPort_of_lt hp, hup, Bool.not_true, Bool.false_eq_true, if_false]
  refine ⟨fun hn => by rw [if_pos (by omega)], fun i k ks hn hlane hstandby hswap hfast => ?_⟩
  simp only [hlane, hstandby, hswap, hfast, Option.isSome_none, Bool.false_eq_true, or_self, if_false]
  rw [if_neg (by omega)]
  refine ⟨_, rfl, ?_⟩
  rw [State.port_setPort]
  exact ⟨rfl, List.mem_append_right _ (List.mem_singleton_self _)⟩

/-- What is due goes again (R299). -/
theorem exec_nakRepeatTimer {s : State} {p : Nat} (hp : p < 8) (hup : (s.port p).up = true) (hfast : (s.port p).fast = false) (hswap : (s.port p).swap = none) :
    ((s.port p).nakSent = 0 → exec (.nakRepeatTimer p) s = .next (afterPort (s.setPort p (s.port p)))) ∧
    (0 < (s.port p).nakSent → (s.port p).nakSent < 7 → (s.port p).control = [] →
      exec (.nakRepeatTimer p) s = .next (afterPort (s.setPort p { s.port p with control := [(1, leBytes 2 (s.port p).rxSeq)], nakSent := (s.port p).nakSent + 1 }))) := by
  have harm : exec (.nakRepeatTimer p) s = execNakRepeatTimer p s := rfl
  have htrains : ¬ ((s.port p).pstate = .training ∧ (s.port p).mapped = true) := fun h => up_not_training hup h.1
  simp only [harm, execNakRepeatTimer, onPort_of_lt hp, htrains, hup, hfast, hswap, Bool.not_true, Bool.or_self, Bool.false_eq_true, if_false]
  refine ⟨fun hnone => ?_, fun hsome hfew hempty => ?_⟩
  · simp only [hnone, if_true, List.append_nil, List.filter_nil]
    rw [if_neg (by omega)]
    generalize s.port p = x at hfast hswap hnone ⊢
    cases x
    simp only at hfast hswap hnone
    subst hfast hswap hnone
    rfl
  · have hsent : (s.port p).nakSent ≠ 0 := by omega
    simp only [hsent, hempty, if_false, List.nil_append]
    rw [if_neg (by omega)]
    rfl

/-! The commands (R314). -/

/-- A command on a port that firmware takes from physical function 0. -/
theorem apCommand_taken {s s1 : State} {op n : Nat} {rs : List (Nat × Nat)} {k : MboxId} {blk : CmdBlock} {c : Cmd} (h : Taken s k op true blk c s1) (hfn : fromPf0 c = true)
    (hbody : bodyReserved blk.bits rs n = true) (f : BitVec 32256 → Nat → State → State) :
    apCommand op rs n k blk f s = afterPort (answers true (f blk.bits (bn blk.bits 2 0) s1) c success) := by
  rw [apCommand, fwCommand_taken h]
  simp [hfn, hbody, accept, success]

/-- Settles O43, by the part of a port that changes. -/
theorem acceleratorLinks : Obligations.AcceleratorLinks := by
  unfold Obligations.AcceleratorLinks
  refine ⟨?_, ?_, ?_, ?_⟩
  · rintro s p _ hp rfl
    have hpresence : ∀ b, exec (.partnerPresence p b) s = execPartnerPresence p b s := fun _ => rfl
    have hretry : exec (.trainingRetryTimer p) s = execTrainingRetryTimer p s := rfl
    have htimeout : exec (.trainingTimeout p) s = execTrainingTimeout p s := rfl
    have hretest : ∀ good, exec (.standbyLaneRetest p good) s = execStandbyLaneRetest p good s := fun _ => rfl
    have hloss : ∀ lane ue, exec (.laneLoss p lane ue) s = execLaneLoss p lane ue s := fun _ _ => rfl
    simp only [hpresence, hretry, htimeout, hretest, hloss, execPartnerPresence, execTrainingRetryTimer, execTrainingTimeout, execStandbyLaneRetest, execLaneLoss, onPort_of_lt hp]
    refine ⟨fun b hb => by rw [if_pos hb], fun hdisabled hretired => by rw [if_neg (by simp [hdisabled, hretired])], fun hdown henabled => by rw [if_pos ⟨hdown, henabled⟩],
      fun htraining hmapped => by rw [if_pos htraining, if_neg (by simp [hmapped])], fun htraining hmapped => by rw [if_pos htraining, if_pos hmapped],
      fun good htraining hmapped hfew => ?_, fun good s1 htraining hmapped hmany hs1 => ?_, fun good hup => by rw [if_neg (by simp [hup])],
      fun lane ue hup hlane => by rw [if_neg (by simp [hup, hlane])], fun good s1 hup hfast hmany hs1 _ => exec_fastRetrainDone hp good hup hfast hmany s1 hs1,
      fun lane n hup hn => (exec_laneFecWindow hp hup).1 hn, fun lane n i k ks hup hn hlane hstandby hswap hfast => (exec_laneFecWindow hp hup).2 i k ks hn hlane hstandby hswap hfast,
      fun bs f htraining hmapped hread hkind hctl hleast => ?_, fun bs f vc htraining hmapped hread hkind hctl hvc hless => ?_,
      fun hup hfast hnone hswap => (exec_nakRepeatTimer hp hup hfast hswap).1 hnone, fun hup hfast hsome hfew hswap hempty => (exec_nakRepeatTimer hp hup hfast hswap).2 hsome hfew hempty⟩
    · rw [exec_laneTestDone hp good htraining hmapped, if_pos hfew]
    · rw [exec_laneTestDone hp good htraining hmapped, if_neg (Nat.not_lt.2 hmany), hs1]
    · have hall : (List.range 4).any (fun vc => decide (leAt f.payload (8 + 2 * vc) 2 < apLeast vc)) = false := by
        refine List.any_eq_false.2 fun vc hvc => ?_
        simpa using hleast vc (List.mem_range.1 hvc)
      rw [exec_caps_training hp htraining hmapped hread hkind hctl, if_neg (by simp only [hall]; decide)]
    · have hany : (List.range 4).any (fun vc => decide (leAt f.payload (8 + 2 * vc) 2 < apLeast vc)) = true :=
        List.any_eq_true.2 ⟨vc, List.mem_range.2 hvc, by simpa using hless⟩
      rw [exec_caps_training hp htraining hmapped hread hkind hctl, if_pos hany]
  · intro s s1 p bs f htaken hkind
    have hcaps : exec (.caps p bs) s = execCaps p bs s := rfl
    have hnak : exec (.nak p bs) s = execNak p bs s := rfl
    have hswap : exec (.laneSwap p bs) s = execLaneSwap p bs s := rfl
    have hswapAck : exec (.laneSwapAck p bs) s = execLaneSwapAck p bs s := rfl
    refine ⟨?_, ?_, ?_, ?_, ?_⟩
    · rw [hcaps, execCaps, if_pos htaken.2.1, onFlit_taken htaken hkind]
    · rintro _ rfl hctl hseq hnew
      rw [hnak, execNak, onFlit_taken htaken hkind, if_neg (by simp [hctl, hseq])]
      simp only [if_neg hnew]
      rfl
    · rintro _ rfl hctl hseq hseven
      rw [hnak, execNak, onFlit_taken htaken hkind, if_neg (by simp [hctl, hseq])]
      simp only [hseven, if_true]
      rfl
    · rintro _ i k rfl hctl hi hk hpair hlen hi64 hk66 hlane
      have hfits : (!ctlOk 2 2 f || leAt f.payload 8 2 != i + 256 * k || decide ((s1.port p).lanes.length ≤ i) || decide (66 ≤ k) ||
          ((s1.port p).lanes.contains k && (s1.port p).lanes.getD i k != k)) = false := by
        have hcarries : ((s1.port p).lanes.contains k && (s1.port p).lanes.getD i k != k) = false := by
          rcases hlane with h | h
          · rw [h, Bool.false_and]
          · rw [h, bne_self_eq_false, Bool.and_false]
        rw [hcarries]
        simp [hctl, hpair, hlen, hk66]
      rw [hswap, execLaneSwap, onFlit_taken htaken hkind]
      simp only [hi, hk, Nat.mod_eq_of_lt hi64, Nat.mod_eq_of_lt (show k < 128 by omega), hfits, Bool.false_eq_true, if_false]
    · rintro _ i k rfl hout hctl hpair
      rw [hswapAck, execLaneSwapAck, onFlit_taken htaken hkind]
      simp only [hout, hctl, hpair, beq_self_eq_true, Bool.and_self, if_true]
  · intro s p hp
    refine ⟨fun c => portDown_leaves s p c, fun hstate hlanes henabled hpresent => trainPort_begins hstate hlanes henabled hpresent, ?_⟩
    rw [fastRetrain, State.port_setPort]
    exact ⟨rfl, rfl⟩
  · rintro s s1 k blk c _ hfn rfl
    have hassign : exec (.apAssign k blk) s = execApAssign k blk s := rfl
    have hretrain : exec (.apRetrain k blk) s = execApRetrain k blk s := rfl
    have henable : exec (.apEnable k blk) s = execApEnable k blk s := rfl
    refine ⟨fun htaken hbody => ?_, fun htaken hbody hdisabled hretired => ?_, fun htaken hbody hretired => ⟨fun hon hoff => ?_, fun hoff hon => ?_⟩⟩
    · rw [hassign, execApAssign, apCommand_taken htaken hfn hbody]
    · rw [hretrain, execApRetrain, apCommand_taken htaken hfn hbody, if_neg (by simp [hdisabled, hretired])]
    · rw [henable, execApEnable, apCommand_taken htaken hfn hbody, if_neg hretired, if_pos hon, if_neg (by simp [hoff])]
    · rw [henable, execApEnable, apCommand_taken htaken hfn hbody, if_neg hretired, if_neg (by simp [hoff]), if_pos hon]

end Sys2Proof.Machine
end

section
/-! PROOFS. Accelerator transactions (R297 to R310, R438). -/

namespace Sys2Proof.Machine

open Sys2Proof

/-- A bad flit is counted (R298). -/
theorem onFlit_bad {s : State} {p kind : Nat} {bs : List Byte} (hp : p < 8) (hup : (s.port p).up = true) (hfast : (s.port p).fast = false) (hread : readFlit bs = none)
    (g : FlitIn → State → State) : onFlit p kind bs g s = .next (afterPort (s.count (APRT_CRC_ERR p))) := by
  have hlistens : (s.port p).listens = true := by simp [ApPort.listens, hup, hfast]
  simp only [onFlit, onPort_of_lt hp, hlistens, hread, Bool.not_true, Bool.false_eq_true, if_false]

/-- The distance of a flit's SEQ from the one awaited decides what a transaction flit does (R299, R302). -/
theorem exec_transactionFlit {s s1 : State} {p : Nat} {bs : List Byte} {f : FlitIn} (h : FlitTaken s p bs f s1) (hkind : f.kind = 1) :
    ((f.seq + 4096 - (s1.port p).rxSeq) % 4096 = 0 → mgetD (s1.port p).rxHeld f.vc 0 < apCredits f.vc → exec (.transactionFlit p bs) s = .next (afterPort (takePayload
      (if f.vc = 3 then countExpress ((s1.count (APRT_RX_FLITS p)).setPort p { s1.port p with
          rxSeq := ((s1.port p).rxSeq + 1) % 4096, rxAny := true, nakSent := 0, rxHeld := mset (s1.port p).rxHeld f.vc (mgetD (s1.port p).rxHeld f.vc 0 + 1) }) p
        else (s1.count (APRT_RX_FLITS p)).setPort p { s1.port p with
          rxSeq := ((s1.port p).rxSeq + 1) % 4096, rxAny := true, nakSent := 0, rxHeld := mset (s1.port p).rxHeld f.vc (mgetD (s1.port p).rxHeld f.vc 0 + 1) }) p f))) ∧
    ((f.seq + 4096 - (s1.port p).rxSeq) % 4096 = 0 → apCredits f.vc ≤ mgetD (s1.port p).rxHeld f.vc 0 →
      exec (.transactionFlit p bs) s = .next (afterPort (fullRetrain ((s1.count (APRT_RX_FLITS p)).count (APRT_CREDIT_ERR p)) p 4))) ∧
    (0 < (f.seq + 4096 - (s1.port p).rxSeq) % 4096 → (f.seq + 4096 - (s1.port p).rxSeq) % 4096 < 2048 → (s1.port p).nakSent = 0 → exec (.transactionFlit p bs) s =
      .next (afterPort (s1.setPort p { s1.port p with nakSent := 1, control := (s1.port p).control ++ [(1, leBytes 2 (s1.port p).rxSeq)] }))) ∧
    (2048 ≤ (f.seq + 4096 - (s1.port p).rxSeq) % 4096 → exec (.transactionFlit p bs) s = .next (afterPort s1)) := by
  have harm : exec (.transactionFlit p bs) s = execTransactionFlit p bs s := rfl
  rw [harm, execTransactionFlit, onFlit_taken h hkind]
  dsimp only
  refine ⟨fun h0 hroom => ?_, fun h0 hfull => ?_, fun hpos hnear hnone => ?_, fun hfar => ?_⟩
  · rw [if_pos h0, if_neg (Nat.not_le.2 hroom)]
  · rw [if_pos h0, if_pos hfull]
  · rw [if_neg (by omega), if_neg (by simp [hnone, Nat.not_le.2 hnear])]
  · rw [if_neg (by omega), if_pos (Or.inl hfar)]

/-- What stands before the transaction that may take effect, behind `before` (R309). -/
theorem firstTxn_before {ty : Nat} {before l : List RxTxn} {t : RxTxn} (h : firstTxn ty before l = some t) :
    ∃ as bs, l = as ++ t :: bs ∧ t.ttype = ty ∧ ∀ e ∈ before ++ as, e.vc ≠ t.vc ∧ (t.vc < 2 → e.vc ≠ 2) := by
  induction l generalizing before with
  | nil => simp [firstTxn] at h
  | cons x xs ih =>
    simp only [firstTxn] at h
    split at h
    · next hfirst =>
      obtain rfl := Option.some.inj h
      refine ⟨[], xs, rfl, hfirst.1, fun e he => ?_⟩
      have hclear := List.any_eq_false.1 hfirst.2 e (by simpa using he)
      simpa [RxTxn.behindPosted] using hclear
    · obtain ⟨as, bs, rfl, hty, hclear⟩ := ih h
      exact ⟨x :: as, bs, rfl, hty, fun e he => hclear e (by simpa using he)⟩

/-- A transaction of the partner that is taken. -/
theorem onTxn_taken {s s1 : State} {p ty : Nat} {t : RxTxn} (h : TxnTaken s p ty t s1) (f : RxTxn → State → State) : onTxn p ty f s = .next (afterPort (f t s1)) := by
  obtain ⟨hp, hfirst, rfl⟩ := h
  simp only [onTxn, onPort_of_lt hp, hfirst]

/-- The check of R307 for an owner. -/
theorem partnerCheck_of_owner {s : State} {p f a len : Nat} (howner : (s.port p).owner = some f) (htier : inTierN a len = true) : partnerCheck s p a len =
    match lakeCheck s { fn := f } a len with
    | some st => ((denied s st).count (APRT_DENY p), some st)
    | none => (s, none) := by
  simp only [partnerCheck, howner, htier, Bool.not_true, Bool.false_eq_true, if_false] <;> rfl

theorem exec_mwr {s s1 : State} {p : Nat} {t : RxTxn} (h : TxnTaken s p 1 t s1) (hwaits : writeWaits s t.addr.toNat t.len = false) :
    exec (.mwr p) s = .next (afterPort (match partnerCheck s1 p t.addr.toNat t.len with
      | (s2, some _) => s2
      | (s2, none) => (lakeWrite s2 t.addr.toNat t.data).1)) := by
  have harm : exec (.mwr p) s = execMwr p s := rfl
  simp only [harm, execMwr, h.2.1, hwaits, Bool.false_eq_true, if_false, onTxn_taken h] <;> rfl

theorem exec_mrd {s s1 : State} {p : Nat} {t : RxTxn} (h : TxnTaken s p 2 t s1) (hwaits : accessWaits s t.addr.toNat t.len = false) :
    exec (.mrd p) s = .next (afterPort (match partnerCheck s1 p t.addr.toNat t.len with
      | (s2, some st) => answerErr s2 p t st
      | (s2, none) => if (lakeRead s2 t.addr.toNat t.len).2.2.isEmpty then answer (lakeRead s2 t.addr.toNat t.len).1 p t (lakeRead s2 t.addr.toNat t.len).2.1
        else answerErr (lakeRead s2 t.addr.toNat t.len).1 p t .poisonedData)) := by
  have harm : exec (.mrd p) s = execMrd p s := rfl
  simp only [harm, execMrd, h.2.1, hwaits, Bool.false_eq_true, if_false, onTxn_taken h] <;> rfl

/-- An answer that ends a request (R308). -/
theorem onAnswer_taken {s s2 : State} {p ty : Nat} {t : RxTxn} {q : ApReq} (h : AnswerTaken s p ty t q s2) (f : ApReq → RxTxn → State → State) :
    onAnswer p ty f s = .next (afterPort (f q t s2)) := by
  obtain ⟨s1, htaken, hfind, rfl⟩ := h
  rw [onAnswer, onTxn_taken htaken]
  simp only [hfind]

/-- An answer that comes too late is counted (R308). -/
theorem onAnswer_late {s s1 : State} {p ty until_ : Nat} {t : RxTxn} (h : TxnTaken s p ty t s1) (hnone : ∀ r ∈ (s1.port p).reqs, r.tag ≠ t.tag)
    (hlate : (t.tag, until_) ∈ (s1.port p).lateTags) (f : ApReq → RxTxn → State → State) : onAnswer p ty f s = .next (afterPort (s1.count (APRT_LATE_CPL p))) := by
  have hfind : (s1.port p).reqs.find? (fun r => r.tag == t.tag) = none := List.find?_eq_none.2 fun r hr => by simpa using hnone r hr
  have hany : (s1.port p).lateTags.any (fun l => l.1 == t.tag) = true := List.any_eq_true.2 ⟨_, hlate, by simp⟩
  rw [onAnswer, onTxn_taken h]
  simp only [hfind, hany, if_true]

/-- The next VC has a transaction and a credit, and the express one goes first (R303). -/
theorem nextVc_some {x : ApPort} {vc : Nat} (h : nextVc x = some vc) : mgetD x.tx vc [] ≠ [] ∧ mgetD x.credit vc 0 ≠ 0 ∧
    (∀ v, mgetD x.tx v [] ≠ [] → mgetD x.credit v 0 ≠ 0 → v = 3 → vc = 3) := by
  have hvc := List.find?_some h
  simp only [Bool.and_eq_true, decide_eq_true_eq, Bool.not_eq_true', List.isEmpty_eq_false_iff] at hvc
  refine ⟨hvc.1, hvc.2, ?_⟩
  rintro _ htx hcredit rfl
  have hthree : (!(mgetD x.tx 3 []).isEmpty && decide (mgetD x.credit 3 0 ≠ 0)) = true := by simp [htx, hcredit]
  rw [nextVc, List.cons_append, List.find?_cons_of_pos (by exact hthree)] at h
  exact (Option.some.inj h).symm

/-- The next flit that leaves a port that carries traffic (R303). -/
theorem exec_flitTransmit {s : State} {p : Nat} (hp : p < 8) (hup : (s.port p).up = true) (hfast : (s.port p).fast = false) :
    exec (.flitTransmit p) s = .next (afterPort (match (s.port p).control with
      | (code, bytes) :: cs => putFlit (s.setPort p { s.port p with control := cs }) p 2 0 15 0 (leBytes 8 code ++ bytes)
      | [] => match (s.port p).resend with
        | r :: rs => (putFlit (s.setPort p { s.port p with resend := rs }) p 1 r.vc r.first r.seq r.payload).count (APRT_REPLAY p)
        | [] => match (if (s.port p).replay.length < 1024 then nextVc (s.port p) else none) with
          | some vc => sendVc s p vc
          | none => putFlit s p 0 0 15 0 [])) := by
  have harm : exec (.flitTransmit p) s = execFlitTransmit p s := rfl
  have htraining : (decide ((s.port p).pstate = .training) && (s.port p).mapped) = false := by simp [up_not_training hup]
  simp only [harm, execFlitTransmit, onPort_of_lt hp, htraining, hup, hfast, Bool.not_false, Bool.and_true, Bool.false_or, Bool.not_true, Bool.false_eq_true, if_false] <;> rfl

/-- Settles O44, by the kind of flit and the type of transaction. -/
theorem acceleratorTransactions : Obligations.AcceleratorTransactions := by
  unfold Obligations.AcceleratorTransactions
  refine ⟨?_, ?_, fun ty l t h => by simpa using firstTxn_before h, ?_, ?_, ?_, ?_, ?_, ?_, ?_⟩
  · rintro s s1 p bs f _ htaken rfl
    refine ⟨fun hkind => ?_, fun hkind hseq hlt hvc hroom => ?_, fun hkind hseq hlt hvc hroom => ?_, fun hkind hseq hlt hfull => ?_, fun hkind hahead hnear hlt hnone => ?_,
      fun hkind hbehind hnear hlt => ?_⟩
    · have harm : exec (.idleFlit p bs) s = execIdleFlit p bs s := rfl
      rw [harm, execIdleFlit, onFlit_taken htaken hkind]
    · rw [(exec_transactionFlit htaken hkind).1 (by omega) hroom, if_neg hvc]
    · rw [(exec_transactionFlit htaken hkind).1 (by omega) hroom, if_pos hvc]
    · exact (exec_transactionFlit htaken hkind).2.1 (by omega) hfull
    · exact (exec_transactionFlit htaken hkind).2.2.1 (by omega) (by omega) hnone
    · exact (exec_transactionFlit htaken hkind).2.2.2 (by omega)
  · intro s p bs hp hup hfast hread
    have hidle : exec (.idleFlit p bs) s = execIdleFlit p bs s := rfl
    have htxn : exec (.transactionFlit p bs) s = execTransactionFlit p bs s := rfl
    rw [hidle, execIdleFlit, htxn, execTransactionFlit, onFlit_bad hp hup hfast hread, onFlit_bad hp hup hfast hread]
    exact ⟨rfl, rfl⟩
  · rintro s s1 p f _ t rfl howner
    refine ⟨fun htaken hwaits htier hcheck => ?_, fun s2 bs ps htaken hwaits htier hcheck hread => ?_, fun st htaken hwaits htier hcheck => ?_, fun htaken howns => ?_,
      fun htaken howns => ?_, fun htaken howns => ?_, fun htaken => ?_, fun ring htaken hring => ?_⟩
    · simp only [exec_mwr htaken hwaits, partnerCheck_of_owner howner htier, hcheck]
    · simp only [exec_mrd htaken hwaits, partnerCheck_of_owner howner htier, hcheck, hread]
      exact ⟨fun hps => by rw [if_pos (by simp [hps])], fun hps => by rw [if_neg (by simp [hps])]⟩
    · simp only [exec_mrd htaken hwaits, partnerCheck_of_owner howner htier, hcheck]
    · have harm : exec (.apCtrAdd p) s = execApCtrAdd p s := rfl
      simp only [harm, execApCtrAdd, onTxn_taken htaken, partnerCtr, howner, howns, if_true]
    · have harm : exec (.apCtrAdd p) s = execApCtrAdd p s := rfl
      simp only [harm, execApCtrAdd, onTxn_taken htaken, partnerCtr, howner, howns, Bool.false_eq_true, if_false]
    · have harm : exec (.ctrRd p) s = execCtrRd p s := rfl
      simp only [harm, execCtrRd, onTxn_taken htaken, partnerCtr, howner, howns, if_true]
    · have harm : exec (.apFence p) s = execApFence p s := rfl
      rw [harm, execApFence, onTxn_taken htaken]
    · have harm : exec (.apPost p) s = execApPost p s := rfl
      simp only [harm, execApPost, onTxn_taken htaken, howner, hring]
      exact ⟨fun hroom => by rw [if_neg (Nat.not_le.2 hroom)], fun hfull => by rw [if_pos hfull]⟩
  · intro s s1 p t hnone
    have hcheck : partnerCheck s1 p t.addr.toNat t.len = (s1.count (APRT_DENY p), some .accessDenied) := by simp only [partnerCheck, hnone]
    refine ⟨fun htaken hwaits => by simp only [exec_mwr htaken hwaits, hcheck], fun htaken hwaits => by simp only [exec_mrd htaken hwaits, hcheck], fun htaken => ?_, fun htaken => ?_⟩
    · have harm : exec (.ctrRd p) s = execCtrRd p s := rfl
      simp only [harm, execCtrRd, onTxn_taken htaken, partnerCtr, hnone, Bool.false_eq_true, if_false]
    · have harm : exec (.apPost p) s = execApPost p s := rfl
      simp only [harm, execApPost, onTxn_taken htaken, hnone]
  · intro s p w k hp hfirst hring hruns
    have harm : exec (.apPostStart p) s = execApPostStart p s := rfl
    have hring' : mget (s.setPort p { s.port p with posts := (s.port p).posts.erase w }).vat.work w.ring = some k := hring
    simp only [harm, execApPostStart, onPort_of_lt hp, hfirst, postDesc, hring', hruns, Bool.false_eq_true, if_false]
  · intro s s1 p key t q hkey hfence
    have hcpl : exec (.cpl p) s = execCpl p s := rfl
    have herr : exec (.cplErr p) s = execCplErr p s := rfl
    refine ⟨fun htaken hlen => ?_, fun htaken hlen => ?_, fun htaken hst => ?_, fun htaken hst => ?_⟩
    · rw [hcpl, execCpl, onAnswer_taken htaken, if_neg (by simp [hfence]), if_pos hlen]
      refine ⟨_, rfl, ?_⟩
      simp only [gotData, hkey]
      exact ⟨mget_mset_same .., rfl⟩
    · rw [hcpl, execCpl, onAnswer_taken htaken, if_neg (by simp [hfence]), if_neg hlen]
    · rw [herr, execCplErr, onAnswer_taken htaken, if_pos ⟨hst, hfence⟩]
    · rw [herr, execCplErr, onAnswer_taken htaken, if_neg fun h => hst h.1]
  · intro s s1 p until_ t htaken hnone hlate
    have harm : exec (.cpl p) s = execCpl p s := rfl
    rw [harm, execCpl, onAnswer_late htaken hnone hlate]
  · intro s p tag q hp hfind
    have harm : exec (.apCplTimeout p tag) s = execApCplTimeout p tag s := rfl
    simp only [harm, execApCplTimeout, onPort_of_lt hp, hfind]
    refine ⟨_, rfl, ?_⟩
    rw [State.port, State.count_ap, ← State.port, State.port_setPort]
    exact ⟨rfl, List.mem_append_right _ (List.mem_singleton_self _)⟩
  · rintro s p _ hp rfl hup hfast
    simp only [exec_flitTransmit hp hup hfast]
    refine ⟨fun code bs cs hcontrol => by simp only [hcontrol], fun r rs hcontrol hresend => by simp only [hcontrol, hresend],
      fun vc hcontrol hresend hroom hvc => by simp only [hcontrol, hresend, hroom, hvc, if_true], fun hcontrol hresend hidle => ?_, fun vc hvc => nextVc_some hvc⟩
    have hnone : (if (s.port p).replay.length < 1024 then nextVc (s.port p) else none) = none := by
      rcases hidle with h | h
      · rw [h, ite_self]
      · rw [if_neg (by omega)]
    simp only [hcontrol, hresend, hnone]

end Sys2Proof.Machine
end

section
/-! PROOFS. Ethernet ports and laser cartridges (R318 to R321, R323, R324, R326, R328 to R333). -/

namespace Sys2Proof.Machine

open Sys2Proof

/-- What every step of a fold leaves, the fold leaves. -/
theorem foldl_frame {α β γ : Type} (g : α → γ) {f : α → β → α} (h : ∀ a b, g (f a b) = g a) (xs : List β) (a : α) : g (xs.foldl f a) = g a := by
  induction xs generalizing a with
  | nil => rfl
  | cons x xs ih => exact (ih _).trans (h a x)

@[simp] theorem eth_setEth_same (s : State) (p : Nat) (x : EthPort) : (s.setEth p x).eth p = x := mgetD_mset_same ..

@[simp] theorem cart_setCart_same (s : State) (e : Nat) (k : Cart) : (s.setCart e k).cart e = k := mgetD_mset_same ..

theorem setCart_setCart (s : State) (e : Nat) (a b : Cart) : (s.setCart e a).setCart e b = s.setCart e b := by
  simp only [State.setCart, mset_mset]

/-! Ports. -/

/-- A port whose counter is rebased reads as before, moved by the step (R326). -/
theorem portNs_stepTs (s : State) (p : Nat) (d : Int) : portNs (stepTs s p d) p = portNs s p + d := by
  have hnow : (stepTs s p d).now = s.now := rfl
  have hreg : (stepTs s p d).reg (ETH_TS_RATE p) = s.reg (ETH_TS_RATE p) := rfl
  simp only [portNs, hnow, hreg]
  simp only [stepTs, eth_setEth_same, Nat.sub_self, Int.ofNat_zero, Int.zero_mul, Int.add_zero]
  exact Int.add_mul_ediv_right _ _ (by decide)

/-- The counter of a port whose rate is written goes on from where it stands (R326). -/
theorem portNs_setRate (s : State) (p v : Nat) : portNs ((stepTs s p 0).setReg (ETH_TS_RATE p) v) p = portNs s p := by
  have hnow : ((stepTs s p 0).setReg (ETH_TS_RATE p) v).now = s.now := rfl
  have heth : ((stepTs s p 0).setReg (ETH_TS_RATE p) v).eth p = (stepTs s p 0).eth p := rfl
  refine Eq.trans ?_ ((portNs_stepTs s p 0).trans (Int.add_zero _))
  simp only [portNs, hnow, heth, show (stepTs s p 0).now = s.now from rfl]
  simp only [stepTs, eth_setEth_same, Nat.sub_self, Int.ofNat_zero, Int.zero_mul]

theorem portSubNs_lt (s : State) (p : Nat) : portSubNs s p < 1000000000 := by
  unfold portSubNs
  omega

/-- The light of a port decides its state in its mode (R320, R321). -/
theorem eth_relight {s : State} {p : Nat} (hlive : (s.eth p).lstate ≠ 5) : (ethMode s p = 0 → ((relight s p).eth p).lstate = 0 ∧ ((relight s p).eth p).cause = 6) ∧
    (ethMode s p ≠ 0 → ((relight s p).eth p).lstate =
      if (halfLit s (p / 4) (2 * (p % 4))).isSome ∨ (halfLit s (p / 4) (2 * (p % 4) + 1)).isSome then 2 else 1) := by
  simp only [relight, hlive, if_false]
  refine ⟨fun hmode => ?_, fun hmode => ?_⟩
  · simp only [hmode, if_true, eth_setEth_same, and_self]
  · simp only [hmode, if_false]
    cases (halfLit s (p / 4) (2 * (p % 4))).isSome <;> cases (halfLit s (p / 4) (2 * (p % 4) + 1)).isSome <;> simp

/-! Cartridges. -/

/-- A half-port taken over by a spare (R318). -/
theorem takeHalf_leaves (s : State) (e h i old : Nat) : ((takeHalf s e h i old).cart e).assign = mset (s.cart e).assign h i ∧
    ((takeHalf s e h i old).unit (emitterUnit e i)).standsFor = some (emitterUnit e old) ∧ ((takeHalf s e h i old).unit (emitterUnit e i)).state = .inService := by
  have hcart : (takeHalf s e h i old).cart e = { s.cart e with assign := mset (s.cart e).assign h i } := mgetD_mset_same ..
  have hunit : (takeHalf s e h i old).unit (emitterUnit e i) = { s.unit (emitterUnit e i) with state := .inService, standsFor := some (emitterUnit e old) } := mgetD_mset_same ..
  rw [hcart, hunit]
  exact ⟨rfl, rfl, rfl⟩

/-! Answers and flushed frames leave the cartridges. -/

theorem hostWrite_net (s : State) (f a : Nat) (bs : List Byte) : (s.hostWrite f a bs).net = s.net := by
  unfold State.hostWrite
  split <;> rfl

theorem finishCmd_net (s : State) (id : Nat) (r : Reply) : (finishCmd s id r).net = s.net := by
  unfold finishCmd
  split
  · rfl
  · dsimp only
    split
    · rfl
    · exact (hostWrite_net ..).trans ((hostWrite_net ..).trans (hostWrite_net ..))

theorem discardFrame_net (s : State) (p : Nat) (f : EFrame) : (discardFrame s p f).net = s.net := by
  unfold discardFrame
  dsimp only
  split
  · rfl
  · exact finishCmd_net ..

theorem tickShapers_carts (s : State) (p : Nat) : (tickShapers s p).net.carts = s.net.carts := foldl_frame (f := fun s i => s.setShaper i (shaperNow s i)) (fun s : State => s.net.carts) (fun _ _ => rfl) _ _

theorem flushPort_carts (s : State) (p : Nat) : (flushPort s p).net.carts = s.net.carts :=
  (foldl_frame (fun s : State => s.net.carts) (fun s f => by rw [discardFrame_net]) _ _).trans (tickShapers_carts s p)

theorem enginePortsDown_carts (s : State) (e cause : Nat) : (enginePortsDown s e cause).net.carts = s.net.carts := by
  refine foldl_frame (fun s : State => s.net.carts) (fun s i => ?_) _ _
  dsimp only
  split
  · rfl
  · exact flushPort_carts ..

/-- The latch opens on a cartridge in service without a release (R333). -/
theorem exec_latchOpen_in_service {s : State} {e : Nat} {d : CartIn} (hstate : (s.cart e).cstate = 2) (hdata : (s.cart e).data = some d) (hcmd : (s.cart e).cmd = 0) :
    ∃ t, exec (.latchOpen e) s = .next t ∧ recSerial d ∈ t.net.removed ∧
      t.net.carts = mset s.net.carts e { s.cart e with latch := false, cstate := 0, move := none, releasing := false, cmd := 0 } := by
  have harm : exec (.latchOpen e) s = execLatchOpen e s := rfl
  simp only [harm, execLatchOpen, hstate, hdata, hcmd, OfNat.ofNat_ne_one, OfNat.ofNat_ne_zero, if_false, if_true, Option.map_some, Option.getD_some]
  have hcarts := enginePortsDown_carts (s.setCart e { s.cart e with latch := false, cstate := 0, data := some d, move := none, releasing := false, cmd := 0 }) e 3
  simp only [State.setCart] at hcarts ⊢
  generalize enginePortsDown _ e 3 = u at hcarts ⊢
  exact ⟨_, rfl, List.mem_append_right _ (List.mem_singleton_self _), hcarts⟩

/-- The bias of a lit emitter decides whether it is retired, or a move planned (R330). -/
theorem exec_emitterBiasCheck {s : State} {e i b h : Nat} (hlit : (List.range 8).find? (fun h => halfLit s e h == some i) = some h) :
    exec (.emitterBiasCheck e i b) s = .next (if 1434 ≤ b then retireEmitter (s.setCart e { s.cart e with bias := mset (s.cart e).bias i b }) e i
      else if b < 1280 ∨ (s.cart e).move.isSome = true ∨ (s.cart e).releasing = true then s.setCart e { s.cart e with bias := mset (s.cart e).bias i b }
      else match spareEmitters (s.cart e) with
        | j :: _ => s.setCart e { s.cart e with bias := mset (s.cart e).bias i b, move := some (h, j) }
        | [] => let (ev, s2) := (s.setCart e { s.cart e with bias := mset (s.cart e).bias i b }).choose 65536
          s2.event none ev (emitterUnit e i)) := by
  have harm : exec (.emitterBiasCheck e i b) s = execEmitterBiasCheck e i b s := rfl
  simp only [harm, execEmitterBiasCheck, hlit, cart_setCart_same, setCart_setCart]
  split
  · rfl
  · split
    · rfl
    · cases hspare : spareEmitters (s.cart e) <;> simp only

/-- A port comes up when its training completes (R320, R321, R323). -/
theorem exec_ethLinkUp {s : State} {p : Nat} (h : (s.eth p).lstate = 2 ∨ ((s.eth p).lstate = 1 ∧ portLit s p = true)) : ∃ t, exec (.ethLinkUp p) s = .next t ∧
    (t.eth p).lstate = (if ethMode s p = 1 ∧ (s.eth p).degraded = false then 3 else 4) ∧ (t.eth p).pstate = (if ethPreempt s p then 1 else 0) ∧ (t.eth p).up = true ∧
    ∀ q, q ≠ p → t.eth q = s.eth q := by
  have harm : exec (.ethLinkUp p) s = execEthLinkUp p s := rfl
  have hgo : ¬ ((s.eth p).lstate ≠ 2 ∧ ¬ ((s.eth p).lstate = 1 ∧ portLit s p = true)) := fun hn => h.elim hn.1 hn.2
  simp only [harm, execEthLinkUp, hgo, if_false]
  refine ⟨_, rfl, ?_⟩
  simp only [eth_setEth_same]
  refine ⟨trivial, trivial, ?_, fun q hq => mgetD_mset_ne _ _ _ hq⟩
  simp only [EthPort.up]
  split <;> rfl

/-- Settles O45, by the event at a port or a cartridge. -/
theorem ethernetPortsAndCartridges : Obligations.EthernetPortsAndCartridges := by
  unfold Obligations.EthernetPortsAndCartridges
  refine ⟨?_, ?_, ?_, ?_⟩
  · rintro s p _ rfl
    have hcfg : ∀ v : W32, exec (.ethPortCfgWrite p v) s = execEthPortCfgWrite p v s := fun _ => rfl
    have hdown : ∀ c, exec (.ethLinkDown p c) s = execEthLinkDown p c s := fun _ => rfl
    have hverify : ∀ ok, exec (.preemptVerify p ok) s = execPreemptVerify p ok s := fun _ => rfl
    have hrate : ∀ v : W32, exec (.tsRateWrite p v) s = execTsRateWrite p v s := fun _ => rfl
    simp only [hcfg, hdown, hverify, hrate, execEthPortCfgWrite, execEthLinkDown, execPreemptVerify, execTsRateWrite]
    refine ⟨fun v hp hmode => ?_, fun was => ⟨fun h => ?_, fun hup hwas => ?_⟩, fun v hp hmode => ?_, fun hlive => (eth_relight hlive).1, fun hlive => (eth_relight hlive).2,
      exec_ethLinkUp, fun c hup => ?_, fun hup hstate => ⟨?_, fun hfew => ?_, fun hmany => ?_⟩, rfl, fun v hhost => ?_, fun v hhost => ?_, portSubNs_lt s p,
      (portNs_stepTs s p 0).trans (Int.add_zero _), portNs_stepTs s p⟩
    · rw [if_neg (Nat.not_le.2 hp), if_pos hmode]
    · have hstays : (!(s.eth p).up || ethPreempt s p == was) = true := by
        rcases h with h | h <;> simp [h]
      simp only [startVerify, hstays, if_true]
    · simp [startVerify, hup, hwas]
    · rw [if_neg (Nat.not_le.2 hp), if_neg hmode]
    · have hgo : (!((s.eth p).up || (s.eth p).lstate == 2)) = false := by
        rcases hup with h | h <;> simp [h]
      simp only [hgo, Bool.false_eq_true, if_false]
      refine ⟨_, rfl, ?_⟩
      simp only [eth_setEth_same, and_self]
    · simp [hup, hstate]
    · simp [hup, hstate, Nat.not_le.2 hfew]
    · simp [hup, hstate, hmany]
    · rw [if_neg (by simp [hhost])]
    · rw [if_pos hhost]
      exact ⟨_, rfl, portNs_setRate s p v.toNat, State.reg_setReg ..⟩
  · rintro s e i _ rfl
    have hmove : exec (.plannedMoveHandover e) s = execPlannedMoveHandover e s := rfl
    have hfail : exec (.emitterFailure e i) s = execEmitterFailure e i s := rfl
    have hrelease : exec (.cartReleaseDone e) s = execCartReleaseDone e s := rfl
    have hopen : exec (.latchOpen e) s = execLatchOpen e s := rfl
    have hclose : ∀ d, exec (.latchClose e d) s = execLatchClose e d s := fun _ => rfl
    have hverify : ∀ ok, exec (.cartVerifyDone e ok) s = execCartVerifyDone e ok s := fun _ => rfl
    have hhourly : exec (.cartHourlyLog e) s = execCartHourlyLog e s := rfl
    refine ⟨fun b h hlit => ?_, fun h hplan => ?_, fun h old => takeHalf_leaves s e h i old, fun hi => ?_, fun j js h old hspare => ?_, fun hreleasing hcmd => ?_,
      fun hreleasing hcmd => ?_, fun hstate => ?_, fun d => exec_latchOpen_in_service, fun d hlatch => ?_, fun hlatch => ?_, fun d hstate hdata hok => ?_,
      fun d ok hstate hdata hbad => ?_, fun d hdata => ?_, rfl⟩
    · simp only [exec_emitterBiasCheck hlit]
      refine ⟨fun hhigh => by rw [if_pos hhigh], fun hlow => ?_, fun j js hge hlt hnone hidle hspare => ?_, fun ev s2 hge hlt hnone hidle hspare hdraw => ?_⟩
      · rw [if_neg (by omega), if_pos (Or.inl hlow)]
      · rw [if_neg (by omega), if_neg (by simp [hnone, hidle, Nat.not_lt.2 hge]), hspare]
      · rw [if_neg (by omega), if_neg (by simp [hnone, hidle, Nat.not_lt.2 hge])]
        simp only [hspare, hdraw]
    · simp only [hmove, execPlannedMoveHandover, hplan]
    · simp only [hfail, execEmitterFailure, hi, if_true]
    · simp only [assignSpare, hspare]
    · simp only [hrelease, execCartReleaseDone, hreleasing, hcmd, Bool.not_true, Bool.false_eq_true, if_false, if_true]
    · simp only [hrelease, execCartReleaseDone, hreleasing, hcmd, Bool.not_true, Bool.false_eq_true, if_false, success]
    · simp only [hopen, execLatchOpen, hstate]
      rw [if_neg (by decide), if_pos (Or.inl trivial)]
    · simp only [hclose, execLatchClose, hlatch, Bool.false_eq_true, if_false]
    · simp only [hclose, execLatchClose, hlatch, Bool.false_eq_true, if_false]
    · simp only [hverify, execCartVerifyDone, hstate, hdata, hok, ne_eq, not_true_eq_false, Bool.and_self, if_true, if_false]
    · have hfails : (cartOk d && ok) = false := by
        rcases hbad with h | h <;> simp [h]
      simp only [hverify, execCartVerifyDone, hstate, hdata, hfails, ne_eq, not_true_eq_false, Bool.false_eq_true, if_false]
    · simp only [hhourly, execCartHourlyLog, hdata]
      refine ⟨_, rfl, fun hdark => by rw [hdark, List.foldl_nil], fun j hone => by rw [hone, List.foldl_cons, List.foldl_nil]⟩
  · refine fwRow_of_body (fun _ _ _ => rfl) ?_
    rintro s c b ⟨hfn, hbody, hdata⟩
    obtain ⟨d, hd⟩ := Option.ne_none_iff_exists'.1 hdata
    simp [hfn, hbody, hd, accept, success]
  · refine fwLaterRow_of_body (fun _ _ _ => rfl) ?_
    rintro s c b ⟨hfn, hbody, hstate, hidle⟩
    simp [hfn, hbody, hstate, hidle]

end Sys2Proof.Machine
end

section
/-! PROOFS. The scheduler of an Ethernet port (R326, R355 to R371, R374 to R377, R469). -/

namespace Sys2Proof.Machine

open Sys2Proof

@[simp] theorem wport_setWport_same (s : State) (p : Nat) (x : WPort) : (s.setWport p x).wport p = x := mgetD_mset_same ..

@[simp] theorem queue_setQueue_same (s : State) (p q : Nat) (x : EQueue) : (s.setQueue p q x).queue p q = x := mgetD_mset_same ..

/-! Shapers that are brought up to the present leave waiting frames. -/

theorem tickShapers_waiting (s : State) (p : Nat) : (tickShapers s p).net.waiting = s.net.waiting :=
  foldl_frame (f := fun s i => s.setShaper i (shaperNow s i)) (fun s : State => s.net.waiting) (fun _ _ => rfl) _ _

/-! A waiting frame enters its queue. -/

/-- The next waiting frame of a port waits there, and fits. -/
theorem nextWaiting_mem {s : State} {p : Nat} {w : WaitFrame} (h : nextWaiting s p = some w) : w ∈ s.net.waiting ∧ w.port = p ∧ frameFits s w = true := by
  have hmine : w ∈ s.net.waiting.filter (fun w => w.port == p && frameFits s w) := by
    obtain ⟨w0, hpick, rfl⟩ := Option.map_eq_some_iff.1 h
    have hw0 : w0 ∈ s.net.waiting.filter (fun w => w.port == p && frameFits s w) := by
      rcases Option.or_eq_some_iff.1 (Option.orElse_eq_or .. ▸ hpick) with hfirst | ⟨-, hhead⟩
      · exact List.mem_of_find?_eq_some hfirst
      · exact List.mem_of_mem_head? hhead
    cases hahead : (s.net.waiting.filter (fun w => w.port == p && frameFits s w)).find? (fun x => x.frame.ahead && x.frame.cls == w0.frame.cls) with
    | none => simpa only [hahead, Option.getD_none] using hw0
    | some x => simpa only [hahead, Option.getD_some] using List.mem_of_find?_eq_some hahead
  obtain ⟨hin, hfits⟩ := List.mem_filter.1 hmine
  simp only [Bool.and_eq_true, beq_iff_eq] at hfits
  exact ⟨hin, hfits⟩

theorem exec_weldEnqueue {s : State} {p : Nat} {w : WaitFrame} (h : nextWaiting s p = some w) : ∃ t, exec (.weldEnqueue p) s = .next t ∧
    t.net.waiting = s.net.waiting.erase w ∧
    (t.queue p (queueFor s p w.frame.cls w.key)).frames = joinFrames (s.queue p (queueFor s p w.frame.cls w.key)).frames { w.frame with since := s.now } ∧
    ∀ p' q', 4096 * p' + q' ≠ 4096 * p + queueFor s p w.frame.cls w.key → t.queue p' q' = s.queue p' q' := by
  have harm : exec (.weldEnqueue p) s = execWeldEnqueue p s := rfl
  have hqueue : ∀ p' q', (tickShapers { s with net := { s.net with waiting := s.net.waiting.erase w } } p).queue p' q' = s.queue p' q' := fun p' q' => by
    simp only [State.queue, tickShapers_queues]
  simp only [harm, execWeldEnqueue, h]
  refine ⟨_, rfl, tickShapers_waiting .., ?_, fun p' q' hne => ?_⟩
  · simp only [queue_setQueue_same, hqueue]
  · exact (mgetD_mset_ne _ _ _ hne).trans (hqueue p' q')

/-! The next frame leaves. -/

/-- What a frame boundary comes to on a port that is up (R358). -/
theorem transmit_of_up {s s1 : State} {p : Nat} (hup : (s.eth p).up = true) (h1 : settleClasses (guardBand (tickShapers s p) p) p = s1) :
    (∀ c, tc0Pick s1 p (candidates s1 p) = some c → 0 ≤ bucketNow s1 p → transmit s p = sendFrame (preempt (s1.setWport p
      { s1.wport p with x := some (bucketNow s1 p - 256 * (frameCost s1 p 0 c.head : Nat)), xAt := s1.now, lastTc0 := c.q }) p (frameCost s1 p 0 c.head)) p 0 c) ∧
    (tc0Pick s1 p (candidates s1 p) = none → transmit s p = transmit.low s1 p (candidates s1 p)) := by
  subst h1
  simp only [transmit, hup, Bool.not_true, Bool.false_eq_true, if_false]
  refine ⟨fun c hpick hbucket => ?_, fun hpick => ?_⟩
  · simp only [hpick, hbucket, if_true]
  · simp only [hpick]

/-- A preemptable frame that is interrupted (R323). -/
theorem preempt_interrupts {s : State} {p cost : Nat} {f : Flight} (hactive : (s.eth p).pstate = 2) (hflight : (s.wport p).flight = some f) (hopen : f.close = none)
    (hleaving : 200 * s.now < f.stop) (hleast : f.start + wireTime s p (64 * (s.reg (ETH_PORT_CFG p) / 8 % 4 + 1)) ≤ 200 * s.now) :
    preempt s p cost = (s.setWport p { s.wport p with flight := some { f with stop := f.stop + wireTime s p cost } }).count (ETH_FRAGS p) := by
  have hgo : ¬ ((s.eth p).pstate ≠ 2 ∨ f.stop ≤ 200 * s.now ∨ 200 * s.now < f.start + wireTime s p (64 * (s.reg (ETH_PORT_CFG p) / 8 % 4 + 1))) := by
    rintro (h | h | h)
    · exact h hactive
    · omega
    · omega
  simp only [preempt, hflight, hgo, if_false, hopen, Bool.and_false, Bool.or_false, Bool.false_eq_true]

/-- A frame that leaves in its own class, with neither a shaper nor a command behind it (R358). -/
theorem sendFrame_plain {s : State} {p : Nat} {c : Cand} (hcmd : c.head.cmd = 0) (hshaper : c.x.shpEn = false) :
    sendFrame s p c.cls c = (((dequeue s p c.q).count (ETH_TX_FRAMES p)).emit (.frameTime p (portSec s p) (portSubNs s p))).emit (.frame p (wireFrame s p c.cls c.head.bytes)) := by
  simp only [sendFrame, hcmd, hshaper, Bool.false_eq_true, and_false, if_false, ne_eq, not_true_eq_false, if_true]

/-! Gate lists. -/

/-- The first start of a list at or after a moment (R366). -/
theorem firstStart_least {base cycle t : Nat} (hcycle : 0 < cycle) : base ≤ firstStart base cycle t ∧ t ≤ firstStart base cycle t ∧
    (∃ k, firstStart base cycle t = base + k * cycle) ∧ ∀ k, t ≤ base + k * cycle → firstStart base cycle t ≤ base + k * cycle := by
  unfold firstStart
  split
  · next hle => exact ⟨Nat.le_refl _, hle, ⟨0, by omega⟩, fun k _ => Nat.le_add_right ..⟩
  · next hlt =>
    have hcover : t - base ≤ cdiv (t - base) cycle * cycle := by
      unfold cdiv
      have hdiv := Nat.div_add_mod (t - base + cycle - 1) cycle
      have hmod := Nat.mod_lt (t - base + cycle - 1) hcycle
      rw [Nat.mul_comm] at hdiv
      omega
    refine ⟨Nat.le_add_right .., by omega, ⟨_, rfl⟩, fun k hk => Nat.add_le_add_left (Nat.mul_le_mul_right cycle ?_) _⟩
    unfold cdiv
    refine Nat.le_of_lt_succ ((Nat.div_lt_iff_lt_mul hcycle).2 ?_)
    rw [Nat.succ_mul]
    omega

/-- The counter of a port does not see the register that stages its gate lists. -/
theorem portNs_setGateCtrl (s : State) (p v : Nat) : portNs (s.setReg (WELD_GATE_CTRL p) v) p = portNs s p := by
  have hreg : (s.setReg (WELD_GATE_CTRL p) v).reg (ETH_TS_RATE p) = s.reg (ETH_TS_RATE p) := mgetD_mset_ne _ _ _ (by
    simp only [ETH_TS_RATE, WELD_GATE_CTRL]
    omega)
  simp only [portNs, hreg]
  rfl

theorem exec_gateListChange {s : State} {p : Nat} {v : W32} (hp : p < 64) (hlen : v.toNat % 512 ≤ 256) :
    (v.getLsbD 16 = false → exec (.gateListChange p v) s = .next (s.setReg (WELD_GATE_CTRL p) (v.toNat % 512))) ∧
    (v.getLsbD 16 = true → ∃ t g, exec (.gateListChange p v) s = .next t ∧ (t.wport p).change = some g ∧ (t.wport p).running = (s.wport p).running ∧
      g.entries.length = v.toNat % 512 ∧ g.start = firstStart g.base g.cycle ((portNs s p).toNat + 10000)) := by
  have harm : exec (.gateListChange p v) s = execGateListChange p v s := rfl
  simp only [harm, execGateListChange, Nat.not_lt.2 hlen, Nat.not_le.2 hp, if_false]
  refine ⟨fun hkeep => by simp only [hkeep, Bool.not_false, if_true], fun hchange => ?_⟩
  simp only [hchange, Bool.not_true, Bool.false_eq_true, if_false, portNs_setGateCtrl]
  let staged := stagedList (s.setReg (WELD_GATE_CTRL p) (v.toNat % 512)) p (v.toNat % 512) 0
  refine ⟨_, { staged with start := firstStart staged.base staged.cycle ((portNs s p).toNat + 10000) }, rfl, ?_⟩
  simp only [wport_setWport_same]
  exact ⟨rfl, rfl, by simp [staged, stagedList], trivial⟩

/-! Shapers. -/

theorem exec_shaperCommit {s : State} {i : Nat} {v : W32} (hi : i < 16384) : ∃ t x, exec (.shaperCommit i v) s = .next t ∧ t.shaper i = x ∧
    t.reg (WELD_SHP_CTRL i) = v.toNat % 4 ∧ x.en = v.getLsbD 0 ∧ x.cir = s.reg (WELD_SHP_RATE i) % 2 ^ 24 ∧ x.pir = s.reg (WELD_SHP_RATE i) / 2 ^ 24 % 2 ^ 24 ∧
    x.cbs = s.reg (WELD_SHP_BURST i) % 2 ^ 24 ∧ x.pbs = s.reg (WELD_SHP_BURST i) / 2 ^ 24 % 2 ^ 24 ∧ x.at_ = s.now ∧
    x.c = (if v.getLsbD 1 then 0 else 256 * (x.cbs : Int)) ∧ x.p = (if v.getLsbD 1 then 0 else 256 * (x.pbs : Int)) := by
  have harm : exec (.shaperCommit i v) s = execShaperCommit i v s := rfl
  have hbit : ∀ k < 2, (v.toNat % 4).testBit k = v.getLsbD k := fun k hk => by
    rw [show 4 = 2 ^ 2 by rfl, Nat.testBit_mod_two_pow, decide_eq_true hk, Bool.true_and]
    rfl
  simp only [harm, execShaperCommit, Nat.not_le.2 hi, if_false, hbit 0 (by decide), hbit 1 (by decide)]
  refine ⟨_, _, rfl, mgetD_mset_same .., mgetD_mset_same .., rfl, rfl, rfl, rfl, rfl, rfl, ?_, ?_⟩ <;> cases v.getLsbD 1 <;> rfl

/-! Samples. -/

theorem mmap_eq_self {α : Type} {f : Nat → α → α} {m : Map α} (h : ∀ x ∈ m, f x.1 x.2 = x.2) : mmap m f = m := by
  unfold mmap
  rw [List.map_congr_left fun x hx => show (x.1, f x.1 x.2) = id x by rw [h x hx]; rfl, List.map_id]

/-- Settles O46, by the event at a port. -/
theorem weldScheduling : Obligations.WeldScheduling := by
  unfold Obligations.WeldScheduling
  refine ⟨?_, ?_, ?_, fun s p cost f => preempt_interrupts, ?_, ?_, fun s i v => exec_shaperCommit, fun s p v => exec_gateListChange, fun base cycle t => firstStart_least, ?_,
    fun s p => rfl, ?_, ?_, ?_, ?_⟩
  · rintro s p _ w hnext rfl
    obtain ⟨hin, hport, hfits⟩ := nextWaiting_mem hnext
    exact ⟨hin, hport, hfits, exec_weldEnqueue hnext⟩
  · intro s p row hrow
    have hexec : exec row s = .next (transmit s p) := by
      rcases hrow with rfl | rfl <;> rfl
    simp only [hexec]
    refine ⟨fun hdown => by simp only [transmit, hdown, Bool.not_false, if_true], fun s1 c hup h1 hpick hbucket => by rw [(transmit_of_up hup h1).1 c hpick hbucket],
      fun s1 hup h1 hpick hlow => ?_, fun s1 hup h1 hpick => by rw [(transmit_of_up hup h1).2 hpick]⟩
    rw [(transmit_of_up hup h1).2 hpick, transmit.low, hlow]
  · intro s p k slot cs c d hpick
    simp only [transmit.low, hpick]
  · rintro s p _ c hcmd hshaper rfl
    rw [sendFrame_plain hcmd hshaper]
    refine ⟨rfl, ?_, State.reg_setReg ..⟩
    exact congrArg EQueue.frames (queue_setQueue_same ..)
  · intro items d x cur hfind hcost
    have hsome : items.isEmpty = false := by
      cases items with
      | nil => simp at hfind
      | cons y ys => rfl
    simp only [drr, hsome, hfind, hcost, Bool.false_eq_true, if_false, if_true]
  · intro s p g hchange
    have harm : exec (.gateListStart p) s = .next (startList s p) := rfl
    simp only [harm, startList, hchange]
    refine ⟨fun hdue => ?_, fun hearly => by rw [if_neg (by omega)]⟩
    rw [if_pos hdue]
    refine ⟨_, rfl, ?_⟩
    simp only [wport_setWport_same, and_self]
  · intro s p v
    have hadj : exec (.tsAdjWrite p v) s = execTsAdjWrite p v s := rfl
    have hsteer : ∀ r, exec (.timeAwareSystemSteering p v r) s = execTimeAwareSystemSteering p v r s := fun _ => rfl
    simp only [hadj, hsteer, execTsAdjWrite, execTimeAwareSystemSteering]
    refine ⟨fun hhost => by rw [if_pos hhost], fun hhost => by rw [if_neg (by simp [hhost])], fun hhost hup => ?_⟩
    simp only [hhost, hup, Bool.not_true, Bool.or_self, Bool.false_eq_true, if_false, implies_true, and_self]
  · intro s hnone
    have harm : exec .queueSample s = execQueueSample s := rfl
    have hon : s.net.queues.filter (fun q => q.2.samp) = [] := List.filter_eq_nil_iff.2 fun q hq => by simp [hnone q hq]
    have hqueues : mmap s.net.queues (fun k q => if q.samp then sampleQueue s (k / 4096) (k % 4096) q else q) = s.net.queues :=
      mmap_eq_self fun q hq => by simp [hnone q hq]
    simp only [harm, execQueueSample, hon, hqueues, List.filter_nil, List.length_nil, Nat.not_lt_zero, if_false, Nat.add_zero, if_true]
  · intro s k q hone hsamp hrate
    have harm : exec .queueSample s = execQueueSample s := rfl
    have hlate : ∀ n, ¬ 4096 * (s.reg WELD_SAMPLE_CFG % 1024) < (([(k, q)].filter (fun q => q.2.samp)).filter (fun q : Nat × EQueue => q.1 / 131072 == n)).length := fun n => by
      have hlen : (([(k, q)].filter (fun q => q.2.samp)).filter (fun q : Nat × EQueue => q.1 / 131072 == n)).length ≤ 1 :=
        (List.length_filter_le ..).trans (List.length_filter_le ..)
      omega
    simp only [harm, execQueueSample, hone, hlate, if_false, Nat.add_zero, if_true, mmap, List.map_cons, List.map_nil, hsamp]
  · intro s s1 k blk c bs htaken hfn hbody hmin hmax hmaster
    have harm : exec (.spSend k blk (some bs)) s = execSpSend k blk (some bs) s := rfl
    rw [harm, execSpSend, fwCommand_taken htaken]
    simp [hfn, hbody, Nat.not_lt.2 hmin, Nat.not_lt.2 hmax, hmaster]

end Sys2Proof.Machine
end

section
/-! PROOFS. Frames from a port and what decides them (R320, R338, R341, R345 to R347, R350 to R352). -/

namespace Sys2Proof.Machine

open Sys2Proof

/-- The least cause, counted on from one that is known. -/
theorem foldl_leastCause (cs : List Nat) (a : Nat) : ∃ m, cs.foldl (fun (m : Option Nat) c => match m with
    | some x => some (min x c)
    | none => some c) (some a) = some m ∧ m ∈ a :: cs ∧ ∀ x ∈ a :: cs, m ≤ x := by
  induction cs generalizing a with
  | nil => exact ⟨a, rfl, List.mem_singleton_self a, fun x hx => by rw [List.mem_singleton.1 hx]⟩
  | cons c cs ih =>
    obtain ⟨m, hfold, hin, hleast⟩ := ih (min a c)
    refine ⟨m, hfold, ?_, fun x hx => ?_⟩
    · rcases List.mem_cons.1 hin with rfl | hin
      · rcases Nat.le_total a c with h | h <;> simp [h]
      · simp [hin]
    · have hmin := hleast (min a c) (List.mem_cons_self ..)
      rcases List.mem_cons.1 hx with rfl | hx
      · omega
      · rcases List.mem_cons.1 hx with rfl | hx
        · omega
        · exact hleast x (List.mem_cons_of_mem _ hx)

theorem leastCause_eq_some (cs : List Nat) (m : Nat) : leastCause cs = some m ↔ m ∈ cs ∧ ∀ x ∈ cs, m ≤ x := by
  cases cs with
  | nil => simp [leastCause]
  | cons c cs =>
    obtain ⟨k, hfold, hin, hleast⟩ := foldl_leastCause cs c
    have hk : leastCause (c :: cs) = some k := hfold
    rw [hk, Option.some_inj]
    exact ⟨fun h => h ▸ ⟨hin, hleast⟩, fun h => Nat.le_antisymm (hleast m h.1) (h.2 k hin)⟩

/-! The flow table. -/

/-- A key is found where one of its two slots holds it (R350). -/
theorem flowFind_of_slot {n : Nat} {m : Map FlowEntry} {k : BitVec 384} {e : FlowEntry} {i : Nat} (hslot : i = (flowSlots n k).1 ∨ i = (flowSlots n k).2) (hget : mget m i = some e)
    (hkey : e.key = k) : ∃ j x, flowFind n m k = some (j, x) ∧ x.key = k := by
  have hcell : ∀ (j : Nat) (p : Nat × FlowEntry), (match mget m j with
      | some e => if e.key = k then some (j, e) else none
      | none => none) = some p → p.2.key = k := by
    intro j p hp
    split at hp
    · split at hp
      · next hk => exact Option.some.inj hp ▸ hk
      · cases hp
    · cases hp
  unfold flowFind
  simp only [List.findSome?_cons, List.findSome?_nil]
  split
  · next p hp => exact ⟨p.1, p.2, rfl, hcell _ p hp⟩
  · next hnone =>
    rcases hslot with rfl | rfl
    · simp [hget, hkey] at hnone
    · simp only [hget, hkey, if_true]
      exact ⟨_, _, rfl, hkey⟩

/-- The slot where a key is found is one of its two. -/
theorem slot_of_flowFind {n : Nat} {m : Map FlowEntry} {k : BitVec 384} {i : Nat} {x : FlowEntry} (h : flowFind n m k = some (i, x)) : i = (flowSlots n k).1 ∨ i = (flowSlots n k).2 := by
  obtain ⟨j, hj, hcell⟩ := List.exists_of_findSome?_eq_some h
  have hij : i = j := by
    split at hcell
    · split at hcell
      · exact (congrArg Prod.fst (Option.some.inj hcell)).symm
      · cases hcell
    · cases hcell
  subst hij
  exact List.mem_pair.1 hj

/-- What is put into a table is found there (R351). -/
theorem flowFind_flowPut {n : Nat} {m m' : Map FlowEntry} {e : FlowEntry} (h : flowPut n m e = some m') : ∃ i x, flowFind n m' e.key = some (i, x) ∧ x.key = e.key := by
  unfold flowPut at h
  split at h
  · next i x hfind =>
    obtain rfl := Option.some.inj h
    exact flowFind_of_slot (slot_of_flowFind hfind) (mget_mset_same ..) rfl
  · dsimp only at h
    split at h
    · obtain rfl := Option.some.inj h
      exact flowFind_of_slot (Or.inl rfl) (mget_mset_same ..) rfl
    · split at h
      · obtain rfl := Option.some.inj h
        exact flowFind_of_slot (Or.inr rfl) (mget_mset_same ..) rfl
      · cases h

/-- A flow command that is taken (R351). -/
theorem flowCommand_taken {s s1 : State} {k : MboxId} {op n : Nat} {rs : List (Nat × Nat)} {blk : CmdBlock} {c : Cmd} (h : FlowTaken s k op n rs blk c s1)
    {f : BitVec 32256 → Cmd → State → State × Option Reply} {t : State} {r : Option Reply} (hf : f blk.bits c s1 = (t, r)) :
    flowCommand op n rs k blk f s = r.elim t (answers true t c) := by
  obtain ⟨hbuilt, htaken, hfn, hbody⟩ := h
  simp only [flowCommand, hbuilt, Option.isSome_none, Bool.false_eq_true, if_false, fwCommand_taken htaken, hfn, hbody, Bool.not_true, hf]
  cases r <;> rfl

/-! Rule commands. -/

/-- Words that are staged in a row of registers. -/
theorem reg_foldl_setReg {s : State} {f g : Nat → Nat} (n : Nat) (hf : ∀ i j, f i = f j → i = j) :
    (∀ i, i < n → ((List.range n).foldl (fun s i => s.setReg (f i) (g i)) s).reg (f i) = g i) ∧
    (∀ r, (∀ i, i < n → f i ≠ r) → ((List.range n).foldl (fun s i => s.setReg (f i) (g i)) s).reg r = s.reg r) := by
  induction n with
  | zero => exact ⟨fun i hi => absurd hi (Nat.not_lt_zero i), fun r _ => rfl⟩
  | succ n ih =>
    obtain ⟨hin, hout⟩ := ih
    simp only [List.range_succ, List.foldl_append, List.foldl_cons, List.foldl_nil]
    refine ⟨fun i hi => ?_, fun r hr => ?_⟩
    · by_cases hlast : i = n
      · rw [hlast, State.reg_setReg]
      · exact (mgetD_mset_ne _ _ _ fun h => hlast (hf _ _ h)).trans (hin i (by omega))
    · exact (mgetD_mset_ne _ _ _ (hr n (by omega)).symm).trans (hout r fun i hi => hr i (by omega))

theorem madr_foldl_setReg {s : State} {f g : Nat → Nat} (xs : List Nat) : (xs.foldl (fun s i => s.setReg (f i) (g i)) s).madr = s.madr :=
  foldl_frame (f := fun s i => State.setReg s (f i) (g i)) (fun s : State => s.madr) (fun _ _ => rfl) _ _

theorem madr_setReg (s : State) (r v : Nat) : (s.setReg r v).madr = s.madr := rfl

/-- The seven staging words of a wide field of a rule, from word `k` on. -/
def stageWide (x : BitVec 448) (k : Nat) (s : State) : State :=
  (List.range 7).foldl (fun s i => s.setReg (MADR_RULE_DATA (k + i)) (bn x (64 * i + 63) (64 * i))) s

theorem madr_stageWide (x : BitVec 448) (k : Nat) (s : State) : (stageWide x k s).madr = s.madr := madr_foldl_setReg (f := fun i => MADR_RULE_DATA (k + i)) _

theorem ruleData_inj {i j : Nat} (h : MADR_RULE_DATA i = MADR_RULE_DATA j) : i = j := by
  simp only [MADR_RULE_DATA] at h
  omega

theorem ruleData_setReg_ne (s : State) {i j : Nat} (v : Nat) (h : i ≠ j) : (s.setReg (MADR_RULE_DATA j) v).reg (MADR_RULE_DATA i) = s.reg (MADR_RULE_DATA i) :=
  mgetD_mset_ne _ _ _ fun he => h (ruleData_inj he)

theorem ruleData_stageWide (x : BitVec 448) (k : Nat) (s : State) {i : Nat} (hi : i < 7) :
    (stageWide x k s).reg (MADR_RULE_DATA (k + i)) = bn x (64 * i + 63) (64 * i) :=
  (reg_foldl_setReg (f := fun i => MADR_RULE_DATA (k + i)) 7 fun _ _ h => Nat.add_left_cancel (ruleData_inj h)).1 i hi

theorem ruleData_stageWide_lt (x : BitVec 448) (s : State) {i k : Nat} (hi : i < k) : (stageWide x k s).reg (MADR_RULE_DATA i) = s.reg (MADR_RULE_DATA i) :=
  (reg_foldl_setReg (f := fun i => MADR_RULE_DATA (k + i)) 7 fun _ _ h => Nat.add_left_cancel (ruleData_inj h)).2 _ fun j _ h => by
    have := ruleData_inj h
    omega

theorem exec_ruleRead_eq {s : State} (hidle : s.madr.busy = false) : exec .ruleRead s =
    let r := selectedRule s
    let u := ((stageWide r.mask 7 (stageWide r.value 0 { s with madr := { s.madr with busy := true, err := 0 } })).setReg (MADR_RULE_DATA 14) r.range.toNat).setReg (MADR_RULE_DATA 15) r.action.toNat
    .next { u with madr := { u.madr with statValid := r.valid } } := by
  have harm : exec .ruleRead s = execRuleRead s := rfl
  simp only [harm, execRuleRead, ruleCommand, hidle, Bool.false_eq_true, if_false]
  rfl

/-- Command 3 stages the selected rule (R347). -/
theorem exec_ruleRead {s : State} (hidle : s.madr.busy = false) : ∃ t, exec .ruleRead s = .next t ∧
    t.madr = { s.madr with busy := true, err := 0, statValid := (selectedRule s).valid } ∧
    t.reg (MADR_RULE_DATA 14) = (selectedRule s).range.toNat ∧ t.reg (MADR_RULE_DATA 15) = (selectedRule s).action.toNat ∧
    ∀ i, i < 7 → t.reg (MADR_RULE_DATA i) = bn (selectedRule s).value (64 * i + 63) (64 * i) ∧ t.reg (MADR_RULE_DATA (7 + i)) = bn (selectedRule s).mask (64 * i + 63) (64 * i) := by
  have hkeep : ∀ (u : State) (m : Madder) (r : Nat), ({ u with madr := m } : State).reg r = u.reg r := fun _ _ _ => rfl
  refine ⟨_, exec_ruleRead_eq hidle, ?_, ?_, ?_, fun i hi => ⟨?_, ?_⟩⟩
  · simp only [madr_setReg, madr_stageWide]
  · rw [hkeep, ruleData_setReg_ne _ _ (by decide), State.reg_setReg]
  · rw [hkeep, State.reg_setReg]
  · have hvalue := ruleData_stageWide (selectedRule s).value 0 { s with madr := { s.madr with busy := true, err := 0 } } hi
    rw [Nat.zero_add] at hvalue
    rw [hkeep, ruleData_setReg_ne _ _ (by omega), ruleData_setReg_ne _ _ (by omega), ruleData_stageWide_lt _ _ hi, hvalue]
  · rw [hkeep, ruleData_setReg_ne _ _ (by omega), ruleData_setReg_ne _ _ (by omega), ruleData_stageWide _ _ _ hi]

/-- What decides a frame, in the order of R346. -/
theorem decideFrame_eq {s : State} {f : RxFrame} {p : Parse} {key : BitVec 448} (hp : p = parseFrame s f.bytes) (hkey : key = p.key f.port) :
    (∀ c, leastCause p.causes = some c → decideFrame s f = sampleFrame (slowPath s f c 0) f.port key f.bytes.length f.stamp 1) ∧
    (∀ i r, p.causes = [] → s.madr.rules.find? (fun r => r.2.hits s key) = some (i, r) → decideFrame s f = applyAction (s.count (MADR_RULE_HITS i)) f p r.action) ∧
    (p.causes = [] → s.madr.rules.find? (fun r => r.2.hits s key) = none → decideFrame s f =
      if p.carm && p.own then sampleFrame (toCarmine (s.count MADR_CARM_DEF) p f.bytes) f.port key f.bytes.length f.stamp 2
      else if p.v4 || p.v6 then
        (if s.madr.n = 0 then unmatched (s.count MADR_FLOW_MISS) f p
         else { s with madr := { s.madr with lookups := s.madr.lookups ++ [⟨f, key⟩] } })
      else unmatched s f p) := by
  subst hp hkey
  have hempty : leastCause [] = none := rfl
  unfold decideFrame
  dsimp only
  refine ⟨fun c hc => by rw [hc], fun i r hnone hfind => by rw [hnone, hempty]; simp only [hfind], fun hnone hfind => by rw [hnone, hempty]; simp only [hfind]⟩

/-- Settles O47, by the event. -/
theorem frameClassification : Obligations.FrameClassification := by
  unfold Obligations.FrameClassification
  refine ⟨?_, ?_, leastCause_eq_some, ?_, ?_, ?_, ?_, ?_, ?_, ?_, fun n m m' e => flowFind_flowPut, ?_⟩
  · intro s p bs ok hup
    have harm : exec (.frameReceive p bs ok) s = execFrameReceive p bs ok s := rfl
    have hgood : ok = true → 60 ≤ bs.length → bs.length ≤ 9212 → (!ok || decide (bs.length < 60) || decide (9212 < bs.length)) = false := fun hok hmin hmax => by
      simp [hok, hmin, hmax]
    have hroom : ingressBytes (s.count (ETH_RX_FRAMES p)) p = ingressBytes s p := rfl
    simp only [harm, execFrameReceive, hup, Bool.not_true, Bool.false_eq_true, if_false]
    refine ⟨fun hbad => ?_, fun hok hmin hmax hpcp hfits => ?_, fun hok hmin hmax hpcp hfull => ?_⟩
    · rw [if_pos (by rcases hbad with h | h | h <;> simp [h])]
    · simp only [hgood hok hmin hmax, hpcp, Bool.false_eq_true, if_false, hroom]
      rw [if_neg (Nat.not_lt.2 hfits)]
      exact ⟨_, rfl, rfl, State.reg_setReg ..⟩
    · simp only [hgood hok hmin hmax, hpcp, Bool.false_eq_true, if_false, hroom]
      rw [if_pos hfull]
  · intro s p f hfirst
    have harm : exec (.madderParse p) s = execMadderParse p s := rfl
    rcases hfirst with h | ⟨hnone, hhead⟩
    · simp only [harm, execMadderParse, h, Option.orElse_some]
    · simp only [harm, execMadderParse, hnone, hhead, Option.orElse_none]
  · intro s f p key hp hkey
    obtain ⟨hcause, hrule, helse⟩ := decideFrame_eq hp hkey
    refine ⟨hcause, hrule, fun hnone hfind hcarm hown => ?_, fun hnone hfind hother hip htable => ?_, fun hnone hfind hcarm hv4 hv6 => ?_⟩
    · rw [helse hnone hfind, if_pos (by simp [hcarm, hown])]
    · rw [helse hnone hfind, if_neg (by rcases hother with h | h <;> simp [h]), if_pos (by rcases hip with h | h <;> simp [h]), if_neg htable]
    · rw [helse hnone hfind, if_neg (by simp [hcarm]), if_neg (by simp [hv4, hv6])]
  · intro s f p a hkind
    simp only [applyAction, hkind, Nat.zero_ne_one, OfNat.zero_ne_ofNat, if_false]
  · intro s l ls hlookups
    have hresult : exec .flowLookupResult s = execFlowLookupResult s := rfl
    have htimeout : exec .flowLookupTimeout s = execFlowLookupTimeout s := rfl
    simp only [hresult, htimeout, execFlowLookupResult, execFlowLookupTimeout, hlookups]
    refine ⟨fun i e hgo hfind => ?_, fun hgo hfind => ?_, trivial⟩ <;> simp only [hgo, hfind, Bool.false_eq_true, if_false]
  · intro s
    have hwrite : exec .ruleWrite s = execRuleWrite s := rfl
    have hinvalidate : exec .ruleInvalidate s = execRuleInvalidate s := rfl
    have hread : exec .ruleRead s = execRuleRead s := rfl
    refine ⟨fun hbusy row hrow => ?_, fun hidle hvalid => ?_, fun hidle hvalid => ?_, fun hidle hvalid => ?_, exec_ruleRead, rfl⟩
    · rcases hrow with rfl | rfl | rfl
      · simp only [hwrite, execRuleWrite, ruleCommand, hbusy, if_true]
      · simp only [hinvalidate, execRuleInvalidate, ruleCommand, hbusy, if_true]
      · simp only [hread, execRuleRead, ruleCommand, hbusy, if_true]
    · have hvalid' : (mgetD s.madr.rules (ruleSel s) {}).valid = true := hvalid
      simp only [hwrite, execRuleWrite, ruleCommand, hidle, hvalid', Bool.false_eq_true, if_false, if_true]
    · have hvalid' : (mgetD s.madr.rules (ruleSel s) {}).valid = false := hvalid
      simp only [hwrite, execRuleWrite, ruleCommand, hidle, hvalid', Bool.false_eq_true, if_false]
      exact ⟨_, rfl, rfl, State.reg_setReg .., rfl⟩
    · have hvalid' : (mgetD s.madr.rules (ruleSel s) {}).valid = true := hvalid
      simp only [hinvalidate, execRuleInvalidate, ruleCommand, hidle, hvalid', Bool.false_eq_true, if_false, if_true]
      rfl
  · rintro s s1 s2 k blk c _ htaken rfl hmin hmax hpages
    have harm : exec (.flowTable k blk) s = execFlowTable k blk s := rfl
    rw [harm, execFlowTable, flowCommand_taken htaken (r := none) (by
      rw [if_neg (by omega), hpages])]
    rfl
  · rintro s s1 k blk c _ m htaken rfl haction htable hfree hput
    have harm : exec (.flowAdd k blk) s = execFlowAdd k blk s := rfl
    rw [harm, execFlowAdd, flowCommand_taken htaken (t := { s1 with madr := { s1.madr with flows := m } }) (r := some success) (by
      simp only [haction, Bool.not_true, Bool.false_eq_true, if_false, htable, execFlowAdd.put, hput]
      split
      · next x hfind =>
        have hx : x.fw = false := hfree _ hfind
        rw [if_neg (by simp [hx])]
        rfl
      · rfl)]
    rfl
  · intro s s1 k blk c i x htaken htable hfind hfree
    have harm : exec (.flowDel k blk) s = execFlowDel k blk s := rfl
    rw [harm, execFlowDel, flowCommand_taken htaken (t := { s1 with madr := { s1.madr with flows := mdel s1.madr.flows i } }) (r := some success) (by
      simp only [htable, hfind, hfree, Bool.false_eq_true, if_false, accept, success])]
    rfl
  · intro s n cmd hbuilding htable hflows
    have harm : exec .flowTableSwitch s = execFlowTableSwitch s := rfl
    simp only [harm, execFlowTableSwitch, hbuilding, hflows, List.foldl_nil, htable, if_true, success]

end Sys2Proof.Machine
end

section
/-! PROOFS. The host interface (R383, R388 to R397, R527). -/

namespace Sys2Proof.Machine

open Sys2Proof

/-- A field that every entry has, and the default too, is read whatever the key. -/
theorem mgetD_forall {α : Type} {p : α → Prop} {m : Map α} {d : α} (i : Nat) (hd : p d) (hm : ∀ x ∈ m, p x.2) : p (mgetD m i d) := by
  induction m with
  | nil => exact hd
  | cons x m ih =>
    by_cases h : i = x.1
    · have hget : mgetD (x :: m) i d = x.2 := by simp [mgetD, mget, h]
      exact hget ▸ hm x (List.mem_cons_self ..)
    · have hget : mgetD (x :: m) i d = mgetD m i d := by simp [mgetD, mget, h]
      exact hget ▸ ih fun y hy => hm y (List.mem_cons_of_mem _ hy)

/-- With no transfer under way nothing stops (R391). -/
theorem hostStop_of_no_xfers {s : State} (f : Nat) (h : s.host.xfers = []) : hostStop s f = safSettle s := by
  have hsame : ∀ xs, xs = s.host.xfers → { s with host := { s.host with xfers := xs } } = s := by
    rintro _ rfl
    rfl
  simp only [hostStop, h, List.filter_nil, List.map_nil, List.foldl_nil, List.filterMap_nil, hsame [] h.symm]

theorem dmaKill_of_no_xfers {s : State} (f : Nat) (h : s.host.xfers = []) : dmaKill s f = safSettle { s with rel := { s.rel with guardOp := 3 } } :=
  hostStop_of_no_xfers f h

/-- Setting a bit of AER shows it. -/
theorem aer_logAer (s : State) (f : Nat) (b : BitVec 3) : ((logAer s f b).fn f).aer &&& b = b := by
  rw [logAer, State.fn_setFn]
  ext i
  simpa using Or.inr

/-- Settles O48, by the event. -/
theorem hostInterface : Obligations.HostInterface := by
  unfold Obligations.HostInterface
  refine ⟨?_, ?_, ?_, ?_, ?_, ?_, ?_, ?_, ?_⟩
  · intro s f tag bs
    have hcpl : ∀ k, exec (.hostCompletion f tag k bs) s = execHostCompletion f tag k bs s := fun _ => rfl
    have htimeout : exec (.hostCplTimeout f tag) s = execHostCplTimeout f tag s := rfl
    have hend : exec (.tagQuarantineEnd f tag) s = execTagQuarantineEnd f tag s := rfl
    refine ⟨fun k hlate => ?_, fun k hlate hnone => ?_, fun i x j hlate hfind hkept => ?_, fun i x j hlate hfind hdropped => ?_, fun hsoon => ?_, fun hlate => ?_, fun hnone => ?_⟩
    · rw [hcpl, execHostCompletion, if_pos hlate]
    · rw [hcpl, execHostCompletion, if_neg (by simp only [hlate, Bool.false_eq_true, not_false_eq_true]), hnone]
    · have hkind : ∀ k, exec (.hostCompletion f tag k bs) s = execHostCompletion f tag k bs s := fun _ => rfl
      simp only [hkind, execHostCompletion, hlate, hfind, hkept, Bool.false_eq_true, if_false, and_self]
    · simp only [hcpl, execHostCompletion, hlate, hfind, hdropped, Bool.false_eq_true, if_false, if_true]
    · simp only [htimeout, execHostCplTimeout, hsoon, Bool.not_false, if_true]
    · simp only [htimeout, execHostCplTimeout, hlate, Bool.not_true, Bool.false_eq_true, if_false]
      exact ⟨_, rfl, rfl, aer_logAer _ f aerTimeout⟩
    · simp only [hend, execTagQuarantineEnd, hnone, List.filter_nil, List.map_nil, List.sum_nil, pumpReads]
      exact ⟨_, rfl, rfl⟩
  · intro s f page
    have hinv : exec (.atsInvalidate f page) s = execAtsInvalidate f page s := rfl
    refine ⟨fun hfree => ?_, fun hused => ?_⟩
    · simp only [hinv, execAtsInvalidate, hfree, Bool.false_eq_true, if_false]
    · simp only [hinv, execAtsInvalidate, hused, if_true]
  · rintro s f x hthere rfl hflr
    refine ⟨fun hbme => ?_, fun hbme => ⟨?_, ?_⟩, fun hd3 => ?_, fun hd3 => ?_, fun v a d m e hv hd3 => ?_, fun a d m e => ?_, fun hpf => ?_, fun hpf => ?_⟩
    · have harm : exec (.bmeClear f) s = execBmeClear f s := rfl
      simp only [harm, execBmeClear, hthere, hflr, hbme, Bool.not_true, Bool.or_self, Bool.false_eq_true, if_false]
    · have harm : exec (.bmeClear f) s = execBmeClear f s := rfl
      simp only [harm, execBmeClear, hbme, Bool.not_false, Bool.or_true, if_true]
    · have harm : exec (.bmeSet f) s = execBmeSet f s := rfl
      simp only [harm, execBmeSet, hthere, hflr, hbme, Bool.not_true, Bool.or_self, Bool.false_eq_true, if_false]
    · have harm : exec (.d3hotEntry f) s = execD3hotEntry f s := rfl
      simp only [harm, execD3hotEntry, hthere, hflr, hd3, Bool.not_true, Bool.or_self, Bool.false_eq_true, if_false]
    · have harm : exec (.d0Return f) s = execD0Return f s := rfl
      simp only [harm, execD0Return, hthere, hflr, hd3, Bool.not_true, Bool.or_self, Bool.false_eq_true, if_false]
    · have harm : exec (.msixMaskChange f (some v) a d m e) s = execMsixMaskChange f (some v) a d m e s := rfl
      simp only [harm, execMsixMaskChange, hthere, hflr, hd3, Nat.not_le.2 hv, Bool.not_true, Bool.or_self, Bool.false_eq_true, or_self, if_false]
    · have harm : exec (.msixMaskChange f none a d m e) s = execMsixMaskChange f none a d m e s := rfl
      simp only [harm, execMsixMaskChange, hthere, hflr, Bool.not_true, Bool.or_self, Bool.false_eq_true, if_false]
    · have harm : exec (.flrInitiate f) s = execFlrInitiate f s := rfl
      simp only [harm, execFlrInitiate, hthere, hflr, hpf, Bool.not_true, Bool.or_self, Bool.false_eq_true, if_false]
    · have harm : exec (.flrInitiate f) s = execFlrInitiate f s := rfl
      simp only [harm, execFlrInitiate, hthere, hflr, hpf, Bool.not_true, Bool.or_self, Bool.false_eq_true, if_false, if_true]
  · intro s f v
    refine ⟨fun hbeyond => ?_, fun hv hflr => ?_, fun hv hflr hmasked => ?_, fun hv hflr hclear => ?_⟩
    · rw [State.msix, if_pos hbeyond]
    · simp only [State.msix, Nat.not_le.2 hv, hflr, if_false, if_true]
    · simp only [State.msix, Nat.not_le.2 hv, hflr, hmasked, Bool.false_eq_true, if_false, if_true]
    · simp only [State.msix, Nat.not_le.2 hv, hflr, hclear, Bool.false_eq_true, if_false]
  · rintro s f x rfl hflr _ hpairs hxfers _
    have hstart : flrStart s f = (pairsOf s f).foldl clearOutbound (dmaKill { s.setFn f { s.fn f with
        flr := true
        msix := (s.fn f).msix.map (fun p => (p.1, { p.2 with pending := false })) } with
        ap := { s.ap with ports := mmap s.ap.ports (fun _ p => if p.owner = some f then { p with owner := none } else p) } } f) := by
      simp only [flrStart, hflr, Bool.false_eq_true, if_false]
      rfl
    rw [hpairs, List.foldl_nil, dmaKill_of_no_xfers f (by exact hxfers)] at hstart
    refine ⟨_, hstart, ?_, fun v => ?_⟩ <;> simp only [State.fn, State.setFn, mgetD_mset_same]
    refine mgetD_forall (p := fun e : MsixEntry => e.pending = false) v rfl fun y hy => ?_
    obtain ⟨e, _, rfl⟩ := List.mem_map.1 hy
    rfl
  · intro s s1 f hflr hcore1 hcore3 hpf hs1
    have harm : exec (.flrDone f) s = execFlrDone f s := rfl
    simp only [harm, execFlrDone, hflr, hcore1, hcore3, hpf, Bool.not_true, Bool.or_self, Bool.false_eq_true, if_false, ← hs1]
    refine ⟨_, rfl, mgetD_mset_same .., fun e he hef => ?_⟩
    have hkept := (List.mem_filter.1 he).2
    simp [hef] at hkept
  · intro s h hh
    have hh' : ¬ 2 ≤ h := by omega
    refine ⟨fun hthere hflr => ?_, ?_, fun b hup => ?_, fun w g fl hphase hdown hw hg hg' => ?_⟩
    · have harm : exec (.vfEnableClear h) s = execVfEnableClear h s := rfl
      simp only [harm, execVfEnableClear, hh', hthere, hflr, Bool.true_eq_false, Bool.false_eq_true, or_self, if_false]
    · rw [clearVfs, State.hport_setHport]
    · have harm : exec (.hostPortReset h b) s = execHostPortReset h b s := rfl
      simp only [harm, execHostPortReset, hh', if_false, hostPortDown, hup, Bool.not_true, Bool.false_eq_true]
      exact ⟨_, rfl, by rw [State.hport_setHport], by rw [State.hport_setHport], by rw [State.hport_setHport]⟩
    · have harm : exec (.hostPortLeavesReset h w g fl) s = execHostPortLeavesReset h w g fl s := rfl
      have hwidth : [1, 2, 4, 8, 16].contains w = true := List.contains_iff_mem.2 hw
      rw [harm, execHostPortLeavesReset, hwidth, hdown, hphase, if_neg (by simp; omega)]
  · exact fwRow_of_body (fun _ _ _ => rfl) fun s c b ⟨hfrom, hres, hnamed⟩ => by
      simp only [hfrom, hres, hnamed, Bool.not_true, Bool.or_self, Bool.false_eq_true, if_false, accept, success]
  · exact fwRow_of_body (fun _ _ _ => rfl) fun s c b ⟨hfrom, hres, hnamed⟩ => by
      simp only [hfrom, hres, hnamed, Bool.not_true, Bool.or_self, Bool.false_eq_true, if_false, accept, success]

end Sys2Proof.Machine
end

section
/-! PROOFS. The commands of storage queues (R404, R406 to R412, R417). -/

namespace Sys2Proof.Machine

open Sys2Proof

/-! The commands that stand in a queue. -/

theorem mget_mmod_same {α : Type} (m : Map α) (i : Nat) (f : α → α) : mget (mmod m i f) i = (mget m i).map f := by
  unfold mmod
  split
  · next v h => rw [mget_mset_same, h, Option.map_some]
  · next h => rw [h, Option.map_none]

/-- Changing a command leaves it where it is found. -/
theorem nvAt_setNv {s : State} {q seq : Nat} {f : NvCmd → NvCmd} {c : NvCmd} (hc : nvAt s q seq = some c) (hf : ∀ x, x.seq = seq → (f x).seq = seq) :
    nvAt (setNv s q seq f) q seq = some (f c) := by
  obtain ⟨w, hw, hfind⟩ := Option.bind_eq_some_iff.1 hc
  have hkeep : ((fun x : NvCmd => x.seq == seq) ∘ fun x => if x.seq = seq then f x else x) = fun x => x.seq == seq := by
    funext x
    by_cases hx : x.seq = seq
    · simp [hx, hf x hx]
    · simp [hx]
  have hseq : c.seq = seq := beq_iff_eq.1 (List.find?_some (p := fun x : NvCmd => x.seq == seq) hfind)
  unfold nvAt setNv
  rw [mget_mmod_same, hw, Option.map_some, Option.bind_some, List.find?_map, hkeep, hfind, Option.map_some, if_pos hseq]

theorem isIo_setNv (s : State) (q seq : Nat) (f : NvCmd → NvCmd) : isIo (setNv s q seq f) q = isIo s q := by
  unfold isIo setNv
  rw [mget_mmod_same, Option.map_map]
  rfl

/-- A command whose PRP entries are at hand has no list to ask for. -/
theorem askList_of_no_list {s : State} {q seq : Nat} {c : NvCmd} (hc : nvAt s q seq = some c) (hleft : c.listLeft = 0) : askList s q seq = dataReady s q seq := by
  simp only [askList, hc, hleft, if_true]

/-- What starts, once its turn has come. -/
theorem startNv_of_fetched {s : State} {q cid : Nat} {c : NvCmd} (h : NvFetched s q cid c) :
    (nvCheck s q c ≠ 0 → startNv s q c = nvEnd s q c (nvCheck s q c) 0) ∧
    (nvCheck s q c = 0 → prpStart c (moveBytes s q c) = none → startNv s q c = nvEnd s q c stField 0) ∧
    (∀ ps, nvCheck s q c = 0 → prpStart c (moveBytes s q c) = some (ps, 0, 0) → startNv s q c = dataReady (started s q c ps) q c.seq) := by
  obtain ⟨_, hat, _, hgoing, hturn, hcore⟩ := h
  have hready : (!isIo s q && !pcoreRuns s 4) = false := by
    rcases hcore with h | h <;> simp [h]
  simp only [startNv, hgoing, hturn, hready, Bool.or_self, Bool.false_eq_true, if_false]
  refine ⟨fun hbad => if_pos hbad, fun hgood hprp => ?_, fun ps hgood hprp => ?_⟩
  · simp only [hgood, hprp, ne_eq, not_true, if_false]
  · simp only [hgood, hprp, ne_eq, not_true, if_false]
    have hfound := nvAt_setNv (f := fun c => { c with start := s.saf.nextStart, pieces := ps, listAt := 0, listLeft := 0 }) hat fun _ h => h
    exact askList_of_no_list (s := started s q c ps) hfound rfl

/-- The row of an opcode, from the row's meaning. -/
theorem nvmeRow_of_exec {op : Nat} {io : Bool} {row : Nat → Nat → Instr} (hrow : ∀ q cid s, exec (row q cid) s = .next (nvRow op io q cid s)) : NvmeRow op io row := by
  intro s q cid c hfetched hio hop
  obtain ⟨hof, hat, hphase, _⟩ := id hfetched
  have hstart : exec (row q cid) s = .next (safSettle (startNv s q c)) := by
    simp only [hrow, nvRow, hof, hio, hop, beq_self_eq_true, Bool.and_self, Bool.true_or, if_true, advanceNv, hat, hphase]
  obtain ⟨hbad, hfield, hmoves⟩ := startNv_of_fetched hfetched
  exact ⟨fun h => by rw [hstart, hbad h], fun h h' => by rw [hstart, hfield h h'], fun ps h h' => by rw [hstart, hmoves ps h h']⟩

/-- A command whose data go to the device asks the host for them; any other runs. -/
theorem dataReady_eq {s : State} {q : Nat} {c : NvCmd} (hat : nvAt s q c.seq = some c) :
    ((isIo s q && (eOp c == 0x01 || eOp c == 0x09)) = true →
      (hostRead s (sqFn s q) (.nvme q c.seq) c.pieces = none → dataReady s q c.seq = nvEnd s q c stTransfer 0) ∧
      ∀ s1, hostRead s (sqFn s q) (.nvme q c.seq) c.pieces = some s1 → dataReady s q c.seq = setNv s1 q c.seq (fun c => { c with phase := .data })) ∧
    ((isIo s q && (eOp c == 0x01 || eOp c == 0x09)) = false →
      dataReady s q c.seq = runNv (setNv s q c.seq (fun _ => { c with phase := .running })) q { c with phase := .running } true) := by
  unfold dataReady
  simp only [hat]
  exact ⟨fun h => ⟨fun hnone => by simp only [h, hnone, if_true], fun s1 hsome => by simp only [h, hsome, if_true]⟩, fun h => by rw [h]; rfl⟩

/-- What the pieces of the data lead to. -/
theorem dataReady_cases {s : State} {q : Nat} {c d : NvCmd} (hat : nvAt s q c.seq = some c) (hd : d = { c with phase := .running }) :
    (isIo s q = false → dataReady s q c.seq = runAdmin (setNv s q c.seq (fun _ => d)) q d) ∧
    (isIo s q = true → eOp c = 0x00 → dataReady s q c.seq = runFlush (setNv s q c.seq (fun _ => d)) q d) ∧
    (isIo s q = true → eOp c = 0x02 → dataReady s q c.seq = runRead (setNv s q c.seq (fun _ => d)) q d) := by
  subst hd
  have hop : eOp { c with phase := .running } = eOp c := rfl
  refine ⟨fun hio => ?_, fun hio h => ?_, fun hio h => ?_⟩
  · rw [(dataReady_eq hat).2 (by simp [hio]), runNv, isIo_setNv, hio]
    rfl
  · rw [(dataReady_eq hat).2 (by simp [h]), runNv, isIo_setNv, hio, hop, h]
    rfl
  · rw [(dataReady_eq hat).2 (by simp [h]), runNv, isIo_setNv, hio, hop, h]
    rfl

/-- With nothing of Carmine's to take, nothing changes. -/
theorem absorbCarmine_of_none {s : State} (h : s.carm.posted = []) : absorbCarmine s = s := by
  have hsame : ∀ xs, xs = s.carm.posted → { s with carm := { s.carm with posted := xs } } = s := by
    rintro _ rfl
    rfl
  simp only [absorbCarmine, h, List.filterMap_nil, List.filter_nil, List.foldl_nil, hsame [] h.symm]

theorem finishDelete_of_no_ns {s : State} (n : Nat) (h : s.saf.nss = []) : finishDelete s n = s := by
  simp only [finishDelete, State.ns, h, mget_nil]

/-- The last piece of a page's newest contents takes the page out of the buffer (R410). -/
theorem destageEnd_last {s : State} {key k ver : Nat} {b : Back} {p : BufPage} (hback : mget s.saf.backs key = some b) (hwhy : b.why = .destage k ver)
    (hpage : mget s.saf.pages k = some p) (hsent : p.sent = some (ver, 1)) (hgood : p.bad = false) (hver : p.ver = ver) (hnss : s.saf.nss = []) :
    destageEnd s key (some 0) = ((releaseWaits { s with saf := { s.saf with backs := mdel s.saf.backs key } } k ver).count SAFF_DESTAGE).setPages (mdel s.saf.pages k) := by
  simp only [destageEnd, hback, hwhy, hpage, hsent, hgood, hver, Nat.lt_irrefl, true_or, if_true, if_false, not_true, ne_eq]
  exact finishDelete_of_no_ns _ hnss

/-- Settles O49, by the event. -/
theorem storageCommands : Obligations.StorageCommands := by
  unfold Obligations.StorageCommands
  refine ⟨?_, nvmeRow_of_exec fun _ _ _ => rfl, nvmeRow_of_exec fun _ _ _ => rfl, nvmeRow_of_exec fun _ _ _ => rfl, nvmeRow_of_exec fun _ _ _ => rfl,
    nvmeRow_of_exec fun _ _ _ => rfl, nvmeRow_of_exec fun _ _ _ => rfl, nvmeRow_of_exec fun _ _ _ => rfl, nvmeRow_of_exec fun _ _ _ => rfl,
    nvmeRow_of_exec fun _ _ _ => rfl, nvmeRow_of_exec fun _ _ _ => rfl, nvmeRow_of_exec fun _ _ _ => rfl, ?_, ?_, ?_, ?_, ?_, ?_⟩
  · intro s s1 q w r hq hr hlive hkept hgoing hfree hagain
    have harm : exec (.sqFetch q) s = execSqFetch q s := rfl
    simp only [harm, execSqFetch, hq, hr, hlive, hkept, hgoing, hfree, hagain, Bool.not_true, decide_false, Bool.or_self, Bool.false_eq_true, if_false]
    refine ⟨fun hlt hread => ?_, fun hle => ?_⟩
    · simp only [Nat.not_le.2 hlt, if_false, hread]
      exact ⟨_, rfl, rfl, mget_mset_same ..⟩
    · rw [if_pos hle]
  · intro s q c d hat hd
    obtain ⟨hadmin, hflush, hread⟩ := dataReady_cases hat hd
    have hwrite : isIo s q = true → eOp c = 0x01 ∨ eOp c = 0x09 → (isIo s q && (eOp c == 0x01 || eOp c == 0x09)) = true := fun hio h => by
      simpa [hio] using h
    exact ⟨hadmin, hflush, hread, fun hio hop hnone => ((dataReady_eq hat).1 (hwrite hio hop)).1 hnone,
      fun s1 hio hop hsome => ((dataReady_eq hat).1 (hwrite hio hop)).2 s1 hsome⟩
  · intro s q c
    refine ⟨fun hop => ?_, fun hop hfid => ?_, fun hop hfid => ?_, fun hop hfid => ?_, fun hop hroom => ?_, fun hop hnone => ?_, fun hmaster bs => ?_⟩
    · simp only [runAdmin, hop]
    · simp only [runAdmin, hop, hfid, if_true]
    · simp only [runAdmin, hop, hfid, Nat.reduceEqDiff, if_false]
    · simp only [runAdmin, hop, hfid, Nat.reduceEqDiff, if_false]
    · simp only [runAdmin, hop, Nat.not_lt.2 hroom, if_false]
    · have hfind : ∀ p : Nat × NvCmd → Bool, (allNv s).find? (fun x => p x && decide (x.2.phase = .fetched)) = none := fun p =>
        List.find?_eq_none.2 fun x hx => by simp [hnone x hx]
      simp only [runAdmin, hop, hfind]
    · simp only [nvDeliver, hmaster, Bool.not_true, Bool.false_eq_true, if_false]
  · intro s q c x hns
    refine ⟨fun hall harmed => ?_, fun hleft => ?_, fun hall hdisarmed hwaits hstatus hready => ?_, fun s1 bs fl hasked hfree hread hhits => ?_, fun harmed hfirst => ?_⟩
    · simp only [finishWrite, hns, Nat.not_lt.2 hall, harmed, Bool.true_or, if_true, if_false]
    · simp only [finishWrite, hns, hleft, if_true]
    · have hwaits' : c.waits.isEmpty = false := by simpa using hwaits
      simp only [finishWrite, hns, Nat.not_lt.2 hall, hdisarmed, hwaits', hstatus, hready, Bool.or_self, Bool.false_eq_true, Bool.not_true, ne_eq, not_true, if_false]
    · simp only [runRead, hns, hasked, hfree, hread, hhits, Bool.not_false, Bool.false_eq_true, if_true, if_false]
    · have hearlier : ∀ p : Nat × NvCmd → Bool, (allNv s).any (fun y => y.1 == q && decide (y.2.seq < c.seq) && p y) = false := fun p =>
        List.any_eq_false.2 fun y hy => by
          by_cases h : y.1 = q
          · simp [Nat.not_lt.2 (hfirst y hy h)]
          · simp [h]
      have hnone := hearlier fun y => isWrite y.2 && (flushNs s q c).contains (eNsid y.2)
      simp only [← Bool.and_assoc] at hnone
      simp only [runFlush, hnone, harmed, Bool.false_eq_true, if_true, if_false]
  · intro s q cid c hof hio hwrite hstarted
    have harm : exec (.writeBufferAdmit q cid) s = execWriteBufferAdmit q cid s := rfl
    simp only [harm, execWriteBufferAdmit, hof, hio, hwrite, hstarted, decide_true, Bool.and_self, if_true]
  · intro s
    have hack : exec .destageAck s = execDestageAck s := rfl
    refine ⟨fun hacks hposted => ?_, fun key st rest hposted hacks => ?_, fun e er fl hstate => ?_, fun e er fl hstate => ?_⟩
    · simp only [hack, execDestageAck, absorbCarmine_of_none hposted, hacks]
    · simp only [hack, execDestageAck, absorbCarmine_of_none hposted, hacks]
    · have harm : exec (.vaultArmChange e er fl) s = execVaultArmChange e er fl s := rfl
      have harmed : b2n (decide (25 ≤ e) && er && !fl) = if 25 ≤ e ∧ er = true ∧ fl = false then 1 else 0 := by
        by_cases he : 25 ≤ e <;> cases er <;> cases fl <;> simp [b2n, he]
      simp only [harm, execVaultArmChange, hstate, harmed, if_true]
    · have harm : exec (.vaultArmChange e er fl) s = execVaultArmChange e er fl s := rfl
      simp only [harm, execVaultArmChange, show ¬ s.saf.vstate ≤ 1 by omega, if_false]
  · intro s key k ver b p hback hwhy hpage hsent hgood hver hnss
    exact ⟨_, destageEnd_last hback hwhy hpage hsent hgood hver hnss, mget_mdel_same .., mget_mdel_same .., State.reg_count ..⟩

end Sys2Proof.Machine
end

section
/-! PROOFS. Namespaces and their backing (R405, R406, R418, R420, R421). -/

namespace Sys2Proof.Machine

open Sys2Proof

/-- A PDU that has been taken is acted on (R420). -/
theorem pduRow_taken {s s1 : State} {k ty : Nat} {x : Sess} {p : List Byte} (h : PduTaken s k ty x p s1) (act : State → Sess → List Byte → State) :
    pduRow ty act k s = safSettle (checkFin (act s1 x p) k) := by
  obtain ⟨y, hsess, hhead, hty, rfl, rfl, hdigest⟩ := h
  simp only [pduRow, hsess, hhead, Option.bind_some, hty, if_true, Option.isSome_some, hdigest]

/-- A session with a whole PDU at the front of its stream. -/
theorem headPdu_of_taken {s s1 : State} {k ty : Nat} {x : Sess} {p : List Byte} (h : PduTaken s k ty x p s1) : ((s.sess k).bind headPdu).isSome = true := by
  obtain ⟨y, hsess, hhead, _⟩ := h
  rw [hsess, Option.bind_some, hhead, Option.isSome_some]

/-- What is removed by its namespace is gone. -/
theorem filter_ne_filter_eq {α : Type} (key : Nat × α → Nat) (n : Nat) (m : Map α) : (m.filter (fun p => key p != n)).filter (fun p => key p == n) = [] := by
  refine List.filter_eq_nil_iff.2 fun p hp => ?_
  have hne := (List.mem_filter.1 hp).2
  simpa using hne

theorem deleteNs_gone (s : State) (n : Nat) : (deleteNs s n).ns n = none ∧ pagesOf (deleteNs s n) n = [] ∧ sessOf (deleteNs s n) n = [] :=
  ⟨mget_mdel_same .., filter_ne_filter_eq (fun p => keyNs p.1) n _, filter_ne_filter_eq (fun p : Nat × Sess => p.2.ns) n _⟩

/-- The sessions' timers and segments. -/
theorem session_events {s : State} {k : Nat} {x : Sess} (hsess : s.sess k = some x) :
    (x.queue = 0 → exec (.sessionReconnectTimer k) s = .next (openSess s k)) ∧
    (x.queue ≠ 0 → (∀ p ∈ sessOf s x.ns, p.2.st ≠ .up) → exec (.sessionReconnectTimer k) s = .next s) ∧
    (x.st = .up → 0 < x.sent → exec (.tcpRetransmissionTimeout k true) s = .next (safSettle (failSess s k)) ∧
      exec (.tcpRetransmissionTimeout k false) s = .next (sendSeg s k x x.una 0x18 (sackOpt x) (x.buf.take (min x.mss x.sent)))) ∧
    (x.st = .closed → ∀ b, exec (.tcpRetransmissionTimeout k b) s = .next s) := by
  have hreconnect : exec (.sessionReconnectTimer k) s = execSessionReconnectTimer k s := rfl
  have htimeout : ∀ b, exec (.tcpRetransmissionTimeout k b) s = execTcpRetransmissionTimeout k b s := fun _ => rfl
  refine ⟨fun hadmin => ?_, fun hqueue hdown => ?_, fun hup hsent => ?_, fun hclosed b => ?_⟩
  · simp only [hreconnect, execSessionReconnectTimer, hsess, hadmin, true_or, if_true]
  · have hnone : (sessOf s x.ns).any (fun p => p.2.queue == 0 && decide (p.2.st = .up)) = false :=
      List.any_eq_false.2 fun p hp => by simp [hdown p hp]
    simp only [hreconnect, execSessionReconnectTimer, hsess, hqueue, hnone, Bool.false_eq_true, or_self, if_false]
  · have hopen : ¬ (x.st = .closed ∨ (x.st ≠ .synSent ∧ x.sent = 0)) := by
      rw [hup]
      rintro (h | ⟨_, h⟩)
      · cases h
      · omega
    refine ⟨?_, ?_⟩
    · simp only [htimeout, execTcpRetransmissionTimeout, hsess, hopen, if_false, if_true]
    · simp only [htimeout, execTcpRetransmissionTimeout, hsess, hopen, Bool.false_eq_true, if_false]
      rw [if_neg (by simp [hup])]
  · simp only [htimeout, execTcpRetransmissionTimeout, hsess, hclosed, true_or, if_true]

/-- A namespace whose fields pass is created (R405). -/
theorem safNsCreate_of_ok {s s1 : State} {k : MboxId} {blk : CmdBlock} {c : Cmd} {i : Nat} {x : Ns} (ht : Taken s k 0x080 true blk c s1) (hfrom : fromPf0 c = true)
    (hres : bodyReserved blk.bits [(15, 15), (31, 18), (111, 107), (127, 115), (259, 259), (271, 265)] 3904 = true) (hlow : 0 < bn blk.bits 14 0)
    (hhigh : bn blk.bits 14 0 ≤ 16384) (hnew : s1.ns (bn blk.bits 14 0) = none) (hsize : 0 < x.nsze) (hsize' : x.nsze ≤ 2 ^ 48) (hbuf : 0 < x.bufmax)
    (hbuf' : x.bufmax ≤ 1024) (htc : x.tc ≠ 0)
    (hx : x = { carmine := bt blk.bits 16, lbaf := bt blk.bits 17, nsze := bn blk.bits 95 32, bufmax := bn blk.bits 106 96, tc := bn blk.bits 114 112, addr := BitVec.ofNat 128 (bn blk.bits 255 128)
                ipv4 := bt blk.bits 256, hdgst := bt blk.bits 257, ddgst := bt blk.bits 258, sess := bn blk.bits 264 260, tport := bn blk.bits 287 272, tnsid := bn blk.bits 319 288
                subnqn := leBytes 224 (bn blk.bits 2111 320), hostnqn := leBytes 224 (bn blk.bits 3903 2112) }) :
    (x.carmine = true → x.tport = 0 → checkHandle s1 c.req (BitVec.ofNat 64 (bn blk.bits 191 128)) [3] = .inl i → (s1.conn i).map (·.peerNode) = some (bn blk.bits 255 240) →
      exec (.safNsCreate k blk) s = .next (answers true (safSettle (s1.setNs (bn blk.bits 14 0) x)) c success)) ∧
    (x.carmine = false → 0 < x.sess → x.sess ≤ 16 → s1.saf.sessions.length + x.sess < 131072 →
      exec (.safNsCreate k blk) s = .next (answers true (makeSess (s1.setNs (bn blk.bits 14 0) x) (bn blk.bits 14 0) x.sess) c success)) := by
  have harm : exec (.safNsCreate k blk) s = execSafNsCreate k blk s := rfl
  have hcarmine : x.carmine = bt blk.bits 16 := hx ▸ rfl
  have hsess : x.sess = bn blk.bits 264 260 := hx ▸ rfl
  have htport : x.tport = bn blk.bits 287 272 := hx ▸ rfl
  have hlow' : (bn blk.bits 14 0 == 0) = false := beq_false_of_ne (by omega)
  have hfields : ∀ b : Bool, b = false → (!bodyReserved blk.bits [(15, 15), (31, 18), (111, 107), (127, 115), (259, 259), (271, 265)] 3904 || bn blk.bits 14 0 == 0 ||
      decide (16384 < bn blk.bits 14 0) || bn blk.bits 95 32 == 0 || decide (2 ^ 48 < bn blk.bits 95 32) || bn blk.bits 106 96 == 0 || decide (1024 < bn blk.bits 106 96) ||
      bn blk.bits 114 112 == 0 || b) = false := by
    rintro _ rfl
    rw [hx] at hsize hsize' hbuf hbuf' htc
    simp only [hres, hlow', Nat.not_lt.2 hhigh, beq_false_of_ne (Nat.ne_of_gt hsize), Nat.not_lt.2 hsize', beq_false_of_ne (Nat.ne_of_gt hbuf), Nat.not_lt.2 hbuf',
      beq_false_of_ne htc, decide_false, Bool.not_true, Bool.or_self]
  rw [harm, execSafNsCreate, fwCommand_taken ht]
  rw [hcarmine, hsess, htport]
  refine ⟨fun hcarm hport hhandle hnode => ?_, fun htcp hmin hmax hroom => ?_⟩
  · dsimp only
    rw [hfields _ (by simp [hcarm, hport])]
    simp only [hfrom, hnew, hcarm, hhandle, hnode, Bool.not_true, Bool.false_eq_true, if_true, if_false, Option.isSome_none, ne_eq, not_true]
    rw [hx, hcarm]
    rfl
  · dsimp only
    rw [hfields _ (by simp [htcp]; omega)]
    have hroom' : ¬ 131072 < s1.saf.sessions.length + bn blk.bits 264 260 + 1 := by omega
    simp only [hfrom, hnew, htcp, hroom', Bool.not_true, Bool.false_eq_true, if_false, Option.isSome_none]
    rw [hx, htcp]
    rfl

/-- Attaching and detaching (R406). -/
theorem attachRow_taken {s s1 : State} {k : MboxId} {blk : CmdBlock} {c : Cmd} {x : Ns} {detach : Bool} (ht : Taken s k 0x081 true blk c s1) (hread : blk.readFails = false)
    (hfrom : fromPf0 c = true) (hres : bodyReserved blk.bits [(15, 15)] 29 = true) (hns : s1.ns (bn blk.bits 14 0) = some x) (hkept : x.deleting = none)
    (hform : bt blk.body 28 = detach) : attachRow detach k blk s =
      if x.fns.contains (bn blk.bits 27 16) != detach then answers true s1 c success
      else answers true (nsChanged (s1.setNs (bn blk.bits 14 0) { x with
        fns := if detach then x.fns.erase (bn blk.bits 27 16) else x.fns ++ [bn blk.bits 27 16] }) (bn blk.bits 27 16) (bn blk.bits 14 0)) c success := by
  simp only [attachRow, hread, hform, bne_self_eq_false, Bool.and_false, Bool.false_eq_true, if_false]
  rw [fwCommand_taken ht]
  simp only [hfrom, hres, hns, hkept, Bool.not_true, Bool.false_eq_true, if_false, Option.isSome_none]
  by_cases h : (x.fns.contains (bn blk.bits 27 16) != detach) = true
  · rw [if_pos h, if_pos h]
    rfl
  · rw [if_neg h, if_neg h]
    rfl

/-- Settles O50, by the event. -/
theorem storageNamespacesAndSessions : Obligations.StorageNamespacesAndSessions := by
  unfold Obligations.StorageNamespacesAndSessions
  refine ⟨?_, ?_, ?_, deleteNs_gone, ?_, ?_, ?_, ?_⟩
  · rintro s s1 k blk c _ i x ht hfrom rfl hres hlow hhigh hnew hsize hsize' hbuf hbuf' htc hx
    exact safNsCreate_of_ok ht hfrom hres hlow hhigh hnew hsize hsize' hbuf hbuf' htc hx
  · rintro s s1 k blk c _ _ x ht hread hfrom hres rfl rfl hns hkept
    have hattach : exec (.safNsAttach k blk) s = .next (attachRow false k blk s) := rfl
    have hdetach : exec (.safNsDetach k blk) s = .next (attachRow true k blk s) := rfl
    refine ⟨fun hform hout => ?_, fun hform hin => ?_, fun hform hin => ?_⟩
    · rw [hattach, attachRow_taken ht hread hfrom hres hns hkept hform, if_neg (by simp [hout])]
      rfl
    · rw [hattach, attachRow_taken ht hread hfrom hres hns hkept hform, if_pos (by simp [hin])]
    · rw [hdetach, attachRow_taken ht hread hfrom hres hns hkept hform, if_neg (by simp [hin])]
      rfl
  · rintro s s1 k blk c _ x ht hfrom hres rfl hns hkept
    have harm : exec (.safNsDelete k blk) s = execSafNsDelete k blk s := rfl
    rw [harm, execSafNsDelete, fwCommand_taken ht]
    simp only [hfrom, hres, hns, hkept, Bool.not_true, Bool.false_eq_true, if_false, Option.isSome_none, Bool.or_false]
    refine ⟨fun hused => ?_, fun hfree hdiscard => ?_, fun hfree hkeep => ?_⟩
    · rw [if_pos (by simpa using hused)]
      rfl
    · simp only [hfree, hdiscard, List.isEmpty_nil, Bool.not_true, Bool.false_eq_true, if_false, if_true]
      rfl
    · simp only [hfree, hkeep, List.isEmpty_nil, Bool.not_true, Bool.false_eq_true, if_false]
  · exact fwRow_of_body (fun _ _ _ => rfl) fun s c b ⟨hfrom, hres⟩ => by
      have hallowed : (!fromPf0 c && c.fn != bn b 11 0) = false := by
        rcases hfrom with h | h <;> simp [h]
      simp only [hallowed, hres, Bool.not_true, Bool.false_eq_true, if_false]
      rfl
  · intro s n x hns
    have harm : exec (.nsReadyTimeout n) s = execNsReadyTimeout n s := rfl
    refine ⟨fun hup => ?_, fun hdown hqueues => ?_⟩
    · simp only [harm, execNsReadyTimeout, hns, hup, if_true]
    · have hnone : allNv (s.setNs n { x with ready := false }) = [] := by
        simp only [allNv, State.setNs, hqueues, List.map_nil, List.flatten_nil]
      simp only [harm, execNsReadyTimeout, hns, hdown, hnone, List.foldl_nil, Bool.false_eq_true, if_false]
  · intro s k x hsess
    obtain ⟨hadmin, hio, hup, hclosed⟩ := session_events hsess
    refine ⟨hadmin, hio, rfl, hup, hclosed, fun _ hqueue => ?_, fun hst => ?_⟩
    · simp only [failSess, hsess, hqueue, ne_eq, not_false_eq_true, if_true]
    · simp only [downSess, hsess, hst, if_true]
  · intro s s1 k x p
    refine ⟨fun n ht hsent hok hns => ?_, fun ht hsent => ?_, fun cid key b ht hcid hback hplain => ?_, fun key b d ht hback hdata hfits hmore => ?_,
      fun key b s2 bs ht hgo hback hfits hbytes => ?_, fun ht => ?_⟩
    · have harm : exec (.icResp k) s = execIcResp k s := rfl
      simp only [harm, execIcResp, pduRow_taken ht, hsent, hok, hns, ne_eq, not_true, if_false, Option.map_some, Option.getD_some]
    · have harm : exec (.icResp k) s = execIcResp k s := rfl
      simp only [harm, execIcResp, pduRow_taken ht, hsent, ne_eq, not_false_eq_true, if_true]
    · have harm : exec (.capsuleResp k) s = execCapsuleResp k s := rfl
      simp only [harm, execCapsuleResp, pduRow_taken ht, respCame, hcid, hback, hplain, Bool.false_eq_true, if_false]
    · have harm : exec (.c2hData k) s = execC2hData k s := rfl
      simp only [harm, execC2hData, pduRow_taken ht, hback, hdata, Nat.not_lt.2 hfits, hmore, Nat.zero_ne_one, Bool.not_true, Bool.false_eq_true, if_false]
    · have harm : exec (.readyToTransfer k) s = execReadyToTransfer k s := rfl
      simp only [harm, execReadyToTransfer, headPdu_of_taken ht, if_true, hgo, Bool.false_eq_true, if_false, pduRow_taken ht, hback, Nat.not_lt.2 hfits, hbytes]
    · have harm : exec (.c2hTermReq k) s = execC2hTermReq k s := rfl
      simp only [harm, execC2hTermReq, pduRow_taken ht]

end Sys2Proof.Machine
end

section
/-! PROOFS. The reliability units in time (R26, R79, R80, R97, R98, R505, R506, R508 to R510, R513, R514, R522). -/

namespace Sys2Proof.Machine

open Sys2Proof

/-- Noting a unit for the retirement map changes the journal alone. -/
theorem rgn_note (s : State) (u r : Nat) : (s.note u).rgn r = s.rgn r := by
  unfold State.note
  split <;> rfl

theorem rel_note (s : State) (u : Nat) : (s.note u).rel = s.rel := by
  unfold State.note
  split <;> rfl

/-! Trouble counters (R506). -/

/-- What thresholds a unit has reached, of the four counters with their values and their rises. -/
def overLimits (p : W64) (t : Trouble) : List (Nat × Nat × Nat) :=
  [(0, t.ce, t.ce - t.ceBase), (1, t.ue, t.ue), (2, t.tmo, t.tmo), (3, t.fx, t.fx)].filter (fun x => bn p (16 * x.1 + 15) (16 * x.1) != 0 && decide (bn p (16 * x.1 + 15) (16 * x.1) ≤ x.2.2))

/-- A unit whose CE counter has not stopped: each threshold it has reached is acted on. -/
theorem checkTrouble_eq {s : State} {u : Nat} {t : Trouble} (hce : t.ce < 65535) :
    checkTrouble s u t = (overLimits (policyOf s (unitKind u)) t).foldl (fun s x => crossed u s x.1 x.2.1) s := by
  unfold checkTrouble
  exact if_pos hce

/-- Where no threshold but that of UE is reached, UE's decides. -/
theorem overLimits_eq {p : W64} {t : Trouble} (hce : bn p 15 0 ≠ 0 → t.ce < bn p 15 0 + t.ceBase) (htmo : bn p 47 32 ≠ 0 → t.tmo < bn p 47 32)
    (hfx : bn p 63 48 ≠ 0 → t.fx < bn p 63 48) : overLimits p t = if bn p 31 16 ≠ 0 ∧ bn p 31 16 ≤ t.ue then [(1, t.ue, t.ue)] else [] := by
  have hce' : (bn p 15 0 != 0 && decide (bn p 15 0 ≤ t.ce - t.ceBase)) = false := by
    by_cases h : bn p 15 0 = 0
    · simp [h]
    · have := hce h
      simp only [Bool.and_eq_false_iff, decide_eq_false_iff_not]
      exact Or.inr (by omega)
  have htmo' : (bn p 47 32 != 0 && decide (bn p 47 32 ≤ t.tmo)) = false := by
    by_cases h : bn p 47 32 = 0
    · simp [h]
    · simp [Nat.not_le.2 (htmo h)]
  have hfx' : (bn p 63 48 != 0 && decide (bn p 63 48 ≤ t.fx)) = false := by
    by_cases h : bn p 63 48 = 0
    · simp [h]
    · simp [Nat.not_le.2 (hfx h)]
  simp only [overLimits, List.filter_cons, List.filter_nil, Nat.mul_zero, Nat.zero_add, Nat.mul_one, Nat.reduceAdd, Nat.reduceMul, hce', htmo', hfx', Bool.false_eq_true, if_false]
  by_cases h : bn p 31 16 ≠ 0 ∧ bn p 31 16 ≤ t.ue
  · rw [if_pos h, if_pos (by simpa using h)]
  · rw [if_neg h, if_neg (by simpa using h)]

theorem crossed_cases (s : State) (u c v : Nat) : (s.retired u = true → crossed u s c v = s) ∧
    (s.retired u = false → endsService s u = true → crossed u s c v = (verdEvent s 3).event none 0x10 (u + at_ 16 c + at_ 32 v + at_ 48 0)) ∧
    (s.retired u = false → endsService s u = false → (∀ p ∈ s.rel.planned, p.1 ≠ u) →
      crossed u s c v = planRetire ((verdEvent s 3).event none 0x10 (u + at_ 16 c + at_ 32 v + at_ 48 1)) u 0) := by
  refine ⟨fun hretired => if_pos hretired, fun hlive hends => ?_, fun hlive hends hunasked => ?_⟩
  · simp only [crossed, hlive, hends, Bool.not_true, Bool.false_and, Bool.false_eq_true, if_false]
    rfl
  · have hnone : s.rel.planned.any (fun p => p.1 == u) = false := List.any_eq_false.2 fun p hp => by simp [hunasked p hp]
    simp only [crossed, hlive, hends, hnone, Bool.not_false, Bool.and_self, Bool.false_eq_true, if_false, if_true]
    rfl

/-! Margins and retention (R509, R510). -/

/-- A check of a region in service, by its outcome. -/
theorem marginCheck_cases {s : State} {r : Nat} {n tj age : W32} {v : VerdRgn} (hr : r < 16) (hserving : (s.rgn r).rstate = .inService) (hkept : (s.rgn r).retiring = 0)
    (hv : mgetD s.rel.verd r {} = v) : ∃ u : State, u.rgn r = { s.rgn r with rate := n, tj := tj } ∧ u.rel.event = s.rel.event ∧
      (mgetD u.rel.verd r {}).age = age.toNat ∧ (mgetD u.rel.verd r {}).tmax = v.tmax ∧
      (marginOk n.toNat tj.toInt v.tmax = true → exec (.marginCheck r n tj age) s = .next u) ∧
      (marginOk n.toNat tj.toInt v.tmax = false → (s.rgn r).offset < 60 → exec (.marginCheck r n tj age) s =
        .next ((verdEvent (u.setRgn r { u.rgn r with offset := (s.rgn r).offset + 5, vset := (s.rgn r).vset + 5 }) 0).note (unitId r 7 0))) ∧
      (marginOk n.toNat tj.toInt v.tmax = false → 60 ≤ (s.rgn r).offset → 85 < v.tmax → exec (.marginCheck r n tj age) s =
        .next (derate u r (([95, 90, 85].find? (marginOk n.toNat tj.toInt)).getD 85))) := by
  have harm : exec (.marginCheck r n tj age) s = execMarginCheck r n tj age s := rfl
  have hserves : ¬ (((s.rgn r).rstate ≠ .inService ∧ (s.rgn r).rstate ≠ .resetting) ∨ (s.rgn r).retiring ≠ 0) := by
    rw [hserving, hkept]
    decide
  have hchoose : ∀ k, mgetD (s.choose k).2.rel.verd r {} = v := fun _ => hv
  simp only [harm, execMarginCheck, Nat.not_le.2 hr, hserves, if_false, hv]
  refine ⟨_, ?_, ?_, ?_, ?_, fun hok => if_pos hok, fun hbad hlow => ?_, fun hbad hhigh htmax => ?_⟩
  · exact mgetD_mset_same ..
  · rfl
  · rw [mgetD_mset_same]
  · rw [mgetD_mset_same]
  · rw [if_neg (by simp [hbad]), if_pos hlow]
  · rw [if_neg (by simp [hbad]), if_neg (by omega), if_pos htmax]

/-- The shortest interval is allowed wherever the retention is not below 16 ms. -/
theorem one_mem_refreshCodes {ms : Nat} (tj : Int) (h : 16 ≤ ms) : 1 ∈ refreshCodes ms tj := by
  simp only [refreshCodes, List.mem_map, List.mem_filter]
  exact ⟨(1, 8), ⟨by simp, by simp [h]⟩, rfl⟩

theorem getD_mem {α : Type} {xs : List α} {k : Nat} (d : α) (h : k < xs.length) : xs.getD k d ∈ xs := by
  rw [List.getD_eq_getElem _ _ h]
  exact List.getElem_mem h

/-- Settles O51, by the event. -/
theorem reliabilityInTime : Obligations.ReliabilityInTime := by
  unfold Obligations.ReliabilityInTime
  refine ⟨?_, ?_, ?_, ?_, ?_, ?_, ?_, ?_, crossed_cases, ?_, ?_, ?_, ?_, ?_, ?_, ?_, ?_⟩
  · intro s s0 ups hups
    have harm : exec (.scrubRead ups) s = execScrubRead ups s := rfl
    refine ⟨fun hskip => ?_, fun s1 hread hresolved => ?_⟩
    · simp only [harm, execScrubRead, hups, hskip, Bool.false_eq_true, if_false]
    · simp only [harm, execScrubRead, hups, hread, hresolved, if_true]
  · intro s k d c hnext
    have harm : exec (.refreshRound k d) s = execRefreshRound k d s := rfl
    simp only [harm, execRefreshRound, hnext]
  · intro s k m pp hserving hcopies hmoves hpage hstack
    have harm : exec (.pageMigrated k) s = execPageMigrated k s := rfl
    simp only [harm, execPageMigrated, hserving, hcopies, hmoves, if_false, List.find?_nil, List.find?_cons, hpage, hstack, beq_self_eq_true, List.erase_cons_head]
  · intro s k c hserving hcopy
    have harm : exec (.pageMigrated k) s = execPageMigrated k s := rfl
    simp only [harm, execPageMigrated, hserving, hcopy, if_false]
  · intro s u hvalid
    have harm : exec (.handshakeStallTimeout u) s = execHandshakeStallTimeout u s := rfl
    rw [harm, execHandshakeStallTimeout, if_pos hvalid]
  · intro s u lost
    have harm : exec (.unitFault u lost) s = execUnitFault u lost s := rfl
    refine ⟨fun hvalid hlive => ?_, fun hnone => ?_⟩
    · simp only [harm, execUnitFault, hvalid, hlive, Bool.not_true, Bool.or_self, Bool.false_eq_true, if_false]
    · rw [harm, execUnitFault, if_pos (by rcases hnone with h | h <;> simp [h])]
  · intro s u t htrouble hvalid hspan
    have harm : exec .troubleCheck s = execTroubleCheck s := rfl
    have hspan' : s.now - s.rel.ceSpan < 86400000000000 := by omega
    simp only [harm, execTroubleCheck, htrouble, List.foldl_cons, List.foldl_nil, hvalid, hspan', if_true]
  · rintro s u t _ rfl hce hrise htmo hfx
    rw [checkTrouble_eq hce, overLimits_eq hrise htmo hfx]
    refine ⟨fun hue => ?_, fun hset hue => ?_⟩
    · rw [if_neg fun h => absurd (hue h.1) (Nat.not_lt.2 h.2)]
      rfl
    · rw [if_pos ⟨hset, hue⟩]
      rfl
  · rintro s s1 rfl
    have harm : exec .umberMismatch s = execUmberMismatch s := rfl
    have hrestart : exec .umberRestartEnd s = execUmberRestartEnd s := rfl
    have hstarted : s.umb.phase = 7 → ¬ (1 ≤ s.umb.phase ∧ s.umb.phase ≤ 6) := by omega
    have at_zero : at_ 16 0 = 0 := rfl
    refine ⟨fun hphase hfirst => ?_, fun t hphase hlast hsoon => ?_, fun hrestarting => ?_⟩
    · simp only [harm, execUmberMismatch, hstarted hphase, hfirst, b2n, at_zero, Nat.add_zero, Bool.false_eq_true, if_false]
    · have hsoon' : decide (s.now - t < 1000000000) = true := decide_eq_true (by omega)
      simp only [harm, execUmberMismatch, hstarted hphase, hlast, hsoon', b2n, if_true, if_false]
    · simp only [hrestart, execUmberRestartEnd, hrestarting, Bool.not_true, Bool.false_eq_true, if_false]
  · intro s r n tj age v hr hserving hkept hv
    obtain ⟨u, hrgn, hevent, hage, htmax, hok, hlow, hhigh⟩ := marginCheck_cases (n := n) (tj := tj) (age := age) hr hserving hkept hv
    refine ⟨fun hgood => ⟨u, hok hgood, hrgn, hage, htmax, hevent⟩, fun hbad hoffset => ⟨_, hlow hbad hoffset, ?_, ?_⟩, fun hbad hoffset hwarm => ⟨_, hhigh hbad hoffset hwarm, ?_⟩⟩
    · rw [rgn_note, hrgn]
      exact mgetD_mset_same ..
    · rw [rel_note, ← hevent]
      rfl
    · rw [derate, rel_note]
      exact congrArg VerdRgn.tmax (mgetD_mset_same ..)
  · intro s x n tj age hx
    have harm : exec (.marginCheck (16 + x) n tj age) s = execMarginCheck (16 + x) n tj age s := rfl
    have hdie : 16 + x - 16 = x := by omega
    refine ⟨fun hok => ?_, fun hbad => ⟨raiseX s x, ?_, ?_, fun y hy => ?_⟩⟩
    · rw [harm, execMarginCheck, if_pos (by omega), if_neg (by simp [hok])]
    · rw [harm, execMarginCheck, if_pos (by omega), if_pos ⟨by omega, hbad⟩, hdie]
    · exact congrArg (750 + ·) (mgetD_mset_same ..)
    · exact congrArg (750 + ·) (mgetD_mset_ne _ _ _ hy)
  · intro s k d ms tj hk hd hlive
    have harm : exec (.retentionMeasure k d ms tj) s = execRetentionMeasure k d ms tj s := rfl
    have hmeasured : ¬ (32 ≤ k ∨ 14 ≤ d ∨ s.retired (dieUnit k d) = true) := by
      simp only [hlive, Bool.false_eq_true, or_false]
      omega
    refine ⟨fun hshort => ?_, fun hlong => ?_⟩
    · rw [harm, execRetentionMeasure, if_neg hmeasured, if_pos hshort]
    · have hpick : (s.choose (refreshCodes ms tj.toInt).length).1 < (refreshCodes ms tj.toInt).length :=
        Nat.mod_lt _ (List.length_pos_of_mem (one_mem_refreshCodes tj.toInt hlong))
      rw [harm, execRetentionMeasure, if_neg hmeasured, if_neg (by omega)]
      refine ⟨_, (refreshCodes ms tj.toInt).getD (s.choose (refreshCodes ms tj.toInt).length).1 1, rfl, getD_mem _ hpick, ?_, ?_⟩
      · simp only [State.stack, State.setStack, mgetD_mset_same, mget_mset_same, State.choose]
      · simp only [State.stack, State.setStack, mgetD_mset_same, mget_mset_same]
  · intro s
    have harm : exec (.swatchPeriodic []) s = execSwatchPeriodic [] s := rfl
    simp only [harm, execSwatchPeriodic, List.eraseDups_nil, List.filterMap_nil, List.length_nil, List.foldl_nil]
    exact ⟨_, Nat.le_add_left .., rfl⟩
  · intro s c hc hnew htestable hlive hroom
    have harm : exec (.idleClusterTest c) s = execIdleClusterTest c s := rfl
    rw [harm, execIdleClusterTest, hnew, if_neg (by simp [htestable, hlive]; omega)]
  · intro s a b hjournal
    have harm : exec (.rmapJournalWrite a b) s = execRmapJournalWrite a b s := rfl
    have hwaits : s.fab.journal.isEmpty = false := by simpa using hjournal
    simp only [harm, execRmapJournalWrite, writeMap, flushJournal, hwaits, Bool.false_eq_true, if_false]
    refine ⟨fun hone => ?_, fun ha hb => ?_⟩
    · rw [if_pos (by rcases hone with h | h <;> simp [h])]
      exact ⟨_, rfl, rfl, rfl, rfl, rfl, rfl⟩
    · rw [ha, hb]
      rfl
  · intro s b hA hB hjournal
    have harm : exec (.rmapRetry true b) s = execRmapRetry true b s := rfl
    simp only [harm, execRmapRetry, writeMap, flushJournal, hA, hB, hjournal, List.isEmpty_nil, Bool.and_false, Bool.false_and, Bool.or_false, Bool.true_or, Bool.false_eq_true,
      if_false, if_true]

end Sys2Proof.Machine
end

section
/-! PROOFS. Swatch's tests and the commands of the reliability units (R21, R506, R507, R513, R514, R521, R523). -/

namespace Sys2Proof.Machine

open Sys2Proof

/-- With nothing before it, a test that nothing refuses starts at once (R521). -/
theorem queueTest_of_idle {s : State} {t u : Nat} (cmd : Nat) (hidle : s.rel.running = false) (hempty : s.rel.tests = []) (hok : testRefusal s t u = none) (hplain : 3 < t) :
    queueTest s t u cmd = { s with rel := { s.rel with tests := [{ test := t, unit := u, cmd := cmd }], running := true } } := by
  have hsame : ∀ x, testRefusal { s with rel := x } t u = testRefusal s t u := fun _ => rfl
  simp only [queueTest, hempty, List.nil_append, startTest, hidle, hsame, hok, Nat.not_le.2 hplain, Bool.false_eq_true, if_false]

/-- The state in which the outcome of the running test stands (R521, R523). -/
def testJudged (s : State) (t : SwTest) (ts : List SwTest) (sig : W64) (outcome : Nat) : State :=
  let s1 := testLeaves (s.count SWAT_RUNS) t.test t.unit
  testOutcome { s1 with rel := { s1.rel with tests := ts, running := false, sig := if t.test = 1 ∨ t.test = 8 then sig else s1.rel.sig } } t.test t.unit outcome

theorem swatResult_testJudged (s : State) (t : SwTest) (ts : List SwTest) (sig : W64) (outcome : Nat) :
    swatResult (testJudged s t ts sig outcome) = t.test + at_ 8 outcome + at_ 16 t.unit := rfl

theorem exec_swatchTestDone {s : State} {t : SwTest} {ts : List SwTest} (hfirst : s.rel.tests = t :: ts) (hruns : s.rel.running = true) (named : Option Nat) (sig : W64) :
    exec (.swatchTestDone true named sig) s = .next (afterUnit (startTest 17 (testOver (replyTo (testJudged s t ts sig 1) t.cmd
      { status := .success, r0 := swatResult (testJudged s t ts sig 1), r1 := (testJudged s t ts sig 1).rel.sig.toNat }) t.unit))) ∧
    exec (.swatchTestDone false named sig) s = .next (afterUnit (startTest 17 (testOver (replyTo (testFails ((testJudged s t ts sig 2).count SWAT_FAILS) t.test t.unit named) t.cmd
      { status := .unitFault, r0 := swatResult (testJudged s t ts sig 2), r1 := (testJudged s t ts sig 2).rel.sig.toNat }) t.unit))) := by
  have harm : ∀ pass, exec (.swatchTestDone pass named sig) s = execSwatchTestDone pass named sig s := fun _ => rfl
  simp only [harm, execSwatchTestDone, hfirst, hruns, testJudged, Bool.not_true, Bool.false_eq_true, if_false, if_true, and_self]

/-- Settles O52, by the event. -/
theorem selfTestsAndReliabilityCommands : Obligations.SelfTestsAndReliabilityCommands := by
  unfold Obligations.SelfTestsAndReliabilityCommands
  refine ⟨?_, fun s t u cmd hidle hempty hok hplain => ⟨_, queueTest_of_idle cmd hidle hempty hok hplain, rfl, rfl⟩,
    fun s t ts named sig hfirst hruns => ⟨_, (exec_swatchTestDone hfirst hruns named sig).1, rfl, rfl, swatResult_testJudged ..⟩,
    fun s t ts named sig hfirst hruns => ⟨_, (exec_swatchTestDone hfirst hruns named sig).2, swatResult_testJudged ..⟩, ?_, ?_, ?_, ?_, ?_, ?_, ?_, ?_, ?_, ?_⟩
  · rintro s s1 k blk c _ _ ht hfrom hres rfl rfl
    have harm : exec (.swatRun k blk) s = execSwatRun k blk s := rfl
    rw [harm, execSwatRun, fwCommand_taken ht]
    simp only [hfrom, hres, Bool.not_true, Bool.false_eq_true, if_false]
    refine ⟨fun st hrefused => ?_, fun hok hroom => ?_, fun hok hfull => ?_⟩
    · simp only [hrefused]
      rfl
    · simp only [hok, Nat.not_le.2 hroom, if_false]
    · simp only [hok, hfull, if_true]
      rfl
  · rintro s v s1 rfl hfree hgo
    have harm : exec (.swatCtrlGo v) s = execSwatCtrlGo v s := rfl
    simp only [harm, execSwatCtrlGo, hfree, hgo, Bool.not_true, Bool.or_self, Bool.false_eq_true, if_false]
    refine ⟨fun hok hroom => ?_, fun hrefused => ?_⟩
    · simp only [hok, Option.isSome_none, Bool.false_or, decide_eq_true_eq, Nat.not_le.2 hroom, if_false]
    · rw [if_pos (Bool.or_eq_true_iff.2 (Or.inl (Option.isSome_iff_ne_none.2 hrefused)))]
  · intro s v hlocked
    have harm : exec (.swatCtrlGo v) s = execSwatCtrlGo v s := rfl
    simp only [harm, execSwatCtrlGo, hlocked, Bool.not_false, Bool.true_or, if_true]
  · exact fwLaterRow_of_body (fun _ _ _ => rfl) fun s c b ⟨hfrom, hres, hvalid, hserving, hdomain, hspared⟩ => by
      simp only [hfrom, hres, hvalid, hserving, hdomain, hspared, ne_eq, not_true, decide_false, Bool.not_true, Bool.false_and, Bool.or_self, Bool.false_eq_true, if_false]
  · exact fwRow_of_body (fun _ _ _ => rfl) fun s c b ⟨hfrom, hres, hvalid, hserving, hdomain, hends⟩ => by
      simp only [hfrom, hres, hvalid, hserving, hdomain, hends, ne_eq, not_true, decide_false, Bool.not_true, Bool.false_and, Bool.or_self, Bool.false_eq_true, if_false, if_true]
      rfl
  · exact fwRow_of_body (fun _ _ _ => rfl) fun s c b ⟨hfrom, hres, hone, hvalid⟩ => by
      simp only [hfrom, hres, hone, hvalid, Bool.not_true, Bool.and_false, Bool.or_self, Bool.false_eq_true, if_false]
      rfl
  · exact fwRow_of_body (fun _ _ _ => rfl) fun s c b ⟨hfrom, hres, hall⟩ => by
      simp only [hfrom, hres, hall, Bool.not_true, Bool.false_and, Bool.or_self, Bool.false_eq_true, if_false, if_true]
      rfl
  · intro s u
    unfold clearTrouble
    split
    · exact mgetD_mset_same ..
    · next hnone => rw [mgetD, Option.not_isSome_iff_eq_none.1 hnone, Option.getD_none]
  · exact fwRow_of_body (fun _ _ _ => rfl) fun s c b ⟨hfrom, hres⟩ => by
      simp only [hfrom, hres, Bool.not_true, Bool.false_eq_true, if_false]
      rfl
  · exact fwRow_of_body (fun _ _ _ => rfl) fun s c b ⟨hfrom, hres, hcopy⟩ => by
      have hread : (!s.rel.copyA && !s.rel.copyB) = false := by
        rcases hcopy with h | h <;> simp [h]
      simp only [hfrom, hres, hread, Bool.not_true, Bool.false_eq_true, if_false]
  · exact fwLaterRow_of_body (fun _ _ _ => rfl) fun s c b ⟨hfrom, hres, hword⟩ => by
      simp only [hfrom, hres, hword, ne_eq, not_true, decide_false, Bool.not_true, Bool.or_self, Bool.false_eq_true, if_false]

end Sys2Proof.Machine
end

section
/-! PROOFS. Telemetry (R515, R516, R518, R519). -/

namespace Sys2Proof.Machine

open Sys2Proof

/-! Collectors: what is written to one is read of it, and the others stay. -/

@[simp] theorem State.coll_setColl_same (s : State) (i : Nat) (c : Collector) : (s.setColl i c).coll i = c := mgetD_mset_same ..

theorem State.coll_setColl_ne (s : State) {i j : Nat} (c : Collector) (h : j ≠ i) : (s.setColl i c).coll j = s.coll j := mgetD_mset_ne _ _ _ h

@[simp] theorem State.coll_count (s : State) (r n : Nat) (i : Nat) : (s.count r n).coll i = s.coll i := rfl

/-- A frame of firmware's own changes nothing of the collectors on its way to Weld. -/
theorem coll_handToWeld {s : State} {f : EFrame} (p key i : Nat) (h : f.cmd = 0) : (handToWeld s p key f).coll i = s.coll i := by
  unfold handToWeld discardFrame
  simp only [h, if_true]
  split <;> rfl

theorem coll_sendIpfix_same (s : State) (i n : Nat) (sets : List Byte) : (sendIpfix s i n sets).coll i = { s.coll i with seq := ((s.coll i).seq + n) % 2 ^ 32 } := by
  unfold sendIpfix
  dsimp only
  rw [State.coll_count, coll_handToWeld _ _ _ rfl, State.coll_setColl_same]

theorem coll_sendIpfix_ne (s : State) {i j : Nat} (n : Nat) (sets : List Byte) (h : j ≠ i) : (sendIpfix s i n sets).coll j = s.coll j := by
  unfold sendIpfix
  dsimp only
  rw [State.coll_count, coll_handToWeld _ _ _ rfl, State.coll_setColl_ne _ _ h]

/-- Each message moves the Sequence Number on by its data records (R516). -/
theorem seq_sendMsgs (i : Nat) (ms : List (List SRec)) (s : State) :
    ((ms.foldl (fun s m => sendIpfix s i m.length (setsOf m)) s).coll i).seq % 2 ^ 32 = ((s.coll i).seq + (ms.map List.length).sum) % 2 ^ 32 := by
  induction ms generalizing s with
  | nil => rfl
  | cons m ms ih =>
    rw [List.foldl_cons, ih, coll_sendIpfix_same, List.map_cons, List.sum_cons, ← Nat.add_assoc, Nat.mod_add_mod]

theorem coll_sendMsgs_ne {i j : Nat} (h : j ≠ i) (ms : List (List SRec)) (s : State) : (ms.foldl (fun s m => sendIpfix s i m.length (setsOf m)) s).coll j = s.coll j := by
  induction ms generalizing s with
  | nil => rfl
  | cons m ms ih => rw [List.foldl_cons, ih, coll_sendIpfix_ne _ _ _ h]

/-- Packing keeps every record. -/
theorem length_packMsgs (rs cur : List SRec) (size : Nat) : ((packMsgs rs cur size).map List.length).sum = cur.length + rs.length := by
  induction rs generalizing cur size with
  | nil => cases cur <;> simp [packMsgs]
  | cons r rs ih =>
    unfold packMsgs
    dsimp only
    generalize r.bytes.length + _ = grow
    split
    · next h => rw [ih, List.isEmpty_iff.1 h, List.length_cons, List.length_nil, List.length_cons]; omega
    · split
      · rw [ih, List.length_append, List.length_cons, List.length_nil, List.length_cons]; omega
      · rw [List.map_cons, List.sum_cons, ih, List.length_cons, List.length_nil, List.length_cons]; omega

/-! What RATE allows (R515, R519). -/

/-- The records that RATE allows are the first ones, and they take their bits of the credit. -/
theorem withinRate_prefix (c : Nat) (rs : List SRec) :
    ∃ dropped, rs = (withinRate c rs).1 ++ dropped ∧ 8 * ((withinRate c rs).1.map (·.bytes.length)).sum + (withinRate c rs).2 = c := by
  induction rs generalizing c with
  | nil => exact ⟨[], rfl, by simp [withinRate]⟩
  | cons r rs ih =>
    unfold withinRate
    by_cases h : 8 * r.bytes.length ≤ c
    · obtain ⟨dropped, hsplit, hbits⟩ := ih (c - 8 * r.bytes.length)
      rw [if_pos h]
      refine ⟨dropped, congrArg (r :: ·) hsplit, ?_⟩
      simp only [List.map_cons, List.sum_cons]
      omega
    · rw [if_neg h]
      exact ⟨r :: rs, rfl, by simp⟩

theorem length_withinRate_le (c : Nat) (rs : List SRec) : (withinRate c rs).1.length ≤ rs.length := by
  obtain ⟨dropped, hsplit, _⟩ := withinRate_prefix c rs
  have hlength := congrArg List.length hsplit
  rw [List.length_append] at hlength
  omega

/-! Export (R516, R519). -/

theorem exportRecs_of_disabled {s : State} {i : Nat} (rs : List SRec) (h : (s.coll i).en = false) : exportRecs s i rs = s := by
  simp only [exportRecs, h, Bool.not_false, if_true]

/-- Templates move no Sequence Number. -/
theorem seq_sendTemplates (s : State) (i : Nat) : ((sendTemplates s i).coll i).seq = (s.coll i).seq % 2 ^ 32 := by
  unfold sendTemplates
  dsimp only
  rw [coll_sendIpfix_same, State.coll_setColl_same]
  rfl

theorem seq_templatesFirst (s : State) (i : Nat) (due : Bool) : ((if due then sendTemplates s i else s).coll i).seq % 2 ^ 32 = (s.coll i).seq % 2 ^ 32 := by
  cases due
  · rfl
  · exact (congrArg (· % 2 ^ 32) (seq_sendTemplates s i)).trans (Nat.mod_mod ..)

/-- The Sequence Number counts every record, whatever becomes of it (R516, R519). -/
theorem seq_exportRecs {s : State} {i : Nat} (rs : List SRec) (h : exporting s i) : ((exportRecs s i rs).coll i).seq = ((s.coll i).seq + rs.length) % 2 ^ 32 := by
  obtain ⟨hen, hport, haddr⟩ := h
  unfold exportRecs
  simp only [hen, hport, haddr, Bool.not_true, Bool.false_eq_true, if_false]
  by_cases hup : (s.eth (s.coll i).port).up = true
  · simp only [hup, Bool.not_true, Bool.false_eq_true, if_false]
    have hcount : ∀ (u : State) (n : Nat), ((if n = 0 then u else u.count (SIEN_EXP_DROP i) n).coll i) = u.coll i := fun u n => by split <;> rfl
    have hlength := length_withinRate_le (rateCredit s (s.coll i)) rs
    rw [hcount, State.coll_setColl_same]
    dsimp only
    rw [Nat.add_mod, seq_sendMsgs, State.coll_setColl_same, length_packMsgs, List.length_nil, Nat.zero_add, ← Nat.add_mod, Nat.add_assoc,
      Nat.add_sub_cancel' hlength, Nat.add_mod, seq_templatesFirst, ← Nat.add_mod]
  · simp only [hup, Bool.not_false, if_true]
    rw [State.coll_count, State.coll_setColl_same]

/-- Exporting to one collector leaves the others as they are. -/
theorem coll_exportRecs_ne (s : State) {i j : Nat} (rs : List SRec) (h : j ≠ i) : (exportRecs s i rs).coll j = s.coll j := by
  have htemplates : (sendTemplates s i).coll j = s.coll j := by
    unfold sendTemplates
    dsimp only
    rw [coll_sendIpfix_ne _ _ _ h, State.coll_setColl_ne _ _ h]
  have hfirst : (if (s.coll i).due then sendTemplates s i else s).coll j = s.coll j := by
    split
    · exact htemplates
    · rfl
  unfold exportRecs
  dsimp only
  split
  · rfl
  split
  · exact State.coll_setColl_ne _ _ h
  split
  · rfl
  split
  · rw [State.coll_count, State.coll_setColl_ne _ _ h]
  · have hcount : ∀ (u : State) (n : Nat), ((if n = 0 then u else u.count (SIEN_EXP_DROP i) n).coll j) = u.coll j := fun u n => by split <;> rfl
    rw [hcount, State.coll_setColl_ne _ _ h, coll_sendMsgs_ne h, State.coll_setColl_ne _ _ h, hfirst]

/-- The samples of the collectors from `i` on, where none has any. -/
theorem flushSamples_of_none (is : List Nat) (s : State) (h : ∀ i ∈ is, (s.coll i).samples = []) :
    is.foldl (fun s i => if (s.coll i).samples.isEmpty then s else exportRecs (s.setColl i { s.coll i with samples := [] }) i ((s.coll i).samples.map (fun r => { id := r.1, bytes := r.2 }))) s = s := by
  induction is with
  | nil => rfl
  | cons i is ih =>
    have hnone : (s.coll i).samples.isEmpty = true := by rw [h i (List.mem_cons_self ..)]; rfl
    rw [List.foldl_cons, if_pos hnone]
    exact ih fun j hj => h j (List.mem_cons_of_mem _ hj)

/-- The rounds while core 7 runs. -/
theorem export_rounds {s : State} (i : Nat) (hruns : pcoreRuns s 7 = true) :
    exec (.exportInterval i) s = .next (exportRecs s i (roundRecs s (s.coll i))) ∧
    ((s.coll i).en = true → exec (.templateRefresh i) s = .next (exportRecs (s.setColl i { s.coll i with due := true }) i [])) ∧
    ((∀ j, (s.coll j).samples = []) → exec .sampledRecordFlush s = .next s) ∧
    ((s.coll 0).samples ≠ [] → (∀ j, 0 < j → (s.coll j).samples = []) → exec .sampledRecordFlush s =
      .next (exportRecs (s.setColl 0 { s.coll 0 with samples := [] }) 0 ((s.coll 0).samples.map (fun r => { id := r.1, bytes := r.2 })))) := by
  have hinterval : exec (.exportInterval i) s = execExportInterval i s := rfl
  have hrefresh : exec (.templateRefresh i) s = execTemplateRefresh i s := rfl
  have hflush : exec .sampledRecordFlush s = execSampledRecordFlush s := rfl
  simp only [hinterval, hrefresh, hflush, execExportInterval, execTemplateRefresh, execSampledRecordFlush, hruns, Bool.not_true, Bool.or_false, Bool.false_eq_true, if_false, if_true]
  refine ⟨trivial, fun hen => ?_, fun hnone => ?_, fun hsome hothers => ?_⟩
  · rw [hen]
    rfl
  · exact congrArg _ (flushSamples_of_none (List.range 4) s fun j _ => hnone j)
  · have hsome' : (s.coll 0).samples.isEmpty = false := by simpa using hsome
    have hrange : List.range 4 = 0 :: [1, 2, 3] := rfl
    rw [hrange, List.foldl_cons, hsome', if_neg (by decide)]
    refine congrArg _ (flushSamples_of_none [1, 2, 3] _ fun j hj => ?_)
    have hj0 : 0 < j := by
      simp only [List.mem_cons, List.not_mem_nil, or_false] at hj
      omega
    rw [coll_exportRecs_ne _ _ (by omega), State.coll_setColl_ne _ _ (by omega)]
    exact hothers j hj0

/-- Settles O53, by the event. -/
theorem telemetry : Obligations.Telemetry := by
  unfold Obligations.Telemetry
  refine ⟨?_, ?_, ?_, fun s i hruns => export_rounds i hruns, ?_, fun s i rs h => seq_exportRecs rs h, fun s i rs h => exportRecs_of_disabled rs h, ?_, withinRate_prefix⟩
  · exact fwRow_of_body (fun _ _ _ => rfl) fun s c b ⟨hfrom, hres, hoff⟩ => by
      simp only [hfrom, hres, hoff, Bool.not_true, Bool.not_false, Bool.false_eq_true, if_false, if_true]
      rfl
  · rintro s s1 k blk c _ _ ht hfrom hres hon hfields rfl rfl
    have harm : exec (.sienExport k blk) s = execSienExport k blk s := rfl
    rw [harm, execSienExport, fwCommand_taken ht]
    simp only [hfrom, hres, hon, hfields, Bool.not_true, Bool.false_eq_true, if_false]
    rfl
  · exact fwRow_of_body (fun _ _ _ => rfl) fun s c b ⟨hfrom, hres, hk⟩ => by
      simp only [hfrom, hres, Nat.not_lt.2 hk, decide_false, Bool.not_true, Bool.or_self, Bool.false_eq_true, if_false]
      rfl
  · intro s i hpaused
    have hinterval : exec (.exportInterval i) s = execExportInterval i s := rfl
    have hrefresh : exec (.templateRefresh i) s = execTemplateRefresh i s := rfl
    have hflush : exec .sampledRecordFlush s = execSampledRecordFlush s := rfl
    simp only [hinterval, hrefresh, hflush, execExportInterval, execTemplateRefresh, execSampledRecordFlush, hpaused, Bool.not_false, Bool.or_true, Bool.false_eq_true, if_false,
      if_true, and_self]
  · intro s i rs hen hretired
    simp only [exportRecs, hen, hretired, Bool.not_true, Bool.false_eq_true, if_false, if_true]

end Sys2Proof.Machine
end

section
/-! PROOFS. Supply, coolant and temperature (R415, R507, R529, R543, R544, R546, R549 to R551). -/

namespace Sys2Proof.Machine

open Sys2Proof

/-! What near memory leaves alone. -/

/-- An observation that memory, trouble counters, registers and free choices do not change. -/
structure OffMemory {γ : Type} (g : State → γ) : Prop where
  lake : ∀ (s : State) (x : Lake), g { s with lake := x } = g s
  fab : ∀ (s : State) (x : Fabric), g { s with fab := x } = g s
  regs : ∀ (s : State) (x : Map Nat), g { s with regs := x } = g s
  freeCtr : ∀ (s : State) (n : Nat), g { s with freeCtr := n } = g s

namespace OffMemory

variable {γ : Type} {g : State → γ} (h : OffMemory g)
include h

theorem count (s : State) (off n width : Nat) : g (s.count off n width) = g s := h.regs ..

theorem trouble (s : State) (u : Nat) (k : TroubleKind) (n : Nat) : g (s.trouble u k n) = g s := h.fab ..

theorem setBad (s : State) (pl n : Nat) : g (setBad s pl n) = g s := h.lake ..

theorem setPoison (s : State) (pl : Nat) (b : Bool) : g (setPoison s pl b) = g s := h.lake ..

theorem setEvent (s : State) (i : Nat) : g (setEvent s i) = g s := h.lake ..

theorem choose (s : State) (n : Nat) : g (s.choose n).2 = g s := h.freeCtr ..

theorem markPoison (s : State) (pl : Nat) : g (markPoison s pl) = g s := (h.setEvent ..).trans ((h.count ..).trans (h.setPoison ..))

theorem correctLine (s : State) (pl : Nat) : g (correctLine s pl) = g s := by
  unfold Machine.correctLine
  split
  · exact (h.trouble ..).trans ((h.count ..).trans (h.setBad ..))
  · rfl

theorem resolveLine (s : State) (pl : Nat) : g (resolveLine s pl).1 = g s := by
  have hothers : ∀ (c : Bool) (p : State → Nat → Bool) (l : Nat → Nat) (rs : List Nat), g (if c then rs.foldl (fun s r => if p s r then Machine.correctLine s (l r) else s) s else s) = g s := by
    intro c p l rs
    cases c
    · rfl
    · refine foldl_frame g (f := fun s r => if p s r then Machine.correctLine s (l r) else s) (fun s r => ?_) rs s
      split
      · exact h.correctLine ..
      · rfl
  unfold Machine.resolveLine
  dsimp only
  split
  · rfl
  split
  · exact h.correctLine ..
  split
  · split
    · rw [h.setBad, h.setEvent, h.count, h.trouble]
      exact hothers ..
    · rw [h.setEvent, h.count, h.trouble]
      exact hothers ..
  · exact (h.markPoison ..).trans ((h.trouble ..).trans (hothers _ _ _ _))

theorem resolveAt (s : State) (pl a : Nat) : g (resolveAt s pl a).1 = g s := by
  have hline := h.resolveLine s pl
  unfold Machine.resolveAt
  split
  · rfl
  · split
    · next heq => exact (congrArg (fun x : State × Bool => g x.1) heq).symm.trans hline
    · next s1 heq =>
      have hs1 : g s1 = g s := (congrArg (fun x : State × Bool => g x.1) heq).symm.trans hline
      split
      · exact hs1
      · dsimp only
        split
        · exact (h.setBad ..).trans ((h.setPoison ..).trans ((h.choose s1 2).trans hs1))
        · exact (h.choose s1 2).trans hs1

theorem readLine (s : State) (a : Nat) : g (readLine s a).1 = g s := by
  unfold Machine.readLine
  split
  · rfl
  · exact h.resolveAt ..

theorem readLines (n : Nat) (s : State) (l : Nat) : g (readLines n s l).1 = g s := by
  induction n generalizing s l with
  | zero => rfl
  | succ n ih => exact (ih ..).trans (h.readLine ..)

theorem lakeRead (s : State) (a len : Nat) : g (lakeRead s a len).1 = g s := h.readLines ..

/-- A save reads a page. -/
theorem savedPage (s : State) (p : BufPage) : g (savedPage s p).1 = g s := by
  have hread := h.lakeRead s (bufBase + 4096 * p.slot) 4096
  unfold Machine.savedPage
  dsimp only
  generalize Machine.lakeRead s (bufBase + 4096 * p.slot) 4096 = r at hread ⊢
  refine (foldl_frame (fun x : State × List Byte => g x.1) (fun x l => ?_) _ _).trans hread
  exact h.freeCtr ..

end OffMemory

theorem offMemory_umb : OffMemory (fun s : State => s.umb) := ⟨fun _ _ => rfl, fun _ _ => rfl, fun _ _ => rfl, fun _ _ => rfl⟩

/-! The image that a save writes (R415, R497). -/

/-- A fold that adds one element a step adds as many as it has steps. -/
theorem length_foldl_snoc {α β δ : Type} {f : α × List δ → β → α × List δ} (hf : ∀ x b, (f x b).2.length = x.2.length + 1) (bs : List β) (x : α × List δ) :
    (bs.foldl f x).2.length = x.2.length + bs.length := by
  induction bs generalizing x with
  | nil => rfl
  | cons b bs ih => rw [List.foldl_cons, ih, hf, List.length_cons, Nat.add_assoc, Nat.add_comm 1]

theorem writeImage_eq (s : State) : ∃ (t : State) (data : List (List Byte)), data.length = s.saf.pages.length ∧ t.umb = s.umb ∧
    writeImage s = { t.count SAFF_SAVES with saf := { s.saf with
      images := mset s.saf.images ((s.saf.newest + 1) % 8) (sealImage (vaultKeys s) (saltHash s) (nextImageSeq s) s.saf.pages data)
      newest := (s.saf.newest + 1) % 8
      vstate := 0
      erased := false } } := by
  refine ⟨_, _, ?_, ?_, rfl⟩
  · exact (length_foldl_snoc (fun _ _ => List.length_append ..) _ _).trans (Nat.zero_add _)
  · exact foldl_frame (fun x : State × List (List Byte) => x.1.umb) (fun x _ => offMemory_umb.savedPage x.1 _) _ _

/-- A fold that keeps the greatest so far keeps the greatest of all. -/
theorem foldl_keeps_greatest {α : Type} (rank : α → Nat) {f : Option α → α → Option α}
    (hf : ∀ m i, ∃ x, f m i = some x ∧ rank i ≤ rank x ∧ ∀ y, m = some y → rank y ≤ rank x) (is : List α) (m : Option α) :
    (∀ y, m = some y → ∃ x, is.foldl f m = some x ∧ rank y ≤ rank x) ∧ ∀ i ∈ is, ∃ x, is.foldl f m = some x ∧ rank i ≤ rank x := by
  induction is generalizing m with
  | nil => exact ⟨fun y hy => ⟨y, hy, Nat.le_refl _⟩, fun i hi => absurd hi List.not_mem_nil⟩
  | cons j is ih =>
    obtain ⟨z, hz, hj, hkeeps⟩ := hf m j
    obtain ⟨hfirst, hrest⟩ := ih (f m j)
    obtain ⟨x, hx, hzx⟩ := hfirst z hz
    refine ⟨fun y hy => ⟨x, hx, Nat.le_trans (hkeeps y hy) hzx⟩, fun i hi => ?_⟩
    rcases List.mem_cons.1 hi with rfl | hi
    · exact ⟨x, hx, Nat.le_trans hj hzx⟩
    · exact hrest i hi

/-- The next image is younger than every valid one (R497). -/
theorem imageSeq_lt_next {s : State} {i : Nat × List Byte} (hi : i ∈ s.saf.images) (hvalid : imageValid s i.2 = true) : imageSeq i.2 < nextImageSeq s := by
  have hmem : i ∈ s.saf.images.filter (fun i => !([] : List Nat).contains i.1 && imageValid s i.2) := List.mem_filter.2 ⟨hi, by simp [hvalid]⟩
  have hgreatest : ∃ x, newestImage s [] = some x ∧ imageSeq i.2 ≤ imageSeq x.2 := by
    refine (foldl_keeps_greatest (fun i : Nat × List Byte => imageSeq i.2) (fun m j => ?_) _ none).2 i hmem
    cases m with
    | none => exact ⟨j, rfl, Nat.le_refl _, fun y hy => nomatch hy⟩
    | some x =>
      by_cases h : imageSeq x.2 < imageSeq j.2
      · exact ⟨j, if_pos h, Nat.le_refl _, fun y hy => Option.some.inj hy ▸ Nat.le_of_lt h⟩
      · exact ⟨x, if_neg h, Nat.not_lt.1 h, fun y hy => Option.some.inj hy ▸ Nat.le_refl _⟩
  obtain ⟨x, hx, hle⟩ := hgreatest
  rw [nextImageSeq, hx]
  exact Nat.lt_succ_of_le hle

/-! Shutting down (R415, R507, R544, R551). -/

/-- The state in which a shutdown has begun: hosts held, PWRGD low. -/
def shuttingDown (s : State) (code : Nat) : State :=
  let s1 := guarded (powerGood (holdHosts s) 0) 1
  { s1 with umb := { s1.umb with shutting := true, lastShut := code, warming := none, barred := decide (code ≠ 5), allowed := false } }

theorem shutdown_cases {s : State} (code : Nat) (hon : s.umb.phase ≠ 0) (hrunning : s.umb.shutting = false) (hidle : s.saf.vstate ≠ 2) :
    (safArmed s = true → shutdown s code = saveStart (shuttingDown s code)) ∧ (safArmed s = false → shutdown s code = railsOff (flushJournal (shuttingDown s code))) := by
  have hidle' : ¬ (shuttingDown s code).saf.vstate = 2 := hidle
  have hshut : shutdown s code = if safArmed s = true then saveStart (shuttingDown s code) else railsOff (flushJournal (shuttingDown s code)) := by
    unfold shutdown
    rw [if_neg (by simp [hon, hrunning])]
    exact (if_neg hidle').trans rfl
  rw [hshut]
  exact ⟨fun h => if_pos h, fun h => if_neg (by simp [h])⟩

/-- Writing the journal empties it and touches nothing but the map. -/
theorem flushJournal_frame (s : State) : (flushJournal s).fab.journal = [] ∧ (flushJournal s).umb = s.umb ∧ (flushJournal s).saf = s.saf ∧ (flushJournal s).sec = s.sec ∧
    (flushJournal s).out = s.out := by
  unfold flushJournal
  split
  · next h => exact ⟨List.isEmpty_iff.1 h, rfl, rfl, rfl, rfl⟩
  · exact ⟨rfl, rfl, rfl, rfl, rfl⟩

/-- No function may issue once the hosts are held. -/
theorem bme_holdHosts (s : State) (f : Nat) : ((holdHosts s).fn f).bme = false := by
  refine mgetD_forall (p := fun x : Fn => x.bme = false) f rfl fun x hx => ?_
  obtain ⟨y, _, rfl⟩ := List.mem_map.1 hx
  rfl

/-- Past the mirror everything reads zero (R507). -/
theorem mirrorRead_beyond (s : State) {o : Nat} (n : Nat) (h : 0x100000 ≤ o) : mirrorRead s o n = 0 := by
  have hword : ∀ a, 0x100000 ≤ a → mirrorWord s a = 0 := fun a ha => by
    unfold mirrorWord
    simp only [show a ≠ 0 by omega, show a ≠ 8 by omega, show a ≠ 0x10 by omega, show a ≠ 0x20 by omega, show a ≠ 0x28 by omega, show a ≠ 0x40 by omega,
      show a ≠ 0x48 by omega, show a ≠ 0x50 by omega, show ¬ (0x40000 ≤ a ∧ a < 0x80000) by omega, show ¬ (0x80000 ≤ a ∧ a < 0x100000) by omega, if_false]
  simp only [mirrorRead, hword (o / 8 * 8) (by omega), hword (o / 8 * 8 + 8) (by omega), at_, Nat.zero_mul, Nat.add_zero, Nat.zero_div, Nat.zero_mod]

/-- An operation that Umber may start at once (R508). -/
theorem umberOp_of_running {s : State} {n : Nat} (h : s.umb.restarting = false) : umberOp s n = umberDo s n := by
  simp only [umberOp, h, Bool.false_eq_true, if_false]

/-- Settles O54, by the event. -/
theorem supplyAndEmergencies : Obligations.SupplyAndEmergencies := by
  unfold Obligations.SupplyAndEmergencies
  refine ⟨fun s a w => ⟨rfl, fun h => ?_⟩, ?_, ?_, ?_, ?_, ?_, ?_, ?_, ?_, ?_⟩
  · have harm : exec (.mgmtBusRead a w) s = execMgmtBusRead a w s := rfl
    rw [harm, execMgmtBusRead, mirrorRead_beyond s _ h]
  · rintro s _ rfl
    exact ⟨rfl, rfl, rfl, rfl, rfl, rfl⟩
  · rintro s _ rfl hrunning
    have hdo : ∀ (t : State) n, t.umb.restarting = false → n < 16 → next (umberOp t n) = .next (shutdown t n) :=
      fun t n h hn => congrArg _ ((umberOp_of_running h).trans (if_pos hn))
    exact ⟨hdo _ 1 hrunning (by decide), hdo _ 2 hrunning (by decide), hdo _ 3 hrunning (by decide), hdo _ 4 hrunning (by decide), hdo _ 5 hrunning (by decide),
      hdo _ 6 hrunning (by decide)⟩
  · intro s hrestarting hnone
    have harm : exec .standbyLost s = execStandbyLost s := rfl
    simp only [harm, execStandbyLost, umberOp, hrestarting, hnone, List.contains_nil, List.nil_append, Bool.false_eq_true, if_false, if_true]
  · intro s code hon hrunning hidle
    obtain ⟨hsave, hoff⟩ := shutdown_cases code hon hrunning hidle
    obtain ⟨hjournal, humb, hsaf, hsec, hout⟩ := flushJournal_frame (shuttingDown s code)
    refine ⟨fun harmed => ⟨_, hsave harmed, rfl, rfl, rfl, rfl, fun f => bme_holdHosts s f⟩, fun hdisarmed => ⟨_, hoff hdisarmed, rfl, ?_, ?_, hjournal, ?_, ?_, rfl, hout⟩⟩
    · exact congrArg Umber.lastShut humb
    · exact congrArg Umber.barred humb
    · exact (List.length_map ..).trans (congrArg (fun x : Saf => x.nss.length) hsaf)
    · have hlc := congrArg (fun x : Sec => x.lc) hsec
      exact hlc
  · rintro s _ hsaving rfl
    obtain ⟨t, data, hlength, humb, hwrite⟩ := writeImage_eq s
    have harm : exec .vaultSaveDone s = execVaultSaveDone s := rfl
    have humb' : (writeImage s).umb = s.umb := by rw [hwrite]; exact humb
    simp only [harm, execVaultSaveDone, hsaving, ne_eq, not_true, if_false, humb']
    refine ⟨⟨data, hlength, ?_⟩, ?_, fun i hi hvalid => imageSeq_lt_next hi hvalid, ?_, fun hshut => ?_, fun hrunning hwarm => ?_, fun hrunning hcold => ?_⟩
    · rw [hwrite]
      exact mget_mset_same ..
    · rw [hwrite]
    · rw [hwrite]
    · rw [if_pos hshut]
    · rw [hrunning, if_neg (by decide), if_pos (Option.isSome_iff_ne_none.2 hwarm)]
    · rw [hrunning, hcold]
      rfl
  · intro s d hd
    have harm : exec (.mgmtNodeWrite true d) s = execMgmtNodeWrite true d s := rfl
    simp only [harm, execMgmtNodeWrite, Nat.not_le.2 hd, decide_false, Bool.not_true, Bool.or_self, Bool.false_eq_true, if_false]
    refine ⟨fun hphase hrunning hfree => ?_, fun hused => ?_⟩
    · rw [if_pos ⟨hphase, hrunning, hfree⟩]
    · rw [if_neg (by simp [hused])]
  · intro s d hd
    have harm : exec (.mgmtSizeWrite true d) s = execMgmtSizeWrite true d s := rfl
    simp only [harm, execMgmtSizeWrite, Nat.not_lt.2 hd, decide_false, Bool.not_true, Bool.or_self, Bool.false_eq_true, if_false]
  · exact fun s d => ⟨rfl, rfl, rfl, rfl⟩
  · intro s hrunning
    have hstart : exec (.mgmtStartWrite true 0x53545254#32) s = execMgmtStartWrite true 0x53545254#32 s := rfl
    have hwarm : exec (.mgmtWarmWrite true 0x5741524D#32) s = execMgmtWarmWrite true 0x5741524D#32 s := rfl
    simp only [hstart, hwarm, execMgmtStartWrite, execMgmtWarmWrite, hrunning, ne_eq, not_true, decide_false, Bool.not_true, Bool.or_self, Bool.false_eq_true, if_false, true_and]
    intro hidle
    rw [umberOp_of_running hidle]
    rfl

end Sys2Proof.Machine
end

section
/-! PROOFS. A start, and a host write to a register (R6, R7, R385, R386, R393, R401, R525, R526, R529, R532, R533). -/

namespace Sys2Proof.Machine

open Sys2Proof

/-! A start (R525, R530, R533). -/

/-- What the keys of a start leave: a salt, the vault's keys, no erase pending. -/
theorem startKeys_sec (s : State) : (startKeys s).sec.salt ≠ none ∧ (startKeys s).sec.erasePending = false ∧ (startKeys s).sec.vaultKeys ≠ none ∧
    (startKeys s).sec.lc = s.sec.lc ∧ (startKeys s).sec.cause = s.sec.cause := by
  unfold startKeys
  dsimp only
  by_cases herase : s.sec.erasePending = true
  · simp only [herase, if_true]
    exact ⟨Option.some_ne_none _, rfl, Option.some_ne_none _, rfl, rfl⟩
  · have hkept : s.sec.erasePending = false := Bool.eq_false_iff.2 herase
    simp only [hkept, Bool.false_eq_true, if_false]
    split
    · next hsalt => exact ⟨hsalt ▸ Option.some_ne_none _, hkept, Option.some_ne_none _, rfl, rfl⟩
    · exact ⟨Option.some_ne_none _, hkept, Option.some_ne_none _, rfl, rfl⟩

/-- The keys of a start touch neither the units nor the reliability units. -/
theorem startKeys_frame (s : State) : (startKeys s).fab = s.fab ∧ (startKeys s).rel = s.rel := by
  unfold startKeys
  dsimp only
  split <;> split <;> exact ⟨rfl, rfl⟩

/-- A fundamental reset clears the counts of region resets (R35). -/
theorem resets_startState (s : State) (r : Nat) : ((startState s).rgn r).resets = 0 := by
  refine mgetD_forall (p := fun x : RegionSt => x.resets = 0) r rfl fun x hx => ?_
  obtain ⟨y, _, rfl⟩ := List.mem_map.1 hx
  rfl

/-- With no bank whose image verifies, the device is in recovery (R533). -/
theorem startFromBanks_of_none {s : State} (fl la bad : List Nat) (ms : Nat) (hactive : imageVerifies s (s.bank s.pal.active) = false)
    (hother : imageVerifies s (s.bank (otherBank s.pal.active)) = false) : startFromBanks s fl la bad ms = recover s 1 := by
  simp only [startFromBanks, bootBank, hactive, hother, Bool.false_eq_true, if_false]

/-- With every region retired no start goes further (R533). -/
theorem regionsStarted_of_retired {s : State} (bad : List Nat) (ms : Nat) (hall : ∀ r, r < 16 → (s.rgn r).rstate = .retired) : regionsStarted s bad ms =
    if s.umb.retried then recover s 4
    else
      let s1 := warmClear (recover s 4)
      { s1 with umb := { s1.umb with phase := 9, lastReset := 3, rcause := 0, retried := true, warms := min 65535 (s.umb.warms + 1) } } := by
  have hnone : ∀ x, x ≠ RState.retired → (List.range 16).any (fun r => decide ((s.rgn r).rstate = x)) = false := fun x hx =>
    List.any_eq_false.2 fun r hr => by simpa [hall r (List.mem_range.1 hr)] using hx.symm
  simp only [regionsStarted, hnone .starting (by decide), hnone .inService (by decide), Bool.false_eq_true, if_false]

/-- The state in which Umber has rebuilt the retirement map (R533). -/
def mapRebuilt (s : State) : State :=
  let s2 := (List.range 16).foldl (fun s r =>
    let g := s.rgn r
    let s1 := s.setRgn r { g with offset := 60, vset := g.vset - g.offset + 60 }
    { s1 with rel := { s1.rel with verd := mset s1.rel.verd r { mgetD s1.rel.verd r {} with tmax := 85, vstate := max 1 (mgetD s1.rel.verd r {}).vstate } } })
    { s with umb := { s.umb with phase := 9 } }
  let s3 : State := { s2 with rel := { s2.rel with rmap := buildMap s2, gen := 1, copyA := true, copyB := true }, fab := { s2.fab with journal := [] } }
  { s3 with umb := { s3.umb with phase := 8, rcause := 0 } }

theorem mapRebuilt_frame (s : State) : (mapRebuilt s).umb = { s.umb with phase := 8, rcause := 0 } ∧ (mapRebuilt s).saf = s.saf := by
  have humb := foldl_frame (f := fun (s : State) r =>
    let g := s.rgn r
    let s1 := s.setRgn r { g with offset := 60, vset := g.vset - g.offset + 60 }
    { s1 with rel := { s1.rel with verd := mset s1.rel.verd r { mgetD s1.rel.verd r {} with tmax := 85, vstate := max 1 (mgetD s1.rel.verd r {}).vstate } } })
    (fun s : State => (s.umb, s.saf)) (fun _ _ => rfl) (List.range 16) { s with umb := { s.umb with phase := 9 } }
  exact ⟨congrArg (fun x : Umber × Saf => { x.1 with phase := 8, rcause := 0 }) humb, congrArg Prod.snd humb⟩

/-- A warm reset without a vault to save (R529). -/
theorem warmReset_of_disarmed {s : State} (code : Nat) (save : Bool) (hon : s.umb.phase ≠ 0) (hserving : s.umb.phase ≠ 9) (hrunning : s.umb.shutting = false)
    (hdisarmed : safArmed s = false) : warmReset s code save =
      let s1 := powerGood (holdHosts s) 0
      warmClear { s1 with umb := { s1.umb with
        phase := 9, lastReset := code, warms := min 65535 (s1.umb.warms + 1), rcause := if s1.umb.rcause = 2 then 2 else 0, warming := some code } } := by
  have hsave : ∀ x : State, x.saf = s.saf → (save && safArmed x) = false := fun x hx => by
    rw [safArmed, hx]
    exact (congrArg (save && ·) hdisarmed).trans (Bool.and_false save)
  unfold warmReset
  rw [if_neg (by simp [hon, hserving, hrunning])]
  exact if_neg (Bool.eq_false_iff.1 (hsave _ rfl))

/-! A host write (R6, R7, R385). -/

theorem regAt_lakeEvent : ∃ r, regAt LAKE_EVENT = some (LAKE_EVENT, r) ∧ r.acc = .W1C := ⟨_, rfl, rfl⟩

theorem regAt_carmUdpPort : ∃ r, regAt CARM_UDP_PORT = some (CARM_UDP_PORT, r) ∧ r.acc = .RW := ⟨_, rfl, rfl⟩

/-- The CONFIG port register takes its 16 bits, whatever the rest of the write (R5). -/
theorem merge_low16 (old v : Nat) : mergeFields [⟨15, 0, fun _ => true⟩] old (withBits old 0 32 (v % 2 ^ 32)) = v % 65536 := by
  simp only [mergeFields, withBits, at_, List.map_cons, List.map_nil, List.sum_cons, List.sum_nil, if_true, Nat.reduceAdd, Nat.sub_zero, Nat.reducePow, Nat.div_one, Nat.mul_one]
  have hlow : (old - old % 4294967296 + v % 4294967296 % 4294967296) % 65536 = v % 65536 := by omega
  exact hlow

theorem writeRegs_lakeEvent (s : State) (v : Nat) :
    writeRegs s LAKE_EVENT 4 v = { s with lake := { s.lake with event := s.lake.event &&& ~~~BitVec.ofNat 6 (v % 2 ^ 32) } } := by
  obtain ⟨r, hat, hacc⟩ := regAt_lakeEvent
  simp only [writeRegs, hat, writeRow, hacc]
  rfl

theorem writeRegs_carmUdpPort (s : State) (v : Nat) : writeRegs s CARM_UDP_PORT 4 v = s.setReg CARM_UDP_PORT (v % 65536) := by
  obtain ⟨r, hat, hacc⟩ := regAt_carmUdpPort
  have hfields : ∀ old new, rwFields CARM_UDP_PORT old new = [⟨15, 0, fun _ => true⟩] := fun _ _ => rfl
  have hrow : writeRegs s CARM_UDP_PORT 4 v = writeRw s CARM_UDP_PORT 0 32 (v % 2 ^ 32) := by
    simp only [writeRegs, hat, writeRow, hacc]
    rfl
  rw [hrow, ← merge_low16 (s.reg CARM_UDP_PORT) v]
  simp only [writeRw, hfields]
  rfl

/-- A write to BAR0 (R6, R385, R386, R393). -/
theorem exec_writeBar0 {s : State} {f off size : Nat} {v : W64} (hf : f < 4096) : exec (.registerWrite f .bar0 off size v) s = .next (writeBar0 s f off size v.toNat) := by
  have harm : exec (.registerWrite f .bar0 off size v) s = execRegisterWrite f .bar0 off size v s := rfl
  rw [harm, execRegisterWrite, if_neg (Nat.not_le.2 hf)]

theorem writeBar0_cases (s : State) (f off size v : Nat) :
    (s.fnPresent f = false ∨ (s.fn f).flr = true ∨ (s.fn f).d3 = true → writeBar0 s f off size v = s) ∧
    (s.fnPresent f = true → (s.fn f).flr = false → (s.fn f).d3 = false →
      (mboxWords f off = true → writeBar0 s f off size v = s) ∧
      (mboxWords f off = false → (size ≠ 4 ∧ size ≠ 8) ∨ off % size ≠ 0 → writeBar0 s f off size v = s.count HIF_BAD_ACCESS) ∧
      (mboxWords f off = false → (size = 4 ∨ size = 8) → off % size = 0 → fnIsPf0 f = true → s.recovery = false → writeBar0 s f off size v = writeRegs s off size v) ∧
      (mboxWords f off = false → (size = 4 ∨ size = 8) → off % size = 0 → fnIsPf0 f = false → writeBar0 s f off size v = writePage s f off size v)) := by
  refine ⟨fun hunreached => if_pos hunreached, fun hthere hflr hd3 => ?_⟩
  have hreached : ¬ (s.fnPresent f = false ∨ (s.fn f).flr = true ∨ (s.fn f).d3 = true) := by simp [hthere, hflr, hd3]
  have haligned : (size = 4 ∨ size = 8) → off % size = 0 → ¬ ((size ≠ 4 ∧ size ≠ 8) ∨ off % size ≠ 0) := by omega
  simp only [writeBar0, hreached, if_false]
  refine ⟨fun hword => ?_, fun hplain hbad => ?_, fun hplain hsize hoff hpf hserving => ?_, fun hplain hsize hoff hpf => ?_⟩
  · rw [if_pos hword]
  · rw [hplain, if_neg (by decide), if_pos hbad]
  · rw [hplain, if_neg (by decide), if_neg (haligned hsize hoff), hpf, hserving]
    rfl
  · rw [hplain, if_neg (by decide), if_neg (haligned hsize hoff), hpf]
    rfl

/-- Settles O55, by the event. -/
theorem startAndRegisterWrites : Obligations.StartAndRegisterWrites := by
  unfold Obligations.StartAndRegisterWrites
  refine ⟨?_, ?_, ?_, fun s fl la bad ms hactive hother => ⟨_, startFromBanks_of_none fl la bad ms hactive hother, rfl, rfl⟩, ?_, ?_, ?_, ?_, writeRegs_lakeEvent, ?_, ?_⟩
  · rintro s v fl la bad ms _ hphase hlive hstart rfl
    have harm : exec (.fundamentalReset v fl la bad ms) s = execFundamentalReset v fl la bad ms s := rfl
    have hgoes : ¬ (s.umb.phase ≠ 0 ∨ s.sec.lc = 5 ∨ (s.umb.barred = true ∧ s.umb.allowed = false ∧ v = false)) := by
      rintro (h | h | ⟨hbarred, hallowed, hv⟩)
      · exact h hphase
      · exact hlive h
      · simp [hbarred, hallowed, hv] at hstart
    obtain ⟨hsalt, herase, hkeys, hlc, hcause⟩ := startKeys_sec (startState s)
    obtain ⟨hfab, hrel⟩ := startKeys_frame (startState s)
    have hcopies : ((startKeys (startState s)).rel.copyA || (startKeys (startState s)).rel.copyB) = (s.rel.copyA || s.rel.copyB) := by
      rw [hrel]
      rfl
    rw [harm, execFundamentalReset, if_neg (by omega), if_neg hgoes]
    simp only [hcopies]
    refine ⟨fun hmap => ?_, fun hA hB => ?_, hsalt, herase, hkeys, hlc, ?_, ?_, ?_, hcause, fun r => ?_⟩
    · rw [if_pos (Bool.or_eq_true_iff.2 hmap)]
    · rw [hA, hB]
      rfl
    · rw [hfab]
      rfl
    · rw [hfab]
      rfl
    · rw [hrel]
      rfl
    · rw [State.rgn, hfab]
      exact resets_startState s r
  · intro s v fl la bad ms hphase hstays
    have harm : exec (.fundamentalReset v fl la bad ms) s = execFundamentalReset v fl la bad ms s := rfl
    rw [harm, execFundamentalReset, if_neg (by omega), if_pos (Or.inr hstays)]
  · intro s v fl la bad ms hphase hwarm hcause
    have harm : exec (.fundamentalReset v fl la bad ms) s = execFundamentalReset v fl la bad ms s := rfl
    rw [harm, execFundamentalReset, if_pos ⟨hphase, hwarm⟩]
    refine ⟨fun hlive => ?_, fun hended => ?_⟩
    · rw [if_neg hlive, if_neg fun h => hcause h.1]
    · rw [if_pos hended]
  · intro s bad ms hall
    rw [regionsStarted_of_retired bad ms hall]
    refine ⟨fun hretried => ?_, fun hfirst => ?_⟩
    · rw [if_pos hretried]
      exact ⟨_, rfl, rfl, rfl⟩
    · rw [hfirst, if_neg (by decide)]
      exact ⟨_, rfl, rfl, rfl, rfl, rfl⟩
  · intro s r ms bad hstarting hphase
    have harm : exec (.regionStartTimeout r bad ms) s = execRegionStartTimeout r bad ms s := rfl
    rw [harm, execRegionStartTimeout, if_neg (by simp [hstarting, hphase])]
  · intro s hphase hcause hrunning hdisarmed
    obtain ⟨humb, hsaf⟩ := mapRebuilt_frame s
    have harm : exec (.mapRebuildDone []) s = .next (warmReset (mapRebuilt s) 3 true) := by
      have hexec : exec (.mapRebuildDone []) s = execMapRebuildDone [] s := rfl
      rw [hexec, execMapRebuildDone, if_neg (by simp [hphase, hcause])]
      simp only [List.foldl_nil, mapRebuilt]
    have hphase' : (mapRebuilt s).umb.phase = 8 := congrArg Umber.phase humb
    have hcleared : ∀ n, n = 0 → (if n = 2 then 2 else 0) = 0 := by
      rintro _ rfl
      rfl
    have hdisarmed' : safArmed (mapRebuilt s) = false := by rw [safArmed, hsaf]; exact hdisarmed
    rw [harm, warmReset_of_disarmed 3 true (by rw [hphase']; decide) (by rw [hphase']; decide) (by rw [humb]; exact hrunning) hdisarmed']
    exact ⟨_, rfl, rfl, rfl, hcleared _ (congrArg Umber.rcause humb), rfl, rfl, rfl, rfl⟩
  · intro s f off size v hf
    simp only [exec_writeBar0 hf]
    obtain ⟨hunreached, hreached⟩ := writeBar0_cases s f off size v.toNat
    refine ⟨fun h => by rw [hunreached h], fun hthere hflr hd3 => ?_⟩
    obtain ⟨hword, hbad, hregs, hpage⟩ := hreached hthere hflr hd3
    exact ⟨fun h => by rw [hword h], fun h h' => by rw [hbad h h'], fun h h1 h2 h3 h4 => by rw [hregs h h1 h2 h3 h4], fun h h1 h2 h3 => by rw [hpage h h1 h2 h3]⟩
  · intro s v
    rw [writeRegs_carmUdpPort]
    exact ⟨State.reg_setReg .., fun o ho => mgetD_mset_ne _ _ _ ho⟩
  · intro s f v hf hthere hflr
    have harm : ∀ space, exec (.registerWrite f space 0 4 v) s = execRegisterWrite f space 0 4 v s := fun _ => rfl
    have hopen : (s.fnPresent f && !(s.fn f).flr) = true := by simp [hthere, hflr]
    simp only [harm, execRegisterWrite, Nat.not_le.2 hf, if_false, hopen, if_true, true_and]
    refine ⟨fun hpf hmax hoff => ?_, fun hpf hset hserving => ?_⟩
    · rw [if_pos ⟨hpf, hthere, hflr, hoff, hmax⟩]
    · rw [if_pos ⟨hpf, hthere, hflr, hserving, hset⟩]

end Sys2Proof.Machine
end

section
/-! PROOFS. What a step keeps of the queue of waiting commands and of the fuses: the observer `kept`, and how it passes folds, pairs and outcomes. The
twelve parts that follow have one lemma for each function of the model, which rests on those of the functions that it calls: `rfl` where the function
sets fields of other units, a split of its branches where it calls others, and `kept_foldl` where it repeats one. -/

namespace Sys2Proof.Machine

open Sys2Proof

/-- What every operation but the burning of a fuse leaves as it was: the waiting commands, and the lifecycle state, SVN_MIN and the owner slots
among the fuses. -/
def kept (s : State) : List Instr × Nat × Nat × List (List Byte) := (s.pending, s.sec.lc, s.sec.svnMin, s.sec.owners)

/-- A state that differs in other units keeps them. -/
@[simp] theorem kept_units (s : State) (a b c d e f g h i j k l m n o p q r) :
    kept ⟨s.pending, a, b, c, d, e, f, g, h, i, j, k, s.sec, l, m, n, o, p, q, r⟩ = kept s := rfl

/-- So does one that differs in the security unit outside the fuses. -/
@[simp] theorem kept_secUnit (s : State) (a b c d e f g h i j k l m n o p q r) (a1 a2 a3 a4 a5 a6 a7 a8 a9 a10 a11 a12 a13) :
    kept ⟨s.pending, a, b, c, d, e, f, g, h, i, j, k, ⟨s.sec.lc, s.sec.svnMin, s.sec.owners, a1, a2, a3, a4, a5, a6, a7, a8, a9, a10, a11, a12, a13⟩,
        l, m, n, o, p, q, r⟩ = kept s := rfl

theorem kept_foldl {α : Type} (f : State → α → State) (h : ∀ s x, kept (f s x) = kept s) (xs : List α) (s : State) :
    kept (xs.foldl f s) = kept s := by
  induction xs generalizing s with
  | nil => rfl
  | cons x xs ih => rw [List.foldl_cons, ih, h]

theorem kept_foldl_fst {α β : Type} (f : State × β → α → State × β) (h : ∀ s x, kept (f s x).1 = kept s.1) (xs : List α) (s : State × β) :
    kept (xs.foldl f s).1 = kept s.1 := by
  induction xs generalizing s with
  | nil => rfl
  | cons x xs ih => rw [List.foldl_cons, ih, h]

/-- A state that stands first in a pair. -/
theorem kept_of_pair {α : Type} {r : State × α} {t : State} {o : α} (h : r = (t, o)) : kept t = kept r.1 := by rw [h]

theorem kept_of_pair' {α : Type} {r : α × State} {t : State} {o : α} (h : r = (o, t)) : kept t = kept r.2 := by rw [h]

/-- What an outcome keeps; none where it is a fault or a refusal. -/
def outKept : Host.Outcome State Fault Refusal → Option (List Instr × Nat × Nat × List (List Byte))
  | .next t => some (kept t)
  | _ => none

@[simp] theorem outKept_next (t : State) : outKept (next t) = some (kept t) := rfl

/-- What the making of a channel keeps; `d` where it is refused. -/
def sumKept (d : List Instr × Nat × Nat × List (List Byte)) : Status ⊕ (State × Reply) → List Instr × Nat × Nat × List (List Byte)
  | .inl _ => d
  | .inr p => kept p.1

@[simp] theorem sumKept_inl (d : List Instr × Nat × Nat × List (List Byte)) (st : Status) : sumKept d (.inl st) = d := rfl
@[simp] theorem sumKept_inr (d : List Instr × Nat × Nat × List (List Byte)) (p : State × Reply) : sumKept d (.inr p) = kept p.1 := rfl

/-- The state an instruction of a core leaves, however it ends. -/
def Exec.state : Exec → State
  | .done s => s
  | .jump s _ => s
  | .xcpt s _ _ => s
  | .wait s => s
  | .stop s => s

@[simp] theorem state_done (s : State) : (Exec.done s).state = s := rfl
@[simp] theorem state_jump (s : State) (pc : W64) : (Exec.jump s pc).state = s := rfl
@[simp] theorem state_xcpt (s : State) (c a : Nat) : (Exec.xcpt s c a).state = s := rfl
@[simp] theorem state_wait (s : State) : (Exec.wait s).state = s := rfl
@[simp] theorem state_stop (s : State) : (Exec.stop s).state = s := rfl

/-- The state a core's access to memory leaves. -/
def MemRes.state : MemRes → State
  | .ok s _ => s
  | .xcpt s _ _ => s
  | .wait s => s

@[simp] theorem memState_ok (s : State) (bs : List Byte) : (MemRes.ok s bs).state = s := rfl
@[simp] theorem memState_xcpt (s : State) (c a : Nat) : (MemRes.xcpt s c a).state = s := rfl
@[simp] theorem memState_wait (s : State) : (MemRes.wait s).state = s := rfl

theorem kept_of_ok {r : MemRes} {t : State} {bs : List Byte} (h : r = .ok t bs) : kept t = kept r.state := by rw [h, memState_ok]
theorem kept_of_xcpt {r : MemRes} {t : State} {c a : Nat} (h : r = .xcpt t c a) : kept t = kept r.state := by rw [h, memState_xcpt]
theorem kept_of_wait {r : MemRes} {t : State} (h : r = .wait t) : kept t = kept r.state := by rw [h, memState_wait]

/-- The operations that Carmine's packets call keep them. -/
structure KeepsHooks (k : Hooks) : Prop where
  notice : ∀ s i b, kept (k.notice s i b) = kept s
  delta : ∀ s i m, kept (k.delta s i m) = kept s

@[simp] theorem kept_Hooks_notice (k : Hooks) (hk : KeepsHooks k) (s : State) (i : Nat) (b : BitVec 256) :
    kept (k.notice s i b) = kept s := hk.notice s i b

theorem kept_foldl_s {α : Type} (f : MatRun → α → MatRun) (h : ∀ s x, kept (f s x).s = kept s.s) (xs : List α) (s : MatRun) :
    kept (xs.foldl f s).s = kept s.s := by
  induction xs generalizing s with
  | nil => rfl
  | cons x xs ih => rw [List.foldl_cons, ih, h]

theorem kept_foldl_codec {α : Type} (f : CodecRun → α → CodecRun) (h : ∀ s x, kept (f s x).s = kept s.s) (xs : List α) (s : CodecRun) :
    kept (xs.foldl f s).s = kept s.s := by
  induction xs generalizing s with
  | nil => rfl
  | cons x xs ih => rw [List.foldl_cons, ih, h]

theorem kept_foldl_tile {α : Type} (f : Tile → α → Tile) (h : ∀ s x, kept (f s x).s = kept s.s) (xs : List α) (s : Tile) :
    kept (xs.foldl f s).s = kept s.s := by
  induction xs generalizing s with
  | nil => rfl
  | cons x xs ih => rw [List.foldl_cons, ih, h]

theorem kept_foldl_codec_fst {α β : Type} (f : CodecRun × β → α → CodecRun × β) (h : ∀ s x, kept (f s x).1.s = kept s.1.s) (xs : List α)
    (s : CodecRun × β) : kept (xs.foldl f s).1.s = kept s.1.s := by
  induction xs generalizing s with
  | nil => rfl
  | cons x xs ih => rw [List.foldl_cons, ih, h]

theorem kept_of_matPair {α : Type} {r : MatRun × α} {t : MatRun} {o : α} (h : r = (t, o)) : kept t.s = kept r.1.s := by rw [h]
theorem kept_of_codecPair {α : Type} {r : CodecRun × α} {t : CodecRun} {o : α} (h : r = (t, o)) : kept t.s = kept r.1.s := by rw [h]

end Sys2Proof.Machine
end

section
/-! PROOFS. What a step keeps of the waiting commands and of the fuses, part 1 of 12: the model's functions in the order in which they call each
other, from `next` to `startNv`. -/

namespace Sys2Proof.Machine

open Sys2Proof

@[simp] theorem kept_next (s : State) : outKept (next s) = some (kept s) := rfl

@[simp] theorem kept_syncReady (s : State) : kept (syncReady s) = kept s := rfl

@[simp] theorem kept_State_setReg (s : State) (off : ℕ) (v : ℕ) : kept (State.setReg s off v) = kept s := rfl

@[simp] theorem kept_State_count (s : State) (off : ℕ) (n : ℕ) (width : ℕ) : kept (State.count s off n width) = kept s := by
  unfold State.count
  simp only [kept_State_setReg]

@[simp] theorem kept_setNv (s : State) (q : ℕ) (seq : ℕ) (f : NvCmd → NvCmd) : kept (setNv s q seq f) = kept s := rfl

@[simp] theorem kept_backEnd (s : State) (key : ℕ) (st : Option ℕ) : kept (backEnd s key st) = kept s := by
  unfold backEnd
  (repeat' split) <;> simp only [kept_State_count, kept_setNv, kept_units]

@[simp] theorem kept_absorbCarmine (s : State) : kept (absorbCarmine s) = kept s := by
  unfold absorbCarmine
  refine (kept_foldl _ (fun t p => ?_) _ _).trans (kept_units ..)
  rw [kept_backEnd]

@[simp] theorem kept_orphan (s : State) (p : Work → Bool) : kept (orphan s p) = kept s := rfl

@[simp] theorem kept_endXfer (s : State) (w : Work) : kept (endXfer s w) = kept s := by
  unfold endXfer
  simp only [kept_orphan]

@[simp] theorem kept_dropNv (s : State) (q : ℕ) (c : NvCmd) : kept (dropNv s q c) = kept s := by
  unfold dropNv
  simp only [kept_endXfer, kept_units]

@[simp] theorem kept_errEntry (s : State) (q : ℕ) (c : NvCmd) (st : ℕ) : kept (errEntry s q c st) = kept s := rfl

@[simp] theorem kept_State_setFn (s : State) (f : ℕ) (x2 : Fn) : kept (State.setFn s f x2) = kept s := rfl

@[simp] theorem kept_State_emit (s : State) (o : Output) : kept (State.emit s o) = kept s := rfl

@[simp] theorem kept_State_msix (s : State) (f : ℕ) (vec : ℕ) : kept (State.msix s f vec) = kept s := by
  fun_cases State.msix s f vec <;> simp only [kept_State_count, kept_State_setFn, kept_State_emit]

@[simp] theorem kept_State_setComp (s : State) (i : ℕ) (x2 : CompRing) : kept (State.setComp s i x2) = kept s := rfl

@[simp] theorem kept_interrupt (s : State) (cq : ℕ) : kept (interrupt s cq) = kept s := by
  fun_cases interrupt s cq <;> simp only [kept_State_msix, kept_State_setComp]

@[simp] theorem kept_decide132 (s : State) (cq : ℕ) (urgent : Bool) : kept (decide132 s cq urgent) = kept s := by
  fun_cases decide132 s cq urgent <;> simp only [kept_interrupt]

@[simp] theorem kept_State_hostWrite (s : State) (f : ℕ) (addr : ℕ) (data : List Byte) : kept (State.hostWrite s f addr data) = kept s := by
  fun_cases State.hostWrite s f addr data <;> simp only [kept_State_emit]

@[simp] theorem kept_writeSqEntry (s : State) (q : ℕ) (entry : ℕ) : kept (writeSqEntry s q entry) = kept s := by
  fun_cases writeSqEntry s q entry <;> simp only [kept_decide132, kept_State_hostWrite, kept_State_setComp]

@[simp] theorem kept_nvEnd (s : State) (q : ℕ) (c : NvCmd) (st : ℕ) (dw0 : ℕ) : kept (nvEnd s q c st dw0) = kept s := by
  unfold nvEnd
  (repeat' split) <;> simp only [kept_State_count, kept_dropNv, kept_errEntry, kept_writeSqEntry]

@[simp] theorem kept_noteAts (s : State) (f : ℕ) (a : ℕ) : kept (noteAts s f a) = kept s := by
  fun_cases noteAts s f a <;> simp only [kept_units]

@[simp] theorem kept_pumpReads (f : ℕ) (a : ℕ) (x2 : State) : kept (pumpReads f a x2) = kept x2 := by
  fun_induction pumpReads f a x2 <;> simp only [kept_State_emit, kept_noteAts, kept_units, *]

theorem kept_hostRead (s : State) (f : ℕ) (w : Work) (pieces : List (ℕ × ℕ)) {t0} (hret : hostRead s f w pieces = some t0) : kept t0 = kept s := by
  revert hret
  unfold hostRead
  (repeat' split) <;> intro h <;> cases h
  simp only [kept_pumpReads, kept_units]

@[simp] theorem kept_smartPage (s : State) : kept (smartPage s).1 = kept s := rfl

@[simp] theorem kept_logPage (s : State) (q : ℕ) (c : NvCmd) : kept (logPage s q c).1 = kept s := by
  unfold logPage
  (repeat' split) <;> simp only [kept_smartPage, kept_units]

@[simp] theorem kept_writePieces (s : State) (f : ℕ) (a : List (ℕ × ℕ)) (x3 : List Byte) : kept (writePieces s f a x3) = kept s := by
  induction a generalizing s f x3 with
  | nil => simp only [writePieces]
  | cons x xs ih =>
    unfold writePieces
    simp only [kept_State_hostWrite, ih]

@[simp] theorem kept_nvDeliver (s : State) (q : ℕ) (c : NvCmd) (bs : List Byte) : kept (nvDeliver s q c bs) = kept s := by
  fun_cases nvDeliver s q c bs <;> simp only [kept_nvEnd, kept_writePieces]

@[simp] theorem kept_reportEvent (s : State) (f : ℕ) : kept (reportEvent s f) = kept s := by
  fun_cases reportEvent s f <;> simp only [kept_nvEnd, kept_units]

@[simp] theorem kept_runAdmin (s : State) (q : ℕ) (c : NvCmd) : kept (runAdmin s q c) = kept s := by
  fun_cases runAdmin s q c <;> simp (disch := assumption) only [kept_logPage, kept_nvEnd, kept_nvDeliver, kept_reportEvent, kept_units, kept_of_pair]

@[simp] theorem kept_newBack (s : State) (b : Back) : kept (newBack s b).2 = kept s := rfl

@[simp] theorem kept_State_setJob (s : State) (i : ℕ) (x2 : Job) : kept (State.setJob s i x2) = kept s := rfl

@[simp] theorem kept_dropGot (s : State) (w : Work) : kept (dropGot s w) = kept s := by
  fun_cases dropGot s w <;> simp only [kept_units]

@[simp] theorem kept_scrWrite (s : State) (c : ℕ) (off : ℕ) (bs : List Byte) : kept (scrWrite s c off bs) = kept s := rfl

@[simp] theorem kept_State_setCore (s : State) (i : ℕ) (x2 : Core) : kept (State.setCore s i x2) = kept s := rfl

@[simp] theorem kept_reportCore (s : State) (core off : ℕ) (d : Desc) (st : Status) (detail result : ℕ) :
    kept (reportCore s core off d st detail result) = kept s := by
  rw [reportCore, kept_State_setCore, kept_scrWrite]

@[simp] theorem kept_writeEntry (s : State) (cq : ℕ) (entry : ℕ) (urgent : Bool) : kept (writeEntry s cq entry urgent) = kept s := by
  fun_cases writeEntry s cq entry urgent <;> simp only [kept_State_count, kept_decide132, kept_State_hostWrite, kept_State_setComp]

@[simp] theorem kept_reserve (s : State) (cq : ℕ) : kept (reserve s cq) = kept s := rfl

@[simp] theorem kept_drainLate (cq : ℕ) (a : ℕ) (x2 : State) : kept (drainLate cq a x2) = kept x2 := by
  induction a generalizing cq x2 with
  | zero => simp only [drainLate]
  | succ n ih =>
    unfold drainLate
    (repeat' split) <;> simp only [kept_writeEntry, kept_reserve, kept_units, ih]

@[simp] theorem kept_unreserve (s : State) (cq : ℕ) : kept (unreserve s cq) = kept s := by
  unfold unreserve
  simp only [kept_drainLate, kept_units]

@[simp] theorem kept_report (s : State) (ring : ℕ) (gen : ℕ) (slot : ℕ) (posted : Bool) (d : Desc) (st : Status) (detail : ℕ) (result : ℕ) :
    kept (report s ring gen slot posted d st detail result) = kept s := by
  fun_cases report s ring gen slot posted d st detail result <;> simp only [kept_unreserve, kept_writeEntry]

@[simp] theorem kept_reportJob (s : State) (j : Job) (st : Status) (detail : ℕ) (result : ℕ) : kept (reportJob s j st detail result) = kept s := by
  fun_cases reportJob s j st detail result <;> simp only [kept_reportCore, kept_report]

@[simp] theorem kept_State_putCtr (s : State) (c : ℕ) (v : W64) : kept (State.putCtr s c v) = kept s := rfl

@[simp] theorem kept_State_addCtr (s : State) (c : ℕ) (n : W64) : kept (State.addCtr s c n) = kept s := by
  unfold State.addCtr
  simp only [kept_State_putCtr]

@[simp] theorem kept_State_setCl (s : State) (c : ℕ) (x2 : Cluster) : kept (State.setCl s c x2) = kept s := rfl

@[simp] theorem kept_gateIdle (s : State) (c : ℕ) : kept (gateIdle s c) = kept s := by
  fun_cases gateIdle s c <;> simp only [kept_State_setCl]

@[simp] theorem kept_endJob (s : State) (id : ℕ) (st : Status) (detail : ℕ) (result : ℕ) : kept (endJob s id st detail result) = kept s := by
  unfold endJob
  dsimp only
  (repeat' split) <;> simp only [kept_dropGot, kept_orphan, kept_reportJob, kept_State_addCtr, kept_gateIdle, kept_units]

@[simp] theorem kept_completeJob (s : State) (id : ℕ) (st : Status) (detail : ℕ) (result : ℕ) :
    kept (completeJob s id st detail result) = kept s := by
  fun_cases completeJob s id st detail result <;> simp only [kept_State_setJob, kept_endJob]

@[simp] theorem kept_completePoster (s : State) (p : Poster) (st : Status) (detail : ℕ) (result : ℕ) :
    kept (completePoster s p st detail result) = kept s := by
  fun_cases completePoster s p st detail result <;> simp only [kept_completeJob, kept_units]

@[simp] theorem kept_State_setConn (s : State) (i : ℕ) (x2 : Conn) : kept (State.setConn s i x2) = kept s := rfl

@[simp] theorem kept_addMsg (s : State) (i : ℕ) (m : TxMsg) : kept (addMsg s i m) = kept s := by
  fun_cases addMsg s i m <;> simp only [kept_State_setConn]

@[simp] theorem kept_startWaiting (i : ℕ) (a : ℕ) (x2 : State) : kept (startWaiting i a x2) = kept x2 := by
  fun_induction startWaiting i a x2 <;> simp only [kept_addMsg, kept_State_setConn, kept_State_setJob, *]

/-- A state that an operation may leave, or the one it found. -/
theorem kept_getD {o : Option State} {d : State} (h : ∀ t, o = some t → kept t = kept d) : kept (o.getD d) = kept d := by
  cases o with
  | none => rfl
  | some t => exact h t rfl

theorem kept_hostRead_getD (s : State) (f : ℕ) (w : Work) (pieces : List (ℕ × ℕ)) : kept ((hostRead s f w pieces).getD s) = kept s :=
  kept_getD fun _ => kept_hostRead _ _ _ _

@[simp] theorem kept_fetchContext (s : State) (i : ℕ) : kept (fetchContext s i) = kept s := by
  unfold fetchContext
  dsimp only
  (repeat' split) <;> simp only [kept_State_setConn, kept_hostRead_getD]

@[simp] theorem kept_joinWaiting (s : State) (i : ℕ) (c : Conn) (w : Waiting) : kept (joinWaiting s i c w) = kept s := by
  fun_cases joinWaiting s i c w <;> simp +zetaDelta only [kept_startWaiting, kept_State_setConn, kept_fetchContext]

@[simp] theorem kept_postMsg (s : State) (i : ℕ) (m : TxMsg) : kept (postMsg s i m) = kept s := by
  fun_cases postMsg s i m <;> simp only [kept_completePoster, kept_joinWaiting]

@[simp] theorem kept_issueCarm (s : State) (n : Ns) (key : ℕ) (b : Back) : kept (issueCarm s n key b) = kept s := by
  fun_cases issueCarm s n key b
  simp only [kept_postMsg, kept_units]

@[simp] theorem kept_State_trouble (s : State) (u : ℕ) (k : TroubleKind) (n : ℕ) : kept (State.trouble s u k n) = kept s := rfl

@[simp] theorem kept_setBad (s : State) (pl : ℕ) (n : ℕ) : kept (setBad s pl n) = kept s := rfl

@[simp] theorem kept_correctLine (s : State) (pl : ℕ) : kept (correctLine s pl) = kept s := by
  fun_cases correctLine s pl <;> simp only [kept_State_trouble, kept_State_count, kept_setBad]

@[simp] theorem kept_setEvent (s : State) (i : ℕ) : kept (setEvent s i) = kept s := rfl

@[simp] theorem kept_setPoison (s : State) (pl : ℕ) (b : Bool) : kept (setPoison s pl b) = kept s := rfl

@[simp] theorem kept_markPoison (s : State) (pl : ℕ) : kept (markPoison s pl) = kept s := by
  unfold markPoison
  simp only [kept_setEvent, kept_State_count, kept_setPoison]

@[simp] theorem kept_resolveLine (s : State) (pl : ℕ) : kept (resolveLine s pl).1 = kept s := by
  unfold resolveLine
  dsimp only
  (repeat' split) <;> simp (disch := (intro _ _; (repeat' split) <;> simp only [kept_correctLine])) only [kept_correctLine, kept_State_trouble,
      kept_setEvent, kept_State_count, kept_setBad, kept_markPoison, kept_foldl]

@[simp] theorem kept_State_choose (s : State) (n : ℕ) : kept (State.choose s n).2 = kept s := rfl

@[simp] theorem kept_resolveAt (s : State) (pl : ℕ) (a : ℕ) : kept (resolveAt s pl a).1 = kept s := by
  fun_cases resolveAt s pl a <;> simp (disch := assumption) only [kept_resolveLine, kept_State_choose, kept_setBad, kept_setPoison, kept_of_pair,
      kept_of_pair']

@[simp] theorem kept_readLine (s : State) (a : ℕ) : kept (readLine s a).1 = kept s := by
  fun_cases readLine s a <;> simp only [kept_resolveAt]

@[simp] theorem kept_readLines (a : ℕ) (x1 : State) (x2 : ℕ) : kept (readLines a x1 x2).1 = kept x1 := by
  induction a generalizing x1 x2 with
  | zero => simp only [readLines]
  | succ n ih =>
    unfold readLines
    (repeat' split) <;> simp (disch := assumption) only [kept_readLine, kept_of_pair, ih]

@[simp] theorem kept_lakeRead (s : State) (a : ℕ) (len : ℕ) : kept (lakeRead s a len).1 = kept s := by
  fun_cases lakeRead s a len
  simp (disch := assumption) only [kept_readLines, kept_of_pair]

@[simp] theorem kept_destageBytes (s : State) (b : Back) : kept (destageBytes s b).1 = kept s := by
  fun_cases destageBytes s b <;> simp (disch := assumption) only [kept_lakeRead, kept_of_pair]

@[simp] theorem kept_State_setSess (s : State) (k : ℕ) (x2 : Sess) : kept (State.setSess s k x2) = kept s := rfl

@[simp] theorem kept_State_setPair (s : State) (k : MboxId) (x2 : Pair) : kept (State.setPair s k x2) = kept s := rfl

@[simp] theorem kept_holdReply (s : State) (k : MboxId) (w : W64) (r : Reply) : kept (holdReply s k w r) = kept s := by
  unfold holdReply
  simp only [kept_State_setPair]

@[simp] theorem kept_writeBack (s : State) (f : ℕ) (addr : ℕ) (r : Reply) : kept (writeBack s f addr r) = kept s := by
  unfold writeBack
  simp only [kept_State_hostWrite]

@[simp] theorem kept_finishCmd (s : State) (id : ℕ) (r : Reply) : kept (finishCmd s id r) = kept s := by
  fun_cases finishCmd s id r <;> simp +zetaDelta only [kept_holdReply, kept_writeBack, kept_units]

@[simp] theorem kept_discardFrame (s : State) (p : ℕ) (f : EFrame) : kept (discardFrame s p f) = kept s := by
  fun_cases discardFrame s p f <;> simp +zetaDelta only [kept_State_count, kept_finishCmd]

@[simp] theorem kept_handToWeld (s : State) (p : ℕ) (key : ℕ) (f : EFrame) : kept (handToWeld s p key f) = kept s := by
  fun_cases handToWeld s p key f <;> simp only [kept_discardFrame, kept_units]

@[simp] theorem kept_sendSeg (s : State) (k : ℕ) (x2 : Sess) (seq : ℕ) (flags : ℕ) (opts : List Byte) (data : List Byte) :
    kept (sendSeg s k x2 seq flags opts data) = kept s := by
  fun_cases sendSeg s k x2 seq flags opts data <;> simp only [kept_handToWeld]

@[simp] theorem kept_pushOut (k : ℕ) (a : ℕ) (x2 : State) : kept (pushOut k a x2) = kept x2 := by
  fun_induction pushOut k a x2 <;> simp only [kept_State_setSess, kept_sendSeg, *]

@[simp] theorem kept_pushAll (s : State) (k : ℕ) : kept (pushAll s k) = kept s := by
  unfold pushAll
  simp only [kept_pushOut]

@[simp] theorem kept_sendBytes (s : State) (k : ℕ) (bs : List Byte) : kept (sendBytes s k bs) = kept s := by
  fun_cases sendBytes s k bs <;> simp only [kept_pushAll, kept_State_setSess, kept_units]

@[simp] theorem kept_sendCapsule (s : State) (k : ℕ) (x2 : Sess) (b : Back) (key : ℕ) (sqe : ℕ → List Byte) (data : List Byte) :
    kept (sendCapsule s k x2 b key sqe data) = kept s := by
  unfold sendCapsule
  simp only [kept_State_setSess, kept_sendBytes, kept_units]

@[simp] theorem kept_issueTcp (s : State) (n : Ns) (key : ℕ) (b : Back) : kept (issueTcp s n key b) = kept s := by
  fun_cases issueTcp s n key b <;> simp (disch := assumption) only [kept_destageBytes, kept_sendCapsule, kept_of_pair]

@[simp] theorem kept_issueBacks (s : State) : kept (issueBacks s) = kept s := by
  unfold issueBacks
  simp (disch := (intro _ _; (repeat' split) <;> simp only [kept_issueCarm, kept_issueTcp])) only [kept_foldl]

@[simp] theorem kept_runFlush (s : State) (q : ℕ) (c : NvCmd) : kept (runFlush s q c) = kept s := by
  unfold runFlush
  dsimp only
  (repeat' split) <;> simp (disch := (intro _ _; dsimp only; (repeat' split) <;> simp only [kept_newBack])) only [kept_nvEnd, kept_issueBacks,
      kept_setNv, kept_foldl_fst]

@[simp] theorem kept_bufRead (s : State) (n off len : ℕ) : kept (bufRead s n off len).1 = kept s := by
  unfold bufRead
  refine kept_foldl_fst _ (fun a p => ?_) _ _
  refine kept_foldl_fst _ (fun b i => ?_) _ _
  extract_lets lo
  (repeat' split) <;> simp (disch := assumption) only [kept_lakeRead, kept_of_pair]

@[simp] theorem kept_runRead (s : State) (q : ℕ) (c : NvCmd) : kept (runRead s q c) = kept s := by
  unfold runRead
  dsimp only
  (repeat' split) <;> simp (disch := (intro _ _; dsimp only; (repeat' split) <;> simp only [kept_newBack])) only [kept_nvEnd, kept_bufRead,
      kept_nvDeliver, kept_State_count, kept_issueBacks, kept_setNv, kept_foldl_fst]

@[simp] theorem kept_sendDelta (s : State) (slot : ℕ) (g : PGroup) (i : ℕ) (line : ℕ) (data : List Byte) :
    kept (sendDelta s slot g i line data) = kept s := by
  fun_cases sendDelta s slot g i line data <;> simp only [kept_units]

@[simp] theorem kept_lineDelta (s : State) (a : ℕ) (old : List Byte) (new : List Byte) : kept (lineDelta s a old new) = kept s := by
  fun_cases lineDelta s a old new <;> simp only [kept_sendDelta]

@[simp] theorem kept_writeLine (s : State) (a : ℕ) (bs : List Byte) : kept (writeLine s a bs).1 = kept s := by
  unfold writeLine
  dsimp only
  (repeat' split) <;> simp only [kept_readLine, kept_setBad, kept_setPoison, kept_lineDelta, kept_units]

@[simp] theorem kept_writeLines (a : ℕ) (x1 : State) (x2 : ℕ) (x3 : List Byte) : kept (writeLines a x1 x2 x3).1 = kept x1 := by
  induction a generalizing x1 x2 x3 with
  | zero => simp only [writeLines]
  | succ n ih =>
    unfold writeLines
    (repeat' split) <;> simp only [kept_writeLine, ih]

@[simp] theorem kept_lakeWrite (s : State) (a : ℕ) (bs : List Byte) : kept (lakeWrite s a bs).1 = kept s := by
  unfold lakeWrite
  simp only [kept_writeLines]

@[simp] theorem kept_State_setPages (s : State) (m : Map BufPage) : kept (State.setPages s m) = kept s := rfl

@[simp] theorem kept_putPage (s : State) (k : ℕ) (lo : ℕ) (bs : List Byte) (ver : ℕ) : kept (putPage s k lo bs ver) = kept s := by
  fun_cases putPage s k lo bs ver
  simp (disch := assumption) only [kept_lakeWrite, kept_State_setPages, kept_of_pair]

@[simp] theorem kept_mapNv (s : State) (f : ℕ → NvCmd → NvCmd) : kept (mapNv s f) = kept s := rfl

@[simp] theorem kept_admitUnit (s : State) (q : ℕ) (c : NvCmd) (n : ℕ) (off : ℕ) (bs : List Byte) : kept (admitUnit s q c n off bs) = kept s := by
  unfold admitUnit
  simp (disch := (intro _ _; simp only [kept_putPage])) only [kept_mapNv, kept_units, kept_foldl]

@[simp] theorem kept_admitUnits (q : ℕ) (seq : ℕ) (a : ℕ) (x3 : State) : kept (admitUnits q seq a x3) = kept x3 := by
  induction a generalizing q seq x3 with
  | zero => simp only [admitUnits]
  | succ n ih =>
    unfold admitUnits
    (repeat' split) <;> simp only [kept_nvEnd, kept_admitUnit, ih]

@[simp] theorem kept_finishWrite (s : State) (q : ℕ) (c : NvCmd) : kept (finishWrite s q c) = kept s := by
  fun_cases finishWrite s q c <;> simp only [kept_nvEnd, kept_setNv, kept_endXfer]

@[simp] theorem kept_runNv (s : State) (q : ℕ) (c : NvCmd) (entering : Bool) : kept (runNv s q c entering) = kept s := by
  unfold runNv
  dsimp only
  (repeat' split) <;> simp only [kept_runAdmin, kept_runFlush, kept_runRead, kept_admitUnits, kept_finishWrite]

@[simp] theorem kept_dataReady (s : State) (q : ℕ) (seq : ℕ) : kept (dataReady s q seq) = kept s := by
  fun_cases dataReady s q seq <;> simp (disch := assumption) only [kept_hostRead, kept_nvEnd, kept_setNv, kept_runNv]

@[simp] theorem kept_askList (s : State) (q : ℕ) (seq : ℕ) : kept (askList s q seq) = kept s := by
  fun_cases askList s q seq <;> simp (disch := assumption) only [kept_dataReady, kept_hostRead, kept_nvEnd, kept_setNv]

@[simp] theorem kept_startNv (s : State) (q : ℕ) (c : NvCmd) : kept (startNv s q c) = kept s := by
  fun_cases startNv s q c <;> simp +zetaDelta only [kept_nvEnd, kept_setNv, kept_askList, kept_units]

end Sys2Proof.Machine
end

section
/-! PROOFS. What a step keeps of the waiting commands and of the fuses, part 2 of 12: the model's functions in the order in which they call each
other, from `dropXfer` to `resumeWin`. -/

namespace Sys2Proof.Machine

open Sys2Proof

@[simp] theorem kept_dropXfer (s : State) (w : Work) : kept (dropXfer s w) = kept s := rfl

@[simp] theorem kept_listCame (s : State) (q : ℕ) (c : NvCmd) (bs : List Byte) : kept (listCame s q c bs) = kept s := by
  fun_cases listCame s q c bs <;> simp only [kept_nvEnd, kept_askList, kept_setNv]

@[simp] theorem kept_advanceNv (s : State) (q : ℕ) (seq : ℕ) (entering : Bool) : kept (advanceNv s q seq entering) = kept s := by
  fun_cases advanceNv s q seq entering <;> simp +zetaDelta only [kept_startNv, kept_nvEnd, kept_dropXfer, kept_listCame, kept_runNv, kept_setNv]

@[simp] theorem kept_destagePage (s : State) (k : ℕ) : kept (destagePage s k) = kept s := by
  unfold destagePage
  split
  · rfl
  · dsimp only
    split
    · rw [kept_bufRead]
    · rw [kept_State_setPages, kept_foldl _ (fun t x => by rw [kept_newBack]), kept_bufRead]

@[simp] theorem kept_destageAll (s : State) : kept (destageAll s) = kept s := by
  unfold destageAll
  simp (disch := (intro _ _; (repeat' split) <;> simp only [kept_destagePage])) only [kept_foldl]

@[simp] theorem kept_safSettle (s : State) : kept (safSettle s) = kept s := by
  unfold safSettle
  simp (disch := (intro _ _; (repeat' split) <;> simp only [kept_advanceNv])) only [kept_syncReady, kept_absorbCarmine, kept_issueBacks,
      kept_destageAll, kept_foldl]

@[simp] theorem kept_settleRegions (s : State) : kept (settleRegions s) = kept s := by
  unfold settleRegions
  simp (disch := (intro _ _; (repeat' split) <;> simp only [kept_finishCmd, kept_units])) only [kept_foldl]

@[simp] theorem kept_fireTag (list : ℕ) (tag : ℕ) (a : ℕ) (x3 : State) : kept (fireTag list tag a x3) = kept x3 := by
  fun_induction fireTag list tag a x3 <;> simp only [kept_units, *]

@[simp] theorem kept_trigArrive (s : State) (list : ℕ) (gen : ℕ) (tag : ℕ) (owner : ℕ) : kept (trigArrive s list gen tag owner) = kept s := by
  fun_cases trigArrive s list gen tag owner <;> simp only [kept_State_count, kept_fireTag, kept_units]

@[simp] theorem kept_applyNote (s : State) (n : WNote) : kept (applyNote s n) = kept s := by
  fun_cases applyNote s n <;> simp only [kept_State_addCtr, kept_trigArrive]

@[simp] theorem kept_applyNotes (s : State) : kept (applyNotes s) = kept s := by
  unfold applyNotes
  simp (disch := (intro _ _; (repeat' split) <;> simp only [kept_applyNote])) only [kept_units, kept_foldl]

@[simp] theorem kept_State_tagHeld (s : State) (n : ℕ) (w : Option Work) (ctr : Option (ℕ × ℕ)) : kept (State.tagHeld s n w ctr) = kept s := by
  fun_cases State.tagHeld s n w ctr <;> simp only [kept_units]

@[simp] theorem kept_releaseOne (s : State) (h : Held) : kept (releaseOne s h) = kept s := by
  fun_cases releaseOne s h <;> simp +zetaDelta (disch := assumption) only [kept_writeLine, kept_State_tagHeld, kept_State_addCtr, kept_units,
      kept_of_pair]

@[simp] theorem kept_releaseHeld (s : State) : kept (releaseHeld s) = kept s := by
  unfold releaseHeld
  simp (disch := (intro _ _; simp only [kept_releaseOne])) only [kept_units, kept_foldl]

@[simp] theorem kept_finishEnding (s0 : State) : kept (finishEnding s0) = kept s0 := by
  unfold finishEnding
  simp (disch := (intro _ _; (repeat' split) <;> simp only [kept_completeJob])) only [kept_applyNotes, kept_releaseHeld, kept_foldl]

@[simp] theorem kept_wake (s : State) : kept (wake s) = kept s := by
  fun_cases wake s <;> simp only [kept_settleRegions, kept_finishEnding]

@[simp] theorem kept_takePosted (s : State) (p : Poster) : kept (takePosted s p).1 = kept s := by
  fun_cases takePosted s p <;> simp only [kept_units]

@[simp] theorem kept_State_draw (s : State) : kept (State.draw s).2 = kept s := rfl

@[simp] theorem kept_postPeer (s : State) (slot : ℕ) (m : ℕ) (p : Poster) (data : List Byte) : kept (postPeer s slot m p data).1 = kept s := by
  fun_cases postPeer s slot m p data <;> simp (disch := assumption) only [kept_State_draw, kept_postMsg, kept_of_pair']

@[simp] theorem kept_postDelta (s : State) (d : Delta) (m : ℕ) : kept (postDelta s d m).1 = kept s := by
  unfold postDelta
  simp only [kept_postPeer]

@[simp] theorem kept_pumpDelta (s : State) (d : Delta) : kept (pumpDelta s d).1 = kept s := by
  unfold pumpDelta
  simp (disch := (intro _ _; (repeat' split) <;> simp (disch := assumption) only [kept_takePosted, kept_postDelta,
      kept_of_pair])) only [kept_foldl_fst]

@[simp] theorem kept_openBytes (s : State) : kept (openBytes s).1 = kept s := by
  fun_cases openBytes s
  simp (disch := assumption) only [kept_State_draw, kept_of_pair']

@[simp] theorem kept_State_setPg (s : State) (n : ℕ) (g : PGroup) : kept (State.setPg s n g) = kept s := rfl

@[simp] theorem kept_reportStep (s : State) (slot : ℕ) : kept (reportStep s slot) = kept s := by
  fun_cases reportStep s slot <;> simp (disch := assumption) only [kept_openBytes, kept_postPeer, kept_State_setPg, kept_of_pair]

@[simp] theorem kept_finish (s : State) (id : ℕ) (st : Status) : kept (finish s id st) = kept s := by
  unfold finish
  simp only [kept_completeJob]

@[simp] theorem kept_endEpoch (s : State) (slot : ℕ) (g : PGroup) (st : Status) : kept (endEpoch s slot g st) = kept s := by
  fun_cases endEpoch s slot g st <;> simp only [kept_State_setPg, kept_finish]

@[simp] theorem kept_replyTo (s : State) (cmd : ℕ) (r : Reply) : kept (replyTo s cmd r) = kept s := by
  fun_cases replyTo s cmd r <;> simp only [kept_finishCmd]

@[simp] theorem kept_groupEnds (s : State) (slot : ℕ) : kept (groupEnds s slot) = kept s := by
  unfold groupEnds
  (repeat' split) <;> simp only [kept_State_setPg, kept_releaseHeld, kept_replyTo, kept_units]

@[simp] theorem kept_memberLost (s : State) (slot : ℕ) (m : ℕ) : kept (memberLost s slot m) = kept s := by
  fun_cases memberLost s slot m <;> simp +zetaDelta only [kept_endEpoch, kept_State_setPg, kept_groupEnds, kept_units]

@[simp] theorem kept_paritySettle (s : State) : kept (paritySettle s) = kept s := by
  unfold paritySettle
  refine (kept_foldl _ (fun t g => ?_) _ _).trans (kept_foldl _ (fun t d => ?_) _ s)
  · rw [kept_reportStep, kept_foldl _ (fun u m => kept_memberLost ..)]
  · rw [kept_units, kept_pumpDelta]

@[simp] theorem kept_State_setBg (s : State) (i : ℕ) (x2 : BGroup) : kept (State.setBg s i x2) = kept s := rfl

@[simp] theorem kept_postOn (s : State) (fn : ℕ) (h : W64) (m : TxMsg) : kept (postOn s fn h m) = kept s := by
  fun_cases postOn s fn h m <;> simp only [kept_postMsg, kept_completePoster]

@[simp] theorem kept_sendNotice (s : State) (fn : ℕ) (g : BGroup) (rank : ℕ) (n : BitVec 256) : kept (sendNotice s fn g rank n) = kept s := by
  fun_cases sendNotice s fn g rank n <;> simp only [kept_postOn]

@[simp] theorem kept_sendAborts (s : State) (fn : ℕ) (g : BGroup) (j : ℕ) (opc : ℕ) (n : ℕ) (rank : ℕ) (no : Option ℕ) :
    kept (sendAborts s fn g j opc n rank no) = kept s := by
  unfold sendAborts
  simp (disch := (intro _ _; simp only [kept_sendNotice])) only [kept_foldl]

@[simp] theorem kept_breakGroup (s : State) (fn : ℕ) (gi : ℕ) (j : ℕ) (opc : ℕ) (n : ℕ) (st : Status) (rank : ℕ) (no : Option ℕ) :
    kept (breakGroup s fn gi j opc n st rank no) = kept s := by
  unfold breakGroup
  (repeat' split) <;> simp (disch := (intro _ _; simp only [kept_State_count, kept_completeJob])) only [kept_State_setBg, kept_State_count,
      kept_sendAborts, kept_foldl]

@[simp] theorem kept_countOp (s : State) (st : Status) : kept (countOp s st) = kept s := by
  fun_cases countOp s st <;> simp +zetaDelta only [kept_State_count]

@[simp] theorem kept_dropOp (s : State) (gi : ℕ) (j : ℕ) : kept (dropOp s gi j) = kept s := by
  fun_cases dropOp s gi j <;> simp only [kept_State_setBg]

@[simp] theorem kept_completeOp (s : State) (fn : ℕ) (gi : ℕ) (op : BOp) : kept (completeOp s fn gi op) = kept s := by
  unfold completeOp
  dsimp only
  (repeat' split) <;> simp (disch := (intro _ _; simp only [kept_sendNotice])) only [kept_countOp, kept_dropOp, kept_State_setBg, kept_completeJob,
      kept_foldl]

@[simp] theorem kept_landDst (s : State) (fn : ℕ) (gi : ℕ) (r : BitVec 1024) (op : BOp) : kept (landDst s fn gi r op) = kept s := by
  fun_cases landDst s fn gi r op <;> simp only [kept_breakGroup, kept_completeOp]

@[simp] theorem kept_serving (s : State) (codec : Bool) : kept (serving s codec).1 = kept s := by
  fun_cases serving s codec <;> simp (disch := assumption) only [kept_State_choose, kept_of_pair']

@[simp] theorem kept_codecCluster (s : State) : kept (codecCluster s).1 = kept s := by
  unfold codecCluster
  simp only [kept_serving]

@[simp] theorem kept_denied (s : State) (st : Status) : kept (denied s st) = kept s := by
  fun_cases denied s st <;> simp only [kept_State_count]

@[simp] theorem kept_checkGlobal (s : State) (r : Req) (g : ℕ) (len : ℕ) : kept (checkGlobal s r g len).1 = kept s := by
  fun_cases checkGlobal s r g len <;> simp only [kept_State_count, kept_denied]

@[simp] theorem kept_resolveAddr (s : State) (g : Agent) (ga : ℕ) (len : ℕ) : kept (resolveAddr s g ga len).1 = kept s := by
  fun_cases resolveAddr s g ga len <;> simp (disch := assumption) only [kept_checkGlobal, kept_of_pair]

@[simp] theorem kept_waitNear (s : State) (w : Work) (a : ℕ) (len : ℕ) : kept (waitNear s w a len).1 = kept s := by
  unfold waitNear
  dsimp only
  (repeat' split) <;> simp only [kept_units]

@[simp] theorem kept_scrResolve (s : State) (c : ℕ) (off : ℕ) (n : ℕ) : kept (scrResolve s c off n).1 = kept s := by
  unfold scrResolve
  simp (disch := (intro _ _; (repeat' split) <;> simp only [kept_State_trouble, kept_State_count, kept_units])) only [kept_foldl_fst]

@[simp] theorem kept_State_setPort (s : State) (p : ℕ) (x2 : ApPort) : kept (State.setPort s p x2) = kept s := rfl

@[simp] theorem kept_queueTxn (s : State) (p : ℕ) (vc : ℕ) (t : Txn) : kept (queueTxn s p vc t) = kept s := by
  unfold queueTxn
  simp only [kept_State_setPort]

theorem kept_sendMrd (s : State) (w : Work) (a : ℕ) (len : ℕ) {t0 t1} (hret : sendMrd s w a len = some (t0, t1)) : kept t0 = kept s := by
  revert hret
  unfold sendMrd
  dsimp only
  (repeat' split) <;> intro h <;> cases h
  simp only [kept_State_setPort, kept_queueTxn]

@[simp] theorem kept_windowFetch (s : State) (w : Work) (a : ℕ) (len : ℕ) : kept (windowFetch s w a len) = kept s := by
  unfold windowFetch
  simp (disch := (intro _ _; (repeat' split) <;> simp (disch := assumption) only [kept_sendMrd])) only [kept_foldl]

@[simp] theorem kept_windowRead (s : State) (w : Work) (a : ℕ) (len : ℕ) : kept (windowRead s w a len).1 = kept s := by
  unfold windowRead
  (repeat' split) <;> simp only [kept_State_count, kept_windowFetch]

@[simp] theorem kept_agentRead (s : State) (g : Agent) (ga : ℕ) (len : ℕ) : kept (agentRead s g ga len).1 = kept s := by
  fun_cases agentRead s g ga len <;> simp (disch := assumption) only [kept_resolveAddr, kept_waitNear, kept_lakeRead, kept_scrResolve,
      kept_windowRead, kept_of_pair]

@[simp] theorem kept_countOddAny (s : State) : kept (countOddAny s) = kept s := by
  fun_cases countOddAny s <;> simp (disch := assumption) only [kept_codecCluster, kept_State_trouble, kept_of_pair]

@[simp] theorem kept_stagedBlock (s : State) (g : Agent) (a : ℕ) : kept (stagedBlock s g a).1 = kept s := by
  fun_cases stagedBlock s g a <;> simp (disch := assumption) only [kept_agentRead, kept_countOddAny, kept_of_pair]

@[simp] theorem kept_readStaged (s : State) (fn : ℕ) (r : BitVec 1024) (op : BOp) (ph : ℕ) (slot : ℕ) (k : ℕ) :
    kept (readStaged s fn r op ph slot k).1 = kept s := by
  fun_cases readStaged s fn r op ph slot k <;> simp (disch := assumption) only [kept_agentRead, kept_stagedBlock, kept_of_pair]

@[simp] theorem kept_dstBytes (fn : ℕ) (r : BitVec 1024) (out : ℕ) (s : State) (op : BOp) (rs : W64) :
    kept (dstBytes fn r out s op rs).1 = kept s := by
  unfold dstBytes
  dsimp only
  (repeat' split) <;> simp (disch := (intro _ _; dsimp only; (repeat' split) <;> simp only [kept_readStaged])) only [kept_foldl_fst]

@[simp] theorem kept_windowWrite (s : State) (w : Option Work) (express : Bool) (a : ℕ) (bs : List Byte) :
    kept (windowWrite s w express a bs) = kept s := by
  unfold windowWrite
  simp (disch := (intro _ _; simp only [kept_queueTxn])) only [kept_foldl]

@[simp] theorem kept_agentWriteN (s : State) (g : Agent) (ga : ℕ) (bs : List Byte) : kept (agentWriteN s g ga bs).1 = kept s := by
  unfold agentWriteN
  (repeat' split) <;> simp (disch := assumption) only [kept_resolveAddr, kept_lakeWrite, kept_State_tagHeld, kept_scrWrite, kept_State_count,
      kept_windowWrite, kept_of_pair]

@[simp] theorem kept_putOp (s : State) (gi : ℕ) (op : BOp) : kept (putOp s gi op) = kept s := by
  fun_cases putOp s gi op <;> simp only [kept_State_setBg]

@[simp] theorem kept_finishStep (s : State) (fn : ℕ) (gi : ℕ) (op : BOp) : kept (finishStep s fn gi op) = kept s := by
  fun_cases finishStep s fn gi op <;> simp +zetaDelta (disch := assumption) only [kept_landDst, kept_dropOp, kept_codecCluster, kept_breakGroup,
      kept_dstBytes, kept_State_setCl, kept_agentWriteN, kept_putOp, kept_of_pair]

@[simp] theorem kept_addBlock (fn : ℕ) (r : BitVec 1024) (ph : ℕ) (k : ℕ) (slots : List ℕ) (s : State) (op : BOp) :
    kept (addBlock fn r ph k slots s op).1 = kept s := by
  unfold addBlock
  simp (disch := (intro _ _; (repeat' split) <;> simp only [kept_readStaged])) only [kept_foldl_fst]

@[simp] theorem kept_countTerms (s : State) (n : ℕ) : kept (countTerms s n) = kept s := by
  unfold countTerms
  simp only [kept_State_count, kept_units]

@[simp] theorem kept_agentWrite (s : State) (g : Agent) (ga : ℕ) (bs : List Byte) : kept (agentWrite s g ga bs).1 = kept s := by
  fun_cases agentWrite s g ga bs <;> simp (disch := assumption) only [kept_agentWriteN, kept_of_pair]

@[simp] theorem kept_stageEncode (s : State) (fn : ℕ) (c : ℕ) (r : BitVec 1024) (op : BOp) (stage : ℕ) (fmt : ℕ) (blk : ℕ) (vs : List Val)
    (held : Bool) :
    kept (stageEncode s fn c r op stage fmt blk vs held).1 = kept s := by
  unfold stageEncode
  dsimp only
  (repeat' split) <;> simp (disch := assumption) only [kept_agentRead, kept_State_setCl, kept_agentWrite, kept_of_pair]

@[simp] theorem kept_addSegment (fn : ℕ) (c : ℕ) (r : BitVec 1024) (ph : ℕ) (seg : ℕ) (s : State) (op : BOp) :
    kept (addSegment fn c r ph seg s op).1 = kept s := by
  unfold addSegment
  simp (disch := (intro _ _; (repeat' split) <;> simp only [kept_addBlock, kept_State_count, kept_countTerms,
      kept_stageEncode])) only [kept_foldl_fst]

@[simp] theorem kept_reduceStep (fn gi : ℕ) (s : State) (op : BOp) : kept (reduceStep fn gi s op).1 = kept s := by
  unfold reduceStep
  split
  · rfl
  extract_lets r
  split
  · rfl
  have hc := kept_codecCluster s
  split
  next h => rw [kept_breakGroup, ← hc, h]
  next h => rw [kept_foldl_fst _ (fun a x => kept_addSegment ..), ← hc, h]

@[simp] theorem kept_giveSegment (s : State) (fn : ℕ) (gi : ℕ) (op : BOp) (ph : ℕ) (target : ℕ) (seg : ℕ) (blks : List (List Byte)) :
    kept (giveSegment s fn gi op ph target seg blks).1 = kept s := by
  unfold giveSegment
  dsimp only
  (repeat' split) <;> simp (disch := (intro _ _; simp only [kept_agentWrite])) only [kept_postOn, kept_foldl]

@[simp] theorem kept_partStep (fn gi : ℕ) (s : State) (op : BOp) : kept (partStep fn gi s op).1 = kept s := by
  unfold partStep
  dsimp only
  split
  · rfl
  · split
    · rfl
    · rw [kept_foldl_fst]
      intro t q
      rw [kept_foldl_fst]
      intro t k
      (repeat' split) <;> simp only [kept_giveSegment]

@[simp] theorem kept_ownStep (fn gi : ℕ) (s : State) (op : BOp) : kept (ownStep fn gi s op).1 = kept s := by
  unfold ownStep
  split
  · rfl
  extract_lets r
  split
  · rfl
  split
  refine kept_foldl_fst _ (fun a k => ?_) _ _
  extract_lets done
  split
  · rfl
  split
  · rfl
  · exact kept_foldl_fst _ (fun b t => kept_giveSegment ..) _ _

@[simp] theorem kept_gathered (fn : ℕ) (r : BitVec 1024) (op : BOp) (lo : ℕ) (n : ℕ) (s : State) : kept (gathered fn r op lo n s).1 = kept s := by
  unfold gathered
  simp (disch := (intro _ _; simp only [kept_readStaged])) only [kept_foldl_fst]

@[simp] theorem kept_gatherStep (fn gi : ℕ) (s : State) (op : BOp) : kept (gatherStep fn gi s op).1 = kept s := by
  unfold gatherStep
  dsimp only
  split
  · rfl
  · split
    · rfl
    · rw [kept_foldl_fst]
      intro t k
      rw [apply_ite (fun a : State × BOp => kept a.1), kept_foldl_fst _ (fun t q => by rw [kept_giveSegment]), kept_gathered, ite_self]

@[simp] theorem kept_opPass (fn : ℕ) (gi : ℕ) (j : ℕ) (s : State) : kept (opPass fn gi j s) = kept s := by
  fun_cases opPass fn gi j s <;> simp (disch := assumption) only [kept_finishStep, kept_reduceStep, kept_partStep, kept_putOp, kept_ownStep,
      kept_gatherStep, kept_of_pair]

@[simp] theorem kept_blendGo (s : State) (gi : ℕ) : kept (blendGo s gi) = kept s := by
  unfold blendGo
  exact kept_foldl _ (fun t _ => kept_foldl _ (fun u j => kept_opPass ..) _ t) _ s

@[simp] theorem kept_blendSettle (s : State) : kept (blendSettle s) = kept s := by
  unfold blendSettle
  simp (disch := (intro _ _; (repeat' split) <;> simp only [kept_breakGroup, kept_blendGo])) only [kept_foldl]

@[simp] theorem kept_turnPath (s : State) (i : ℕ) (path : ℕ) : kept (turnPath s i path) = kept s := by
  fun_cases turnPath s i path <;> simp only [kept_State_setConn]

@[simp] theorem kept_sendPacket (s : State) (i : ℕ) (c : Conn) (path : ℕ) (h : Hdr) (ext : List Byte) (payload : List Byte) :
    kept (sendPacket s i c path h ext payload) = kept s := by
  fun_cases sendPacket s i c path h ext payload <;> simp only [kept_handToWeld, kept_State_count]

@[simp] theorem kept_sendNext (s : State) (i : ℕ) (c : Conn) (h : Hdr) (ext : List Byte) : kept (sendNext s i c h ext) = kept s := by
  unfold sendNext
  simp only [kept_turnPath, kept_sendPacket]

@[simp] theorem kept_sendNack (s : State) (i : ℕ) (c : Conn) (h : Hdr) (reason : ℕ) (status : ℕ) :
    kept (sendNack s i c h reason status) = kept s := by
  unfold sendNack
  simp only [kept_sendNext]

@[simp] theorem kept_refuseMsg (s : State) (i : ℕ) (c : Conn) (h : Hdr) (st : Status) : kept (refuseMsg s i c h st) = kept s := by
  fun_cases refuseMsg s i c h st <;> simp +zetaDelta only [kept_State_count, kept_sendNack, kept_State_setConn]

@[simp] theorem kept_placeWrite (s : State) (i : ℕ) (again : Bool) (f : State → State × Option Status) (hf : ∀ y0, kept (f y0).1 = kept y0) :
    kept (placeWrite s i again f).1 = kept s := by
  fun_cases placeWrite s i again f <;> simp (disch := assumption) only [kept_dropGot, hf, kept_of_pair]

@[simp] theorem kept_recvWrite (s : State) (i : ℕ) (express : Bool) (e : RecvEntry) (off : ℕ) (bs : List Byte) :
    kept (recvWrite s i express e off bs).1 = kept s := by
  fun_cases recvWrite s i express e off bs <;> simp only [kept_State_hostWrite, kept_agentWrite]

@[simp] theorem kept_placeSend (s : State) (i : ℕ) (again : Bool) (c : Conn) (h : Hdr) (mlen : ℕ) (bs : List Byte) :
    kept (placeSend s i again c h mlen bs).1 = kept s := by
  unfold placeSend
  dsimp only
  (repeat' split) <;> simp (disch := (intro _; intros; (repeat' split) <;> simp only [kept_recvWrite])) only [kept_refuseMsg, kept_placeWrite,
      kept_State_setConn, kept_completeJob]

@[simp] theorem kept_remoteCheck (s : State) (op : RemoteOp) (key : W32) (ga : ℕ) (len : ℕ) : kept (remoteCheck s op key ga len).1 = kept s := by
  unfold remoteCheck
  (repeat' split) <;> simp only [kept_State_count, kept_denied]

@[simp] theorem kept_remoteWrite (s : State) (i : ℕ) (c : Conn) (key : W32) (ga : ℕ) (bs : List Byte) :
    kept (remoteWrite s i c key ga bs).1 = kept s := by
  unfold remoteWrite
  (repeat' split) <;> simp (disch := assumption) only [kept_remoteCheck, kept_State_count, kept_windowWrite, kept_lakeWrite, kept_State_tagHeld,
      kept_of_pair]

@[simp] theorem kept_placeBytes (s : State) (i : ℕ) (again : Bool) (c : Conn) (h : Hdr) (key : W32) (a : ℕ) (bs : List Byte) :
    kept (placeBytes s i again c h key a bs).1 = kept s := by
  unfold placeBytes
  have hw := kept_placeWrite s i again (fun s => remoteWrite s i c key a bs) (fun t => kept_remoteWrite ..)
  split
  next h => rw [← hw, h]
  next h => rw [kept_refuseMsg, ← hw, h]
  next h => rw [← hw, h]

@[simp] theorem kept_becomeVisible (H : Hooks) (hH : KeepsHooks H) (s : State) (i : ℕ) (h : Hdr) (p : RxPkt) :
    kept (becomeVisible H s i h p) = kept s := by
  unfold becomeVisible
  (repeat' split) <;> simp (disch := assumption) only [kept_State_addCtr, kept_trigArrive, kept_Hooks_notice]

@[simp] theorem kept_placeData (H : Hooks) (hH : KeepsHooks H) (s : State) (i : ℕ) (again : Bool) (c : Conn) (h : Hdr) (p : RxPkt) :
    kept (placeData H s i again c h p).1 = kept s := by
  unfold placeData
  dsimp only
  split
  · exact hH.delta _ _ _
  · split
    · rw [kept_refuseMsg]
    · have hp : kept (if h.op = 4 then placeSend s i again c h (bn (extOf p.bytes) 95 64) (if h.nt then [] else payloadOf p.bytes)
          else if h.nt then (s, .done)
          else placeBytes s i again c h (BitVec.ofNat 32 (bn (extOf p.bytes) 127 96)) (bn (extOf p.bytes) 191 128 + (if h.op = 8 then 0 else h.moff))
            (if h.nt then [] else payloadOf p.bytes)).1 = kept s := by
        (repeat' split) <;> simp only [kept_placeSend, kept_placeBytes]
      split
      next s1 hs =>
        rw [← hp, hs]
        split
        · exact kept_becomeVisible H hH _ _ _ _
        · rfl
      next => exact hp

@[simp] theorem kept_placeReadReq (s : State) (i : ℕ) (c : Conn) (h : Hdr) (p : RxPkt) : kept (placeReadReq s i c h p) = kept s := by
  unfold placeReadReq
  dsimp only
  (repeat' split) <;> simp (disch := assumption) only [kept_remoteCheck, kept_refuseMsg, kept_State_count, kept_addMsg, kept_of_pair]

@[simp] theorem kept_respWrite (s : State) (i : ℕ) (m : TxMsg) (off : ℕ) (bs : List Byte) : kept (respWrite s i m off bs).1 = kept s := by
  fun_cases respWrite s i m off bs <;> simp only [kept_State_hostWrite, kept_agentWrite, kept_units]

@[simp] theorem kept_reap (s : State) (i : ℕ) : kept (reap s i) = kept s := by
  fun_cases reap s i <;> simp only [kept_startWaiting, kept_State_setConn]

@[simp] theorem kept_msgDone (s : State) (i : ℕ) (msn : ℕ) (st : Status) (detail : ℕ) (result : ℕ) :
    kept (msgDone s i msn st detail result) = kept s := by
  fun_cases msgDone s i msn st detail result <;> simp only [kept_reap, kept_completePoster, kept_State_setConn]

@[simp] theorem kept_placeReadResp (s : State) (i : ℕ) (again : Bool) (c : Conn) (h : Hdr) (p : RxPkt) :
    kept (placeReadResp s i again c h p).1 = kept s := by
  unfold placeReadResp
  split
  · rfl
  next m _ =>
  have hw := kept_placeWrite s i again (fun s => respWrite s i m h.moff (payloadOf p.bytes)) (fun t => kept_respWrite ..)
  split
  next h => rw [← hw, h]
  next h => rw [kept_msgDone, ← hw, h]
  next h => rw [apply_ite kept, kept_msgDone, ite_self, ← hw, h]

@[simp] theorem kept_lakeAtomic (s : State) (a : ℕ) (f : W64 → Option W64) : kept (lakeAtomic s a f).1 = kept s := by
  fun_cases lakeAtomic s a f <;> simp (disch := assumption) only [kept_lakeRead, kept_lakeWrite, kept_of_pair]

@[simp] theorem kept_placeAtomicReq (s : State) (i : ℕ) (c : Conn) (h : Hdr) (p : RxPkt) : kept (placeAtomicReq s i c h p).1 = kept s := by
  fun_cases placeAtomicReq s i c h p <;> simp (disch := assumption) only [kept_refuseMsg, kept_remoteCheck, kept_waitNear, kept_dropGot,
      kept_lakeAtomic, kept_addMsg, kept_of_pair]

@[simp] theorem kept_placeAtomicResp (s : State) (i : ℕ) (again : Bool) (c : Conn) (p : RxPkt) : kept (placeAtomicResp s i again c p).1 = kept s := by
  unfold placeAtomicResp
  extract_lets x
  split
  · rfl
  next m _ =>
  split
  · rw [kept_msgDone]
  have hw := kept_placeWrite s i again (fun s => respWrite s i m 0 (leBytes 8 (bn x 63 0))) (fun t => kept_respWrite ..)
  split
  next h => rw [← hw, h]
  next h => rw [kept_msgDone, ← hw, h]
  next h => rw [kept_msgDone, ← hw, h]

@[simp] theorem kept_placePacket (H : Hooks) (hH : KeepsHooks H) (s : State) (i : ℕ) (again : Bool) (p : RxPkt) :
    kept (placePacket H s i again p) = kept s := by
  unfold placePacket
  dsimp only
  (repeat' split) <;> simp (disch := assumption) only [kept_State_setConn, kept_placeData, kept_placeReadReq, kept_placeReadResp,
      kept_placeAtomicReq, kept_placeAtomicResp]

@[simp] theorem kept_drainStaged (H : Hooks) (hH : KeepsHooks H) (i : ℕ) (a : ℕ) (x3 : State) : kept (drainStaged H i a x3) = kept x3 := by
  induction a generalizing H i x3 with
  | zero => simp only [drainStaged]
  | succ n ih =>
    unfold drainStaged
    (repeat' split) <;> simp (disch := assumption) only [kept_placePacket, kept_State_setConn, ih]

@[simp] theorem kept_sendAck (s : State) (i : ℕ) : kept (sendAck s i) = kept s := by
  fun_cases sendAck s i <;> simp only [kept_sendNext, kept_State_setConn]

@[simp] theorem kept_goOn (H : Hooks) (hH : KeepsHooks H) (s : State) (i : ℕ) : kept (goOn H s i) = kept s := by
  fun_cases goOn H s i <;> simp +zetaDelta (disch := assumption) only [kept_drainStaged, kept_sendAck]

@[simp] theorem kept_resumeWin (H : Hooks) (hH : KeepsHooks H) (s : State) (i : ℕ) : kept (resumeWin H s i) = kept s := by
  fun_cases resumeWin H s i <;> simp (disch := assumption) only [kept_goOn, kept_placePacket]

end Sys2Proof.Machine
end

section
/-! PROOFS. What a step keeps of the waiting commands and of the fuses, part 3 of 12: the model's functions in the order in which they call each
other, from `resumeAll` to `abortJob`. -/

namespace Sys2Proof.Machine

open Sys2Proof

@[simp] theorem kept_resumeAll (H : Hooks) (hH : KeepsHooks H) (s : State) : kept (resumeAll H s) = kept s := by
  unfold resumeAll
  simp (disch := (intro _ _; (repeat' split) <;> simp (disch := assumption) only [kept_resumeWin])) only [kept_foldl]

@[simp] theorem kept_takeSegment (s : State) (fn : ℕ) (gi : ℕ) (op : BOp) (x4 : BitVec 256) : kept (takeSegment s fn gi op x4) = kept s := by
  fun_cases takeSegment s fn gi op x4 <;> simp +zetaDelta only [kept_breakGroup, kept_State_count, kept_putOp, kept_blendGo]

@[simp] theorem kept_segNotice (s : State) (fn : ℕ) (gi : ℕ) (g : BGroup) (j : ℕ) (rank : ℕ) (x6 : BitVec 256) :
    kept (segNotice s fn gi g j rank x6) = kept s := by
  fun_cases segNotice s fn gi g j rank x6 <;> simp only [kept_takeSegment, kept_State_setBg, kept_breakGroup, kept_State_count]

@[simp] theorem kept_blendNotice (s : State) (conn : ℕ) (x2 : BitVec 256) : kept (blendNotice s conn x2) = kept s := by
  fun_cases blendNotice s conn x2 <;> simp only [kept_State_count, kept_State_setBg, kept_breakGroup, kept_segNotice]

@[simp] theorem kept_applyShare (s : State) (g : PGroup) (page line : ℕ) (f : List Byte → List Byte) :
    kept (applyShare s g page line f) = kept s := by
  fun_cases applyShare s g page line f with
  | case1 h => rfl
  | case2 lp h a s1 bs ps hr he => rw [kept_lakeWrite, ← kept_lakeRead s a 64, hr]
  | case3 lp h a s1 bs ps hr he => rw [← kept_lakeRead s a 64, hr]

@[simp] theorem kept_applyDelta (s : State) (slot : ℕ) (d : DeltaMsg) : kept (applyDelta s slot d) = kept s := by
  fun_cases applyDelta s slot d <;> simp +zetaDelta only [kept_applyShare, kept_State_setPg]

@[simp] theorem kept_contextBytes (a : ℕ) (x1 : State) : kept (contextBytes a x1).1 = kept x1 := by
  induction a generalizing x1 with
  | zero => simp only [contextBytes]
  | succ n ih =>
    unfold contextBytes
    (repeat' split)
    simp (disch := assumption) only [kept_State_draw, kept_of_pair, kept_of_pair', ih]

theorem kept_spillQuiet (s : State) (may : ℕ → Bool) {t0} (hret : spillQuiet s may = some t0) : kept t0 = kept s := by
  revert hret
  unfold spillQuiet
  (repeat' split) <;> intro h <;> cases h
  simp (disch := assumption) only [kept_contextBytes, kept_State_setConn, kept_State_hostWrite, kept_of_pair]

theorem kept_spillOne (s : State) {t : State} (hret : spillOne s = some t) : kept t = kept s := by
  unfold spillOne at hret
  split at hret
  · rw [Option.some.inj hret]
  · exact kept_spillQuiet s _ hret

@[simp] theorem kept_leaveDie (s : State) (slice : ℕ) : kept (leaveDie s slice) = kept s := by
  fun_cases leaveDie s slice <;> simp only [kept_State_setConn]

@[simp] theorem kept_bringOnDie (s : State) (i : ℕ) : kept (bringOnDie s i) = kept s := by
  fun_cases bringOnDie s i <;> simp +zetaDelta only [kept_leaveDie, kept_State_setConn, kept_units]

@[simp] theorem kept_State_entropy (s : State) : kept (State.entropy s).2 = kept s := rfl

@[simp] theorem kept_beginConn (s : State) (i : ℕ) (c : Conn) : kept (beginConn s i c) = kept s := by
  fun_cases beginConn s i c <;> simp (disch := assumption) only [kept_State_setConn, kept_State_entropy, kept_of_pair']

@[simp] theorem kept_State_setSlot (s : State) (cls : ℕ) (i : ℕ) (x3 : Slot) : kept (State.setSlot s cls i x3) = kept s := rfl

@[simp] theorem kept_openSlot (s : State) (cls : ℕ) (i : ℕ) (owner : ℕ) : kept (openSlot s cls i owner) = kept s := by
  unfold openSlot
  simp only [kept_State_setSlot, kept_units]

@[simp] theorem kept_openPeer (slot : ℕ) (s : State) (p : PeerConn) : kept (openPeer slot s p) = kept s := by
  fun_cases openPeer slot s p <;> simp (disch := assumption) only [kept_spillOne, kept_bringOnDie, kept_beginConn, kept_openSlot]

@[simp] theorem kept_sendCtrl (s : State) (i : ℕ) (kind : ℕ) : kept (sendCtrl s i kind) = kept s := by
  fun_cases sendCtrl s i kind <;> simp only [kept_sendNext]

@[simp] theorem kept_sendClose (s : State) (i : ℕ) : kept (sendClose s i) = kept s := by
  fun_cases sendClose s i <;> simp only [kept_State_setConn, kept_sendCtrl]

@[simp] theorem kept_freeSlot (s : State) (cls : ℕ) (i : ℕ) : kept (freeSlot s cls i) = kept s := by
  unfold freeSlot
  simp only [kept_State_setSlot, kept_units]

@[simp] theorem kept_closePeer (s : State) (i : ℕ) : kept (closePeer s i) = kept s := by
  unfold closePeer
  simp only [kept_sendClose, kept_State_setSlot, kept_freeSlot, kept_units]

@[simp] theorem kept_openPeers (s : State) (slot : ℕ) (ps : List PeerConn) : kept (openPeers s slot ps) = kept s := by
  unfold openPeers
  simp (disch := (intro _ _; simp only [kept_openPeer, kept_closePeer])) only [kept_foldl]

@[simp] theorem kept_rebuildBegins (s : State) (slot : ℕ) (m : ℕ) (peers : List PeerConn) : kept (rebuildBegins s slot m peers) = kept s := by
  fun_cases rebuildBegins s slot m peers <;> simp +zetaDelta only [kept_memberLost, kept_reportStep, kept_openPeers, kept_State_setPg]

theorem kept_takePages (place home n : ℕ) (s : State) (taken : List ℕ)
    (lp last : ℕ) {t : State} {k : ℕ} (hret : takePages place home n s taken lp last = some (t, k)) :
    kept t = kept s := by
  induction n generalizing s taken lp last with
  | zero =>
    obtain ⟨rfl, rfl⟩ := Prod.mk.inj (Option.some.inj hret)
    rfl
  | succ n ih =>
    unfold takePages at hret
    split at hret
    · cases hret
    · split at hret
      · cases hret
      · rw [ih _ _ _ _ hret, kept_units]

theorem kept_allocPages (s : State) (place : ℕ) (home : ℕ) (n : ℕ) (lp : ℕ) {t0} (hret : allocPages s place home n lp = some t0) :
    kept t0 = kept s := by
  revert hret
  unfold allocPages
  (repeat' split) <;> intro h <;> cases h <;> simp (disch := assumption) only [kept_takePages, kept_units]

@[simp] theorem kept_recreateRegion (g : PGroup) (s : State) (m : ManifestEntry) : kept (recreateRegion g s m) = kept s := by
  fun_cases recreateRegion g s m <;> simp +zetaDelta (disch := assumption) only [kept_allocPages, kept_State_setSlot, kept_units]

@[simp] theorem kept_reportIn (s : State) (slot : ℕ) (g : PGroup) (epoch : ℕ) (entries : List ManifestEntry) :
    kept (reportIn s slot g epoch entries) = kept s := by
  unfold reportIn
  (repeat' split) <;> simp (disch := (intro _ _; simp only [kept_recreateRegion])) only [kept_State_setPg, kept_foldl]

@[simp] theorem kept_rebuildLine (g : PGroup) (data : Bool) (s : State) (x3 : StripeLine) : kept (rebuildLine g data s x3) = kept s := by
  fun_cases rebuildLine g data s x3 <;> simp only [kept_applyShare, kept_lakeWrite]

@[simp] theorem kept_parityMsg (s : State) (conn : ℕ) (m : ParityMsg) : kept (parityMsg s conn m) = kept s := by
  fun_cases parityMsg s conn m <;> simp only [kept_applyDelta, kept_State_setPg, kept_rebuildBegins, kept_reportIn, kept_rebuildLine]

theorem kept_carmHooks : KeepsHooks carmHooks := ⟨kept_blendNotice, kept_parityMsg⟩

@[simp] theorem kept_settle (s : State) : kept (settle s) = kept s := by
  rw [settle, kept_wake, kept_paritySettle, kept_blendSettle, kept_resumeAll _ kept_carmHooks]

@[simp] theorem kept_afterPort (s : State) : kept (afterPort s) = kept s := by
  unfold afterPort
  simp only [kept_settle, kept_finishEnding]

@[simp] theorem kept_finishRebalance (s : State) (r : ℕ) : kept (finishRebalance s r) = kept s := by
  fun_cases finishRebalance s r <;> simp only [kept_settleRegions, kept_units]

@[simp] theorem kept_settleRebalances (s : State) : kept (settleRebalances s) = kept s := by
  unfold settleRebalances
  simp (disch := (intro _ _; (repeat' split) <;> simp only [kept_finishRebalance])) only [kept_foldl]

@[simp] theorem kept_afterUnit (s : State) : kept (afterUnit s) = kept s := by
  unfold afterUnit
  simp only [kept_safSettle, kept_afterPort, kept_settleRebalances]

@[simp] theorem kept_testOutcome (s : State) (t : ℕ) (u : ℕ) (outcome : ℕ) : kept (testOutcome s t u outcome) = kept s := rfl

@[simp] theorem kept_powerUp (s : State) (c : ℕ) : kept (powerUp s c) = kept s := by
  fun_cases powerUp s c <;> simp only [kept_State_setCl]

@[simp] theorem kept_startTest (a : ℕ) (x1 : State) : kept (startTest a x1) = kept x1 := by
  induction a generalizing x1 with
  | zero => simp only [startTest]
  | succ n ih =>
    unfold startTest
    (repeat' split) <;> simp only [kept_testOutcome, kept_replyTo, kept_powerUp, kept_units, ih]

@[simp] theorem kept_stopTest (s : State) (u : ℕ) : kept (stopTest s u) = kept s := by
  fun_cases stopTest s u <;> simp +zetaDelta only [kept_replyTo, kept_State_count, kept_units]

@[simp] theorem kept_State_setRgn (s : State) (r : ℕ) (x2 : RegionSt) : kept (State.setRgn s r x2) = kept s := rfl

@[simp] theorem kept_codecRead (g : Agent) (blk : ℕ) (r : CodecRun) (a : ℕ) (n : ℕ) : kept (codecRead g blk r a n).1.s = kept r.s := by
  fun_cases codecRead g blk r a n <;> simp (disch := assumption) only [kept_agentRead, kept_of_pair]

@[simp] theorem kept_codecReadKbf (g : Agent) (blk : ℕ) (r : CodecRun) (a : ℕ) : kept (codecReadKbf g blk r a).1.s = kept r.s := by
  unfold codecReadKbf
  dsimp only
  (repeat' split) <;> simp only [kept_codecRead]

@[simp] theorem kept_codecReadSrc (g : Agent) (d : Desc) (blk : ℕ) (n : ℕ) (r : CodecRun) : kept (codecReadSrc g d blk n r).1.s = kept r.s := by
  fun_cases codecReadSrc g d blk n r <;> simp +zetaDelta (disch := assumption) only [kept_codecReadKbf, kept_codecRead, kept_of_codecPair]

@[simp] theorem kept_codecEfIn (g : Agent) (d : Desc) (blk : ℕ) (n : ℕ) (r : CodecRun) (b : SrcBlock) :
    kept (codecEfIn g d blk n r b).1.s = kept r.s := by
  fun_cases codecEfIn g d blk n r b <;> simp (disch := assumption) only [kept_codecRead, kept_of_codecPair]

@[simp] theorem kept_codecWrite (g : Agent) (d : Desc) (blk : ℕ) (r : CodecRun) (bs : List Byte) (ys : List ℕ) :
    kept (codecWrite g d blk r bs ys).s = kept r.s := by
  fun_cases codecWrite g d blk r bs ys <;> simp (disch := assumption) only [kept_agentWriteN, kept_of_pair]

@[simp] theorem kept_codecBlock (g : Agent) (d : Desc) (blk : ℕ) (r : CodecRun) : kept (codecBlock g d blk r).s = kept r.s := by
  unfold codecBlock
  dsimp only
  (repeat' split) <;> simp only [kept_codecReadSrc, kept_codecEfIn, kept_codecWrite]

@[simp] theorem kept_codecRunN (n : ℕ) (s : State) (id : ℕ) (j : Job) (rs : W64) : kept (codecRunN n s id j rs).s = kept s := by
  unfold codecRunN
  simp (disch := (intro _ _; simp only [kept_codecBlock])) only [kept_foldl_codec]

@[simp] theorem kept_codecApply (r : CodecRun) (c : ℕ) : kept (codecApply r c) = kept r.s := by
  fun_cases codecApply r c <;> simp +zetaDelta only [kept_State_setCl, kept_State_trouble]

@[simp] theorem kept_gfRows (g : Agent) (operand : ℕ) (base : ℕ) (stride : ℕ) (first : ℕ) (per : ℕ) (n : ℕ) (a : ℕ) (x8 : ℕ) (x9 : MatRun) :
    kept (gfRows g operand base stride first per n a x8 x9).1.s = kept x9.s := by
  induction a generalizing g operand base stride first per n x8 x9 with
  | zero => simp only [gfRows]
  | succ n ih =>
    unfold gfRows
    (repeat' split) <;> simp (disch := assumption) only [kept_agentRead, kept_of_pair, kept_of_matPair, ih]

@[simp] theorem kept_gfTile (g : Agent) (d : Desc) (tcols : ℕ) (i0 : ℕ) (j0 : ℕ) (r : MatRun) : kept (gfTile g d tcols i0 j0 r).s = kept r.s := by
  unfold gfTile
  dsimp only
  (repeat' split) <;> simp (disch := (intro _ _; (repeat' split) <;> simp (disch := assumption) only [kept_agentWriteN,
      kept_of_pair])) only [kept_gfRows, kept_foldl_s]

@[simp] theorem kept_readRow (g : Agent) (operand : ℕ) (fmt : ℕ) (addr : ℕ) (i : ℕ) (n : ℕ) (size : ℕ) (r : MatRun) :
    kept (readRow g operand fmt addr i n size r).1.s = kept r.s := by
  fun_cases readRow g operand fmt addr i n size r <;> simp (disch := assumption) only [kept_agentRead, kept_of_pair]

@[simp] theorem kept_readRows (g : Agent) (operand : ℕ) (fmt : ℕ) (base : ℕ) (stride : ℕ) (n : ℕ) (size : ℕ) (a : ℕ) (x8 : ℕ) (x9 : MatRun) :
    kept (readRows g operand fmt base stride n size a x8 x9).1.s = kept x9.s := by
  induction a generalizing g operand fmt base stride n size x8 x9 with
  | zero => simp only [readRows]
  | succ n ih =>
    unfold readRows
    (repeat' split) <;> simp (disch := assumption) only [kept_readRow, kept_of_matPair, ih]

@[simp] theorem kept_countSteps (d : Desc) (skip : List Bool) (bs : List (List OBlk)) (r : MatRun) : kept (countSteps d skip bs r).s = kept r.s := by
  unfold countSteps
  simp (disch := (intro _ _; (repeat' split) <;> simp only [])) only [kept_foldl_s]

@[simp] theorem kept_cTerms (g : Agent) (d : Desc) (i : ℕ) (jb : ℕ) (n : ℕ) (r : MatRun) : kept (cTerms g d i jb n r).1.s = kept r.s := by
  unfold cTerms
  dsimp only
  (repeat' split) <;> simp (disch := assumption) only [kept_agentRead, kept_of_pair]

@[simp] theorem kept_matBlock (g : Agent) (d : Desc) (skip : List Bool) (row : List OBlk) (bs : List (List OBlk)) (j0 : ℕ) (i : ℕ) (jb : ℕ)
    (r : MatRun) :
    kept (matBlock g d skip row bs j0 i jb r).s = kept r.s := by
  unfold matBlock
  dsimp only
  (repeat' split) <;> simp (disch := assumption) only [kept_cTerms, kept_agentWriteN, kept_of_pair]

@[simp] theorem kept_kbfTile (g : Agent) (d : Desc) (tcols i0 j0 : ℕ) (r : MatRun) : kept (kbfTile g d tcols i0 j0 r).s = kept r.s := by
  unfold kbfTile
  dsimp only
  split
  · rfl
  · rw [apply_ite MatRun.s, apply_ite MatRun.s, apply_ite kept, apply_ite kept, kept_readRows, kept_readRows, ite_self,
      kept_foldl_s _ (fun x i => by rw [kept_foldl_s _ (fun y b => by rw [kept_matBlock])]), kept_countSteps, kept_readRows, kept_readRows, ite_self]

@[simp] theorem kept_matRun (s : State) (g : Agent) (d : Desc) (tcols : ℕ) (rs : W64) (tiles : List (ℕ × ℕ)) :
    kept (matRun s g d tcols rs tiles).s = kept s := by
  unfold matRun
  simp (disch := (intro _ _; (repeat' split) <;> simp only [kept_gfTile, kept_kbfTile])) only [kept_foldl_s]

@[simp] theorem kept_matApply (r : MatRun) (c : ℕ) : kept (matApply r c) = kept r.s := by
  unfold matApply
  (repeat' split) <;> simp only [kept_State_setCl, kept_State_trouble, kept_State_count]

@[simp] theorem kept_cutJob (s : State) (id : ℕ) (c : ℕ) (j : Job) : kept (cutJob s id c j).1 = kept s := by
  fun_cases cutJob s id c j <;> simp +zetaDelta (disch := assumption) only [kept_State_choose, kept_codecRunN, kept_codecApply, kept_matRun,
      kept_matApply, kept_of_pair']

@[simp] theorem kept_abortEngine (s : State) (c : ℕ) (codec : Bool) (st : Status) : kept (abortEngine s c codec st) = kept s := by
  unfold abortEngine
  simp (disch := (intro _ _; (repeat' split) <;> simp only [kept_cutJob, kept_completeJob, kept_State_count])) only [kept_foldl]

@[simp] theorem kept_endStep (s : State) (r : OptRun) : kept (endStep s r) = kept s := by
  fun_cases endStep s r
  simp only [kept_completeJob, kept_units]

@[simp] theorem kept_endProg (s : State) (i : ℕ) (status : ℕ) (cause : ℕ) (g2 : ℕ) : kept (endProg s i status cause g2) = kept s := by
  fun_cases endProg s i status cause g2 <;> simp +zetaDelta only [kept_dropGot, kept_State_setCore, kept_agentWrite, kept_State_tagHeld,
      kept_State_addCtr, kept_endStep, kept_units]

@[simp] theorem kept_endCore (s : State) (i : ℕ) (status : ℕ) (cause : ℕ) (g2 : ℕ) : kept (endCore s i status cause g2) = kept s := by
  unfold endCore
  simp only [kept_gateIdle, kept_endProg]

@[simp] theorem kept_stopCores (s : State) (is : List ℕ) (st : Status) (cause : ℕ) : kept (stopCores s is st cause) = kept s := by
  unfold stopCores
  simp (disch := (intro _ _; (repeat' split) <;> simp only [kept_endCore])) only [kept_foldl]

@[simp] theorem kept_stopCluster (s : State) (c : ℕ) (st : Status) (cause : ℕ) : kept (stopCluster s c st cause) = kept s := by
  unfold stopCluster
  simp only [kept_abortEngine, kept_stopCores]

@[simp] theorem kept_State_setEng (s : State) (c : ℕ) (codec : Bool) (e : Eng) : kept (State.setEng s c codec e) = kept s := rfl

@[simp] theorem kept_startEngine (s : State) (c : ℕ) (codec : Bool) : kept (startEngine s c codec) = kept s := by
  fun_cases startEngine s c codec <;> simp only [kept_State_setEng, kept_State_setJob]

@[simp] theorem kept_acceptRing (s : State) (c : ℕ) (codec : Bool) : kept (acceptRing s c codec) = kept s := by
  fun_cases acceptRing s c codec <;> simp only [kept_startEngine, kept_State_setJob]

@[simp] theorem kept_reselect (s : State) (c : ℕ) (codec : Bool) : kept (reselect s c codec) = kept s := by
  unfold reselect
  simp (disch := (intro _ _; (repeat' split) <;> simp only [kept_completeJob, kept_acceptRing, kept_State_setJob])) only [kept_foldl]

@[simp] theorem kept_writeBackLine (s : State) (i : ℕ) (r : Req) (l : DLine) : kept (writeBackLine s i r l) = kept s := by
  fun_cases writeBackLine s i r l <;> simp only [kept_denied, kept_State_tagHeld, kept_lakeWrite]

@[simp] theorem kept_emptyCache (s : State) (i : ℕ) (lost : List ℕ) : kept (emptyCache s i lost) = kept s := by
  unfold emptyCache
  simp (disch := (intro _ _; (repeat' split) <;> simp only [kept_markPoison, kept_writeBackLine])) only [kept_State_setCore, kept_foldl]

@[simp] theorem kept_State_note (s : State) (u : ℕ) : kept (State.note s u) = kept s := by
  fun_cases State.note s u <;> simp only [kept_units]

@[simp] theorem kept_State_setUnit (s : State) (u : ℕ) (x2 : UnitSt) : kept (State.setUnit s u x2) = kept s := rfl

@[simp] theorem kept_markRetired (s : State) (u : ℕ) : kept (markRetired s u) = kept s := by
  unfold markRetired
  simp only [kept_State_note, kept_State_setUnit]

@[simp] theorem kept_clearScratch (s : State) (c : ℕ) : kept (clearScratch s c) = kept s := rfl

@[simp] theorem kept_retireCluster (s : State) (c : ℕ) : kept (retireCluster s c) = kept s := by
  unfold retireCluster
  dsimp only
  (repeat' split) <;> simp (disch := (intro _ _; simp only [kept_State_setCore, kept_emptyCache, kept_markRetired])) only [kept_stopCluster,
      kept_State_setCl, kept_reselect, kept_replyTo, kept_clearScratch, kept_foldl]

@[simp] theorem kept_checkCluster (s : State) (c : ℕ) : kept (checkCluster s c) = kept s := by
  fun_cases checkCluster s c <;> simp only [kept_retireCluster]

@[simp] theorem kept_standIn (s : State) (spare : ℕ) (u : ℕ) : kept (standIn s spare u) = kept s := by
  unfold standIn
  simp only [kept_State_note, kept_State_setUnit]

@[simp] theorem kept_retireCore (s : State) (c : ℕ) (pos : ℕ) (planned : Bool) (lost : List ℕ) : kept (retireCore s c pos planned lost) = kept s := by
  unfold retireCore
  dsimp only
  (repeat' split) <;> simp only [kept_markRetired, kept_State_setCl, kept_emptyCache, kept_endCore, kept_standIn, kept_State_setCore]

@[simp] theorem kept_retireEngine (s : State) (c : ℕ) (codec : Bool) : kept (retireEngine s c codec) = kept s := by
  unfold retireEngine
  simp only [kept_reselect, kept_abortEngine, kept_State_note, kept_State_setUnit]

@[simp] theorem kept_State_setWork (s : State) (i : ℕ) (x2 : WorkRing) : kept (State.setWork s i x2) = kept s := rfl

@[simp] theorem kept_drainAll (s : State) : kept (drainAll s) = kept s := by
  unfold drainAll
  simp (disch := (intro _ _; simp only [kept_drainLate])) only [kept_foldl]

@[simp] theorem kept_addLate (s : State) (ls : List LateDone) : kept (addLate s ls) = kept s := rfl

@[simp] theorem kept_stopRing (s : State) (i : ℕ) (gen : ℕ) : kept (stopRing s i gen) = kept s := by
  unfold stopRing
  (repeat' split) <;> simp (disch := (intro _ _; (repeat' split) <;> simp only [kept_report, kept_orphan, kept_unreserve])) only [kept_State_setWork,
      kept_drainAll, kept_addLate, kept_units, kept_foldl]

@[simp] theorem kept_leaveSources (s : State) (i : ℕ) : kept (leaveSources s i) = kept s := by
  fun_cases leaveSources s i
  simp only [kept_orphan]

@[simp] theorem kept_failWaiting (st : Status) (s : State) (w : Waiting) : kept (failWaiting st s w) = kept s := by
  fun_cases failWaiting st s w <;> simp only [kept_completeJob, kept_completePoster]

@[simp] theorem kept_dropParJob (s : State) (id : ℕ) (st : Status) : kept (dropParJob s id st) = kept s := by
  unfold dropParJob
  (repeat' split) <;> simp (disch := (intro _ _; (repeat' split) <;> simp only [kept_endEpoch])) only [kept_stopCores, kept_foldl]

@[simp] theorem kept_dropBlendJob (s : State) (id : ℕ) (st : Status) : kept (dropBlendJob s id st) = kept s := by
  fun_cases dropBlendJob s id st <;> simp only [kept_breakGroup]

@[simp] theorem kept_State_setWq (s : State) (q : ℕ) (x2 : WQueue) : kept (State.setWq s q x2) = kept s := rfl

@[simp] theorem kept_putWjob (s : State) (q : ℕ) (j : WJob) : kept (putWjob s q j) = kept s := by
  fun_cases putWjob s q j <;> simp only [kept_State_setWq]

@[simp] theorem kept_sendRecord (s : State) (fn : ℕ) (j : WJob) (e : ℕ) (x4 : WExpert) (count : ℕ) (aborted : Bool) (keep : Bool) :
    kept (sendRecord s fn j e x4 count aborted keep).1 = kept s := by
  unfold sendRecord
  dsimp only
  (repeat' split) <;> simp only [kept_State_count, kept_agentWrite, kept_postOn, kept_units]

@[simp] theorem kept_sendZero (s : State) (fn : ℕ) (j : WJob) (aborted : Bool) (keep : Bool) : kept (sendZero s fn j aborted keep).1 = kept s := by
  unfold sendZero
  simp (disch := (intro _ _; (repeat' split) <;> simp only [kept_sendRecord])) only [kept_foldl_fst]

@[simp] theorem kept_refuseDispatch (s : State) (q : ℕ) (fn : ℕ) (j : WJob) (st : Status) (detail : ℕ) :
    kept (refuseDispatch s q fn j st detail) = kept s := by
  unfold refuseDispatch
  (repeat' split) <;> simp (disch := assumption) only [kept_sendZero, kept_applyNotes, kept_completeJob, kept_finish, kept_putWjob, kept_of_pair]

@[simp] theorem kept_dropWoadJob (s : State) (id : ℕ) (st : Status) : kept (dropWoadJob s id st) = kept s := by
  unfold dropWoadJob
  refine (kept_units ..).trans (kept_foldl _ (fun t p => ?_) _ s)
  refine kept_foldl _ (fun u j => ?_) _ t
  (repeat' split) <;> simp only [kept_putWjob, kept_refuseDispatch]

@[simp] theorem kept_dropCarmJob (s : State) (id : ℕ) : kept (dropCarmJob s id) = kept s := rfl

@[simp] theorem kept_drawBlocks (a : ℕ) (x1 : State) : kept (drawBlocks a x1).1 = kept x1 := by
  induction a generalizing x1 with
  | zero => simp only [drawBlocks]
  | succ n ih =>
    unfold drawBlocks
    (repeat' split)
    simp (disch := assumption) only [kept_State_entropy, kept_of_pair, kept_of_pair', ih]

@[simp] theorem kept_writeUntil (g : Agent) (n : ℕ) (s : State) (a : ℕ) (bs : List Byte) : kept (writeUntil g n s a bs).1 = kept s := by
  induction n generalizing s a bs with
  | zero => rfl
  | succ n ih =>
    unfold writeUntil
    split
    · rfl
    · dsimp only
      have hw := kept_agentWrite s g a (bs.take (64 - a % 64))
      split
      next h => rw [← hw, h]
      next h => rw [ih, ← hw, h]

@[simp] theorem kept_mordantWrite (s : State) (id : ℕ) (j : Job) (host : Bool) (a : ℕ) (bs : List Byte) :
    kept (mordantWrite s id j host a bs).1 = kept s := by
  fun_cases mordantWrite s id j host a bs <;> simp (disch := assumption) only [kept_State_hostWrite, kept_agentWrite, kept_writeUntil, kept_of_pair]

@[simp] theorem kept_mordantRead (s : State) (id : ℕ) (j : Job) (host : Bool) (a : ℕ) (n : ℕ) : kept (mordantRead s id j host a n).1 = kept s := by
  fun_cases mordantRead s id j host a n <;> simp (disch := assumption) only [kept_agentRead, kept_of_pair]

@[simp] theorem kept_cutMordant (s : State) (job : ℕ) (j : Job) : kept (cutMordant s job j).1 = kept s := by
  fun_cases cutMordant s job j <;> simp (disch := assumption) only [kept_State_choose, kept_drawBlocks, kept_mordantWrite, kept_mordantRead,
      kept_State_count, kept_of_pair, kept_of_pair']

@[simp] theorem kept_abortJob (s : State) (st : Status) (id : ℕ) : kept (abortJob s st id) = kept s := by
  unfold abortJob
  (repeat' split) <;> simp only [kept_dropParJob, kept_dropBlendJob, kept_dropWoadJob, kept_dropCarmJob, kept_cutJob, kept_State_count,
      kept_cutMordant, kept_endJob, kept_startEngine]

end Sys2Proof.Machine
end

section
/-! PROOFS. What a step keeps of the waiting commands and of the fuses, part 4 of 12: the model's functions in the order in which they call each
other, from `abortJobs` to `execChCreateCompletionRing`. -/

namespace Sys2Proof.Machine

open Sys2Proof

@[simp] theorem kept_abortJobs (s : State) (st : Status) (p : Job → Bool) : kept (abortJobs s st p) = kept s := by
  unfold abortJobs
  rw [kept_foldl]
  intro y0 y1
  simp only [kept_abortJob]

@[simp] theorem kept_stopConn (s : State) (i : ℕ) : kept (stopConn s i) = kept s := by
  unfold stopConn
  (repeat' split) <;> simp (disch := (intro _ _; simp only [kept_completePoster, kept_failWaiting, kept_completeJob])) only [kept_leaveSources,
      kept_State_setConn, kept_abortJobs, kept_units, kept_foldl]

@[simp] theorem kept_countParts (s : State) (q : ℕ) : kept (countParts s q) = kept s := by
  fun_cases countParts s q <;> simp only [kept_State_count]

@[simp] theorem kept_stopSq (s : State) (q : ℕ) : kept (stopSq s q) = kept s := by
  unfold stopSq
  (repeat' split) <;> simp (disch := (intro _ _; (repeat' split) <;> simp only [kept_unreserve, kept_dropNv, kept_nvEnd])) only [kept_countParts,
      kept_foldl]

@[simp] theorem kept_stopQueue (s : State) (q : ℕ) : kept (stopQueue s q) = kept s := by
  unfold stopQueue
  simp (disch := (intro _ _; (repeat' split) <;> simp only [kept_completeJob, kept_refuseDispatch])) only [kept_abortJobs, kept_foldl]

@[simp] theorem kept_stopGroup (s : State) (gi : ℕ) : kept (stopGroup s gi) = kept s := by
  unfold stopGroup
  (repeat' split) <;> simp (disch := (intro _ _; simp only [kept_State_count, kept_completeJob])) only [kept_sendAborts, kept_State_count,
      kept_abortJobs, kept_State_setBg, kept_foldl]

@[simp] theorem kept_closeRegion (s : State) (i : ℕ) : kept (closeRegion s i) = kept s := by
  fun_cases closeRegion s i <;> simp +zetaDelta only [kept_settleRegions, kept_replyTo, kept_units]

@[simp] theorem kept_popHead (s : State) (ring : ℕ) : kept (popHead s ring) = kept s := rfl

@[simp] theorem kept_stopCtrs (s : State) (first : ℕ) : kept (stopCtrs s first) = kept s := by
  unfold stopCtrs
  dsimp only
  rw [kept_units, kept_foldl]
  intro t p
  (repeat' split) <;> simp only [kept_report, kept_popHead]

@[simp] theorem kept_stopTrig (s : State) (i : ℕ) : kept (stopTrig s i) = kept s := by
  fun_cases stopTrig s i <;> simp only [kept_drainAll, kept_addLate, kept_units]

@[simp] theorem kept_destroyStart (s : State) (cls : ℕ) (i : ℕ) (cmd : ℕ) (sweep : Bool) : kept (destroyStart s cls i cmd sweep) = kept s := by
  fun_cases destroyStart s cls i cmd sweep <;> simp +zetaDelta only [kept_State_setSlot, kept_stopRing, kept_stopConn, kept_stopSq, kept_stopQueue,
      kept_stopGroup, kept_abortJobs, kept_closeRegion, kept_stopCtrs, kept_stopTrig, kept_units]

@[simp] theorem kept_retireInCluster (s : State) (c : ℕ) (i : ℕ) (planned : Bool) (lost : List ℕ) :
    kept (retireInCluster s c i planned lost) = kept s := by
  unfold retireInCluster
  dsimp only
  (repeat' split) <;> simp (disch := (intro _ _; simp only [kept_destroyStart])) only [kept_State_setCl, kept_checkCluster, kept_retireCore,
      kept_retireEngine, kept_markRetired, kept_retireCluster, kept_foldl]

@[simp] theorem kept_State_setStack (s : State) (i : ℕ) (x2 : Stack) : kept (State.setStack s i x2) = kept s := rfl

@[simp] theorem kept_poisonPage (s : State) (pp : ℕ) : kept (poisonPage s pp) = kept s := by
  unfold poisonPage
  rw [kept_foldl]
  intro y0 y1
  simp only [kept_markPoison]

@[simp] theorem kept_poisonPages (s : State) (lps : List ℕ) : kept (poisonPages s lps) = kept s := by
  unfold poisonPages
  rw [kept_foldl]
  intro y0 y1
  (repeat' split) <;> simp only [kept_poisonPage]

theorem kept_moveTarget (s : State) (lp : ℕ) {n : ℕ} {t : State} (hret : moveTarget s lp = some (n, t)) : kept t = kept s := by
  unfold moveTarget at hret
  dsimp only at hret
  split at hret
  · obtain ⟨_, _, hx⟩ := Option.map_eq_some_iff.mp hret
    obtain ⟨-, rfl⟩ := Prod.mk.inj hx
    split <;> exact kept_units _ ..
  · split at hret
    · obtain ⟨_, _, hx⟩ := Option.map_eq_some_iff.mp hret
      obtain ⟨-, rfl⟩ := Prod.mk.inj hx
      exact kept_units _ ..
    · cases hret

@[simp] theorem kept_startMoves (why : MoveWhy) (a : List ℕ) (x2 : State) : kept (startMoves why a x2) = kept x2 := by
  induction a generalizing why x2 with
  | nil => simp only [startMoves]
  | cons x xs ih =>
    unfold startMoves
    (repeat' split) <;> simp (disch := assumption) only [kept_moveTarget, kept_setEvent, kept_units, ih]

@[simp] theorem kept_redirectMoves (s : State) (bad : ℕ → Bool) : kept (redirectMoves s bad) = kept s := by
  unfold redirectMoves
  dsimp only
  rw [kept_foldl, kept_units]
  intro t m
  split <;> simp only [kept_startMoves]

@[simp] theorem kept_loseRole (s : State) (stack : ℕ) (role : ℕ) : kept (loseRole s stack role) = kept s := by
  fun_cases loseRole s stack role <;> simp +zetaDelta only [kept_setEvent, kept_State_setStack, kept_poisonPages, kept_redirectMoves, kept_startMoves]

@[simp] theorem kept_checkStack (s : State) (k : ℕ) : kept (checkStack s k) = kept s := by
  unfold checkStack
  (repeat' split) <;> simp (disch := (intro _ _; (repeat' split) <;> simp only [kept_markRetired, kept_loseRole,
      kept_State_setStack])) only [kept_foldl]

@[simp] theorem kept_retireDie (s : State) (stack : ℕ) (die : ℕ) : kept (retireDie s stack die) = kept s := by
  fun_cases retireDie s stack die <;> simp +zetaDelta only [kept_setEvent, kept_State_setUnit, kept_State_setStack, kept_loseRole, kept_units]

@[simp] theorem kept_retireRegion (s : State) (r : ℕ) (stopped : Bool) : kept (retireRegion s r stopped) = kept s := by
  unfold retireRegion
  dsimp only
  (repeat' split) <;> simp (disch := (intro _ _; (repeat' split) <;> simp only [kept_retireCluster])) only [kept_State_setRgn, kept_poisonPages,
      kept_startMoves, kept_redirectMoves, kept_units, kept_foldl]

@[simp] theorem kept_failWork (s : State) (w : Work) : kept (failWork s w) = kept s := by
  fun_cases failWork s w <;> simp only [kept_units]

@[simp] theorem kept_dropLink (s : State) (p : ℕ) : kept (dropLink s p) = kept s := by
  unfold dropLink
  simp (disch := (intro _ _; simp only [kept_failWork])) only [kept_State_setPort, kept_foldl]

@[simp] theorem kept_portDown (s : State) (p : ℕ) (cause : ℕ) : kept (portDown s p cause) = kept s := by
  fun_cases portDown s p cause
  simp +zetaDelta only [kept_dropLink, kept_State_setPort]

@[simp] theorem kept_fastRetrain (s : State) (p : ℕ) : kept (fastRetrain s p) = kept s := by
  unfold fastRetrain
  simp only [kept_State_count, kept_State_setPort]

@[simp] theorem kept_retireApLane (s : State) (p : ℕ) (l : ℕ) : kept (retireApLane s p l) = kept s := by
  fun_cases retireApLane s p l <;> simp +zetaDelta only [kept_markRetired, kept_portDown, kept_fastRetrain]

@[simp] theorem kept_State_setEth (s : State) (p : ℕ) (x2 : EthPort) : kept (State.setEth s p x2) = kept s := rfl

@[simp] theorem kept_State_setShaper (s : State) (i : ℕ) (x2 : Shaper) : kept (State.setShaper s i x2) = kept s := rfl

@[simp] theorem kept_tickShapers (s : State) (p : ℕ) : kept (tickShapers s p) = kept s := by
  unfold tickShapers
  rw [kept_foldl]
  intro y0 y1
  simp only [kept_State_setShaper]

@[simp] theorem kept_flushPort (s : State) (p : ℕ) : kept (flushPort s p) = kept s := by
  unfold flushPort
  simp (disch := (intro _ _; simp only [kept_discardFrame])) only [kept_tickShapers, kept_units, kept_foldl]

@[simp] theorem kept_powerGood (s : State) (level : ℕ) : kept (powerGood s level) = kept s := by
  unfold powerGood
  simp only [kept_State_emit]

@[simp] theorem kept_holdHosts (s : State) : kept (holdHosts s) = kept s := rfl

@[simp] theorem kept_guarded (s : State) (n : ℕ) : kept (guarded s n) = kept s := rfl

@[simp] theorem kept_saveStart (s : State) : kept (saveStart s) = kept s := by
  unfold saveStart
  (repeat' split) <;> simp (disch := (intro _ _; simp only [kept_countParts])) only [kept_units, kept_foldl]

@[simp] theorem kept_keptState (s : State) : kept (keptState s) = kept s := rfl

@[simp] theorem kept_warmClear (s : State) : kept (warmClear s) = kept s := by
  unfold warmClear
  simp only [kept_keptState, kept_units]

@[simp] theorem kept_warmReset (s : State) (code : ℕ) (save : Bool) : kept (warmReset s code save) = kept s := by
  fun_cases warmReset s code save <;> simp +zetaDelta only [kept_powerGood, kept_holdHosts, kept_guarded, kept_saveStart, kept_warmClear, kept_units]

@[simp] theorem kept_packageFault (s : State) : kept (packageFault s) = kept s := by
  unfold packageFault
  simp only [kept_warmReset]

@[simp] theorem kept_relight (s : State) (p : ℕ) : kept (relight s p) = kept s := by
  fun_cases relight s p <;> simp +zetaDelta only [kept_flushPort, kept_State_setEth]

@[simp] theorem kept_State_setCart (s : State) (e : ℕ) (x2 : Cart) : kept (State.setCart s e x2) = kept s := rfl

@[simp] theorem kept_lifeLog (s : State) (e : ℕ) (event : ℕ) (emitter : ℕ) (half : ℕ) : kept (lifeLog s e event emitter half) = kept s := by
  fun_cases lifeLog s e event emitter half <;> simp (disch := assumption) only [kept_State_draw, kept_State_setCart, kept_of_pair']

@[simp] theorem kept_takeHalf (s : State) (e : ℕ) (h : ℕ) (i : ℕ) (old : ℕ) : kept (takeHalf s e h i old) = kept s := by
  unfold takeHalf
  simp only [kept_State_setUnit, kept_State_setCart]

@[simp] theorem kept_assignSpare (s : State) (e : ℕ) (h : ℕ) (old : ℕ) : kept (assignSpare s e h old) = kept s := by
  fun_cases assignSpare s e h old <;> simp only [kept_lifeLog, kept_takeHalf]

@[simp] theorem kept_retireEmitter (s : State) (e : ℕ) (i : ℕ) : kept (retireEmitter s e i) = kept s := by
  unfold retireEmitter
  dsimp only
  (repeat' split) <;> simp only [kept_lifeLog, kept_State_setUnit, kept_State_setCart, kept_assignSpare, kept_relight]

@[simp] theorem kept_enginePortsDown (s : State) (e : ℕ) (cause : ℕ) : kept (enginePortsDown s e cause) = kept s := by
  unfold enginePortsDown
  rw [kept_foldl]
  intro y0 y1
  dsimp only
  (repeat' split) <;> simp only [kept_State_setEth, kept_flushPort]

@[simp] theorem kept_retireOptic (s : State) (e : ℕ) (i : ℕ) : kept (retireOptic s e i) = kept s := by
  fun_cases retireOptic s e i <;> simp +zetaDelta only [kept_markRetired, kept_State_setEth, kept_flushPort, kept_relight, kept_retireEmitter,
      kept_enginePortsDown, kept_State_setCart]

@[simp] theorem kept_answerPlanned (s : State) : kept (answerPlanned s) = kept s := by
  unfold answerPlanned
  simp (disch := (intro _ _; simp only [kept_replyTo])) only [kept_units, kept_foldl]

@[simp] theorem kept_retireUnit (s : State) (u : ℕ) (planned : Bool) (lost : List ℕ) : kept (retireUnit s u planned lost) = kept s := by
  unfold retireUnit
  dsimp only
  (repeat' split) <;> simp only [kept_State_setRgn, kept_retireInCluster, kept_checkStack, kept_retireDie, kept_State_note, kept_retireRegion,
      kept_markRetired, kept_retireApLane, kept_State_setEth, kept_flushPort, kept_packageFault, kept_retireOptic, kept_standIn, kept_answerPlanned]

@[simp] theorem kept_execUnitFault (unit : ℕ) (lost : List ℕ) (s : State) : outKept (execUnitFault unit lost s) = some (kept s) := by
  fun_cases execUnitFault unit lost s <;> simp only [kept_next, kept_afterUnit, kept_startTest, kept_stopTest, kept_retireUnit, kept_State_trouble]

@[simp] theorem kept_clearCore (s : State) (i : ℕ) (lost : List ℕ) : kept (clearCore s i lost) = kept s := by
  fun_cases clearCore s i lost
  simp +zetaDelta only [kept_emptyCache, kept_State_setCore]

@[simp] theorem kept_resetCluster (s : State) (c : ℕ) (lost : List ℕ) : kept (resetCluster s c lost) = kept s := by
  unfold resetCluster
  simp (disch := (intro _ _; simp only [kept_clearCore])) only [kept_stopCluster, kept_clearScratch, kept_State_setEng, kept_State_setCl, kept_foldl]

@[simp] theorem kept_execClusterReset (work : ClusterLoss) (s : State) : outKept (execClusterReset work s) = some (kept s) := by
  fun_cases execClusterReset work s <;> simp only [kept_next, kept_resetCluster]

@[simp] theorem kept_renumber (s : State) (c : ℕ) : kept (renumber s c) = kept s := by
  unfold renumber
  rw [kept_foldl]
  intro y0 y1
  simp only [kept_State_setCore]

@[simp] theorem kept_retireBanks (s : State) (c : ℕ) : kept (retireBanks s c) = kept s := by
  unfold retireBanks
  simp (disch := (intro _ _; (repeat' split) <;> simp only [kept_markRetired])) only [kept_State_setCl, kept_foldl]

@[simp] theorem kept_handOver (s : State) (c : ℕ) : kept (handOver s c) = kept s := by
  fun_cases handOver s c <;> simp only [kept_replyTo, kept_State_setCl]

@[simp] theorem kept_clusterBack (s : State) (c : ℕ) : kept (clusterBack s c) = kept s := by
  unfold clusterBack
  dsimp only
  (repeat' split) <;> simp (disch := (intro _ _; simp only [kept_retireUnit])) only [kept_State_setCl, kept_answerPlanned, kept_checkCluster,
      kept_renumber, kept_retireBanks, kept_handOver, kept_acceptRing, kept_foldl]

@[simp] theorem kept_execClusterResetDone (cluster : ℕ) (s : State) : outKept (execClusterResetDone cluster s) = some (kept s) := by
  fun_cases execClusterResetDone cluster s <;> simp only [kept_next, kept_afterUnit, kept_clusterBack]

@[simp] theorem kept_connError (s : State) (i : ℕ) (st : Status) : kept (connError s i st) = kept s := by
  unfold connError
  dsimp only
  (repeat' split) <;> simp (disch := (intro _ _; simp only [kept_completePoster, kept_failWaiting, kept_completeJob])) only [kept_State_count,
      kept_leaveSources, kept_State_setConn, kept_sendClose, kept_State_addCtr, kept_foldl]

@[simp] theorem kept_sliceOff (s : State) (r : ℕ) (lost : List ℕ) : kept (sliceOff s r lost) = kept s := by
  unfold sliceOff
  simp (disch := (intro _ _; simp only [kept_connError])) only [kept_units, kept_foldl]

@[simp] theorem kept_execRegionReset (region : ℕ) (umber : Bool) (lost : List ℕ) (s : State) :
    outKept (execRegionReset region umber lost s) = some (kept s) := by
  unfold execRegionReset
  dsimp only
  (repeat' split) <;> simp (disch := (intro _ _; (repeat' split) <;> simp only [kept_resetCluster])) only [kept_State_setRgn, kept_sliceOff,
      kept_afterUnit, kept_guarded, outKept_next, kept_foldl]

@[simp] theorem kept_sendCloses (s : State) : kept (sendCloses s) = kept s := by
  unfold sendCloses
  rw [kept_foldl]
  intro y0 y1
  simp only [kept_sendClose]

@[simp] theorem kept_execRegionResetDone (region : ℕ) (s : State) : outKept (execRegionResetDone region s) = some (kept s) := by
  unfold execRegionResetDone
  dsimp only
  (repeat' split) <;> simp (disch := (intro _ _; (repeat' split) <;> simp only [kept_retireUnit, kept_clusterBack,
      kept_bringOnDie])) only [kept_State_setRgn, kept_afterUnit, kept_sendCloses, kept_units, outKept_next, kept_foldl]

@[simp] theorem kept_dropHeld (s : State) (r : ℕ) : kept (dropHeld s r) = kept s := by
  unfold dropHeld
  simp (disch := (intro _ _; (repeat' split) <;> simp only [kept_units])) only [kept_units, kept_foldl]

@[simp] theorem kept_failRegion (s : State) (w : Work) : kept (failRegion s w) = kept s := by
  unfold failRegion
  (repeat' split) <;> simp only [kept_completeJob, kept_units]

@[simp] theorem kept_failQueued (s : State) (c : ℕ) (codec : Bool) (st : Status) : kept (failQueued s c codec st) = kept s := by
  unfold failQueued
  rw [kept_foldl]
  intro y0 y1
  simp only [kept_completeJob]

@[simp] theorem kept_execRegionResetTimeout (region : ℕ) (waiting : List ℕ) (s : State) :
    outKept (execRegionResetTimeout region waiting s) = some (kept s) := by
  unfold execRegionResetTimeout
  dsimp only
  (repeat' split) <;> simp (disch := (intro _ _; simp only [kept_failRegion, kept_failQueued])) only [kept_dropHeld, kept_State_setRgn,
      kept_afterUnit, kept_retireRegion, kept_units, outKept_next, kept_foldl]

@[simp] theorem kept_execClusterPowerUp (cluster : ℕ) (s : State) : outKept (execClusterPowerUp cluster s) = some (kept s) := by
  unfold execClusterPowerUp
  simp only [kept_next, kept_powerUp]

@[simp] theorem kept_execClusterGate (cluster : ℕ) (s : State) : outKept (execClusterGate cluster s) = some (kept s) := by
  fun_cases execClusterGate cluster s <;> simp only [kept_next, kept_State_setCl]

@[simp] theorem kept_reclaimStop (s : State) (c : ℕ) : kept (reclaimStop s c) = kept s := by
  fun_cases reclaimStop s c <;> simp only [kept_resetCluster, kept_State_setCl]

@[simp] theorem kept_reclaimStart (s : State) (c : ℕ) (r : Reclaim) (now : Bool) : kept (reclaimStart s c r now) = kept s := by
  unfold reclaimStart
  dsimp only
  (repeat' split) <;> simp (disch := (intro _ _; (repeat' split) <;> simp only [kept_State_setCore])) only [kept_reselect, kept_State_setCl,
      kept_reclaimStop, kept_foldl]

@[simp] theorem kept_execWorldChange (cluster : ℕ) (secure : Bool) (s : State) : outKept (execWorldChange cluster secure s) = some (kept s) := by
  fun_cases execWorldChange cluster secure s <;> simp only [kept_next, kept_reclaimStart]

@[simp] theorem kept_upset (s : State) (u : ℕ × ℕ) : kept (upset s u) = kept s := by
  fun_cases upset s u <;> simp only [kept_setBad, kept_units]

@[simp] theorem kept_resolveAny (s : State) (pl : ℕ) : kept (resolveAny s pl) = kept s := by
  fun_cases resolveAny s pl <;> simp only [kept_resolveAt, kept_resolveLine]

@[simp] theorem kept_execScrubRead (upsets : List (ℕ × ℕ)) (s : State) : outKept (execScrubRead upsets s) = some (kept s) := by
  unfold execScrubRead
  dsimp only
  (repeat' split) <;> simp (disch := (intro _ _; simp only [kept_upset])) only [kept_resolveAny, kept_units, outKept_next, kept_foldl]

@[simp] theorem kept_execRefreshRound (stack : ℕ) (die : ℕ) (s : State) : outKept (execRefreshRound stack die s) = some (kept s) := by
  fun_cases execRefreshRound stack die s <;> simp only [kept_next, kept_State_setStack]

@[simp] theorem kept_retryDegraded (s : State) : kept (retryDegraded s) = kept s := by
  fun_cases retryDegraded s <;> simp (disch := assumption) only [kept_moveTarget, kept_units]

@[simp] theorem kept_releasePages (s : State) (lp : ℕ) (n : ℕ) : kept (releasePages s lp n) = kept s := rfl

@[simp] theorem kept_shrinkReserve (s : State) (n : ℕ) : kept (shrinkReserve s n) = kept s := by
  unfold shrinkReserve
  rw [kept_foldl_fst]
  intro y0 y1
  dsimp only
  (repeat' split) <;> simp only [kept_releasePages, kept_units]

theorem kept_takeFwRegion (s : State) (kind : FwKind) (n : ℕ) {t0} (hret : takeFwRegion s kind n = some t0) : kept t0 = kept s := by
  revert hret
  unfold takeFwRegion
  (repeat' split) <;> intro h <;> cases h
  simp (disch := assumption) only [kept_allocPages, kept_units]

theorem kept_applySize (s : State) (size : ℕ) {t : State} (hret : applySize s size = some t) : kept t = kept s := by
  unfold applySize at hret
  dsimp only at hret
  split at hret
  · rw [← Option.some.inj hret, kept_units, kept_shrinkReserve]
  · obtain ⟨u, hu, rfl⟩ := Option.map_eq_some_iff.mp hret
    rw [kept_units, kept_takeFwRegion _ _ _ hu]

@[simp] theorem kept_copyLog (a : ℕ) (x1 : State) : kept (copyLog a x1) = kept x1 := by
  fun_induction copyLog a x1 <;> simp +zetaDelta only [kept_State_hostWrite, kept_units, *]

@[simp] theorem kept_State_log (s : State) (sev : ℕ) (src : ℕ) (event : ℕ) (arg : ℕ) : kept (State.log s sev src event arg) = kept s := by
  unfold State.log
  dsimp only
  (repeat' split) <;> simp only [kept_State_count, kept_State_emit, kept_copyLog, kept_units]

@[simp] theorem kept_State_event (s : State) (src : Option ℕ) (ev : ℕ) (arg : ℕ) : kept (State.event s src ev arg) = kept s := by
  fun_cases State.event s src ev arg
  simp only [kept_State_log]

@[simp] theorem kept_trySize (s : State) (logIt : Bool) : kept (trySize s logIt) = kept s := by
  fun_cases trySize s logIt <;> simp +zetaDelta (disch := assumption) only [kept_applySize, kept_State_event, kept_units]

@[simp] theorem kept_execPageZeroingDone (s : State) : outKept (execPageZeroingDone s) = some (kept s) := by
  unfold execPageZeroingDone
  dsimp only
  (repeat' split) <;> simp only [kept_next, kept_retryDegraded, kept_trySize, kept_units]

@[simp] theorem kept_execDieRetirement (stack : ℕ) (die : ℕ) (s : State) : outKept (execDieRetirement stack die s) = some (kept s) := by
  fun_cases execDieRetirement stack die s <;> simp only [kept_next, kept_afterUnit, kept_retireUnit]

@[simp] theorem kept_copyPage (s : State) (c : DieCopy) : kept (copyPage s c) = kept s := by
  unfold copyPage
  (repeat' split) <;> simp (disch := (intro _ _; simp only [kept_resolveAny])) only [kept_setEvent, kept_units, kept_foldl]

@[simp] theorem kept_switchPage (s : State) (m : Move) : kept (switchPage s m) = kept s := by
  unfold switchPage
  split
  · rfl
  · dsimp only
    rw [kept_units, kept_foldl _ (fun t x => by rw [kept_setPoison, kept_setPoison]), kept_units, kept_foldl _ (fun t x => kept_resolveAny t x)]

@[simp] theorem kept_afterMove (s : State) (why : MoveWhy) : kept (afterMove s why) = kept s := by
  fun_cases afterMove s why <;> simp +zetaDelta only [kept_setEvent, kept_finishRebalance]

@[simp] theorem kept_execPageMigrated (stack : ℕ) (s : State) : outKept (execPageMigrated stack s) = some (kept s) := by
  fun_cases execPageMigrated stack s <;> simp +zetaDelta only [kept_next, kept_copyPage, kept_switchPage, kept_retryDegraded, kept_afterMove,
      kept_units]

@[simp] theorem kept_runCmd (s : State) (k : MboxId) (w : W64) (op : ℕ) (hasBlk : Bool) (blk : CmdBlock) (body : FwBody) (hbody : ∀ y0 y1 y2,
    kept (body y0 y1 y2).1 = kept y0) :
    kept (runCmd s k w op hasBlk blk body) = kept s := by
  unfold runCmd
  dsimp only
  (repeat' split) <;> simp (disch := assumption) only [kept_holdReply, kept_writeBack, kept_finishCmd, hbody, kept_units, kept_of_pair]

@[simp] theorem kept_takeWord (s : State) (k : MboxId) : kept (takeWord s k) = kept s := by
  fun_cases takeWord s k <;> simp +zetaDelta only [kept_State_setPair, kept_units]

@[simp] theorem kept_fwCommandOn (duty : ℕ) (op : ℕ) (hasBlk : Bool) (k : MboxId) (blk : CmdBlock) (body : FwBody) (hbody : ∀ y0 y1 y2,
    kept (body y0 y1 y2).1 = kept y0) (s : State) :
    kept (fwCommandOn duty op hasBlk k blk body s) = kept s := by
  fun_cases fwCommandOn duty op hasBlk k blk body s <;> simp +zetaDelta (disch := assumption) only [kept_runCmd, kept_takeWord, kept_holdReply,
      kept_units]

@[simp] theorem kept_refuse (s : State) (st : Status) : kept (refuse s st).1 = kept s := rfl

@[simp] theorem kept_chCommand (op : ℕ) (classes : List ℕ) (k : MboxId) (blk : CmdBlock) (body : FwBody)
    (hbody : ∀ s c b, kept (body s c b).1 = kept s) (s : State) (duty : ℕ) : kept (chCommand op classes k blk body s duty) = kept s := by
  unfold chCommand
  dsimp only
  split
  · rfl
  · refine kept_fwCommandOn _ _ _ _ _ _ (fun t c b => ?_) s
    split
    · exact hbody t c b
    · exact kept_refuse _ _

@[simp] theorem kept_createIn (s : State) (c : Cmd) (cls : ℕ) (ok : ℕ → Bool) (use : ℕ) (mk : State → ℕ → Status ⊕ (State × Reply))
    (hmk : ∀ s i, sumKept (kept s) (mk s i) = kept s) : kept (createIn s c cls ok use mk).1 = kept s := by
  unfold createIn
  split
  · exact kept_refuse _ _
  · split
    · exact kept_refuse _ _
    next i _ =>
      have h := hmk (openSlot s cls i c.fn) i
      split
      · exact kept_refuse _ _
      next hm => rw [← kept_openSlot s cls i c.fn, ← h, hm, sumKept_inr]

@[simp] theorem kept_execChCreateWorkRing (pair : MboxId) (blk : CmdBlock) (s : State) :
    outKept (execChCreateWorkRing pair blk s) = some (kept s) := by
  unfold execChCreateWorkRing
  rw [outKept_next, kept_chCommand]
  intro s c b
  dsimp only
  (repeat' split)
  any_goals simp only [kept_refuse]
  all_goals
    rw [kept_createIn]
    intro t i
    simp only [sumKept_inr, kept_State_setWork]

theorem kept_takeShadow (s : State) (bytes : ℕ) {t : State} (hret : takeShadow s bytes = some t) : kept t = kept s := by
  unfold takeShadow at hret
  dsimp only at hret
  split at hret
  · rw [Option.some.inj hret]
  · exact kept_takeFwRegion _ _ _ hret

@[simp] theorem kept_execChCreateCompletionRing (pair : MboxId) (blk : CmdBlock) (s : State) :
    outKept (execChCreateCompletionRing pair blk s) = some (kept s) := by
  unfold execChCreateCompletionRing
  rw [outKept_next, kept_chCommand]
  intro s c b
  extract_lets p
  split
  · rw [kept_refuse]
  · split
    · rw [kept_refuse]
    · rw [kept_createIn]
      intro t i
      extract_lets
      split
      · rw [sumKept_inl]
      next hs => rw [sumKept_inr, kept_State_hostWrite, kept_State_setComp, kept_takeShadow _ _ hs]

end Sys2Proof.Machine
end

section
/-! PROOFS. What a step keeps of the waiting commands and of the fuses, part 5 of 12: the model's functions in the order in which they call each
other, from `execChCreateConnection` to `execCombineTimeout`. -/

namespace Sys2Proof.Machine

open Sys2Proof

@[simp] theorem kept_execChCreateConnection (pair : MboxId) (blk : CmdBlock) (s : State) :
    outKept (execChCreateConnection pair blk s) = some (kept s) := by
  unfold execChCreateConnection
  rw [outKept_next, kept_chCommand]
  intro s c b
  dsimp only
  (repeat' split)
  any_goals rw [kept_refuse]
  next hs =>
    rw [kept_createIn, kept_spillOne s hs]
    intro t i
    simp only [sumKept_inr, kept_bringOnDie, kept_beginConn]

@[simp] theorem kept_State_setSq (s : State) (q : ℕ) (x2 : SQueue) : kept (State.setSq s q x2) = kept s := rfl

@[simp] theorem kept_execChCreateStorageQueue (pair : MboxId) (blk : CmdBlock) (s : State) :
    outKept (execChCreateStorageQueue pair blk s) = some (kept s) := by
  unfold execChCreateStorageQueue
  rw [outKept_next, kept_chCommand]
  intro s c b
  extract_lets p qid
  split
  · rw [kept_refuse]
  · split
    · rw [kept_refuse]
    · rw [kept_createIn]
      intro t i
      extract_lets
      split
      · rw [sumKept_inl]
      next hs => rw [sumKept_inr, kept_State_hostWrite, kept_State_setSq, kept_State_setComp, kept_takeShadow _ _ hs]

@[simp] theorem kept_readCfg (s : State) (r : Req) (a : ℕ) (n : ℕ) : kept (readCfg s r a n).1 = kept s := by
  fun_cases readCfg s r a n <;> simp (disch := assumption) only [kept_checkGlobal, kept_lakeRead, kept_of_pair]

@[simp] theorem kept_readTable (s : State) (r : Req) (a : ℕ) (n : ℕ) : kept (readTable s r a n).1 = kept s := by
  fun_cases readTable s r a n <;> simp (disch := assumption) only [kept_readCfg, kept_of_pair]

@[simp] theorem kept_loadWcfg (s : State) (r : Req) (cfg : ℕ) : kept (loadWcfg s r cfg).1 = kept s := by
  fun_cases loadWcfg s r cfg <;> simp (disch := assumption) only [kept_readCfg, kept_readTable, kept_of_pair]

@[simp] theorem kept_execChCreateDispatchQueue (pair : MboxId) (blk : CmdBlock) (s : State) :
    outKept (execChCreateDispatchQueue pair blk s) = some (kept s) := by
  unfold execChCreateDispatchQueue
  rw [outKept_next, kept_chCommand]
  intro s c b
  split
  · rw [kept_refuse]
  · have hl := kept_loadWcfg s c.req (bn (params b) 63 0)
    split
    next h => rw [← hl, h]
    next h =>
      rw [kept_createIn, ← hl, h]
      intro t i
      simp only [sumKept_inr, kept_State_setWq]

@[simp] theorem kept_loadBcfg (s : State) (q : Req) (self : Option ℕ) (cfg : ℕ) : kept (loadBcfg s q self cfg).1 = kept s := by
  fun_cases loadBcfg s q self cfg <;> simp (disch := assumption) only [kept_readCfg, kept_readTable, kept_of_pair]

@[simp] theorem kept_zeroRes (s : State) (r : BitVec 1024) (keepC : Bool) : kept (zeroRes s r keepC) = kept s := by
  fun_cases zeroRes s r keepC <;> simp only [kept_lakeWrite]

@[simp] theorem kept_execChCreateReductionGroup (pair : MboxId) (blk : CmdBlock) (s : State) :
    outKept (execChCreateReductionGroup pair blk s) = some (kept s) := by
  unfold execChCreateReductionGroup
  rw [outKept_next, kept_chCommand]
  intro s c b
  split
  · rw [kept_refuse]
  · have hl := kept_loadBcfg s c.req none (bn (params b) 63 0)
    split
    next h => rw [← hl, h]
    next h =>
      rw [kept_createIn, ← hl, h]
      intro t i
      simp only [sumKept_inr, kept_zeroRes, kept_State_setBg]

@[simp] theorem kept_checkTierN (s : State) (r : Req) (g : ℕ) (n : ℕ) : kept (checkTierN s r g n).1 = kept s := by
  fun_cases checkTierN s r g n <;> simp (disch := assumption) only [kept_checkGlobal, kept_State_count, kept_of_pair]

@[simp] theorem kept_execChCreateOptimizerProgram (pair : MboxId) (blk : CmdBlock) (s : State) :
    outKept (execChCreateOptimizerProgram pair blk s) = some (kept s) := by
  unfold execChCreateOptimizerProgram
  rw [outKept_next, kept_chCommand]
  intro s c b
  dsimp only
  split
  · rw [kept_refuse]
  · split
    · rw [kept_createIn]
      intro t i
      simp only [sumKept_inr, kept_units]
    · have hl := kept_checkTierN s c.req (bn (params b) 63 0) 4
      split
      next h => rw [kept_refuse, ← hl, h]
      next h =>
        rw [kept_createIn, ← hl, h]
        intro t i
        simp only [sumKept_inr, kept_units]

@[simp] theorem kept_drawKey (s : State) (key : W32) (remote : Bool) : kept (drawKey s key remote).2 = kept s := by
  fun_cases drawKey s key remote <;> simp (disch := assumption) only [kept_State_entropy, kept_of_pair']

theorem kept_makeRegion (p : BitVec 256) (owner : ℕ) (s : State) (i : ℕ) : sumKept (kept s) (makeRegion p owner s i) = kept s := by
  have hd := kept_drawKey s (mrKey p) (mrRemote p)
  unfold makeRegion
  dsimp only
  split
  · split
    · rw [sumKept_inl]
    · rw [sumKept_inr, kept_units, hd]
  · split
    · rw [sumKept_inl]
    · split
      · rw [sumKept_inl]
      next ha =>
        have hs := (kept_allocPages _ _ _ _ _ ha).trans hd
        (repeat' split) <;> simp only [sumKept_inl, sumKept_inr, kept_units, hs]

@[simp] theorem kept_execChCreateMemoryRegion (pair : MboxId) (blk : CmdBlock) (s : State) :
    outKept (execChCreateMemoryRegion pair blk s) = some (kept s) := by
  unfold execChCreateMemoryRegion
  rw [outKept_next, kept_chCommand]
  intro s c b
  dsimp only
  (repeat' split)
  any_goals rw [kept_refuse]
  exact kept_createIn _ _ _ _ _ _ (kept_makeRegion _ _)

@[simp] theorem kept_makeKey (s : State) (c : Cmd) (p : BitVec 256) (data : Option (List Byte)) : kept (makeKey s c p data).1 = kept s := by
  fun_cases makeKey s c p data <;> simp (disch := assumption) only [kept_State_entropy, kept_of_pair']

@[simp] theorem kept_execChCreateKeySlot (pair : MboxId) (blk : CmdBlock) (data : Option (List Byte)) (s : State) :
    outKept (execChCreateKeySlot pair blk data s) = some (kept s) := by
  unfold execChCreateKeySlot
  rw [outKept_next, kept_chCommand]
  intro s c b
  dsimp only
  split
  · rw [kept_refuse]
  · split
    · rw [kept_refuse]
    · have hl := kept_makeKey s c (params b) data
      split
      next h => rw [kept_refuse, ← hl, h]
      next h =>
        rw [kept_createIn, ← hl, h]
        intro t i
        simp only [sumKept_inr, kept_secUnit]

@[simp] theorem kept_execChCreateCounterSet (pair : MboxId) (blk : CmdBlock) (s : State) :
    outKept (execChCreateCounterSet pair blk s) = some (kept s) := by
  unfold execChCreateCounterSet
  rw [outKept_next, kept_chCommand]
  intro s c b
  dsimp only
  (repeat' split)
  any_goals simp only [kept_refuse]
  all_goals
    rw [kept_createIn]
    intro t i
    simp only [sumKept_inr, kept_units]

@[simp] theorem kept_execChCreateTriggerList (pair : MboxId) (blk : CmdBlock) (s : State) :
    outKept (execChCreateTriggerList pair blk s) = some (kept s) := by
  unfold execChCreateTriggerList
  rw [outKept_next, kept_chCommand]
  intro s c b
  extract_lets p tags n
  split
  · rw [kept_refuse]
  · split
    · rw [kept_refuse]
    · rw [kept_createIn]
      intro t i
      split
      · rw [sumKept_inl]
      next hs => rw [sumKept_inr, kept_units, kept_takeFwRegion _ _ _ hs]

@[simp] theorem kept_accept (s : State) : kept (accept s).1 = kept s := rfl

@[simp] theorem kept_execChModifyCompletionRing (pair : MboxId) (blk : CmdBlock) (s : State) :
    outKept (execChModifyCompletionRing pair blk s) = some (kept s) := by
  unfold execChModifyCompletionRing
  rw [outKept_next, kept_chCommand]
  intro y0 y1 y2
  dsimp only
  (repeat' split) <;> simp only [kept_refuse, kept_accept, kept_State_setComp]

theorem kept_startRebalance (s : State) (r : ℕ) (d : Region) (cmd : ℕ) {t0} (hret : startRebalance s r d cmd = some t0) : kept t0 = kept s := by
  revert hret
  unfold startRebalance
  dsimp only
  (repeat' split) <;> intro h <;> cases h
  simp only [kept_units]

@[simp] theorem kept_execChModifyMemoryRegion (pair : MboxId) (blk : CmdBlock) (s : State) :
    outKept (execChModifyMemoryRegion pair blk s) = some (kept s) := by
  unfold execChModifyMemoryRegion
  rw [outKept_next, kept_chCommand]
  intro s c b
  split
  · rw [kept_refuse]
  next i _ =>
    split
    · rw [kept_refuse]
    · extract_lets p win same place d1
      split
      · rw [kept_refuse]
      · split
        · rw [kept_refuse]
        · split
          · rw [kept_refuse]
          next u hu =>
            have hs : kept u = kept s := by
              split at hu
              · exact kept_startRebalance _ _ _ _ hu
              · rw [← Option.some.inj hu]
            split
            dsimp only
            (repeat' split) <;> simp (disch := assumption) only [kept_units, kept_of_pair', kept_drawKey, hs]

@[simp] theorem kept_execChModifyDispatchQueue (pair : MboxId) (blk : CmdBlock) (s : State) :
    outKept (execChModifyDispatchQueue pair blk s) = some (kept s) := by
  unfold execChModifyDispatchQueue
  rw [outKept_next, kept_chCommand]
  intro y0 y1 y2
  (repeat' split) <;> simp (disch := assumption) only [kept_refuse, kept_loadWcfg, kept_accept, kept_State_setWq, kept_of_pair]

@[simp] theorem kept_moveRes (s : State) (old : BitVec 1024) (new : BitVec 1024) : kept (moveRes s old new) = kept s := by
  unfold moveRes
  (repeat' split) <;> simp only [kept_lakeRead, kept_lakeWrite]

@[simp] theorem kept_execChModifyReductionGroup (pair : MboxId) (blk : CmdBlock) (s : State) :
    outKept (execChModifyReductionGroup pair blk s) = some (kept s) := by
  unfold execChModifyReductionGroup
  rw [outKept_next, kept_chCommand]
  intro y0 y1 y2
  dsimp only
  (repeat' split) <;> simp (disch := assumption) only [kept_refuse, kept_loadBcfg, kept_zeroRes, kept_moveRes, kept_accept, kept_State_setBg,
      kept_of_pair]

@[simp] theorem kept_execChModifyOptimizerProgram (pair : MboxId) (blk : CmdBlock) (s : State) :
    outKept (execChModifyOptimizerProgram pair blk s) = some (kept s) := by
  unfold execChModifyOptimizerProgram
  rw [outKept_next, kept_chCommand]
  intro y0 y1 y2
  dsimp only
  (repeat' split) <;> simp only [kept_refuse, kept_accept, kept_units]

@[simp] theorem kept_execChModifyConnection (pair : MboxId) (blk : CmdBlock) (s : State) :
    outKept (execChModifyConnection pair blk s) = some (kept s) := by
  unfold execChModifyConnection
  rw [outKept_next, kept_chCommand]
  intro y0 y1 y2
  dsimp only
  (repeat' split) <;> simp only [kept_refuse, kept_accept, kept_beginConn, kept_State_setConn]

@[simp] theorem kept_execChModifyStorageQueue (pair : MboxId) (blk : CmdBlock) (s : State) :
    outKept (execChModifyStorageQueue pair blk s) = some (kept s) := by
  unfold execChModifyStorageQueue
  rw [outKept_next, kept_chCommand]
  intro y0 y1 y2
  dsimp only
  (repeat' split) <;> simp only [kept_refuse, kept_accept, kept_State_setComp]

@[simp] theorem kept_execChModifyFixedClass (pair : MboxId) (blk : CmdBlock) (s : State) :
    outKept (execChModifyFixedClass pair blk s) = some (kept s) := by
  unfold execChModifyFixedClass
  rw [outKept_next, kept_chCommand]
  intro y0 y1 y2
  (repeat' split) <;> simp only [kept_refuse]

@[simp] theorem kept_fwCommand (op : ℕ) (hasBlk : Bool) (k : MboxId) (blk : CmdBlock) (body : FwBody) (hbody : ∀ y0 y1 y2,
    kept (body y0 y1 y2).1 = kept y0) (s : State) :
    kept (fwCommand op hasBlk k blk body s) = kept s := by
  unfold fwCommand
  rw [kept_fwCommandOn]
  intro y0 y1 y2
  simp only [hbody]

@[simp] theorem kept_releaseShadow (a : ℕ) (x1 : State) : kept (releaseShadow a x1) = kept x1 := by
  fun_induction releaseShadow a x1 <;> simp only [kept_releasePages, kept_units, *]

@[simp] theorem kept_removeSq (s : State) (q : ℕ) : kept (removeSq s q) = kept s := by
  fun_cases removeSq s q <;> simp +zetaDelta only [kept_State_setSlot, kept_releaseShadow, kept_State_count, kept_replyTo, kept_units]

@[simp] theorem kept_ctrlReset (s : State) (f : ℕ) : kept (ctrlReset s f) = kept s := by
  unfold ctrlReset
  rw [kept_foldl, kept_units]
  intro t q
  dsimp only
  rw [kept_removeSq]
  split
  · rw [kept_foldl _ (fun u c => kept_dropNv u q c), kept_countParts]
  · rw [kept_countParts]

@[simp] theorem kept_execChDestroy (pair : MboxId) (blk : CmdBlock) (s : State) : outKept (execChDestroy pair blk s) = some (kept s) := by
  unfold execChDestroy
  rw [outKept_next, kept_fwCommand]
  intro y0 y1 y2
  dsimp only
  (repeat' split) <;> simp only [kept_refuse, kept_accept, kept_ctrlReset, kept_safSettle, kept_settle, kept_destroyStart]

@[simp] theorem kept_destroyStop (s : State) (cls : ℕ) (i : ℕ) : kept (destroyStop s cls i) = kept s := by
  fun_cases destroyStop s cls i <;> simp only [kept_drainAll, kept_abortJobs]

@[simp] theorem kept_dropRegion (s : State) (i : ℕ) : kept (dropRegion s i) = kept s := by
  unfold dropRegion
  (repeat' split) <;> simp (disch := (intro _ _; (repeat' split) <;> simp only [kept_sendDelta])) only [kept_releasePages, kept_units, kept_foldl]

@[simp] theorem kept_dropFwRegion (s : State) (kind : FwKind) : kept (dropFwRegion s kind) = kept s := by
  fun_cases dropFwRegion s kind <;> simp only [kept_releasePages, kept_units]

@[simp] theorem kept_removeChannel (s : State) (cls : ℕ) (i : ℕ) : kept (removeChannel s cls i) = kept s := by
  fun_cases removeChannel s cls i <;> simp only [kept_releaseShadow, kept_State_count, kept_dropRegion, kept_dropFwRegion, kept_units, kept_secUnit]

@[simp] theorem kept_destroyEnd (s : State) (d : Dying) : kept (destroyEnd s d) = kept s := by
  unfold destroyEnd
  simp only [kept_freeSlot, kept_removeChannel, kept_replyTo, kept_units]

@[simp] theorem kept_execChDestroyDone (cls : ℕ) (index : ℕ) (s : State) : outKept (execChDestroyDone cls index s) = some (kept s) := by
  fun_cases execChDestroyDone cls index s <;> simp +zetaDelta only [kept_next, kept_destroyStop, kept_sendClose, kept_settle, kept_destroyEnd,
      apply_ite kept, ite_self]

@[simp] theorem kept_execWorkDoorbell (fn : ℕ) (page : ℕ) (wide : Bool) (value : W64) (s : State) :
    outKept (execWorkDoorbell fn page wide value s) = some (kept s) := by
  fun_cases execWorkDoorbell fn page wide value s <;> simp +zetaDelta only [kept_State_count, kept_next, kept_State_setWork, kept_State_setSq,
      apply_ite kept, ite_self]

@[simp] theorem kept_execCompletionDoorbell (fn : ℕ) (page : ℕ) (wide : Bool) (value : W64) (s : State) :
    outKept (execCompletionDoorbell fn page wide value s) = some (kept s) := by
  fun_cases execCompletionDoorbell fn page wide value s <;> simp +zetaDelta only [kept_State_count, kept_next, kept_State_setComp, kept_interrupt,
      kept_drainLate, apply_ite kept, ite_self]

@[simp] theorem kept_execDescriptorFetch (cq : ℕ) (s : State) : outKept (execDescriptorFetch cq s) = some (kept s) := by
  fun_cases execDescriptorFetch cq s <;> simp +zetaDelta (disch := assumption) only [kept_next, kept_hostRead, kept_State_setComp, kept_State_setWork]

@[simp] theorem kept_execDescriptorReadError (ring : ℕ) (s : State) : outKept (execDescriptorReadError ring s) = some (kept s) := by
  unfold execDescriptorReadError
  (repeat' split) <;> simp (disch := (intro _ _; simp only [kept_orphan, kept_unreserve])) only [kept_State_setWork, kept_writeEntry, outKept_next,
      kept_foldl]

@[simp] theorem kept_parkDesc (s : State) (ring : ℕ) (gen : ℕ) (w : WorkRing) (f : Fetched) (d : Desc) :
    kept (parkDesc s ring gen w f d) = kept s := by
  fun_cases parkDesc s ring gen w f d <;> simp +zetaDelta only [kept_report, kept_unreserve, kept_fireTag, kept_units]

@[simp] theorem kept_startJob (s : State) (ring : ℕ) (gen : ℕ) (f : Fetched) (d : Desc) : kept (startJob s ring gen f d) = kept s := rfl

@[simp] theorem kept_startChecked (s : State) (ring : ℕ) (w : WorkRing) (f : Fetched) (rest : List Fetched) (d : Desc) :
    kept (startChecked s ring w f rest d) = kept s := by
  fun_cases startChecked s ring w f rest d <;> simp +zetaDelta only [kept_State_setWork, kept_parkDesc, kept_popHead, kept_report, kept_startJob]

@[simp] theorem kept_startHead (s : State) (ring : ℕ) : kept (startHead s ring) = kept s := by
  fun_cases startHead s ring <;> simp only [kept_startChecked, kept_report, kept_popHead]

@[simp] theorem kept_execDescriptorStart (ring : ℕ) (s : State) : outKept (execDescriptorStart ring s) = some (kept s) := by
  unfold execDescriptorStart
  simp only [kept_next, kept_startHead]

@[simp] theorem kept_execCountWaitSatisfied (ring : ℕ) (s : State) : outKept (execCountWaitSatisfied ring s) = some (kept s) := by
  fun_cases execCountWaitSatisfied ring s <;> simp +zetaDelta only [kept_next, kept_startHead, apply_ite kept, ite_self]

@[simp] theorem kept_execNop (job : ℕ) (s : State) : outKept (execNop job s) = some (kept s) := by
  fun_cases execNop job s <;> simp only [kept_next, kept_finish]

@[simp] theorem kept_counterJob (s : State) (op : ℕ) (job : ℕ) (f : W64 → W64 → W64) : kept (counterJob s op job f) = kept s := by
  fun_cases counterJob s op job f <;> simp only [kept_completeJob, kept_State_putCtr, kept_finish]

@[simp] theorem kept_execCtrAdd (job : ℕ) (s : State) : outKept (execCtrAdd job s) = some (kept s) := by
  unfold execCtrAdd
  simp only [kept_next, kept_counterJob]

@[simp] theorem kept_execCtrSet (job : ℕ) (s : State) : outKept (execCtrSet job s) = some (kept s) := by
  unfold execCtrSet
  simp only [kept_next, kept_counterJob]

@[simp] theorem kept_execCodec (job : ℕ) (s : State) : outKept (execCodec job s) = some (kept s) := by
  fun_cases execCodec job s <;> simp only [kept_next, kept_finish, kept_acceptRing, kept_State_setJob]

@[simp] theorem kept_codecRun (s : State) (id : ℕ) (j : Job) (rs : W64) : kept (codecRun s id j rs).s = kept s := by
  unfold codecRun
  simp only [kept_codecRunN]

@[simp] theorem kept_endEngineJob (s : State) (id : ℕ) (c : ℕ) (codec : Bool) (st : Status) (detail : ℕ) (result : ℕ) :
    kept (endEngineJob s id c codec st detail result) = kept s := by
  fun_cases endEngineJob s id c codec st detail result
  simp +zetaDelta only [kept_completeJob, kept_startEngine, kept_State_count, apply_ite kept, ite_self]

@[simp] theorem kept_execCodecJobDone (job : ℕ) (s : State) : outKept (execCodecJobDone job s) = some (kept s) := by
  fun_cases execCodecJobDone job s <;> simp +zetaDelta only [kept_next, kept_codecRun, kept_agentRead, kept_endEngineJob, kept_codecApply]

@[simp] theorem kept_execModTimeExpiry (cq : ℕ) (s : State) : outKept (execModTimeExpiry cq s) = some (kept s) := by
  fun_cases execModTimeExpiry cq s <;> simp +zetaDelta only [kept_next, kept_interrupt, apply_ite kept, ite_self]

@[simp] theorem kept_execTriggerEntryRun (cq : ℕ) (s : State) : outKept (execTriggerEntryRun cq s) = some (kept s) := by
  unfold execTriggerEntryRun
  (repeat' split) <;> simp only [kept_next, kept_reserve, kept_report, kept_startJob, kept_units]

@[simp] theorem kept_execClAssign (pair : MboxId) (blk : CmdBlock) (s : State) : outKept (execClAssign pair blk s) = some (kept s) := by
  unfold execClAssign
  rw [outKept_next, kept_fwCommand]
  intro y0 y1 y2
  dsimp only
  (repeat' split) <;> simp only [kept_refuse, kept_accept, kept_reclaimStart]

@[simp] theorem kept_execReclaimGraceEnd (cluster : ℕ) (s : State) : outKept (execReclaimGraceEnd cluster s) = some (kept s) := by
  fun_cases execReclaimGraceEnd cluster s <;> simp only [kept_next, kept_reclaimStop]

@[simp] theorem kept_flushICaches (s : State) (c : ℕ) : kept (flushICaches s c) = kept s :=
  kept_foldl _ (fun _ _ => kept_State_setCore _ _ _) _ _

@[simp] theorem kept_startCore (s : State) (i : ℕ) (pc : ℕ) (regs : List (ℕ × W64)) (p : Prog) : kept (startCore s i pc regs p) = kept s := by
  unfold startCore
  simp only [kept_State_setCore]

@[simp] theorem kept_execClRun (pair : MboxId) (blk : CmdBlock) (s : State) : outKept (execClRun pair blk s) = some (kept s) := by
  unfold execClRun
  split
  · rfl
  rw [outKept_next, kept_fwCommand]
  intro s c b
  extract_lets cl k cores len load done
  iterate 4
    split
    · rfl
  have h0 := kept_checkTierN s c.req (bn b 127 64) len
  split
  next s1 st h => rw [kept_refuse, ← h0, h]
  next s1 h =>
  have h1 : kept s1 = kept s := by rw [← h0, h]
  have h0 := kept_checkTierN s1 c.req done 128
  split
  next s2 st h => rw [kept_refuse, ← h1, ← h0, h]
  next s2 h =>
  have h2 : kept s2 = kept s := by rw [← h1, ← h0, h]
  have ha := kept_agentRead s2 { req := c.req, work := .firmware c.id } (bn b 127 64) len
  split
  next s3 bs bad h =>
    have h3 : kept s3 = kept s := by rw [← h2, ← ha, h]
    split
    · rw [kept_refuse, h3]
    · rw [kept_accept, kept_foldl _ (fun t i => kept_startCore ..), kept_flushICaches, kept_scrWrite, kept_powerUp, h3]
  next h => rw [kept_refuse, ← h2, ← ha, h]
  next h => rw [kept_refuse, ← h2, ← ha, h]

@[simp] theorem kept_execClStop (pair : MboxId) (blk : CmdBlock) (s : State) : outKept (execClStop pair blk s) = some (kept s) := by
  unfold execClStop
  rw [outKept_next, kept_fwCommand]
  intro y0 y1 y2
  dsimp only
  (repeat' split) <;> simp only [kept_refuse, kept_accept, kept_stopCores]

@[simp] theorem kept_checkExtent (g : Agent) (s : State) (a : ℕ) (n : ℕ) : kept (checkExtent g s a n).1 = kept s := by
  fun_cases checkExtent g s a n <;> simp +zetaDelta (disch := assumption) only [kept_resolveAddr, kept_State_count, kept_denied, kept_of_pair,
      apply_ite kept, ite_self]

@[simp] theorem kept_matCheck (s : State) (g : Agent) (d : Desc) (c : ℕ) : kept (matCheck s g d c).1 = kept s := by
  unfold matCheck
  extract_lets none_ r
  have hr : kept r.1 = kept s := by
    refine kept_foldl_fst _ (fun a x => ?_) _ _
    (repeat' split) <;> simp (disch := assumption) only [kept_checkExtent, kept_of_pair]
  clear_value r
  split
  next s1 _ =>
    split <;> exact hr
  · exact hr

@[simp] theorem kept_matrixStart (s : State) (job : ℕ) (j : Job) (pick : ℕ ⊕ Status) : kept (matrixStart s job j pick) = kept s := by
  fun_cases matrixStart s job j pick <;> simp (disch := assumption) only [kept_finish, kept_matCheck, kept_State_count, kept_completeJob,
      kept_acceptRing, kept_State_setJob, kept_of_pair]

@[simp] theorem kept_execMatmul (job : ℕ) (s : State) : outKept (execMatmul job s) = some (kept s) := by
  fun_cases execMatmul job s <;> simp only [kept_next, kept_matrixStart]

@[simp] theorem kept_execGfMatmul (job : ℕ) (s : State) : outKept (execGfMatmul job s) = some (kept s) := by
  fun_cases execGfMatmul job s <;> simp only [kept_next, kept_matrixStart]

@[simp] theorem kept_execEngineAccept (cluster : ℕ) (codec : Bool) (s : State) : outKept (execEngineAccept cluster codec s) = some (kept s) := by
  unfold execEngineAccept
  simp only [kept_next, kept_acceptRing]

@[simp] theorem kept_execIndigoJobDone (job : ℕ) (s : State) : outKept (execIndigoJobDone job s) = some (kept s) := by
  fun_cases execIndigoJobDone job s <;> simp +zetaDelta only [kept_next, kept_matRun, kept_agentRead, kept_endEngineJob, kept_matApply]

@[simp] theorem kept_execResidueMismatch (place : TileAt) (s : State) : outKept (execResidueMismatch place s) = some (kept s) := by
  fun_cases execResidueMismatch place s <;> simp only [kept_next, kept_State_setEng, kept_State_trouble, kept_State_count]

@[simp] theorem kept_arrayRepair (s : State) (cluster : ℕ) (column : Bool) (index : ℕ) : kept (arrayRepair s cluster column index) = kept s := by
  fun_cases arrayRepair s cluster column index <;> simp +zetaDelta only [kept_State_note, kept_State_setEng, kept_retireEngine]

@[simp] theorem kept_execArrayPatternTestDone (cluster : ℕ) (column : Bool) (index : ℕ) (s : State) :
    outKept (execArrayPatternTestDone cluster column index s) = some (kept s) := by
  fun_cases execArrayPatternTestDone cluster column index s <;> simp +zetaDelta only [kept_next, kept_arrayRepair, kept_State_trouble,
      apply_ite kept, ite_self]

@[simp] theorem kept_bodyAddr (s : State) (r : Req) (near : Bool) (a : ℕ) (n : ℕ) : kept (bodyAddr s r near a n).1 = kept s := by
  fun_cases bodyAddr s r near a n <;> simp (disch := assumption) only [kept_checkGlobal, kept_State_count, kept_of_pair]

@[simp] theorem kept_firstAddr (r : Req) (a : List (ℕ × Bool × ℕ × ℕ)) (x2 : State) : kept (firstAddr r a x2).1 = kept x2 := by
  induction a generalizing r x2 with
  | nil => simp only [firstAddr]
  | cons x xs ih =>
    unfold firstAddr
    (repeat' split) <;> simp (disch := assumption) only [kept_bodyAddr, kept_of_pair, ih]

@[simp] theorem kept_execDispatch (job : ℕ) (s : State) : outKept (execDispatch job s) = some (kept s) := by
  fun_cases execDispatch job s <;> simp +zetaDelta (disch := assumption) only [kept_next, kept_finish, kept_firstAddr, kept_State_setWq,
      kept_State_setJob, kept_completeJob, kept_of_pair]

@[simp] theorem kept_readBias (s : State) (fn : ℕ) (j : WJob) : kept (readBias s fn j).1 = kept s := by
  fun_cases readBias s fn j <;> simp only [kept_agentRead]

@[simp] theorem kept_routerJob (s : State) (r : BitVec 1024) (toks : List (List Val)) (w : List (List OBlk)) :
    kept (routerJob s r toks w).1 = kept s := by
  fun_cases routerJob s r toks w <;> simp (disch := assumption) only [kept_serving, kept_State_count, kept_of_pair]

@[simp] theorem kept_readSources (s : State) (fn : ℕ) (j : WJob) : kept (readSources s fn j).1 = kept s := by
  fun_cases readSources s fn j <;> simp (disch := assumption) only [kept_agentRead, kept_routerJob, kept_of_pair]

@[simp] theorem kept_countOdd (s : State) (c : ℕ) (f : Flags3) : kept (countOdd s c f) = kept s := by
  fun_cases countOdd s c f <;> simp only [kept_State_trouble]

@[simp] theorem kept_sendExpert (s : State) (fn : ℕ) (j : WJob) (e : ℕ) (x4 : WExpert) (rows : List (List Byte)) :
    kept (sendExpert s fn j e x4 rows).1 = kept s := by
  fun_cases sendExpert s fn j e x4 rows <;> simp +zetaDelta (disch := assumption) only [kept_sendRecord, kept_agentWrite, kept_postOn, kept_units,
      kept_of_pair]

@[simp] theorem kept_noteRate (s : State) (n : ℕ) : kept (noteRate s n) = kept s := rfl

@[simp] theorem kept_runDispatch (s : State) (q fn : ℕ) (j : WJob) (toks : List (List Val)) (raw : List (List Byte)) (logits : List (List ℕ))
    (fl : Flags3) (bias : List ℕ) : kept (runDispatch s q fn j toks raw logits fl bias) = kept s := by
  unfold runDispatch
  extract_lets r
  have hc := kept_codecCluster s
  split
  next h => rw [kept_refuseDispatch, ← hc, h]
  next s1 c h =>
  have h1 : kept s1 = kept s := by rw [← hc, h]
  extract_lets +onlyGivenNames d0 s2 pl
  have h2 : kept s2 = kept s := (kept_units ..).trans h1
  clear_value s2
  split
  next rows sat rs _ =>
  extract_lets +onlyGivenNames x s3
  have h3 : kept s3 = kept s := (kept_State_setCl ..).trans h2
  clear_value s3
  extract_lets +onlyGivenNames owned rowsOfExp spillRows
  split
  next s4 spillBad h =>
  have h4 : kept s4 = kept s := by
    have hf := congrArg (fun p : State × Option Status => kept p.1) h
    refine hf.symm.trans ((kept_foldl_fst _ (fun a x => ?_) spillRows _).trans ?_)
    · exact kept_agentWrite ..
    · rw [kept_countOdd, h3]
  extract_lets +onlyGivenNames f active j1
  clear_value j1
  split
  next s5 j2 h =>
  have h5 : kept s5 = kept s := by
    have hf := congrArg (fun p : State × WJob => kept p.1) h
    refine hf.symm.trans ((kept_foldl_fst _ (fun a e => ?_) (List.range (wE r)) _).trans h4)
    split
    · exact kept_sendExpert ..
    · rfl
  extract_lets +onlyGivenNames s6
  rw [kept_applyNotes, kept_putWjob, kept_noteRate, kept_State_count, kept_State_count, kept_State_count, kept_State_count, h5]

@[simp] theorem kept_execDispatchHoldEnd (queue : ℕ) (s : State) : outKept (execDispatchHoldEnd queue s) = some (kept s) := by
  fun_cases execDispatchHoldEnd queue s <;> simp (disch := assumption) only [kept_next, kept_refuseDispatch, kept_sendZero, kept_applyNotes,
      kept_putWjob, kept_readBias, kept_readSources, kept_runDispatch, kept_of_pair]

@[simp] theorem kept_takeSends (mk : ℕ → Poster) (a : List (ℕ × ℕ)) (x2 : State) : kept (takeSends mk a x2).1 = kept x2 := by
  induction a generalizing mk x2 with
  | nil => simp only [takeSends]
  | cons x xs ih =>
    unfold takeSends
    (repeat' split) <;> simp (disch := assumption) only [kept_takePosted, kept_of_pair, ih]

@[simp] theorem kept_execDispatchDone (queue : ℕ) (s : State) : outKept (execDispatchDone queue s) = some (kept s) := by
  fun_cases execDispatchDone queue s <;> simp +zetaDelta (disch := assumption) only [kept_next, kept_takeSends, kept_applyNotes, kept_putWjob,
      kept_agentWrite, kept_completeJob, kept_of_pair, apply_ite Prod.fst, apply_ite kept, ite_self]

theorem kept_readRecords (s : State) (g : Agent) (r : BitVec 1024) (x : WExpert) (b : ℕ)
    (xs : List ℕ) {t : State} {o : Option (List (ℕ × BitVec 512))}
    (hret : readRecords s g r x b xs = .inl (t, o)) : kept t = kept s := by
  induction xs generalizing s o t with
  | nil =>
    obtain ⟨rfl, rfl⟩ := Prod.mk.inj (Sum.inl.inj hret)
    rfl
  | cons src rest ih =>
    have hr := kept_agentRead s g (slotAddr r x b src) 64
    unfold readRecords at hret
    split at hret
    next h => rw [← (Prod.mk.inj (Sum.inl.inj hret)).1, ← hr, h]
    · cases hret
    next s1 bs h =>
      rw [h] at hr
      split at hret
      · cases hret
      next hi => rw [← (Prod.mk.inj (Sum.inl.inj hret)).1]; exact (ih s1 hi).trans hr
      next hi => rw [← (Prod.mk.inj (Sum.inl.inj hret)).1]; exact (ih s1 hi).trans hr
    · cases hret

@[simp] theorem kept_sendReturn (s : State) (fn : ℕ) (job : ℕ) (c : WCfg) (src : ℕ) (x5 : BitVec 512) (rows : List Byte) (w : WReturn) :
    kept (sendReturn s fn job c src x5 rows w).1 = kept s := by
  fun_cases sendReturn s fn job c src x5 rows w <;> simp +zetaDelta (disch := assumption) only [kept_agentWrite, kept_State_tagHeld,
      kept_State_addCtr, kept_postOn, kept_units, kept_of_pair, apply_ite kept, ite_self]

@[simp] theorem kept_execReturnRows (job : ℕ) (s : State) : outKept (execReturnRows job s) = some (kept s) := by
  unfold execReturnRows
  split
  · rfl
  next jb _ =>
  split
  · rfl
  extract_lets +onlyGivenNames d e jobNo yf ys
  split
  · rw [outKept_next, kept_finish]
  next q _ =>
  extract_lets +onlyGivenNames cfg r
  split
  · rw [outKept_next, kept_finish]
  next x _ =>
  split
  · rw [outKept_next, kept_finish]
  extract_lets +onlyGivenNames g sj w s0
  have h0 : kept s0 = kept s := by rw [kept_units, kept_State_setJob]
  split
  · rw [outKept_next, kept_finish, h0]
  next h => rw [outKept_next, kept_readRecords _ _ _ _ _ _ h, h0]
  next s1 recs h =>
  have h1 : kept s1 = kept s := (kept_readRecords _ _ _ _ _ _ h).trans h0
  extract_lets +onlyGivenNames good skipped live n len
  have ha := kept_agentRead s1 g (bn d 255 192) len
  split
  next h => rw [outKept_next, ← h1, ← ha, h]
  next h => rw [outKept_next, kept_finish, ← h1, ← ha, h]
  next s2 bs bad h =>
  have h2 : kept s2 = kept s := by rw [← h1, ← ha, h]
  split
  · rw [outKept_next, kept_finish, h2]
  have hc := kept_codecCluster s2
  split
  next h => rw [outKept_next, kept_finish, ← h2, ← hc, h]
  next s3 c h =>
  have h3 : kept s3 = kept s := by rw [← h2, ← hc, h]
  extract_lets +onlyGivenNames dec enc fl w4 s4 w0
  have h4 : kept s4 = kept s := by rw [kept_countOdd, kept_State_count, kept_State_setCl, h3]
  split
  next s5 w k h =>
  have h5 : kept s5 = kept s := by
    have hf := congrArg (fun p : State × WReturn × ℕ => kept p.1) h
    rw [← h4]
    refine hf.symm.trans (kept_foldl_fst _ (fun a p => ?_) live _)
    extract_lets k
    exact kept_sendReturn _ _ _ _ _ _ _ _
  extract_lets +onlyGivenNames s6
  rw [outKept_next, kept_units, kept_State_setJob, h5]

@[simp] theorem kept_execReturnDone (job : ℕ) (s : State) : outKept (execReturnDone job s) = some (kept s) := by
  fun_cases execReturnDone job s <;> simp (disch := assumption) only [kept_next, kept_takeSends, kept_completeJob, kept_units, kept_of_pair]

@[simp] theorem kept_endCombine (s : State) (q : ℕ) (j : WJob) (st : Status) (result : ℕ) : kept (endCombine s q j st result) = kept s := by
  fun_cases endCombine s q j st result <;> simp only [kept_putWjob, kept_completeJob]

@[simp] theorem kept_execCombine (job : ℕ) (s : State) : outKept (execCombine job s) = some (kept s) := by
  fun_cases execCombine job s <;> simp +zetaDelta only [kept_next, kept_finish, kept_putWjob, kept_State_setJob, kept_endCombine]

@[simp] theorem kept_combineRows (g : Agent) (r : BitVec 1024) (b : ℕ) (es : List ℕ) (s : State) : kept (combineRows g r b es s).1 = kept s := by
  induction es generalizing s with
  | nil => rfl
  | cons en es ih =>
    unfold combineRows
    dsimp only
    (repeat' split) <;> simp (disch := assumption) only [ih, kept_of_pair, kept_agentRead]

@[simp] theorem kept_tileToken (g : Agent) (r : BitVec 1024) (b : ℕ) (entries : List ℕ) (t : Tile) :
    kept (tileToken g r b entries t).s = kept t.s := by
  fun_cases tileToken g r b entries t <;> simp (disch := assumption) only [kept_combineRows, kept_of_pair]

@[simp] theorem kept_execCombineStart (queue : ℕ) (s : State) : outKept (execCombineStart queue s) = some (kept s) := by
  unfold execCombineStart
  split
  · rfl
  extract_lets +onlyGivenNames fits
  split
  · rfl
  next j _ =>
  split
  · rfl
  next id jb _ =>
  extract_lets +onlyGivenNames r
  split
  · rw [outKept_next, kept_endCombine]
  split
  · rw [outKept_next, kept_endCombine]
  extract_lets +onlyGivenNames g
  have ha := kept_agentRead s g j.route (8 * wK r * j.tokens)
  split
  next s1 bs h =>
    have h1 : kept s1 = kept s := by rw [← ha, h]
    have hc := kept_codecCluster s1
    split
    next h => rw [outKept_next, kept_endCombine, ← h1, ← hc, h]
    next s2 c h =>
    have h2 : kept s2 = kept s := by rw [← h1, ← hc, h]
    extract_lets +onlyGivenNames t
    have ht : kept t.s = kept s := (kept_foldl_tile _ (fun t i => kept_tileToken ..) _ _).trans h2
    split
    · rw [outKept_next, kept_endCombine, ht]
    · rw [outKept_next, kept_agentRead, h1]
    · extract_lets +onlyGivenNames w3 s3
      have h3 : kept s3 = kept s := by rw [kept_countOdd, kept_State_setCl, ht]
      have hw := kept_agentWriteN s3 g (bn jb.desc 255 192) t.out
      split
      next h => rw [outKept_next, kept_endCombine, ← h3, ← hw, h]
      next h => rw [outKept_next, kept_endCombine, ← h3, ← hw, h]
  next h => rw [outKept_next, kept_endCombine, ← ha, h]
  next h => rw [outKept_next, kept_endCombine, ← ha, h]
  next h => rw [outKept_next, ← ha, h]

@[simp] theorem kept_execCombineTimeout (queue : ℕ) (s : State) : outKept (execCombineTimeout queue s) = some (kept s) := by
  unfold execCombineTimeout
  dsimp only
  (repeat' split) <;> simp only [kept_next, kept_endCombine, kept_putWjob]

end Sys2Proof.Machine
end

section
/-! PROOFS. What a step keeps of the waiting commands and of the fuses, part 6 of 12: the model's functions in the order in which they call each
other, from `turnAway` to `execReadReq`. -/

namespace Sys2Proof.Machine

open Sys2Proof

@[simp] theorem kept_turnAway (s : State) (job : ℕ) (st : Status) (detail : ℕ) : kept (turnAway s job st detail) = kept s := by
  unfold turnAway
  simp only [kept_countOp, kept_completeJob]

@[simp] theorem kept_readInput (s : State) (fn job : ℕ) (d : Desc) (count : ℕ) : kept (readInput s fn job d count).1.s = kept s := by
  unfold readInput
  rw [kept_foldl_codec_fst]
  intro a blk
  dsimp only
  (repeat' split) <;> simp only [kept_codecReadSrc]

@[simp] theorem kept_checkSrc (s : State) (jb : Job) (job : ℕ) (count : ℕ) : kept (checkSrc s jb job count).1 = kept s := by
  fun_cases checkSrc s jb job count <;> simp (disch := assumption) only [kept_readInput, kept_firstAddr, kept_of_pair, kept_of_codecPair]

@[simp] theorem kept_acceptOp (s : State) (gi : ℕ) (job : ℕ) (opc : ℕ) (n : ℕ) (jb : Job) (g : BGroup) :
    kept (acceptOp s gi job opc n jb g) = kept s := by
  unfold acceptOp
  simp (disch := (intro _ _; (repeat' split) <;> simp only [kept_takeSegment])) only [kept_State_setBg, kept_State_setJob, kept_foldl]

@[simp] theorem kept_collective (s : State) (opc : ℕ) (job : ℕ) : kept (collective s opc job) = kept s := by
  fun_cases collective s opc job <;> simp (disch := assumption) only [kept_turnAway, kept_State_setBg, kept_checkSrc, kept_firstAddr, kept_acceptOp,
      kept_of_pair]

@[simp] theorem kept_execAllreduce (job : ℕ) (s : State) : outKept (execAllreduce job s) = some (kept s) := by
  unfold execAllreduce
  simp only [kept_next, kept_collective]

@[simp] theorem kept_execReduceScatter (job : ℕ) (s : State) : outKept (execReduceScatter job s) = some (kept s) := by
  unfold execReduceScatter
  simp only [kept_next, kept_collective]

@[simp] theorem kept_execAllgather (job : ℕ) (s : State) : outKept (execAllgather job s) = some (kept s) := by
  unfold execAllgather
  simp only [kept_next, kept_collective]

@[simp] theorem kept_contribute (s : State) (fn : ℕ) (c : ℕ) (r : BitVec 1024) (op : BOp) (blks : List (List Val)) :
    kept (contribute s fn c r op blks).1 = kept s := by
  unfold contribute
  rw [kept_foldl_fst]
  intro y0 y1
  (repeat' split)
  simp (disch := assumption) only [kept_stageEncode, kept_of_pair]

@[simp] theorem kept_giveRange (fn : ℕ) (gi : ℕ) (ph : ℕ) (target : ℕ) (blks : List (List Byte)) (segs : List ℕ) (a : State × BOp) :
    kept (giveRange fn gi ph target blks segs a).1 = kept a.1 := by
  unfold giveRange
  rw [kept_foldl_fst]
  intro y0 y1
  (repeat' split) <;> simp only [kept_giveSegment]

@[simp] theorem kept_execCollectiveHoldEnd (group : ℕ) (s : State) : outKept (execCollectiveHoldEnd group s) = some (kept s) := by
  unfold execCollectiveHoldEnd
  split
  · rfl
  extract_lets fn r
  split
  · rfl
  next op0 _ =>
  split
  · rfl
  split
  · rw [outKept_next, kept_dropOp]
  next jb _ =>
  have hi := kept_readInput s fn op0.job jb.desc (srcElems r op0.opc op0.n)
  split
  next run blks h =>
  rw [h] at hi
  replace hi : kept run.s = kept s := hi
  split
  · rw [outKept_next, hi]
  · rw [outKept_next, kept_breakGroup, hi]
  have hc := kept_codecCluster run.s
  split
  next h => rw [outKept_next, kept_breakGroup, ← hi, ← hc, h]
  next s1 c h =>
  have h1 : kept s1 = kept s := by rw [← hi, ← hc, h]
  extract_lets +onlyGivenNames op
  clear_value op
  split
  next s2 op1 enc h =>
  have h2 : kept s2 = kept s := by
    have hk := kept_contribute (if run.malfCount = 0 then s1 else s1.trouble (engUnit c true) .ue run.malfCount) fn c r op blks
    rwa [h, apply_ite kept, kept_State_trouble, ite_self, h1] at hk
  extract_lets +onlyGivenNames b
  split
  · extract_lets +onlyGivenNames op2
    rw [outKept_next, kept_blendGo, kept_putOp, h2]
  split
  next s3 op2 h =>
  have h3 : kept s3 = kept s2 := by
    have hf := congrArg (fun p : State × BOp => kept p.1) h
    refine hf.symm.trans (kept_foldl_fst _ (fun a t => ?_) (phTargets r _) _)
    split
    exact kept_giveRange ..
  rw [outKept_next, kept_blendGo, kept_putOp, h3, h2]

@[simp] theorem kept_execCollectiveTimeout (group : ℕ) (s : State) : outKept (execCollectiveTimeout group s) = some (kept s) := by
  fun_cases execCollectiveTimeout group s <;> simp only [kept_next, kept_breakGroup]

@[simp] theorem kept_optEmpty (s : State) (op : ℕ) (job : ℕ) (jb : Job) (p : OptProg) (b : OBody) : kept (optEmpty s op job jb p b) = kept s := by
  fun_cases optEmpty s op job jb p b <;> simp (disch := assumption) only [kept_firstAddr, kept_completeJob, kept_finish, kept_of_pair]

@[simp] theorem kept_readSrec (s : State) (g : Agent) (a : ℕ) : kept (readSrec s g a).1 = kept s := by
  fun_cases readSrec s g a <;> simp (disch := assumption) only [kept_checkTierN, kept_agentRead, kept_of_pair]

@[simp] theorem kept_optAddrs (s : State) (g : Agent) (lib op : ℕ) (b : OBody) : kept (optAddrs s g lib op b).1 = kept s := by
  fun_cases optAddrs s g lib op b <;>
    simp (disch := assumption) only [kept_bodyAddr, kept_readSrec, kept_of_pair, apply_ite Prod.fst, apply_ite kept, ite_self]

@[simp] theorem kept_optStart (s : State) (op : ℕ) (job : ℕ) (run : State →
  Job →
    ℕ → OptProg → OBody → BitVec 512 → List ℕ → State) (hrun : ∀ y0 y1 y2 y3 y4 y5 y6,
        kept (run y0 y1 y2 y3 y4 y5 y6) = kept y0) : kept (optStart s op job run) = kept s := by
  fun_cases optStart s op job run <;> simp (disch := assumption) only [kept_finish, kept_optEmpty, kept_optAddrs, kept_completeJob, hrun,
      kept_of_pair]

@[simp] theorem kept_progImage (s : State) (req : Req) (job : ℕ) (p : OptProg) : kept (progImage s req job p).1 = kept s := by
  fun_cases progImage s req job p <;> simp (disch := assumption) only [kept_agentRead, kept_of_pair]

@[simp] theorem kept_loadProg (i : ℕ) (image : List Byte) (s : State) (c : ℕ) : kept (loadProg i image s c) = kept s := by
  fun_cases loadProg i image s c <;> simp +zetaDelta only [kept_flushICaches, kept_scrWrite, kept_units]

@[simp] theorem kept_startUser (s : State) (job : ℕ) (i : ℕ) (b : OBody) (cs : List ℕ) : kept (startUser s job i b cs) = kept s := by
  unfold startUser
  simp (disch := (intro _ _; simp only [kept_startCore])) only [kept_units, kept_foldl]

/-- What a codec run keeps that stands first in a pair. -/
def keptRun {β : Type} (p : CodecRun × β) : List Instr × Nat × Nat × List (List Byte) := kept p.1.s

theorem keptRun_foldl {α β : Type} (f : CodecRun × β → α → CodecRun × β) (h : ∀ p x, keptRun (f p x) = keptRun p) (xs : List α) (p : CodecRun × β) :
    keptRun (xs.foldl f p) = keptRun p := kept_foldl_codec_fst f h xs p

@[simp] theorem kept_readGrad (s : State) (g : Agent) (b : OBody) : kept (readGrad s g b).1.s = kept s := by
  unfold readGrad
  extract_lets d
  clear_value d
  refine keptRun_foldl _ (fun a blk => ?_) _ _
  split
  · rfl
  · extract_lets n
    have hr : keptRun (codecReadSrc g d blk n a.1) = keptRun a := kept_codecReadSrc g d blk n a.1
    split
    next h =>
      rw [h] at hr
      split
      · exact hr
      · exact hr

@[simp] theorem kept_stepCodec (s : State) (cs : List ℕ) : kept (stepCodec s cs).2 = kept s := by
  fun_cases stepCodec s cs
  simp (disch := assumption) only [kept_State_choose, kept_of_pair']

@[simp] theorem kept_countGrad (r : CodecRun) (cs : List ℕ) : kept (countGrad r cs) = kept r.s := by
  fun_cases countGrad r cs <;> simp (disch := assumption) only [kept_stepCodec, kept_State_trouble, kept_of_pair']

@[simp] theorem kept_readArray (s : State) (g : Agent) (a : ℕ) (n : ℕ) : kept (readArray s g a n).1 = kept s := by
  fun_cases readArray s g a n <;> simp (disch := assumption) only [kept_agentRead, kept_of_pair]

@[simp] theorem kept_readArrays (g : Agent) (a : List (ℕ × ℕ)) (x2 : State) : kept (readArrays g a x2).1 = kept x2 := by
  induction a generalizing g x2 with
  | nil => simp only [readArrays]
  | cons x xs ih =>
    unfold readArrays
    (repeat' split) <;> simp (disch := assumption) only [kept_readArray, kept_of_pair, ih]

@[simp] theorem kept_sum64 (s : State) (f : ℕ → ℕ) (xs : List ℕ) : kept (sum64 s f xs).1 = kept s := rfl

@[simp] theorem kept_meansOf (s : State) (a : List (List ℕ)) : kept (meansOf s a).1 = kept s := by
  induction a generalizing s with
  | nil => simp only [meansOf]
  | cons x xs ih =>
    unfold meansOf
    (repeat' split)
    simp (disch := assumption) only [kept_sum64, kept_of_pair, ih]

@[simp] theorem kept_factoredStep (h : Hyper) (ys : List ℕ) (es : List Elem) (r : List ℕ) (c : List ℕ) (s : State) :
    kept (factoredStep h ys es r c s).1 = kept s := by
  fun_cases factoredStep h ys es r c s
  simp (disch := assumption) only [kept_meansOf, kept_sum64, kept_of_pair]

@[simp] theorem kept_lambStep (h : Hyper) (es : List Elem) (s : State) : kept (lambStep h es s).1 = kept s := by
  fun_cases lambStep h es s
  simp (disch := assumption) only [kept_sum64, kept_of_pair]

@[simp] theorem kept_libStep (h : Hyper) (b : OBody) (ys : List ℕ) (arrs : List (List ℕ)) (s : State) : kept (libStep h b ys arrs s).1 = kept s := by
  fun_cases libStep h b ys arrs s <;> simp +zetaDelta (disch := assumption) only [kept_factoredStep, kept_lambStep, kept_of_pair, apply_ite Prod.fst,
      apply_ite kept, ite_self]

@[simp] theorem kept_preparePush (s : State) (r : Req) (cs : List ℕ) (x3 : BitVec 512) (ws : List ℕ) :
    kept (preparePush s r cs x3 ws).1 = kept s := by
  fun_cases preparePush s r cs x3 ws <;> simp (disch := assumption) only [kept_stepCodec, kept_bodyAddr, kept_State_setCl, kept_of_pair,
      kept_of_pair']

@[simp] theorem kept_writeArrays (g : Agent) (a : List (ℕ × List ℕ)) (x2 : State) : kept (writeArrays g a x2).1 = kept x2 := by
  induction a generalizing g x2 with
  | nil => simp only [writeArrays]
  | cons x xs ih =>
    unfold writeArrays
    (repeat' split) <;> simp (disch := assumption) only [kept_agentWrite, kept_of_pair, ih]

@[simp] theorem kept_endPush (s : State) (job : ℕ) (g : Agent) (x3 : BitVec 512) (bs : List Byte) (sat : Bool) (result : ℕ) :
    kept (endPush s job g x3 bs sat result) = kept s := by
  fun_cases endPush s job g x3 bs sat result <;> simp (disch := assumption) only [kept_agentWrite, kept_completeJob, kept_of_pair]

@[simp] theorem kept_runLib (s : State) (job : ℕ) (jb : Job) (cs : List ℕ) (lib : ℕ) (x : BitVec 512) (b : OBody) (vals : List (Option ℕ))
    (zeros : ℕ) :
    kept (runLib s job jb cs lib x b vals zeros) = kept s := by
  fun_cases runLib s job jb cs lib x b vals zeros <;>
    simp (disch := assumption) only [kept_finish, kept_readArrays, kept_completeJob, kept_libStep, kept_preparePush, kept_writeArrays, kept_endPush,
      kept_of_pair, apply_ite Prod.fst, apply_ite kept, ite_self]

@[simp] theorem kept_execOptStep (job : ℕ) (s : State) : outKept (execOptStep job s) = some (kept s) := by
  unfold execOptStep
  rw [outKept_next, kept_optStart]
  intro s jb i p b x cs
  split
  · rfl
  extract_lets s0
  have h0 : kept s0 = kept s := kept_foldl _ (fun t c => kept_powerUp ..) cs s
  have hi := kept_progImage s0 jb.req job p
  split
  next h => rw [kept_finish, ← h0, ← hi, h]
  next s1 image h =>
  extract_lets s2
  have h2 : kept s2 = kept s := by
    refine (kept_foldl _ (fun t c => kept_loadProg ..) cs s1).trans ?_
    rw [← h0, ← hi, h]
  clear_value s2
  split
  · rw [kept_startUser, kept_State_setJob, h2]
  have hr := kept_readGrad s2 { req := jb.req, work := .job job } b
  split
  next r vals zeros h =>
  rw [h] at hr
  replace hr : kept r.s = kept s := hr.trans h2
  split
  · exact hr
  · rw [kept_finish, hr]
  · extract_lets s3
    rw [apply_ite kept, kept_finish, kept_runLib, ite_self, kept_countGrad, hr]

@[simp] theorem kept_execWpush (job : ℕ) (s : State) : outKept (execWpush job s) = some (kept s) := by
  unfold execWpush
  rw [outKept_next, kept_optStart]
  intro y0 y1 y2 y3 y4 y5 y6
  dsimp only
  (repeat' split) <;> simp (disch := assumption) only [kept_completeJob, kept_readArray, kept_finish, kept_preparePush, kept_endPush, kept_of_pair]

@[simp] theorem kept_execParEpoch (job : ℕ) (s : State) : outKept (execParEpoch job s) = some (kept s) := by
  fun_cases execParEpoch job s <;> simp only [kept_next, kept_finish, kept_State_setPg, kept_State_setJob]

@[simp] theorem kept_sendManifest (s : State) (slot : ℕ) (g : PGroup) : kept (sendManifest s slot g) = kept s := by
  unfold sendManifest
  rw [kept_foldl]
  intro y0 y1
  (repeat' split)
  simp (disch := assumption) only [kept_openBytes, kept_postPeer, kept_of_pair]

@[simp] theorem kept_execEpochCommit (group : ℕ) (s : State) : outKept (execEpochCommit group s) = some (kept s) := by
  fun_cases execEpochCommit group s <;> simp +zetaDelta only [kept_paritySettle, kept_next, kept_finish, kept_sendManifest, kept_State_setPg]

@[simp] theorem kept_zeroShare (s : State) (rs : List (ℕ × ℕ)) : kept (zeroShare s rs) = kept s := by
  unfold zeroShare
  rw [kept_foldl]
  intro y0 y1
  simp only [kept_units]

@[simp] theorem kept_makeGroup (s : State) (c : Cmd) (b : BitVec 32256) (spare : Bool) : kept (makeGroup s c b spare).1 = kept s := by
  fun_cases makeGroup s c b spare <;> simp only [kept_refuse, kept_zeroShare, kept_State_setPg]

@[simp] theorem kept_execPgJoin (pair : MboxId) (blk : CmdBlock) (s : State) : outKept (execPgJoin pair blk s) = some (kept s) := by
  unfold execPgJoin
  rw [outKept_next, kept_fwCommand]
  intro y0 y1 y2
  (repeat' split) <;> simp only [kept_refuse, kept_makeGroup]

@[simp] theorem kept_State_dropPg (s : State) (n : ℕ) : kept (State.dropPg s n) = kept s := rfl

@[simp] theorem kept_execPgJoinDone (group : ℕ) (same : Bool) (peers : List PeerConn) (s : State) :
    outKept (execPgJoinDone group same peers s) = some (kept s) := by
  fun_cases execPgJoinDone group same peers s <;> simp only [kept_next, kept_replyTo, kept_State_dropPg, kept_openPeers, kept_State_setPg]

@[simp] theorem kept_execPgJoinTimeout (group : ℕ) (s : State) : outKept (execPgJoinTimeout group s) = some (kept s) := by
  fun_cases execPgJoinTimeout group s <;> simp only [kept_next, kept_replyTo, kept_State_dropPg]

@[simp] theorem kept_execPgLeave (pair : MboxId) (blk : CmdBlock) (othersHold : Bool) (s : State) :
    outKept (execPgLeave pair blk othersHold s) = some (kept s) := by
  unfold execPgLeave
  rw [outKept_next, kept_fwCommand]
  intro s c b
  (repeat' split)
  · rfl
  · rfl
  · rfl
  · rfl
  · extract_lets s1
    rw [kept_accept, kept_units, kept_State_dropPg, kept_foldl _ (fun t k => kept_closePeer ..), kept_endEpoch]

@[simp] theorem kept_pgRebuildBody (peers : List PeerConn) (s : State) (c : Cmd) (b : BitVec 32256) :
    kept (pgRebuildBody peers s c b).1 = kept s := by
  fun_cases pgRebuildBody peers s c b <;> simp +zetaDelta (disch := assumption) only [kept_refuse, kept_rebuildBegins, kept_State_setPg,
      kept_makeGroup, kept_openPeers, kept_of_pair]

@[simp] theorem kept_execPgRebuild (pair : MboxId) (blk : RebuildBlk) (s : State) : outKept (execPgRebuild pair blk s) = some (kept s) := by
  unfold execPgRebuild
  rw [outKept_next, kept_fwCommand]
  intro y0 y1 y2
  simp only [kept_pgRebuildBody]

@[simp] theorem kept_rebuildLines (g : PGroup) (s : State) (data : List StripeLine) (parity : List StripeLine) :
    kept (rebuildLines g s data parity) = kept s := by
  unfold rebuildLines
  simp (disch := (intro _ _; simp only [kept_rebuildLine])) only [kept_foldl]

@[simp] theorem kept_endRebuild (s : State) (slot : ℕ) (g : PGroup) (epoch : ℕ) (peers : List PeerConn) :
    kept (endRebuild s slot g epoch peers) = kept s := by
  fun_cases endRebuild s slot g epoch peers
  simp +zetaDelta only [kept_releaseHeld, kept_openPeers, kept_State_setPg, kept_settle, kept_replyTo, apply_ite kept, ite_self]

@[simp] theorem kept_execPgRebuildDone (group : ℕ) (ok : Bool) (epoch : ℕ) (data : List StripeLine) (parity : List StripeLine)
    (peers : List PeerConn) (s : State) :
    outKept (execPgRebuildDone group ok epoch data parity peers s) = some (kept s) := by
  fun_cases execPgRebuildDone group ok epoch data parity peers s <;> simp +zetaDelta only [kept_next, kept_groupEnds, kept_settle, kept_State_setPg,
      kept_rebuildLines, kept_endRebuild]

@[simp] theorem kept_execConnectTimer (conn : ℕ) (s : State) : outKept (execConnectTimer conn s) = some (kept s) := by
  fun_cases execConnectTimer conn s <;> simp +zetaDelta only [kept_next, kept_sendCtrl, apply_ite kept, ite_self]

@[simp] theorem kept_connectingTimeout (conn : ℕ) (s : State) : kept (connectingTimeout conn s) = kept s := by
  fun_cases connectingTimeout conn s <;> simp only [kept_connError]

@[simp] theorem kept_execConnectingTimeout (conn : ℕ) (s : State) : outKept (execConnectingTimeout conn s) = some (kept s) := by
  unfold execConnectingTimeout
  simp only [kept_next, kept_settle, kept_connectingTimeout]

theorem kept_takePacket (s : State) (ty : ℕ) (kind : ℕ) {t0 t1} (hret : takePacket s ty kind = some (t0, t1)) : kept t1 = kept s := by
  revert hret
  unfold takePacket
  (repeat' split) <;> intro h <;> cases h
  simp only [kept_units]

@[simp] theorem kept_staleNack (s : State) (p : RxPkt) : kept (staleNack s p) = kept s := by
  fun_cases staleNack s p <;> simp +zetaDelta (disch := assumption) only [kept_State_count, kept_State_draw, kept_sendPacket, kept_units,
      kept_of_pair']

@[simp] theorem kept_missNack (s : State) (c : Conn) (p : RxPkt) : kept (missNack s c p) = kept s := by
  fun_cases missNack s c p <;> simp only [kept_State_count, kept_sendNack]

@[simp] theorem kept_touchConn (s : State) (i : ℕ) : kept (touchConn s i) = kept s := by
  fun_cases touchConn s i <;> simp +zetaDelta only [kept_State_setConn, kept_units]

@[simp] theorem kept_ccRecord_put (i : ℕ) (kind : ℕ) (value : ℕ) (s : State) : kept (ccRecord.put i kind value s) = kept s := rfl

@[simp] theorem kept_ccRecord (s : State) (i : ℕ) (kind : ℕ) (value : ℕ) : kept (ccRecord s i kind value) = kept s := by
  fun_cases ccRecord s i kind value <;> simp only [kept_ccRecord_put]

@[simp] theorem kept_ackWindow (s : State) (i : ℕ) (c : Conn) (acked : ℕ) (ce : ℕ) (rtt : ℕ) : kept (ackWindow s i c acked ce rtt).1 = kept s := by
  fun_cases ackWindow s i c acked ce rtt <;> simp +zetaDelta only [kept_ccRecord, apply_ite kept, ite_self]

@[simp] theorem kept_completeAcked (s : State) (i : ℕ) : kept (completeAcked s i) = kept s := by
  unfold completeAcked
  (repeat' split) <;> simp (disch := (intro _ _; (repeat' split) <;> simp only [kept_msgDone])) only [kept_reap, kept_foldl]

@[simp] theorem kept_losePsn (s : State) (i : ℕ) (psn : ℕ) : kept (losePsn s i psn) = kept s := by
  fun_cases losePsn s i psn <;> simp +zetaDelta only [kept_State_setConn, kept_ccRecord]

@[simp] theorem kept_applySack (s : State) (i : ℕ) (epsn : ℕ) (bits : ℕ) : kept (applySack s i epsn bits) = kept s := by
  unfold applySack
  (repeat' split) <;> simp (disch := (intro _ _; simp only [kept_losePsn])) only [kept_State_setConn, kept_foldl]

/-- `unfold ackIn` would have the kernel evaluate the window test of a 32-bit PSN; its definition is put in as a function instead. -/
@[simp] theorem kept_ackIn (s : State) (i : ℕ) (c : Conn) (p : RxPkt) : kept (ackIn s i c p) = kept s := by
  have hd : ackIn = ackIn := rfl
  conv at hd => lhs; delta ackIn
  rewrite [← hd]
  clear hd
  beta_reduce
  extract_lets +onlyGivenNames x
  generalize c.peerPsn _ = o
  split
  · rfl
  next una =>
  extract_lets +onlyGivenNames acked rtt w c1
  clear_value rtt c1
  have ha := kept_ackWindow s i c1 acked (bn x 351 336) rtt
  split
  next h =>
  rw [h] at ha
  rw [kept_completeAcked, kept_applySack, kept_State_setConn]
  exact ha

@[simp] theorem kept_refusedIn (s : State) (i : ℕ) (x2 : BitVec 384) : kept (refusedIn s i x2) = kept s := by
  fun_cases refusedIn s i x2 <;> simp only [kept_msgDone, kept_State_setConn]

@[simp] theorem kept_nackIn (s : State) (i : ℕ) (c : Conn) (p : RxPkt) : kept (nackIn s i c p) = kept s := by
  fun_cases nackIn s i c p <;> simp only [kept_connError, kept_State_setConn, kept_State_count, kept_refusedIn, kept_completeAcked]

@[simp] theorem kept_establish (s : State) (i : ℕ) (c : Conn) (peerPsn : ℕ) : kept (establish s i c peerPsn) = kept s := by
  unfold establish
  simp only [kept_startWaiting, kept_State_setConn]

@[simp] theorem kept_ctrlIn (s : State) (i : ℕ) (c : Conn) (h : Hdr) (p : RxPkt) : kept (ctrlIn s i c h p) = kept s := by
  fun_cases ctrlIn s i c h p <;> simp +zetaDelta only [kept_State_count, kept_sendCtrl, kept_establish, kept_connError, kept_State_setConn,
      apply_ite kept, ite_self]

@[simp] theorem kept_ackFor (s : State) (i : ℕ) (h : Hdr) : kept (ackFor s i h) = kept s := by
  fun_cases ackFor s i h <;> simp only [kept_sendAck, kept_State_setConn]

@[simp] theorem kept_sequenced (H : Hooks) (hH : KeepsHooks H) (s : State) (i : ℕ) (c : Conn) (h : Hdr) (p : RxPkt) :
    kept (sequenced H s i c h p) = kept s := by
  fun_cases sequenced H s i c h p <;> simp (disch := assumption) only [kept_ackFor, kept_goOn, kept_placePacket, kept_State_setConn, kept_State_count]

@[simp] theorem kept_handlePacket (H : Hooks) (hH : KeepsHooks H) (s : State) (p : RxPkt) : kept (handlePacket H s p) = kept s := by
  fun_cases handlePacket H s p <;> simp +zetaDelta (disch := assumption) only [kept_staleNack, kept_State_count, kept_touchConn, kept_State_setConn,
      kept_ackIn, kept_nackIn, kept_ctrlIn, kept_sequenced]

@[simp] theorem kept_receive (H : Hooks) (hH : KeepsHooks H) (s : State) (p : RxPkt) : kept (receive H s p) = kept s := by
  fun_cases receive H s p <;> simp (disch := assumption) only [kept_staleNack, kept_missNack, kept_handlePacket, kept_fetchContext, kept_units]

@[simp] theorem kept_onPacket (H : Hooks) (hH : KeepsHooks H) (s : State) (ty : ℕ) (kind : ℕ) (delta : Option ParityMsg) :
    kept (onPacket H s ty kind delta) = kept s := by
  fun_cases onPacket H s ty kind delta <;> simp (disch := assumption) only [kept_takePacket, kept_receive]

@[simp] theorem kept_packetIn (s : State) (ty : ℕ) (kind : ℕ) (delta : Option ParityMsg) : kept (packetIn s ty kind delta) = kept s := by
  unfold packetIn
  simp only [kept_settle, kept_onPacket, kept_carmHooks]

@[simp] theorem kept_execConnect (s : State) : outKept (execConnect s) = some (kept s) := by
  unfold execConnect
  simp only [kept_next, kept_packetIn]

@[simp] theorem kept_execConnectAck (s : State) : outKept (execConnectAck s) = some (kept s) := by
  unfold execConnectAck
  simp only [kept_next, kept_packetIn]

@[simp] theorem kept_execClose (s : State) : outKept (execClose s) = some (kept s) := by
  unfold execClose
  simp only [kept_next, kept_packetIn]

@[simp] theorem kept_execProbe (s : State) : outKept (execProbe s) = some (kept s) := by
  unfold execProbe
  simp only [kept_next, kept_packetIn]

@[simp] theorem kept_execProbeAck (s : State) : outKept (execProbeAck s) = some (kept s) := by
  unfold execProbeAck
  simp only [kept_next, kept_packetIn]

@[simp] theorem kept_keepaliveTimer (conn : ℕ) (s : State) : kept (keepaliveTimer conn s) = kept s := by
  fun_cases keepaliveTimer conn s <;> simp only [kept_connError, kept_sendCtrl, kept_State_setConn]

@[simp] theorem kept_execKeepaliveTimer (conn : ℕ) (s : State) : outKept (execKeepaliveTimer conn s) = some (kept s) := by
  unfold execKeepaliveTimer
  simp only [kept_next, kept_settle, kept_keepaliveTimer]

@[simp] theorem kept_localRange (s : State) (j : Job) (n : ℕ) : kept (localRange s j n).1 = kept s := by
  fun_cases localRange s j n <;> simp (disch := assumption) only [kept_checkGlobal, kept_of_pair]

@[simp] theorem kept_transport (s : State) (op : ℕ) (job : ℕ) : kept (transport s op job) = kept s := by
  fun_cases transport s op job <;> simp +zetaDelta (disch := assumption) only [kept_finish, kept_localRange, kept_State_setConn, kept_State_setJob,
      kept_fetchContext, kept_joinWaiting, kept_of_pair]

@[simp] theorem kept_execWrite (job : ℕ) (s : State) : outKept (execWrite job s) = some (kept s) := by
  unfold execWrite
  simp only [kept_next, kept_transport]

@[simp] theorem kept_execWriteInc (job : ℕ) (s : State) : outKept (execWriteInc job s) = some (kept s) := by
  unfold execWriteInc
  simp only [kept_next, kept_transport]

@[simp] theorem kept_execWriteTrig (job : ℕ) (s : State) : outKept (execWriteTrig job s) = some (kept s) := by
  unfold execWriteTrig
  simp only [kept_next, kept_transport]

@[simp] theorem kept_execRead (job : ℕ) (s : State) : outKept (execRead job s) = some (kept s) := by
  unfold execRead
  simp only [kept_next, kept_transport]

@[simp] theorem kept_execSend (job : ℕ) (s : State) : outKept (execSend job s) = some (kept s) := by
  unfold execSend
  simp only [kept_next, kept_transport]

@[simp] theorem kept_execFetchAdd (job : ℕ) (s : State) : outKept (execFetchAdd job s) = some (kept s) := by
  unfold execFetchAdd
  simp only [kept_next, kept_transport]

@[simp] theorem kept_execCmpSwap (job : ℕ) (s : State) : outKept (execCmpSwap job s) = some (kept s) := by
  unfold execCmpSwap
  simp only [kept_next, kept_transport]

@[simp] theorem kept_execRecv (job : ℕ) (s : State) : outKept (execRecv job s) = some (kept s) := by
  unfold execRecv
  simp only [kept_next, kept_transport]

@[simp] theorem kept_nearSource (s : State) (w : Work) (a : ℕ) (n : ℕ) : kept (nearSource s w a n).1 = kept s := by
  fun_cases nearSource s w a n <;> simp (disch := assumption) only [kept_waitNear, kept_lakeRead, kept_of_pair]

@[simp] theorem kept_readSource (s : State) (i : ℕ) (c : Conn) (m : TxMsg) (psn : ℕ) : kept (readSource s i c m psn).1 = kept s := by
  fun_cases readSource s i c m psn <;> simp (disch := assumption) only [kept_dropXfer, kept_hostRead, kept_nearSource, kept_windowRead, kept_dropGot,
      kept_agentRead, kept_of_pair]

@[simp] theorem kept_sourceFails (s : State) (i : ℕ) (m : TxMsg) (st : Status) : kept (sourceFails s i m st) = kept s := by
  fun_cases sourceFails s i m st <;> simp +zetaDelta only [kept_State_setConn, kept_msgDone, kept_State_count, kept_sendNack]

@[simp] theorem kept_packetSend (s : State) (i : ℕ) : kept (packetSend s i) = kept s := by
  unfold packetSend
  split
  · rfl
  next c _ =>
  split
  · split
    · rw [kept_fetchContext]
    · rfl
  split
  · rfl
  split
  · rfl
  next psn again _ =>
  split
  · rfl
  next m _ =>
  extract_lets piece isLast note span quiet plain size
  clear_value size plain quiet span note isLast piece
  split
  · rfl
  split
  next s1 src hsrc =>
  have h1 : kept s1 = kept s := by
    split at hsrc
    · rw [(Prod.mk.inj hsrc).1]
    · split at hsrc
      · rw [(Prod.mk.inj hsrc).1]
      · split at hsrc
        · rw [(Prod.mk.inj hsrc).1]
        · split at hsrc
          · rw [← kept_readSource s i c m psn, hsrc]
          · rw [(Prod.mk.inj hsrc).1]
  split
  · exact h1
  · rw [kept_sourceFails, h1]
  split
  · exact h1
  extract_lets +onlyGivenNames old path
  split
  extract_lets +onlyGivenNames w h t k1 s2 s3
  have h2 : kept s2 = kept s := by rw [kept_sendPacket, kept_State_setConn, h1]
  have h3 : kept s3 = kept s := by
    rw [kept_touchConn]
    split
    · rw [kept_State_count, h2]
    · exact h2
  split
  · rw [kept_connError, h3]
  · exact h3

@[simp] theorem kept_execPacketSend (conn : ℕ) (s : State) : outKept (execPacketSend conn s) = some (kept s) := by
  unfold execPacketSend
  simp only [kept_next, kept_settle, kept_packetSend, kept_paritySettle]

@[simp] theorem kept_execDataPacket (delta : Option ParityMsg) (s : State) : outKept (execDataPacket delta s) = some (kept s) := by
  unfold execDataPacket
  simp only [kept_next, kept_packetIn]

@[simp] theorem kept_execAckPacket (s : State) : outKept (execAckPacket s) = some (kept s) := by
  unfold execAckPacket
  simp only [kept_next, kept_packetIn]

@[simp] theorem kept_execNackPacket (s : State) : outKept (execNackPacket s) = some (kept s) := by
  unfold execNackPacket
  simp only [kept_next, kept_packetIn]

@[simp] theorem kept_execReadReq (s : State) : outKept (execReadReq s) = some (kept s) := by
  unfold execReadReq
  simp only [kept_next, kept_packetIn]

end Sys2Proof.Machine
end

section
/-! PROOFS. What a step keeps of the waiting commands and of the fuses, part 7 of 12: the model's functions in the order in which they call each
other, from `execReadResp` to `execMadderParse`. -/

namespace Sys2Proof.Machine

open Sys2Proof

@[simp] theorem kept_execReadResp (s : State) : outKept (execReadResp s) = some (kept s) := by
  unfold execReadResp
  simp only [kept_next, kept_packetIn]

@[simp] theorem kept_execAtomicReq (s : State) : outKept (execAtomicReq s) = some (kept s) := by
  unfold execAtomicReq
  simp only [kept_next, kept_packetIn]

@[simp] theorem kept_execAtomicResp (s : State) : outKept (execAtomicResp s) = some (kept s) := by
  unfold execAtomicResp
  simp only [kept_next, kept_packetIn]

@[simp] theorem kept_execAckTimer (conn : ℕ) (s : State) : outKept (execAckTimer conn s) = some (kept s) := by
  fun_cases execAckTimer conn s <;> simp +zetaDelta only [kept_next, kept_sendAck, kept_State_setConn, apply_ite kept, ite_self]

@[simp] theorem kept_rtoExpiry (conn : ℕ) (psn : ℕ) (s : State) : kept (rtoExpiry conn psn s) = kept s := by
  fun_cases rtoExpiry conn psn s <;> simp +zetaDelta only [kept_losePsn, kept_State_setConn, apply_ite kept, ite_self]

@[simp] theorem kept_execRtoExpiry (conn : ℕ) (psn : ℕ) (s : State) : outKept (execRtoExpiry conn psn s) = some (kept s) := by
  unfold execRtoExpiry
  simp only [kept_next, kept_settle, kept_rtoExpiry]

@[simp] theorem kept_noprogExpiry (conn : ℕ) (s : State) : kept (noprogExpiry conn s) = kept s := by
  fun_cases noprogExpiry conn s <;> simp only [kept_connError]

@[simp] theorem kept_execNoprogExpiry (conn : ℕ) (s : State) : outKept (execNoprogExpiry conn s) = some (kept s) := by
  unfold execNoprogExpiry
  simp only [kept_next, kept_settle, kept_noprogExpiry]

@[simp] theorem kept_execContextMissBackoffEnd (conn : ℕ) (s : State) : outKept (execContextMissBackoffEnd conn s) = some (kept s) := by
  fun_cases execContextMissBackoffEnd conn s <;> simp only [kept_next, kept_State_setConn]

@[simp] theorem kept_execParkTimeout (s : State) : outKept (execParkTimeout s) = some (kept s) := by
  fun_cases execParkTimeout s <;> simp +zetaDelta only [kept_next, kept_missNack, kept_units]

theorem kept_unspill (s : State) (i : ℕ) (c : Conn) {t : State} (hret : unspill s i c = some t) : kept t = kept s := by
  unfold unspill at hret
  split at hret
  · rw [Option.some.inj hret]
  · extract_lets s1 at hret
    split at hret
    · rw [← Option.some.inj hret, kept_State_setConn]
    · rw [kept_spillQuiet _ _ hret, kept_State_setConn]

@[simp] theorem kept_contextArrives (H : Hooks) (hH : KeepsHooks H) (s : State) (i : ℕ) : kept (contextArrives H s i) = kept s := by
  unfold contextArrives
  split
  · rfl
  next c _ =>
  split
  · rfl
  extract_lets +onlyGivenNames x
  split
  · rfl
  extract_lets +onlyGivenNames bad
  split
  · rfl
  next s0 h0 =>
  extract_lets +onlyGivenNames s1 s2 mine
  have h1 : kept s1 = kept s := by rw [kept_bringOnDie, kept_dropXfer, kept_unspill _ _ _ h0]
  have h2 : kept s2 = kept s := by
    simp only [s2]
    split
    · rw [kept_connError, h1]
    · rw [kept_startWaiting, h1]
  clear_value mine s2
  rw [kept_foldl _ (fun t p => kept_handlePacket H hH t _), kept_units, h2]

@[simp] theorem kept_execContextArrived (conn : ℕ) (s : State) : outKept (execContextArrived conn s) = some (kept s) := by
  unfold execContextArrived
  simp only [kept_next, kept_settle, kept_contextArrives, kept_carmHooks]

@[simp] theorem kept_execCarmSpill (pair : MboxId) (blk : CmdBlock) (s : State) : outKept (execCarmSpill pair blk s) = some (kept s) := by
  unfold execCarmSpill
  rw [outKept_next, kept_fwCommand]
  intro y0 y1 y2
  (repeat' split) <;> simp only [kept_refuse, kept_accept, kept_units]

@[simp] theorem kept_carmNodeLost (pair : MboxId) (blk : CmdBlock) (s : State) : kept (carmNodeLost pair blk s) = kept s := by
  unfold carmNodeLost
  rw [kept_fwCommand]
  intro s c b
  (repeat' split)
  · rfl
  · rfl
  · rw [kept_accept, kept_foldl _ (fun t k => kept_connError ..)]

@[simp] theorem kept_execCarmNodeLost (pair : MboxId) (blk : CmdBlock) (s : State) : outKept (execCarmNodeLost pair blk s) = some (kept s) := by
  unfold execCarmNodeLost
  simp only [kept_next, kept_settle, kept_carmNodeLost]

@[simp] theorem kept_execCcProfCommit (prof : ℕ) (value : W64) (s : State) : outKept (execCcProfCommit prof value s) = some (kept s) := by
  fun_cases execCcProfCommit prof value s <;> simp only [kept_next, kept_units]

@[simp] theorem kept_apCommand (op : ℕ) (rs : List (ℕ × ℕ)) (n : ℕ) (k : MboxId) (blk : CmdBlock) (f : BitVec 32256 → ℕ → State → State)
    (hf : ∀ y0 y1 y2, kept (f y0 y1 y2) = kept y2) (s : State) :
    kept (apCommand op rs n k blk f s) = kept s := by
  unfold apCommand
  simp (disch := (intro _; intros; (repeat' split) <;> simp only [kept_refuse, kept_accept, hf])) only [kept_afterPort, kept_fwCommand]

@[simp] theorem kept_execApAssign (pair : MboxId) (blk : CmdBlock) (s : State) : outKept (execApAssign pair blk s) = some (kept s) := by
  unfold execApAssign
  rw [outKept_next, kept_apCommand]
  intro y0 y1 y2
  (repeat' split) <;> simp only [kept_State_setPort]

@[simp] theorem kept_trainPort (s : State) (p : ℕ) : kept (trainPort s p) = kept s := by
  fun_cases trainPort s p <;> simp +zetaDelta only [kept_portDown, kept_dropLink, kept_State_setPort]

@[simp] theorem kept_fullRetrain (s : State) (p : ℕ) (cause : ℕ) : kept (fullRetrain s p cause) = kept s := by
  unfold fullRetrain
  simp only [kept_State_count, kept_trainPort, kept_State_setPort]

@[simp] theorem kept_execApRetrain (pair : MboxId) (blk : CmdBlock) (s : State) : outKept (execApRetrain pair blk s) = some (kept s) := by
  unfold execApRetrain
  rw [outKept_next, kept_apCommand]
  intro y0 y1 y2
  dsimp only
  (repeat' split) <;> simp only [kept_fullRetrain]

@[simp] theorem kept_execApEnable (pair : MboxId) (blk : CmdBlock) (s : State) : outKept (execApEnable pair blk s) = some (kept s) := by
  unfold execApEnable
  rw [outKept_next, kept_apCommand]
  intro y0 y1 y2
  dsimp only
  (repeat' split) <;> simp only [kept_trainPort, kept_State_setPort, kept_portDown]

@[simp] theorem kept_onPort (p : ℕ) (f : ApPort → State → State) (hf : ∀ y0 y1, kept (f y0 y1) = kept y1) (s : State) :
    outKept (onPort p f s) = some (kept s) := by
  fun_cases onPort p f s
  simp +zetaDelta only [kept_next, kept_afterPort, hf, apply_ite kept, ite_self]

@[simp] theorem kept_execTrainingRetryTimer (port : ℕ) (s : State) : outKept (execTrainingRetryTimer port s) = some (kept s) := by
  unfold execTrainingRetryTimer
  rw [kept_onPort]
  intro y0 y1
  (repeat' split) <;> simp only [kept_trainPort]

@[simp] theorem kept_failLanes (s : State) (p : ℕ) (ls : List ℕ) : kept (failLanes s p ls) = kept s := by
  unfold failLanes
  rw [kept_foldl]
  intro y0 y1
  simp only [kept_markRetired, kept_State_trouble]

@[simp] theorem kept_noteSpares (s : State) (p : ℕ) : kept (noteSpares s p) = kept s := by
  unfold noteSpares
  rw [kept_foldl]
  intro y0 y1
  simp only [kept_standIn]

@[simp] theorem kept_execLaneTestDone (port : ℕ) (good : BitVec 66) (s : State) : outKept (execLaneTestDone port good s) = some (kept s) := by
  unfold execLaneTestDone
  rw [kept_onPort]
  intro y0 y1
  dsimp only
  (repeat' split) <;> simp only [kept_State_setPort, kept_portDown, kept_failLanes, kept_noteSpares]

@[simp] theorem kept_onFlit (port : ℕ) (kind : ℕ) (flit : List Byte) (f : FlitIn → State → State) (hf : ∀ y0 y1, kept (f y0 y1) = kept y1)
    (s : State) :
    outKept (onFlit port kind flit f s) = some (kept s) := by
  unfold onFlit
  rw [kept_onPort]
  intro y0 y1
  (repeat' split) <;> simp only [kept_State_count, kept_State_setPort, hf]

@[simp] theorem kept_execCaps (port : ℕ) (flit : List Byte) (s : State) : outKept (execCaps port flit s) = some (kept s) := by
  unfold execCaps
  (repeat' split) <;> simp (disch := (intro _ _; (repeat' split) <;> simp only [kept_State_count, kept_portDown,
      kept_State_setPort])) only [kept_onFlit, kept_onPort]

@[simp] theorem kept_execTrainingTimeout (port : ℕ) (s : State) : outKept (execTrainingTimeout port s) = some (kept s) := by
  unfold execTrainingTimeout
  rw [kept_onPort]
  intro y0 y1
  (repeat' split) <;> simp only [kept_portDown]

@[simp] theorem kept_execStandbyLaneRetest (port : ℕ) (good : BitVec 66) (s : State) :
    outKept (execStandbyLaneRetest port good s) = some (kept s) := by
  unfold execStandbyLaneRetest
  rw [kept_onPort]
  intro y0 y1
  (repeat' split) <;> simp only [kept_failLanes]

@[simp] theorem kept_takePayload (s : State) (p : ℕ) (f : FlitIn) : kept (takePayload s p f) = kept s := by
  fun_cases takePayload s p f <;> simp +zetaDelta only [kept_State_setPort, kept_State_count]

@[simp] theorem kept_countExpress (s : State) (p : ℕ) : kept (countExpress s p) = kept s := by
  fun_cases countExpress s p <;> simp +zetaDelta only [kept_State_setPort, kept_State_count]

@[simp] theorem kept_execTransactionFlit (port : ℕ) (flit : List Byte) (s : State) : outKept (execTransactionFlit port flit s) = some (kept s) := by
  unfold execTransactionFlit
  rw [kept_onFlit]
  intro y0 y1
  dsimp only
  (repeat' split) <;> simp only [kept_State_count, kept_fullRetrain, kept_State_setPort, kept_takePayload, kept_countExpress]

@[simp] theorem kept_execIdleFlit (port : ℕ) (flit : List Byte) (s : State) : outKept (execIdleFlit port flit s) = some (kept s) := by
  unfold execIdleFlit
  rw [kept_onFlit]
  intro y0 y1
  simp (disch := assumption) only

@[simp] theorem kept_execNak (port : ℕ) (flit : List Byte) (s : State) : outKept (execNak port flit s) = some (kept s) := by
  unfold execNak
  rw [kept_onFlit]
  intro y0 y1
  dsimp only
  (repeat' split) <;> simp only [kept_State_setPort, kept_fastRetrain]

@[simp] theorem kept_execNakRepeatTimer (port : ℕ) (s : State) : outKept (execNakRepeatTimer port s) = some (kept s) := by
  unfold execNakRepeatTimer
  rw [kept_onPort]
  intro y0 y1
  dsimp only
  (repeat' split) <;> simp only [kept_State_setPort, kept_fastRetrain]

@[simp] theorem kept_execLaneSwap (port : ℕ) (flit : List Byte) (s : State) : outKept (execLaneSwap port flit s) = some (kept s) := by
  unfold execLaneSwap
  rw [kept_onFlit]
  intro y0 y1
  dsimp only
  (repeat' split) <;> simp only [kept_noteSpares, kept_State_setPort]

@[simp] theorem kept_execLaneSwapAck (port : ℕ) (flit : List Byte) (s : State) : outKept (execLaneSwapAck port flit s) = some (kept s) := by
  unfold execLaneSwapAck
  rw [kept_onFlit]
  intro y0 y1
  dsimp only
  (repeat' split) <;> simp only [kept_noteSpares, kept_State_setPort]

@[simp] theorem kept_execLaneFecWindow (port : ℕ) (lane : ℕ) (corrected : ℕ) (s : State) :
    outKept (execLaneFecWindow port lane corrected s) = some (kept s) := by
  unfold execLaneFecWindow
  rw [kept_onPort]
  intro y0 y1
  (repeat' split) <;> simp only [kept_State_count, kept_State_trouble, kept_State_setPort]

@[simp] theorem kept_execLaneLoss (port : ℕ) (lane : ℕ) (ue : ℕ) (s : State) : outKept (execLaneLoss port lane ue s) = some (kept s) := by
  unfold execLaneLoss
  rw [kept_onPort]
  intro y0 y1
  (repeat' split) <;> simp only [kept_fastRetrain, kept_markRetired, kept_State_trouble]

@[simp] theorem kept_execFastRetrainDone (port : ℕ) (good : BitVec 66) (s : State) : outKept (execFastRetrainDone port good s) = some (kept s) := by
  unfold execFastRetrainDone
  rw [kept_onPort]
  intro y0 y1
  dsimp only
  (repeat' split) <;> simp only [kept_State_setPort, kept_portDown, kept_failLanes, kept_noteSpares]

@[simp] theorem kept_putFlit (s : State) (p : ℕ) (kind : ℕ) (vc : ℕ) (first : ℕ) (seq : ℕ) (payload : List Byte) :
    kept (putFlit s p kind vc first seq payload) = kept s := by
  fun_cases putFlit s p kind vc first seq payload
  simp only [kept_State_emit, kept_State_setPort]

@[simp] theorem kept_sendVc (s : State) (p : ℕ) (vc : ℕ) : kept (sendVc s p vc) = kept s := by
  fun_cases sendVc s p vc
  simp +zetaDelta only [kept_State_setPort, kept_State_count, kept_putFlit]

@[simp] theorem kept_execFlitTransmit (port : ℕ) (s : State) : outKept (execFlitTransmit port s) = some (kept s) := by
  unfold execFlitTransmit
  rw [kept_onPort]
  intro y0 y1
  dsimp only
  (repeat' split) <;> simp only [kept_putFlit, kept_State_setPort, kept_State_count, kept_sendVc]

@[simp] theorem kept_onTxn (port : ℕ) (ttype : ℕ) (f : RxTxn → State → State) (hf : ∀ y0 y1, kept (f y0 y1) = kept y1) (s : State) :
    outKept (onTxn port ttype f s) = some (kept s) := by
  unfold onTxn
  rw [kept_onPort]
  intro y0 y1
  (repeat' split) <;> simp only [kept_State_setPort, hf]

@[simp] theorem kept_partnerCheck (s : State) (p : ℕ) (a : ℕ) (len : ℕ) : kept (partnerCheck s p a len).1 = kept s := by
  fun_cases partnerCheck s p a len <;> simp only [kept_State_count, kept_denied]

@[simp] theorem kept_execMwr (port : ℕ) (s : State) : outKept (execMwr port s) = some (kept s) := by
  unfold execMwr
  (repeat' split) <;> simp (disch := (intro _ _; (repeat' split) <;> simp (disch := assumption) only [kept_partnerCheck, kept_lakeWrite,
      kept_of_pair])) only [kept_onTxn, outKept_next]

@[simp] theorem kept_answerErr (s : State) (p : ℕ) (t : RxTxn) (st : Status) : kept (answerErr s p t st) = kept s := by
  unfold answerErr
  simp only [kept_queueTxn]

@[simp] theorem kept_answer (s : State) (p : ℕ) (t : RxTxn) (data : List Byte) : kept (answer s p t data) = kept s := by
  unfold answer
  simp only [kept_queueTxn]

@[simp] theorem kept_execMrd (port : ℕ) (s : State) : outKept (execMrd port s) = some (kept s) := by
  unfold execMrd
  (repeat' split) <;> simp (disch := (intro _ _; (repeat' split) <;> simp (disch := assumption) only [kept_partnerCheck, kept_answerErr,
      kept_lakeRead, kept_answer, kept_of_pair])) only [kept_onTxn, outKept_next]

@[simp] theorem kept_onAnswer (port : ℕ) (ttype : ℕ) (f : ApReq → RxTxn → State → State) (hf : ∀ y0 y1 y2, kept (f y0 y1 y2) = kept y2) (s : State) :
    outKept (onAnswer port ttype f s) = some (kept s) := by
  unfold onAnswer
  rw [kept_onTxn]
  intro y0 y1
  dsimp only
  (repeat' split) <;> simp only [kept_State_setPort, kept_State_count, hf]

@[simp] theorem kept_gotData (s : State) (q : ApReq) (bs : List Byte) (bad : Bool) : kept (gotData s q bs bad) = kept s := by
  fun_cases gotData s q bs bad <;> simp only [kept_units]

@[simp] theorem kept_execCpl (port : ℕ) (s : State) : outKept (execCpl port s) = some (kept s) := by
  unfold execCpl
  rw [kept_onAnswer]
  intro y0 y1 y2
  (repeat' split) <;> simp only [kept_gotData, kept_failWork]

@[simp] theorem kept_execCplErr (port : ℕ) (s : State) : outKept (execCplErr port s) = some (kept s) := by
  unfold execCplErr
  rw [kept_onAnswer]
  intro y0 y1 y2
  (repeat' split) <;> simp only [kept_gotData, kept_failWork]

@[simp] theorem kept_execApCtrAdd (port : ℕ) (s : State) : outKept (execApCtrAdd port s) = some (kept s) := by
  unfold execApCtrAdd
  rw [kept_onTxn]
  intro y0 y1
  (repeat' split) <;> simp only [kept_State_addCtr, kept_State_count]

@[simp] theorem kept_execCtrRd (port : ℕ) (s : State) : outKept (execCtrRd port s) = some (kept s) := by
  unfold execCtrRd
  rw [kept_onTxn]
  intro y0 y1
  (repeat' split) <;> simp only [kept_answer, kept_answerErr, kept_State_count]

@[simp] theorem kept_execApFence (port : ℕ) (s : State) : outKept (execApFence port s) = some (kept s) := by
  unfold execApFence
  rw [kept_onTxn]
  intro y0 y1
  simp only [kept_answer]

@[simp] theorem kept_execApPost (port : ℕ) (s : State) : outKept (execApPost port s) = some (kept s) := by
  unfold execApPost
  rw [kept_onTxn]
  intro y0 y1
  dsimp only
  (repeat' split) <;> simp only [kept_State_count, kept_State_setPort]

@[simp] theorem kept_postDesc (s : State) (ring : ℕ) (d : Desc) : kept (postDesc s ring d) = kept s := by
  fun_cases postDesc s ring d <;> simp only [kept_reserve, kept_State_setWork]

@[simp] theorem kept_execApPostStart (port : ℕ) (s : State) : outKept (execApPostStart port s) = some (kept s) := by
  unfold execApPostStart
  rw [kept_onPort]
  intro y0 y1
  (repeat' split) <;> simp only [kept_postDesc, kept_State_setPort]

@[simp] theorem kept_execApCplTimeout (port : ℕ) (tag : ℕ) (s : State) : outKept (execApCplTimeout port tag s) = some (kept s) := by
  unfold execApCplTimeout
  rw [kept_onPort]
  intro y0 y1
  (repeat' split) <;> simp only [kept_failWork, kept_State_count, kept_State_setPort]

@[simp] theorem kept_execPartnerPresence (port : ℕ) (present : Bool) (s : State) : outKept (execPartnerPresence port present s) = some (kept s) := by
  unfold execPartnerPresence
  rw [kept_onPort]
  intro y0 y1
  (repeat' split) <;> simp only [kept_State_setPort, kept_portDown]

@[simp] theorem kept_startVerify (s : State) (p : ℕ) (was : Bool) : kept (startVerify s p was) = kept s := by
  fun_cases startVerify s p was <;> simp only [kept_State_setEth]

@[simp] theorem kept_execEthPortCfgWrite (port : ℕ) (value : W32) (s : State) : outKept (execEthPortCfgWrite port value s) = some (kept s) := by
  fun_cases execEthPortCfgWrite port value s <;> simp +zetaDelta only [kept_State_setReg, kept_next, kept_startVerify, kept_relight, apply_ite kept,
      ite_self]

@[simp] theorem kept_execEthLinkUp (port : ℕ) (s : State) : outKept (execEthLinkUp port s) = some (kept s) := by
  fun_cases execEthLinkUp port s <;> simp only [kept_next, kept_State_setEth]

@[simp] theorem kept_execEthLinkDown (port : ℕ) (cause : ℕ) (s : State) : outKept (execEthLinkDown port cause s) = some (kept s) := by
  fun_cases execEthLinkDown port cause s <;> simp only [kept_next, kept_State_setEth, kept_flushPort]

@[simp] theorem kept_execPreemptVerify (port : ℕ) (ok : Bool) (s : State) : outKept (execPreemptVerify port ok s) = some (kept s) := by
  fun_cases execPreemptVerify port ok s <;> simp only [kept_next, kept_State_setEth]

@[simp] theorem kept_State_setWport (s : State) (p : ℕ) (x2 : WPort) : kept (State.setWport s p x2) = kept s := rfl

@[simp] theorem kept_startList (s : State) (p : ℕ) : kept (startList s p) = kept s := by
  fun_cases startList s p <;> simp only [kept_State_setWport, kept_tickShapers]

@[simp] theorem kept_stepTs (s : State) (p : ℕ) (step : ℤ) : kept (stepTs s p step) = kept s := by
  unfold stepTs
  simp only [kept_State_setEth]

@[simp] theorem kept_execTsAdjWrite (port : ℕ) (value : W64) (s : State) : outKept (execTsAdjWrite port value s) = some (kept s) := by
  fun_cases execTsAdjWrite port value s
  simp +zetaDelta only [kept_next, kept_startList, kept_stepTs, kept_tickShapers, apply_ite kept, ite_self]

@[simp] theorem kept_execTsRateWrite (port : ℕ) (value : W32) (s : State) : outKept (execTsRateWrite port value s) = some (kept s) := by
  fun_cases execTsRateWrite port value s
  simp +zetaDelta only [kept_next, kept_State_setReg, kept_stepTs, apply_ite kept, ite_self]

@[simp] theorem kept_execTsLatchRead (port : ℕ) (s : State) : outKept (execTsLatchRead port s) = some (kept s) := by
  unfold execTsLatchRead
  simp only [kept_next, kept_State_emit, kept_State_setEth]

@[simp] theorem kept_makeRoom (p : ℕ) (n : ℕ) (a : ℕ) (x3 : State) : kept (makeRoom p n a x3) = kept x3 := by
  induction a generalizing p n x3 with
  | zero => simp only [makeRoom]
  | succ n ih =>
    unfold makeRoom
    (repeat' split) <;> simp only [kept_State_count, kept_units, ih]

@[simp] theorem kept_execFrameReceive (port : ℕ) (frame : List Byte) (fcsOk : Bool) (s : State) :
    outKept (execFrameReceive port frame fcsOk s) = some (kept s) := by
  fun_cases execFrameReceive port frame fcsOk s <;> simp +zetaDelta only [kept_next, kept_State_count, kept_makeRoom, kept_units, apply_ite kept,
      ite_self]

@[simp] theorem kept_execEmitterBiasCheck (engine : ℕ) (emitter : ℕ) (bias : ℕ) (s : State) :
    outKept (execEmitterBiasCheck engine emitter bias s) = some (kept s) := by
  fun_cases execEmitterBiasCheck engine emitter bias s <;> simp +zetaDelta (disch := assumption) only [kept_next, kept_State_setCart,
      kept_retireEmitter, kept_State_choose, kept_State_event, kept_of_pair']

@[simp] theorem kept_execEmitterFailure (engine : ℕ) (emitter : ℕ) (s : State) : outKept (execEmitterFailure engine emitter s) = some (kept s) := by
  fun_cases execEmitterFailure engine emitter s
  simp +zetaDelta only [kept_next, kept_retireEmitter, apply_ite kept, ite_self]

@[simp] theorem kept_execCartRead (pair : MboxId) (blk : CmdBlock) (s : State) : outKept (execCartRead pair blk s) = some (kept s) := by
  unfold execCartRead
  rw [outKept_next, kept_fwCommand]
  intro y0 y1 y2
  (repeat' split) <;> simp only [kept_refuse, kept_accept, kept_State_hostWrite]

@[simp] theorem kept_execCartRelease (pair : MboxId) (blk : CmdBlock) (s : State) : outKept (execCartRelease pair blk s) = some (kept s) := by
  unfold execCartRelease
  rw [outKept_next, kept_fwCommand]
  intro s c b
  dsimp only
  (repeat' split)
  any_goals rw [kept_refuse]
  rw [kept_foldl _ (fun t i => kept_State_setEth t _ _), kept_State_setCart]

@[simp] theorem kept_execCartReleaseDone (engine : ℕ) (s : State) : outKept (execCartReleaseDone engine s) = some (kept s) := by
  fun_cases execCartReleaseDone engine s <;> simp +zetaDelta only [kept_next, kept_lifeLog, kept_enginePortsDown, kept_State_setCart, kept_finishCmd,
      apply_ite kept, ite_self]

@[simp] theorem kept_execLatchOpen (engine : ℕ) (s : State) : outKept (execLatchOpen engine s) = some (kept s) := by
  fun_cases execLatchOpen engine s <;> simp +zetaDelta only [kept_next, kept_State_setCart, kept_enginePortsDown, kept_finishCmd, kept_units,
      apply_ite kept, ite_self]

@[simp] theorem kept_execLatchClose (engine : ℕ) (cart : Option CartIn) (s : State) : outKept (execLatchClose engine cart s) = some (kept s) := by
  fun_cases execLatchClose engine cart s <;> simp only [kept_next, kept_State_setCart]

@[simp] theorem kept_cartInService (s : State) (e : ℕ) (c : CartIn) : kept (cartInService s e c) = kept s := by
  unfold cartInService
  dsimp only
  (repeat' split) <;> simp (disch := (intro _ _; (repeat' split) <;> simp only [kept_State_setUnit, kept_lifeLog, kept_assignSpare,
      kept_relight])) only [kept_State_setUnit, kept_State_setCart, kept_lifeLog, kept_units, kept_foldl]

@[simp] theorem kept_execCartVerifyDone (engine : ℕ) (refOk : Bool) (s : State) : outKept (execCartVerifyDone engine refOk s) = some (kept s) := by
  unfold execCartVerifyDone
  dsimp only
  (repeat' split) <;> simp (disch := (intro _ _; simp only [kept_relight])) only [kept_cartInService, kept_State_setCart, outKept_next, kept_foldl]

@[simp] theorem kept_execCartHourlyLog (engine : ℕ) (s : State) : outKept (execCartHourlyLog engine s) = some (kept s) := by
  fun_cases execCartHourlyLog engine s <;> simp only [kept_next, kept_State_setCart]

@[simp] theorem kept_execCartDailySample (engine : ℕ) (s : State) : outKept (execCartDailySample engine s) = some (kept s) := by
  unfold execCartDailySample
  rw [outKept_next, kept_foldl]
  intro y0 y1
  (repeat' split) <;> simp only [kept_lifeLog]

@[simp] theorem kept_State_setColl (s : State) (i : ℕ) (c : Collector) : kept (State.setColl s i c) = kept s := rfl

@[simp] theorem kept_sampleFrame (s : State) (p : ℕ) (key : BitVec 448) (size : ℕ) (stamp : ℤ) (disp : ℕ) :
    kept (sampleFrame s p key size stamp disp) = kept s := by
  unfold sampleFrame
  dsimp only
  (repeat' split) <;> simp (disch := (intro _ _; (repeat' split) <;> simp only [kept_State_setColl])) only [kept_State_choose, kept_State_count,
      kept_units, kept_foldl]

@[simp] theorem kept_takeToken (s : State) (i : ℕ) (rate : ℕ) (cap : ℕ) : kept (takeToken s i rate cap).1 = kept s := rfl

@[simp] theorem kept_spIrq (s : State) (q : ℕ) : kept (spIrq s q) = kept s := by
  fun_cases spIrq s q <;> simp only [kept_State_msix, kept_units]

theorem kept_spDeliver (s : State) (f : RxFrame) (cause : ℕ) (spq : ℕ) {t0} (hret : spDeliver s f cause spq = some t0) : kept t0 = kept s := by
  revert hret
  unfold spDeliver
  dsimp only
  (repeat' split) <;> intro h <;> cases h <;> simp only [kept_State_hostWrite, kept_spIrq, kept_units]

@[simp] theorem kept_slowPath (s : State) (f : RxFrame) (cause : ℕ) (spq : ℕ) : kept (slowPath s f cause spq) = kept s := by
  fun_cases slowPath s f cause spq <;> simp +zetaDelta (disch := assumption) only [kept_State_count, kept_takeToken, kept_State_choose,
      kept_handToWeld, kept_spDeliver, kept_of_pair, kept_of_pair', apply_ite Prod.fst, apply_ite kept, ite_self]

@[simp] theorem kept_carmArrive (s : State) (p : RxPkt) : kept (carmArrive s p) = kept s := by
  fun_cases carmArrive s p <;> simp +zetaDelta only [kept_State_count, kept_units]

@[simp] theorem kept_toCarmine (s : State) (p : Parse) (bs : List Byte) : kept (toCarmine s p bs) = kept s := by
  unfold toCarmine
  simp only [kept_carmArrive]

@[simp] theorem kept_applyAction (s : State) (f : RxFrame) (p : Parse) (action : W64) : kept (applyAction s f p action) = kept s := by
  fun_cases applyAction s f p action
  simp +zetaDelta only [kept_slowPath, kept_toCarmine, kept_sampleFrame, kept_units, apply_ite kept, ite_self]

@[simp] theorem kept_unmatched (s : State) (f : RxFrame) (p : Parse) : kept (unmatched s f p) = kept s := by
  unfold unmatched
  simp only [kept_sampleFrame, kept_slowPath]

@[simp] theorem kept_decideFrame (s : State) (f : RxFrame) : kept (decideFrame s f) = kept s := by
  fun_cases decideFrame s f <;> simp only [kept_sampleFrame, kept_slowPath, kept_applyAction, kept_State_count, kept_toCarmine, kept_unmatched,
      kept_units]

@[simp] theorem kept_execMadderParse (port : ℕ) (s : State) : outKept (execMadderParse port s) = some (kept s) := by
  fun_cases execMadderParse port s <;> simp only [kept_next, kept_decideFrame, kept_units]

end Sys2Proof.Machine
end

section
/-! PROOFS. What a step keeps of the waiting commands and of the fuses, part 8 of 12: the model's functions in the order in which they call each
other, from `execFlowLookupResult` to `execSafCtrlReset`. -/

namespace Sys2Proof.Machine

open Sys2Proof

@[simp] theorem kept_execFlowLookupResult (s : State) : outKept (execFlowLookupResult s) = some (kept s) := by
  fun_cases execFlowLookupResult s <;> simp +zetaDelta only [kept_next, kept_applyAction, kept_State_count, kept_unmatched, kept_units]

@[simp] theorem kept_execFlowLookupTimeout (s : State) : outKept (execFlowLookupTimeout s) = some (kept s) := by
  fun_cases execFlowLookupTimeout s <;> simp only [kept_next, kept_unmatched, kept_State_count, kept_units]

@[simp] theorem kept_ruleCommand (f : Rule → State → State) (hf : ∀ y0 y1, kept (f y0 y1) = kept y1) (s : State) :
    outKept (ruleCommand f s) = some (kept s) := by
  fun_cases ruleCommand f s <;> simp only [kept_next, hf, kept_units]

@[simp] theorem kept_State_setRule (s : State) (i : ℕ) (r : Rule) : kept (State.setRule s i r) = kept s := rfl

@[simp] theorem kept_execRuleWrite (s : State) : outKept (execRuleWrite s) = some (kept s) := by
  unfold execRuleWrite
  rw [kept_ruleCommand]
  intro y0 y1
  (repeat' split) <;> simp only [kept_State_setReg, kept_State_setRule, kept_units]

@[simp] theorem kept_execRuleInvalidate (s : State) : outKept (execRuleInvalidate s) = some (kept s) := by
  unfold execRuleInvalidate
  rw [kept_ruleCommand]
  intro y0 y1
  (repeat' split) <;> simp only [kept_State_setRule]

@[simp] theorem kept_execRuleRead (s : State) : outKept (execRuleRead s) = some (kept s) := by
  refine kept_ruleCommand _ (fun r s => ?_) s
  have hw : ∀ (x : BitVec 448) (k : ℕ) (t : State),
      kept ((List.range 7).foldl (fun s i => s.setReg (MADR_RULE_DATA (k + i)) (bn x (64 * i + 63) (64 * i))) t) = kept t :=
    fun x k t => kept_foldl _ (fun u i => kept_State_setReg u _ _) _ t
  rw [kept_units, kept_State_setReg, kept_State_setReg, hw, hw]

@[simp] theorem kept_execRuleCmdDone (s : State) : outKept (execRuleCmdDone s) = some (kept s) := by
  unfold execRuleCmdDone
  simp only [kept_next, kept_units]

@[simp] theorem kept_flowCommand (op : ℕ) (n : ℕ) (rs : List (ℕ × ℕ)) (k : MboxId) (blk : CmdBlock) (f : BitVec 32256 →
  Cmd → State → State × Option Reply) (hf : ∀ y0 y1 y2, kept (f y0 y1 y2).1 = kept y2)
      (s : State) : kept (flowCommand op n rs k blk f s) = kept s := by
  unfold flowCommand
  (repeat' split) <;> simp (disch := (intro _; intros; (repeat' split) <;> simp only [kept_refuse, hf])) only [kept_fwCommand]

@[simp] theorem kept_execFlowTable (pair : MboxId) (blk : CmdBlock) (s : State) : outKept (execFlowTable pair blk s) = some (kept s) := by
  unfold execFlowTable
  rw [outKept_next, kept_flowCommand]
  intro b c s
  extract_lets n
  split
  · rw [kept_refuse]
  · split
    · rw [kept_refuse]
    next h => rw [kept_units, kept_takeFwRegion _ _ _ h]

@[simp] theorem kept_dropFlowRegion (s : State) (last : Bool) : kept (dropFlowRegion s last) = kept s := by
  fun_cases dropFlowRegion s last <;> simp only [kept_releasePages, kept_units]

@[simp] theorem kept_execFlowTableSwitch (s : State) : outKept (execFlowTableSwitch s) = some (kept s) := by
  fun_cases execFlowTableSwitch s <;> simp +zetaDelta only [kept_next, kept_replyTo, kept_dropFlowRegion, kept_units, apply_ite kept, ite_self]

@[simp] theorem kept_execFlowAdd_put (s : State) (e : FlowEntry) : kept (execFlowAdd.put s e).1 = kept s := by
  fun_cases execFlowAdd.put s e <;> simp only [kept_accept, kept_refuse, kept_units]

@[simp] theorem kept_execFlowAdd (pair : MboxId) (blk : CmdBlock) (s : State) : outKept (execFlowAdd pair blk s) = some (kept s) := by
  unfold execFlowAdd
  rw [outKept_next, kept_flowCommand]
  intro y0 y1 y2
  dsimp only
  (repeat' split) <;> simp only [kept_refuse, kept_execFlowAdd_put]

@[simp] theorem kept_execFlowDel (pair : MboxId) (blk : CmdBlock) (s : State) : outKept (execFlowDel pair blk s) = some (kept s) := by
  unfold execFlowDel
  rw [outKept_next, kept_flowCommand]
  intro y0 y1 y2
  (repeat' split) <;> simp only [kept_refuse, kept_accept, kept_units]

@[simp] theorem kept_State_setQueue (s : State) (p : ℕ) (q : ℕ) (x3 : EQueue) : kept (State.setQueue s p q x3) = kept s := rfl

@[simp] theorem kept_execWeldEnqueue (port : ℕ) (s : State) : outKept (execWeldEnqueue port s) = some (kept s) := by
  fun_cases execWeldEnqueue port s <;> simp +zetaDelta only [kept_next, kept_tickShapers, kept_State_setQueue, kept_units]

@[simp] theorem kept_settleClasses (s : State) (p : ℕ) : kept (settleClasses s p) = kept s := by
  unfold settleClasses
  simp only [kept_State_setWport]

@[simp] theorem kept_dequeue (s : State) (p : ℕ) (q : ℕ) : kept (dequeue s p q) = kept s := by
  fun_cases dequeue s p q
  simp only [kept_State_setQueue]

@[simp] theorem kept_guardBand_discardHead (s : State) (p : ℕ) (c : Cand) : kept (guardBand.discardHead s p c) = kept s := by
  fun_cases guardBand.discardHead s p c <;> simp +zetaDelta only [kept_State_count, kept_dequeue, kept_finishCmd]

@[simp] theorem kept_guardBand (s : State) (p : ℕ) : kept (guardBand s p) = kept s := by
  unfold guardBand
  rw [kept_foldl]
  intro y0 y1
  (repeat' split) <;> simp only [kept_guardBand_discardHead, kept_State_count, kept_State_setQueue]

@[simp] theorem kept_sendFrame (s : State) (p : ℕ) (k : ℕ) (c : Cand) : kept (sendFrame s p k c) = kept s := by
  fun_cases sendFrame s p k c <;> simp +zetaDelta only [kept_dequeue, kept_State_setShaper, kept_State_count, kept_State_emit, kept_finishCmd,
      apply_ite kept, ite_self]

@[simp] theorem kept_preempt (s : State) (p : ℕ) (cost : ℕ) : kept (preempt s p cost) = kept s := by
  fun_cases preempt s p cost <;> simp +zetaDelta only [kept_State_count, kept_State_setWport]

@[simp] theorem kept_putDeficits (s : State) (p : ℕ) (d : Map ℕ) : kept (putDeficits s p d) = kept s := by
  unfold putDeficits
  rw [kept_foldl]
  intro y0 y1
  simp only [kept_State_setQueue]

@[simp] theorem kept_takeOff (s : State) (p : ℕ) (c : Cand) : kept (takeOff s p c) = kept s := by
  fun_cases takeOff s p c <;> simp only [kept_State_setWport]

@[simp] theorem kept_transmit_low (s : State) (p : ℕ) (cs : List Cand) : kept (transmit.low s p cs) = kept s := by
  fun_cases transmit.low s p cs <;> simp +zetaDelta only [kept_putDeficits, kept_settleClasses, kept_sendFrame, kept_takeOff, kept_State_setWport]

@[simp] theorem kept_transmit (s0 : State) (p : ℕ) : kept (transmit s0 p) = kept s0 := by
  fun_cases transmit s0 p <;> simp +zetaDelta only [kept_settleClasses, kept_guardBand, kept_tickShapers, kept_sendFrame, kept_preempt,
      kept_State_setWport, kept_transmit_low, kept_State_setQueue, kept_State_count, apply_ite kept, ite_self]

@[simp] theorem kept_execTransmitDecision (port : ℕ) (s : State) : outKept (execTransmitDecision port s) = some (kept s) := by
  unfold execTransmitDecision
  simp only [kept_next, kept_transmit]

@[simp] theorem kept_execShaperCommit (shaper : ℕ) (value : W32) (s : State) : outKept (execShaperCommit shaper value s) = some (kept s) := by
  fun_cases execShaperCommit shaper value s <;> simp only [kept_next, kept_State_setShaper, kept_State_setReg]

@[simp] theorem kept_execGateListChange (port : ℕ) (value : W32) (s : State) : outKept (execGateListChange port value s) = some (kept s) := by
  fun_cases execGateListChange port value s <;> simp +zetaDelta only [kept_State_setReg, kept_next, kept_State_setWport]

@[simp] theorem kept_execGateListStart (port : ℕ) (s : State) : outKept (execGateListStart port s) = some (kept s) := by
  unfold execGateListStart
  simp only [kept_next, kept_startList]

@[simp] theorem kept_execGateEntryAdvance (port : ℕ) (s : State) : outKept (execGateEntryAdvance port s) = some (kept s) := by
  unfold execGateEntryAdvance
  simp only [kept_next, kept_tickShapers]

@[simp] theorem kept_execQueueSample (s : State) : outKept (execQueueSample s) = some (kept s) := by
  fun_cases execQueueSample s
  simp +zetaDelta only [kept_next, kept_State_count, kept_units, apply_ite kept, ite_self]

@[simp] theorem kept_clearOutbound (s : State) (k : MboxId) : kept (clearOutbound s k) = kept s := by
  fun_cases clearOutbound s k <;> simp +zetaDelta only [kept_State_setPair, kept_State_event, kept_units]

@[simp] theorem kept_failSource (s : State) (i : ℕ) (psn : ℕ) (st : Status) : kept (failSource s i psn st) = kept s := by
  fun_cases failSource s i psn st <;> simp only [kept_msgDone, kept_State_setConn]

@[simp] theorem kept_stopWork (s : State) (w : Work) : kept (stopWork s w) = kept s := by
  fun_cases stopWork s w <;> simp only [kept_unreserve, kept_nvEnd, kept_failSource]

@[simp] theorem kept_hostStop (s : State) (f : ℕ) : kept (hostStop s f) = kept s := by
  unfold hostStop
  simp (disch := (intro _ _; simp only [kept_stopWork])) only [kept_safSettle, kept_units, kept_foldl]

@[simp] theorem kept_dmaKill (s : State) (f : ℕ) : kept (dmaKill s f) = kept s := by
  unfold dmaKill
  simp only [kept_hostStop, kept_units]

@[simp] theorem kept_flrStart (s : State) (f : ℕ) : kept (flrStart s f) = kept s := by
  unfold flrStart
  dsimp only
  (repeat' split) <;> simp (disch := (intro _ _; simp only [kept_clearOutbound])) only [kept_State_setFn, kept_dmaKill, kept_units, kept_foldl]

@[simp] theorem kept_State_setHport (s : State) (h : ℕ) (x2 : HPort) : kept (State.setHport s h x2) = kept s := rfl

@[simp] theorem kept_clearVfs (s : State) (h : ℕ) : kept (clearVfs s h) = kept s := by
  unfold clearVfs
  dsimp only
  rw [kept_State_setHport, kept_foldl _ (fun t f => kept_State_setFn t _ _), kept_foldl _ (fun t f => kept_flrStart t f)]

@[simp] theorem kept_execFlrInitiate (fn : ℕ) (s : State) : outKept (execFlrInitiate fn s) = some (kept s) := by
  fun_cases execFlrInitiate fn s <;> simp +zetaDelta only [kept_next, kept_clearVfs, kept_flrStart, apply_ite kept, ite_self]

@[simp] theorem kept_releaseLocks (s : State) (agent : ℕ) : kept (releaseLocks s agent) = kept s := rfl

@[simp] theorem kept_flrMailboxes (s : State) (f : ℕ) : kept (flrMailboxes s f) = kept s := by
  unfold flrMailboxes
  rw [kept_foldl _ (fun t k => kept_State_setPair t _ _), kept_releaseLocks]

@[simp] theorem kept_flrClusters (s : State) (f : ℕ) : kept (flrClusters s f) = kept s := by
  unfold flrClusters
  rw [kept_foldl]
  intro y0 y1
  dsimp only
  (repeat' split) <;> simp only [kept_reclaimStart, kept_reclaimStop]

@[simp] theorem kept_discardLate (s : State) (f : ℕ) : kept (discardLate s f) = kept s := by
  unfold discardLate
  simp only [kept_State_count, kept_units]

@[simp] theorem kept_sweepFn (s : State) (f : ℕ) : kept (sweepFn s f) = kept s := by
  unfold sweepFn
  extract_lets +onlyGivenNames held s0 v s1 one
  have h1 : kept s1 = kept s := (kept_units ..).trans (kept_State_count ..)
  have ho : ∀ t cls, kept (one t cls) = kept t := fun t cls => by
    refine kept_foldl _ (fun u i => ?_) _ t
    extract_lets sl a b c d
    rw [kept_destroyEnd, kept_discardLate, apply_ite kept, kept_sendClose, ite_self, kept_destroyStop, apply_ite kept, kept_destroyStart, ite_self]
  rw [kept_foldl one ho, kept_ctrlReset, kept_discardLate, h1]

@[simp] theorem kept_execFlrDone (fn : ℕ) (s : State) : outKept (execFlrDone fn s) = some (kept s) := by
  fun_cases execFlrDone fn s <;> simp +zetaDelta only [kept_next, kept_settle, kept_flrMailboxes, kept_flrClusters, kept_sweepFn, kept_State_setFn,
      kept_State_setHport, kept_safSettle, kept_State_count, kept_units, apply_ite kept, ite_self]

@[simp] theorem kept_execBmeClear (fn : ℕ) (s : State) : outKept (execBmeClear fn s) = some (kept s) := by
  fun_cases execBmeClear fn s <;> simp only [kept_next, kept_dmaKill, kept_State_setFn]

@[simp] theorem kept_writeHeld (s : State) (cq : ℕ) : kept (writeHeld s cq) = kept s := by
  unfold writeHeld
  (repeat' split) <;> simp (disch := (intro _ _; simp only [kept_State_hostWrite])) only [kept_State_setComp, kept_foldl]

@[simp] theorem kept_State_msixFlush (s : State) (f : ℕ) : kept (State.msixFlush s f) = kept s := by
  unfold State.msixFlush
  rw [kept_foldl]
  intro y0 y1
  (repeat' split) <;> simp only [kept_State_emit, kept_State_setFn]

@[simp] theorem kept_hostGo (s : State) (f : ℕ) : kept (hostGo s f) = kept s := by
  unfold hostGo
  (repeat' split) <;> simp (disch := (intro _ _; simp only [kept_writeHeld])) only [kept_copyLog, kept_State_msixFlush, kept_safSettle,
      kept_pumpReads, kept_foldl]

@[simp] theorem kept_execBmeSet (fn : ℕ) (s : State) : outKept (execBmeSet fn s) = some (kept s) := by
  fun_cases execBmeSet fn s <;> simp only [kept_next, kept_hostGo, kept_State_setFn]

@[simp] theorem kept_execVfEnableClear (port : ℕ) (s : State) : outKept (execVfEnableClear port s) = some (kept s) := by
  fun_cases execVfEnableClear port s <;> simp only [kept_next, kept_clearVfs]

@[simp] theorem kept_execD3hotEntry (fn : ℕ) (s : State) : outKept (execD3hotEntry fn s) = some (kept s) := by
  fun_cases execD3hotEntry fn s <;> simp only [kept_next, kept_hostStop, kept_State_setFn]

@[simp] theorem kept_execD0Return (fn : ℕ) (s : State) : outKept (execD0Return fn s) = some (kept s) := by
  fun_cases execD0Return fn s <;> simp only [kept_next, kept_hostGo, kept_State_setFn]

@[simp] theorem kept_execMsixMaskChange (fn : ℕ) (vec : Option ℕ) (addr : W64) (data : W32) (mask : Bool) (enable : Bool) (s : State) :
    outKept (execMsixMaskChange fn vec addr data mask enable s) = some (kept s) := by
  fun_cases execMsixMaskChange fn vec addr data mask enable s <;> simp only [kept_next, kept_State_msixFlush, kept_State_setFn]

@[simp] theorem kept_hostPortDown (s : State) (h : ℕ) (perst : Bool) : kept (hostPortDown s h perst) = kept s := by
  fun_cases hostPortDown s h perst <;> simp +zetaDelta only [kept_State_setHport, kept_clearVfs, kept_flrStart]

@[simp] theorem kept_execHostPortReset (port : ℕ) (perst : Bool) (s : State) : outKept (execHostPortReset port perst s) = some (kept s) := by
  fun_cases execHostPortReset port perst s <;> simp only [kept_next, kept_hostPortDown]

@[simp] theorem kept_logAer (s : State) (f : ℕ) (b : BitVec 3) : kept (logAer s f b) = kept s := by
  unfold logAer
  simp only [kept_State_setFn]

@[simp] theorem kept_descCame (s : State) (ring : ℕ) (seq : ℕ) (data : Option (List Byte)) : kept (descCame s ring seq data) = kept s := rfl

@[simp] theorem kept_sqeCame (s : State) (q : ℕ) (seq : ℕ) : kept (sqeCame s q seq) = kept s := by
  fun_cases sqeCame s q seq <;> simp +zetaDelta (disch := assumption) only [kept_dropXfer, kept_State_choose, kept_nvEnd, kept_setNv, kept_of_pair']

@[simp] theorem kept_xferEnded (s : State) (x1 : Xfer) : kept (xferEnded s x1) = kept s := by
  fun_cases xferEnded s x1 <;> simp +zetaDelta only [kept_descCame, kept_safSettle, kept_sqeCame, kept_advanceNv, kept_units]

@[simp] theorem kept_resolvePart (s : State) (f : ℕ) (tag : ℕ) (data : Option (List Byte)) : kept (resolvePart s f tag data) = kept s := by
  fun_cases resolvePart s f tag data <;> simp +zetaDelta only [kept_xferEnded, kept_pumpReads, kept_units]

@[simp] theorem kept_execHostCompletion (fn : ℕ) (tag : ℕ) (kind : CplKind) (data : List Byte) (s : State) :
    outKept (execHostCompletion fn tag kind data s) = some (kept s) := by
  fun_cases execHostCompletion fn tag kind data s <;> simp +zetaDelta only [kept_next, kept_logAer, kept_State_count, kept_resolvePart,
      apply_ite kept, ite_self]

@[simp] theorem kept_execHostCplTimeout (fn : ℕ) (tag : ℕ) (s : State) : outKept (execHostCplTimeout fn tag s) = some (kept s) := by
  fun_cases execHostCplTimeout fn tag s <;> simp +zetaDelta only [kept_next, kept_logAer, kept_State_count, kept_resolvePart, kept_units]

@[simp] theorem kept_execTagQuarantineEnd (fn : ℕ) (tag : ℕ) (s : State) : outKept (execTagQuarantineEnd fn tag s) = some (kept s) := by
  unfold execTagQuarantineEnd
  simp only [kept_next, kept_pumpReads, kept_units]

@[simp] theorem kept_execAtsInvalidate (fn : ℕ) (page : ℕ) (s : State) : outKept (execAtsInvalidate fn page s) = some (kept s) := by
  fun_cases execAtsInvalidate fn page s
  simp +zetaDelta only [kept_next, kept_units, apply_ite kept, ite_self]

@[simp] theorem kept_execFnQuota (pair : MboxId) (blk : CmdBlock) (s : State) : outKept (execFnQuota pair blk s) = some (kept s) := by
  unfold execFnQuota
  rw [outKept_next, kept_fwCommand]
  intro y0 y1 y2
  dsimp only
  (repeat' split) <;> simp only [kept_refuse, kept_accept, kept_State_setFn]

@[simp] theorem kept_execFnShare (pair : MboxId) (blk : CmdBlock) (s : State) : outKept (execFnShare pair blk s) = some (kept s) := by
  unfold execFnShare
  rw [outKept_next, kept_fwCommand]
  intro y0 y1 y2
  dsimp only
  (repeat' split) <;> simp only [kept_refuse, kept_accept, kept_State_setFn]

@[simp] theorem kept_writePair (s : State) (k : MboxId) (o : ℕ) (v : ℕ) : kept (writePair s k o v) = kept s := by
  fun_cases writePair s k o v <;> simp only [kept_State_setPair]

@[simp] theorem kept_writePage (s : State) (f : ℕ) (off : ℕ) (size : ℕ) (v : ℕ) : kept (writePage s f off size v) = kept s := by
  fun_cases writePage s f off size v <;> simp +zetaDelta only [kept_writePair]

@[simp] theorem kept_writeQCfg (s : State) (new : ℕ) : kept (writeQCfg s new) = kept s := by
  fun_cases writeQCfg s new <;> simp +zetaDelta only [kept_tickShapers, kept_State_setQueue, kept_State_setShaper, apply_ite kept, ite_self]

@[simp] theorem kept_writeClass (s : State) (p : ℕ) (k : ℕ) (new : ℕ) : kept (writeClass s p k new) = kept s := by
  fun_cases writeClass s p k new <;> simp only [kept_State_setReg, kept_units]

@[simp] theorem kept_writeRw (s : State) (off lo n v : ℕ) : kept (writeRw s off lo n v) = kept s := by
  unfold writeRw
  split
  · rw [kept_writeQCfg]
  split
  · extract_lets +onlyGivenNames i c word
    clear_value c word
    split
    · rw [kept_units]
    · split
      · rw [kept_units]
      · rfl
  split
  · extract_lets +onlyGivenNames head
    rw [kept_copyLog, kept_units]
  split
  · rw [kept_units]
  split
  · rw [kept_writeClass]
  split
  · rw [apply_ite kept, kept_State_setReg, ite_self]
  extract_lets +onlyGivenNames old new
  split
  · rfl
  · rw [kept_State_setReg]

@[simp] theorem kept_shiftBase (s : State) (key : ℕ) (x2 : ℕ) (m : ℕ) : kept (shiftBase s key x2 m) = kept s := rfl

@[simp] theorem kept_listBase (s : State) (key : ℕ) : kept (listBase s key) = kept s := rfl

@[simp] theorem kept_clearCount (s : State) (off lo n : ℕ) : kept (clearCount s off lo n) = kept s := by
  unfold clearCount
  extract_lets +onlyGivenNames cut
  split
  · rw [apply_ite kept, kept_State_setQueue, kept_State_setQueue, kept_shiftBase, kept_shiftBase, kept_listBase, ite_self]
  split
  · rw [kept_units]
  · extract_lets +onlyGivenNames old
    refine (kept_State_setReg _ _ _).trans ?_
    split
    · split
      · rw [kept_shiftBase, kept_listBase]
      · rfl
    · rfl

@[simp] theorem kept_writeRow (s : State) (off : ℕ) (r : RegRow) (lo : ℕ) (n : ℕ) (v : ℕ) : kept (writeRow s off r lo n v) = kept s := by
  fun_cases writeRow s off r lo n v <;> simp only [kept_writePair, kept_writeRw, kept_clearCount, kept_units]

@[simp] theorem kept_writeRegs (s : State) (off : ℕ) (size : ℕ) (v : ℕ) : kept (writeRegs s off size v) = kept s := by
  unfold writeRegs
  dsimp only
  (repeat' split) <;> simp only [kept_writeRow]

@[simp] theorem kept_writeBar0 (s : State) (f : ℕ) (off : ℕ) (size : ℕ) (v : ℕ) : kept (writeBar0 s f off size v) = kept s := by
  fun_cases writeBar0 s f off size v <;> simp only [kept_State_count, kept_writePage, kept_writeRegs]

@[simp] theorem kept_answerRead (s : State) (f : ℕ) (v : ℕ) : kept (answerRead s f v) = kept s := by
  fun_cases answerRead s f v <;> simp only [kept_State_emit]

@[simp] theorem kept_readBar0 (s : State) (f : ℕ) (off : ℕ) (size : ℕ) : kept (readBar0 s f off size) = kept s := by
  fun_cases readBar0 s f off size <;> simp only [kept_answerRead, kept_State_count]

@[simp] theorem kept_readConfig (s : State) (f : ℕ) (off : ℕ) : kept (readConfig s f off) = kept s := by
  fun_cases readConfig s f off <;> simp only [kept_State_emit]

@[simp] theorem kept_execRegisterWrite (fn : ℕ) (space : RegSpace) (off : ℕ) (size : ℕ) (value : W64) (s : State) :
    outKept (execRegisterWrite fn space off size value s) = some (kept s) := by
  fun_cases execRegisterWrite fn space off size value s <;> simp +zetaDelta only [kept_next, kept_writeBar0, kept_readBar0, kept_answerRead,
      kept_readConfig, kept_State_setFn, kept_State_setHport, apply_ite kept, ite_self]

@[simp] theorem kept_State_setNs (s : State) (n : ℕ) (x2 : Ns) : kept (State.setNs s n x2) = kept s := rfl

@[simp] theorem kept_putSessFlow (s : State) (k : ℕ) (x2 : Sess) (n : Ns) : kept (putSessFlow s k x2 n) = kept s := by
  fun_cases putSessFlow s k x2 n <;> simp only [kept_units]

@[simp] theorem kept_openSess (s : State) (k : ℕ) : kept (openSess s k) = kept s := by
  fun_cases openSess s k <;> simp +zetaDelta (disch := assumption) only [kept_State_choose, kept_State_entropy, kept_putSessFlow, kept_sendSeg,
      kept_State_setSess, kept_of_pair']

@[simp] theorem kept_makeSess (s : State) (n count : ℕ) : kept (makeSess s n count) = kept s := by
  unfold makeSess
  extract_lets +onlyGivenNames ks s1
  have h1 : kept s1 = kept s := kept_foldl _ (fun t p => kept_State_setSess t _ _) _ s
  clear_value ks s1
  split
  · rw [kept_openSess, h1]
  · exact h1

@[simp] theorem kept_execSafNsCreate (pair : MboxId) (blk : CmdBlock) (s : State) : outKept (execSafNsCreate pair blk s) = some (kept s) := by
  unfold execSafNsCreate
  rw [outKept_next, kept_fwCommand]
  intro y0 y1 y2
  dsimp only
  (repeat' split) <;> simp only [kept_refuse, kept_accept, kept_safSettle, kept_State_setNs, kept_makeSess]

@[simp] theorem kept_nsChanged (s : State) (f : ℕ) (n : ℕ) : kept (nsChanged s f n) = kept s := by
  fun_cases nsChanged s f n <;> simp +zetaDelta only [kept_reportEvent, kept_units]

@[simp] theorem kept_attachRow (detach : Bool) (k : MboxId) (blk : CmdBlock) (s : State) : kept (attachRow detach k blk s) = kept s := by
  unfold attachRow
  (repeat' split) <;> simp (disch := (intro _; intros; (repeat' split) <;> simp only [kept_refuse, kept_accept, kept_nsChanged,
      kept_State_setNs])) only [kept_fwCommand]

@[simp] theorem kept_execSafNsAttach (pair : MboxId) (blk : CmdBlock) (s : State) : outKept (execSafNsAttach pair blk s) = some (kept s) := by
  unfold execSafNsAttach
  simp only [kept_next, kept_attachRow]

@[simp] theorem kept_execSafNsDetach (pair : MboxId) (blk : CmdBlock) (s : State) : outKept (execSafNsDetach pair blk s) = some (kept s) := by
  unfold execSafNsDetach
  simp only [kept_next, kept_attachRow]

@[simp] theorem kept_endNsCmds (s : State) (n : ℕ) : kept (endNsCmds s n) = kept s := by
  unfold endNsCmds
  rw [kept_foldl]
  intro y0 y1
  (repeat' split) <;> simp only [kept_nvEnd]

@[simp] theorem kept_dropSessFlow (s : State) (x1 : Sess) (n : Ns) : kept (dropSessFlow s x1 n) = kept s := by
  fun_cases dropSessFlow s x1 n <;> simp only [kept_units]

@[simp] theorem kept_deleteNs (s : State) (n : ℕ) : kept (deleteNs s n) = kept s := by
  unfold deleteNs
  simp (disch := (intro _ _; (repeat' split) <;> simp only [kept_dropSessFlow, kept_sendSeg])) only [kept_units, kept_foldl]

@[simp] theorem kept_finishDelete (s : State) (n : ℕ) : kept (finishDelete s n) = kept s := by
  fun_cases finishDelete s n <;> simp only [kept_finishCmd, kept_deleteNs]

@[simp] theorem kept_execSafNsDelete (pair : MboxId) (blk : CmdBlock) (s : State) : outKept (execSafNsDelete pair blk s) = some (kept s) := by
  unfold execSafNsDelete
  rw [outKept_next, kept_fwCommand]
  intro y0 y1 y2
  dsimp only
  (repeat' split) <;> simp only [kept_refuse, kept_endNsCmds, kept_accept, kept_deleteNs, kept_State_count, kept_finishDelete, kept_State_setNs]

@[simp] theorem kept_execSafCtrlReset (pair : MboxId) (blk : CmdBlock) (s : State) : outKept (execSafCtrlReset pair blk s) = some (kept s) := by
  unfold execSafCtrlReset
  rw [outKept_next, kept_fwCommand]
  intro y0 y1 y2
  dsimp only
  (repeat' split) <;> simp only [kept_refuse, kept_accept, kept_ctrlReset]

end Sys2Proof.Machine
end

section
/-! PROOFS. What a step keeps of the waiting commands and of the fuses, part 9 of 12: the model's functions in the order in which they call each
other, from `execSqFetch` to `execCmplt`. -/

namespace Sys2Proof.Machine

open Sys2Proof

@[simp] theorem kept_execSqFetch (queue : ℕ) (s : State) : outKept (execSqFetch queue s) = some (kept s) := by
  fun_cases execSqFetch queue s <;> simp +zetaDelta (disch := assumption) only [kept_next, kept_hostRead, kept_reserve, kept_State_setSq, kept_units]

@[simp] theorem kept_nvRow (op : ℕ) (io : Bool) (q : ℕ) (cid : ℕ) (s : State) : kept (nvRow op io q cid s) = kept s := by
  fun_cases nvRow op io q cid s <;> simp only [kept_safSettle, kept_advanceNv]

@[simp] theorem kept_execGetLogPage (queue : ℕ) (cid : ℕ) (s : State) : outKept (execGetLogPage queue cid s) = some (kept s) := by
  unfold execGetLogPage
  simp only [kept_next, kept_nvRow]

@[simp] theorem kept_execIdentify (queue : ℕ) (cid : ℕ) (s : State) : outKept (execIdentify queue cid s) = some (kept s) := by
  unfold execIdentify
  simp only [kept_next, kept_nvRow]

@[simp] theorem kept_execAbort (queue : ℕ) (cid : ℕ) (s : State) : outKept (execAbort queue cid s) = some (kept s) := by
  unfold execAbort
  simp only [kept_next, kept_nvRow]

@[simp] theorem kept_execSetFeatures (queue : ℕ) (cid : ℕ) (s : State) : outKept (execSetFeatures queue cid s) = some (kept s) := by
  unfold execSetFeatures
  simp only [kept_next, kept_nvRow]

@[simp] theorem kept_execGetFeatures (queue : ℕ) (cid : ℕ) (s : State) : outKept (execGetFeatures queue cid s) = some (kept s) := by
  unfold execGetFeatures
  simp only [kept_next, kept_nvRow]

@[simp] theorem kept_execAsyncEventRequest (queue : ℕ) (cid : ℕ) (s : State) : outKept (execAsyncEventRequest queue cid s) = some (kept s) := by
  unfold execAsyncEventRequest
  simp only [kept_next, kept_nvRow]

@[simp] theorem kept_execNvmeFlush (queue : ℕ) (cid : ℕ) (s : State) : outKept (execNvmeFlush queue cid s) = some (kept s) := by
  unfold execNvmeFlush
  simp only [kept_next, kept_nvRow]

@[simp] theorem kept_execNvmeWrite (queue : ℕ) (cid : ℕ) (s : State) : outKept (execNvmeWrite queue cid s) = some (kept s) := by
  unfold execNvmeWrite
  simp only [kept_next, kept_nvRow]

@[simp] theorem kept_execNvmeRead (queue : ℕ) (cid : ℕ) (s : State) : outKept (execNvmeRead queue cid s) = some (kept s) := by
  unfold execNvmeRead
  simp only [kept_next, kept_nvRow]

@[simp] theorem kept_execWriteZeroes (queue : ℕ) (cid : ℕ) (s : State) : outKept (execWriteZeroes queue cid s) = some (kept s) := by
  unfold execWriteZeroes
  simp only [kept_next, kept_nvRow]

@[simp] theorem kept_execDatasetManagement (queue : ℕ) (cid : ℕ) (s : State) : outKept (execDatasetManagement queue cid s) = some (kept s) := by
  unfold execDatasetManagement
  simp only [kept_next, kept_nvRow]

@[simp] theorem kept_execWriteBufferAdmit (queue : ℕ) (cid : ℕ) (s : State) : outKept (execWriteBufferAdmit queue cid s) = some (kept s) := by
  fun_cases execWriteBufferAdmit queue cid s <;> simp +zetaDelta only [kept_next, kept_safSettle, kept_advanceNv, apply_ite kept, ite_self]

@[simp] theorem kept_releaseWaits (s : State) (k : ℕ) (ver : ℕ) : kept (releaseWaits s k ver) = kept s := by
  unfold releaseWaits
  simp only [kept_mapNv]

@[simp] theorem kept_destageEnd (s : State) (key : ℕ) (st : Option ℕ) : kept (destageEnd s key st) = kept s := by
  fun_cases destageEnd s key st <;> simp +zetaDelta only [kept_mapNv, kept_State_setPages, kept_State_count, kept_releaseWaits, kept_finishDelete,
      kept_units, apply_ite kept, ite_self]

@[simp] theorem kept_execDestageAck (s : State) : outKept (execDestageAck s) = some (kept s) := by
  fun_cases execDestageAck s <;> simp +zetaDelta only [kept_absorbCarmine, kept_next, kept_safSettle, kept_destageEnd, kept_units]

@[simp] theorem kept_execVaultArmChange (energy : ℕ) (erased : Bool) (flashFault : Bool) (s : State) :
    outKept (execVaultArmChange energy erased flashFault s) = some (kept s) := by
  fun_cases execVaultArmChange energy erased flashFault s
  simp only [kept_next, kept_safSettle, kept_units]

@[simp] theorem kept_savedPage (s : State) (p : BufPage) : kept (savedPage s p).1 = kept s := by
  unfold savedPage
  dsimp only
  simp (disch := (intro _ _; dsimp only; (repeat' split) <;> simp only [kept_units])) only [kept_lakeRead, kept_foldl_fst]

@[simp] theorem kept_writeImage (s : State) : kept (writeImage s) = kept s := by
  unfold writeImage
  simp (disch := (intro _ _; simp only [kept_savedPage])) only [kept_State_count, kept_units, kept_foldl_fst]

@[simp] theorem kept_railsOff (s : State) : kept (railsOff s) = kept s := by
  unfold railsOff
  simp only [kept_keptState, kept_units]

@[simp] theorem kept_flushJournal (s : State) : kept (flushJournal s) = kept s := by
  fun_cases flushJournal s <;> simp only [kept_units]

@[simp] theorem kept_execVaultSaveDone (s : State) : outKept (execVaultSaveDone s) = some (kept s) := by
  fun_cases execVaultSaveDone s <;> simp +zetaDelta only [kept_next, kept_writeImage, kept_railsOff, kept_flushJournal, kept_warmClear,
      apply_ite kept, ite_self]

@[simp] theorem kept_execNsReadyTimeout (ns : ℕ) (s : State) : outKept (execNsReadyTimeout ns s) = some (kept s) := by
  unfold execNsReadyTimeout
  (repeat' split) <;> simp (disch := (intro _ _; (repeat' split) <;> simp only [kept_nvEnd, kept_advanceNv])) only [kept_State_setNs, kept_safSettle,
      outKept_next, kept_foldl]

@[simp] theorem kept_execSessionReconnectTimer (session : ℕ) (s : State) : outKept (execSessionReconnectTimer session s) = some (kept s) := by
  fun_cases execSessionReconnectTimer session s <;> simp only [kept_next, kept_openSess]

@[simp] theorem kept_downSess (s : State) (k : ℕ) : kept (downSess s k) = kept s := by
  unfold downSess
  (repeat' split) <;> simp (disch := (intro _ _; simp only [kept_backEnd])) only [kept_dropSessFlow, kept_State_setSess, kept_State_count, kept_foldl]

@[simp] theorem kept_failSess (s : State) (k : ℕ) : kept (failSess s k) = kept s := by
  unfold failSess
  (repeat' split) <;> simp (disch := (intro _ _; simp only [kept_downSess])) only [kept_downSess, kept_foldl]

@[simp] theorem kept_sendAckSeg (s : State) (k : ℕ) : kept (sendAckSeg s k) = kept s := by
  fun_cases sendAckSeg s k <;> simp only [kept_sendSeg]

@[simp] theorem kept_tcpIn (s : State) (k : ℕ) (bs : List Byte) : kept (tcpIn s k bs) = kept s := by
  fun_cases tcpIn s k bs <;> simp +zetaDelta only [kept_sendSeg, kept_failSess, kept_sendBytes, kept_State_setSess, kept_sendAckSeg, kept_pushAll,
      apply_ite kept, ite_self]

@[simp] theorem kept_nextSeg (s : State) (k : ℕ) : kept (nextSeg s k) = kept s := by
  fun_cases nextSeg s k <;> simp only [kept_tcpIn, kept_units]

@[simp] theorem kept_checkFin (s : State) (k : ℕ) : kept (checkFin s k) = kept s := by
  fun_cases checkFin s k <;> simp only [kept_failSess]

@[simp] theorem kept_termSess (s : State) (k : ℕ) (fes : ℕ) (pdu : List Byte) : kept (termSess s k fes pdu) = kept s := by
  fun_cases termSess s k fes pdu <;> simp only [kept_failSess, kept_sendBytes]

@[simp] theorem kept_pduRow (ty : ℕ) (act : State → Sess → List Byte → State) (hact : ∀ y0 y1 y2, kept (act y0 y1 y2) = kept y0) (k : ℕ) (s : State) :
    kept (pduRow ty act k s) = kept s := by
  fun_cases pduRow ty act k s <;> simp +zetaDelta only [kept_nextSeg, kept_checkFin, kept_State_setSess, kept_safSettle, kept_termSess, hact,
      apply_ite kept, ite_self]

@[simp] theorem kept_sendSetup (s : State) (k : ℕ) (why : BackWhy) (sqe : ℕ → List Byte) (data : List Byte) (len : ℕ) :
    kept (sendSetup s k why sqe data len) = kept s := by
  fun_cases sendSetup s k why sqe data len <;> simp (disch := assumption) only [kept_newBack, kept_sendCapsule, kept_of_pair']

@[simp] theorem kept_sendConnect (s : State) (k : ℕ) : kept (sendConnect s k) = kept s := by
  fun_cases sendConnect s k <;> simp only [kept_sendSetup]

@[simp] theorem kept_execIcResp (session : ℕ) (s : State) : outKept (execIcResp session s) = some (kept s) := by
  unfold execIcResp
  rw [outKept_next, kept_pduRow]
  intro y0 y1 y2
  (repeat' split) <;> simp only [kept_termSess, kept_failSess, kept_sendConnect, kept_State_setSess]

@[simp] theorem kept_sendEnable (s : State) (k : ℕ) : kept (sendEnable s k) = kept s := by
  unfold sendEnable
  simp only [kept_sendSetup]

@[simp] theorem kept_sessUp (s : State) (k : ℕ) : kept (sessUp s k) = kept s := by
  unfold sessUp
  (repeat' split) <;> simp (disch := (intro _ _; (repeat' split) <;> simp only [kept_openSess])) only [kept_State_setSess, kept_foldl]

@[simp] theorem kept_sendPoll (s : State) (k : ℕ) : kept (sendPoll s k) = kept s := by
  unfold sendPoll
  simp only [kept_sendSetup]

@[simp] theorem kept_sendIdentify (s : State) (k : ℕ) : kept (sendIdentify s k) = kept s := by
  unfold sendIdentify
  simp only [kept_sendSetup]

@[simp] theorem kept_setupDone (s : State) (k : ℕ) (x2 : Sess) (why : BackWhy) (st : ℕ) (cqe : List Byte) (b : Back) :
    kept (setupDone s k x2 why st cqe b) = kept s := by
  fun_cases setupDone s k x2 why st cqe b <;> simp only [kept_failSess, kept_sendEnable, kept_State_setSess, kept_sessUp, kept_sendPoll,
      kept_sendIdentify]

@[simp] theorem kept_respCame (s : State) (k : ℕ) (x2 : Sess) (cid : ℕ) (st : ℕ) (cqe : List Byte) : kept (respCame s k x2 cid st cqe) = kept s := by
  fun_cases respCame s k x2 cid st cqe <;> simp only [kept_setupDone, kept_backEnd]

@[simp] theorem kept_execCapsuleResp (session : ℕ) (s : State) : outKept (execCapsuleResp session s) = some (kept s) := by
  unfold execCapsuleResp
  rw [outKept_next, kept_pduRow]
  intro y0 y1 y2
  simp only [kept_respCame]

@[simp] theorem kept_execC2hData (session : ℕ) (s : State) : outKept (execC2hData session s) = some (kept s) := by
  unfold execC2hData
  rw [outKept_next, kept_pduRow]
  intro y0 y1 y2
  dsimp only
  (repeat' split) <;> simp only [kept_termSess, kept_failSess, kept_backEnd, kept_respCame, kept_units]

@[simp] theorem kept_execReadyToTransfer (session : ℕ) (s : State) : outKept (execReadyToTransfer session s) = some (kept s) := by
  unfold execReadyToTransfer
  dsimp only
  (repeat' split) <;> simp (disch := (intro _; intros; (repeat' split) <;> simp only [kept_termSess, kept_destageBytes,
      kept_sendBytes])) only [kept_nextSeg, kept_pduRow, outKept_next]

@[simp] theorem kept_execC2hTermReq (session : ℕ) (s : State) : outKept (execC2hTermReq session s) = some (kept s) := by
  unfold execC2hTermReq
  rw [outKept_next, kept_pduRow]
  intro y0 y1 y2
  simp only [kept_failSess]

@[simp] theorem kept_coreTarget (s : State) (i : ℕ) (ga : ℕ) (len : ℕ) : kept (coreTarget s i ga len).1 = kept s := by
  fun_cases coreTarget s i ga len <;> simp (disch := assumption) only [kept_checkGlobal, kept_of_pair]

@[simp] theorem kept_scrRead (s : State) (c : ℕ) (off : ℕ) (n : ℕ) : kept (scrRead s c off n).1 = kept s := by
  fun_cases scrRead s c off n
  simp (disch := assumption) only [kept_scrResolve, kept_of_pair]

@[simp] theorem kept_iInsert (s : State) (i : ℕ) (l : ILine) : kept (iInsert s i l) = kept s := by
  fun_cases iInsert s i l <;> simp (disch := assumption) only [kept_State_setCore, kept_State_choose, kept_of_pair']

@[simp] theorem kept_coreWaits (s : State) (i : ℕ) (ga : ℕ) (a : ℕ) (len : ℕ) : kept (coreWaits s i ga a len).state = kept s := by
  fun_cases coreWaits s i ga a len <;> simp (disch := assumption) only [kept_waitNear, memState_xcpt, memState_wait, kept_of_pair]

@[simp] theorem kept_coreFetch (s : State) (i : ℕ) : kept (coreFetch s i).state = kept s := by
  fun_cases coreFetch s i <;> simp (disch := assumption) only [kept_coreTarget, kept_scrRead, kept_iInsert, kept_coreWaits, kept_lakeRead,
      memState_ok, memState_xcpt, kept_of_pair]

@[simp] theorem kept_takeXcpt (s : State) (i : ℕ) (cause : ℕ) (addr : ℕ) (word : W32) : kept (takeXcpt s i cause addr word) = kept s := by
  fun_cases takeXcpt s i cause addr word
  simp +zetaDelta only [kept_State_setCore, kept_endCore]

@[simp] theorem kept_execIllegalInstruction (core : ℕ) (s : State) : outKept (execIllegalInstruction core s) = some (kept s) := by
  fun_cases execIllegalInstruction core s <;> simp (disch := assumption) only [kept_next, kept_coreFetch, kept_takeXcpt, kept_of_ok, kept_of_xcpt,
      kept_of_wait]

@[simp] theorem kept_setEvt (s : State) (i : ℕ) (bits : ℕ) : kept (setEvt s i bits) = kept s := by
  unfold setEvt
  simp only [kept_State_setCore]

@[simp] theorem kept_execTimedWaitDeadline (core : ℕ) (s : State) : outKept (execTimedWaitDeadline core s) = some (kept s) := by
  fun_cases execTimedWaitDeadline core s <;> simp only [kept_next, kept_setEvt, kept_State_setCore]

@[simp] theorem kept_retire (s : State) (i : ℕ) (pc : W64) : kept (retire s i pc) = kept s := by
  unfold retire
  simp only [kept_State_count, kept_dropGot, kept_State_setCore]

@[simp] theorem kept_runExec (i : ℕ) (w : W32) (a : Exec) : kept (runExec i w a) = kept a.state := by
  fun_cases runExec i w a <;> simp only [kept_retire, kept_takeXcpt, kept_State_count, state_done, state_jump, state_xcpt, state_wait, state_stop]

@[simp] theorem kept_isa (m : Mn) (i : ℕ) (f : W32 → State → Exec) (hf : ∀ y0 y1, kept (f y0 y1).state = kept y1) (s : State) :
    kept (isa m i f s) = kept s := by
  fun_cases isa m i f s <;> simp (disch := assumption) only [kept_coreFetch, kept_runExec, hf, state_done, kept_of_ok, kept_of_wait]

@[simp] theorem kept_isaG (m : Mn) (i : ℕ) (f : W32 → Core → W64) (s : State) : kept (isaG m i f s) = kept s := by
  unfold isaG
  rw [kept_isa]
  intro y0 y1
  simp only [kept_State_setCore, state_done]

@[simp] theorem kept_isaAlu (m : Mn) (i : ℕ) (f : W64 → W64 → W64) (s : State) : kept (isaAlu m i f s) = kept s := by
  unfold isaAlu
  simp only [kept_isaG]

@[simp] theorem kept_execAdd (core : ℕ) (s : State) : outKept (execAdd core s) = some (kept s) := by
  unfold execAdd
  simp only [kept_next, kept_isaAlu]

@[simp] theorem kept_execSub (core : ℕ) (s : State) : outKept (execSub core s) = some (kept s) := by
  unfold execSub
  simp only [kept_next, kept_isaAlu]

@[simp] theorem kept_execAnd (core : ℕ) (s : State) : outKept (execAnd core s) = some (kept s) := by
  unfold execAnd
  simp only [kept_next, kept_isaAlu]

@[simp] theorem kept_execOr (core : ℕ) (s : State) : outKept (execOr core s) = some (kept s) := by
  unfold execOr
  simp only [kept_next, kept_isaAlu]

@[simp] theorem kept_execXor (core : ℕ) (s : State) : outKept (execXor core s) = some (kept s) := by
  unfold execXor
  simp only [kept_next, kept_isaAlu]

@[simp] theorem kept_execShl (core : ℕ) (s : State) : outKept (execShl core s) = some (kept s) := by
  unfold execShl
  simp only [kept_next, kept_isaAlu]

@[simp] theorem kept_execShr (core : ℕ) (s : State) : outKept (execShr core s) = some (kept s) := by
  unfold execShr
  simp only [kept_next, kept_isaAlu]

@[simp] theorem kept_execSra (core : ℕ) (s : State) : outKept (execSra core s) = some (kept s) := by
  unfold execSra
  simp only [kept_next, kept_isaAlu]

@[simp] theorem kept_execMul (core : ℕ) (s : State) : outKept (execMul core s) = some (kept s) := by
  unfold execMul
  simp only [kept_next, kept_isaAlu]

@[simp] theorem kept_execMulh (core : ℕ) (s : State) : outKept (execMulh core s) = some (kept s) := by
  unfold execMulh
  simp only [kept_next, kept_isaAlu]

@[simp] theorem kept_execMulhu (core : ℕ) (s : State) : outKept (execMulhu core s) = some (kept s) := by
  unfold execMulhu
  simp only [kept_next, kept_isaAlu]

@[simp] theorem kept_execDiv (core : ℕ) (s : State) : outKept (execDiv core s) = some (kept s) := by
  unfold execDiv
  simp only [kept_next, kept_isaAlu]

@[simp] theorem kept_execDivu (core : ℕ) (s : State) : outKept (execDivu core s) = some (kept s) := by
  unfold execDivu
  simp only [kept_next, kept_isaAlu]

@[simp] theorem kept_execRem (core : ℕ) (s : State) : outKept (execRem core s) = some (kept s) := by
  unfold execRem
  simp only [kept_next, kept_isaAlu]

@[simp] theorem kept_execRemu (core : ℕ) (s : State) : outKept (execRemu core s) = some (kept s) := by
  unfold execRemu
  simp only [kept_next, kept_isaAlu]

@[simp] theorem kept_execMin (core : ℕ) (s : State) : outKept (execMin core s) = some (kept s) := by
  fun_cases execMin core s
  simp only [kept_next, kept_isaAlu]

@[simp] theorem kept_execMax (core : ℕ) (s : State) : outKept (execMax core s) = some (kept s) := by
  fun_cases execMax core s
  simp only [kept_next, kept_isaAlu]

@[simp] theorem kept_execMinu (core : ℕ) (s : State) : outKept (execMinu core s) = some (kept s) := by
  fun_cases execMinu core s
  simp only [kept_next, kept_isaAlu]

@[simp] theorem kept_execMaxu (core : ℕ) (s : State) : outKept (execMaxu core s) = some (kept s) := by
  fun_cases execMaxu core s
  simp only [kept_next, kept_isaAlu]

@[simp] theorem kept_execClz (core : ℕ) (s : State) : outKept (execClz core s) = some (kept s) := by
  unfold execClz
  simp only [kept_next, kept_isaAlu]

@[simp] theorem kept_execPopc (core : ℕ) (s : State) : outKept (execPopc core s) = some (kept s) := by
  unfold execPopc
  simp only [kept_next, kept_isaAlu]

@[simp] theorem kept_execRdp (core : ℕ) (s : State) : outKept (execRdp core s) = some (kept s) := by
  unfold execRdp
  simp only [kept_next, kept_isaG]

@[simp] theorem kept_isaImm (m : Mn) (i : ℕ) (f : W64 → W64 → W64) (s : State) : kept (isaImm m i f s) = kept s := by
  unfold isaImm
  simp only [kept_isaG]

@[simp] theorem kept_execAddi (core : ℕ) (s : State) : outKept (execAddi core s) = some (kept s) := by
  unfold execAddi
  simp only [kept_next, kept_isaImm]

@[simp] theorem kept_execAndi (core : ℕ) (s : State) : outKept (execAndi core s) = some (kept s) := by
  unfold execAndi
  simp only [kept_next, kept_isaImm]

@[simp] theorem kept_execOri (core : ℕ) (s : State) : outKept (execOri core s) = some (kept s) := by
  unfold execOri
  simp only [kept_next, kept_isaImm]

@[simp] theorem kept_execXori (core : ℕ) (s : State) : outKept (execXori core s) = some (kept s) := by
  unfold execXori
  simp only [kept_next, kept_isaImm]

@[simp] theorem kept_execShli (core : ℕ) (s : State) : outKept (execShli core s) = some (kept s) := by
  unfold execShli
  simp only [kept_next, kept_isaImm]

@[simp] theorem kept_execShri (core : ℕ) (s : State) : outKept (execShri core s) = some (kept s) := by
  unfold execShri
  simp only [kept_next, kept_isaImm]

@[simp] theorem kept_execSrai (core : ℕ) (s : State) : outKept (execSrai core s) = some (kept s) := by
  unfold execSrai
  simp only [kept_next, kept_isaImm]

@[simp] theorem kept_execMovz (core : ℕ) (s : State) : outKept (execMovz core s) = some (kept s) := by
  unfold execMovz
  simp only [kept_next, kept_isaG]

@[simp] theorem kept_execMovk0 (core : ℕ) (s : State) : outKept (execMovk0 core s) = some (kept s) := by
  unfold execMovk0
  simp only [kept_next, kept_isaG]

@[simp] theorem kept_execMovk1 (core : ℕ) (s : State) : outKept (execMovk1 core s) = some (kept s) := by
  unfold execMovk1
  simp only [kept_next, kept_isaG]

@[simp] theorem kept_execMovk2 (core : ℕ) (s : State) : outKept (execMovk2 core s) = some (kept s) := by
  unfold execMovk2
  simp only [kept_next, kept_isaG]

@[simp] theorem kept_execMovk3 (core : ℕ) (s : State) : outKept (execMovk3 core s) = some (kept s) := by
  unfold execMovk3
  simp only [kept_next, kept_isaG]

@[simp] theorem kept_isaP (m : Mn) (i : ℕ) (f : W32 → Core → Bool) (s : State) : kept (isaP m i f s) = kept s := by
  unfold isaP
  rw [kept_isa]
  intro y0 y1
  simp only [kept_State_setCore, state_done]

@[simp] theorem kept_isaCmp (m : Mn) (i : ℕ) (f : W64 → W64 → Bool) (s : State) : kept (isaCmp m i f s) = kept s := by
  unfold isaCmp
  simp only [kept_isaP]

@[simp] theorem kept_execCmpeq (core : ℕ) (s : State) : outKept (execCmpeq core s) = some (kept s) := by
  unfold execCmpeq
  simp only [kept_next, kept_isaCmp]

@[simp] theorem kept_execCmpne (core : ℕ) (s : State) : outKept (execCmpne core s) = some (kept s) := by
  unfold execCmpne
  simp only [kept_next, kept_isaCmp]

@[simp] theorem kept_execCmplt (core : ℕ) (s : State) : outKept (execCmplt core s) = some (kept s) := by
  unfold execCmplt
  simp only [kept_next, kept_isaCmp]

end Sys2Proof.Machine
end

section
/-! PROOFS. What a step keeps of the waiting commands and of the fuses, part 10 of 12: the model's functions in the order in which they call each
other, from `execCmpge` to `execKmac`. -/

namespace Sys2Proof.Machine

open Sys2Proof

@[simp] theorem kept_execCmpge (core : ℕ) (s : State) : outKept (execCmpge core s) = some (kept s) := by
  unfold execCmpge
  simp only [kept_next, kept_isaCmp]

@[simp] theorem kept_execCmpltu (core : ℕ) (s : State) : outKept (execCmpltu core s) = some (kept s) := by
  unfold execCmpltu
  simp only [kept_next, kept_isaCmp]

@[simp] theorem kept_execCmpgeu (core : ℕ) (s : State) : outKept (execCmpgeu core s) = some (kept s) := by
  unfold execCmpgeu
  simp only [kept_next, kept_isaCmp]

@[simp] theorem kept_execCmpeqi (core : ℕ) (s : State) : outKept (execCmpeqi core s) = some (kept s) := by
  unfold execCmpeqi
  simp only [kept_next, kept_isaP]

@[simp] theorem kept_execCmplti (core : ℕ) (s : State) : outKept (execCmplti core s) = some (kept s) := by
  unfold execCmplti
  simp only [kept_next, kept_isaP]

@[simp] theorem kept_execPand (core : ℕ) (s : State) : outKept (execPand core s) = some (kept s) := by
  unfold execPand
  simp only [kept_next, kept_isaP]

@[simp] theorem kept_execPor (core : ℕ) (s : State) : outKept (execPor core s) = some (kept s) := by
  unfold execPor
  simp only [kept_next, kept_isaP]

@[simp] theorem kept_execPxor (core : ℕ) (s : State) : outKept (execPxor core s) = some (kept s) := by
  unfold execPxor
  simp only [kept_next, kept_isaP]

@[simp] theorem kept_execPandn (core : ℕ) (s : State) : outKept (execPandn core s) = some (kept s) := by
  unfold execPandn
  simp only [kept_next, kept_isaP]

@[simp] theorem kept_isaFp (m : Mn) (i : ℕ) (f : FFmt → ℕ → ℕ → ℕ) (s : State) : kept (isaFp m i f s) = kept s := by
  unfold isaFp
  simp only [kept_isaG]

@[simp] theorem kept_execFadd (core : ℕ) (s : State) : outKept (execFadd core s) = some (kept s) := by
  unfold execFadd
  simp only [kept_next, kept_isaFp]

@[simp] theorem kept_execFsub (core : ℕ) (s : State) : outKept (execFsub core s) = some (kept s) := by
  unfold execFsub
  simp only [kept_next, kept_isaFp]

@[simp] theorem kept_execFmul (core : ℕ) (s : State) : outKept (execFmul core s) = some (kept s) := by
  unfold execFmul
  simp only [kept_next, kept_isaFp]

@[simp] theorem kept_execFdiv (core : ℕ) (s : State) : outKept (execFdiv core s) = some (kept s) := by
  unfold execFdiv
  simp only [kept_next, kept_isaFp]

@[simp] theorem kept_execFsqrt (core : ℕ) (s : State) : outKept (execFsqrt core s) = some (kept s) := by
  unfold execFsqrt
  simp only [kept_next, kept_isaFp]

@[simp] theorem kept_execFmin (core : ℕ) (s : State) : outKept (execFmin core s) = some (kept s) := by
  unfold execFmin
  simp only [kept_next, kept_isaFp]

@[simp] theorem kept_execFmax (core : ℕ) (s : State) : outKept (execFmax core s) = some (kept s) := by
  unfold execFmax
  simp only [kept_next, kept_isaFp]

@[simp] theorem kept_execFma (core : ℕ) (s : State) : outKept (execFma core s) = some (kept s) := by
  unfold execFma
  simp only [kept_next, kept_isaG]

@[simp] theorem kept_execFcvt (core : ℕ) (s : State) : outKept (execFcvt core s) = some (kept s) := by
  unfold execFcvt
  simp only [kept_next, kept_isaG]

@[simp] theorem kept_execFcvti (core : ℕ) (s : State) : outKept (execFcvti core s) = some (kept s) := by
  unfold execFcvti
  simp only [kept_next, kept_isaG]

@[simp] theorem kept_execIcvtf (core : ℕ) (s : State) : outKept (execIcvtf core s) = some (kept s) := by
  unfold execIcvtf
  simp only [kept_next, kept_isaG]

@[simp] theorem kept_isaFcmp (m : Mn) (i : ℕ) (f : FFmt → ℕ → ℕ → Bool) (s : State) : kept (isaFcmp m i f s) = kept s := by
  unfold isaFcmp
  simp only [kept_isaP]

@[simp] theorem kept_execFeq (core : ℕ) (s : State) : outKept (execFeq core s) = some (kept s) := by
  unfold execFeq
  simp only [kept_next, kept_isaFcmp]

@[simp] theorem kept_execFlt (core : ℕ) (s : State) : outKept (execFlt core s) = some (kept s) := by
  unfold execFlt
  simp only [kept_next, kept_isaFcmp]

@[simp] theorem kept_execFle (core : ℕ) (s : State) : outKept (execFle core s) = some (kept s) := by
  unfold execFle
  simp only [kept_next, kept_isaFcmp]

@[simp] theorem kept_dInsert (s : State) (i : ℕ) (l : DLine) : kept (dInsert s i l) = kept s := by
  fun_cases dInsert s i l <;> simp +zetaDelta (disch := assumption) only [kept_State_setCore, kept_State_choose, kept_writeBackLine, kept_of_pair']

@[simp] theorem kept_dFill (s : State) (i : ℕ) (la : ℕ) : kept (dFill s i la).1 = kept s := by
  fun_cases dFill s i la <;> simp (disch := assumption) only [kept_lakeRead, kept_dInsert, kept_of_pair]

@[simp] theorem kept_dFillAll (i : ℕ) (a : ℕ) (x2 : ℕ) (x3 : State) : kept (dFillAll i a x2 x3).1 = kept x3 := by
  induction a generalizing i x2 x3 with
  | zero => simp only [dFillAll]
  | succ n ih =>
    unfold dFillAll
    (repeat' split) <;> simp (disch := assumption) only [kept_dFill, kept_of_pair, ih]

@[simp] theorem kept_coreLoad (s : State) (i : ℕ) (ga : ℕ) (len : ℕ) : kept (coreLoad s i ga len).state = kept s := by
  fun_cases coreLoad s i ga len <;> simp (disch := assumption) only [kept_coreTarget, kept_scrRead, kept_coreWaits, kept_dFillAll, kept_windowRead,
      memState_ok, memState_xcpt, memState_wait, kept_of_pair]

@[simp] theorem kept_isaLoad (m : Mn) (i : ℕ) (size : ℕ) (f : W32 → Core → List Byte → Core) (s : State) : kept (isaLoad m i size f s) = kept s := by
  unfold isaLoad
  rw [kept_isa]
  intro y0 y1
  (repeat' split) <;> simp (disch := assumption) only [kept_coreLoad, kept_State_setCore, state_done, state_xcpt, state_wait, kept_of_ok,
      kept_of_xcpt, kept_of_wait]

@[simp] theorem kept_isaLd (m : Mn) (i : ℕ) (size : ℕ) (signed : Bool) (s : State) : kept (isaLd m i size signed s) = kept s := by
  fun_cases isaLd m i size signed s
  simp only [kept_isaLoad]

@[simp] theorem kept_execLd8u (core : ℕ) (s : State) : outKept (execLd8u core s) = some (kept s) := by
  unfold execLd8u
  simp only [kept_next, kept_isaLd]

@[simp] theorem kept_execLd16u (core : ℕ) (s : State) : outKept (execLd16u core s) = some (kept s) := by
  unfold execLd16u
  simp only [kept_next, kept_isaLd]

@[simp] theorem kept_execLd32u (core : ℕ) (s : State) : outKept (execLd32u core s) = some (kept s) := by
  unfold execLd32u
  simp only [kept_next, kept_isaLd]

@[simp] theorem kept_execLd64 (core : ℕ) (s : State) : outKept (execLd64 core s) = some (kept s) := by
  unfold execLd64
  simp only [kept_next, kept_isaLd]

@[simp] theorem kept_execLd8s (core : ℕ) (s : State) : outKept (execLd8s core s) = some (kept s) := by
  unfold execLd8s
  simp only [kept_next, kept_isaLd]

@[simp] theorem kept_execLd16s (core : ℕ) (s : State) : outKept (execLd16s core s) = some (kept s) := by
  unfold execLd16s
  simp only [kept_next, kept_isaLd]

@[simp] theorem kept_execLd32s (core : ℕ) (s : State) : outKept (execLd32s core s) = some (kept s) := by
  unfold execLd32s
  simp only [kept_next, kept_isaLd]

@[simp] theorem kept_coreStore (s : State) (i : ℕ) (ga : ℕ) (bs : List Byte) : kept (coreStore s i ga bs).state = kept s := by
  fun_cases coreStore s i ga bs <;> simp +zetaDelta (disch := assumption) only [kept_coreTarget, kept_scrWrite, kept_coreWaits, kept_dFillAll,
      kept_State_setCore, kept_State_count, kept_windowWrite, memState_ok, memState_xcpt, memState_wait, kept_of_pair, apply_ite kept, ite_self]

@[simp] theorem kept_isaStore (m : Mn) (i : ℕ) (size : ℕ) (f : W32 → Core → List Byte) (s : State) : kept (isaStore m i size f s) = kept s := by
  unfold isaStore
  rw [kept_isa]
  intro y0 y1
  (repeat' split) <;> simp (disch := assumption) only [kept_coreStore, state_done, state_xcpt, state_wait, kept_of_ok, kept_of_xcpt, kept_of_wait]

@[simp] theorem kept_isaSt (m : Mn) (i : ℕ) (size : ℕ) (s : State) : kept (isaSt m i size s) = kept s := by
  unfold isaSt
  simp only [kept_isaStore]

@[simp] theorem kept_execSt8 (core : ℕ) (s : State) : outKept (execSt8 core s) = some (kept s) := by
  unfold execSt8
  simp only [kept_next, kept_isaSt]

@[simp] theorem kept_execSt16 (core : ℕ) (s : State) : outKept (execSt16 core s) = some (kept s) := by
  unfold execSt16
  simp only [kept_next, kept_isaSt]

@[simp] theorem kept_execSt32 (core : ℕ) (s : State) : outKept (execSt32 core s) = some (kept s) := by
  unfold execSt32
  simp only [kept_next, kept_isaSt]

@[simp] theorem kept_execSt64 (core : ℕ) (s : State) : outKept (execSt64 core s) = some (kept s) := by
  unfold execSt64
  simp only [kept_next, kept_isaSt]

@[simp] theorem kept_execVld (core : ℕ) (s : State) : outKept (execVld core s) = some (kept s) := by
  unfold execVld
  simp only [kept_next, kept_isaLoad]

@[simp] theorem kept_execVst (core : ℕ) (s : State) : outKept (execVst core s) = some (kept s) := by
  unfold execVst
  simp only [kept_next, kept_isaStore]

@[simp] theorem kept_coreAtomic (s : State) (i ga : ℕ) (f : W64 → Option W64) : kept (coreAtomic s i ga f).state = kept s := by
  unfold coreAtomic
  split
  · rfl
  have ht := kept_coreTarget s i ga 8
  split
  next h => rw [memState_xcpt, ← ht, h]
  next h => rw [memState_xcpt, ← ht, h]
  next s1 c off h =>
    have h1 : kept s1 = kept s := by rw [← ht, h]
    split
    next s2 bs bad hr =>
    have h2 : kept s2 = kept s := by rw [← h1, ← kept_scrRead s1 c off 8, hr]
    (repeat' split) <;> simp only [memState_wait, memState_xcpt, memState_ok, kept_scrWrite, h1, h2]
  next s1 a h =>
    have h1 : kept s1 = kept s := by rw [← ht, h]
    split
    · rw [kept_coreWaits, h1]
    extract_lets +onlyGivenNames la s2 w s3
    have h2 : kept s2 = kept s := by
      simp only [s2]
      split
      · rw [kept_writeBackLine, h1]
      · exact h1
    have h3 : kept s3 = kept s := by rw [kept_State_setCore, h2]
    have hl := kept_lakeAtomic s3 a f
    clear_value s3
    split
    next hk => rw [memState_xcpt, ← h3, ← hl, hk]
    next hk => rw [memState_ok, ← h3, ← hl, hk]

@[simp] theorem kept_isaAmo (m : Mn) (i : ℕ) (f : W32 → Core → W64 → Option W64) (s : State) : kept (isaAmo m i f s) = kept s := by
  unfold isaAmo
  rw [kept_isa]
  intro y0 y1
  (repeat' split) <;> simp (disch := assumption) only [kept_coreAtomic, kept_State_setCore, state_done, state_xcpt, state_wait, kept_of_ok,
      kept_of_xcpt, kept_of_wait]

@[simp] theorem kept_execAmoadd (core : ℕ) (s : State) : outKept (execAmoadd core s) = some (kept s) := by
  unfold execAmoadd
  simp only [kept_next, kept_isaAmo]

@[simp] theorem kept_execAmocas (core : ℕ) (s : State) : outKept (execAmocas core s) = some (kept s) := by
  fun_cases execAmocas core s
  simp only [kept_next, kept_isaAmo]

@[simp] theorem kept_execAmoswp (core : ℕ) (s : State) : outKept (execAmoswp core s) = some (kept s) := by
  unfold execAmoswp
  simp only [kept_next, kept_isaAmo]

@[simp] theorem kept_execBr (core : ℕ) (s : State) : outKept (execBr core s) = some (kept s) := by
  unfold execBr
  rw [outKept_next, kept_isa]
  intro y0 y1
  simp only [state_jump]

@[simp] theorem kept_execBl (core : ℕ) (s : State) : outKept (execBl core s) = some (kept s) := by
  unfold execBl
  rw [outKept_next, kept_isa]
  intro y0 y1
  simp only [kept_State_setCore, state_jump]

@[simp] theorem kept_execJr (core : ℕ) (s : State) : outKept (execJr core s) = some (kept s) := by
  unfold execJr
  rw [outKept_next, kept_isa]
  intro y0 y1
  dsimp only
  (repeat' split) <;> simp only [state_jump, state_xcpt]

@[simp] theorem kept_execJrl (core : ℕ) (s : State) : outKept (execJrl core s) = some (kept s) := by
  unfold execJrl
  rw [outKept_next, kept_isa]
  intro y0 y1
  dsimp only
  (repeat' split) <;> simp only [kept_State_setCore, state_jump, state_xcpt]

@[simp] theorem kept_isaV (m : Mn) (i : ℕ) (f : W32 → Core → BitVec 256) (s : State) : kept (isaV m i f s) = kept s := by
  unfold isaV
  rw [kept_isa]
  intro y0 y1
  simp only [kept_State_setCore, state_done]

@[simp] theorem kept_isaLanes (m : Mn) (i : ℕ) (f : ℕ → ℕ → ℕ → ℕ) (s : State) : kept (isaLanes m i f s) = kept s := by
  unfold isaLanes
  simp only [kept_isaV]

@[simp] theorem kept_execVadd (core : ℕ) (s : State) : outKept (execVadd core s) = some (kept s) := by
  unfold execVadd
  simp only [kept_next, kept_isaLanes]

@[simp] theorem kept_execVsub (core : ℕ) (s : State) : outKept (execVsub core s) = some (kept s) := by
  unfold execVsub
  simp only [kept_next, kept_isaLanes]

@[simp] theorem kept_execVmul (core : ℕ) (s : State) : outKept (execVmul core s) = some (kept s) := by
  unfold execVmul
  simp only [kept_next, kept_isaLanes]

@[simp] theorem kept_execVand (core : ℕ) (s : State) : outKept (execVand core s) = some (kept s) := by
  unfold execVand
  simp only [kept_next, kept_isaLanes]

@[simp] theorem kept_execVor (core : ℕ) (s : State) : outKept (execVor core s) = some (kept s) := by
  unfold execVor
  simp only [kept_next, kept_isaLanes]

@[simp] theorem kept_execVxor (core : ℕ) (s : State) : outKept (execVxor core s) = some (kept s) := by
  unfold execVxor
  simp only [kept_next, kept_isaLanes]

@[simp] theorem kept_execVshl (core : ℕ) (s : State) : outKept (execVshl core s) = some (kept s) := by
  unfold execVshl
  simp only [kept_next, kept_isaLanes]

@[simp] theorem kept_execVshr (core : ℕ) (s : State) : outKept (execVshr core s) = some (kept s) := by
  unfold execVshr
  simp only [kept_next, kept_isaLanes]

@[simp] theorem kept_execVsra (core : ℕ) (s : State) : outKept (execVsra core s) = some (kept s) := by
  unfold execVsra
  simp only [kept_next, kept_isaLanes]

@[simp] theorem kept_execVmin (core : ℕ) (s : State) : outKept (execVmin core s) = some (kept s) := by
  fun_cases execVmin core s
  simp only [kept_next, kept_isaLanes]

@[simp] theorem kept_execVmax (core : ℕ) (s : State) : outKept (execVmax core s) = some (kept s) := by
  fun_cases execVmax core s
  simp only [kept_next, kept_isaLanes]

@[simp] theorem kept_execVadds (core : ℕ) (s : State) : outKept (execVadds core s) = some (kept s) := by
  unfold execVadds
  simp only [kept_next, kept_isaLanes]

@[simp] theorem kept_execVsubs (core : ℕ) (s : State) : outKept (execVsubs core s) = some (kept s) := by
  unfold execVsubs
  simp only [kept_next, kept_isaLanes]

@[simp] theorem kept_execVclmul (core : ℕ) (s : State) : outKept (execVclmul core s) = some (kept s) := by
  unfold execVclmul
  simp only [kept_next, kept_isaV]

@[simp] theorem kept_execVclmulh (core : ℕ) (s : State) : outKept (execVclmulh core s) = some (kept s) := by
  unfold execVclmulh
  simp only [kept_next, kept_isaV]

@[simp] theorem kept_isaVf (m : Mn) (i : ℕ) (f : ℕ → ℕ → ℕ) (s : State) : kept (isaVf m i f s) = kept s := by
  unfold isaVf
  simp only [kept_isaV]

@[simp] theorem kept_execVfadd (core : ℕ) (s : State) : outKept (execVfadd core s) = some (kept s) := by
  unfold execVfadd
  simp only [kept_next, kept_isaVf]

@[simp] theorem kept_execVfsub (core : ℕ) (s : State) : outKept (execVfsub core s) = some (kept s) := by
  unfold execVfsub
  simp only [kept_next, kept_isaVf]

@[simp] theorem kept_execVfmul (core : ℕ) (s : State) : outKept (execVfmul core s) = some (kept s) := by
  unfold execVfmul
  simp only [kept_next, kept_isaVf]

@[simp] theorem kept_execVfdiv (core : ℕ) (s : State) : outKept (execVfdiv core s) = some (kept s) := by
  unfold execVfdiv
  simp only [kept_next, kept_isaVf]

@[simp] theorem kept_execVfsqrt (core : ℕ) (s : State) : outKept (execVfsqrt core s) = some (kept s) := by
  unfold execVfsqrt
  simp only [kept_next, kept_isaVf]

@[simp] theorem kept_execVfmin (core : ℕ) (s : State) : outKept (execVfmin core s) = some (kept s) := by
  unfold execVfmin
  simp only [kept_next, kept_isaVf]

@[simp] theorem kept_execVfmax (core : ℕ) (s : State) : outKept (execVfmax core s) = some (kept s) := by
  unfold execVfmax
  simp only [kept_next, kept_isaVf]

@[simp] theorem kept_execVfma (core : ℕ) (s : State) : outKept (execVfma core s) = some (kept s) := by
  unfold execVfma
  simp only [kept_next, kept_isaV]

@[simp] theorem kept_execVfcvti (core : ℕ) (s : State) : outKept (execVfcvti core s) = some (kept s) := by
  unfold execVfcvti
  simp only [kept_next, kept_isaVf]

@[simp] theorem kept_execVicvtf (core : ℕ) (s : State) : outKept (execVicvtf core s) = some (kept s) := by
  unfold execVicvtf
  simp only [kept_next, kept_isaVf]

@[simp] theorem kept_execVfsqd (core : ℕ) (s : State) : outKept (execVfsqd core s) = some (kept s) := by
  unfold execVfsqd
  simp only [kept_next, kept_isaG]

@[simp] theorem kept_execVfsumd (core : ℕ) (s : State) : outKept (execVfsumd core s) = some (kept s) := by
  unfold execVfsumd
  simp only [kept_next, kept_isaG]

@[simp] theorem kept_execVbcast (core : ℕ) (s : State) : outKept (execVbcast core s) = some (kept s) := by
  unfold execVbcast
  simp only [kept_next, kept_isaV]

@[simp] theorem kept_execVext (core : ℕ) (s : State) : outKept (execVext core s) = some (kept s) := by
  unfold execVext
  simp only [kept_next, kept_isaG]

@[simp] theorem kept_execVins (core : ℕ) (s : State) : outKept (execVins core s) = some (kept s) := by
  fun_cases execVins core s
  simp only [kept_next, kept_isaV]

@[simp] theorem kept_execVmov (core : ℕ) (s : State) : outKept (execVmov core s) = some (kept s) := by
  unfold execVmov
  simp only [kept_next, kept_isaV]

@[simp] theorem kept_coreLoadBlock (s : State) (i : ℕ) (a : ℕ) : kept (coreLoadBlock s i a).state = kept s := by
  fun_cases coreLoadBlock s i a <;> simp (disch := assumption) only [kept_coreLoad, kept_of_ok]

@[simp] theorem kept_execKld (core : ℕ) (s : State) : outKept (execKld core s) = some (kept s) := by
  unfold execKld
  rw [outKept_next, kept_isa]
  intro y0 y1
  (repeat' split) <;> simp (disch := assumption) only [kept_coreLoadBlock, kept_State_setCore, state_done, state_xcpt, state_wait, kept_of_ok,
      kept_of_xcpt, kept_of_wait]

@[simp] theorem kept_execKst (core : ℕ) (s : State) : outKept (execKst core s) = some (kept s) := by
  unfold execKst
  rw [outKept_next, kept_isa]
  intro y0 y1
  dsimp only
  (repeat' split) <;> simp (disch := assumption) only [kept_coreStore, state_done, state_xcpt, state_wait, kept_of_ok, kept_of_xcpt, kept_of_wait]

@[simp] theorem kept_execKdec (core : ℕ) (s : State) : outKept (execKdec core s) = some (kept s) := by
  unfold execKdec
  simp only [kept_next, kept_isaV]

@[simp] theorem kept_isaAcc (m : Mn) (i : ℕ) (f : W32 → Core → Acc) (s : State) : kept (isaAcc m i f s) = kept s := by
  unfold isaAcc
  rw [kept_isa]
  intro y0 y1
  simp only [kept_State_setCore, state_done]

@[simp] theorem kept_execKz (core : ℕ) (s : State) : outKept (execKz core s) = some (kept s) := by
  unfold execKz
  simp only [kept_next, kept_isaAcc]

@[simp] theorem kept_execKadd (core : ℕ) (s : State) : outKept (execKadd core s) = some (kept s) := by
  fun_cases execKadd core s
  simp only [kept_next, kept_isaAcc]

@[simp] theorem kept_execKacc2f (core : ℕ) (s : State) : outKept (execKacc2f core s) = some (kept s) := by
  unfold execKacc2f
  simp only [kept_next, kept_isaV]

@[simp] theorem kept_execKsrd (core : ℕ) (s : State) : outKept (execKsrd core s) = some (kept s) := by
  unfold execKsrd
  simp only [kept_next, kept_isaG]

@[simp] theorem kept_execKmac (core : ℕ) (s : State) : outKept (execKmac core s) = some (kept s) := by
  fun_cases execKmac core s
  simp only [kept_next, kept_isaAcc]

end Sys2Proof.Machine
end

section
/-! PROOFS. What a step keeps of the waiting commands and of the fuses, part 11 of 12: the model's functions in the order in which they call each
other, from `isaEnc` to `execRegionRetireDone`. -/

namespace Sys2Proof.Machine

open Sys2Proof

@[simp] theorem kept_isaEnc (m : Mn) (i : ℕ) (src : W32 → Core → List Val × Bool) (s : State) : kept (isaEnc m i src s) = kept s := by
  unfold isaEnc
  rw [kept_isa]
  intro y0 y1
  simp only [kept_State_setCl, kept_State_setCore, state_done]

@[simp] theorem kept_execKenc (core : ℕ) (s : State) : outKept (execKenc core s) = some (kept s) := by
  unfold execKenc
  simp only [kept_next, kept_isaEnc]

@[simp] theorem kept_execKencf (core : ℕ) (s : State) : outKept (execKencf core s) = some (kept s) := by
  unfold execKencf
  simp only [kept_next, kept_isaEnc]

@[simp] theorem kept_dropClean (s : State) (i : ℕ) : kept (dropClean s i) = kept s := by
  unfold dropClean
  simp only [kept_State_setCore]

@[simp] theorem kept_writeBackAll (s : State) (i : ℕ) : kept (writeBackAll s i) = kept s := by
  unfold writeBackAll
  simp (disch := (intro _ _; simp only [kept_writeBackLine])) only [kept_State_setCore, kept_foldl]

@[simp] theorem kept_afterRelease (i : ℕ) (s : State) (f : State → Exec) (hf : ∀ y0, kept (f y0).state = kept y0) :
    kept (afterRelease i s f).state = kept s := by
  fun_cases afterRelease i s f <;> simp +zetaDelta only [kept_writeBackAll, hf, state_wait]

@[simp] theorem kept_execFence (core : ℕ) (s : State) : outKept (execFence core s) = some (kept s) := by
  unfold execFence
  rw [outKept_next, kept_isa]
  intro w t
  extract_lets fn acq
  have ha : ∀ u, kept (acq u).state = kept u := fun u => by
    simp only [acq, state_done]
    split
    · rw [kept_dropClean]
    · rfl
  split
  · rw [kept_afterRelease _ _ _ ha]
  · exact ha t

@[simp] theorem kept_execIcinv (core : ℕ) (s : State) : outKept (execIcinv core s) = some (kept s) := by
  unfold execIcinv
  rw [outKept_next, kept_isa]
  intro y0 y1
  simp only [kept_State_setCore, state_done]

@[simp] theorem kept_execHalt (core : ℕ) (s : State) : outKept (execHalt core s) = some (kept s) := by
  unfold execHalt
  rw [outKept_next, kept_isa]
  intro y0 y1
  simp only [kept_endCore, state_stop]

@[simp] theorem kept_execWfe (core : ℕ) (s : State) : outKept (execWfe core s) = some (kept s) := by
  unfold execWfe
  rw [outKept_next, kept_isa]
  intro y0 y1
  dsimp only
  (repeat' split) <;> simp only [kept_State_setCore, state_done, state_wait]

@[simp] theorem kept_execEvrd (core : ℕ) (s : State) : outKept (execEvrd core s) = some (kept s) := by
  unfold execEvrd
  simp only [kept_next, kept_isaG]

@[simp] theorem kept_sendEvent (s : State) (i : ℕ) (t : ℕ) : kept (sendEvent s i t) = kept s := by
  fun_cases sendEvent s i t <;> simp +zetaDelta only [kept_State_count, kept_setEvt]

@[simp] theorem kept_execSev (core : ℕ) (s : State) : outKept (execSev core s) = some (kept s) := by
  unfold execSev
  rw [outKept_next, kept_isa]
  intro w t
  rw [kept_afterRelease _ _ _ (fun u => by rw [state_done, kept_sendEvent])]

@[simp] theorem kept_execTdl (core : ℕ) (s : State) : outKept (execTdl core s) = some (kept s) := by
  unfold execTdl
  rw [outKept_next, kept_isa]
  intro y0 y1
  simp only [kept_State_setCore, state_done]

@[simp] theorem kept_execTime (core : ℕ) (s : State) : outKept (execTime core s) = some (kept s) := by
  unfold execTime
  rw [outKept_next, kept_isa]
  intro y0 y1
  simp only [kept_State_setCore, state_done]

@[simp] theorem kept_isaCtr (m : Mn) (i : ℕ) (f : W32 → Core → W64 → Option W64) (s : State) : kept (isaCtr m i f s) = kept s := by
  unfold isaCtr
  rw [kept_isa]
  intro w t
  extract_lets g
  split
  · rfl
  rw [kept_afterRelease]
  intro u
  extract_lets old u1
  have h1 : kept u1 = kept u := by
    simp only [u1]
    split
    · rw [kept_State_putCtr]
    · rfl
  rw [state_done, kept_State_setCore, h1]

@[simp] theorem kept_execCadd (core : ℕ) (s : State) : outKept (execCadd core s) = some (kept s) := by
  unfold execCadd
  simp only [kept_next, kept_isaCtr]

@[simp] theorem kept_execCset (core : ℕ) (s : State) : outKept (execCset core s) = some (kept s) := by
  unfold execCset
  simp only [kept_next, kept_isaCtr]

@[simp] theorem kept_execCrd (core : ℕ) (s : State) : outKept (execCrd core s) = some (kept s) := by
  unfold execCrd
  simp only [kept_next, kept_isaCtr]

@[simp] theorem kept_execCwatch (core : ℕ) (s : State) : outKept (execCwatch core s) = some (kept s) := by
  unfold execCwatch
  rw [outKept_next, kept_isa]
  intro w t
  extract_lets +onlyGivenNames g
  split
  · rw [state_xcpt]
  · rw [kept_afterRelease _ _ _ (fun u => by rw [state_done, kept_State_setCore])]

@[simp] theorem kept_execCunwatch (core : ℕ) (s : State) : outKept (execCunwatch core s) = some (kept s) := by
  unfold execCunwatch
  rw [outKept_next, kept_isa]
  intro w t
  rw [kept_afterRelease _ _ _ (fun u => by rw [state_done, kept_State_setCore])]

@[simp] theorem kept_execCwst (core : ℕ) (s : State) : outKept (execCwst core s) = some (kept s) := by
  unfold execCwst
  rw [outKept_next, kept_isa]
  intro w t
  rw [kept_afterRelease _ _ _ (fun u => by rw [state_done, kept_State_setCore])]

@[simp] theorem kept_coreJobCheck (s : State) (j : Job) (id : ℕ) (c : ℕ) (codec : Bool) : kept (coreJobCheck s j id c codec).1 = kept s := by
  fun_cases coreJobCheck s j id c codec <;> simp (disch := assumption) only [kept_matCheck, kept_of_pair]

@[simp] theorem kept_startCoreJob (s : State) (i : ℕ) (off : ℕ) (d : Desc) (codec : Bool) : kept (startCoreJob s i off d codec) = kept s := by
  fun_cases startCoreJob s i off d codec <;> simp +zetaDelta (disch := assumption) only [kept_coreJobCheck, kept_completeJob, kept_State_count,
      kept_startEngine, kept_units, kept_of_pair]

@[simp] theorem kept_isaStart (m : Mn) (i : ℕ) (codec : Bool) (s : State) : kept (isaStart m i codec s) = kept s := by
  unfold isaStart
  rw [kept_isa]
  intro w t
  extract_lets k ga gb
  split
  · rfl
  · rfl
  next a b _ _ =>
  split
  · rfl
  rw [kept_afterRelease]
  intro u
  have hs := kept_scrRead u (coreCluster i) a 64
  split
  next u1 bs bad h =>
  have h1 : kept u1 = kept u := by rw [← hs, h]
  split
  · exact h1
  · rw [state_done, kept_startCoreJob, h1]

@[simp] theorem kept_execIstart (core : ℕ) (s : State) : outKept (execIstart core s) = some (kept s) := by
  unfold execIstart
  simp only [kept_next, kept_isaStart]

@[simp] theorem kept_execPstart (core : ℕ) (s : State) : outKept (execPstart core s) = some (kept s) := by
  unfold execPstart
  simp only [kept_next, kept_isaStart]

@[simp] theorem kept_execPost (core : ℕ) (s : State) : outKept (execPost core s) = some (kept s) := by
  unfold execPost
  rw [outKept_next, kept_isa]
  intro w t
  extract_lets k ga
  split
  · rfl
  next a _ =>
  split
  · rw [state_done, kept_State_setCore]
  next ring _ =>
  split
  · rfl
  rw [kept_afterRelease]
  intro u
  have hs := kept_scrRead u (coreCluster core) a 64
  split
  next u1 bs bad h =>
  have h1 : kept u1 = kept u := by rw [← hs, h]
  split
  · exact h1
  · extract_lets u2
    rw [state_done, kept_State_setCore, kept_postDesc, h1]

@[simp] theorem kept_fwDrain (s : State) (k : MboxId) : kept (fwDrain s k) = kept s := by
  fun_cases fwDrain s k <;> simp only [kept_holdReply, kept_takeWord]

@[simp] theorem kept_execMailboxWrite (pair : MboxId) (wide : Bool) (value : W64) (s : State) :
    outKept (execMailboxWrite pair wide value s) = some (kept s) := by
  fun_cases execMailboxWrite pair wide value s <;> simp only [kept_next, kept_fwDrain, kept_State_setPair]

@[simp] theorem kept_execMailboxRead (pair : MboxId) (wide : Bool) (s : State) : outKept (execMailboxRead pair wide s) = some (kept s) := by
  fun_cases execMailboxRead pair wide s <;> simp only [kept_next, kept_State_emit, kept_State_setPair]

@[simp] theorem kept_pairVector (s : State) (k : MboxId) : kept (pairVector s k) = kept s := by
  fun_cases pairVector s k <;> simp +zetaDelta only [kept_State_msix, apply_ite kept, ite_self]

@[simp] theorem kept_postReply (s : State) (k : MboxId) : kept (postReply s k) = kept s := by
  fun_cases postReply s k <;> simp only [kept_fwDrain, kept_pairVector, kept_State_setPair]

@[simp] theorem kept_execReplyPost (pair : MboxId) (s : State) : outKept (execReplyPost pair s) = some (kept s) := by
  unfold execReplyPost
  simp only [kept_next, kept_postReply]

@[simp] theorem kept_execCrossedWait (pair : MboxId) (s : State) : outKept (execCrossedWait pair s) = some (kept s) := by
  fun_cases execCrossedWait pair s <;> simp only [kept_next, kept_State_event, kept_pairVector, kept_State_setPair]

@[simp] theorem kept_execLockClaim (lock : ℕ) (agent : ℕ) (s : State) : outKept (execLockClaim lock agent s) = some (kept s) := by
  fun_cases execLockClaim lock agent s <;> simp +zetaDelta only [kept_next, kept_State_emit, kept_units, apply_ite kept, ite_self]

@[simp] theorem kept_execLockRelease (lock : ℕ) (agent : ℕ) (s : State) : outKept (execLockRelease lock agent s) = some (kept s) := by
  fun_cases execLockRelease lock agent s <;> simp +zetaDelta only [kept_next, kept_units, apply_ite kept, ite_self]

@[simp] theorem kept_execFwHello (pair : MboxId) (s : State) : outKept (execFwHello pair s) = some (kept s) := by
  unfold execFwHello
  rw [outKept_next, kept_fwCommand]
  intro y0 y1 y2
  (repeat' split) <;> simp only [kept_refuse]

@[simp] theorem kept_execCmdWindow (pair : MboxId) (s : State) : outKept (execCmdWindow pair s) = some (kept s) := by
  unfold execCmdWindow
  rw [outKept_next, kept_fwCommand]
  intro y0 y1 y2
  simp only [kept_accept, kept_State_setPair]

@[simp] theorem kept_State_setPcore (s : State) (n : ℕ) (x2 : PCore) : kept (State.setPcore s n x2) = kept s := rfl

@[simp] theorem kept_coreStops (s : State) (n : ℕ) (lastCause : ℕ) (cause : ℕ) (xpc : ℕ) (xaddr : ℕ) :
    kept (coreStops s n lastCause cause xpc xaddr) = kept s := by
  fun_cases coreStops s n lastCause cause xpc xaddr <;> simp +zetaDelta only [kept_State_setPcore, kept_State_event, kept_State_trouble,
      kept_State_count, kept_finishCmd, kept_units, apply_ite kept, ite_self]

@[simp] theorem kept_execPaletteCoreFault (core : ℕ) (mpu : Bool) (cause : ℕ) (xpc : W64) (xaddr : W64) (s : State) :
    outKept (execPaletteCoreFault core mpu cause xpc xaddr s) = some (kept s) := by
  fun_cases execPaletteCoreFault core mpu cause xpc xaddr s <;> simp only [kept_next, kept_coreStops]

@[simp] theorem kept_execHeartbeatMiss (core : ℕ) (s : State) : outKept (execHeartbeatMiss core s) = some (kept s) := by
  fun_cases execHeartbeatMiss core s <;> simp only [kept_next, kept_coreStops, kept_State_trouble]

@[simp] theorem kept_drainPairs (s : State) : kept (drainPairs s) = kept s := by
  unfold drainPairs
  rw [kept_foldl]
  intro y0 y1
  simp only [kept_fwDrain]

@[simp] theorem kept_actFail (s : State) (st : Status) (act : ℕ) : kept (actFail s st act) = kept s := by
  fun_cases actFail s st act <;> simp +zetaDelta only [kept_State_event, kept_replyTo, kept_units]

@[simp] theorem kept_actGo (s : State) : kept (actGo s) = kept s := by
  fun_cases actGo s <;> simp only [kept_actFail, kept_units]

@[simp] theorem kept_execPaletteRestartDone (core : ℕ) (s : State) : outKept (execPaletteRestartDone core s) = some (kept s) := by
  fun_cases execPaletteRestartDone core s <;> simp +zetaDelta only [kept_next, kept_State_event, kept_releaseLocks, kept_State_setPcore,
      kept_drainPairs, kept_sendCloses, kept_safSettle, kept_actGo, apply_ite kept, ite_self]

@[simp] theorem kept_clearInbound (s : State) (k : MboxId) : kept (clearInbound s k) = kept s := by
  fun_cases clearInbound s k <;> simp only [kept_State_event, kept_pairVector, kept_State_setPair]

@[simp] theorem kept_coresBack (s : State) : kept (coresBack s) = kept s := by
  fun_cases coresBack s <;> simp +zetaDelta only [kept_safSettle, kept_sendCloses, kept_actGo]

@[simp] theorem kept_restartAll (s : State) : kept (restartAll s) = kept s := by
  unfold restartAll
  rw [kept_foldl]
  intro y0 y1
  simp only [kept_State_count, kept_releaseLocks, kept_State_setPcore]

@[simp] theorem kept_execPaletteComplexReset (s : State) : outKept (execPaletteComplexReset s) = some (kept s) := by
  unfold execPaletteComplexReset
  (repeat' split) <;> simp (disch := (intro _ _; simp only [kept_clearInbound, kept_holdReply])) only [kept_coresBack, kept_restartAll, kept_units,
      outKept_next, kept_foldl]

@[simp] theorem kept_State_setBank (s : State) (b : ℕ) (x2 : Bank) : kept (State.setBank s b x2) = kept s := rfl

@[simp] theorem kept_markBank (s : State) (n : ℕ) (ok : Bool) : kept (markBank s n ok) = kept s := by
  fun_cases markBank s n ok
  simp only [kept_State_setBank]

@[simp] theorem kept_execFwLoad (pair : MboxId) (blk : CmdBlock) (data : Option (List Byte)) (s : State) :
    outKept (execFwLoad pair blk data s) = some (kept s) := by
  unfold execFwLoad
  rw [outKept_next, kept_fwCommand]
  intro y0 y1 y2
  dsimp only
  (repeat' split) <;> simp only [kept_refuse, kept_State_setBank, kept_accept, kept_markBank, kept_units]

@[simp] theorem kept_execFwActivate (pair : MboxId) (blk : CmdBlock) (s : State) : outKept (execFwActivate pair blk s) = some (kept s) := by
  unfold execFwActivate
  dsimp only
  (repeat' split) <;> simp (disch := (intro _; intros; (repeat' split) <;> simp only [kept_refuse, kept_markBank, kept_accept, kept_State_event,
      kept_actGo, kept_units])) only [kept_fwCommand, kept_warmReset, kept_postReply, outKept_next]

@[simp] theorem kept_execActivationDone (s : State) : outKept (execActivationDone s) = some (kept s) := by
  fun_cases execActivationDone s <;> simp +zetaDelta only [kept_next, kept_State_event, kept_replyTo, kept_safSettle, kept_drainPairs, kept_units,
      apply_ite kept, ite_self]

@[simp] theorem kept_execDeferredActivationStart (s : State) : outKept (execDeferredActivationStart s) = some (kept s) := by
  fun_cases execDeferredActivationStart s <;> simp only [kept_next, kept_actGo]

@[simp] theorem kept_execSpBind (pair : MboxId) (blk : CmdBlock) (s : State) : outKept (execSpBind pair blk s) = some (kept s) := by
  unfold execSpBind
  rw [outKept_next, kept_fwCommand]
  intro y0 y1 y2
  dsimp only
  (repeat' split) <;> simp only [kept_refuse, kept_accept, kept_units]

@[simp] theorem kept_execSpSend (pair : MboxId) (blk : CmdBlock) (data : Option (List Byte)) (s : State) :
    outKept (execSpSend pair blk data s) = some (kept s) := by
  unfold execSpSend
  rw [outKept_next, kept_fwCommand]
  intro y0 y1 y2
  dsimp only
  (repeat' split) <;> simp only [kept_refuse, kept_handToWeld]

@[simp] theorem kept_execLogBind (pair : MboxId) (blk : CmdBlock) (s : State) : outKept (execLogBind pair blk s) = some (kept s) := by
  unfold execLogBind
  rw [outKept_next, kept_fwCommand]
  intro y0 y1 y2
  dsimp only
  (repeat' split) <;> simp only [kept_refuse, kept_accept, kept_copyLog, kept_units]

@[simp] theorem kept_execTraceSet (pair : MboxId) (blk : CmdBlock) (s : State) : outKept (execTraceSet pair blk s) = some (kept s) := by
  unfold execTraceSet
  rw [outKept_next, kept_fwCommand]
  intro y0 y1 y2
  (repeat' split) <;> simp only [kept_refuse, kept_accept, kept_units]

@[simp] theorem kept_execLogCopyInterrupt (s : State) : outKept (execLogCopyInterrupt s) = some (kept s) := by
  fun_cases execLogCopyInterrupt s <;> simp only [kept_next, kept_State_msix, kept_units]

@[simp] theorem kept_execLcQuery (pair : MboxId) (s : State) : outKept (execLcQuery pair s) = some (kept s) := by
  unfold execLcQuery
  rw [outKept_next, kept_fwCommand]
  intro y0 y1 y2
  simp only [kept_units]

@[simp] theorem kept_execLcNonce (pair : MboxId) (blk : CmdBlock) (s : State) : outKept (execLcNonce pair blk s) = some (kept s) := by
  unfold execLcNonce
  rw [outKept_next, kept_fwCommand]
  intro y0 y1 y2
  (repeat' split) <;> simp (disch := assumption) only [kept_refuse, kept_State_entropy, kept_State_hostWrite, kept_secUnit, kept_of_pair']

@[simp] theorem kept_destroyNow (s : State) (cls : ℕ) (i : ℕ) : kept (destroyNow s cls i) = kept s := by
  fun_cases destroyNow s cls i
  simp +zetaDelta only [kept_destroyStop, kept_destroyStart, kept_sendClose, kept_destroyEnd, apply_ite kept, ite_self]

@[simp] theorem kept_fullErase (s : State) : kept (fullErase s) = kept s := by
  unfold fullErase
  refine (kept_secUnit ..).trans (kept_foldl _ (fun t cls => ?_) _ s)
  exact kept_foldl _ (fun u i => kept_destroyNow ..) _ t

@[simp] theorem kept_execAttQuote (pair : MboxId) (blk : CmdBlock) (s : State) : outKept (execAttQuote pair blk s) = some (kept s) := by
  unfold execAttQuote
  rw [outKept_next, kept_fwCommand]
  intro y0 y1 y2
  (repeat' split) <;> simp only [kept_refuse, kept_State_hostWrite]

@[simp] theorem kept_execAttCerts (pair : MboxId) (blk : CmdBlock) (s : State) : outKept (execAttCerts pair blk s) = some (kept s) := by
  unfold execAttCerts
  rw [outKept_next, kept_fwCommand]
  intro y0 y1 y2
  (repeat' split) <;> simp only [kept_refuse, kept_accept, kept_State_hostWrite]

@[simp] theorem kept_startMordant (s : State) (job : ℕ) (j : Job) (pieces : List (ℕ × ℕ)) : kept (startMordant s job j pieces) = kept s := by
  unfold startMordant
  extract_lets +onlyGivenNames s1
  have h1 : kept s1 = kept s := kept_State_setJob _ _ _
  split
  · exact h1
  · split
    next h => rw [kept_hostRead _ _ _ _ h, h1]
    · rw [kept_finish]

@[simp] theorem kept_cipherStart (s : State) (op : ℕ) (job : ℕ) : kept (cipherStart s op job) = kept s := by
  fun_cases cipherStart s op job <;> simp only [kept_finish, kept_State_count, kept_startMordant]

@[simp] theorem kept_execAesEnc (job : ℕ) (s : State) : outKept (execAesEnc job s) = some (kept s) := by
  unfold execAesEnc
  simp only [kept_next, kept_cipherStart]

@[simp] theorem kept_execAesDec (job : ℕ) (s : State) : outKept (execAesDec job s) = some (kept s) := by
  unfold execAesDec
  simp only [kept_next, kept_cipherStart]

@[simp] theorem kept_execSha256 (job : ℕ) (s : State) : outKept (execSha256 job s) = some (kept s) := by
  fun_cases execSha256 job s <;> simp only [kept_next, kept_finish, kept_startMordant]

@[simp] theorem kept_execEntropy (job : ℕ) (s : State) : outKept (execEntropy job s) = some (kept s) := by
  fun_cases execEntropy job s <;> simp only [kept_next, kept_finish, kept_startMordant]

@[simp] theorem kept_cipherDone (s : State) (job : ℕ) (j : Job) (enc : Bool) : kept (cipherDone s job j enc) = kept s := by
  fun_cases cipherDone s job j enc <;> simp +zetaDelta (disch := assumption) only [kept_completeJob, kept_mordantRead, kept_mordantWrite,
      kept_State_count, kept_of_pair]

@[simp] theorem kept_shaDone (s : State) (job : ℕ) (j : Job) : kept (shaDone s job j) = kept s := by
  fun_cases shaDone s job j <;> simp +zetaDelta (disch := assumption) only [kept_mordantRead, kept_completeJob, kept_mordantWrite, kept_State_count,
      kept_of_pair, apply_ite Prod.fst, apply_ite kept, ite_self]

@[simp] theorem kept_execCipherJobDone (job : ℕ) (s : State) : outKept (execCipherJobDone job s) = some (kept s) := by
  fun_cases execCipherJobDone job s <;> simp (disch := assumption) only [kept_next, kept_cipherDone, kept_shaDone, kept_drawBlocks,
      kept_mordantWrite, kept_completeJob, kept_of_pair]

@[simp] theorem kept_execEntropyHealthRetest (pass : Bool) (s : State) : outKept (execEntropyHealthRetest pass s) = some (kept s) := by
  fun_cases execEntropyHealthRetest pass s
  simp +zetaDelta only [kept_next, kept_State_count, kept_secUnit, apply_ite kept, ite_self]

@[simp] theorem kept_zeroSecure (s : State) : kept (zeroSecure s) = kept s := by
  unfold zeroSecure
  dsimp only
  rw [kept_foldl _ (fun t c => kept_clearScratch t c), kept_units]

@[simp] theorem kept_keyErase (s : State) : kept (keyErase s) = kept s := by
  unfold keyErase
  simp only [kept_abortJobs, kept_guarded, kept_secUnit]

@[simp] theorem kept_noteTamper (s : State) (i : ℕ) : kept (noteTamper s i) = kept s := rfl

@[simp] theorem kept_fullResponse (s : State) (cause : ℕ) : kept (fullResponse s cause) = kept s := by
  fun_cases fullResponse s cause <;> simp +zetaDelta only [kept_zeroSecure, kept_keyErase, kept_noteTamper, kept_railsOff, kept_flushJournal,
      kept_warmClear, kept_warmReset, kept_secUnit]

@[simp] theorem kept_execLidBreak (s : State) : outKept (execLidBreak s) = some (kept s) := by
  unfold execLidBreak
  simp only [kept_next, kept_fullResponse]

@[simp] theorem kept_execMeshFault (s : State) : outKept (execMeshFault s) = some (kept s) := by
  unfold execMeshFault
  simp only [kept_next, kept_fullResponse]

@[simp] theorem kept_volatileResponse (s : State) (cause : ℕ) : kept (volatileResponse s cause) = kept s := by
  unfold volatileResponse
  simp only [kept_warmReset, kept_zeroSecure, kept_keyErase, kept_noteTamper]

@[simp] theorem kept_execSupplyGlitch (s : State) : outKept (execSupplyGlitch s) = some (kept s) := by
  unfold execSupplyGlitch
  simp only [kept_next, kept_volatileResponse]

@[simp] theorem kept_execTamperTemp (s : State) : outKept (execTamperTemp s) = some (kept s) := by
  unfold execTamperTemp
  simp only [kept_next, kept_volatileResponse]

@[simp] theorem kept_execJtagDebugRequest (s : State) : outKept (execJtagDebugRequest s) = some (kept s) := by
  fun_cases execJtagDebugRequest s
  simp +zetaDelta only [kept_next, kept_noteTamper, apply_ite kept, ite_self]

@[simp] theorem kept_verdEvent (s : State) (i : ℕ) : kept (verdEvent s i) = kept s := rfl

@[simp] theorem kept_planRetire (s : State) (u : ℕ) (cmd : ℕ) : kept (planRetire s u cmd) = kept s := by
  fun_cases planRetire s u cmd <;> simp +zetaDelta only [kept_retireRegion, kept_retireUnit, kept_units]

@[simp] theorem kept_crossed (u : ℕ) (s : State) (c : ℕ) (v : ℕ) : kept (crossed u s c v) = kept s := by
  fun_cases crossed u s c v <;> simp +zetaDelta only [kept_State_event, kept_verdEvent, kept_planRetire]

@[simp] theorem kept_clearTrouble (s : State) (u : ℕ) : kept (clearTrouble s u) = kept s := by
  fun_cases clearTrouble s u <;> simp only [kept_units]

@[simp] theorem kept_checkTrouble (s : State) (u : ℕ) (t : Trouble) : kept (checkTrouble s u t) = kept s := by
  unfold checkTrouble
  dsimp only
  (repeat' split) <;> simp (disch := (intro _ _; simp only [kept_crossed])) only [kept_State_event, kept_verdEvent, kept_clearTrouble, kept_foldl]

@[simp] theorem kept_execTroubleCheck (s : State) : outKept (execTroubleCheck s) = some (kept s) := by
  unfold execTroubleCheck
  (repeat' split) <;> simp (disch := (intro _ _; (repeat' split) <;> simp only [kept_checkTrouble])) only [kept_afterUnit, kept_units, outKept_next,
      kept_foldl]

@[simp] theorem kept_execUmberMismatch (s : State) : outKept (execUmberMismatch s) = some (kept s) := by
  fun_cases execUmberMismatch s <;> simp +zetaDelta only [kept_State_event, kept_railsOff, kept_next, kept_packageFault, kept_units]

@[simp] theorem kept_raiseX (s : State) (x1 : ℕ) : kept (raiseX s x1) = kept s := rfl

@[simp] theorem kept_derate (s : State) (r : ℕ) (tmax : ℕ) : kept (derate s r tmax) = kept s := by
  unfold derate
  simp only [kept_State_note, kept_verdEvent, kept_units]

@[simp] theorem kept_execMarginCheck (region : ℕ) (rate : W32) (tj : W32) (age : W32) (s : State) :
    outKept (execMarginCheck region rate tj age s) = some (kept s) := by
  fun_cases execMarginCheck region rate tj age s <;> simp +zetaDelta (disch := assumption) only [kept_next, kept_raiseX, kept_State_choose,
      kept_State_setRgn, kept_State_note, kept_verdEvent, kept_derate, kept_afterUnit, kept_retireRegion, kept_units, kept_of_pair', apply_ite kept,
      ite_self]

@[simp] theorem kept_stackOff (s : State) (k : ℕ) : kept (stackOff s k) = kept s := by
  unfold stackOff
  extract_lets +onlyGivenNames x s1 w s2
  have h1 : kept s1 = kept s := (kept_foldl _ (fun t d => kept_State_setUnit t _ _) _ _).trans (kept_State_setStack s k _)
  have h2 : kept s2 = kept s := by rw [kept_setEvent, kept_units, h1]
  split
  · rw [kept_setEvent, h2]
  · exact h2

@[simp] theorem kept_execRegionRetireDone (region : ℕ) (s : State) : outKept (execRegionRetireDone region s) = some (kept s) := by
  unfold execRegionRetireDone
  dsimp only
  (repeat' split) <;> simp (disch := (intro _ _; simp only [kept_connError, kept_markRetired])) only [kept_stackOff, kept_State_note,
      kept_State_setRgn, kept_afterUnit, kept_answerPlanned, kept_units, outKept_next, kept_foldl]

end Sys2Proof.Machine
end

section
/-! PROOFS. What a step keeps of the waiting commands and of the fuses, part 12 of 12: the model's functions in the order in which they call each
other, from `execRetentionMeasure` to `execTimeAwareSystemSteering`. -/

namespace Sys2Proof.Machine

open Sys2Proof

@[simp] theorem kept_execRetentionMeasure (stack : ℕ) (die : ℕ) (ms : ℕ) (tj : W32) (s : State) :
    outKept (execRetentionMeasure stack die ms tj s) = some (kept s) := by
  fun_cases execRetentionMeasure stack die ms tj s <;> simp (disch := assumption) only [kept_next, kept_afterUnit, kept_retireUnit, kept_verdEvent,
      kept_State_choose, kept_State_setStack, kept_of_pair']

@[simp] theorem kept_sensorFails (s : State) (u : ℕ) : kept (sensorFails s u) = kept s := by
  fun_cases sensorFails s u <;> simp +zetaDelta only [kept_derate, kept_units]

@[simp] theorem kept_testFails (s : State) (t : ℕ) (u : ℕ) (named : Option ℕ) : kept (testFails s t u named) = kept s := by
  fun_cases testFails s t u named <;> simp +zetaDelta only [kept_State_trouble, kept_sensorFails, kept_arrayRepair, kept_retireUnit]

@[simp] theorem kept_execSwatchPeriodic (failed : List ℕ) (s : State) : outKept (execSwatchPeriodic failed s) = some (kept s) := by
  unfold execSwatchPeriodic
  simp (disch := (intro _ _; simp only [kept_testFails])) only [kept_State_count, kept_afterUnit, outKept_next, kept_foldl]

@[simp] theorem kept_queueTest (s : State) (t : ℕ) (u : ℕ) (cmd : ℕ) : kept (queueTest s t u cmd) = kept s := by
  unfold queueTest
  simp only [kept_startTest, kept_units]

@[simp] theorem kept_execIdleClusterTest (cluster : ℕ) (s : State) : outKept (execIdleClusterTest cluster s) = some (kept s) := by
  fun_cases execIdleClusterTest cluster s <;> simp only [kept_next, kept_queueTest, kept_units]

@[simp] theorem kept_testLeaves (s : State) (t : ℕ) (u : ℕ) : kept (testLeaves s t u) = kept s := by
  unfold testLeaves
  (repeat' split) <;> simp (disch := (intro _ _; simp only [kept_clearCore])) only [kept_clearScratch, kept_units, kept_foldl]

@[simp] theorem kept_testOver (s : State) (u : ℕ) : kept (testOver s u) = kept s := by
  fun_cases testOver s u <;> simp only [kept_reclaimStop, kept_acceptRing]

@[simp] theorem kept_execSwatchTestDone (pass : Bool) (named : Option ℕ) (sig : W64) (s : State) :
    outKept (execSwatchTestDone pass named sig s) = some (kept s) := by
  fun_cases execSwatchTestDone pass named sig s <;> simp +zetaDelta only [kept_next, kept_testLeaves, kept_State_count, kept_testOutcome,
      kept_testFails, kept_afterUnit, kept_startTest, kept_testOver, kept_replyTo, kept_units, apply_ite kept, ite_self]

@[simp] theorem kept_execSwatRun (pair : MboxId) (blk : CmdBlock) (s : State) : outKept (execSwatRun pair blk s) = some (kept s) := by
  unfold execSwatRun
  rw [outKept_next, kept_fwCommand]
  intro y0 y1 y2
  (repeat' split) <;> simp only [kept_refuse, kept_queueTest]

@[simp] theorem kept_execSwatCtrlGo (value : W32) (s : State) : outKept (execSwatCtrlGo value s) = some (kept s) := by
  fun_cases execSwatCtrlGo value s <;> simp +zetaDelta only [kept_next, kept_State_setReg, kept_testOutcome, kept_queueTest]

@[simp] theorem kept_execUnitRetire (pair : MboxId) (blk : CmdBlock) (s : State) : outKept (execUnitRetire pair blk s) = some (kept s) := by
  unfold execUnitRetire
  rw [outKept_next, kept_fwCommand]
  intro y0 y1 y2
  dsimp only
  (repeat' split) <;> simp only [kept_refuse, kept_afterUnit, kept_planRetire]

@[simp] theorem kept_execTroubleClear (pair : MboxId) (blk : CmdBlock) (s : State) : outKept (execTroubleClear pair blk s) = some (kept s) := by
  unfold execTroubleClear
  rw [outKept_next, kept_fwCommand]
  intro y0 y1 y2
  dsimp only
  (repeat' split) <;> simp only [kept_refuse, kept_accept, kept_clearTrouble, kept_units]

@[simp] theorem kept_execRelPolicy (pair : MboxId) (blk : CmdBlock) (s : State) : outKept (execRelPolicy pair blk s) = some (kept s) := by
  unfold execRelPolicy
  rw [outKept_next, kept_fwCommand]
  intro y0 y1 y2
  (repeat' split) <;> simp only [kept_refuse, kept_accept, kept_units]

@[simp] theorem kept_execRmapRead (pair : MboxId) (blk : CmdBlock) (s : State) : outKept (execRmapRead pair blk s) = some (kept s) := by
  unfold execRmapRead
  rw [outKept_next, kept_fwCommand]
  intro y0 y1 y2
  (repeat' split) <;> simp only [kept_refuse, kept_State_hostWrite]

@[simp] theorem kept_shutdown (s : State) (code : ℕ) : kept (shutdown s code) = kept s := by
  fun_cases shutdown s code <;> simp +zetaDelta only [kept_guarded, kept_powerGood, kept_holdHosts, kept_saveStart, kept_railsOff, kept_flushJournal,
      kept_units]

@[simp] theorem kept_umberDo (s : State) (n : ℕ) : kept (umberDo s n) = kept s := by
  fun_cases umberDo s n <;> simp only [kept_shutdown, kept_warmReset]

@[simp] theorem kept_umberOp (s : State) (n : ℕ) : kept (umberOp s n) = kept s := by
  fun_cases umberOp s n <;> simp only [kept_umberDo, kept_units]

@[simp] theorem kept_execRelShutdown (pair : MboxId) (blk : CmdBlock) (s : State) : outKept (execRelShutdown pair blk s) = some (kept s) := by
  unfold execRelShutdown
  rw [outKept_next, kept_fwCommand]
  intro y0 y1 y2
  (repeat' split) <;> simp only [kept_refuse, kept_umberOp]

@[simp] theorem kept_writeMap (s : State) (okA : Bool) (okB : Bool) : kept (writeMap s okA okB) = kept s := by
  fun_cases writeMap s okA okB <;> simp +zetaDelta only [kept_flushJournal, kept_units]

@[simp] theorem kept_execRmapJournalWrite (okA : Bool) (okB : Bool) (s : State) : outKept (execRmapJournalWrite okA okB s) = some (kept s) := by
  fun_cases execRmapJournalWrite okA okB s <;> simp only [kept_next, kept_writeMap]

@[simp] theorem kept_execRmapRetry (okA : Bool) (okB : Bool) (s : State) : outKept (execRmapRetry okA okB s) = some (kept s) := by
  fun_cases execRmapRetry okA okB s <;> simp only [kept_next, kept_writeMap]

@[simp] theorem kept_sendIpfix (s : State) (i : ℕ) (n : ℕ) (sets : List Byte) : kept (sendIpfix s i n sets) = kept s := by
  fun_cases sendIpfix s i n sets
  simp only [kept_State_count, kept_handToWeld, kept_State_setColl]

@[simp] theorem kept_sendTemplates (s : State) (i : ℕ) : kept (sendTemplates s i) = kept s := by
  unfold sendTemplates
  simp only [kept_sendIpfix, kept_State_setColl]

@[simp] theorem kept_exportRecs (s : State) (i : ℕ) (rs : List SRec) : kept (exportRecs s i rs) = kept s := by
  unfold exportRecs
  dsimp only
  (repeat' split) <;> simp (disch := (intro _ _; simp only [kept_sendIpfix])) only [kept_State_setColl, kept_State_count, kept_sendTemplates,
      kept_foldl]

@[simp] theorem kept_execSienExport (pair : MboxId) (blk : CmdBlock) (s : State) : outKept (execSienExport pair blk s) = some (kept s) := by
  unfold execSienExport
  rw [outKept_next, kept_fwCommand]
  intro y0 y1 y2
  (repeat' split) <;> simp only [kept_refuse, kept_accept, kept_State_setColl, kept_exportRecs]

@[simp] theorem kept_execSienSample (pair : MboxId) (blk : CmdBlock) (s : State) : outKept (execSienSample pair blk s) = some (kept s) := by
  unfold execSienSample
  rw [outKept_next, kept_fwCommand]
  intro y0 y1 y2
  (repeat' split) <;> simp only [kept_refuse, kept_accept, kept_units]

@[simp] theorem kept_execExportInterval (slot : ℕ) (s : State) : outKept (execExportInterval slot s) = some (kept s) := by
  fun_cases execExportInterval slot s
  simp +zetaDelta only [kept_next, kept_exportRecs, apply_ite kept, ite_self]

@[simp] theorem kept_execTemplateRefresh (slot : ℕ) (s : State) : outKept (execTemplateRefresh slot s) = some (kept s) := by
  fun_cases execTemplateRefresh slot s
  simp +zetaDelta only [kept_next, kept_exportRecs, kept_State_setColl, apply_ite kept, ite_self]

@[simp] theorem kept_execSampledRecordFlush (s : State) : outKept (execSampledRecordFlush s) = some (kept s) := by
  unfold execSampledRecordFlush
  (repeat' split) <;> simp (disch := (intro _ _; (repeat' split) <;> simp only [kept_exportRecs, kept_State_setColl])) only [outKept_next, kept_foldl]

@[simp] theorem kept_recover (s : State) (cause : ℕ) : kept (recover s cause) = kept s := rfl

theorem kept_bootBank (s : State) {t0} (hret : bootBank s = some t0) : kept t0 = kept s := by
  revert hret
  unfold bootBank
  dsimp only
  (repeat' split) <;> intro h <;> cases h <;> simp only [kept_markBank, kept_units]

@[simp] theorem kept_startRetire (s : State) (u : ℕ) : kept (startRetire s u) = kept s := by
  fun_cases startRetire s u <;> simp +zetaDelta only [kept_State_trouble, kept_markRetired, kept_retireUnit]

@[simp] theorem kept_placeCores (s : State) (c : ℕ) : kept (placeCores s c) = kept s := by
  unfold placeCores
  simp (disch := (intro _ _; (repeat' split) <;> simp only [kept_State_setCore])) only [kept_renumber, kept_foldl]

@[simp] theorem kept_startCluster (s : State) (c : ℕ) : kept (startCluster s c) = kept s := by
  fun_cases startCluster s c <;> simp +zetaDelta (disch := assumption) only [kept_State_setCl, kept_State_entropy, kept_checkCluster,
      kept_placeCores, kept_of_pair']

@[simp] theorem kept_startRegion (late : List ℕ) (s : State) (r : ℕ) : kept (startRegion late s r) = kept s := by
  unfold startRegion
  extract_lets +onlyGivenNames g
  split
  · exact kept_foldl _ (fun t c => kept_State_setCl t _ _) _ s
  split
  · exact (kept_foldl _ (fun t c => kept_State_setCl t _ _) _ _).trans (kept_State_setRgn s r _)
  · exact (kept_foldl _ (fun t c => kept_startCluster t c) _ _).trans (kept_State_setRgn s r _)

@[simp] theorem kept_takeCarveOut (s : State) (c : ℕ × ℕ × Bool) : kept (takeCarveOut s c) = kept s := by
  unfold takeCarveOut
  extract_lets s1
  have h1 : kept s1 = kept s := kept_getD fun t h => kept_allocPages _ _ _ _ _ h
  rw [kept_units, h1]

@[simp] theorem kept_restorePage (s : State) (p : ℕ × BitVec 8 × List Byte) : kept (restorePage s p) = kept s := by
  unfold restorePage
  simp only [kept_lakeWrite, kept_units]

@[simp] theorem kept_restoreVault (s : State) (bad : List ℕ) : kept (restoreVault s bad) = kept s := by
  unfold restoreVault
  (repeat' split) <;> simp (disch := (intro _ _; simp only [kept_restorePage])) only [kept_units, kept_foldl]

@[simp] theorem kept_finishStart (s : State) (bad : List ℕ) (ms : ℕ) : kept (finishStart s bad ms) = kept s := by
  unfold finishStart
  extract_lets +onlyGivenNames s1 s2 s3
  have h1 : kept s1 = kept s := kept_foldl _ (fun t c => kept_takeCarveOut t c) _ s
  have h2 : kept s2 = kept s := (kept_getD fun t h => kept_takeFwRegion _ _ _ h).trans h1
  have h3 : kept s3 = kept s := (kept_getD fun t h => kept_takeFwRegion _ _ _ h).trans h2
  clear_value s1 s2 s3
  split
  next a s4 ha =>
  have h4 : kept s4 = kept s := by rw [← h3, ← kept_State_draw s3, ha]
  split
  next b s5 hb =>
  have h5 : kept s5 = kept s := by rw [← h4, ← kept_State_draw s4, hb]
  split
  next c s6 hc =>
  have h6 : kept s6 = kept s := by rw [← h5, ← kept_State_draw s5, hc]
  extract_lets +onlyGivenNames w1 w2 w3 s7 w4 s8 s9 s10 w5 s11 s12
  have h7 : kept s7 = kept s := by rw [kept_units, h6]
  have h8 : kept s8 = kept s := by
    simp only [s8]
    split
    next h => rw [kept_units, kept_applySize _ _ h, h7]
    · rw [kept_units, h7]
  have h9 : kept s9 = kept s := by rw [kept_restoreVault, h8]
  clear_value s7 s8 s9
  have h10 : kept s10 = kept s := by
    refine (kept_foldl _ (fun t n => ?_) _ s9).trans h9
    rw [apply_ite kept, kept_makeSess, ite_self]
  have h12 : kept s12 = kept s := by
    refine (kept_foldl _ (fun t p => ?_) _ _).trans ((kept_powerGood s11 1).trans ?_)
    · rw [kept_trainPort, kept_State_setPort]
    · rw [kept_units, h10]
  refine (kept_foldl _ (fun t p => ?_) _ s12).trans h12
  rw [apply_ite kept, kept_State_setEth, kept_relight, ite_self]

@[simp] theorem kept_regionsStarted (s : State) (bad : List ℕ) (ms : ℕ) : kept (regionsStarted s bad ms) = kept s := by
  fun_cases regionsStarted s bad ms <;> simp +zetaDelta only [kept_finishStart, kept_recover, kept_warmClear, kept_units]

@[simp] theorem kept_startDies (s : State) (failed : List ℕ) (late : List ℕ) (bad : List ℕ) (ms : ℕ) :
    kept (startDies s failed late bad ms) = kept s := by
  unfold startDies
  dsimp only
  (repeat' split) <;> simp (disch := (intro _ _; simp only [kept_startRetire, kept_startRegion])) only [kept_State_count, kept_recover,
      kept_regionsStarted, kept_units, kept_secUnit, kept_foldl]

@[simp] theorem kept_startFromBanks (s : State) (failed : List ℕ) (late : List ℕ) (bad : List ℕ) (ms : ℕ) :
    kept (startFromBanks s failed late bad ms) = kept s := by
  fun_cases startFromBanks s failed late bad ms <;> simp (disch := assumption) only [kept_bootBank, kept_recover, kept_startDies]

@[simp] theorem kept_startKeys (s : State) : kept (startKeys s) = kept s := by
  unfold startKeys
  dsimp only
  (repeat' split) <;> simp only [kept_State_entropy, kept_secUnit]

@[simp] theorem kept_startState (s : State) : kept (startState s) = kept s := rfl

@[simp] theorem kept_execFundamentalReset (vinCycled : Bool) (failed : List ℕ) (late : List ℕ) (bad : List ℕ) (ms : ℕ) (s : State) :
    outKept (execFundamentalReset vinCycled failed late bad ms s) = some (kept s) := by
  fun_cases execFundamentalReset vinCycled failed late bad ms s <;> simp +zetaDelta only [kept_next, kept_recover, kept_startFromBanks,
      kept_startKeys, kept_startState, apply_ite kept, ite_self]

@[simp] theorem kept_dropRegionAtStart (s : State) (r : ℕ) : kept (dropRegionAtStart s r) = kept s := by
  unfold dropRegionAtStart
  simp (disch := (intro _ _; simp only [kept_retireCluster, kept_markRetired])) only [kept_State_trouble, kept_State_setRgn, kept_stackOff,
      kept_State_note, kept_units, kept_foldl]

@[simp] theorem kept_execRegionStartTimeout (region : ℕ) (bad : List ℕ) (ms : ℕ) (s : State) :
    outKept (execRegionStartTimeout region bad ms s) = some (kept s) := by
  fun_cases execRegionStartTimeout region bad ms s <;> simp only [kept_next, kept_regionsStarted, kept_dropRegionAtStart]

@[simp] theorem kept_execMapRebuildDone (failed : List ℕ) (s : State) : outKept (execMapRebuildDone failed s) = some (kept s) := by
  unfold execMapRebuildDone
  split
  · rfl
  extract_lets +onlyGivenNames w s1 s2
  have h1 : kept s1 = kept s := (kept_foldl _ (fun t u => kept_startRetire t u) _ _).trans (kept_units ..)
  have h2 : kept s2 = kept s := by
    refine (kept_foldl _ (fun t r => ?_) _ s1).trans h1
    dsimp only
    rw [kept_units, kept_State_setRgn]
  rw [outKept_next, kept_warmReset, kept_units, kept_units, h2]

@[simp] theorem kept_execMgmtBusRead (offset : W32) (wide : Bool) (s : State) : outKept (execMgmtBusRead offset wide s) = some (kept s) := by
  fun_cases execMgmtBusRead offset wide s
  simp only [kept_next, kept_State_emit, kept_guarded]

@[simp] theorem kept_execMgmtNodeWrite (pecOk : Bool) (data : W32) (s : State) : outKept (execMgmtNodeWrite pecOk data s) = some (kept s) := by
  fun_cases execMgmtNodeWrite pecOk data s <;> simp +zetaDelta only [kept_next, kept_units, apply_ite kept, ite_self]

@[simp] theorem kept_execMgmtSizeWrite (pecOk : Bool) (data : W32) (s : State) : outKept (execMgmtSizeWrite pecOk data s) = some (kept s) := by
  fun_cases execMgmtSizeWrite pecOk data s <;> simp only [kept_next, kept_units]

@[simp] theorem kept_execSystemSizeApply (s : State) : outKept (execSystemSizeApply s) = some (kept s) := by
  fun_cases execSystemSizeApply s <;> simp only [kept_next, kept_trySize]

@[simp] theorem kept_execMgmtWarmWrite (pecOk : Bool) (data : W32) (s : State) : outKept (execMgmtWarmWrite pecOk data s) = some (kept s) := by
  fun_cases execMgmtWarmWrite pecOk data s <;> simp only [kept_next, kept_umberOp]

@[simp] theorem kept_execMgmtStartWrite (pecOk : Bool) (data : W32) (s : State) : outKept (execMgmtStartWrite pecOk data s) = some (kept s) := by
  fun_cases execMgmtStartWrite pecOk data s <;> simp only [kept_next, kept_units]

@[simp] theorem kept_execMainInputLost (s : State) : outKept (execMainInputLost s) = some (kept s) := by
  unfold execMainInputLost
  simp only [kept_next, kept_umberOp, kept_units]

@[simp] theorem kept_execStandbyLost (s : State) : outKept (execStandbyLost s) = some (kept s) := by
  unfold execStandbyLost
  simp only [kept_next, kept_umberOp]

@[simp] theorem kept_emergency (s : State) (f : Limits → Limits) : kept (emergency s f) = kept s := rfl

@[simp] theorem kept_execJunctionOvertemp (s : State) : outKept (execJunctionOvertemp s) = some (kept s) := by
  unfold execJunctionOvertemp
  simp only [kept_next, kept_emergency]

@[simp] theorem kept_execJunctionShutdownTemp (s : State) : outKept (execJunctionShutdownTemp s) = some (kept s) := by
  unfold execJunctionShutdownTemp
  simp only [kept_next, kept_umberOp, kept_emergency]

@[simp] theorem kept_execFlowLow (s : State) : outKept (execFlowLow s) = some (kept s) := by
  unfold execFlowLow
  simp only [kept_next, kept_emergency]

@[simp] theorem kept_execFlowCritical (s : State) : outKept (execFlowCritical s) = some (kept s) := by
  unfold execFlowCritical
  simp only [kept_next, kept_umberOp, kept_emergency]

@[simp] theorem kept_execInletHigh (s : State) : outKept (execInletHigh s) = some (kept s) := by
  unfold execInletHigh
  simp only [kept_next, kept_emergency]

@[simp] theorem kept_execInletCritical (s : State) : outKept (execInletCritical s) = some (kept s) := by
  unfold execInletCritical
  simp only [kept_next, kept_umberOp, kept_emergency]

@[simp] theorem kept_execVinOutOfRange (s : State) : outKept (execVinOutOfRange s) = some (kept s) := by
  unfold execVinOutOfRange
  simp only [kept_next, kept_emergency]

@[simp] theorem kept_execVinOvervolt (s : State) : outKept (execVinOvervolt s) = some (kept s) := by
  unfold execVinOvervolt
  simp only [kept_next, kept_umberOp, kept_units]

@[simp] theorem kept_execPowerCap (s : State) : outKept (execPowerCap s) = some (kept s) := by
  unfold execPowerCap
  simp only [kept_next, kept_emergency]

@[simp] theorem kept_execEmergencyClear (s : State) : outKept (execEmergencyClear s) = some (kept s) := by
  unfold execEmergencyClear
  simp only [kept_next, kept_units]

@[simp] theorem kept_execSeedWrite (cluster : ℕ) (half : Option Bool) (value : W64) (s : State) :
    outKept (execSeedWrite cluster half value s) = some (kept s) := by
  fun_cases execSeedWrite cluster half value s
  simp only [kept_next, kept_State_setCl]

@[simp] theorem kept_execHostPortLeavesReset (port : ℕ) (width : ℕ) (gen : ℕ) (flit : Bool) (s : State) :
    outKept (execHostPortLeavesReset port width gen flit s) = some (kept s) := by
  fun_cases execHostPortLeavesReset port width gen flit s <;> simp only [kept_next, kept_State_setHport]

@[simp] theorem kept_execContinuousHealthTestFailure (s : State) : outKept (execContinuousHealthTestFailure s) = some (kept s) := by
  unfold execContinuousHealthTestFailure
  extract_lets +onlyGivenNames w x s1
  have h1 : kept s1 = kept s := (kept_secUnit w ..).trans (kept_State_count ..)
  rw [outKept_next, kept_foldl _ (fun t p => kept_finish ..), h1]

@[simp] theorem kept_execPlannedMoveHandover (engine : ℕ) (s : State) : outKept (execPlannedMoveHandover engine s) = some (kept s) := by
  fun_cases execPlannedMoveHandover engine s <;> simp +zetaDelta only [kept_next, kept_lifeLog, kept_takeHalf, kept_State_setCart, kept_retireEmitter]

@[simp] theorem kept_execUmberRestartEnd (s : State) : outKept (execUmberRestartEnd s) = some (kept s) := by
  unfold execUmberRestartEnd
  (repeat' split) <;> simp (disch := (intro _ _; simp only [kept_umberDo])) only [kept_units, outKept_next, kept_foldl]

@[simp] theorem kept_execQueueBecomesEligible (port : ℕ) (s : State) : outKept (execQueueBecomesEligible port s) = some (kept s) := by
  unfold execQueueBecomesEligible
  simp only [kept_next, kept_transmit]

@[simp] theorem kept_execTcpSegmentArrival (session : ℕ) (s : State) : outKept (execTcpSegmentArrival session s) = some (kept s) := by
  unfold execTcpSegmentArrival
  simp only [kept_next, kept_safSettle, kept_checkFin, kept_nextSeg]

@[simp] theorem kept_execTcpRetransmissionTimeout (session : ℕ) (giveUp : Bool) (s : State) :
    outKept (execTcpRetransmissionTimeout session giveUp s) = some (kept s) := by
  fun_cases execTcpRetransmissionTimeout session giveUp s <;> simp only [kept_next, kept_safSettle, kept_failSess, kept_sendSeg]

@[simp] theorem kept_execHandshakeStallTimeout (unit : ℕ) (s : State) : outKept (execHandshakeStallTimeout unit s) = some (kept s) := by
  fun_cases execHandshakeStallTimeout unit s <;> simp only [kept_next, kept_State_trouble]

@[simp] theorem kept_execFirmwareCwndUpdate (conn : ℕ) (cwnd : ℕ) (rate : ℕ) (s : State) :
    outKept (execFirmwareCwndUpdate conn cwnd rate s) = some (kept s) := by
  fun_cases execFirmwareCwndUpdate conn cwnd rate s <;> simp +zetaDelta only [kept_next, kept_State_setConn, kept_units]

@[simp] theorem kept_execTimeAwareSystemSteering (port : ℕ) (step : W64) (rate : Option W32) (s : State) :
    outKept (execTimeAwareSystemSteering port step rate s) = some (kept s) := by
  unfold execTimeAwareSystemSteering
  (repeat' split) <;> simp only [kept_next, kept_stepTs, kept_tickShapers, kept_startList, kept_State_setReg]

end Sys2Proof.Machine
end

section
/-! PROOFS. What burns the fuses: SVN_COMMIT, LC_TRANSIT and the factory's sequence, and that they burn by the rules. -/

namespace Sys2Proof.Machine

open Sys2Proof

/-- From `s` to `t` fuses at most burn, as R480, R481 and R487 have it. -/
structure FusesBurn (s t : State) : Prop where
  legal : FusesLegal t
  moves : t.sec.lc = s.sec.lc ∨ lcMoves s.sec.lc t.sec.lc = true
  svn : s.sec.svnMin ≤ t.sec.svnMin
  owners : s.sec.owners <+: t.sec.owners
  fresh : t.sec.owners ≠ s.sec.owners → s.sec.lc = 2 ∧ t.sec.lc = 3 ∧ t.sec.owners.length = s.sec.owners.length + 1

/-- What every command keeps: the waiting commands, and of legal fuses what is burned. -/
structure Answers (s t : State) : Prop where
  pending : t.pending = s.pending
  fuses : FusesLegal s → FusesBurn s t

theorem kept_iff {s t : State} : kept t = kept s ↔
    t.pending = s.pending ∧ t.sec.lc = s.sec.lc ∧ t.sec.svnMin = s.sec.svnMin ∧ t.sec.owners = s.sec.owners := by
  simp only [kept, Prod.mk.injEq]

/-- The lifecycle state stays or makes a transition, and SVN_MIN does not fall, while the owner slots stay. -/
theorem FusesBurn.of_owners_eq {s t : State} (hf : FusesLegal s) (hm : t.sec.lc = s.sec.lc ∨ (lcMoves s.sec.lc t.sec.lc = true ∧ t.sec.lc ≤ 5))
    (hv : s.sec.svnMin ≤ t.sec.svnMin) (ho : t.sec.owners = s.sec.owners) : FusesBurn s t where
  legal := ⟨hm.elim (fun h => h ▸ hf.1) And.right, ho ▸ hf.2⟩
  moves := hm.imp_right And.left
  svn := hv
  owners := ho ▸ List.prefix_rfl
  fresh hne := absurd ho hne

theorem Answers.of_kept {s t : State} (h : kept t = kept s) : Answers s t := by
  obtain ⟨hp, hl, hv, ho⟩ := kept_iff.mp h
  exact ⟨hp, fun hf => .of_owners_eq hf (.inl hl) hv.ge ho⟩

/-- `Answers` looks at nothing else of the two states. -/
theorem Answers.congr {s s' t t' : State} (h : Answers s t) (hs : kept s' = kept s) (ht : kept t' = kept t) : Answers s' t' := by
  obtain ⟨hp, hl, hv, ho⟩ := kept_iff.mp hs
  obtain ⟨hp', hl', hv', ho'⟩ := kept_iff.mp ht
  refine ⟨by rw [hp', hp, h.pending], fun hf => ?_⟩
  have hb := h.fuses (by rwa [FusesLegal, ← hl, ← ho])
  exact {
    legal := by rw [FusesLegal, hl', ho']; exact hb.legal
    moves := by rw [hl, hl']; exact hb.moves
    svn := by rw [hv, hv']; exact hb.svn
    owners := by rw [ho, ho']; exact hb.owners
    fresh := by rw [hl, hl', ho, ho']; exact hb.fresh }

/-- The transitions of R481, as alternatives. -/
theorem lcMoves_iff {a b : Nat} : lcMoves a b = true ↔
    (a = 0 ∧ b = 1) ∨ (a = 1 ∧ b = 2) ∨ (a = 2 ∧ b = 3) ∨ (a = 3 ∧ b = 4) ∨ (a = 4 ∧ b = 2) ∨ (a < 5 ∧ b = 5) := by
  simp only [lcMoves, List.contains_eq_mem, List.mem_cons, Prod.mk.injEq, List.not_mem_nil, or_false, decide_eq_true_eq]
  omega

/-- ENDED is final. -/
theorem FusesBurn.ended {s t : State} (h : FusesBurn s t) (h5 : s.sec.lc = 5) : t.sec.lc = 5 := by
  have hm := h.moves
  rw [lcMoves_iff] at hm
  omega

/-- What `transit` leaves of the fuses. -/
theorem transit_fuses (s : State) (n : Nat) (pk : List Byte) :
    kept (transit s n pk) = (s.pending, n, s.sec.svnMin, if n = 3 then s.sec.owners ++ [sha256 pk] else s.sec.owners) := by
  unfold transit
  extract_lets +onlyGivenNames x s1
  have h1 : kept s1 = kept s := by
    simp only [s1]
    split
    · rw [kept_fullErase, kept_secUnit]
    · rfl
  obtain ⟨hp, -, hv, ho⟩ := kept_iff.mp h1
  clear_value s1
  simp only [kept, hp, hv, ho]

/-- A transition of the lifecycle state that uses no owner slot. -/
theorem answers_of_lc {s t : State} (n : Nat) (hp : t.pending = s.pending) (hl : t.sec.lc = n) (hm : FusesLegal s → lcMoves s.sec.lc n = true)
    (hv : t.sec.svnMin = s.sec.svnMin) (ho : t.sec.owners = s.sec.owners) : Answers s t := by
  subst hl
  refine ⟨hp, fun hf => .of_owners_eq hf (.inr ⟨hm hf, ?_⟩) hv.ge ho⟩
  have hmv := lcMoves_iff.mp (hm hf)
  omega

theorem transit_answers (s : State) (n : Nat) (pk : List Byte) (hm : FusesLegal s → lcMoves s.sec.lc n = true)
    (hroom : n = 3 → s.sec.owners.length < 5) : Answers s (transit s n pk) := by
  have hk := transit_fuses s n pk
  simp only [kept, Prod.mk.injEq] at hk
  obtain ⟨hp, hl, hv, ho⟩ := hk
  by_cases h3 : n = 3
  · rw [if_pos h3] at ho
    have hlen : (transit s n pk).sec.owners.length = s.sec.owners.length + 1 := by rw [ho, List.length_append, List.length_singleton]
    refine ⟨hp, fun hf => ?_⟩
    have hmv := lcMoves_iff.mp (hm hf)
    exact {
      legal := ⟨by omega, by rw [hlen]; exact hroom h3⟩
      moves := .inr (by rw [hl]; exact hm hf)
      svn := hv.ge
      owners := by rw [ho]; exact List.prefix_append ..
      fresh := fun _ => ⟨by omega, by omega, hlen⟩ }
  · rw [if_neg h3] at ho
    exact answers_of_lc n hp hl hm hv ho

/-- R483: there is a key only for a transition of R481, and to DEPLOYED only where an owner slot is free. -/
theorem transitKey_some {s : State} {n : Nat} {pk k : List Byte} (h : transitKey s n pk = some k) :
    (FusesLegal s → lcMoves s.sec.lc n = true) ∧ (n = 3 → s.sec.owners.length < 5) := by
  unfold transitKey at h
  simp only [FusesLegal, lcMoves_iff]
  split at h
  case h_1 =>
    split at h
    · omega
    · cases h
  case h_2 => omega
  case h_3 =>
    split at h
    · omega
    · cases h
  case h_4 => omega
  case h_5 => cases h
  case h_6 h5 =>
    have hne : s.sec.lc ≠ 5 := h5
    omega
  case h_7 => cases h

theorem tokenOk_moves {s : State} {tok : List Byte} (h : tokenOk s tok = true) :
    (FusesLegal s → lcMoves s.sec.lc (leAt tok 4 1 / 16) = true) ∧ (leAt tok 4 1 / 16 = 3 → s.sec.owners.length < 5) := by
  unfold tokenOk at h
  obtain ⟨-, hk⟩ := Bool.and_eq_true_iff.mp h
  split at hk
  next k hs => exact transitKey_some hs
  · contradiction

section
variable {body : FwBody} {s : State}

/-- A command's run, where its body answers every state with the fuses of `s`. -/
theorem runCmd_answers (hbody : ∀ t c b, kept t = kept s → Answers s (body t c b).1) {t : State} (ht : kept t = kept s)
    (k : MboxId) (w : W64) (op : Nat) (hasBlk : Bool) (blk : CmdBlock) : Answers s (runCmd t k w op hasBlk blk body) := by
  unfold runCmd
  extract_lets +onlyGivenNames p c
  split
  · exact .of_kept (by rw [kept_holdReply, ht])
  extract_lets +onlyGivenNames chk
  clear_value chk
  split
  · extract_lets r located
    exact .of_kept (by rw [kept_holdReply, apply_ite kept, kept_writeBack, ite_self, ht])
  extract_lets +onlyGivenNames w1 t1
  have hb := hbody t1 c blk.bits ((kept_units ..).trans ht)
  split
  next t2 h => rwa [h] at hb
  next t2 r h =>
    rw [h] at hb
    split
    · exact hb.congr rfl (kept_finishCmd ..)
    · exact hb.congr rfl (by rw [kept_holdReply, kept_units])

theorem fwCommand_answers (hbody : ∀ t c b, kept t = kept s → Answers s (body t c b).1) (op : Nat) (hasBlk : Bool) (k : MboxId) (blk : CmdBlock) :
    Answers s (fwCommand op hasBlk k blk body s) := by
  unfold fwCommand fwCommandOn
  split
  · split
    · exact runCmd_answers hbody (kept_units ..) ..
    · exact .of_kept rfl
  · extract_lets +onlyGivenNames w
    split
    · exact .of_kept rfl
    extract_lets +onlyGivenNames s1
    have h1 : kept s1 = kept s := kept_takeWord ..
    split
    · exact runCmd_answers hbody h1 ..
    split
    · exact .of_kept (by rw [kept_holdReply, h1])
    · exact .of_kept (by rw [kept_units, h1])
end

/-- An outcome that goes on with the waiting commands and the fuses as they may be. -/
def Answered (s : State) (o : Host.Outcome State Fault Refusal) : Prop := ∃ t, o = .next t ∧ Answers s t

theorem answered_of_kept {s : State} {o : Host.Outcome State Fault Refusal} (h : outKept o = some (kept s)) : Answered s o := by
  cases o with
  | next t => exact ⟨t, rfl, .of_kept (Option.some.inj h)⟩
  | _ => cases h

theorem execSvnCommit_answered (pair : MboxId) (s : State) : Answered s (execSvnCommit pair s) := by
  refine ⟨_, rfl, fwCommand_answers (fun t c b ht => ?_) ..⟩
  split
  · exact .of_kept ht
  split
  · exact .of_kept ht
  extract_lets +onlyGivenNames n m x t1
  obtain ⟨hp, hl, hv, ho⟩ := kept_iff.mp ht
  have h1 : Answers s t1 := ⟨hp, fun hf => .of_owners_eq hf (.inl hl) (hv ▸ le_max_left ..) ho⟩
  split
  · exact h1.congr rfl (kept_markBank ..)
  · exact h1

theorem execLcTransit_answered (pair : MboxId) (blk : CmdBlock) (token : Option (List Byte)) (s : State) :
    Answered s (execLcTransit pair blk token s) := by
  refine ⟨_, rfl, (fwCommand_answers (fun t c b ht => ?_) ..).congr rfl (kept_safSettle _)⟩
  extract_lets +onlyGivenNames off
  split
  · exact .of_kept ht
  split
  · exact .of_kept ht
  split
  · exact .of_kept ht
  split
  · exact .of_kept ht
  split
  · exact .of_kept ht
  extract_lets +onlyGivenNames tok x spent
  have hs : kept spent = kept t := kept_secUnit ..
  split
  · exact .of_kept (hs.trans ht)
  next hok =>
    obtain ⟨hm, hroom⟩ := tokenOk_moves (by simpa using hok)
    exact (transit_answers spent _ _ hm hroom).congr ((hs.trans ht).symm) rfl

theorem execFactoryJtagSequence_answered (cert : List Byte) (s : State) : Answered s (execFactoryJtagSequence cert s) := by
  unfold execFactoryJtagSequence
  split
  next h0 => exact ⟨_, rfl, answers_of_lc 1 rfl rfl (fun _ => by rw [h0]; rfl) rfl rfl⟩
  split
  next h1 => exact ⟨_, rfl, answers_of_lc 2 rfl rfl (fun _ => by rw [h1]; rfl) rfl rfl⟩
  · exact answered_of_kept rfl

end Sys2Proof.Machine
end

section
/-! PROOFS. Every command is answered, and fuses only burn. -/

namespace Sys2Proof.Machine

open Sys2Proof

/-- Every command is answered: row by row, by what its `exec` keeps. -/
theorem exec_answered (i : Instr) (s : State) : Answered s (exec i s) := by
  cases i with
  | unitFault => exact answered_of_kept (kept_execUnitFault ..)
  | clusterReset => exact answered_of_kept (kept_execClusterReset ..)
  | clusterResetDone => exact answered_of_kept (kept_execClusterResetDone ..)
  | regionReset => exact answered_of_kept (kept_execRegionReset ..)
  | regionResetDone => exact answered_of_kept (kept_execRegionResetDone ..)
  | regionResetTimeout => exact answered_of_kept (kept_execRegionResetTimeout ..)
  | clusterPowerUp => exact answered_of_kept (kept_execClusterPowerUp ..)
  | clusterGate => exact answered_of_kept (kept_execClusterGate ..)
  | worldChange => exact answered_of_kept (kept_execWorldChange ..)
  | scrubRead => exact answered_of_kept (kept_execScrubRead ..)
  | refreshRound => exact answered_of_kept (kept_execRefreshRound ..)
  | pageZeroingDone => exact answered_of_kept (kept_execPageZeroingDone ..)
  | dieRetirement => exact answered_of_kept (kept_execDieRetirement ..)
  | pageMigrated => exact answered_of_kept (kept_execPageMigrated ..)
  | chCreateWorkRing => exact answered_of_kept (kept_execChCreateWorkRing ..)
  | chCreateCompletionRing => exact answered_of_kept (kept_execChCreateCompletionRing ..)
  | chCreateConnection => exact answered_of_kept (kept_execChCreateConnection ..)
  | chCreateStorageQueue => exact answered_of_kept (kept_execChCreateStorageQueue ..)
  | chCreateDispatchQueue => exact answered_of_kept (kept_execChCreateDispatchQueue ..)
  | chCreateReductionGroup => exact answered_of_kept (kept_execChCreateReductionGroup ..)
  | chCreateOptimizerProgram => exact answered_of_kept (kept_execChCreateOptimizerProgram ..)
  | chCreateMemoryRegion => exact answered_of_kept (kept_execChCreateMemoryRegion ..)
  | chCreateKeySlot => exact answered_of_kept (kept_execChCreateKeySlot ..)
  | chCreateCounterSet => exact answered_of_kept (kept_execChCreateCounterSet ..)
  | chCreateTriggerList => exact answered_of_kept (kept_execChCreateTriggerList ..)
  | chModifyCompletionRing => exact answered_of_kept (kept_execChModifyCompletionRing ..)
  | chModifyMemoryRegion => exact answered_of_kept (kept_execChModifyMemoryRegion ..)
  | chModifyDispatchQueue => exact answered_of_kept (kept_execChModifyDispatchQueue ..)
  | chModifyReductionGroup => exact answered_of_kept (kept_execChModifyReductionGroup ..)
  | chModifyOptimizerProgram => exact answered_of_kept (kept_execChModifyOptimizerProgram ..)
  | chModifyConnection => exact answered_of_kept (kept_execChModifyConnection ..)
  | chModifyStorageQueue => exact answered_of_kept (kept_execChModifyStorageQueue ..)
  | chModifyFixedClass => exact answered_of_kept (kept_execChModifyFixedClass ..)
  | chDestroy => exact answered_of_kept (kept_execChDestroy ..)
  | chDestroyDone => exact answered_of_kept (kept_execChDestroyDone ..)
  | workDoorbell => exact answered_of_kept (kept_execWorkDoorbell ..)
  | completionDoorbell => exact answered_of_kept (kept_execCompletionDoorbell ..)
  | descriptorFetch => exact answered_of_kept (kept_execDescriptorFetch ..)
  | descriptorReadError => exact answered_of_kept (kept_execDescriptorReadError ..)
  | descriptorStart => exact answered_of_kept (kept_execDescriptorStart ..)
  | countWaitSatisfied => exact answered_of_kept (kept_execCountWaitSatisfied ..)
  | nop => exact answered_of_kept (kept_execNop ..)
  | ctrAdd => exact answered_of_kept (kept_execCtrAdd ..)
  | ctrSet => exact answered_of_kept (kept_execCtrSet ..)
  | codec => exact answered_of_kept (kept_execCodec ..)
  | codecJobDone => exact answered_of_kept (kept_execCodecJobDone ..)
  | modTimeExpiry => exact answered_of_kept (kept_execModTimeExpiry ..)
  | triggerEntryRun => exact answered_of_kept (kept_execTriggerEntryRun ..)
  | clAssign => exact answered_of_kept (kept_execClAssign ..)
  | reclaimGraceEnd => exact answered_of_kept (kept_execReclaimGraceEnd ..)
  | clRun => exact answered_of_kept (kept_execClRun ..)
  | clStop => exact answered_of_kept (kept_execClStop ..)
  | matmul => exact answered_of_kept (kept_execMatmul ..)
  | gfMatmul => exact answered_of_kept (kept_execGfMatmul ..)
  | engineAccept => exact answered_of_kept (kept_execEngineAccept ..)
  | indigoJobDone => exact answered_of_kept (kept_execIndigoJobDone ..)
  | residueMismatch => exact answered_of_kept (kept_execResidueMismatch ..)
  | arrayPatternTestDone => exact answered_of_kept (kept_execArrayPatternTestDone ..)
  | dispatch => exact answered_of_kept (kept_execDispatch ..)
  | dispatchHoldEnd => exact answered_of_kept (kept_execDispatchHoldEnd ..)
  | dispatchDone => exact answered_of_kept (kept_execDispatchDone ..)
  | returnRows => exact answered_of_kept (kept_execReturnRows ..)
  | returnDone => exact answered_of_kept (kept_execReturnDone ..)
  | combine => exact answered_of_kept (kept_execCombine ..)
  | combineStart => exact answered_of_kept (kept_execCombineStart ..)
  | combineTimeout => exact answered_of_kept (kept_execCombineTimeout ..)
  | allreduce => exact answered_of_kept (kept_execAllreduce ..)
  | reduceScatter => exact answered_of_kept (kept_execReduceScatter ..)
  | allgather => exact answered_of_kept (kept_execAllgather ..)
  | collectiveHoldEnd => exact answered_of_kept (kept_execCollectiveHoldEnd ..)
  | collectiveTimeout => exact answered_of_kept (kept_execCollectiveTimeout ..)
  | optStep => exact answered_of_kept (kept_execOptStep ..)
  | wpush => exact answered_of_kept (kept_execWpush ..)
  | parEpoch => exact answered_of_kept (kept_execParEpoch ..)
  | epochCommit => exact answered_of_kept (kept_execEpochCommit ..)
  | pgJoin => exact answered_of_kept (kept_execPgJoin ..)
  | pgJoinDone => exact answered_of_kept (kept_execPgJoinDone ..)
  | pgJoinTimeout => exact answered_of_kept (kept_execPgJoinTimeout ..)
  | pgLeave => exact answered_of_kept (kept_execPgLeave ..)
  | pgRebuild => exact answered_of_kept (kept_execPgRebuild ..)
  | pgRebuildDone => exact answered_of_kept (kept_execPgRebuildDone ..)
  | connectTimer => exact answered_of_kept (kept_execConnectTimer ..)
  | connectingTimeout => exact answered_of_kept (kept_execConnectingTimeout ..)
  | connect => exact answered_of_kept (kept_execConnect ..)
  | connectAck => exact answered_of_kept (kept_execConnectAck ..)
  | close => exact answered_of_kept (kept_execClose ..)
  | probe => exact answered_of_kept (kept_execProbe ..)
  | probeAck => exact answered_of_kept (kept_execProbeAck ..)
  | keepaliveTimer => exact answered_of_kept (kept_execKeepaliveTimer ..)
  | write => exact answered_of_kept (kept_execWrite ..)
  | writeInc => exact answered_of_kept (kept_execWriteInc ..)
  | writeTrig => exact answered_of_kept (kept_execWriteTrig ..)
  | read => exact answered_of_kept (kept_execRead ..)
  | send => exact answered_of_kept (kept_execSend ..)
  | fetchAdd => exact answered_of_kept (kept_execFetchAdd ..)
  | cmpSwap => exact answered_of_kept (kept_execCmpSwap ..)
  | recv => exact answered_of_kept (kept_execRecv ..)
  | packetSend => exact answered_of_kept (kept_execPacketSend ..)
  | dataPacket => exact answered_of_kept (kept_execDataPacket ..)
  | ackPacket => exact answered_of_kept (kept_execAckPacket ..)
  | nackPacket => exact answered_of_kept (kept_execNackPacket ..)
  | readReq => exact answered_of_kept (kept_execReadReq ..)
  | readResp => exact answered_of_kept (kept_execReadResp ..)
  | atomicReq => exact answered_of_kept (kept_execAtomicReq ..)
  | atomicResp => exact answered_of_kept (kept_execAtomicResp ..)
  | ackTimer => exact answered_of_kept (kept_execAckTimer ..)
  | rtoExpiry => exact answered_of_kept (kept_execRtoExpiry ..)
  | noprogExpiry => exact answered_of_kept (kept_execNoprogExpiry ..)
  | contextMissBackoffEnd => exact answered_of_kept (kept_execContextMissBackoffEnd ..)
  | parkTimeout => exact answered_of_kept (kept_execParkTimeout ..)
  | contextArrived => exact answered_of_kept (kept_execContextArrived ..)
  | carmSpill => exact answered_of_kept (kept_execCarmSpill ..)
  | carmNodeLost => exact answered_of_kept (kept_execCarmNodeLost ..)
  | ccProfCommit => exact answered_of_kept (kept_execCcProfCommit ..)
  | apAssign => exact answered_of_kept (kept_execApAssign ..)
  | apRetrain => exact answered_of_kept (kept_execApRetrain ..)
  | apEnable => exact answered_of_kept (kept_execApEnable ..)
  | trainingRetryTimer => exact answered_of_kept (kept_execTrainingRetryTimer ..)
  | laneTestDone => exact answered_of_kept (kept_execLaneTestDone ..)
  | caps => exact answered_of_kept (kept_execCaps ..)
  | trainingTimeout => exact answered_of_kept (kept_execTrainingTimeout ..)
  | standbyLaneRetest => exact answered_of_kept (kept_execStandbyLaneRetest ..)
  | transactionFlit => exact answered_of_kept (kept_execTransactionFlit ..)
  | idleFlit => exact answered_of_kept (kept_execIdleFlit ..)
  | nak => exact answered_of_kept (kept_execNak ..)
  | nakRepeatTimer => exact answered_of_kept (kept_execNakRepeatTimer ..)
  | laneSwap => exact answered_of_kept (kept_execLaneSwap ..)
  | laneSwapAck => exact answered_of_kept (kept_execLaneSwapAck ..)
  | laneFecWindow => exact answered_of_kept (kept_execLaneFecWindow ..)
  | laneLoss => exact answered_of_kept (kept_execLaneLoss ..)
  | fastRetrainDone => exact answered_of_kept (kept_execFastRetrainDone ..)
  | flitTransmit => exact answered_of_kept (kept_execFlitTransmit ..)
  | mwr => exact answered_of_kept (kept_execMwr ..)
  | mrd => exact answered_of_kept (kept_execMrd ..)
  | cpl => exact answered_of_kept (kept_execCpl ..)
  | cplErr => exact answered_of_kept (kept_execCplErr ..)
  | apCtrAdd => exact answered_of_kept (kept_execApCtrAdd ..)
  | ctrRd => exact answered_of_kept (kept_execCtrRd ..)
  | apFence => exact answered_of_kept (kept_execApFence ..)
  | apPost => exact answered_of_kept (kept_execApPost ..)
  | apPostStart => exact answered_of_kept (kept_execApPostStart ..)
  | apCplTimeout => exact answered_of_kept (kept_execApCplTimeout ..)
  | partnerPresence => exact answered_of_kept (kept_execPartnerPresence ..)
  | ethPortCfgWrite => exact answered_of_kept (kept_execEthPortCfgWrite ..)
  | ethLinkUp => exact answered_of_kept (kept_execEthLinkUp ..)
  | ethLinkDown => exact answered_of_kept (kept_execEthLinkDown ..)
  | preemptVerify => exact answered_of_kept (kept_execPreemptVerify ..)
  | tsAdjWrite => exact answered_of_kept (kept_execTsAdjWrite ..)
  | tsRateWrite => exact answered_of_kept (kept_execTsRateWrite ..)
  | tsLatchRead => exact answered_of_kept (kept_execTsLatchRead ..)
  | frameReceive => exact answered_of_kept (kept_execFrameReceive ..)
  | emitterBiasCheck => exact answered_of_kept (kept_execEmitterBiasCheck ..)
  | emitterFailure => exact answered_of_kept (kept_execEmitterFailure ..)
  | cartRead => exact answered_of_kept (kept_execCartRead ..)
  | cartRelease => exact answered_of_kept (kept_execCartRelease ..)
  | cartReleaseDone => exact answered_of_kept (kept_execCartReleaseDone ..)
  | latchOpen => exact answered_of_kept (kept_execLatchOpen ..)
  | latchClose => exact answered_of_kept (kept_execLatchClose ..)
  | cartVerifyDone => exact answered_of_kept (kept_execCartVerifyDone ..)
  | cartHourlyLog => exact answered_of_kept (kept_execCartHourlyLog ..)
  | cartDailySample => exact answered_of_kept (kept_execCartDailySample ..)
  | madderParse => exact answered_of_kept (kept_execMadderParse ..)
  | flowLookupResult => exact answered_of_kept (kept_execFlowLookupResult ..)
  | flowLookupTimeout => exact answered_of_kept (kept_execFlowLookupTimeout ..)
  | ruleWrite => exact answered_of_kept (kept_execRuleWrite ..)
  | ruleInvalidate => exact answered_of_kept (kept_execRuleInvalidate ..)
  | ruleRead => exact answered_of_kept (kept_execRuleRead ..)
  | ruleCmdDone => exact answered_of_kept (kept_execRuleCmdDone ..)
  | flowTable => exact answered_of_kept (kept_execFlowTable ..)
  | flowTableSwitch => exact answered_of_kept (kept_execFlowTableSwitch ..)
  | flowAdd => exact answered_of_kept (kept_execFlowAdd ..)
  | flowDel => exact answered_of_kept (kept_execFlowDel ..)
  | weldEnqueue => exact answered_of_kept (kept_execWeldEnqueue ..)
  | transmitDecision => exact answered_of_kept (kept_execTransmitDecision ..)
  | shaperCommit => exact answered_of_kept (kept_execShaperCommit ..)
  | gateListChange => exact answered_of_kept (kept_execGateListChange ..)
  | gateListStart => exact answered_of_kept (kept_execGateListStart ..)
  | gateEntryAdvance => exact answered_of_kept (kept_execGateEntryAdvance ..)
  | queueSample => exact answered_of_kept (kept_execQueueSample ..)
  | flrInitiate => exact answered_of_kept (kept_execFlrInitiate ..)
  | flrDone => exact answered_of_kept (kept_execFlrDone ..)
  | bmeClear => exact answered_of_kept (kept_execBmeClear ..)
  | bmeSet => exact answered_of_kept (kept_execBmeSet ..)
  | vfEnableClear => exact answered_of_kept (kept_execVfEnableClear ..)
  | d3hotEntry => exact answered_of_kept (kept_execD3hotEntry ..)
  | d0Return => exact answered_of_kept (kept_execD0Return ..)
  | msixMaskChange => exact answered_of_kept (kept_execMsixMaskChange ..)
  | hostPortReset => exact answered_of_kept (kept_execHostPortReset ..)
  | hostCompletion => exact answered_of_kept (kept_execHostCompletion ..)
  | hostCplTimeout => exact answered_of_kept (kept_execHostCplTimeout ..)
  | tagQuarantineEnd => exact answered_of_kept (kept_execTagQuarantineEnd ..)
  | atsInvalidate => exact answered_of_kept (kept_execAtsInvalidate ..)
  | fnQuota => exact answered_of_kept (kept_execFnQuota ..)
  | fnShare => exact answered_of_kept (kept_execFnShare ..)
  | registerWrite => exact answered_of_kept (kept_execRegisterWrite ..)
  | safNsCreate => exact answered_of_kept (kept_execSafNsCreate ..)
  | safNsAttach => exact answered_of_kept (kept_execSafNsAttach ..)
  | safNsDetach => exact answered_of_kept (kept_execSafNsDetach ..)
  | safNsDelete => exact answered_of_kept (kept_execSafNsDelete ..)
  | safCtrlReset => exact answered_of_kept (kept_execSafCtrlReset ..)
  | sqFetch => exact answered_of_kept (kept_execSqFetch ..)
  | getLogPage => exact answered_of_kept (kept_execGetLogPage ..)
  | identify => exact answered_of_kept (kept_execIdentify ..)
  | abort => exact answered_of_kept (kept_execAbort ..)
  | setFeatures => exact answered_of_kept (kept_execSetFeatures ..)
  | getFeatures => exact answered_of_kept (kept_execGetFeatures ..)
  | asyncEventRequest => exact answered_of_kept (kept_execAsyncEventRequest ..)
  | nvmeFlush => exact answered_of_kept (kept_execNvmeFlush ..)
  | nvmeWrite => exact answered_of_kept (kept_execNvmeWrite ..)
  | nvmeRead => exact answered_of_kept (kept_execNvmeRead ..)
  | writeZeroes => exact answered_of_kept (kept_execWriteZeroes ..)
  | datasetManagement => exact answered_of_kept (kept_execDatasetManagement ..)
  | writeBufferAdmit => exact answered_of_kept (kept_execWriteBufferAdmit ..)
  | destageAck => exact answered_of_kept (kept_execDestageAck ..)
  | vaultArmChange => exact answered_of_kept (kept_execVaultArmChange ..)
  | vaultSaveDone => exact answered_of_kept (kept_execVaultSaveDone ..)
  | nsReadyTimeout => exact answered_of_kept (kept_execNsReadyTimeout ..)
  | sessionReconnectTimer => exact answered_of_kept (kept_execSessionReconnectTimer ..)
  | icResp => exact answered_of_kept (kept_execIcResp ..)
  | capsuleResp => exact answered_of_kept (kept_execCapsuleResp ..)
  | c2hData => exact answered_of_kept (kept_execC2hData ..)
  | readyToTransfer => exact answered_of_kept (kept_execReadyToTransfer ..)
  | c2hTermReq => exact answered_of_kept (kept_execC2hTermReq ..)
  | illegalInstruction => exact answered_of_kept (kept_execIllegalInstruction ..)
  | timedWaitDeadline => exact answered_of_kept (kept_execTimedWaitDeadline ..)
  | add => exact answered_of_kept (kept_execAdd ..)
  | sub => exact answered_of_kept (kept_execSub ..)
  | and => exact answered_of_kept (kept_execAnd ..)
  | or => exact answered_of_kept (kept_execOr ..)
  | xor => exact answered_of_kept (kept_execXor ..)
  | shl => exact answered_of_kept (kept_execShl ..)
  | shr => exact answered_of_kept (kept_execShr ..)
  | sra => exact answered_of_kept (kept_execSra ..)
  | mul => exact answered_of_kept (kept_execMul ..)
  | mulh => exact answered_of_kept (kept_execMulh ..)
  | mulhu => exact answered_of_kept (kept_execMulhu ..)
  | div => exact answered_of_kept (kept_execDiv ..)
  | divu => exact answered_of_kept (kept_execDivu ..)
  | rem => exact answered_of_kept (kept_execRem ..)
  | remu => exact answered_of_kept (kept_execRemu ..)
  | min => exact answered_of_kept (kept_execMin ..)
  | max => exact answered_of_kept (kept_execMax ..)
  | minu => exact answered_of_kept (kept_execMinu ..)
  | maxu => exact answered_of_kept (kept_execMaxu ..)
  | clz => exact answered_of_kept (kept_execClz ..)
  | popc => exact answered_of_kept (kept_execPopc ..)
  | rdp => exact answered_of_kept (kept_execRdp ..)
  | addi => exact answered_of_kept (kept_execAddi ..)
  | andi => exact answered_of_kept (kept_execAndi ..)
  | ori => exact answered_of_kept (kept_execOri ..)
  | xori => exact answered_of_kept (kept_execXori ..)
  | shli => exact answered_of_kept (kept_execShli ..)
  | shri => exact answered_of_kept (kept_execShri ..)
  | srai => exact answered_of_kept (kept_execSrai ..)
  | movz => exact answered_of_kept (kept_execMovz ..)
  | movk0 => exact answered_of_kept (kept_execMovk0 ..)
  | movk1 => exact answered_of_kept (kept_execMovk1 ..)
  | movk2 => exact answered_of_kept (kept_execMovk2 ..)
  | movk3 => exact answered_of_kept (kept_execMovk3 ..)
  | cmpeq => exact answered_of_kept (kept_execCmpeq ..)
  | cmpne => exact answered_of_kept (kept_execCmpne ..)
  | cmplt => exact answered_of_kept (kept_execCmplt ..)
  | cmpge => exact answered_of_kept (kept_execCmpge ..)
  | cmpltu => exact answered_of_kept (kept_execCmpltu ..)
  | cmpgeu => exact answered_of_kept (kept_execCmpgeu ..)
  | cmpeqi => exact answered_of_kept (kept_execCmpeqi ..)
  | cmplti => exact answered_of_kept (kept_execCmplti ..)
  | pand => exact answered_of_kept (kept_execPand ..)
  | por => exact answered_of_kept (kept_execPor ..)
  | pxor => exact answered_of_kept (kept_execPxor ..)
  | pandn => exact answered_of_kept (kept_execPandn ..)
  | fadd => exact answered_of_kept (kept_execFadd ..)
  | fsub => exact answered_of_kept (kept_execFsub ..)
  | fmul => exact answered_of_kept (kept_execFmul ..)
  | fdiv => exact answered_of_kept (kept_execFdiv ..)
  | fsqrt => exact answered_of_kept (kept_execFsqrt ..)
  | fmin => exact answered_of_kept (kept_execFmin ..)
  | fmax => exact answered_of_kept (kept_execFmax ..)
  | fma => exact answered_of_kept (kept_execFma ..)
  | fcvt => exact answered_of_kept (kept_execFcvt ..)
  | fcvti => exact answered_of_kept (kept_execFcvti ..)
  | icvtf => exact answered_of_kept (kept_execIcvtf ..)
  | feq => exact answered_of_kept (kept_execFeq ..)
  | flt => exact answered_of_kept (kept_execFlt ..)
  | fle => exact answered_of_kept (kept_execFle ..)
  | ld8u => exact answered_of_kept (kept_execLd8u ..)
  | ld16u => exact answered_of_kept (kept_execLd16u ..)
  | ld32u => exact answered_of_kept (kept_execLd32u ..)
  | ld64 => exact answered_of_kept (kept_execLd64 ..)
  | ld8s => exact answered_of_kept (kept_execLd8s ..)
  | ld16s => exact answered_of_kept (kept_execLd16s ..)
  | ld32s => exact answered_of_kept (kept_execLd32s ..)
  | st8 => exact answered_of_kept (kept_execSt8 ..)
  | st16 => exact answered_of_kept (kept_execSt16 ..)
  | st32 => exact answered_of_kept (kept_execSt32 ..)
  | st64 => exact answered_of_kept (kept_execSt64 ..)
  | vld => exact answered_of_kept (kept_execVld ..)
  | vst => exact answered_of_kept (kept_execVst ..)
  | amoadd => exact answered_of_kept (kept_execAmoadd ..)
  | amocas => exact answered_of_kept (kept_execAmocas ..)
  | amoswp => exact answered_of_kept (kept_execAmoswp ..)
  | br => exact answered_of_kept (kept_execBr ..)
  | bl => exact answered_of_kept (kept_execBl ..)
  | jr => exact answered_of_kept (kept_execJr ..)
  | jrl => exact answered_of_kept (kept_execJrl ..)
  | vadd => exact answered_of_kept (kept_execVadd ..)
  | vsub => exact answered_of_kept (kept_execVsub ..)
  | vmul => exact answered_of_kept (kept_execVmul ..)
  | vand => exact answered_of_kept (kept_execVand ..)
  | vor => exact answered_of_kept (kept_execVor ..)
  | vxor => exact answered_of_kept (kept_execVxor ..)
  | vshl => exact answered_of_kept (kept_execVshl ..)
  | vshr => exact answered_of_kept (kept_execVshr ..)
  | vsra => exact answered_of_kept (kept_execVsra ..)
  | vmin => exact answered_of_kept (kept_execVmin ..)
  | vmax => exact answered_of_kept (kept_execVmax ..)
  | vadds => exact answered_of_kept (kept_execVadds ..)
  | vsubs => exact answered_of_kept (kept_execVsubs ..)
  | vclmul => exact answered_of_kept (kept_execVclmul ..)
  | vclmulh => exact answered_of_kept (kept_execVclmulh ..)
  | vfadd => exact answered_of_kept (kept_execVfadd ..)
  | vfsub => exact answered_of_kept (kept_execVfsub ..)
  | vfmul => exact answered_of_kept (kept_execVfmul ..)
  | vfdiv => exact answered_of_kept (kept_execVfdiv ..)
  | vfsqrt => exact answered_of_kept (kept_execVfsqrt ..)
  | vfmin => exact answered_of_kept (kept_execVfmin ..)
  | vfmax => exact answered_of_kept (kept_execVfmax ..)
  | vfma => exact answered_of_kept (kept_execVfma ..)
  | vfcvti => exact answered_of_kept (kept_execVfcvti ..)
  | vicvtf => exact answered_of_kept (kept_execVicvtf ..)
  | vfsqd => exact answered_of_kept (kept_execVfsqd ..)
  | vfsumd => exact answered_of_kept (kept_execVfsumd ..)
  | vbcast => exact answered_of_kept (kept_execVbcast ..)
  | vext => exact answered_of_kept (kept_execVext ..)
  | vins => exact answered_of_kept (kept_execVins ..)
  | vmov => exact answered_of_kept (kept_execVmov ..)
  | kld => exact answered_of_kept (kept_execKld ..)
  | kst => exact answered_of_kept (kept_execKst ..)
  | kdec => exact answered_of_kept (kept_execKdec ..)
  | kz => exact answered_of_kept (kept_execKz ..)
  | kadd => exact answered_of_kept (kept_execKadd ..)
  | kacc2f => exact answered_of_kept (kept_execKacc2f ..)
  | ksrd => exact answered_of_kept (kept_execKsrd ..)
  | kmac => exact answered_of_kept (kept_execKmac ..)
  | kenc => exact answered_of_kept (kept_execKenc ..)
  | kencf => exact answered_of_kept (kept_execKencf ..)
  | fence => exact answered_of_kept (kept_execFence ..)
  | icinv => exact answered_of_kept (kept_execIcinv ..)
  | halt => exact answered_of_kept (kept_execHalt ..)
  | wfe => exact answered_of_kept (kept_execWfe ..)
  | evrd => exact answered_of_kept (kept_execEvrd ..)
  | sev => exact answered_of_kept (kept_execSev ..)
  | tdl => exact answered_of_kept (kept_execTdl ..)
  | time => exact answered_of_kept (kept_execTime ..)
  | cadd => exact answered_of_kept (kept_execCadd ..)
  | cset => exact answered_of_kept (kept_execCset ..)
  | crd => exact answered_of_kept (kept_execCrd ..)
  | cwatch => exact answered_of_kept (kept_execCwatch ..)
  | cunwatch => exact answered_of_kept (kept_execCunwatch ..)
  | cwst => exact answered_of_kept (kept_execCwst ..)
  | istart => exact answered_of_kept (kept_execIstart ..)
  | pstart => exact answered_of_kept (kept_execPstart ..)
  | post => exact answered_of_kept (kept_execPost ..)
  | mailboxWrite => exact answered_of_kept (kept_execMailboxWrite ..)
  | mailboxRead => exact answered_of_kept (kept_execMailboxRead ..)
  | replyPost => exact answered_of_kept (kept_execReplyPost ..)
  | crossedWait => exact answered_of_kept (kept_execCrossedWait ..)
  | lockClaim => exact answered_of_kept (kept_execLockClaim ..)
  | lockRelease => exact answered_of_kept (kept_execLockRelease ..)
  | fwHello => exact answered_of_kept (kept_execFwHello ..)
  | cmdWindow => exact answered_of_kept (kept_execCmdWindow ..)
  | paletteCoreFault => exact answered_of_kept (kept_execPaletteCoreFault ..)
  | heartbeatMiss => exact answered_of_kept (kept_execHeartbeatMiss ..)
  | paletteRestartDone => exact answered_of_kept (kept_execPaletteRestartDone ..)
  | paletteComplexReset => exact answered_of_kept (kept_execPaletteComplexReset ..)
  | fwLoad => exact answered_of_kept (kept_execFwLoad ..)
  | fwActivate => exact answered_of_kept (kept_execFwActivate ..)
  | activationDone => exact answered_of_kept (kept_execActivationDone ..)
  | deferredActivationStart => exact answered_of_kept (kept_execDeferredActivationStart ..)
  | spBind => exact answered_of_kept (kept_execSpBind ..)
  | spSend => exact answered_of_kept (kept_execSpSend ..)
  | logBind => exact answered_of_kept (kept_execLogBind ..)
  | traceSet => exact answered_of_kept (kept_execTraceSet ..)
  | logCopyInterrupt => exact answered_of_kept (kept_execLogCopyInterrupt ..)
  | lcQuery => exact answered_of_kept (kept_execLcQuery ..)
  | lcNonce => exact answered_of_kept (kept_execLcNonce ..)
  | lcTransit => exact execLcTransit_answered ..
  | svnCommit => exact execSvnCommit_answered ..
  | attQuote => exact answered_of_kept (kept_execAttQuote ..)
  | attCerts => exact answered_of_kept (kept_execAttCerts ..)
  | aesEnc => exact answered_of_kept (kept_execAesEnc ..)
  | aesDec => exact answered_of_kept (kept_execAesDec ..)
  | sha256 => exact answered_of_kept (kept_execSha256 ..)
  | entropy => exact answered_of_kept (kept_execEntropy ..)
  | cipherJobDone => exact answered_of_kept (kept_execCipherJobDone ..)
  | entropyHealthRetest => exact answered_of_kept (kept_execEntropyHealthRetest ..)
  | lidBreak => exact answered_of_kept (kept_execLidBreak ..)
  | meshFault => exact answered_of_kept (kept_execMeshFault ..)
  | supplyGlitch => exact answered_of_kept (kept_execSupplyGlitch ..)
  | tamperTemp => exact answered_of_kept (kept_execTamperTemp ..)
  | jtagDebugRequest => exact answered_of_kept (kept_execJtagDebugRequest ..)
  | troubleCheck => exact answered_of_kept (kept_execTroubleCheck ..)
  | umberMismatch => exact answered_of_kept (kept_execUmberMismatch ..)
  | marginCheck => exact answered_of_kept (kept_execMarginCheck ..)
  | regionRetireDone => exact answered_of_kept (kept_execRegionRetireDone ..)
  | retentionMeasure => exact answered_of_kept (kept_execRetentionMeasure ..)
  | swatchPeriodic => exact answered_of_kept (kept_execSwatchPeriodic ..)
  | idleClusterTest => exact answered_of_kept (kept_execIdleClusterTest ..)
  | swatchTestDone => exact answered_of_kept (kept_execSwatchTestDone ..)
  | swatRun => exact answered_of_kept (kept_execSwatRun ..)
  | swatCtrlGo => exact answered_of_kept (kept_execSwatCtrlGo ..)
  | unitRetire => exact answered_of_kept (kept_execUnitRetire ..)
  | troubleClear => exact answered_of_kept (kept_execTroubleClear ..)
  | relPolicy => exact answered_of_kept (kept_execRelPolicy ..)
  | rmapRead => exact answered_of_kept (kept_execRmapRead ..)
  | relShutdown => exact answered_of_kept (kept_execRelShutdown ..)
  | rmapJournalWrite => exact answered_of_kept (kept_execRmapJournalWrite ..)
  | rmapRetry => exact answered_of_kept (kept_execRmapRetry ..)
  | sienExport => exact answered_of_kept (kept_execSienExport ..)
  | sienSample => exact answered_of_kept (kept_execSienSample ..)
  | exportInterval => exact answered_of_kept (kept_execExportInterval ..)
  | templateRefresh => exact answered_of_kept (kept_execTemplateRefresh ..)
  | sampledRecordFlush => exact answered_of_kept (kept_execSampledRecordFlush ..)
  | fundamentalReset => exact answered_of_kept (kept_execFundamentalReset ..)
  | regionStartTimeout => exact answered_of_kept (kept_execRegionStartTimeout ..)
  | mapRebuildDone => exact answered_of_kept (kept_execMapRebuildDone ..)
  | mgmtBusRead => exact answered_of_kept (kept_execMgmtBusRead ..)
  | mgmtNodeWrite => exact answered_of_kept (kept_execMgmtNodeWrite ..)
  | mgmtSizeWrite => exact answered_of_kept (kept_execMgmtSizeWrite ..)
  | systemSizeApply => exact answered_of_kept (kept_execSystemSizeApply ..)
  | mgmtWarmWrite => exact answered_of_kept (kept_execMgmtWarmWrite ..)
  | mgmtStartWrite => exact answered_of_kept (kept_execMgmtStartWrite ..)
  | mainInputLost => exact answered_of_kept (kept_execMainInputLost ..)
  | standbyLost => exact answered_of_kept (kept_execStandbyLost ..)
  | junctionOvertemp => exact answered_of_kept (kept_execJunctionOvertemp ..)
  | junctionShutdownTemp => exact answered_of_kept (kept_execJunctionShutdownTemp ..)
  | flowLow => exact answered_of_kept (kept_execFlowLow ..)
  | flowCritical => exact answered_of_kept (kept_execFlowCritical ..)
  | inletHigh => exact answered_of_kept (kept_execInletHigh ..)
  | inletCritical => exact answered_of_kept (kept_execInletCritical ..)
  | vinOutOfRange => exact answered_of_kept (kept_execVinOutOfRange ..)
  | vinOvervolt => exact answered_of_kept (kept_execVinOvervolt ..)
  | powerCap => exact answered_of_kept (kept_execPowerCap ..)
  | emergencyClear => exact answered_of_kept (kept_execEmergencyClear ..)
  | seedWrite => exact answered_of_kept (kept_execSeedWrite ..)
  | factoryJtagSequence => exact execFactoryJtagSequence_answered ..
  | hostPortLeavesReset => exact answered_of_kept (kept_execHostPortLeavesReset ..)
  | continuousHealthTestFailure => exact answered_of_kept (kept_execContinuousHealthTestFailure ..)
  | plannedMoveHandover => exact answered_of_kept (kept_execPlannedMoveHandover ..)
  | umberRestartEnd => exact answered_of_kept (kept_execUmberRestartEnd ..)
  | queueBecomesEligible => exact answered_of_kept (kept_execQueueBecomesEligible ..)
  | tcpSegmentArrival => exact answered_of_kept (kept_execTcpSegmentArrival ..)
  | tcpRetransmissionTimeout => exact answered_of_kept (kept_execTcpRetransmissionTimeout ..)
  | handshakeStallTimeout => exact answered_of_kept (kept_execHandshakeStallTimeout ..)
  | firmwareCwndUpdate => exact answered_of_kept (kept_execFirmwareCwndUpdate ..)
  | timeAwareSystemSteering => exact answered_of_kept (kept_execTimeAwareSystemSteering ..)

@[simp] theorem kept_tick (s : State) : kept (tick s) = kept s := by
  unfold tick
  split
  · rfl
  extract_lets +onlyGivenNames x s1
  rw [kept_safSettle, kept_foldl _ kept_spIrq, kept_units]

/-- A step's fuses: a tick keeps them, and a command burns them as `exec_answered` has it. -/
theorem step_fuses {s t : State} (h : step s = .next t) (hf : FusesLegal s) : FusesBurn s t := by
  unfold step at h
  split at h
  · cases h
    exact (Answers.of_kept (kept_tick s)).fuses hf
  next c rest _ =>
    obtain ⟨u, hu, ha⟩ := exec_answered c { s with pending := rest }
    cases hu.symm.trans h
    have hb := ha.fuses hf
    exact ⟨hb.legal, hb.moves, hb.svn, hb.owners, hb.fresh⟩

/-- Settles O58, from `exec_answered`. -/
theorem everyCommandAnswered : Obligations.EveryCommandAnswered := by
  intro c s
  obtain ⟨t, ht, ha⟩ := exec_answered c s
  exact ⟨t, ht, ha.pending⟩

/-- Settles O59: a step's command keeps the fuses, but for SVN_COMMIT, LC_TRANSIT and the factory's sequence, which burn them by the rules. -/
theorem fusesOnlyBurn : Obligations.FusesOnlyBurn := by
  intro s t h hf
  have hb := step_fuses h hf
  exact ⟨hb.legal, hb.moves, hb.ended, hb.svn, hb.owners, hb.fresh⟩

end Sys2Proof.Machine
end
